-- ==== Sys2Proof/Word.lean ====
section
/-! DEFINITION. Words, bit fields and two's complement over natural numbers: the arithmetic every other file uses. -/

namespace Sys2Proof

abbrev Byte := BitVec 8
abbrev Word := BitVec 32

/-- Bits [lo+w-1 : lo] of `n` (R5: bit 0 is the least significant). -/
def bits (n lo w : Nat) : Nat := n / 2 ^ lo % 2 ^ w

/-- Bit `k` of `n`. -/
def bit (n k : Nat) : Bool := n / 2 ^ k % 2 == 1

/-- `n` with bit `k` set. -/
def setBit (n k : Nat) : Nat := if bit n k then n else n + 2 ^ k

/-- `n` with bit `k` clear. -/
def clearBit (n k : Nat) : Nat := if bit n k then n - 2 ^ k else n

/-- The `w`-bit number `n` read as two's complement. -/
def signed (w n : Nat) : Int := if 2 * (n % 2 ^ w) < 2 ^ w then (n % 2 ^ w : Nat) else (n % 2 ^ w : Nat) - (2 ^ w : Nat)

/-- The `w`-bit two's complement code of `i`. -/
def unsigned (w : Nat) (i : Int) : Nat := (i % (2 ^ w : Nat)).toNat

/-- 1 for true, 0 for false: the content of a one-bit field. -/
def bnat (b : Bool) : Nat := if b then 1 else 0

/-- Addition that stops at the largest `w`-bit number. -/
def satAdd (w a b : Nat) : Nat := min (a + b) (2 ^ w - 1)

/-- The numbers `k < n` whose bit is set in `m`. -/
def onesBelow (n m : Nat) : List Nat := (List.range n).filter (bit m)

/-- Bits of `n` that are 1, up to bit 63. -/
def popcount (n : Nat) : Nat := (onesBelow 64 n).length

/-- ANG differences are taken modulo 2^48 (R81, R95). -/
def mod48 (n : Nat) : Nat := n % 2 ^ 48

/-- `a - b` modulo 2^w. -/
def subMod (w a b : Nat) : Nat := (a + 2 ^ w - b % 2 ^ w) % 2 ^ w

/-- Ticks of one revolution (R7). -/
def rev : Nat := 2 ^ 24

end Sys2Proof
end

