-- ==== Sys2Proof/Syntax.lean ====
section
/-! DEFINITION. The commands of the block: one constructor per row of the table of operations and events. Operands carry what
the row leaves to the outside: the instance, the data written, and what the disk, the host, time or a measurement brings. -/

namespace Sys2Proof

/-- The masters of register space (R59). -/
inductive Master where
  | safety
  | svc
  | mc (c : Fin 8)
  | se (a : Fin 4)
  | ce (k : Fin 8)
  | bar2 (p : Fin 2)
  | cfg
  deriving DecidableEq, Repr

/-- The 5-bit master ID of R59. -/
def Master.id : Master → Nat
  | .safety => 0
  | .svc => 1
  | .mc c => 2 + c.val
  | .se a => 10 + a.val
  | .ce k => 14 + k.val
  | .bar2 p => 22 + p.val
  | .cfg => 24

/-- A register write as a master issues it: the 40-bit internal address and the data; `chan`, where a DMA channel that the
core started issues it (R40, R535). -/
structure RegWrite where
  master : Master
  addr   : Nat
  data   : Word
  chan   : Option (Fin 64) := none
  deriving DecidableEq, Repr

/-- A register read of a master in the same fabric cycle as writes (R62). -/
structure RegRead where
  master : Master
  addr   : Nat
  deriving DecidableEq, Repr

/-- The owner whose strobe an apply point names (R93). -/
inductive Owner where
  | ref
  | surf (s : Fin 32)
  | head (h : Fin 128)
  deriving DecidableEq, Repr

/-- A wedge strobe of an owner; `index` is wedge 0 (R89, R90). -/
structure Strobe where
  owner : Owner
  index : Bool
  deriving DecidableEq, Repr

/-- What one reference reader shows in one frame slot (R72-R74). -/
structure ReaderObs where
  mark   : Option Int   -- ticks from the predicted position to the frame mark found, none where none is found
  cells  : BitVec 16    -- cycles 48-63 in reading order: the 14 Gray-coded bits of the frame number, then the two parity bits
  amp    : Nat          -- burst amplitude, mV peak to peak differential
  phase  : Int          -- measured phase in ticks from the start of frame f
  deriving DecidableEq, Repr

/-- One frame slot of the reference track as the ABU meets it. -/
structure RefFrame where
  f        : Nat              -- the predicted frame number
  pred     : Nat              -- the loop's predicted angle, ticks
  obs      : List ReaderObs   -- REFA to REFD
  phaseErr : Nat              -- loop phase error, ticks
  rpm      : Nat              -- speed the frame rate implies
  rate     : Nat              -- the loop's new rate estimate, 1/65,536 tick per fabric cycle (R79: at most 2 ticks)
  deriving DecidableEq, Repr

/-- A write of LNX_ROUTE as a master issues it. -/
structure RouteWrite where
  master : Master
  lane   : Fin 64
  data   : Word
  deriving DecidableEq, Repr

/-- The fault kinds of a lane (R136). -/
inductive LaneFault where
  | stuck | noclk | bankflt
  deriving DecidableEq, Repr

/-- Measured results of one lane calibration (R137, LANE_CAL). -/
structure LaneCal where
  offset    : Int     -- residual offset, 1/16 LSB (step 1)
  tone      : Int     -- amplitude error, 0.05 dB (step 2)
  dnl       : Nat     -- worst DNL, 1/64 LSB (step 2)
  corner    : Bool    -- the -3 dB point was within 5% (step 3)
  reference : Bool    -- the bank reference was within 0.5% (step 4, where it is run)
  deriving DecidableEq, Repr

/-- ADC codes of consecutive edges of a lane (R115), two's complement; an edge past the list's end gave no sample. -/
abbrev Codes := List (BitVec 7)

/-- Decode-engine fault kinds (R189). -/
inductive EngineFault where
  | parerr | timeout
  deriving DecidableEq, Repr

/-- The gates of a sequencer as its lanes and writer meet their queues (R262). -/
inductive GateName where
  | rgLead | rgTrail | wg | vg
  deriving DecidableEq, Repr

/-- An angle compare unit: of the angle base, or ACA (false) or ACB (true) of a sequencer (R94, R259). -/
inductive CmpUnit where
  | ang (u : Fin 16)
  | fsq (q : Fin 32) (b : Bool)
  deriving DecidableEq, Repr

/-- A stripe's stored parity in the buffer (R225, R226): the address of its first parity member, and its fill. -/
structure StoredParity where
  buf  : Nat
  fill : Nat
  deriving DecidableEq, Repr

/-- What an even lane takes from a servo field (R314-R316): the ADC codes of its edges from the opening of its servo gate on, and the
correlations of the N and Q bursts. The spec gives the correlations' reference no wave form and no scale, so they come with the
command (log 90). -/
structure ServoObs where
  codes : Codes
  (n q : BitVec 16)
  deriving DecidableEq, Repr

/-- The conditions of actuator runaway that time declares (R329). -/
inductive Runaway where
  | idrive | saturate
  deriving DecidableEq, Repr

/-- A member of a stripe as a reconstruction takes it (R227): its index, its expected PSA and its buffer address; a member
that did not end OK or did not pass CHK is an erasure. -/
structure Member where
  parity : Bool
  index  : Nat
  ok     : Bool
  psa    : Nat
  buf    : Nat
  deriving DecidableEq, Repr

/-- A level-2 reconstruction request (R227, R228). -/
structure ReconReq where
  owner     : Nat              -- requesting command engine; while it waits or runs, its owner number (R413)
  (surf track stripe fill : Nat)
  parityBad : Bool             -- a parity member fails CHK at the expected fill
  members   : List Member
  deriving DecidableEq, Repr

/-- A unit that joins at a reference index (R506). -/
inductive Unit4 where
  | lane (n : Fin 64)
  | engine (n : Fin 48)
  | head (n : Fin 128)
  | actuator (n : Fin 4)
  deriving DecidableEq, Repr

/-- What ages (R490): a host command by its fetch sequence, or an internal reservation by its handle. -/
inductive Aged where
  | host (fseq : BitVec 32)
  | internal (handle : Nat)
  deriving DecidableEq, Repr

/-- A register that FLT_CTL.LOCK protects (R623). -/
inductive FltReg where
  | cfg
  | temp
  | src (n : Fin 41)
  deriving DecidableEq, Repr

/-- A rate bucket (R633): of a source, of a rate slot, or the default one. -/
inductive Bucket where
  | src (n : Fin 41)
  | slot (i : Fin 32)
  | default
  deriving DecidableEq, Repr

/-- How a transmission on the rack bus ends (R691, R695). -/
inductive TxResult where
  | acked
  | unacked
  | error
  deriving DecidableEq, Repr

/-- A host access to a function's configuration space, by dword, or to a word of its MSI-X table (R421, R422). -/
inductive ConfigAccess where
  | read (k : Fin 1024)
  | write (k : Fin 1024) (v : Word)
  | tableRead (k : Fin 1028)
  | tableWrite (k : Fin 1028) (v : Word)
  deriving DecidableEq, Repr

/-- A memory error as a read or the scrubber finds it (R526): the array by its code of MEM_UELOGHI.ARRAY, and whether two or
more bits of DRAM, or both copies of a tag, are wrong. -/
structure MemErr where
  addr  : BitVec 40
  array : Fin 7
  hard  : Bool
  deriving DecidableEq, Repr

/-- When a pace event reaches a DMA channel (R537): no block is in progress; one is; or that block ends and the event that
waits is served. -/
inductive PaceAt where
  | idle | busy | served
  deriving DecidableEq, Repr

/-- The atomic memory operations of a management core. -/
inductive CoreAmo where
  | swap | add | xor | and | or | min | max | minu | maxu
  deriving DecidableEq, Repr

/-- An access of a management core to memory (R528). -/
inductive CoreAccess where
  | fetch | load | store
  | amo (op : CoreAmo)
  deriving DecidableEq, Repr

/-- What CFG meets on the full path (R652-R663): whether the NOR's discovery meets R655, its density code, its contents as runs
of bytes by address (what no run lists is erased), and how each DRAM training ends, in turn. -/
structure NorImage where
  fit     : Bool
  density : Fin 4
  runs    : List (Nat × List Byte)
  train   : List Bool
  deriving DecidableEq, Repr

/-- A SETUP packet of USB 2.0 chapter 9 (R678). -/
structure Setup where
  type    : Byte          -- bmRequestType
  request : Byte
  value   : BitVec 16
  index   : BitVec 16
  length  : BitVec 16
  deriving DecidableEq, Repr

/-- The 461 commands. -/
inductive Instr where
  | registerWrite (l : List RegWrite) (reads : List RegRead)
  | snapshotRead (m : Master) (a : BitVec 40) (size : Nat)
  | clearOnRead (m : Master) (a : BitVec 40) (size : Nat)
  | deferredApply (after : Nat)
  | slowWriteCommit
  | bar2Write (p : Fin 2) (off size : Nat) (w : Word) (others : List RegWrite)
  | bar2Read (p : Fin 2) (off size : Nat)
  | bar2Relock (p : Fin 2)
  | bar2WindowExpiry (p : Fin 2) (after : Nat)
  | warmResetRequest (key : BitVec 8)
  | quiesceEnd (after : Nat)
  | warmReset (after : Nat)
  | fullResetRequest (key : BitVec 8)
  | fullReset (after : Nat)
  | powerOnReset (testMode : Bool)
  | supplyMonitorTrip
  | fundamentalReset (p : Fin 2)
  | referenceFrame (x : RefFrame)
  | angleLock
  | abuEnable
  | abuDisable
  | abuReacquire
  | autoReacquire
  | readerUse (r : Fin 4) (use : Bool)
  | readerForceout (r : Fin 4)
  | readerReadmit (r : Fin 4)
  | readerCalibrationEnd (r : Fin 4) (off : Nat) (corr : List Int) (after : Nat)
  | angleWrap
  | angleCompareArm (u : Fin 16) (w : Word)
  | compareTargetWrite (m : Master) (u : Fin 16) (w : Word)
  | angleCompareFire (u : CmpUnit) (after : Nat)
  | synthOutOfRange (k : Fin 64)
  | laneRouteWrite (l : List RouteWrite) (granted : List (Fin 64))
  | routeApply (after : Nat)
  | rdiCtlWrite (n : Fin 256) (w : Word)
  | readerInputFault (n : Fin 256) (isOpen : Bool)
  | overrange (l : Fin 64) (first last : Nat)
  | laneForceout (n : Fin 64)
  | laneReadmit (n : Fin 64)
  | laneRecal (n : Fin 64)
  | deferredRecal (n : Fin 64)
  | laneFault (n : Fin 64) (k : LaneFault)
  | laneCalibrationEnd (n : Fin 64) (c : LaneCal)
  | unitJoin (u : Unit4) (after : Nat)
  | syncDeclare (l : Fin 64) (codes : Codes) (after : Nat)
  | sectorCapture (c : Fin 128) (lead trail : Codes) (parity : Bool) (after : Nat)
  | acornPeriod
  | localIterationEnd (e : Fin 48)
  | redetectionEnd (p : Fin 32)
  | contextParityError (c : Fin 128)
  | itbEnable (on : Bool)
  | itbNoborrow (on : Bool)
  | decodeEngineForceout (e : Fin 48)
  | decodeEngineReadmit (e : Fin 48)
  | decodeEngineFault (e : Fin 48) (k : EngineFault)
  | engineSelftestEnd (e : Fin 48) (pass : Bool)
  | tpeEnable (on : Bool)
  | tpeReconPermit (on : Bool)
  | tpeLockedWrite (m : Master) (k : Fin 8) (w : Word)
  | reconstructionRequest (r : ReconReq)
  | reconstructionEnd (k : Fin 4)
  | reallocation (surf : Fin 64) (track : Fin 1048576) (slot : Fin 1024) (gen : Fin 4096) (cmd : Option Word)
  | defectMapInsert (surf : Fin 64) (track : Fin 1048576) (slot : Fin 1024) (kind : Fin 4) (tsurf : Fin 64) (ttrack : Fin 1048576) (tslot : Fin 1024)
  | jobDispatch
  | seqCont (q : Fin 32)
  | seqBr (q : Fin 32)
  | seqWait (q : Fin 32)
  | seqCall (q : Fin 32)
  | seqRet (q : Fin 32)
  | seqDisp (q : Fin 32)
  | seqEnd (q : Fin 32)
  | seqAbandon (q : Fin 32)
  | rgOpen (q : Fin 32)
  | rgClose (q : Fin 32)
  | wgOpen (q : Fin 32)
  | wgClose (q : Fin 32)
  | vgOpen (q : Fin 32)
  | vgClose (q : Fin 32)
  | gateActionAct (q : Fin 32) (g : GateName) (after : Nat)
  | svgOn (q : Fin 32)
  | svgOff (q : Fin 32)
  | rteRoute (q : Fin 32)
  | rteRoutelead (q : Fin 32)
  | rteRelease (q : Fin 32)
  | synArm (q : Fin 32)
  | synArmlead (q : Fin 32)
  | synRestart (q : Fin 32)
  | synCancel (q : Fin 32)
  | jopFetch (q : Fin 32)
  | jopDone (q : Fin 32)
  | jopReturn (q : Fin 32)
  | wdsPrep (q : Fin 32) (attempt : Nat) (stored : Option StoredParity)
  | wdsCancel (q : Fin 32)
  | lfzFreeze (q : Fin 32)
  | lfzRelease (q : Fin 32)
  | htrWriteHeat (q : Fin 32)
  | htrReadHeat (q : Fin 32)
  | fsqPostStatus (q : Fin 32)
  | fsqPostIrq (q : Fin 32)
  | fsqPostEvent (q : Fin 32)
  | fsqPostStatusIrq (q : Fin 32)
  | stamp (q : Fin 32)
  | acopLds (q : Fin 32)
  | acopLdr (q : Fin 32)
  | acopLdn (q : Fin 32)
  | acopLdi (q : Fin 32)
  | acopDisarm (q : Fin 32)
  | pcopLds (q : Fin 32)
  | pcopLde (q : Fin 32)
  | pcopLda (q : Fin 32)
  | pcopAdd (q : Fin 32)
  | pcopDisarm (q : Fin 32)
  | positionCompareMeet (q : Fin 32) (b : Bool) (after : Nat)
  | counterLoad (q : Fin 32) (c1 : Bool)
  | counterDecrement (q : Fin 32) (c1 : Bool)
  | counterIncrement (q : Fin 32) (c1 : Bool)
  | fsqBreakpoint (q : Fin 32)
  | microwordParityError (q : Fin 32)
  | jobWatchdog (q : Fin 32)
  | drainEnd (q : Fin 32)
  | fsqEnable (q : Fin 32) (on : Bool)
  | fsqStop (q : Fin 32)
  | fsqClrmchk (q : Fin 32)
  | fsqStep (q : Fin 32)
  | fsqResume (q : Fin 32)
  | fsqStoreOpen (a : Fin 4) (on : Bool)
  | fsqStoreOpened (a : Fin 4)
  | fsqStoreWrite (m : Master) (a : Fin 4) (off size : Nat) (v : BitVec 64)
  | fsqStoreRead (m : Master) (a : Fin 4) (off size : Nat) (bad : Bool)
  | prepReady (q : Fin 32)
  | preparedParityError (q : Fin 32)
  | writerFence (q : Fin 32) (after : Nat)
  | wrfEnable (on : Bool)
  | wrfWen (on : Bool)
  | verifyRecord (q : Fin 32) (n : Fin 1024) (stream : Option Codes)
  | servoSampleRecord (h : Fin 128) (x : ServoObs) (after : Nat)
  | sampleMissTimeout (h : Fin 128) (after : Nat)
  | guardRelease (a : Fin 4)
  | actuatorRunaway (a : Fin 4) (k : Runaway) (after : Nat)
  | servoLoss (a : Fin 4) (after : Nat)
  | vcmUpdate (a : Fin 4) (after : Nat)
  | vcmCommandWrite (a : Fin 4) (w : Word)
  | maWrite (h : Fin 128) (w : Word)
  | maSend (h : Fin 128) (after : Nat)
  | seekGrant (a : Fin 4)
  | seekTimeout (a : Fin 4) (after : Nat)
  | loadTimeout (a : Fin 4) (after : Nat)
  | retractEnd (a : Fin 4) (after : Nat)
  | servoDone (a : Fin 4)
  | servoLoad (a : Fin 4)
  | servoUnload (a : Fin 4)
  | actuatorForceout (a : Fin 4)
  | actuatorReadmit (a : Fin 4)
  | headForceout (h : Fin 128)
  | headReadmit (h : Fin 128)
  | safeFrame (a : Fin 4)
  | ackFrame (a : Fin 4)
  | selectFrame (a : Fin 4)
  | maFrame (a : Fin 4)
  | heaterFrame (a : Fin 4)
  | biasFrame (a : Fin 4)
  | regwrFrame (a : Fin 4)
  | regrdFrame (a : Fin 4)
  | statFrame (a : Fin 4) (v : BitVec 50)
  | faultFrame (a : Fin 4) (v : BitVec 50)
  | nakFrame (a : Fin 4) (v : BitVec 50)
  | regdataFrame (a : Fin 4) (v : BitVec 50)
  | contactFrame (a : Fin 4) (v : BitVec 50)
  | mafaultFrame (a : Fin 4) (v : BitVec 50)
  | armEnable (a : Fin 4) (on : Bool)
  | armRetrain (a : Fin 4)
  | armSafeRequest (a : Fin 4)
  | linkTrained (a : Fin 4)
  | trainTimeout (a : Fin 4) (after : Nat)
  | armLinkLoss (a : Fin 4)
  | afeRegisterAccess (a : Fin 4) (w : Word)
  | afeAccessTimeout (a : Fin 4) (after : Nat)
  | spindleEnable (on : Bool)
  | spindleRun (on : Bool)
  | spindleBrake
  | speedTargetWrite (w : Nat)
  | motorConfigWrite (w : Nat)
  | powerStageFault
  | detectAttemptEnd (p q : Nat)
  | injectHandover
  | zeroCrossing (phase : Fin 3) (up : Bool) (after : Nat)
  | commutation (after : Nat)
  | coastTimeout (after : Nat)
  | speedMeasurement (v : Nat) (revEnd : Bool)
  | regulatorUpdate (ms : Nat)
  | phaseCurrentLimit (ma : Nat)
  | brakeSense (mv after : Nat)
  | powerFail (pin : Bool) (oks : List Bool)
  | powerFailUnitRecord (oks : List Bool) (after : Nat)
  | powerFailHoldEnd (after : Nat)
  | busBelowVmin
  | powerFailSequenceEnd
  | phaseLockTimeout (after : Nat)
  | macSample (c : Fin 32) (x : Int) (after : Nat)
  | macFilterReset (c : Fin 32)
  | macSyncReset (c : Fin 32)
  | triggerDispatch (e : Fin 12)
  | nop (e : Fin 12)
  | aluAdd (e : Fin 12)
  | aluSub (e : Fin 12)
  | aluAnd (e : Fin 12)
  | aluOr (e : Fin 12)
  | aluXor (e : Fin 12)
  | aluShl (e : Fin 12)
  | aluShr (e : Fin 12)
  | aluSra (e : Fin 12)
  | aluShli (e : Fin 12)
  | aluShri (e : Fin 12)
  | aluSrai (e : Fin 12)
  | aluSlt (e : Fin 12)
  | aluSltu (e : Fin 12)
  | aluMin (e : Fin 12)
  | aluMax (e : Fin 12)
  | aluMul (e : Fin 12)
  | aluMulh (e : Fin 12)
  | aluClz (e : Fin 12)
  | aluPopc (e : Fin 12)
  | addi (e : Fin 12)
  | andi (e : Fin 12)
  | ori (e : Fin 12)
  | xori (e : Fin 12)
  | immx (e : Fin 12)
  | slti (e : Fin 12)
  | ldw (e : Fin 12)
  | ldd (e : Fin 12)
  | loadReturn (e : Fin 12) (k : Fin 4) (err : Option MemErr)
  | stw (e : Fin 12)
  | std (e : Fin 12)
  | amoSwap (e : Fin 12)
  | amoAdd (e : Fin 12)
  | amoCas (e : Fin 12)
  | br (e : Fin 12)
  | call (e : Fin 12)
  | ret (e : Fin 12)
  | jr (e : Fin 12)
  | angrAngle (e : Fin 12)
  | angrTime (e : Fin 12)
  | emit (e : Fin 12)
  | hifComplete (e : Fin 12)
  | hifToHostComplete (e : Fin 12)
  | hifFromHost (e : Fin 12)
  | hifToHost (e : Fin 12)
  | postEvent (e : Fin 12)
  | postInterrupt (e : Fin 12)
  | postRelease (e : Fin 12)
  | commit (e : Fin 12)
  | done (e : Fin 12)
  | routineTimeout (e : Fin 12) (after : Nat)
  | microopParityError (e : Fin 12) (k : Fin 4)
  | veTimerExpiry (e : Fin 12) (after : Nat)
  | mailboxWrite (m : Master) (e : Fin 12) (w : Word)
  | engineHalt (e : Fin 12)
  | engineResume (e : Fin 12)
  | engineClrmchk (e : Fin 12)
  | veStoreOpen (e : Fin 12) (on : Bool)
  | veStoreWrite (m : Master) (e : Fin 12) (off size : Nat) (v : BitVec 64)
  | veStoreRead (m : Master) (e : Fin 12) (off size : Nat) (bad : Bool)
  | generalRegisterWrite (m : Master) (e : Fin 12) (g : Fin 32) (w : Word)
  | linkDown (p : Fin 2)
  | functionLevelReset (p : Fin 2)
  | controllerEnable (p : Fin 2) (cc aqa : Word) (asq acq : BitVec 64)
  | controllerReset (p : Fin 2)
  | nvmSubsystemReset
  | normalShutdown (p : Fin 2)
  | abruptShutdown (p : Fin 2)
  | commandFetch (e0 e1 : List Word)
  | deleteIoSq
  | createIoSq
  | deleteIoCq
  | createIoCq
  | getLogPage (base : BitVec 40) (page : List Byte)
  | identify
  | abort
  | setFeatures
  | getFeatures
  | asyncEventRequest
  | firmwareCommit
  | firmwareImageDownload
  | stateDigest
  | diagnosticWindowUnlock
  | ledgerRead (base : BitVec 40)
  | adminDone (k : Fin 1024) (data : List Byte)
  | hifPause (on : Bool)
  | flush (fseq : BitVec 32)
  | write (fseq : BitVec 32)
  | read (fseq : BitVec 32)
  | writeZeroes (fseq : BitVec 32)
  | verify (fseq : BitVec 32)
  | zoneOpen (fseq : BitVec 32)
  | zoneClose (fseq : BitVec 32)
  | zoneFinish (fseq : BitVec 32)
  | zoneReset (fseq : BitVec 32)
  | zoneOffline (fseq : BitVec 32)
  | zoneManagementReceive (fseq : BitVec 32)
  | zoneAppend (fseq : BitVec 32)
  | zoneAttribute (fseq : BitVec 32)
  | writeDataIn (fseq : BitVec 32) (data md : List (List Byte))
  | reservationRequest (m : Master) (w : Word)
  | overlapClear (fseq : BitVec 32)
  | reservationGrant
  | trackLockGrant (surf : Fin 32) (track : Fin 1048576)
  | agePromotion (u : Aged) (after : Nat)
  | schEnable (on : Bool)
  | schHold (on : Bool)
  | schRestart
  | tokenObtained
  | spindleInrange
  | spinupTimeout (after : Nat)
  | cicadaEntry
  | cicadaReached
  | cicadaWake
  | calibrationRequest
  | forcedTake (after : Nat)
  | forcedRevolutionStart (a : Fin 4) (after : Nat)
  | forcedRevolutionEnd (a : Fin 4) (after : Nat)
  | dramInit (raw : BitVec 5) (rate : BitVec 2)
  | dramInitEnd (ok : Bool)
  | dramRefresh
  | l1Invalidate (c : Fin 8)
  | l1Enable (c : Fin 8) (ien den : Bool)
  | l2Enable
  | l2Disable
  | l2DisableEnd
  | l2Clean (all : Bool) (set : Fin 32768) (way : Fin 16) (line : Option (BitVec 40))
  | l2Inval (all : Bool) (set : Fin 32768) (way : Fin 16) (line : Option (BitVec 40))
  | l2Cleaninv (all : Bool) (set : Fin 32768) (way : Fin 16) (line : Option (BitVec 40))
  | l2MaintEnd
  | cboClean (c : Fin 8) (a : BitVec 40)
  | cboFlush (c : Fin 8) (a : BitVec 40)
  | cboInval (c : Fin 8) (a : BitVec 40)
  | cboZero (c : Fin 8) (a : BitVec 40)
  | bucketLeak (after : Nat)
  | flipArm (w : Word)
  | scrubRead (words : Nat) (errs : List MemErr)
  | dmaStart (m : Master) (c : Fin 64)
  | dmaStop (c : Fin 64)
  | dmaResume (c : Fin 64)
  | descriptorFetch (c : Fin 64)
  | paceEvent (c : Fin 64) (p : PaceAt) (after : Nat)
  | descriptorEnd (c : Fin 64)
  | dmaBusError (c : Fin 64) (n : Nat) (write : Bool)
  | dmaHalt (staged : List (Fin 64 × Nat))
  | sectorCheck
  | checkClaim (m : Master)
  | checkRelease (m : Master)
  | checkCompute (m : Master) (w : Word)
  | checkComputeEnd
  | compressionSubmit (m : Master) (w : Word)
  | pack
  | unpack
  | deflate
  | inflate
  | compressionEnd (k : Fin 5) (outs : List (List Byte))
  | rewriteRequest (m : Master) (w : Word)
  | rewriteServe
  | patrolSelect
  | workAck (w : Word)
  | workTimeout (n : Fin 65536) (after : Nat)
  | workRetry (after : Nat)
  | checkpointTimer (after : Nat)
  | statisticFlush
  | slackReading (sl : List Int) (after : Nat)
  | avsTimeout (after : Nat)
  | temperatureReading (ts : List Int) (after : Nat)
  | weeklyProjection
  | calibrationPlan (h : Fin 128)
  | hltWake
  | safeReached
  | recoveryTimeout (n : Fin 41) (after : Nat)
  | faultAcknowledge (m : Master) (hi : Bool) (w : Word)
  | faultForce (hi : Bool) (w : Word)
  | holdRelease
  | faultLock
  | faultConfigWrite (r : FltReg) (w : Word)
  | clockLoss (k : Fin 6)
  | watchdogEnable (c : Fin 8) (w : Word)
  | watchdogKick (m : Master) (c : Fin 8) (key : Byte)
  | watchdogExpiry (c : Fin 8) (after : Nat)
  | eventStore
  | tokenRefill (b : Bucket) (after : Nat)
  | pageTimeout (after : Nat)
  | pageProgram (ok : Bool)
  | sectorErase (ok : Bool)
  | eventFlush
  | norLogEnable (on : Bool)
  | firmwareRecord (m : Master) (w : Word)
  | imageLoad (n : NorImage) (after : Nat)
  | clockLockTimeout (after : Nat)
  | handover
  | restoreDone
  | norRead (len : BitVec 24)
  | norProgram (len : BitVec 24)
  | norErase4k
  | norErase64k
  | norCommandEnd (ok : Bool) (data : List Byte)
  | vbusChange (v : Bool)
  | usbBusReset (hs : Bool)
  | usbSuspend (on : Bool)
  | standardRequest (x : Setup)
  | svcRegrd (off : Word) (len : BitVec 16)
  | svcRegwr (off : Word) (words : List Word)
  | svcDigest (len : BitVec 16)
  | svcMemrd (len : BitVec 16) (err : Option MemErr)
  | svcMemwr (bytes : List Byte)
  | svcReset (kind len : BitVec 16)
  | svcFuse (sel : BitVec 16) (bytes : List Byte)
  | outCommit (rivals : List (List RegWrite))
  | eventStream
  | digestInterrupt
  | frameTransmit (r : TxResult)
  | busoffRecovery
  | busoffRestart
  | soloDelayEnd (after : Nat)
  | helloTimer (after : Nat)
  | tokreqTimer (after : Nat)
  | tokholdTimer (after : Nat)
  | alertReceive (src : Fin 512)
  | beaconReceive (src : Fin 512) (x : BitVec 24) (num : Byte)
  | tokgrantReceive (src dst : Fin 512) (seq : BitVec 16)
  | tokreqReceive (src : Fin 512) (seq : BitVec 16)
  | tokholdReceive (src : Fin 512)
  | tokrelReceive (src : Fin 512)
  | helloReceive (src : Fin 512) (flags : Byte)
  | digreqReceive (src : Fin 512)
  | digestReceive (src : Fin 512)
  | stewardChange (n : Fin 512) (after : Nat)
  | tokenGrant (after : Nat)
  | beaconMasterChange (after : Nat)
  | beaconSend (after : Nat)
  | rackAlertSense
  | rackAlertRelease (after : Nat)
  | tpeContextParityError (slot : Fin 32) (k : Option (Fin 4))
  | synthRangeReturn (k : Fin 64)
  | readerInputFaultClear (n : Fin 256) (isOpen : Bool)
  | powerStageFaultClear
  | pwmPeriod
  | detectRetry (after : Nat)
  | badUplinkFrame (a : Fin 4) (v : Nat)
  | servoGateOpen (l : Fin 64)
  | servoGateClose (l : Fin 64)
  | doorbellWrite (p : Fin 2) (q : Fin 257) (cq : Bool) (v : BitVec 16)
  | pcieConfigAccess (p : Fin 2) (a : ConfigAccess)
  | pcieLinkUp (p : Fin 2) (speed : Fin 6) (width : Fin 5)
  | pcieError (p : Fin 2) (uncorrectable : Bool)
  | interruptCoalescingTimeout (p : Fin 2) (v : Fin 257) (after : Nat)
  | recoveryTimeLimit (fseq : BitVec 32)
  | hostTransferDone (fseq : BitVec 32)
  | coreMemoryAccess (c : Fin 8) (k : CoreAccess) (a : BitVec 40) (size : Fin 4) (v : BitVec 64) (err : Option MemErr)
  | fenceI (c : Fin 8)
  | poweredHour (after : Nat)
  | cricketToggle (after : Nat)
  | tokenHoldExpiry (n : Fin 512) (after : Nat)
  | foreignFrameReceive
  | canReceiveError (major : Bool)
  | clockRelock (k : Fin 6)
  | avsAcknowledge
  deriving DecidableEq, Repr

end Sys2Proof
end

