-- ==== Sys2Proof/Config.lean ====
section
/-! DEFINITION. What an implementation fixes and the spec leaves open. An opaque constant has no body that a proof can use:
a claim that mentions one holds for every value it could have. -/

namespace Sys2Proof

/-- The n-th free value: a result that the spec calls undefined or does not state (log 3). -/
opaque Config.freeValue : Nat → Nat

/-- The end of an actuator's busy jobs, in ticks from now, as SCH estimates it at a device cycle: the spec does not say how
(R480, log 3). -/
opaque Config.busyEnd : Nat → Nat → Nat

/-- The power state descriptors of Identify Controller: the image supplies them, and the spec does not say where in it (R437, log 98). -/
opaque Config.powerState : Nat → BitVec 256

/-- An equaliser sum that is no multiple of 256 is rounded up: the spec does not state how the FIR rounds (R115, log 72). -/
opaque Config.firUp : Int → Bool

end Sys2Proof
end

