-- ==== Sys2Proof/Machine/Fields.lean ====
section
/-! DEFINITION. The names of the register map: the blocks of R49, every register that a chapter of spec/ gives a
header, and every field that its table names. The access code, apply point and reset value of each is in
Machine/RegTable.lean. A reserved range ("—") is no field: it reads 0 (R15). -/

namespace Sys2Proof.Machine

/-- Access codes of R14, with the two combinations the register tables use. -/
inductive Acc where
  | ro | rw | rwm | w1c | rc | wd | rwmWd | snap
  deriving DecidableEq, Repr

/-- Apply points of R16, and the route strobe of R113 (LNX_ROUTE alone). -/
inductive Apply where
  | immediate | wedge | rev | route
  deriving DecidableEq, Repr

/-- The block windows of R49. -/
inductive Block where
  | SYS
  | ANG
  | LNX
  | LANE
  | RDI
  | ITB
  | TPE
  | FSQ
  | WRF
  | SRV
  | ARM
  | SPN
  | MAC
  | VE
  | HIF
  | SCH
  | MEM
  | DMA
  | CHK
  | CMP
  | HLT
  | FLT
  | EVT
  | CFG
  | SVC
  | RCK
  deriving DecidableEq, Repr

/-- Every register of spec/, by the name its header gives it. An array is one name; its instances have an index. -/
inductive Reg where
  -- SYS (spec/02_register_conventions.md)
  | SYS_ID
  | SYS_STEP
  | SYS_CAP
  | SYS_STAT
  | SYS_CLKSTAT
  | SYS_RSTCTL
  | SYS_RSTCAUSE
  | SYS_CONFLICT
  | SYS_CONFLICT_ADDR
  | SYS_PEND
  | SYS_BAR2CTL
  -- ANG (spec/03_angle_base.md)
  | ANG_CTL
  | ANG_GEOM
  | ANG_STAT
  | ANG_LOSS
  | ANG_LO
  | ANG_HI
  | ANG_TSLO
  | ANG_TSHI
  | ANG_PERIOD
  | ANG_LOOP
  | ANG_TOL
  | ANG_REFCTL
  | ANG_REFSTAT
  | ANG_REFERR
  | ANG_REFOFF
  | ANG_PEND
  | ANG_SOFF
  | ANG_RRO
  | ANG_HOFF
  | ANG_HSKEW
  | ANG_SCKRATE
  | ANG_WCKRATE
  | ANG_SCKPHASE
  | ANG_WCKPHASE
  | ANG_SCKSTAT
  | ANG_WCKSTAT
  | ANG_CMPCTL
  | ANG_CMPTGTLO
  | ANG_CMPTGTHI
  | ANG_CMPSTAT
  -- LNX (spec/04_reader_lanes.md)
  | LNX_CTL
  | LNX_STAT
  | LNX_PEND0
  | LNX_PEND1
  | LNX_ROUTE
  -- LANE (spec/04_reader_lanes.md)
  | LANE_CTL
  | LANE_STAT
  | LANE_OVRCNT
  | LANE_PEND
  | LANE_AFE
  | LANE_AGC
  | LANE_GAIN
  | LANE_TLOOP
  | LANE_TPHASE
  | LANE_MODE
  | LANE_FIR
  | LANE_FIRCFG
  | LANE_TARGET
  | LANE_CAL
  -- RDI (spec/04_reader_lanes.md)
  | RDI_CTL
  | RDI_STAT
  -- ITB (spec/05_detection_and_decoding.md)
  | ITB_CTL
  | ITB_STAT
  | ITB_POOL
  | ITB_POOLLVL
  | ITB_LIMIT
  | ITB_PROFBASE
  | ITB_CODEBASE
  | ITB_GUARLO
  | ITB_GUARHI
  | ITB_BORRLO
  | ITB_BORRHI
  | ITB_FAILCNT
  | ITB_FAILCNT2
  | ITB_PEND
  | ITB_ENGCTL
  | ITB_ENGSTAT
  -- TPE (spec/06_media_format.md)
  | TPE_CTL
  | TPE_STAT
  | TPE_ZONEBASE
  | TPE_ZONECNT
  | TPE_LAYBASE
  | TPE_LAYCNT
  | TPE_DEFBMP
  | TPE_DEFLO
  | TPE_DEFHI
  | TPE_DEFMAX
  | TPE_DEFCNT
  | TPE_RECON
  -- FSQ (spec/07_format_sequencers.md)
  | FSQ_CTL
  | FSQ_STAT
  | FSQ_PC
  | FSQ_JOB
  | FSQ_JSTARTLO
  | FSQ_JSTARTHI
  | FSQ_ZGEOM
  | FSQ_ZU
  | FSQ_ENTRY
  | FSQ_CNT
  | FSQ_CMPSTAT
  | FSQ_POS
  | FSQ_STAMPLO
  | FSQ_STAMPHI
  | FSQ_STAMPPOS
  | FSQ_ABNCNT
  | FSQ_CFG
  | FSQ_PEND
  | FSQ_CSCTL
  | FSQ_CSSTAT
  -- WRF (spec/08_write_and_verify.md)
  | WRF_CTL
  | WRF_STAT
  | WRF_VCRIT
  | WRF_VCRIT2
  | WRF_RETRY
  | WRF_HWEN
  | WRF_VCNT
  | WRF_MDEXPLO
  | WRF_MDEXPHI
  | WRF_MDOBSLO
  | WRF_MDOBSHI
  | WRF_PEND
  | WRF_GUARD
  | WRF_SHKLIM
  | WRF_ONTRK
  | WRF_GSTAT
  | WRF_SSTAT
  | WRF_PRECOMP
  | WRF_SVCNT
  -- SRV (spec/09_servo_and_actuators.md)
  | SRV_CTL
  | SRV_STAT
  | SRV_CAL
  | SRV_VTGT
  | SRV_VPOS
  | SRV_VCMCMD
  | SRV_VCMOUT
  | SRV_TIMING
  | SRV_SFMT
  | SRV_SAMPAT
  | SRV_SETTLE
  | SRV_MACFG
  | SRV_RUN
  | SRV_RANGE0
  | SRV_RANGE1
  | SRV_VCMLIM
  | SRV_RVFF
  | SRV_RVFIR
  | SRV_CONTACT
  | SRV_RETRACT
  | SRV_TIMEOUT
  | SRV_CNT
  | SRV_PEND
  | SRV_HCTL
  | SRV_HSTAT
  | SRV_HTGT
  | SRV_XOFF
  | SRV_MA
  | SRV_HPRED
  | SRV_SMP0
  | SRV_SMP1
  | SRV_SMP2
  | SRV_SMP3
  -- ARM (spec/09_servo_and_actuators.md)
  | ARM_CTL
  | ARM_STAT
  | ARM_ERR
  | ARM_WSTAT
  | ARM_HCFG
  | ARM_REGCMD
  | ARM_REGRSP
  | ARM_CONTACT
  | ARM_HTR
  -- SPN (spec/10_spindle.md)
  | SPN_CTL
  | SPN_STAT
  | SPN_SPEED
  | SPN_MEAS
  | SPN_MOTOR
  | SPN_PWM
  | SPN_ILIM
  | SPN_GRANT
  | SPN_HFI
  | SPN_BEMF
  | SPN_REG
  | SPN_PFAIL
  | SPN_PFCFG
  | SPN_PFSTAT
  | SPN_PHLOCK
  | SPN_PHERR
  | SPN_PEND
  | SPN_PADV
  -- MAC (spec/10_spindle.md)
  | MAC_CTL
  | MAC_PEND
  | MAC_CHCFG
  | MAC_CHSYNC
  | MAC_CHDATA
  | MAC_CHSTAT
  -- VE (spec/11_vertical_engines.md)
  | VE_STAT
  | VE_ECTL
  | VE_ESTAT
  | VE_EPC
  | VE_ETRIG
  | VE_ECFG
  | VE_ETIMER
  | VE_EQSTAT
  | VE_ECNT
  | VE_ECNT2
  | VE_MBOXLO
  | VE_MBOXHI
  | VE_CSCTL
  | VE_CSSTAT
  | VE_GLO
  | VE_GHI
  -- HIF (spec/12_host_interface.md)
  | HIF_CTL
  | HIF_PORTCFG
  | HIF_STAT
  | HIF_INFLIGHT
  | HIF_PEAK
  | HIF_FSEQ
  | HIF_CMDBASE
  | HIF_NSTBASE
  | HIF_HZTLO
  | HIF_HZTHI
  | HIF_ADMRBASE
  | HIF_ADMRPTR
  | HIF_ADMDONE
  | HIF_DPCNT
  | HIF_DIGCNT
  | HIF_LNKSTAT
  | HIF_NVMSTAT
  | HIF_PERR
  | HIF_ABCNT
  -- SCH (spec/13_scheduler.md)
  | SCH_CTL
  | SCH_STAT
  | SCH_RQLO
  | SCH_RQHI
  | SCH_RQRSPLO
  | SCH_RQRSPHI
  | SCH_AGE
  | SCH_CAL
  | SCH_BUFLO
  | SCH_BUFHI
  | SCH_BUFCFG
  | SCH_BUFINT
  | SCH_BUFSTAT
  | SCH_ACORN
  | SCH_PWRBUD
  | SCH_PWRCOST
  | SCH_PWRSPN
  | SCH_SPNGRANT
  | SCH_SPIN
  | SCH_SOLO
  | SCH_PWRLVL
  | SCH_TIMING
  | SCH_DRAMSH
  | SCH_SEEKT
  | SCH_OVL
  | SCH_CNT
  | SCH_DLAT
  | SCH_ASTAT
  -- MEM (spec/14_memory_and_dma.md)
  | MEM_L2CTL
  | MEM_L2MAINT
  | MEM_STAT
  | MEM_ERRCNT
  | MEM_LEAK
  | MEM_BUCKET
  | MEM_CELOGLO
  | MEM_UELOGLO
  | MEM_CELOGHI
  | MEM_UELOGHI
  | MEM_BERRLO
  | MEM_BERRHI
  | MEM_FLIPCTL
  | MEM_FLIPADDRLO
  | MEM_FLIPADDRHI
  | MEM_FLIPMASK
  | MEM_SCRUB
  | MEM_SCRUBSTAT
  | MEM_DRCFG
  | MEM_DRSTAT
  | MEM_L1CTL
  | MEM_RGBASE
  | MEM_RGLIMIT
  | MEM_RGATTR
  -- DMA (spec/14_memory_and_dma.md)
  | DMA_CTL
  | DMA_STAT
  | DMA_CFG
  | DMA_IRQ0
  | DMA_IRQ1
  | DMA_BERRLO
  | DMA_BERRHI
  | DMA_CCTL
  | DMA_CCFG
  | DMA_CDESCLO
  | DMA_CDESCHI
  | DMA_CCURLO
  | DMA_CCURHI
  | DMA_CREMAIN
  | DMA_CSTAT
  -- CHK (spec/15_check_values_and_compression.md)
  | CHK_CTL
  | CHK_STAT
  | CHK_CNT
  | CHK_STBASE
  | CHK_FAILLO
  | CHK_FAILHI
  | CHK_SWOWN
  | CHK_SWCTL
  | CHK_SWSTAT
  | CHK_SWSRCLO
  | CHK_SWSRCHI
  | CHK_SWLEN
  | CHK_SWSEEDLO
  | CHK_SWSEEDHI
  | CHK_SWRESLO
  | CHK_SWRESHI
  -- CMP (spec/15_check_values_and_compression.md)
  | CMP_CTL
  | CMP_STAT
  | CMP_SUBLO
  | CMP_SUBHI
  | CMP_DIRLO
  | CMP_DIRHI
  | CMP_MAPLO
  | CMP_MAPHI
  | CMP_DIRCNT
  | CMP_SLOTS
  | CMP_CNT
  | CMP_FAILCNT
  | CMP_DONE
  -- HLT (spec/16_health_and_ageing.md)
  | HLT_CTL
  | HLT_STAT
  | HLT_POH
  | HLT_LEDGERLO
  | HLT_LEDGERHI
  | HLT_WSBASE
  | HLT_WSCFG
  | HLT_MIRROR
  | HLT_JRNL
  | HLT_RWLO
  | HLT_RWHI
  | HLT_RWRSPLO
  | HLT_RWRSPHI
  | HLT_WQBASE
  | HLT_WQPTR
  | HLT_WQACK
  | HLT_MCOEF
  | HLT_MLIM
  | HLT_INTF
  | HLT_WEEVIL
  | HLT_TRIM
  | HLT_CAL
  | HLT_AVS
  | HLT_AVSSTAT
  | HLT_PLAN
  | HLT_PROJ
  | HLT_REPL
  | HLT_TEMP
  | HLT_CNT
  -- FLT (spec/17_faults_and_events.md)
  | FLT_CTL
  | FLT_STAT
  | FLT_CFG
  | FLT_PEND0
  | FLT_PEND1
  | FLT_FORCE0
  | FLT_FORCE1
  | FLT_LAST
  | FLT_RAISES
  | FLT_TEMP
  | FLT_WDCTL
  | FLT_WDKICK
  | FLT_WDSTAT
  | FLT_SRCCFG
  | FLT_SRCSTAT
  -- EVT (spec/17_faults_and_events.md)
  | EVT_CTL
  | EVT_STAT
  | EVT_CFG
  | EVT_SEQ
  | EVT_CNT
  | EVT_NEWEST
  | EVT_NORBASE
  | EVT_NORSIZE
  | EVT_NORWP
  | EVT_NORERASED
  | EVT_RLDEF
  | EVT_SWDATA0
  | EVT_SWDATA1
  | EVT_SWDATA2
  | EVT_SWCODE
  | EVT_RLMATCH
  | EVT_RLLIM
  -- CFG (spec/18_startup_and_recovery.md)
  | CFG_STAT
  | CFG_SLOT
  | CFG_ERR
  | CFG_LOADTIME
  | CFG_RESTORE
  | CFG_FUSE
  | CFG_NORINFO
  | CFG_NORCMD
  | CFG_NORADDR
  | CFG_NORBUFLO
  | CFG_NORBUFHI
  | CFG_NORSTAT
  -- SVC (spec/19_service_and_rack.md)
  | SVC_CFG
  | SVC_STAT
  | SVC_USBID
  | SVC_MADDRLO
  | SVC_MADDRHI
  | SVC_CNT
  -- RCK (spec/19_service_and_rack.md)
  | RCK_CTL
  | RCK_CFG
  | RCK_STAT
  | RCK_ERR
  | RCK_BITTIME
  | RCK_TOK
  | RCK_TOKSTAT
  | RCK_SOLO
  | RCK_ROLES
  | RCK_CNT
  deriving DecidableEq, Repr

/-- Every register field of spec/ that its table names: BLOCK_REGISTER.FIELD of R9, written BLOCK_REGISTER_FIELD. -/
inductive Fld where
  -- SYS (spec/02_register_conventions.md)
  | SYS_ID_VENDOR
  | SYS_ID_DEVICE
  | SYS_STEP_MAJOR
  | SYS_STEP_MINOR
  | SYS_CAP_LANES
  | SYS_CAP_DECODERS
  | SYS_CAP_SLOTS
  | SYS_CAP_VENG
  | SYS_CAP_ACTS
  | SYS_STAT_HANDOVER
  | SYS_STAT_SLOWBUSY
  | SYS_STAT_PDROP
  | SYS_STAT_ANGVALID
  | SYS_CLKSTAT_LOSS
  | SYS_CLKSTAT_SLOW_OK
  | SYS_CLKSTAT_DRAM_LOCK
  | SYS_CLKSTAT_VE_LOCK
  | SYS_CLKSTAT_MC_LOCK
  | SYS_CLKSTAT_FAB_LOCK
  | SYS_CLKSTAT_XTAL_OK
  | SYS_RSTCTL_KEY
  | SYS_RSTCTL_FULL
  | SYS_RSTCTL_WARM
  | SYS_RSTCAUSE_SAFESTOP
  | SYS_RSTCAUSE_FULL_SW
  | SYS_RSTCAUSE_WDOG
  | SYS_RSTCAUSE_WARM_SVC
  | SYS_RSTCAUSE_WARM_SW
  | SYS_RSTCAUSE_POR
  | SYS_CONFLICT_VALID
  | SYS_CONFLICT_COUNT
  | SYS_CONFLICT_WINNER
  | SYS_CONFLICT_LOSER
  | SYS_CONFLICT_ADDR_OFFSET
  | SYS_PEND_BLOCKS
  | SYS_BAR2CTL_DISABLE
  | SYS_BAR2CTL_RELOCK1
  | SYS_BAR2CTL_RELOCK0
  | SYS_BAR2CTL_WDROP1
  | SYS_BAR2CTL_WDROP0
  | SYS_BAR2CTL_UNLOCK1
  | SYS_BAR2CTL_UNLOCK0
  -- ANG (spec/03_angle_base.md)
  | ANG_CTL_REACQ
  | ANG_CTL_AUTO
  | ANG_CTL_ENABLE
  | ANG_GEOM_WEDGES
  | ANG_STAT_EPOCH
  | ANG_STAT_HCLAMP
  | ANG_STAT_BADCFG
  | ANG_STAT_WRAP
  | ANG_STAT_SPEED
  | ANG_STAT_USABLE
  | ANG_STAT_VALID
  | ANG_STAT_STATE
  | ANG_LOSS_SPEED
  | ANG_LOSS_PHASE
  | ANG_LOSS_DISAGREE
  | ANG_LOSS_NOFRAME
  | ANG_LOSS_FEWREF
  | ANG_LO_ANG
  | ANG_HI_ANG
  | ANG_TSLO_TS
  | ANG_TSHI_TS
  | ANG_PERIOD_CYCLES
  | ANG_LOOP_DAMP
  | ANG_LOOP_BW
  | ANG_TOL_BADREV
  | ANG_TOL_PERR
  | ANG_TOL_DIS
  | ANG_REFCTL_READMIT
  | ANG_REFCTL_FORCEOUT
  | ANG_REFCTL_USE
  | ANG_REFSTAT_REFD
  | ANG_REFSTAT_REFC
  | ANG_REFSTAT_REFB
  | ANG_REFSTAT_REFA
  | ANG_REFERR_REFD
  | ANG_REFERR_REFC
  | ANG_REFERR_REFB
  | ANG_REFERR_REFA
  | ANG_REFOFF_OFF
  | ANG_PEND_PEND
  | ANG_SOFF_OFF
  | ANG_RRO_CORR
  | ANG_HOFF_OFF
  | ANG_HSKEW_TOFF
  | ANG_HSKEW_WOFF
  | ANG_SCKRATE_ENABLE
  | ANG_SCKRATE_SPR
  | ANG_WCKRATE_ENABLE
  | ANG_WCKRATE_SPR
  | ANG_SCKPHASE_PHASE
  | ANG_WCKPHASE_PHASE
  | ANG_SCKSTAT_RUN
  | ANG_SCKSTAT_RANGE
  | ANG_SCKSTAT_UNOWNED
  | ANG_SCKSTAT_OWNER
  | ANG_WCKSTAT_RUN
  | ANG_WCKSTAT_RANGE
  | ANG_WCKSTAT_UNOWNED
  | ANG_WCKSTAT_OWNER
  | ANG_CMPCTL_ARM
  | ANG_CMPCTL_PERIODIC
  | ANG_CMPCTL_IRQ
  | ANG_CMPCTL_FRAME
  | ANG_CMPCTL_HEAD
  | ANG_CMPTGTLO_TGT
  | ANG_CMPTGTHI_TGT
  | ANG_CMPSTAT_FIRED
  | ANG_CMPSTAT_LATE
  | ANG_CMPSTAT_LOST
  -- LNX (spec/04_reader_lanes.md)
  | LNX_CTL_SWROUTE
  | LNX_STAT_LANE
  | LNX_STAT_PAIRERR
  | LNX_STAT_DUPLICATE
  | LNX_STAT_REFUSED
  | LNX_PEND0_PEND
  | LNX_PEND1_PEND
  | LNX_ROUTE_SRC
  | LNX_ROUTE_EN
  | LNX_ROUTE_INPUT
  -- LANE (spec/04_reader_lanes.md)
  | LANE_CTL_RECAL
  | LANE_CTL_READMIT
  | LANE_CTL_FORCEOUT
  | LANE_STAT_BANKFLT
  | LANE_STAT_NOCLK
  | LANE_STAT_STUCK
  | LANE_STAT_CALFAIL
  | LANE_STAT_SKEWERR
  | LANE_STAT_SLIP
  | LANE_STAT_TLCLAMP
  | LANE_STAT_OVR
  | LANE_STAT_RECALPEND
  | LANE_STAT_DUAL
  | LANE_STAT_ROUTED
  | LANE_STAT_HELD
  | LANE_STAT_STATE
  | LANE_OVRCNT_EVENTS
  | LANE_PEND_PEND
  | LANE_AFE_SBOOST
  | LANE_AFE_SFC
  | LANE_AFE_HPF
  | LANE_AFE_BOOST
  | LANE_AFE_FC
  | LANE_AGC_STEP
  | LANE_AGC_TARGET
  | LANE_AGC_INIT
  | LANE_GAIN_VGA
  | LANE_TLOOP_FLIM
  | LANE_TLOOP_KI
  | LANE_TLOOP_KP
  | LANE_TPHASE_PHASE
  | LANE_TPHASE_FREQ
  | LANE_MODE_MASK
  | LANE_MODE_AGCFREEZE
  | LANE_MODE_TLFREEZE
  | LANE_MODE_ADAPT
  | LANE_FIR_COEF
  | LANE_FIRCFG_MU
  | LANE_FIRCFG_MAIN
  | LANE_TARGET_G4
  | LANE_TARGET_G3
  | LANE_TARGET_G2
  | LANE_TARGET_G1
  | LANE_CAL_DNL
  | LANE_CAL_TONE
  | LANE_CAL_OFFSET
  | LANE_CAL_PASS
  -- RDI (spec/04_reader_lanes.md)
  | RDI_CTL_INVERT
  | RDI_CTL_TERM
  | RDI_CTL_DECL
  | RDI_STAT_LANE
  | RDI_STAT_WIGN
  | RDI_STAT_ROUTED
  | RDI_STAT_SHORT
  | RDI_STAT_OPEN
  -- ITB (spec/05_detection_and_decoding.md)
  | ITB_CTL_NOBORROW
  | ITB_CTL_ENABLE
  | ITB_STAT_CFGERR
  | ITB_STAT_CTXFULL
  | ITB_STAT_CTXPEAK
  | ITB_STAT_CTXUSE
  | ITB_STAT_ESERV
  | ITB_POOL_PAIRMAX
  | ITB_POOL_MAX
  | ITB_POOLLVL_QLEN
  | ITB_POOLLVL_LEVEL
  | ITB_LIMIT_DEADLINE
  | ITB_LIMIT_BWAIT
  | ITB_PROFBASE_BASE
  | ITB_CODEBASE_BASE
  | ITB_GUARLO_COUNT
  | ITB_GUARHI_COUNT
  | ITB_BORRLO_COUNT
  | ITB_BORRHI_COUNT
  | ITB_FAILCNT_DROPPED
  | ITB_FAILCNT_BWAIT
  | ITB_FAILCNT_EXPIRED
  | ITB_FAILCNT_NOCONV
  | ITB_FAILCNT2_TBLERR
  | ITB_FAILCNT2_CTXERR
  | ITB_FAILCNT2_ABANDON
  | ITB_PEND_PEND
  | ITB_ENGCTL_READMIT
  | ITB_ENGCTL_FORCEOUT
  | ITB_ENGSTAT_ITERS
  | ITB_ENGSTAT_CALFAIL
  | ITB_ENGSTAT_TIMEOUT
  | ITB_ENGSTAT_PARERR
  | ITB_ENGSTAT_STATE
  -- TPE (spec/06_media_format.md)
  | TPE_CTL_RECON
  | TPE_CTL_ENABLE
  | TPE_STAT_WIGN
  | TPE_STAT_DEFFULL
  | TPE_STAT_ACCPAR
  | TPE_STAT_MAPERR
  | TPE_STAT_RBUSY
  | TPE_ZONEBASE_BASE
  | TPE_ZONECNT_COUNT
  | TPE_LAYBASE_BASE
  | TPE_LAYCNT_COUNT
  | TPE_DEFBMP_BASE
  | TPE_DEFLO_ADDR
  | TPE_DEFHI_ADDR
  | TPE_DEFMAX_MAX
  | TPE_DEFCNT_COUNT
  | TPE_RECON_REFUSED
  | TPE_RECON_FAIL
  | TPE_RECON_OK
  -- FSQ (spec/07_format_sequencers.md)
  | FSQ_CTL_RESUME
  | FSQ_CTL_STEP
  | FSQ_CTL_BRKEN
  | FSQ_CTL_CLRMCHK
  | FSQ_CTL_STOP
  | FSQ_CTL_ENABLE
  | FSQ_STAT_MCHK
  | FSQ_STAT_ILLEGAL
  | FSQ_STAT_WDOG
  | FSQ_STAT_IRQ
  | FSQ_STAT_FMTERR
  | FSQ_STAT_QSTALL
  | FSQ_STAT_SVIGN
  | FSQ_STAT_VGIGN
  | FSQ_STAT_RGIGN
  | FSQ_STAT_CAUSE
  | FSQ_STAT_STATE
  | FSQ_PC_MCADDR
  | FSQ_PC_SP
  | FSQ_PC_PC
  | FSQ_JOB_ENTRYW
  | FSQ_JOB_KIND
  | FSQ_JOB_URG
  | FSQ_JOB_PAIR
  | FSQ_JOB_HEAD
  | FSQ_JSTARTLO_ANG
  | FSQ_JSTARTHI_ANG
  | FSQ_ZGEOM_ZONE
  | FSQ_ZGEOM_L
  | FSQ_ZU_U
  | FSQ_ENTRY_VALID
  | FSQ_ENTRY_LISTEND
  | FSQ_ENTRY_INDEX
  | FSQ_ENTRY_ROLE
  | FSQ_ENTRY_SLOT
  | FSQ_CNT_CNT1
  | FSQ_CNT_CNT0
  | FSQ_CMPSTAT_VGQ
  | FSQ_CMPSTAT_WGQ
  | FSQ_CMPSTAT_RGQ
  | FSQ_CMPSTAT_ACBLOST
  | FSQ_CMPSTAT_ACALOST
  | FSQ_CMPSTAT_ACBLATE
  | FSQ_CMPSTAT_ACALATE
  | FSQ_CMPSTAT_PCBF
  | FSQ_CMPSTAT_PCAF
  | FSQ_CMPSTAT_ACBF
  | FSQ_CMPSTAT_ACAF
  | FSQ_POS_VALID
  | FSQ_POS_EXCL
  | FSQ_POS_U
  | FSQ_STAMPLO_ANG
  | FSQ_STAMPHI_ANG
  | FSQ_STAMPPOS_POS
  | FSQ_ABNCNT_MCHKS
  | FSQ_ABNCNT_ABANDONS
  | FSQ_CFG_JOBREV
  | FSQ_PEND_CFG
  | FSQ_CSCTL_OPEN
  | FSQ_CSSTAT_BADADDR
  | FSQ_CSSTAT_RPERR
  | FSQ_CSSTAT_WDROP
  | FSQ_CSSTAT_DRAINING
  | FSQ_CSSTAT_OPENED
  -- WRF (spec/08_write_and_verify.md)
  | WRF_CTL_WEN
  | WRF_CTL_ENABLE
  | WRF_STAT_ENCBUSY
  | WRF_STAT_MISDIR
  | WRF_STAT_WRFPAR
  | WRF_STAT_WFAULT
  | WRF_STAT_OFFTRK
  | WRF_STAT_GUARD
  | WRF_STAT_NOSTREAM
  | WRF_STAT_UNDERRUN
  | WRF_VCRIT_MAXERAS
  | WRF_VCRIT_MAXERR
  | WRF_VCRIT2_DTOL
  | WRF_VCRIT2_MINMAG
  | WRF_VCRIT2_CVMAX
  | WRF_VCRIT2_LOWMAG
  | WRF_RETRY_OTHER
  | WRF_RETRY_INPLACE
  | WRF_HWEN_WEN
  | WRF_VCNT_FAIL
  | WRF_VCNT_PASS
  | WRF_MDEXPLO_PSA
  | WRF_MDEXPHI_PSA
  | WRF_MDOBSLO_PSA
  | WRF_MDOBSHI_PSA
  | WRF_PEND_PEND
  | WRF_GUARD_SHKCH
  | WRF_GUARD_PESLIM
  | WRF_GUARD_HOLD
  | WRF_GUARD_SHKEN
  | WRF_GUARD_PESEN
  | WRF_SHKLIM_LEVEL
  | WRF_ONTRK_LIMIT
  | WRF_GSTAT_TRIPS
  | WRF_GSTAT_OFFTRK
  | WRF_GSTAT_SHKTRIP
  | WRF_GSTAT_PESTRIP
  | WRF_GSTAT_INHIBIT
  | WRF_SSTAT_LASTRES
  | WRF_SSTAT_NOSTREAM
  | WRF_SSTAT_NOTWR
  | WRF_SSTAT_WFAULT
  | WRF_SSTAT_UNDERRUN
  | WRF_SSTAT_INHIBIT
  | WRF_SSTAT_DRIVING
  | WRF_SSTAT_READY
  | WRF_SSTAT_PREP
  | WRF_PRECOMP_EARLY2
  | WRF_PRECOMP_EARLY1
  | WRF_SVCNT_FAIL
  | WRF_SVCNT_PASS
  -- SRV (spec/09_servo_and_actuators.md)
  | SRV_CTL_DONE
  | SRV_CTL_UNLOAD
  | SRV_CTL_LOAD
  | SRV_CTL_READMIT
  | SRV_CTL_FORCEOUT
  | SRV_CTL_ENABLE
  | SRV_STAT_GUIDE
  | SRV_STAT_REFHEAD
  | SRV_STAT_SRVLOSS
  | SRV_STAT_SEEKTO
  | SRV_STAT_LATE
  | SRV_STAT_RUNAWAY
  | SRV_STAT_MODE
  | SRV_STAT_SVC
  | SRV_CAL_PASS
  | SRV_VTGT_TRACK
  | SRV_VPOS_POS
  | SRV_VCMCMD_CMD
  | SRV_VCMOUT_CLAMP
  | SRV_VCMOUT_DAC
  | SRV_TIMING_MDLY
  | SRV_TIMING_VDLY
  | SRV_SFMT_CELL
  | SRV_SFMT_PRE
  | SRV_SFMT_BURST
  | SRV_SFMT_SAMWIN
  | SRV_SFMT_SAMTOL
  | SRV_SAMPAT_PAT
  | SRV_SETTLE_FLIM
  | SRV_SETTLE_FCNT
  | SRV_SETTLE_SCNT
  | SRV_SETTLE_WSLIM
  | SRV_SETTLE_RSLIM
  | SRV_MACFG_STROKE
  | SRV_MACFG_MALIM
  | SRV_RUN_MISSMAX
  | SRV_RUN_VMAX
  | SRV_RUN_IMCH
  | SRV_RUN_IERR
  | SRV_RANGE0_TRACK
  | SRV_RANGE1_TRACK
  | SRV_VCMLIM_LIM
  | SRV_RVFF_EN
  | SRV_RVFF_CHB
  | SRV_RVFF_CHA
  | SRV_RVFF_SHIFT
  | SRV_RVFIR_TAPODD
  | SRV_RVFIR_TAPEVEN
  | SRV_CONTACT_EN
  | SRV_CONTACT_AMPDEV
  | SRV_RETRACT_TIME
  | SRV_RETRACT_CUR
  | SRV_TIMEOUT_LOADTO
  | SRV_TIMEOUT_SEEKTO
  | SRV_CNT_MISSED
  | SRV_CNT_MALATE
  | SRV_CNT_LATE
  | SRV_PEND_PEND
  | SRV_HCTL_READMIT
  | SRV_HCTL_FORCEOUT
  | SRV_HSTAT_CONTACT
  | SRV_HSTAT_OUTSTROKE
  | SRV_HSTAT_MAFAULT
  | SRV_HSTAT_CALFAIL
  | SRV_HSTAT_WROUT
  | SRV_HSTAT_RDOUT
  | SRV_HSTAT_BOUND
  | SRV_HSTAT_GUIDE
  | SRV_HSTAT_FOLLOW
  | SRV_HSTAT_STATE
  | SRV_HTGT_JOBW
  | SRV_HTGT_TRACK
  | SRV_XOFF_OFF
  | SRV_MA_CODE
  | SRV_HPRED_POS
  | SRV_SMP0_VALID
  | SRV_SMP0_RROBAD
  | SRV_SMP0_WEDGE
  | SRV_SMP0_TRACK
  | SRV_SMP1_PES
  | SRV_SMP1_RRO
  | SRV_SMP2_N
  | SRV_SMP2_Q
  | SRV_SMP3_AMP
  | SRV_SMP3_COUNT
  | SRV_SMP3_TIME
  -- ARM (spec/09_servo_and_actuators.md)
  | ARM_CTL_SAFE
  | ARM_CTL_RETRAIN
  | ARM_CTL_AUTORT
  | ARM_CTL_ENABLE
  | ARM_STAT_TEMP
  | ARM_STAT_LOSSES
  | ARM_STAT_DOWN
  | ARM_STAT_LSTATE
  | ARM_ERR_NAK
  | ARM_ERR_UPCRC
  | ARM_ERR_RESEND
  | ARM_ERR_DELIM
  | ARM_WSTAT_FAULT
  | ARM_WSTAT_WSEL
  | ARM_HCFG_HMAX
  | ARM_REGCMD_GO
  | ARM_REGCMD_WR
  | ARM_REGCMD_ADDR
  | ARM_REGCMD_DATA
  | ARM_REGRSP_DONE
  | ARM_REGRSP_TIMEOUT
  | ARM_REGRSP_BUSY
  | ARM_REGRSP_DATA
  | ARM_CONTACT_VALID
  | ARM_CONTACT_SURF
  | ARM_CONTACT_METRIC
  | ARM_HTR_WRITE
  | ARM_HTR_READ
  -- SPN (spec/10_spindle.md)
  | SPN_CTL_DECEL
  | SPN_CTL_HOLDSHORT
  | SPN_CTL_BRAKE
  | SPN_CTL_RUN
  | SPN_CTL_ENABLE
  | SPN_STAT_PFAIL
  | SPN_STAT_DRVFLT
  | SPN_STAT_ZCLOST
  | SPN_STAT_STARTFAIL
  | SPN_STAT_OVERSPEED
  | SPN_STAT_RATEERR
  | SPN_STAT_BADCFG
  | SPN_STAT_WAITGRANT
  | SPN_STAT_PHLOCKED
  | SPN_STAT_INRANGE
  | SPN_STAT_ATSPEED
  | SPN_STAT_SRC
  | SPN_STAT_STATE
  | SPN_SPEED_TARGET
  | SPN_MEAS_SPEED
  | SPN_MOTOR_VBUS
  | SPN_MOTOR_IV
  | SPN_MOTOR_IU
  | SPN_MOTOR_POLES
  | SPN_PWM_DEAD
  | SPN_PWM_FREQ
  | SPN_ILIM_BRK
  | SPN_ILIM_RUN
  | SPN_GRANT_LIMIT
  | SPN_HFI_PTEST
  | SPN_HFI_AMP
  | SPN_HFI_FREQ
  | SPN_BEMF_BLANK
  | SPN_BEMF_ZCMISS
  | SPN_REG_KI
  | SPN_REG_KP
  | SPN_PFAIL_VTRIP
  | SPN_PFAIL_VMIN
  | SPN_PFCFG_BRAKE
  | SPN_PFCFG_HOLD
  | SPN_PFSTAT_ELAPSED
  | SPN_PFSTAT_UNIT
  | SPN_PFSTAT_DONE
  | SPN_PFSTAT_RETRACTED
  | SPN_PHLOCK_EN
  | SPN_PHLOCK_SLOTS
  | SPN_PHLOCK_SLOT
  | SPN_PHLOCK_LOCKTOL
  | SPN_PHLOCK_TRIM
  | SPN_PHERR_TRIM
  | SPN_PHERR_ERR
  | SPN_PEND_PHLOCK
  | SPN_PADV_ODD
  | SPN_PADV_EVEN
  -- MAC (spec/10_spindle.md)
  | MAC_CTL_ENABLE
  | MAC_PEND_PEND
  | MAC_CHCFG_RESET
  | MAC_CHCFG_OSR
  | MAC_CHCFG_EN
  | MAC_CHSYNC_UNIT
  | MAC_CHSYNC_EACH
  | MAC_CHSYNC_SRC
  | MAC_CHDATA_VALID
  | MAC_CHDATA_CLIP
  | MAC_CHDATA_COUNT
  | MAC_CHDATA_DATA
  | MAC_CHSTAT_RESETS
  | MAC_CHSTAT_RANGE
  -- VE (spec/11_vertical_engines.md)
  | VE_STAT_MCHK
  | VE_STAT_BUSY
  | VE_ECTL_CLRMCHK
  | VE_ECTL_RESUME
  | VE_ECTL_HALT
  | VE_ECTL_ENABLE
  | VE_ESTAT_MBFULL
  | VE_ESTAT_HIGN
  | VE_ESTAT_FAULTV
  | VE_ESTAT_TAIL
  | VE_ESTAT_SBFULL
  | VE_ESTAT_CSPAR
  | VE_ESTAT_ILLEGAL
  | VE_ESTAT_COMMITTED
  | VE_ESTAT_CAUSE
  | VE_ESTAT_STATE
  | VE_EPC_MCADDR
  | VE_EPC_PC
  | VE_ETRIG_SBUSED
  | VE_ETRIG_RESTARTS
  | VE_ETRIG_PRIO
  | VE_ETRIG_TYPE
  | VE_ECFG_FLTRST
  | VE_ECFG_MAXRST
  | VE_ECFG_RTLIM
  | VE_ETIMER_PERIOD
  | VE_EQSTAT_Q3
  | VE_EQSTAT_Q2
  | VE_EQSTAT_Q1
  | VE_EQSTAT_Q0
  | VE_ECNT_ABANDONS
  | VE_ECNT_ROUTINES
  | VE_ECNT2_COALESCED
  | VE_ECNT2_FAULTS
  | VE_ECNT2_MCHKS
  | VE_MBOXLO_DATA
  | VE_MBOXHI_DATA
  | VE_CSCTL_OPEN
  | VE_CSSTAT_BADADDR
  | VE_CSSTAT_RESREF
  | VE_CSSTAT_RPERR
  | VE_CSSTAT_WDROP
  | VE_CSSTAT_OPENED
  | VE_GLO_G
  | VE_GHI_G
  -- HIF (spec/12_host_interface.md)
  | HIF_CTL_PAUSE
  | HIF_CTL_ENABLE
  | HIF_PORTCFG_MODE
  | HIF_STAT_DPCONF
  | HIF_STAT_ADMFULL
  | HIF_STAT_FULL
  | HIF_STAT_DUAL
  | HIF_INFLIGHT_COUNT
  | HIF_PEAK_PEAK
  | HIF_FSEQ_NEXT
  | HIF_CMDBASE_BASE
  | HIF_NSTBASE_BASE
  | HIF_HZTLO_ADDR
  | HIF_HZTHI_ADDR
  | HIF_ADMRBASE_BASE
  | HIF_ADMRPTR_TAIL
  | HIF_ADMRPTR_HEAD
  | HIF_ADMDONE_INDEX
  | HIF_DPCNT_COUNT
  | HIF_DIGCNT_DIGESTS
  | HIF_LNKSTAT_UP
  | HIF_LNKSTAT_SPEED
  | HIF_LNKSTAT_WIDTH
  | HIF_NVMSTAT_CFS
  | HIF_NVMSTAT_SHST
  | HIF_NVMSTAT_RDY
  | HIF_NVMSTAT_EN
  | HIF_PERR_LINKDOWN
  | HIF_PERR_UNCOR
  | HIF_PERR_CORR
  | HIF_ABCNT_NOTABORTED
  | HIF_ABCNT_ABORTED
  -- SCH (spec/13_scheduler.md)
  | SCH_CTL_RESTART
  | SCH_CTL_NOFORCE
  | SCH_CTL_HOLD
  | SCH_CTL_ENABLE
  | SCH_STAT_DRAIN
  | SCH_STAT_FORCE
  | SCH_STAT_PWRWAIT
  | SCH_STAT_BUFWAIT
  | SCH_STAT_ACWAIT
  | SCH_STAT_STATE
  | SCH_RQLO_FSEQ
  | SCH_RQHI_TAG
  | SCH_RQHI_INTERNAL
  | SCH_RQHI_GRAN
  | SCH_RQRSPLO_VALID
  | SCH_RQRSPLO_ERR
  | SCH_RQRSPLO_OVER
  | SCH_RQRSPLO_HANDLE
  | SCH_RQRSPLO_TAG
  | SCH_RQRSPHI_BASE
  | SCH_AGE_INTAGE
  | SCH_AGE_URGSTRICT
  | SCH_AGE_LIMIT
  | SCH_CAL_STARVE
  | SCH_CAL_MINGAP
  | SCH_BUFLO_ADDR
  | SCH_BUFHI_ADDR
  | SCH_BUFCFG_SIZE
  | SCH_BUFINT_INTMAX
  | SCH_BUFINT_INTRSV
  | SCH_BUFSTAT_WAITERS
  | SCH_BUFSTAT_FREE
  | SCH_ACORN_GFRAC
  | SCH_ACORN_LOAD
  | SCH_PWRBUD_TOKENS
  | SCH_PWRBUD_BUDGET
  | SCH_PWRCOST_SEEKW
  | SCH_PWRCOST_FOLLOWW
  | SCH_PWRSPN_SPINW
  | SCH_PWRSPN_RUNW
  | SCH_SPNGRANT_SPINMA
  | SCH_SPNGRANT_RUNMA
  | SCH_SPIN_TARGET
  | SCH_SOLO_SPINTO
  | SCH_SOLO_SOLOMA
  | SCH_PWRLVL_SEEKS
  | SCH_PWRLVL_CHARGED
  | SCH_TIMING_SETTLE
  | SCH_TIMING_LEAD
  | SCH_DRAMSH_BACKGROUND
  | SCH_DRAMSH_FIRMWARE
  | SCH_DRAMSH_HOST
  | SCH_DRAMSH_MEDIA
  | SCH_SEEKT_ODD
  | SCH_SEEKT_EVEN
  | SCH_OVL_ENTRIES
  | SCH_CNT_PROMOTED
  | SCH_CNT_FORCED
  | SCH_CNT_CANCELLED
  | SCH_DLAT_MAXWAIT
  | SCH_ASTAT_LASTFORCE
  | SCH_ASTAT_GUIDELANE
  | SCH_ASTAT_DRAIN
  | SCH_ASTAT_FORCE
  | SCH_ASTAT_GUIDE
  | SCH_ASTAT_SEEKTOK
  | SCH_ASTAT_BUSY
  -- MEM (spec/14_memory_and_dma.md)
  | MEM_L2CTL_DISBUSY
  | MEM_L2CTL_INVALID
  | MEM_L2CTL_ENABLE
  | MEM_L2MAINT_GO
  | MEM_L2MAINT_OP
  | MEM_L2MAINT_ALL
  | MEM_L2MAINT_WAY
  | MEM_L2MAINT_SET
  | MEM_STAT_MBUSY
  | MEM_STAT_BERR
  | MEM_STAT_ENREF
  | MEM_STAT_CETHR
  | MEM_STAT_UE
  | MEM_STAT_CE
  | MEM_ERRCNT_UE
  | MEM_ERRCNT_CE
  | MEM_LEAK_THRESH
  | MEM_LEAK_PERIOD
  | MEM_BUCKET_CACHE
  | MEM_BUCKET_DRAM
  | MEM_CELOGLO_ADDR
  | MEM_UELOGLO_ADDR
  | MEM_CELOGHI_ARRAY
  | MEM_CELOGHI_REQ
  | MEM_CELOGHI_ADDR
  | MEM_UELOGHI_ARRAY
  | MEM_UELOGHI_REQ
  | MEM_UELOGHI_ADDR
  | MEM_BERRLO_ADDR
  | MEM_BERRHI_MASTER
  | MEM_BERRHI_ADDR
  | MEM_FLIPCTL_ARM
  | MEM_FLIPCTL_DONE
  | MEM_FLIPCTL_TARGET
  | MEM_FLIPADDRLO_ADDR
  | MEM_FLIPADDRHI_ADDR
  | MEM_FLIPMASK_DBIT1
  | MEM_FLIPMASK_DB1EN
  | MEM_FLIPMASK_DBIT0
  | MEM_FLIPMASK_MASK
  | MEM_SCRUB_EN
  | MEM_SCRUB_PERIOD
  | MEM_SCRUBSTAT_PASSES
  | MEM_SCRUBSTAT_PROGRESS
  | MEM_DRCFG_INIT
  | MEM_DRCFG_RAW
  | MEM_DRCFG_RATE
  | MEM_DRSTAT_CAP
  | MEM_DRSTAT_SELFREF
  | MEM_DRSTAT_TRAINFAIL
  | MEM_DRSTAT_READY
  | MEM_L1CTL_INVDONE
  | MEM_L1CTL_INV
  | MEM_L1CTL_DEN
  | MEM_L1CTL_IEN
  | MEM_RGBASE_ADDR
  | MEM_RGLIMIT_ADDR
  | MEM_RGATTR_L2POL
  | MEM_RGATTR_L1
  | MEM_RGATTR_EN
  -- DMA (spec/14_memory_and_dma.md)
  | DMA_CTL_ENABLE
  | DMA_STAT_BERR
  | DMA_STAT_HALTED
  | DMA_STAT_CHAN
  | DMA_STAT_STGUSE
  | DMA_CFG_MAXSTG
  | DMA_IRQ0_PEND
  | DMA_IRQ1_PEND
  | DMA_BERRLO_ADDR
  | DMA_BERRHI_SIDE
  | DMA_BERRHI_ADDR
  | DMA_CCTL_RESUME
  | DMA_CCTL_STOP
  | DMA_CCTL_START
  | DMA_CCFG_IEERR
  | DMA_CCFG_IEFULL
  | DMA_CCFG_IEHALF
  | DMA_CCFG_IEDONE
  | DMA_CCFG_BLK
  | DMA_CCFG_PSEL
  | DMA_CCFG_PACE
  | DMA_CCFG_PRIO
  | DMA_CCFG_MODE
  | DMA_CDESCLO_ADDR
  | DMA_CDESCHI_ADDR
  | DMA_CCURLO_ADDR
  | DMA_CCURHI_ADDR
  | DMA_CREMAIN_BYTES
  | DMA_CSTAT_STOPPED
  | DMA_CSTAT_DESCERR
  | DMA_CSTAT_CFGIGN
  | DMA_CSTAT_PACEOVR
  | DMA_CSTAT_OVERRUN
  | DMA_CSTAT_ERR
  | DMA_CSTAT_FULL
  | DMA_CSTAT_HALF
  | DMA_CSTAT_DONE
  | DMA_CSTAT_STATE
  -- CHK (spec/15_check_values_and_compression.md)
  | CHK_CTL_ENABLE
  | CHK_STAT_CLAIMREF
  | CHK_STAT_SWERR
  | CHK_STAT_ROLE
  | CHK_STAT_FAIL
  | CHK_CNT_FAIL
  | CHK_CNT_GEN1
  | CHK_STBASE_BASE
  | CHK_FAILLO_PSA
  | CHK_FAILHI_PSA
  | CHK_SWOWN_CLAIM
  | CHK_SWOWN_OWNED
  | CHK_SWOWN_OWNER
  | CHK_SWCTL_GO
  | CHK_SWCTL_ALG
  | CHK_SWSTAT_BUSY
  | CHK_SWSTAT_DONE
  | CHK_SWSTAT_ERR
  | CHK_SWSRCLO_SRC
  | CHK_SWSRCHI_SRC
  | CHK_SWLEN_LEN
  | CHK_SWSEEDLO_SEED
  | CHK_SWSEEDHI_FOLD
  | CHK_SWSEEDHI_SEED
  | CHK_SWRESLO_RES
  | CHK_SWRESHI_RES
  -- CMP (spec/15_check_values_and_compression.md)
  | CMP_CTL_ENABLE
  | CMP_STAT_QUEUED
  | CMP_STAT_RUNNING
  | CMP_STAT_MEMERR
  | CMP_STAT_QFULL
  | CMP_SUBLO_ADDR
  | CMP_SUBHI_ADDR
  | CMP_DIRLO_ADDR
  | CMP_DIRHI_ADDR
  | CMP_MAPLO_ADDR
  | CMP_MAPHI_ADDR
  | CMP_DIRCNT_COUNT
  | CMP_SLOTS_COUNT
  | CMP_CNT_RAW
  | CMP_CNT_JOBS
  | CMP_FAILCNT_OUTFULL
  | CMP_FAILCNT_FORMAT
  | CMP_FAILCNT_LENGTH
  | CMP_FAILCNT_HEADER
  | CMP_DONE_DONE
  -- HLT (spec/16_health_and_ageing.md)
  | HLT_CTL_NOWAKE
  | HLT_CTL_WEEVIL
  | HLT_CTL_AVS
  | HLT_CTL_ENABLE
  | HLT_STAT_AVSFAIL
  | HLT_STAT_HLTSTALL
  | HLT_STAT_WSFULL
  | HLT_STAT_SILICON
  | HLT_STAT_JWAIT
  | HLT_STAT_SAVED
  | HLT_STAT_SAVING
  | HLT_STAT_READY
  | HLT_POH_HOURS
  | HLT_LEDGERLO_ADDR
  | HLT_LEDGERHI_NSURF
  | HLT_LEDGERHI_ADDR
  | HLT_WSBASE_BASE
  | HLT_WSCFG_FLUSH
  | HLT_WSCFG_COUNT
  | HLT_MIRROR_ZONE
  | HLT_MIRROR_JSECT
  | HLT_JRNL_CKPT
  | HLT_JRNL_MAXOPEN
  | HLT_JRNL_MAXADV
  | HLT_JRNL_TMO
  | HLT_JRNL_SPAN
  | HLT_RWLO_SURF
  | HLT_RWLO_RESET
  | HLT_RWLO_TRACK
  | HLT_RWHI_TAG
  | HLT_RWRSPLO_VALID
  | HLT_RWRSPLO_ERR
  | HLT_RWRSPLO_OVER
  | HLT_RWRSPLO_TAG
  | HLT_RWRSPHI_WORD0
  | HLT_WQBASE_BASE
  | HLT_WQPTR_TAIL
  | HLT_WQPTR_HEAD
  | HLT_WQACK_RESULT
  | HLT_WQACK_SEQ
  | HLT_MCOEF_BASE
  | HLT_MCOEF_KI
  | HLT_MCOEF_CSH
  | HLT_MCOEF_ESH
  | HLT_MCOEF_W
  | HLT_MCOEF_LSH
  | HLT_MLIM_PATROL
  | HLT_MLIM_REFRESH
  | HLT_MLIM_FLOOR
  | HLT_MLIM_TRIMLOW
  | HLT_INTF_LIMIT
  | HLT_INTF_W1
  | HLT_INTF_W2
  | HLT_INTF_W3
  | HLT_WEEVIL_PERIOD
  | HLT_WEEVIL_GRACE
  | HLT_WEEVIL_MINGAP
  | HLT_WEEVIL_INFLIGHT
  | HLT_TRIM_WCMAG
  | HLT_TRIM_MAX
  | HLT_TRIM_STEP
  | HLT_CAL_PERIOD
  | HLT_CAL_REVS
  | HLT_CAL_DTEMP
  | HLT_CAL_DROP
  | HLT_AVS_GUARD
  | HLT_AVS_HYST
  | HLT_AVS_VMAX
  | HLT_AVS_VMIN
  | HLT_AVSSTAT_VCODE
  | HLT_AVSSTAT_MCCLK
  | HLT_AVSSTAT_WSLACK
  | HLT_PLAN_HORIZON
  | HLT_PLAN_SPARETH
  | HLT_PROJ_HOURS
  | HLT_REPL_REPLACE
  | HLT_REPL_SOURCE
  | HLT_REPL_AVAIL
  | HLT_REPL_PCTUSED
  | HLT_REPL_TRIG
  | HLT_TEMP_MAX
  | HLT_TEMP_MIN
  | HLT_CNT_PATROLS
  | HLT_CNT_REFRESH
  | HLT_CNT_CKPT
  -- FLT (spec/17_faults_and_events.md)
  | FLT_CTL_LOCK
  | FLT_CTL_RELEASE
  | FLT_STAT_SAFE
  | FLT_STAT_SAFEACT
  | FLT_STAT_HOLD
  | FLT_STAT_CRKRUN
  | FLT_STAT_RELREF
  | FLT_STAT_LOCKREF
  | FLT_STAT_ANYPEND
  | FLT_STAT_TOPSEV
  | FLT_CFG_CRKSEV
  | FLT_CFG_RECTMO
  | FLT_CFG_RLREFILL
  | FLT_PEND0_PEND
  | FLT_PEND1_PEND
  | FLT_FORCE0_FORCE
  | FLT_FORCE1_FORCE
  | FLT_LAST_INST
  | FLT_LAST_SOURCE
  | FLT_LAST_SEV
  | FLT_LAST_ESC
  | FLT_LAST_FORCED
  | FLT_RAISES_COUNT
  | FLT_TEMP_CRIT
  | FLT_TEMP_HOT
  | FLT_WDCTL_EN
  | FLT_WDCTL_ACT
  | FLT_WDCTL_PERIOD
  | FLT_WDKICK_KEY
  | FLT_WDSTAT_EXPIRIES
  | FLT_WDSTAT_WRONG
  | FLT_WDSTAT_EXPIRED
  | FLT_WDSTAT_REMAIN
  | FLT_SRCCFG_BURST
  | FLT_SRCCFG_NOESC
  | FLT_SRCCFG_SEV
  | FLT_SRCSTAT_COUNT
  | FLT_SRCSTAT_INST
  | FLT_SRCSTAT_PEND
  | FLT_SRCSTAT_ESC
  | FLT_SRCSTAT_EFFSEV
  -- EVT (spec/17_faults_and_events.md)
  | EVT_CTL_FLUSH
  | EVT_CTL_NORLOG
  | EVT_STAT_LOST
  | EVT_STAT_BADCODE
  | EVT_STAT_NORERR
  | EVT_STAT_SAVED
  | EVT_STAT_PFFLUSH
  | EVT_STAT_UNFL
  | EVT_CFG_FLUSHSEV
  | EVT_CFG_PAGETMO
  | EVT_SEQ_NEXT
  | EVT_CNT_SUPPRESSED
  | EVT_CNT_LOST
  | EVT_NEWEST_VALID
  | EVT_NEWEST_INDEX
  | EVT_NORBASE_VALUE
  | EVT_NORSIZE_VALUE
  | EVT_NORWP_OFFSET
  | EVT_NORERASED_BYTES
  | EVT_RLDEF_BURST
  | EVT_RLDEF_REFILL
  | EVT_SWDATA0_DATA
  | EVT_SWDATA1_DATA
  | EVT_SWDATA2_DATA
  | EVT_SWCODE_INST
  | EVT_SWCODE_CODE
  | EVT_RLMATCH_MASK
  | EVT_RLMATCH_CODE
  | EVT_RLLIM_EN
  | EVT_RLLIM_TOKENS
  | EVT_RLLIM_BURST
  | EVT_RLLIM_REFILL
  -- CFG (spec/18_startup_and_recovery.md)
  | CFG_STAT_RESTERR
  | CFG_STAT_RESTORED
  | CFG_STAT_TRIAL
  | CFG_STAT_SRVERR
  | CFG_STAT_NSERR
  | CFG_STAT_LAYERR
  | CFG_STAT_ZONEERR
  | CFG_STAT_MAPFIX
  | CFG_STAT_STATE
  | CFG_SLOT_SVN
  | CFG_SLOT_ATTEMPTS
  | CFG_SLOT_ACTIVE
  | CFG_SLOT_BOOTED
  | CFG_ERR_SLOT
  | CFG_ERR_SECTION
  | CFG_ERR_CAUSE
  | CFG_LOADTIME_US
  | CFG_RESTORE_DONE
  | CFG_FUSE_MINSVN
  | CFG_FUSE_REVOKE0
  | CFG_NORINFO_DENSITY
  | CFG_NORINFO_DIV
  | CFG_NORINFO_SUSP
  | CFG_NORINFO_QUAD
  | CFG_NORCMD_GO
  | CFG_NORCMD_OP
  | CFG_NORCMD_LEN
  | CFG_NORADDR_ADDR
  | CFG_NORBUFLO_ADDR
  | CFG_NORBUFHI_ADDR
  | CFG_NORSTAT_DONE
  | CFG_NORSTAT_ERR
  | CFG_NORSTAT_PROT
  | CFG_NORSTAT_BUSY
  | CFG_NORSTAT_SUSPENDED
  -- SVC (spec/19_service_and_rack.md)
  | SVC_CFG_FUSE
  | SVC_CFG_MODE
  | SVC_STAT_LASTERR
  | SVC_STAT_HS
  | SVC_STAT_STATE
  | SVC_USBID_PID
  | SVC_USBID_VID
  | SVC_MADDRLO_ADDR
  | SVC_MADDRHI_ADDR
  | SVC_CNT_RESETS
  | SVC_CNT_ABANDON
  | SVC_CNT_STALLS
  | SVC_CNT_COMMITS
  -- RCK (spec/19_service_and_rack.md)
  | RCK_CTL_RESTART
  | RCK_CTL_MANREC
  | RCK_CTL_ENABLE
  | RCK_CFG_NODE
  | RCK_STAT_DUPID
  | RCK_STAT_ALERTIN
  | RCK_STAT_ALERTOUT
  | RCK_STAT_MASTER
  | RCK_STAT_STEWARD
  | RCK_STAT_BUSOFF
  | RCK_STAT_PASSIVE
  | RCK_STAT_SOLO
  | RCK_STAT_HOLDING
  | RCK_STAT_WAITING
  | RCK_ERR_BUSOFFS
  | RCK_ERR_REC
  | RCK_ERR_TEC
  | RCK_BITTIME_TDCO
  | RCK_BITTIME_DSJW
  | RCK_BITTIME_DSP
  | RCK_BITTIME_ASJW
  | RCK_BITTIME_ASP
  | RCK_TOK_POOL
  | RCK_TOKSTAT_SEQ
  | RCK_TOKSTAT_QUEUE
  | RCK_TOKSTAT_HELD
  | RCK_SOLO_REMAIN
  | RCK_SOLO_DELAY
  | RCK_ROLES_HEARD
  | RCK_ROLES_MASTER
  | RCK_ROLES_STEWARD
  | RCK_CNT_TXDROP
  | RCK_CNT_FOREIGN
  | RCK_CNT_MARKERS
  | RCK_CNT_BEACONS
  deriving DecidableEq, Repr

end Sys2Proof.Machine
end

