-- ==== Sys2Proof/Machine/RegTable.lean ====
section
/-! DEFINITION. The register map of spec/ as data: for each field its register, lowest bit, width, access code and reset
value; for each register its block, offset from REG_BASE, array dimensions (count, stride), apply point and fields. -/

namespace Sys2Proof.Machine

/-- One row of a register table of spec/. -/
structure FldInfo where
  reg : Reg
  lo  : Nat
  w   : Nat
  acc : Acc
  rst : Nat
  deriving DecidableEq, Repr

/-- One register header of spec/: R49, R52 and the chapter's own array notes. -/
structure RegInfo where
  block : Block
  off   : Nat
  dims  : List (Nat × Nat)
  app   : Apply
  flds  : List Fld
  deriving DecidableEq, Repr

/-- The row of a field. A reset value that differs by instance is in `Fld.reset`. -/
def Fld.info : Fld → FldInfo
  | .SYS_ID_VENDOR => ⟨.SYS_ID, 16, 16, .ro, 0x4d42⟩
  | .SYS_ID_DEVICE => ⟨.SYS_ID, 0, 16, .ro, 0x940⟩
  | .SYS_STEP_MAJOR => ⟨.SYS_STEP, 8, 8, .ro, 1⟩
  | .SYS_STEP_MINOR => ⟨.SYS_STEP, 0, 8, .ro, 1⟩
  | .SYS_CAP_LANES => ⟨.SYS_CAP, 24, 8, .ro, 0x40⟩
  | .SYS_CAP_DECODERS => ⟨.SYS_CAP, 16, 8, .ro, 0x30⟩
  | .SYS_CAP_SLOTS => ⟨.SYS_CAP, 8, 8, .ro, 0x20⟩
  | .SYS_CAP_VENG => ⟨.SYS_CAP, 4, 4, .ro, 0xc⟩
  | .SYS_CAP_ACTS => ⟨.SYS_CAP, 0, 4, .ro, 4⟩
  | .SYS_STAT_HANDOVER => ⟨.SYS_STAT, 3, 1, .ro, 0⟩
  | .SYS_STAT_SLOWBUSY => ⟨.SYS_STAT, 2, 1, .ro, 0⟩
  | .SYS_STAT_PDROP => ⟨.SYS_STAT, 1, 1, .w1c, 0⟩
  | .SYS_STAT_ANGVALID => ⟨.SYS_STAT, 0, 1, .ro, 0⟩
  | .SYS_CLKSTAT_LOSS => ⟨.SYS_CLKSTAT, 16, 6, .w1c, 0⟩
  | .SYS_CLKSTAT_SLOW_OK => ⟨.SYS_CLKSTAT, 5, 1, .ro, 0⟩
  | .SYS_CLKSTAT_DRAM_LOCK => ⟨.SYS_CLKSTAT, 4, 1, .ro, 0⟩
  | .SYS_CLKSTAT_VE_LOCK => ⟨.SYS_CLKSTAT, 3, 1, .ro, 0⟩
  | .SYS_CLKSTAT_MC_LOCK => ⟨.SYS_CLKSTAT, 2, 1, .ro, 0⟩
  | .SYS_CLKSTAT_FAB_LOCK => ⟨.SYS_CLKSTAT, 1, 1, .ro, 0⟩
  | .SYS_CLKSTAT_XTAL_OK => ⟨.SYS_CLKSTAT, 0, 1, .ro, 0⟩
  | .SYS_RSTCTL_KEY => ⟨.SYS_RSTCTL, 8, 8, .rw, 0⟩
  | .SYS_RSTCTL_FULL => ⟨.SYS_RSTCTL, 1, 1, .rw, 0⟩
  | .SYS_RSTCTL_WARM => ⟨.SYS_RSTCTL, 0, 1, .rw, 0⟩
  | .SYS_RSTCAUSE_SAFESTOP => ⟨.SYS_RSTCAUSE, 5, 1, .w1c, 0⟩
  | .SYS_RSTCAUSE_FULL_SW => ⟨.SYS_RSTCAUSE, 4, 1, .w1c, 0⟩
  | .SYS_RSTCAUSE_WDOG => ⟨.SYS_RSTCAUSE, 3, 1, .w1c, 0⟩
  | .SYS_RSTCAUSE_WARM_SVC => ⟨.SYS_RSTCAUSE, 2, 1, .w1c, 0⟩
  | .SYS_RSTCAUSE_WARM_SW => ⟨.SYS_RSTCAUSE, 1, 1, .w1c, 0⟩
  | .SYS_RSTCAUSE_POR => ⟨.SYS_RSTCAUSE, 0, 1, .w1c, 1⟩
  | .SYS_CONFLICT_VALID => ⟨.SYS_CONFLICT, 31, 1, .w1c, 0⟩
  | .SYS_CONFLICT_COUNT => ⟨.SYS_CONFLICT, 16, 8, .ro, 0⟩
  | .SYS_CONFLICT_WINNER => ⟨.SYS_CONFLICT, 8, 5, .ro, 0⟩
  | .SYS_CONFLICT_LOSER => ⟨.SYS_CONFLICT, 0, 5, .ro, 0⟩
  | .SYS_CONFLICT_ADDR_OFFSET => ⟨.SYS_CONFLICT_ADDR, 0, 24, .snap, 0⟩
  | .SYS_PEND_BLOCKS => ⟨.SYS_PEND, 0, 12, .ro, 0⟩
  | .SYS_BAR2CTL_DISABLE => ⟨.SYS_BAR2CTL, 24, 1, .rw, 0⟩
  | .SYS_BAR2CTL_RELOCK1 => ⟨.SYS_BAR2CTL, 17, 1, .w1c, 0⟩
  | .SYS_BAR2CTL_RELOCK0 => ⟨.SYS_BAR2CTL, 16, 1, .w1c, 0⟩
  | .SYS_BAR2CTL_WDROP1 => ⟨.SYS_BAR2CTL, 9, 1, .w1c, 0⟩
  | .SYS_BAR2CTL_WDROP0 => ⟨.SYS_BAR2CTL, 8, 1, .w1c, 0⟩
  | .SYS_BAR2CTL_UNLOCK1 => ⟨.SYS_BAR2CTL, 1, 1, .ro, 0⟩
  | .SYS_BAR2CTL_UNLOCK0 => ⟨.SYS_BAR2CTL, 0, 1, .ro, 0⟩
  | .ANG_CTL_REACQ => ⟨.ANG_CTL, 2, 1, .rw, 0⟩
  | .ANG_CTL_AUTO => ⟨.ANG_CTL, 1, 1, .rw, 1⟩
  | .ANG_CTL_ENABLE => ⟨.ANG_CTL, 0, 1, .rw, 0⟩
  | .ANG_GEOM_WEDGES => ⟨.ANG_GEOM, 0, 5, .wd, 8⟩
  | .ANG_STAT_EPOCH => ⟨.ANG_STAT, 24, 8, .ro, 0⟩
  | .ANG_STAT_HCLAMP => ⟨.ANG_STAT, 11, 1, .w1c, 0⟩
  | .ANG_STAT_BADCFG => ⟨.ANG_STAT, 10, 1, .w1c, 0⟩
  | .ANG_STAT_WRAP => ⟨.ANG_STAT, 9, 1, .w1c, 0⟩
  | .ANG_STAT_SPEED => ⟨.ANG_STAT, 8, 1, .ro, 0⟩
  | .ANG_STAT_USABLE => ⟨.ANG_STAT, 4, 4, .ro, 0⟩
  | .ANG_STAT_VALID => ⟨.ANG_STAT, 2, 1, .ro, 0⟩
  | .ANG_STAT_STATE => ⟨.ANG_STAT, 0, 2, .ro, 0⟩
  | .ANG_LOSS_SPEED => ⟨.ANG_LOSS, 4, 1, .w1c, 0⟩
  | .ANG_LOSS_PHASE => ⟨.ANG_LOSS, 3, 1, .w1c, 0⟩
  | .ANG_LOSS_DISAGREE => ⟨.ANG_LOSS, 2, 1, .w1c, 0⟩
  | .ANG_LOSS_NOFRAME => ⟨.ANG_LOSS, 1, 1, .w1c, 0⟩
  | .ANG_LOSS_FEWREF => ⟨.ANG_LOSS, 0, 1, .w1c, 0⟩
  | .ANG_LO_ANG => ⟨.ANG_LO, 0, 32, .ro, 0⟩
  | .ANG_HI_ANG => ⟨.ANG_HI, 0, 16, .snap, 0⟩
  | .ANG_TSLO_TS => ⟨.ANG_TSLO, 0, 32, .snap, 0⟩
  | .ANG_TSHI_TS => ⟨.ANG_TSHI, 0, 16, .snap, 0⟩
  | .ANG_PERIOD_CYCLES => ⟨.ANG_PERIOD, 0, 32, .ro, 0⟩
  | .ANG_LOOP_DAMP => ⟨.ANG_LOOP, 4, 4, .wd, 2⟩
  | .ANG_LOOP_BW => ⟨.ANG_LOOP, 0, 4, .wd, 3⟩
  | .ANG_TOL_BADREV => ⟨.ANG_TOL, 24, 8, .wd, 0x40⟩
  | .ANG_TOL_PERR => ⟨.ANG_TOL, 16, 8, .wd, 0x10⟩
  | .ANG_TOL_DIS => ⟨.ANG_TOL, 0, 16, .wd, 0x40⟩
  | .ANG_REFCTL_READMIT => ⟨.ANG_REFCTL, 8, 4, .rw, 0⟩
  | .ANG_REFCTL_FORCEOUT => ⟨.ANG_REFCTL, 4, 4, .rw, 0⟩
  | .ANG_REFCTL_USE => ⟨.ANG_REFCTL, 0, 4, .rw, 0⟩
  | .ANG_REFSTAT_REFD => ⟨.ANG_REFSTAT, 12, 3, .ro, 0⟩
  | .ANG_REFSTAT_REFC => ⟨.ANG_REFSTAT, 8, 3, .ro, 0⟩
  | .ANG_REFSTAT_REFB => ⟨.ANG_REFSTAT, 4, 3, .ro, 0⟩
  | .ANG_REFSTAT_REFA => ⟨.ANG_REFSTAT, 0, 3, .ro, 0⟩
  | .ANG_REFERR_REFD => ⟨.ANG_REFERR, 24, 8, .rc, 0⟩
  | .ANG_REFERR_REFC => ⟨.ANG_REFERR, 16, 8, .rc, 0⟩
  | .ANG_REFERR_REFB => ⟨.ANG_REFERR, 8, 8, .rc, 0⟩
  | .ANG_REFERR_REFA => ⟨.ANG_REFERR, 0, 8, .rc, 0⟩
  | .ANG_REFOFF_OFF => ⟨.ANG_REFOFF, 0, 24, .wd, 0⟩
  | .ANG_PEND_PEND => ⟨.ANG_PEND, 0, 9, .ro, 0⟩
  | .ANG_SOFF_OFF => ⟨.ANG_SOFF, 0, 24, .wd, 0⟩
  | .ANG_RRO_CORR => ⟨.ANG_RRO, 0, 16, .wd, 0⟩
  | .ANG_HOFF_OFF => ⟨.ANG_HOFF, 0, 24, .wd, 0⟩
  | .ANG_HSKEW_TOFF => ⟨.ANG_HSKEW, 16, 16, .wd, 0⟩
  | .ANG_HSKEW_WOFF => ⟨.ANG_HSKEW, 0, 16, .wd, 0⟩
  | .ANG_SCKRATE_ENABLE => ⟨.ANG_SCKRATE, 31, 1, .wd, 0⟩
  | .ANG_SCKRATE_SPR => ⟨.ANG_SCKRATE, 0, 26, .wd, 0⟩
  | .ANG_WCKRATE_ENABLE => ⟨.ANG_WCKRATE, 31, 1, .wd, 0⟩
  | .ANG_WCKRATE_SPR => ⟨.ANG_WCKRATE, 0, 26, .wd, 0⟩
  | .ANG_SCKPHASE_PHASE => ⟨.ANG_SCKPHASE, 0, 24, .wd, 0⟩
  | .ANG_WCKPHASE_PHASE => ⟨.ANG_WCKPHASE, 0, 24, .wd, 0⟩
  | .ANG_SCKSTAT_RUN => ⟨.ANG_SCKSTAT, 31, 1, .ro, 0⟩
  | .ANG_SCKSTAT_RANGE => ⟨.ANG_SCKSTAT, 30, 1, .w1c, 0⟩
  | .ANG_SCKSTAT_UNOWNED => ⟨.ANG_SCKSTAT, 29, 1, .ro, 1⟩
  | .ANG_SCKSTAT_OWNER => ⟨.ANG_SCKSTAT, 0, 7, .ro, 0⟩
  | .ANG_WCKSTAT_RUN => ⟨.ANG_WCKSTAT, 31, 1, .ro, 0⟩
  | .ANG_WCKSTAT_RANGE => ⟨.ANG_WCKSTAT, 30, 1, .w1c, 0⟩
  | .ANG_WCKSTAT_UNOWNED => ⟨.ANG_WCKSTAT, 29, 1, .ro, 1⟩
  | .ANG_WCKSTAT_OWNER => ⟨.ANG_WCKSTAT, 0, 7, .ro, 0⟩
  | .ANG_CMPCTL_ARM => ⟨.ANG_CMPCTL, 31, 1, .rw, 0⟩
  | .ANG_CMPCTL_PERIODIC => ⟨.ANG_CMPCTL, 30, 1, .rw, 0⟩
  | .ANG_CMPCTL_IRQ => ⟨.ANG_CMPCTL, 29, 1, .rw, 0⟩
  | .ANG_CMPCTL_FRAME => ⟨.ANG_CMPCTL, 24, 2, .rw, 0⟩
  | .ANG_CMPCTL_HEAD => ⟨.ANG_CMPCTL, 0, 7, .rw, 0⟩
  | .ANG_CMPTGTLO_TGT => ⟨.ANG_CMPTGTLO, 0, 32, .rw, 0⟩
  | .ANG_CMPTGTHI_TGT => ⟨.ANG_CMPTGTHI, 0, 16, .rw, 0⟩
  | .ANG_CMPSTAT_FIRED => ⟨.ANG_CMPSTAT, 31, 1, .w1c, 0⟩
  | .ANG_CMPSTAT_LATE => ⟨.ANG_CMPSTAT, 30, 1, .w1c, 0⟩
  | .ANG_CMPSTAT_LOST => ⟨.ANG_CMPSTAT, 29, 1, .w1c, 0⟩
  | .LNX_CTL_SWROUTE => ⟨.LNX_CTL, 0, 1, .rw, 0⟩
  | .LNX_STAT_LANE => ⟨.LNX_STAT, 16, 6, .ro, 0⟩
  | .LNX_STAT_PAIRERR => ⟨.LNX_STAT, 2, 1, .w1c, 0⟩
  | .LNX_STAT_DUPLICATE => ⟨.LNX_STAT, 1, 1, .w1c, 0⟩
  | .LNX_STAT_REFUSED => ⟨.LNX_STAT, 0, 1, .w1c, 0⟩
  | .LNX_PEND0_PEND => ⟨.LNX_PEND0, 0, 32, .ro, 0⟩
  | .LNX_PEND1_PEND => ⟨.LNX_PEND1, 0, 32, .ro, 0⟩
  | .LNX_ROUTE_SRC => ⟨.LNX_ROUTE, 9, 2, .wd, 0⟩
  | .LNX_ROUTE_EN => ⟨.LNX_ROUTE, 8, 1, .wd, 0⟩
  | .LNX_ROUTE_INPUT => ⟨.LNX_ROUTE, 0, 8, .wd, 0⟩
  | .LANE_CTL_RECAL => ⟨.LANE_CTL, 3, 1, .rw, 0⟩
  | .LANE_CTL_READMIT => ⟨.LANE_CTL, 2, 1, .rw, 0⟩
  | .LANE_CTL_FORCEOUT => ⟨.LANE_CTL, 1, 1, .rw, 0⟩
  | .LANE_STAT_BANKFLT => ⟨.LANE_STAT, 15, 1, .w1c, 0⟩
  | .LANE_STAT_NOCLK => ⟨.LANE_STAT, 14, 1, .w1c, 0⟩
  | .LANE_STAT_STUCK => ⟨.LANE_STAT, 13, 1, .w1c, 0⟩
  | .LANE_STAT_CALFAIL => ⟨.LANE_STAT, 12, 1, .w1c, 0⟩
  | .LANE_STAT_SKEWERR => ⟨.LANE_STAT, 11, 1, .w1c, 0⟩
  | .LANE_STAT_SLIP => ⟨.LANE_STAT, 10, 1, .w1c, 0⟩
  | .LANE_STAT_TLCLAMP => ⟨.LANE_STAT, 9, 1, .w1c, 0⟩
  | .LANE_STAT_OVR => ⟨.LANE_STAT, 8, 1, .w1c, 0⟩
  | .LANE_STAT_RECALPEND => ⟨.LANE_STAT, 7, 1, .ro, 0⟩
  | .LANE_STAT_DUAL => ⟨.LANE_STAT, 6, 1, .ro, 0⟩
  | .LANE_STAT_ROUTED => ⟨.LANE_STAT, 5, 1, .ro, 0⟩
  | .LANE_STAT_HELD => ⟨.LANE_STAT, 4, 1, .ro, 0⟩
  | .LANE_STAT_STATE => ⟨.LANE_STAT, 0, 3, .ro, 0⟩
  | .LANE_OVRCNT_EVENTS => ⟨.LANE_OVRCNT, 0, 16, .rc, 0⟩
  | .LANE_PEND_PEND => ⟨.LANE_PEND, 0, 7, .ro, 0⟩
  | .LANE_AFE_SBOOST => ⟨.LANE_AFE, 28, 4, .wd, 0⟩
  | .LANE_AFE_SFC => ⟨.LANE_AFE, 22, 6, .wd, 0xa⟩
  | .LANE_AFE_HPF => ⟨.LANE_AFE, 12, 2, .wd, 1⟩
  | .LANE_AFE_BOOST => ⟨.LANE_AFE, 8, 4, .wd, 4⟩
  | .LANE_AFE_FC => ⟨.LANE_AFE, 0, 6, .wd, 0x14⟩
  | .LANE_AGC_STEP => ⟨.LANE_AGC, 16, 3, .wd, 1⟩
  | .LANE_AGC_TARGET => ⟨.LANE_AGC, 8, 6, .wd, 0x18⟩
  | .LANE_AGC_INIT => ⟨.LANE_AGC, 0, 7, .wd, 0x40⟩
  | .LANE_GAIN_VGA => ⟨.LANE_GAIN, 0, 7, .ro, 0⟩
  | .LANE_TLOOP_FLIM => ⟨.LANE_TLOOP, 8, 4, .wd, 9⟩
  | .LANE_TLOOP_KI => ⟨.LANE_TLOOP, 4, 4, .wd, 4⟩
  | .LANE_TLOOP_KP => ⟨.LANE_TLOOP, 0, 4, .wd, 3⟩
  | .LANE_TPHASE_PHASE => ⟨.LANE_TPHASE, 16, 7, .ro, 0⟩
  | .LANE_TPHASE_FREQ => ⟨.LANE_TPHASE, 0, 16, .ro, 0⟩
  | .LANE_MODE_MASK => ⟨.LANE_MODE, 16, 16, .rwm, 0⟩
  | .LANE_MODE_AGCFREEZE => ⟨.LANE_MODE, 2, 1, .rwmWd, 0⟩
  | .LANE_MODE_TLFREEZE => ⟨.LANE_MODE, 1, 1, .rwmWd, 0⟩
  | .LANE_MODE_ADAPT => ⟨.LANE_MODE, 0, 1, .rwmWd, 0⟩
  | .LANE_FIR_COEF => ⟨.LANE_FIR, 0, 10, .wd, 0⟩
  | .LANE_FIRCFG_MU => ⟨.LANE_FIRCFG, 4, 4, .wd, 4⟩
  | .LANE_FIRCFG_MAIN => ⟨.LANE_FIRCFG, 0, 4, .wd, 4⟩
  | .LANE_TARGET_G4 => ⟨.LANE_TARGET, 24, 8, .wd, 0⟩
  | .LANE_TARGET_G3 => ⟨.LANE_TARGET, 16, 8, .wd, 0⟩
  | .LANE_TARGET_G2 => ⟨.LANE_TARGET, 8, 8, .wd, 0⟩
  | .LANE_TARGET_G1 => ⟨.LANE_TARGET, 0, 8, .wd, 0x40⟩
  | .LANE_CAL_DNL => ⟨.LANE_CAL, 24, 8, .ro, 0⟩
  | .LANE_CAL_TONE => ⟨.LANE_CAL, 16, 8, .ro, 0⟩
  | .LANE_CAL_OFFSET => ⟨.LANE_CAL, 8, 8, .ro, 0⟩
  | .LANE_CAL_PASS => ⟨.LANE_CAL, 0, 4, .ro, 0⟩
  | .RDI_CTL_INVERT => ⟨.RDI_CTL, 2, 1, .rw, 0⟩
  | .RDI_CTL_TERM => ⟨.RDI_CTL, 1, 1, .rw, 1⟩
  | .RDI_CTL_DECL => ⟨.RDI_CTL, 0, 1, .rw, 0⟩
  | .RDI_STAT_LANE => ⟨.RDI_STAT, 8, 6, .ro, 0⟩
  | .RDI_STAT_WIGN => ⟨.RDI_STAT, 3, 1, .w1c, 0⟩
  | .RDI_STAT_ROUTED => ⟨.RDI_STAT, 2, 1, .ro, 0⟩
  | .RDI_STAT_SHORT => ⟨.RDI_STAT, 1, 1, .w1c, 0⟩
  | .RDI_STAT_OPEN => ⟨.RDI_STAT, 0, 1, .w1c, 0⟩
  | .ITB_CTL_NOBORROW => ⟨.ITB_CTL, 1, 1, .rw, 0⟩
  | .ITB_CTL_ENABLE => ⟨.ITB_CTL, 0, 1, .rw, 0⟩
  | .ITB_STAT_CFGERR => ⟨.ITB_STAT, 25, 1, .w1c, 0⟩
  | .ITB_STAT_CTXFULL => ⟨.ITB_STAT, 24, 1, .w1c, 0⟩
  | .ITB_STAT_CTXPEAK => ⟨.ITB_STAT, 16, 8, .rc, 0⟩
  | .ITB_STAT_CTXUSE => ⟨.ITB_STAT, 8, 8, .ro, 0⟩
  | .ITB_STAT_ESERV => ⟨.ITB_STAT, 0, 6, .ro, 0⟩
  | .ITB_POOL_PAIRMAX => ⟨.ITB_POOL, 16, 10, .wd, 0x78⟩
  | .ITB_POOL_MAX => ⟨.ITB_POOL, 0, 10, .wd, 0x240⟩
  | .ITB_POOLLVL_QLEN => ⟨.ITB_POOLLVL, 16, 8, .ro, 0⟩
  | .ITB_POOLLVL_LEVEL => ⟨.ITB_POOLLVL, 0, 10, .ro, 0⟩
  | .ITB_LIMIT_DEADLINE => ⟨.ITB_LIMIT, 16, 9, .wd, 0x80⟩
  | .ITB_LIMIT_BWAIT => ⟨.ITB_LIMIT, 0, 8, .wd, 0x20⟩
  | .ITB_PROFBASE_BASE => ⟨.ITB_PROFBASE, 12, 13, .wd, 0⟩
  | .ITB_CODEBASE_BASE => ⟨.ITB_CODEBASE, 13, 12, .wd, 0⟩
  | .ITB_GUARLO_COUNT => ⟨.ITB_GUARLO, 0, 32, .ro, 0⟩
  | .ITB_GUARHI_COUNT => ⟨.ITB_GUARHI, 0, 16, .snap, 0⟩
  | .ITB_BORRLO_COUNT => ⟨.ITB_BORRLO, 0, 32, .ro, 0⟩
  | .ITB_BORRHI_COUNT => ⟨.ITB_BORRHI, 0, 16, .snap, 0⟩
  | .ITB_FAILCNT_DROPPED => ⟨.ITB_FAILCNT, 24, 8, .rc, 0⟩
  | .ITB_FAILCNT_BWAIT => ⟨.ITB_FAILCNT, 16, 8, .rc, 0⟩
  | .ITB_FAILCNT_EXPIRED => ⟨.ITB_FAILCNT, 8, 8, .rc, 0⟩
  | .ITB_FAILCNT_NOCONV => ⟨.ITB_FAILCNT, 0, 8, .rc, 0⟩
  | .ITB_FAILCNT2_TBLERR => ⟨.ITB_FAILCNT2, 16, 8, .rc, 0⟩
  | .ITB_FAILCNT2_CTXERR => ⟨.ITB_FAILCNT2, 8, 8, .rc, 0⟩
  | .ITB_FAILCNT2_ABANDON => ⟨.ITB_FAILCNT2, 0, 8, .rc, 0⟩
  | .ITB_PEND_PEND => ⟨.ITB_PEND, 0, 4, .ro, 0⟩
  | .ITB_ENGCTL_READMIT => ⟨.ITB_ENGCTL, 2, 1, .rw, 0⟩
  | .ITB_ENGCTL_FORCEOUT => ⟨.ITB_ENGCTL, 1, 1, .rw, 0⟩
  | .ITB_ENGSTAT_ITERS => ⟨.ITB_ENGSTAT, 16, 16, .rc, 0⟩
  | .ITB_ENGSTAT_CALFAIL => ⟨.ITB_ENGSTAT, 10, 1, .w1c, 0⟩
  | .ITB_ENGSTAT_TIMEOUT => ⟨.ITB_ENGSTAT, 9, 1, .w1c, 0⟩
  | .ITB_ENGSTAT_PARERR => ⟨.ITB_ENGSTAT, 8, 1, .w1c, 0⟩
  | .ITB_ENGSTAT_STATE => ⟨.ITB_ENGSTAT, 0, 3, .ro, 0⟩
  | .TPE_CTL_RECON => ⟨.TPE_CTL, 1, 1, .rw, 1⟩
  | .TPE_CTL_ENABLE => ⟨.TPE_CTL, 0, 1, .rw, 0⟩
  | .TPE_STAT_WIGN => ⟨.TPE_STAT, 7, 1, .w1c, 0⟩
  | .TPE_STAT_DEFFULL => ⟨.TPE_STAT, 6, 1, .w1c, 0⟩
  | .TPE_STAT_ACCPAR => ⟨.TPE_STAT, 5, 1, .w1c, 0⟩
  | .TPE_STAT_MAPERR => ⟨.TPE_STAT, 4, 1, .w1c, 0⟩
  | .TPE_STAT_RBUSY => ⟨.TPE_STAT, 0, 3, .ro, 0⟩
  | .TPE_ZONEBASE_BASE => ⟨.TPE_ZONEBASE, 12, 13, .rw, 0⟩
  | .TPE_ZONECNT_COUNT => ⟨.TPE_ZONECNT, 0, 11, .rw, 0⟩
  | .TPE_LAYBASE_BASE => ⟨.TPE_LAYBASE, 12, 13, .rw, 0⟩
  | .TPE_LAYCNT_COUNT => ⟨.TPE_LAYCNT, 0, 17, .rw, 0⟩
  | .TPE_DEFBMP_BASE => ⟨.TPE_DEFBMP, 16, 9, .rw, 0⟩
  | .TPE_DEFLO_ADDR => ⟨.TPE_DEFLO, 12, 20, .rw, 0⟩
  | .TPE_DEFHI_ADDR => ⟨.TPE_DEFHI, 0, 8, .rw, 0⟩
  | .TPE_DEFMAX_MAX => ⟨.TPE_DEFMAX, 0, 21, .rw, 0⟩
  | .TPE_DEFCNT_COUNT => ⟨.TPE_DEFCNT, 0, 21, .ro, 0⟩
  | .TPE_RECON_REFUSED => ⟨.TPE_RECON, 24, 8, .rc, 0⟩
  | .TPE_RECON_FAIL => ⟨.TPE_RECON, 16, 8, .rc, 0⟩
  | .TPE_RECON_OK => ⟨.TPE_RECON, 0, 16, .rc, 0⟩
  | .FSQ_CTL_RESUME => ⟨.FSQ_CTL, 5, 1, .rw, 0⟩
  | .FSQ_CTL_STEP => ⟨.FSQ_CTL, 4, 1, .rw, 0⟩
  | .FSQ_CTL_BRKEN => ⟨.FSQ_CTL, 3, 1, .rw, 0⟩
  | .FSQ_CTL_CLRMCHK => ⟨.FSQ_CTL, 2, 1, .rw, 0⟩
  | .FSQ_CTL_STOP => ⟨.FSQ_CTL, 1, 1, .rw, 0⟩
  | .FSQ_CTL_ENABLE => ⟨.FSQ_CTL, 0, 1, .rw, 0⟩
  | .FSQ_STAT_MCHK => ⟨.FSQ_STAT, 17, 1, .w1c, 0⟩
  | .FSQ_STAT_ILLEGAL => ⟨.FSQ_STAT, 16, 1, .w1c, 0⟩
  | .FSQ_STAT_WDOG => ⟨.FSQ_STAT, 15, 1, .w1c, 0⟩
  | .FSQ_STAT_IRQ => ⟨.FSQ_STAT, 14, 1, .w1c, 0⟩
  | .FSQ_STAT_FMTERR => ⟨.FSQ_STAT, 13, 1, .w1c, 0⟩
  | .FSQ_STAT_QSTALL => ⟨.FSQ_STAT, 12, 1, .w1c, 0⟩
  | .FSQ_STAT_SVIGN => ⟨.FSQ_STAT, 11, 1, .w1c, 0⟩
  | .FSQ_STAT_VGIGN => ⟨.FSQ_STAT, 10, 1, .w1c, 0⟩
  | .FSQ_STAT_RGIGN => ⟨.FSQ_STAT, 9, 1, .w1c, 0⟩
  | .FSQ_STAT_CAUSE => ⟨.FSQ_STAT, 4, 4, .ro, 0⟩
  | .FSQ_STAT_STATE => ⟨.FSQ_STAT, 0, 3, .ro, 0⟩
  | .FSQ_PC_MCADDR => ⟨.FSQ_PC, 16, 12, .ro, 0⟩
  | .FSQ_PC_SP => ⟨.FSQ_PC, 12, 3, .ro, 0⟩
  | .FSQ_PC_PC => ⟨.FSQ_PC, 0, 12, .ro, 0⟩
  | .FSQ_JOB_ENTRYW => ⟨.FSQ_JOB, 16, 12, .ro, 0⟩
  | .FSQ_JOB_KIND => ⟨.FSQ_JOB, 13, 2, .ro, 0⟩
  | .FSQ_JOB_URG => ⟨.FSQ_JOB, 12, 1, .ro, 0⟩
  | .FSQ_JOB_PAIR => ⟨.FSQ_JOB, 7, 5, .ro, 0⟩
  | .FSQ_JOB_HEAD => ⟨.FSQ_JOB, 0, 7, .ro, 0⟩
  | .FSQ_JSTARTLO_ANG => ⟨.FSQ_JSTARTLO, 0, 32, .ro, 0⟩
  | .FSQ_JSTARTHI_ANG => ⟨.FSQ_JSTARTHI, 0, 16, .snap, 0⟩
  | .FSQ_ZGEOM_ZONE => ⟨.FSQ_ZGEOM, 16, 10, .ro, 0⟩
  | .FSQ_ZGEOM_L => ⟨.FSQ_ZGEOM, 0, 16, .ro, 0⟩
  | .FSQ_ZU_U => ⟨.FSQ_ZU, 0, 25, .ro, 0⟩
  | .FSQ_ENTRY_VALID => ⟨.FSQ_ENTRY, 31, 1, .ro, 0⟩
  | .FSQ_ENTRY_LISTEND => ⟨.FSQ_ENTRY, 30, 1, .ro, 0⟩
  | .FSQ_ENTRY_INDEX => ⟨.FSQ_ENTRY, 16, 12, .ro, 0⟩
  | .FSQ_ENTRY_ROLE => ⟨.FSQ_ENTRY, 10, 2, .ro, 0⟩
  | .FSQ_ENTRY_SLOT => ⟨.FSQ_ENTRY, 0, 10, .ro, 0⟩
  | .FSQ_CNT_CNT1 => ⟨.FSQ_CNT, 16, 16, .ro, 0⟩
  | .FSQ_CNT_CNT0 => ⟨.FSQ_CNT, 0, 16, .ro, 0⟩
  | .FSQ_CMPSTAT_VGQ => ⟨.FSQ_CMPSTAT, 24, 3, .ro, 0⟩
  | .FSQ_CMPSTAT_WGQ => ⟨.FSQ_CMPSTAT, 20, 3, .ro, 0⟩
  | .FSQ_CMPSTAT_RGQ => ⟨.FSQ_CMPSTAT, 16, 3, .ro, 0⟩
  | .FSQ_CMPSTAT_ACBLOST => ⟨.FSQ_CMPSTAT, 7, 1, .ro, 0⟩
  | .FSQ_CMPSTAT_ACALOST => ⟨.FSQ_CMPSTAT, 6, 1, .ro, 0⟩
  | .FSQ_CMPSTAT_ACBLATE => ⟨.FSQ_CMPSTAT, 5, 1, .ro, 0⟩
  | .FSQ_CMPSTAT_ACALATE => ⟨.FSQ_CMPSTAT, 4, 1, .ro, 0⟩
  | .FSQ_CMPSTAT_PCBF => ⟨.FSQ_CMPSTAT, 3, 1, .ro, 0⟩
  | .FSQ_CMPSTAT_PCAF => ⟨.FSQ_CMPSTAT, 2, 1, .ro, 0⟩
  | .FSQ_CMPSTAT_ACBF => ⟨.FSQ_CMPSTAT, 1, 1, .ro, 0⟩
  | .FSQ_CMPSTAT_ACAF => ⟨.FSQ_CMPSTAT, 0, 1, .ro, 0⟩
  | .FSQ_POS_VALID => ⟨.FSQ_POS, 31, 1, .ro, 0⟩
  | .FSQ_POS_EXCL => ⟨.FSQ_POS, 30, 1, .ro, 0⟩
  | .FSQ_POS_U => ⟨.FSQ_POS, 0, 25, .ro, 0⟩
  | .FSQ_STAMPLO_ANG => ⟨.FSQ_STAMPLO, 0, 32, .ro, 0⟩
  | .FSQ_STAMPHI_ANG => ⟨.FSQ_STAMPHI, 0, 16, .snap, 0⟩
  | .FSQ_STAMPPOS_POS => ⟨.FSQ_STAMPPOS, 0, 25, .snap, 0⟩
  | .FSQ_ABNCNT_MCHKS => ⟨.FSQ_ABNCNT, 16, 16, .rc, 0⟩
  | .FSQ_ABNCNT_ABANDONS => ⟨.FSQ_ABNCNT, 0, 16, .rc, 0⟩
  | .FSQ_CFG_JOBREV => ⟨.FSQ_CFG, 0, 4, .wd, 8⟩
  | .FSQ_PEND_CFG => ⟨.FSQ_PEND, 0, 1, .ro, 0⟩
  | .FSQ_CSCTL_OPEN => ⟨.FSQ_CSCTL, 0, 1, .rw, 0⟩
  | .FSQ_CSSTAT_BADADDR => ⟨.FSQ_CSSTAT, 16, 12, .ro, 0⟩
  | .FSQ_CSSTAT_RPERR => ⟨.FSQ_CSSTAT, 3, 1, .w1c, 0⟩
  | .FSQ_CSSTAT_WDROP => ⟨.FSQ_CSSTAT, 2, 1, .w1c, 0⟩
  | .FSQ_CSSTAT_DRAINING => ⟨.FSQ_CSSTAT, 1, 1, .ro, 0⟩
  | .FSQ_CSSTAT_OPENED => ⟨.FSQ_CSSTAT, 0, 1, .ro, 0⟩
  | .WRF_CTL_WEN => ⟨.WRF_CTL, 1, 1, .rw, 0⟩
  | .WRF_CTL_ENABLE => ⟨.WRF_CTL, 0, 1, .rw, 0⟩
  | .WRF_STAT_ENCBUSY => ⟨.WRF_STAT, 8, 4, .ro, 0⟩
  | .WRF_STAT_MISDIR => ⟨.WRF_STAT, 6, 1, .w1c, 0⟩
  | .WRF_STAT_WRFPAR => ⟨.WRF_STAT, 5, 1, .w1c, 0⟩
  | .WRF_STAT_WFAULT => ⟨.WRF_STAT, 4, 1, .w1c, 0⟩
  | .WRF_STAT_OFFTRK => ⟨.WRF_STAT, 3, 1, .w1c, 0⟩
  | .WRF_STAT_GUARD => ⟨.WRF_STAT, 2, 1, .w1c, 0⟩
  | .WRF_STAT_NOSTREAM => ⟨.WRF_STAT, 1, 1, .w1c, 0⟩
  | .WRF_STAT_UNDERRUN => ⟨.WRF_STAT, 0, 1, .w1c, 0⟩
  | .WRF_VCRIT_MAXERAS => ⟨.WRF_VCRIT, 16, 16, .wd, 0x100⟩
  | .WRF_VCRIT_MAXERR => ⟨.WRF_VCRIT, 0, 16, .wd, 0x40⟩
  | .WRF_VCRIT2_DTOL => ⟨.WRF_VCRIT2, 24, 3, .wd, 1⟩
  | .WRF_VCRIT2_MINMAG => ⟨.WRF_VCRIT2, 16, 8, .wd, 0x30⟩
  | .WRF_VCRIT2_CVMAX => ⟨.WRF_VCRIT2, 8, 6, .wd, 4⟩
  | .WRF_VCRIT2_LOWMAG => ⟨.WRF_VCRIT2, 0, 5, .wd, 4⟩
  | .WRF_RETRY_OTHER => ⟨.WRF_RETRY, 4, 4, .wd, 8⟩
  | .WRF_RETRY_INPLACE => ⟨.WRF_RETRY, 0, 4, .wd, 2⟩
  | .WRF_HWEN_WEN => ⟨.WRF_HWEN, 0, 32, .rw, 0⟩
  | .WRF_VCNT_FAIL => ⟨.WRF_VCNT, 16, 16, .rc, 0⟩
  | .WRF_VCNT_PASS => ⟨.WRF_VCNT, 0, 16, .rc, 0⟩
  | .WRF_MDEXPLO_PSA => ⟨.WRF_MDEXPLO, 0, 32, .ro, 0⟩
  | .WRF_MDEXPHI_PSA => ⟨.WRF_MDEXPHI, 0, 16, .snap, 0⟩
  | .WRF_MDOBSLO_PSA => ⟨.WRF_MDOBSLO, 0, 32, .snap, 0⟩
  | .WRF_MDOBSHI_PSA => ⟨.WRF_MDOBSHI, 0, 16, .snap, 0⟩
  | .WRF_PEND_PEND => ⟨.WRF_PEND, 0, 5, .ro, 0⟩
  | .WRF_GUARD_SHKCH => ⟨.WRF_GUARD, 16, 5, .wd, 0⟩
  | .WRF_GUARD_PESLIM => ⟨.WRF_GUARD, 8, 8, .wd, 0x20⟩
  | .WRF_GUARD_HOLD => ⟨.WRF_GUARD, 4, 4, .wd, 2⟩
  | .WRF_GUARD_SHKEN => ⟨.WRF_GUARD, 1, 1, .wd, 0⟩
  | .WRF_GUARD_PESEN => ⟨.WRF_GUARD, 0, 1, .wd, 0⟩
  | .WRF_SHKLIM_LEVEL => ⟨.WRF_SHKLIM, 0, 16, .wd, 0x4000⟩
  | .WRF_ONTRK_LIMIT => ⟨.WRF_ONTRK, 0, 8, .wd, 0x26⟩
  | .WRF_GSTAT_TRIPS => ⟨.WRF_GSTAT, 16, 16, .rc, 0⟩
  | .WRF_GSTAT_OFFTRK => ⟨.WRF_GSTAT, 10, 1, .w1c, 0⟩
  | .WRF_GSTAT_SHKTRIP => ⟨.WRF_GSTAT, 9, 1, .w1c, 0⟩
  | .WRF_GSTAT_PESTRIP => ⟨.WRF_GSTAT, 8, 1, .w1c, 0⟩
  | .WRF_GSTAT_INHIBIT => ⟨.WRF_GSTAT, 0, 1, .ro, 0⟩
  | .WRF_SSTAT_LASTRES => ⟨.WRF_SSTAT, 16, 4, .ro, 0⟩
  | .WRF_SSTAT_NOSTREAM => ⟨.WRF_SSTAT, 11, 1, .w1c, 0⟩
  | .WRF_SSTAT_NOTWR => ⟨.WRF_SSTAT, 10, 1, .w1c, 0⟩
  | .WRF_SSTAT_WFAULT => ⟨.WRF_SSTAT, 9, 1, .w1c, 0⟩
  | .WRF_SSTAT_UNDERRUN => ⟨.WRF_SSTAT, 8, 1, .w1c, 0⟩
  | .WRF_SSTAT_INHIBIT => ⟨.WRF_SSTAT, 4, 1, .ro, 0⟩
  | .WRF_SSTAT_DRIVING => ⟨.WRF_SSTAT, 3, 1, .ro, 0⟩
  | .WRF_SSTAT_READY => ⟨.WRF_SSTAT, 2, 1, .ro, 0⟩
  | .WRF_SSTAT_PREP => ⟨.WRF_SSTAT, 0, 2, .ro, 0⟩
  | .WRF_PRECOMP_EARLY2 => ⟨.WRF_PRECOMP, 4, 4, .wd, 0⟩
  | .WRF_PRECOMP_EARLY1 => ⟨.WRF_PRECOMP, 0, 4, .wd, 0⟩
  | .WRF_SVCNT_FAIL => ⟨.WRF_SVCNT, 16, 16, .rc, 0⟩
  | .WRF_SVCNT_PASS => ⟨.WRF_SVCNT, 0, 16, .rc, 0⟩
  | .SRV_CTL_DONE => ⟨.SRV_CTL, 7, 1, .rw, 0⟩
  | .SRV_CTL_UNLOAD => ⟨.SRV_CTL, 6, 1, .rw, 0⟩
  | .SRV_CTL_LOAD => ⟨.SRV_CTL, 5, 1, .rw, 0⟩
  | .SRV_CTL_READMIT => ⟨.SRV_CTL, 4, 1, .rw, 0⟩
  | .SRV_CTL_FORCEOUT => ⟨.SRV_CTL, 3, 1, .rw, 0⟩
  | .SRV_CTL_ENABLE => ⟨.SRV_CTL, 0, 1, .rw, 0⟩
  | .SRV_STAT_GUIDE => ⟨.SRV_STAT, 23, 1, .ro, 0⟩
  | .SRV_STAT_REFHEAD => ⟨.SRV_STAT, 16, 7, .ro, 0⟩
  | .SRV_STAT_SRVLOSS => ⟨.SRV_STAT, 15, 1, .w1c, 0⟩
  | .SRV_STAT_SEEKTO => ⟨.SRV_STAT, 14, 1, .w1c, 0⟩
  | .SRV_STAT_LATE => ⟨.SRV_STAT, 13, 1, .w1c, 0⟩
  | .SRV_STAT_RUNAWAY => ⟨.SRV_STAT, 12, 1, .w1c, 0⟩
  | .SRV_STAT_MODE => ⟨.SRV_STAT, 8, 3, .ro, 0⟩
  | .SRV_STAT_SVC => ⟨.SRV_STAT, 0, 3, .ro, 0⟩
  | .SRV_CAL_PASS => ⟨.SRV_CAL, 0, 1, .rw, 0⟩
  | .SRV_VTGT_TRACK => ⟨.SRV_VTGT, 0, 20, .ro, 0⟩
  | .SRV_VPOS_POS => ⟨.SRV_VPOS, 0, 28, .rw, 0⟩
  | .SRV_VCMCMD_CMD => ⟨.SRV_VCMCMD, 0, 16, .rw, 0⟩
  | .SRV_VCMOUT_CLAMP => ⟨.SRV_VCMOUT, 31, 1, .ro, 0⟩
  | .SRV_VCMOUT_DAC => ⟨.SRV_VCMOUT, 0, 16, .ro, 0⟩
  | .SRV_TIMING_MDLY => ⟨.SRV_TIMING, 16, 16, .wd, 0xc00⟩
  | .SRV_TIMING_VDLY => ⟨.SRV_TIMING, 0, 16, .wd, 0x1000⟩
  | .SRV_SFMT_CELL => ⟨.SRV_SFMT, 24, 4, .wd, 2⟩
  | .SRV_SFMT_PRE => ⟨.SRV_SFMT, 16, 8, .wd, 0x20⟩
  | .SRV_SFMT_BURST => ⟨.SRV_SFMT, 8, 8, .wd, 0x10⟩
  | .SRV_SFMT_SAMWIN => ⟨.SRV_SFMT, 4, 4, .wd, 2⟩
  | .SRV_SFMT_SAMTOL => ⟨.SRV_SFMT, 0, 4, .wd, 1⟩
  | .SRV_SAMPAT_PAT => ⟨.SRV_SAMPAT, 0, 12, .wd, 0xb5⟩
  | .SRV_SETTLE_FLIM => ⟨.SRV_SETTLE, 24, 8, .wd, 0x40⟩
  | .SRV_SETTLE_FCNT => ⟨.SRV_SETTLE, 20, 4, .wd, 2⟩
  | .SRV_SETTLE_SCNT => ⟨.SRV_SETTLE, 16, 4, .wd, 3⟩
  | .SRV_SETTLE_WSLIM => ⟨.SRV_SETTLE, 8, 8, .wd, 0x1a⟩
  | .SRV_SETTLE_RSLIM => ⟨.SRV_SETTLE, 0, 8, .wd, 0x30⟩
  | .SRV_MACFG_STROKE => ⟨.SRV_MACFG, 16, 8, .wd, 0xc⟩
  | .SRV_MACFG_MALIM => ⟨.SRV_MACFG, 0, 12, .wd, 0x600⟩
  | .SRV_RUN_MISSMAX => ⟨.SRV_RUN, 28, 4, .wd, 2⟩
  | .SRV_RUN_VMAX => ⟨.SRV_RUN, 20, 8, .wd, 0x80⟩
  | .SRV_RUN_IMCH => ⟨.SRV_RUN, 15, 5, .wd, 0⟩
  | .SRV_RUN_IERR => ⟨.SRV_RUN, 0, 15, .wd, 0x800⟩
  | .SRV_RANGE0_TRACK => ⟨.SRV_RANGE0, 0, 20, .wd, 0⟩
  | .SRV_RANGE1_TRACK => ⟨.SRV_RANGE1, 0, 20, .wd, 0xfffff⟩
  | .SRV_VCMLIM_LIM => ⟨.SRV_VCMLIM, 0, 15, .wd, 0x6000⟩
  | .SRV_RVFF_EN => ⟨.SRV_RVFF, 31, 1, .wd, 0⟩
  | .SRV_RVFF_CHB => ⟨.SRV_RVFF, 24, 5, .wd, 0⟩
  | .SRV_RVFF_CHA => ⟨.SRV_RVFF, 16, 5, .wd, 0⟩
  | .SRV_RVFF_SHIFT => ⟨.SRV_RVFF, 0, 4, .wd, 0⟩
  | .SRV_RVFIR_TAPODD => ⟨.SRV_RVFIR, 16, 16, .wd, 0⟩
  | .SRV_RVFIR_TAPEVEN => ⟨.SRV_RVFIR, 0, 16, .wd, 0⟩
  | .SRV_CONTACT_EN => ⟨.SRV_CONTACT, 8, 1, .wd, 1⟩
  | .SRV_CONTACT_AMPDEV => ⟨.SRV_CONTACT, 0, 8, .wd, 0x19⟩
  | .SRV_RETRACT_TIME => ⟨.SRV_RETRACT, 16, 16, .rw, 0x3e8⟩
  | .SRV_RETRACT_CUR => ⟨.SRV_RETRACT, 0, 16, .rw, 0xf000⟩
  | .SRV_TIMEOUT_LOADTO => ⟨.SRV_TIMEOUT, 8, 8, .wd, 0x64⟩
  | .SRV_TIMEOUT_SEEKTO => ⟨.SRV_TIMEOUT, 0, 8, .wd, 0x40⟩
  | .SRV_CNT_MISSED => ⟨.SRV_CNT, 16, 16, .rc, 0⟩
  | .SRV_CNT_MALATE => ⟨.SRV_CNT, 8, 8, .rc, 0⟩
  | .SRV_CNT_LATE => ⟨.SRV_CNT, 0, 8, .rc, 0⟩
  | .SRV_PEND_PEND => ⟨.SRV_PEND, 0, 1, .ro, 0⟩
  | .SRV_HCTL_READMIT => ⟨.SRV_HCTL, 2, 1, .rw, 0⟩
  | .SRV_HCTL_FORCEOUT => ⟨.SRV_HCTL, 1, 1, .rw, 0⟩
  | .SRV_HSTAT_CONTACT => ⟨.SRV_HSTAT, 15, 1, .w1c, 0⟩
  | .SRV_HSTAT_OUTSTROKE => ⟨.SRV_HSTAT, 14, 1, .w1c, 0⟩
  | .SRV_HSTAT_MAFAULT => ⟨.SRV_HSTAT, 13, 1, .w1c, 0⟩
  | .SRV_HSTAT_CALFAIL => ⟨.SRV_HSTAT, 12, 1, .w1c, 0⟩
  | .SRV_HSTAT_WROUT => ⟨.SRV_HSTAT, 11, 1, .w1c, 0⟩
  | .SRV_HSTAT_RDOUT => ⟨.SRV_HSTAT, 10, 1, .w1c, 0⟩
  | .SRV_HSTAT_BOUND => ⟨.SRV_HSTAT, 7, 1, .ro, 0⟩
  | .SRV_HSTAT_GUIDE => ⟨.SRV_HSTAT, 6, 1, .ro, 0⟩
  | .SRV_HSTAT_FOLLOW => ⟨.SRV_HSTAT, 4, 2, .ro, 0⟩
  | .SRV_HSTAT_STATE => ⟨.SRV_HSTAT, 0, 3, .ro, 0⟩
  | .SRV_HTGT_JOBW => ⟨.SRV_HTGT, 31, 1, .ro, 0⟩
  | .SRV_HTGT_TRACK => ⟨.SRV_HTGT, 0, 20, .ro, 0⟩
  | .SRV_XOFF_OFF => ⟨.SRV_XOFF, 0, 20, .rw, 0⟩
  | .SRV_MA_CODE => ⟨.SRV_MA, 0, 12, .rw, 0⟩
  | .SRV_HPRED_POS => ⟨.SRV_HPRED, 0, 28, .rw, 0⟩
  | .SRV_SMP0_VALID => ⟨.SRV_SMP0, 31, 1, .ro, 0⟩
  | .SRV_SMP0_RROBAD => ⟨.SRV_SMP0, 30, 1, .ro, 0⟩
  | .SRV_SMP0_WEDGE => ⟨.SRV_SMP0, 20, 10, .ro, 0⟩
  | .SRV_SMP0_TRACK => ⟨.SRV_SMP0, 0, 20, .ro, 0⟩
  | .SRV_SMP1_PES => ⟨.SRV_SMP1, 16, 16, .snap, 0⟩
  | .SRV_SMP1_RRO => ⟨.SRV_SMP1, 0, 16, .snap, 0⟩
  | .SRV_SMP2_N => ⟨.SRV_SMP2, 16, 16, .snap, 0⟩
  | .SRV_SMP2_Q => ⟨.SRV_SMP2, 0, 16, .snap, 0⟩
  | .SRV_SMP3_AMP => ⟨.SRV_SMP3, 24, 8, .snap, 0⟩
  | .SRV_SMP3_COUNT => ⟨.SRV_SMP3, 16, 8, .snap, 0⟩
  | .SRV_SMP3_TIME => ⟨.SRV_SMP3, 0, 16, .snap, 0⟩
  | .ARM_CTL_SAFE => ⟨.ARM_CTL, 3, 1, .rw, 0⟩
  | .ARM_CTL_RETRAIN => ⟨.ARM_CTL, 2, 1, .rw, 0⟩
  | .ARM_CTL_AUTORT => ⟨.ARM_CTL, 1, 1, .rw, 1⟩
  | .ARM_CTL_ENABLE => ⟨.ARM_CTL, 0, 1, .rw, 0⟩
  | .ARM_STAT_TEMP => ⟨.ARM_STAT, 24, 8, .ro, 0⟩
  | .ARM_STAT_LOSSES => ⟨.ARM_STAT, 16, 8, .rc, 0⟩
  | .ARM_STAT_DOWN => ⟨.ARM_STAT, 8, 1, .w1c, 0⟩
  | .ARM_STAT_LSTATE => ⟨.ARM_STAT, 0, 2, .ro, 0⟩
  | .ARM_ERR_NAK => ⟨.ARM_ERR, 24, 8, .rc, 0⟩
  | .ARM_ERR_UPCRC => ⟨.ARM_ERR, 16, 8, .rc, 0⟩
  | .ARM_ERR_RESEND => ⟨.ARM_ERR, 8, 8, .rc, 0⟩
  | .ARM_ERR_DELIM => ⟨.ARM_ERR, 0, 8, .rc, 0⟩
  | .ARM_WSTAT_FAULT => ⟨.ARM_WSTAT, 8, 8, .w1c, 0⟩
  | .ARM_WSTAT_WSEL => ⟨.ARM_WSTAT, 0, 8, .ro, 0⟩
  | .ARM_HCFG_HMAX => ⟨.ARM_HCFG, 0, 10, .rw, 0x190⟩
  | .ARM_REGCMD_GO => ⟨.ARM_REGCMD, 31, 1, .rw, 0⟩
  | .ARM_REGCMD_WR => ⟨.ARM_REGCMD, 30, 1, .rw, 0⟩
  | .ARM_REGCMD_ADDR => ⟨.ARM_REGCMD, 16, 8, .rw, 0⟩
  | .ARM_REGCMD_DATA => ⟨.ARM_REGCMD, 0, 16, .rw, 0⟩
  | .ARM_REGRSP_DONE => ⟨.ARM_REGRSP, 31, 1, .w1c, 0⟩
  | .ARM_REGRSP_TIMEOUT => ⟨.ARM_REGRSP, 30, 1, .w1c, 0⟩
  | .ARM_REGRSP_BUSY => ⟨.ARM_REGRSP, 29, 1, .w1c, 0⟩
  | .ARM_REGRSP_DATA => ⟨.ARM_REGRSP, 0, 16, .ro, 0⟩
  | .ARM_CONTACT_VALID => ⟨.ARM_CONTACT, 31, 1, .w1c, 0⟩
  | .ARM_CONTACT_SURF => ⟨.ARM_CONTACT, 24, 5, .ro, 0⟩
  | .ARM_CONTACT_METRIC => ⟨.ARM_CONTACT, 0, 10, .ro, 0⟩
  | .ARM_HTR_WRITE => ⟨.ARM_HTR, 16, 10, .rw, 0⟩
  | .ARM_HTR_READ => ⟨.ARM_HTR, 0, 10, .rw, 0⟩
  | .SPN_CTL_DECEL => ⟨.SPN_CTL, 5, 1, .rw, 0⟩
  | .SPN_CTL_HOLDSHORT => ⟨.SPN_CTL, 4, 1, .rw, 0⟩
  | .SPN_CTL_BRAKE => ⟨.SPN_CTL, 3, 1, .rw, 0⟩
  | .SPN_CTL_RUN => ⟨.SPN_CTL, 2, 1, .rw, 0⟩
  | .SPN_CTL_ENABLE => ⟨.SPN_CTL, 0, 1, .rw, 0⟩
  | .SPN_STAT_PFAIL => ⟨.SPN_STAT, 27, 1, .w1c, 0⟩
  | .SPN_STAT_DRVFLT => ⟨.SPN_STAT, 26, 1, .w1c, 0⟩
  | .SPN_STAT_ZCLOST => ⟨.SPN_STAT, 25, 1, .w1c, 0⟩
  | .SPN_STAT_STARTFAIL => ⟨.SPN_STAT, 24, 1, .w1c, 0⟩
  | .SPN_STAT_OVERSPEED => ⟨.SPN_STAT, 23, 1, .w1c, 0⟩
  | .SPN_STAT_RATEERR => ⟨.SPN_STAT, 22, 1, .w1c, 0⟩
  | .SPN_STAT_BADCFG => ⟨.SPN_STAT, 21, 1, .w1c, 0⟩
  | .SPN_STAT_WAITGRANT => ⟨.SPN_STAT, 11, 1, .ro, 0⟩
  | .SPN_STAT_PHLOCKED => ⟨.SPN_STAT, 10, 1, .ro, 0⟩
  | .SPN_STAT_INRANGE => ⟨.SPN_STAT, 9, 1, .ro, 0⟩
  | .SPN_STAT_ATSPEED => ⟨.SPN_STAT, 8, 1, .ro, 0⟩
  | .SPN_STAT_SRC => ⟨.SPN_STAT, 4, 2, .ro, 0⟩
  | .SPN_STAT_STATE => ⟨.SPN_STAT, 0, 3, .ro, 0⟩
  | .SPN_SPEED_TARGET => ⟨.SPN_SPEED, 0, 20, .rw, 0⟩
  | .SPN_MEAS_SPEED => ⟨.SPN_MEAS, 0, 20, .ro, 0⟩
  | .SPN_MOTOR_VBUS => ⟨.SPN_MOTOR, 24, 5, .rw, 2⟩
  | .SPN_MOTOR_IV => ⟨.SPN_MOTOR, 16, 5, .rw, 1⟩
  | .SPN_MOTOR_IU => ⟨.SPN_MOTOR, 8, 5, .rw, 0⟩
  | .SPN_MOTOR_POLES => ⟨.SPN_MOTOR, 0, 4, .rw, 4⟩
  | .SPN_PWM_DEAD => ⟨.SPN_PWM, 8, 6, .rw, 8⟩
  | .SPN_PWM_FREQ => ⟨.SPN_PWM, 0, 8, .rw, 0x28⟩
  | .SPN_ILIM_BRK => ⟨.SPN_ILIM, 16, 16, .rw, 0xbb8⟩
  | .SPN_ILIM_RUN => ⟨.SPN_ILIM, 0, 16, .rw, 0x7d0⟩
  | .SPN_GRANT_LIMIT => ⟨.SPN_GRANT, 0, 16, .ro, 0⟩
  | .SPN_HFI_PTEST => ⟨.SPN_HFI, 16, 8, .rw, 0x20⟩
  | .SPN_HFI_AMP => ⟨.SPN_HFI, 8, 6, .rw, 0xa⟩
  | .SPN_HFI_FREQ => ⟨.SPN_HFI, 0, 6, .rw, 0x10⟩
  | .SPN_BEMF_BLANK => ⟨.SPN_BEMF, 8, 8, .rw, 0x30⟩
  | .SPN_BEMF_ZCMISS => ⟨.SPN_BEMF, 0, 4, .rw, 3⟩
  | .SPN_REG_KI => ⟨.SPN_REG, 8, 8, .rw, 0x10⟩
  | .SPN_REG_KP => ⟨.SPN_REG, 0, 8, .rw, 0x40⟩
  | .SPN_PFAIL_VTRIP => ⟨.SPN_PFAIL, 16, 16, .rw, 0x5000⟩
  | .SPN_PFAIL_VMIN => ⟨.SPN_PFAIL, 0, 16, .rw, 0x4000⟩
  | .SPN_PFCFG_BRAKE => ⟨.SPN_PFCFG, 8, 1, .rw, 1⟩
  | .SPN_PFCFG_HOLD => ⟨.SPN_PFCFG, 0, 4, .rw, 2⟩
  | .SPN_PFSTAT_ELAPSED => ⟨.SPN_PFSTAT, 16, 16, .ro, 0⟩
  | .SPN_PFSTAT_UNIT => ⟨.SPN_PFSTAT, 8, 4, .ro, 0⟩
  | .SPN_PFSTAT_DONE => ⟨.SPN_PFSTAT, 4, 4, .ro, 0⟩
  | .SPN_PFSTAT_RETRACTED => ⟨.SPN_PFSTAT, 0, 4, .ro, 0⟩
  | .SPN_PHLOCK_EN => ⟨.SPN_PHLOCK, 31, 1, .wd, 0⟩
  | .SPN_PHLOCK_SLOTS => ⟨.SPN_PHLOCK, 24, 4, .wd, 7⟩
  | .SPN_PHLOCK_SLOT => ⟨.SPN_PHLOCK, 16, 4, .wd, 0⟩
  | .SPN_PHLOCK_LOCKTOL => ⟨.SPN_PHLOCK, 8, 8, .wd, 0x10⟩
  | .SPN_PHLOCK_TRIM => ⟨.SPN_PHLOCK, 0, 8, .wd, 0x32⟩
  | .SPN_PHERR_TRIM => ⟨.SPN_PHERR, 16, 16, .ro, 0⟩
  | .SPN_PHERR_ERR => ⟨.SPN_PHERR, 0, 16, .ro, 0⟩
  | .SPN_PEND_PHLOCK => ⟨.SPN_PEND, 0, 1, .ro, 0⟩
  | .SPN_PADV_ODD => ⟨.SPN_PADV, 16, 8, .rw, 0⟩
  | .SPN_PADV_EVEN => ⟨.SPN_PADV, 0, 8, .rw, 0⟩
  | .MAC_CTL_ENABLE => ⟨.MAC_CTL, 0, 1, .rw, 0⟩
  | .MAC_PEND_PEND => ⟨.MAC_PEND, 0, 24, .ro, 0⟩
  | .MAC_CHCFG_RESET => ⟨.MAC_CHCFG, 4, 1, .rw, 0⟩
  | .MAC_CHCFG_OSR => ⟨.MAC_CHCFG, 1, 3, .rw, 2⟩
  | .MAC_CHCFG_EN => ⟨.MAC_CHCFG, 0, 1, .rw, 0⟩
  | .MAC_CHSYNC_UNIT => ⟨.MAC_CHSYNC, 4, 4, .wd, 0⟩
  | .MAC_CHSYNC_EACH => ⟨.MAC_CHSYNC, 3, 1, .wd, 0⟩
  | .MAC_CHSYNC_SRC => ⟨.MAC_CHSYNC, 0, 2, .wd, 0⟩
  | .MAC_CHDATA_VALID => ⟨.MAC_CHDATA, 31, 1, .ro, 0⟩
  | .MAC_CHDATA_CLIP => ⟨.MAC_CHDATA, 30, 1, .ro, 0⟩
  | .MAC_CHDATA_COUNT => ⟨.MAC_CHDATA, 16, 8, .ro, 0⟩
  | .MAC_CHDATA_DATA => ⟨.MAC_CHDATA, 0, 16, .ro, 0⟩
  | .MAC_CHSTAT_RESETS => ⟨.MAC_CHSTAT, 16, 16, .rc, 0⟩
  | .MAC_CHSTAT_RANGE => ⟨.MAC_CHSTAT, 0, 1, .w1c, 0⟩
  | .VE_STAT_MCHK => ⟨.VE_STAT, 16, 12, .ro, 0⟩
  | .VE_STAT_BUSY => ⟨.VE_STAT, 0, 12, .ro, 0⟩
  | .VE_ECTL_CLRMCHK => ⟨.VE_ECTL, 3, 1, .rw, 0⟩
  | .VE_ECTL_RESUME => ⟨.VE_ECTL, 2, 1, .rw, 0⟩
  | .VE_ECTL_HALT => ⟨.VE_ECTL, 1, 1, .rw, 0⟩
  | .VE_ECTL_ENABLE => ⟨.VE_ECTL, 0, 1, .rw, 0⟩
  | .VE_ESTAT_MBFULL => ⟨.VE_ESTAT, 24, 1, .w1c, 0⟩
  | .VE_ESTAT_HIGN => ⟨.VE_ESTAT, 23, 1, .w1c, 0⟩
  | .VE_ESTAT_FAULTV => ⟨.VE_ESTAT, 22, 1, .w1c, 0⟩
  | .VE_ESTAT_TAIL => ⟨.VE_ESTAT, 21, 1, .w1c, 0⟩
  | .VE_ESTAT_SBFULL => ⟨.VE_ESTAT, 20, 1, .w1c, 0⟩
  | .VE_ESTAT_CSPAR => ⟨.VE_ESTAT, 19, 1, .w1c, 0⟩
  | .VE_ESTAT_ILLEGAL => ⟨.VE_ESTAT, 18, 1, .w1c, 0⟩
  | .VE_ESTAT_COMMITTED => ⟨.VE_ESTAT, 8, 1, .ro, 0⟩
  | .VE_ESTAT_CAUSE => ⟨.VE_ESTAT, 4, 4, .ro, 0⟩
  | .VE_ESTAT_STATE => ⟨.VE_ESTAT, 0, 3, .ro, 0⟩
  | .VE_EPC_MCADDR => ⟨.VE_EPC, 16, 15, .ro, 0⟩
  | .VE_EPC_PC => ⟨.VE_EPC, 0, 15, .ro, 0⟩
  | .VE_ETRIG_SBUSED => ⟨.VE_ETRIG, 24, 8, .ro, 0⟩
  | .VE_ETRIG_RESTARTS => ⟨.VE_ETRIG, 16, 8, .ro, 0⟩
  | .VE_ETRIG_PRIO => ⟨.VE_ETRIG, 8, 2, .ro, 0⟩
  | .VE_ETRIG_TYPE => ⟨.VE_ETRIG, 0, 5, .ro, 0⟩
  | .VE_ECFG_FLTRST => ⟨.VE_ECFG, 16, 4, .rw, 3⟩
  | .VE_ECFG_MAXRST => ⟨.VE_ECFG, 8, 8, .rw, 4⟩
  | .VE_ECFG_RTLIM => ⟨.VE_ECFG, 0, 8, .rw, 0x20⟩
  | .VE_ETIMER_PERIOD => ⟨.VE_ETIMER, 0, 20, .rw, 0⟩
  | .VE_EQSTAT_Q3 => ⟨.VE_EQSTAT, 24, 8, .ro, 0⟩
  | .VE_EQSTAT_Q2 => ⟨.VE_EQSTAT, 16, 8, .ro, 0⟩
  | .VE_EQSTAT_Q1 => ⟨.VE_EQSTAT, 8, 8, .ro, 0⟩
  | .VE_EQSTAT_Q0 => ⟨.VE_EQSTAT, 0, 8, .ro, 0⟩
  | .VE_ECNT_ABANDONS => ⟨.VE_ECNT, 16, 16, .rc, 0⟩
  | .VE_ECNT_ROUTINES => ⟨.VE_ECNT, 0, 16, .rc, 0⟩
  | .VE_ECNT2_COALESCED => ⟨.VE_ECNT2, 16, 16, .rc, 0⟩
  | .VE_ECNT2_FAULTS => ⟨.VE_ECNT2, 8, 8, .rc, 0⟩
  | .VE_ECNT2_MCHKS => ⟨.VE_ECNT2, 0, 8, .rc, 0⟩
  | .VE_MBOXLO_DATA => ⟨.VE_MBOXLO, 0, 32, .rw, 0⟩
  | .VE_MBOXHI_DATA => ⟨.VE_MBOXHI, 0, 16, .rw, 0⟩
  | .VE_CSCTL_OPEN => ⟨.VE_CSCTL, 0, 1, .rw, 0⟩
  | .VE_CSSTAT_BADADDR => ⟨.VE_CSSTAT, 16, 15, .ro, 0⟩
  | .VE_CSSTAT_RESREF => ⟨.VE_CSSTAT, 3, 1, .w1c, 0⟩
  | .VE_CSSTAT_RPERR => ⟨.VE_CSSTAT, 2, 1, .w1c, 0⟩
  | .VE_CSSTAT_WDROP => ⟨.VE_CSSTAT, 1, 1, .w1c, 0⟩
  | .VE_CSSTAT_OPENED => ⟨.VE_CSSTAT, 0, 1, .ro, 0⟩
  | .VE_GLO_G => ⟨.VE_GLO, 0, 32, .rw, 0⟩
  | .VE_GHI_G => ⟨.VE_GHI, 0, 16, .rw, 0⟩
  | .HIF_CTL_PAUSE => ⟨.HIF_CTL, 1, 1, .rw, 0⟩
  | .HIF_CTL_ENABLE => ⟨.HIF_CTL, 0, 1, .rw, 0⟩
  | .HIF_PORTCFG_MODE => ⟨.HIF_PORTCFG, 0, 1, .rw, 0⟩
  | .HIF_STAT_DPCONF => ⟨.HIF_STAT, 3, 1, .w1c, 0⟩
  | .HIF_STAT_ADMFULL => ⟨.HIF_STAT, 2, 1, .ro, 0⟩
  | .HIF_STAT_FULL => ⟨.HIF_STAT, 1, 1, .ro, 0⟩
  | .HIF_STAT_DUAL => ⟨.HIF_STAT, 0, 1, .ro, 0⟩
  | .HIF_INFLIGHT_COUNT => ⟨.HIF_INFLIGHT, 0, 17, .ro, 0⟩
  | .HIF_PEAK_PEAK => ⟨.HIF_PEAK, 0, 17, .rc, 0⟩
  | .HIF_FSEQ_NEXT => ⟨.HIF_FSEQ, 0, 32, .ro, 0⟩
  | .HIF_CMDBASE_BASE => ⟨.HIF_CMDBASE, 16, 9, .rw, 0⟩
  | .HIF_NSTBASE_BASE => ⟨.HIF_NSTBASE, 12, 13, .rw, 0⟩
  | .HIF_HZTLO_ADDR => ⟨.HIF_HZTLO, 12, 20, .rw, 0⟩
  | .HIF_HZTHI_ADDR => ⟨.HIF_HZTHI, 0, 8, .rw, 0⟩
  | .HIF_ADMRBASE_BASE => ⟨.HIF_ADMRBASE, 17, 8, .rw, 0⟩
  | .HIF_ADMRPTR_TAIL => ⟨.HIF_ADMRPTR, 16, 10, .ro, 0⟩
  | .HIF_ADMRPTR_HEAD => ⟨.HIF_ADMRPTR, 0, 10, .rw, 0⟩
  | .HIF_ADMDONE_INDEX => ⟨.HIF_ADMDONE, 0, 10, .rw, 0⟩
  | .HIF_DPCNT_COUNT => ⟨.HIF_DPCNT, 0, 16, .rc, 0⟩
  | .HIF_DIGCNT_DIGESTS => ⟨.HIF_DIGCNT, 0, 16, .rc, 0⟩
  | .HIF_LNKSTAT_UP => ⟨.HIF_LNKSTAT, 6, 1, .ro, 0⟩
  | .HIF_LNKSTAT_SPEED => ⟨.HIF_LNKSTAT, 3, 3, .ro, 0⟩
  | .HIF_LNKSTAT_WIDTH => ⟨.HIF_LNKSTAT, 0, 3, .ro, 0⟩
  | .HIF_NVMSTAT_CFS => ⟨.HIF_NVMSTAT, 4, 1, .ro, 0⟩
  | .HIF_NVMSTAT_SHST => ⟨.HIF_NVMSTAT, 2, 2, .ro, 0⟩
  | .HIF_NVMSTAT_RDY => ⟨.HIF_NVMSTAT, 1, 1, .ro, 0⟩
  | .HIF_NVMSTAT_EN => ⟨.HIF_NVMSTAT, 0, 1, .ro, 0⟩
  | .HIF_PERR_LINKDOWN => ⟨.HIF_PERR, 24, 8, .rc, 0⟩
  | .HIF_PERR_UNCOR => ⟨.HIF_PERR, 16, 8, .rc, 0⟩
  | .HIF_PERR_CORR => ⟨.HIF_PERR, 0, 16, .rc, 0⟩
  | .HIF_ABCNT_NOTABORTED => ⟨.HIF_ABCNT, 16, 16, .rc, 0⟩
  | .HIF_ABCNT_ABORTED => ⟨.HIF_ABCNT, 0, 16, .rc, 0⟩
  | .SCH_CTL_RESTART => ⟨.SCH_CTL, 3, 1, .rw, 0⟩
  | .SCH_CTL_NOFORCE => ⟨.SCH_CTL, 2, 1, .rw, 0⟩
  | .SCH_CTL_HOLD => ⟨.SCH_CTL, 1, 1, .rw, 0⟩
  | .SCH_CTL_ENABLE => ⟨.SCH_CTL, 0, 1, .rw, 0⟩
  | .SCH_STAT_DRAIN => ⟨.SCH_STAT, 20, 4, .ro, 0⟩
  | .SCH_STAT_FORCE => ⟨.SCH_STAT, 16, 4, .ro, 0⟩
  | .SCH_STAT_PWRWAIT => ⟨.SCH_STAT, 10, 1, .ro, 0⟩
  | .SCH_STAT_BUFWAIT => ⟨.SCH_STAT, 9, 1, .ro, 0⟩
  | .SCH_STAT_ACWAIT => ⟨.SCH_STAT, 8, 1, .ro, 0⟩
  | .SCH_STAT_STATE => ⟨.SCH_STAT, 0, 4, .ro, 0⟩
  | .SCH_RQLO_FSEQ => ⟨.SCH_RQLO, 0, 32, .rw, 0⟩
  | .SCH_RQHI_TAG => ⟨.SCH_RQHI, 8, 8, .rw, 0⟩
  | .SCH_RQHI_INTERNAL => ⟨.SCH_RQHI, 7, 1, .rw, 0⟩
  | .SCH_RQHI_GRAN => ⟨.SCH_RQHI, 0, 6, .rw, 0⟩
  | .SCH_RQRSPLO_VALID => ⟨.SCH_RQRSPLO, 31, 1, .rc, 0⟩
  | .SCH_RQRSPLO_ERR => ⟨.SCH_RQRSPLO, 30, 1, .ro, 0⟩
  | .SCH_RQRSPLO_OVER => ⟨.SCH_RQRSPLO, 29, 1, .ro, 0⟩
  | .SCH_RQRSPLO_HANDLE => ⟨.SCH_RQRSPLO, 8, 17, .ro, 0⟩
  | .SCH_RQRSPLO_TAG => ⟨.SCH_RQRSPLO, 0, 8, .ro, 0⟩
  | .SCH_RQRSPHI_BASE => ⟨.SCH_RQRSPHI, 0, 24, .snap, 0⟩
  | .SCH_AGE_INTAGE => ⟨.SCH_AGE, 24, 8, .rw, 0x1e⟩
  | .SCH_AGE_URGSTRICT => ⟨.SCH_AGE, 16, 8, .rw, 0x32⟩
  | .SCH_AGE_LIMIT => ⟨.SCH_AGE, 0, 16, .rw, 0xc8⟩
  | .SCH_CAL_STARVE => ⟨.SCH_CAL, 8, 8, .rw, 0x40⟩
  | .SCH_CAL_MINGAP => ⟨.SCH_CAL, 0, 8, .rw, 0xa⟩
  | .SCH_BUFLO_ADDR => ⟨.SCH_BUFLO, 16, 16, .rw, 0⟩
  | .SCH_BUFHI_ADDR => ⟨.SCH_BUFHI, 0, 8, .rw, 0⟩
  | .SCH_BUFCFG_SIZE => ⟨.SCH_BUFCFG, 0, 16, .rw, 0⟩
  | .SCH_BUFINT_INTMAX => ⟨.SCH_BUFINT, 16, 16, .rw, 0x100⟩
  | .SCH_BUFINT_INTRSV => ⟨.SCH_BUFINT, 0, 16, .rw, 0x40⟩
  | .SCH_BUFSTAT_WAITERS => ⟨.SCH_BUFSTAT, 16, 16, .ro, 0⟩
  | .SCH_BUFSTAT_FREE => ⟨.SCH_BUFSTAT, 0, 16, .ro, 0⟩
  | .SCH_ACORN_GFRAC => ⟨.SCH_ACORN, 16, 5, .rw, 0x10⟩
  | .SCH_ACORN_LOAD => ⟨.SCH_ACORN, 0, 16, .ro, 0⟩
  | .SCH_PWRBUD_TOKENS => ⟨.SCH_PWRBUD, 16, 8, .rw, 2⟩
  | .SCH_PWRBUD_BUDGET => ⟨.SCH_PWRBUD, 0, 16, .rw, 0⟩
  | .SCH_PWRCOST_SEEKW => ⟨.SCH_PWRCOST, 16, 16, .rw, 0x190⟩
  | .SCH_PWRCOST_FOLLOWW => ⟨.SCH_PWRCOST, 0, 16, .rw, 0x32⟩
  | .SCH_PWRSPN_SPINW => ⟨.SCH_PWRSPN, 16, 16, .rw, 0x960⟩
  | .SCH_PWRSPN_RUNW => ⟨.SCH_PWRSPN, 0, 16, .rw, 0x320⟩
  | .SCH_SPNGRANT_SPINMA => ⟨.SCH_SPNGRANT, 16, 16, .rw, 0x7d0⟩
  | .SCH_SPNGRANT_RUNMA => ⟨.SCH_SPNGRANT, 0, 16, .rw, 0x5dc⟩
  | .SCH_SPIN_TARGET => ⟨.SCH_SPIN, 0, 20, .rw, 0xafc80⟩
  | .SCH_SOLO_SPINTO => ⟨.SCH_SOLO, 16, 8, .rw, 0x3c⟩
  | .SCH_SOLO_SOLOMA => ⟨.SCH_SOLO, 0, 16, .rw, 0x5dc⟩
  | .SCH_PWRLVL_SEEKS => ⟨.SCH_PWRLVL, 16, 3, .ro, 0⟩
  | .SCH_PWRLVL_CHARGED => ⟨.SCH_PWRLVL, 0, 16, .ro, 0⟩
  | .SCH_TIMING_SETTLE => ⟨.SCH_TIMING, 16, 4, .rw, 3⟩
  | .SCH_TIMING_LEAD => ⟨.SCH_TIMING, 0, 16, .rw, 0x2000⟩
  | .SCH_DRAMSH_BACKGROUND => ⟨.SCH_DRAMSH, 24, 8, .rw, 8⟩
  | .SCH_DRAMSH_FIRMWARE => ⟨.SCH_DRAMSH, 16, 8, .rw, 0x10⟩
  | .SCH_DRAMSH_HOST => ⟨.SCH_DRAMSH, 8, 8, .rw, 0x20⟩
  | .SCH_DRAMSH_MEDIA => ⟨.SCH_DRAMSH, 0, 8, .rw, 0x40⟩
  | .SCH_SEEKT_ODD => ⟨.SCH_SEEKT, 16, 16, .rw, 0⟩
  | .SCH_SEEKT_EVEN => ⟨.SCH_SEEKT, 0, 16, .rw, 0⟩
  | .SCH_OVL_ENTRIES => ⟨.SCH_OVL, 0, 17, .ro, 0⟩
  | .SCH_CNT_PROMOTED => ⟨.SCH_CNT, 16, 16, .rc, 0⟩
  | .SCH_CNT_FORCED => ⟨.SCH_CNT, 8, 8, .rc, 0⟩
  | .SCH_CNT_CANCELLED => ⟨.SCH_CNT, 0, 8, .rc, 0⟩
  | .SCH_DLAT_MAXWAIT => ⟨.SCH_DLAT, 0, 16, .rc, 0⟩
  | .SCH_ASTAT_LASTFORCE => ⟨.SCH_ASTAT, 24, 8, .ro, 0xff⟩
  | .SCH_ASTAT_GUIDELANE => ⟨.SCH_ASTAT, 18, 6, .ro, 0⟩
  | .SCH_ASTAT_DRAIN => ⟨.SCH_ASTAT, 15, 1, .ro, 0⟩
  | .SCH_ASTAT_FORCE => ⟨.SCH_ASTAT, 14, 1, .ro, 0⟩
  | .SCH_ASTAT_GUIDE => ⟨.SCH_ASTAT, 13, 1, .ro, 0⟩
  | .SCH_ASTAT_SEEKTOK => ⟨.SCH_ASTAT, 12, 1, .ro, 0⟩
  | .SCH_ASTAT_BUSY => ⟨.SCH_ASTAT, 0, 8, .ro, 0⟩
  | .MEM_L2CTL_DISBUSY => ⟨.MEM_L2CTL, 9, 1, .ro, 0⟩
  | .MEM_L2CTL_INVALID => ⟨.MEM_L2CTL, 8, 1, .ro, 0⟩
  | .MEM_L2CTL_ENABLE => ⟨.MEM_L2CTL, 0, 1, .rw, 0⟩
  | .MEM_L2MAINT_GO => ⟨.MEM_L2MAINT, 31, 1, .rw, 0⟩
  | .MEM_L2MAINT_OP => ⟨.MEM_L2MAINT, 29, 2, .rw, 0⟩
  | .MEM_L2MAINT_ALL => ⟨.MEM_L2MAINT, 28, 1, .rw, 0⟩
  | .MEM_L2MAINT_WAY => ⟨.MEM_L2MAINT, 20, 4, .rw, 0⟩
  | .MEM_L2MAINT_SET => ⟨.MEM_L2MAINT, 0, 15, .rw, 0⟩
  | .MEM_STAT_MBUSY => ⟨.MEM_STAT, 5, 1, .w1c, 0⟩
  | .MEM_STAT_BERR => ⟨.MEM_STAT, 4, 1, .w1c, 0⟩
  | .MEM_STAT_ENREF => ⟨.MEM_STAT, 3, 1, .w1c, 0⟩
  | .MEM_STAT_CETHR => ⟨.MEM_STAT, 2, 1, .w1c, 0⟩
  | .MEM_STAT_UE => ⟨.MEM_STAT, 1, 1, .w1c, 0⟩
  | .MEM_STAT_CE => ⟨.MEM_STAT, 0, 1, .w1c, 0⟩
  | .MEM_ERRCNT_UE => ⟨.MEM_ERRCNT, 16, 16, .rc, 0⟩
  | .MEM_ERRCNT_CE => ⟨.MEM_ERRCNT, 0, 16, .rc, 0⟩
  | .MEM_LEAK_THRESH => ⟨.MEM_LEAK, 16, 8, .rw, 0x10⟩
  | .MEM_LEAK_PERIOD => ⟨.MEM_LEAK, 0, 16, .rw, 0xe10⟩
  | .MEM_BUCKET_CACHE => ⟨.MEM_BUCKET, 16, 8, .ro, 0⟩
  | .MEM_BUCKET_DRAM => ⟨.MEM_BUCKET, 0, 8, .ro, 0⟩
  | .MEM_CELOGLO_ADDR => ⟨.MEM_CELOGLO, 0, 32, .ro, 0⟩
  | .MEM_UELOGLO_ADDR => ⟨.MEM_UELOGLO, 0, 32, .ro, 0⟩
  | .MEM_CELOGHI_ARRAY => ⟨.MEM_CELOGHI, 28, 3, .snap, 0⟩
  | .MEM_CELOGHI_REQ => ⟨.MEM_CELOGHI, 16, 5, .snap, 0⟩
  | .MEM_CELOGHI_ADDR => ⟨.MEM_CELOGHI, 0, 8, .snap, 0⟩
  | .MEM_UELOGHI_ARRAY => ⟨.MEM_UELOGHI, 28, 3, .snap, 0⟩
  | .MEM_UELOGHI_REQ => ⟨.MEM_UELOGHI, 16, 5, .snap, 0⟩
  | .MEM_UELOGHI_ADDR => ⟨.MEM_UELOGHI, 0, 8, .snap, 0⟩
  | .MEM_BERRLO_ADDR => ⟨.MEM_BERRLO, 0, 32, .ro, 0⟩
  | .MEM_BERRHI_MASTER => ⟨.MEM_BERRHI, 16, 5, .snap, 0⟩
  | .MEM_BERRHI_ADDR => ⟨.MEM_BERRHI, 0, 8, .snap, 0⟩
  | .MEM_FLIPCTL_ARM => ⟨.MEM_FLIPCTL, 31, 1, .rw, 0⟩
  | .MEM_FLIPCTL_DONE => ⟨.MEM_FLIPCTL, 30, 1, .w1c, 0⟩
  | .MEM_FLIPCTL_TARGET => ⟨.MEM_FLIPCTL, 0, 3, .rw, 0⟩
  | .MEM_FLIPADDRLO_ADDR => ⟨.MEM_FLIPADDRLO, 3, 29, .rw, 0⟩
  | .MEM_FLIPADDRHI_ADDR => ⟨.MEM_FLIPADDRHI, 0, 8, .rw, 0⟩
  | .MEM_FLIPMASK_DBIT1 => ⟨.MEM_FLIPMASK, 16, 6, .rw, 0⟩
  | .MEM_FLIPMASK_DB1EN => ⟨.MEM_FLIPMASK, 15, 1, .rw, 0⟩
  | .MEM_FLIPMASK_DBIT0 => ⟨.MEM_FLIPMASK, 8, 6, .rw, 0⟩
  | .MEM_FLIPMASK_MASK => ⟨.MEM_FLIPMASK, 0, 8, .rw, 0⟩
  | .MEM_SCRUB_EN => ⟨.MEM_SCRUB, 31, 1, .rw, 1⟩
  | .MEM_SCRUB_PERIOD => ⟨.MEM_SCRUB, 0, 5, .rw, 0x18⟩
  | .MEM_SCRUBSTAT_PASSES => ⟨.MEM_SCRUBSTAT, 16, 16, .ro, 0⟩
  | .MEM_SCRUBSTAT_PROGRESS => ⟨.MEM_SCRUBSTAT, 0, 7, .ro, 0⟩
  | .MEM_DRCFG_INIT => ⟨.MEM_DRCFG, 16, 1, .rw, 0⟩
  | .MEM_DRCFG_RAW => ⟨.MEM_DRCFG, 8, 5, .rw, 0⟩
  | .MEM_DRCFG_RATE => ⟨.MEM_DRCFG, 0, 2, .rw, 0⟩
  | .MEM_DRSTAT_CAP => ⟨.MEM_DRSTAT, 8, 8, .ro, 0⟩
  | .MEM_DRSTAT_SELFREF => ⟨.MEM_DRSTAT, 2, 1, .ro, 0⟩
  | .MEM_DRSTAT_TRAINFAIL => ⟨.MEM_DRSTAT, 1, 1, .w1c, 0⟩
  | .MEM_DRSTAT_READY => ⟨.MEM_DRSTAT, 0, 1, .ro, 0⟩
  | .MEM_L1CTL_INVDONE => ⟨.MEM_L1CTL, 8, 1, .ro, 0⟩
  | .MEM_L1CTL_INV => ⟨.MEM_L1CTL, 4, 1, .rw, 0⟩
  | .MEM_L1CTL_DEN => ⟨.MEM_L1CTL, 1, 1, .rw, 0⟩
  | .MEM_L1CTL_IEN => ⟨.MEM_L1CTL, 0, 1, .rw, 0⟩
  | .MEM_RGBASE_ADDR => ⟨.MEM_RGBASE, 0, 24, .rw, 0⟩
  | .MEM_RGLIMIT_ADDR => ⟨.MEM_RGLIMIT, 0, 24, .rw, 0⟩
  | .MEM_RGATTR_L2POL => ⟨.MEM_RGATTR, 2, 2, .rw, 0⟩
  | .MEM_RGATTR_L1 => ⟨.MEM_RGATTR, 1, 1, .rw, 0⟩
  | .MEM_RGATTR_EN => ⟨.MEM_RGATTR, 0, 1, .rw, 0⟩
  | .DMA_CTL_ENABLE => ⟨.DMA_CTL, 0, 1, .rw, 0⟩
  | .DMA_STAT_BERR => ⟨.DMA_STAT, 31, 1, .w1c, 0⟩
  | .DMA_STAT_HALTED => ⟨.DMA_STAT, 30, 1, .ro, 0⟩
  | .DMA_STAT_CHAN => ⟨.DMA_STAT, 24, 6, .ro, 0⟩
  | .DMA_STAT_STGUSE => ⟨.DMA_STAT, 0, 12, .ro, 0⟩
  | .DMA_CFG_MAXSTG => ⟨.DMA_CFG, 0, 9, .rw, 0x40⟩
  | .DMA_IRQ0_PEND => ⟨.DMA_IRQ0, 0, 32, .ro, 0⟩
  | .DMA_IRQ1_PEND => ⟨.DMA_IRQ1, 0, 32, .ro, 0⟩
  | .DMA_BERRLO_ADDR => ⟨.DMA_BERRLO, 0, 32, .ro, 0⟩
  | .DMA_BERRHI_SIDE => ⟨.DMA_BERRHI, 8, 1, .snap, 0⟩
  | .DMA_BERRHI_ADDR => ⟨.DMA_BERRHI, 0, 8, .snap, 0⟩
  | .DMA_CCTL_RESUME => ⟨.DMA_CCTL, 2, 1, .rw, 0⟩
  | .DMA_CCTL_STOP => ⟨.DMA_CCTL, 1, 1, .rw, 0⟩
  | .DMA_CCTL_START => ⟨.DMA_CCTL, 0, 1, .rw, 0⟩
  | .DMA_CCFG_IEERR => ⟨.DMA_CCFG, 31, 1, .rw, 0⟩
  | .DMA_CCFG_IEFULL => ⟨.DMA_CCFG, 30, 1, .rw, 0⟩
  | .DMA_CCFG_IEHALF => ⟨.DMA_CCFG, 29, 1, .rw, 0⟩
  | .DMA_CCFG_IEDONE => ⟨.DMA_CCFG, 28, 1, .rw, 0⟩
  | .DMA_CCFG_BLK => ⟨.DMA_CCFG, 16, 10, .rw, 1⟩
  | .DMA_CCFG_PSEL => ⟨.DMA_CCFG, 8, 5, .rw, 0⟩
  | .DMA_CCFG_PACE => ⟨.DMA_CCFG, 4, 2, .rw, 0⟩
  | .DMA_CCFG_PRIO => ⟨.DMA_CCFG, 2, 2, .rw, 0⟩
  | .DMA_CCFG_MODE => ⟨.DMA_CCFG, 0, 2, .rw, 0⟩
  | .DMA_CDESCLO_ADDR => ⟨.DMA_CDESCLO, 5, 27, .rw, 0⟩
  | .DMA_CDESCHI_ADDR => ⟨.DMA_CDESCHI, 0, 8, .rw, 0⟩
  | .DMA_CCURLO_ADDR => ⟨.DMA_CCURLO, 0, 32, .ro, 0⟩
  | .DMA_CCURHI_ADDR => ⟨.DMA_CCURHI, 0, 8, .snap, 0⟩
  | .DMA_CREMAIN_BYTES => ⟨.DMA_CREMAIN, 0, 24, .snap, 0⟩
  | .DMA_CSTAT_STOPPED => ⟨.DMA_CSTAT, 16, 1, .w1c, 0⟩
  | .DMA_CSTAT_DESCERR => ⟨.DMA_CSTAT, 15, 1, .w1c, 0⟩
  | .DMA_CSTAT_CFGIGN => ⟨.DMA_CSTAT, 14, 1, .w1c, 0⟩
  | .DMA_CSTAT_PACEOVR => ⟨.DMA_CSTAT, 13, 1, .w1c, 0⟩
  | .DMA_CSTAT_OVERRUN => ⟨.DMA_CSTAT, 12, 1, .w1c, 0⟩
  | .DMA_CSTAT_ERR => ⟨.DMA_CSTAT, 11, 1, .w1c, 0⟩
  | .DMA_CSTAT_FULL => ⟨.DMA_CSTAT, 10, 1, .w1c, 0⟩
  | .DMA_CSTAT_HALF => ⟨.DMA_CSTAT, 9, 1, .w1c, 0⟩
  | .DMA_CSTAT_DONE => ⟨.DMA_CSTAT, 8, 1, .w1c, 0⟩
  | .DMA_CSTAT_STATE => ⟨.DMA_CSTAT, 0, 3, .ro, 0⟩
  | .CHK_CTL_ENABLE => ⟨.CHK_CTL, 0, 1, .rw, 0⟩
  | .CHK_STAT_CLAIMREF => ⟨.CHK_STAT, 3, 1, .w1c, 0⟩
  | .CHK_STAT_SWERR => ⟨.CHK_STAT, 2, 1, .w1c, 0⟩
  | .CHK_STAT_ROLE => ⟨.CHK_STAT, 1, 1, .w1c, 0⟩
  | .CHK_STAT_FAIL => ⟨.CHK_STAT, 0, 1, .w1c, 0⟩
  | .CHK_CNT_FAIL => ⟨.CHK_CNT, 16, 16, .rc, 0⟩
  | .CHK_CNT_GEN1 => ⟨.CHK_CNT, 0, 16, .rc, 0⟩
  | .CHK_STBASE_BASE => ⟨.CHK_STBASE, 16, 9, .rw, 0⟩
  | .CHK_FAILLO_PSA => ⟨.CHK_FAILLO, 0, 32, .ro, 0⟩
  | .CHK_FAILHI_PSA => ⟨.CHK_FAILHI, 0, 16, .snap, 0⟩
  | .CHK_SWOWN_CLAIM => ⟨.CHK_SWOWN, 31, 1, .rw, 0⟩
  | .CHK_SWOWN_OWNED => ⟨.CHK_SWOWN, 8, 1, .ro, 0⟩
  | .CHK_SWOWN_OWNER => ⟨.CHK_SWOWN, 0, 5, .ro, 0⟩
  | .CHK_SWCTL_GO => ⟨.CHK_SWCTL, 31, 1, .rw, 0⟩
  | .CHK_SWCTL_ALG => ⟨.CHK_SWCTL, 0, 2, .rw, 0⟩
  | .CHK_SWSTAT_BUSY => ⟨.CHK_SWSTAT, 31, 1, .ro, 0⟩
  | .CHK_SWSTAT_DONE => ⟨.CHK_SWSTAT, 30, 1, .w1c, 0⟩
  | .CHK_SWSTAT_ERR => ⟨.CHK_SWSTAT, 29, 1, .w1c, 0⟩
  | .CHK_SWSRCLO_SRC => ⟨.CHK_SWSRCLO, 0, 32, .rw, 0⟩
  | .CHK_SWSRCHI_SRC => ⟨.CHK_SWSRCHI, 0, 8, .rw, 0⟩
  | .CHK_SWLEN_LEN => ⟨.CHK_SWLEN, 0, 24, .rw, 0⟩
  | .CHK_SWSEEDLO_SEED => ⟨.CHK_SWSEEDLO, 0, 32, .rw, 0⟩
  | .CHK_SWSEEDHI_FOLD => ⟨.CHK_SWSEEDHI, 16, 8, .rw, 0⟩
  | .CHK_SWSEEDHI_SEED => ⟨.CHK_SWSEEDHI, 0, 16, .rw, 0⟩
  | .CHK_SWRESLO_RES => ⟨.CHK_SWRESLO, 0, 32, .ro, 0⟩
  | .CHK_SWRESHI_RES => ⟨.CHK_SWRESHI, 0, 32, .snap, 0⟩
  | .CMP_CTL_ENABLE => ⟨.CMP_CTL, 0, 1, .rw, 0⟩
  | .CMP_STAT_QUEUED => ⟨.CMP_STAT, 8, 8, .ro, 0⟩
  | .CMP_STAT_RUNNING => ⟨.CMP_STAT, 5, 3, .ro, 0⟩
  | .CMP_STAT_MEMERR => ⟨.CMP_STAT, 1, 1, .w1c, 0⟩
  | .CMP_STAT_QFULL => ⟨.CMP_STAT, 0, 1, .w1c, 0⟩
  | .CMP_SUBLO_ADDR => ⟨.CMP_SUBLO, 5, 27, .rw, 0⟩
  | .CMP_SUBHI_ADDR => ⟨.CMP_SUBHI, 0, 8, .rw, 0⟩
  | .CMP_DIRLO_ADDR => ⟨.CMP_DIRLO, 14, 18, .rw, 0⟩
  | .CMP_DIRHI_ADDR => ⟨.CMP_DIRHI, 0, 8, .rw, 0⟩
  | .CMP_MAPLO_ADDR => ⟨.CMP_MAPLO, 14, 18, .rw, 0⟩
  | .CMP_MAPHI_ADDR => ⟨.CMP_MAPHI, 0, 8, .rw, 0⟩
  | .CMP_DIRCNT_COUNT => ⟨.CMP_DIRCNT, 0, 24, .rw, 0⟩
  | .CMP_SLOTS_COUNT => ⟨.CMP_SLOTS, 0, 17, .rw, 0⟩
  | .CMP_CNT_RAW => ⟨.CMP_CNT, 16, 16, .rc, 0⟩
  | .CMP_CNT_JOBS => ⟨.CMP_CNT, 0, 16, .rc, 0⟩
  | .CMP_FAILCNT_OUTFULL => ⟨.CMP_FAILCNT, 24, 8, .rc, 0⟩
  | .CMP_FAILCNT_FORMAT => ⟨.CMP_FAILCNT, 16, 8, .rc, 0⟩
  | .CMP_FAILCNT_LENGTH => ⟨.CMP_FAILCNT, 8, 8, .rc, 0⟩
  | .CMP_FAILCNT_HEADER => ⟨.CMP_FAILCNT, 0, 8, .rc, 0⟩
  | .CMP_DONE_DONE => ⟨.CMP_DONE, 0, 1, .w1c, 0⟩
  | .HLT_CTL_NOWAKE => ⟨.HLT_CTL, 3, 1, .rw, 0⟩
  | .HLT_CTL_WEEVIL => ⟨.HLT_CTL, 2, 1, .rw, 0⟩
  | .HLT_CTL_AVS => ⟨.HLT_CTL, 1, 1, .rw, 0⟩
  | .HLT_CTL_ENABLE => ⟨.HLT_CTL, 0, 1, .rw, 0⟩
  | .HLT_STAT_AVSFAIL => ⟨.HLT_STAT, 7, 1, .w1c, 0⟩
  | .HLT_STAT_HLTSTALL => ⟨.HLT_STAT, 6, 1, .w1c, 0⟩
  | .HLT_STAT_WSFULL => ⟨.HLT_STAT, 5, 1, .w1c, 0⟩
  | .HLT_STAT_SILICON => ⟨.HLT_STAT, 4, 1, .w1c, 0⟩
  | .HLT_STAT_JWAIT => ⟨.HLT_STAT, 3, 1, .ro, 0⟩
  | .HLT_STAT_SAVED => ⟨.HLT_STAT, 2, 1, .ro, 0⟩
  | .HLT_STAT_SAVING => ⟨.HLT_STAT, 1, 1, .ro, 0⟩
  | .HLT_STAT_READY => ⟨.HLT_STAT, 0, 1, .ro, 0⟩
  | .HLT_POH_HOURS => ⟨.HLT_POH, 0, 24, .rw, 0⟩
  | .HLT_LEDGERLO_ADDR => ⟨.HLT_LEDGERLO, 20, 12, .rw, 0⟩
  | .HLT_LEDGERHI_NSURF => ⟨.HLT_LEDGERHI, 16, 5, .rw, 0⟩
  | .HLT_LEDGERHI_ADDR => ⟨.HLT_LEDGERHI, 0, 8, .rw, 0⟩
  | .HLT_WSBASE_BASE => ⟨.HLT_WSBASE, 16, 9, .rw, 0⟩
  | .HLT_WSCFG_FLUSH => ⟨.HLT_WSCFG, 24, 8, .rw, 0x3c⟩
  | .HLT_WSCFG_COUNT => ⟨.HLT_WSCFG, 0, 17, .rw, 0x2000⟩
  | .HLT_MIRROR_ZONE => ⟨.HLT_MIRROR, 16, 10, .rw, 0⟩
  | .HLT_MIRROR_JSECT => ⟨.HLT_MIRROR, 0, 16, .rw, 0x40⟩
  | .HLT_JRNL_CKPT => ⟨.HLT_JRNL, 24, 8, .rw, 0x3c⟩
  | .HLT_JRNL_MAXOPEN => ⟨.HLT_JRNL, 16, 8, .rw, 0x40⟩
  | .HLT_JRNL_MAXADV => ⟨.HLT_JRNL, 12, 4, .rw, 4⟩
  | .HLT_JRNL_TMO => ⟨.HLT_JRNL, 8, 4, .rw, 5⟩
  | .HLT_JRNL_SPAN => ⟨.HLT_JRNL, 0, 8, .rw, 0x40⟩
  | .HLT_RWLO_SURF => ⟨.HLT_RWLO, 26, 6, .rw, 0⟩
  | .HLT_RWLO_RESET => ⟨.HLT_RWLO, 20, 1, .rw, 0⟩
  | .HLT_RWLO_TRACK => ⟨.HLT_RWLO, 0, 20, .rw, 0⟩
  | .HLT_RWHI_TAG => ⟨.HLT_RWHI, 0, 8, .rw, 0⟩
  | .HLT_RWRSPLO_VALID => ⟨.HLT_RWRSPLO, 31, 1, .rc, 0⟩
  | .HLT_RWRSPLO_ERR => ⟨.HLT_RWRSPLO, 30, 1, .ro, 0⟩
  | .HLT_RWRSPLO_OVER => ⟨.HLT_RWRSPLO, 29, 1, .ro, 0⟩
  | .HLT_RWRSPLO_TAG => ⟨.HLT_RWRSPLO, 0, 8, .ro, 0⟩
  | .HLT_RWRSPHI_WORD0 => ⟨.HLT_RWRSPHI, 0, 32, .snap, 0⟩
  | .HLT_WQBASE_BASE => ⟨.HLT_WQBASE, 14, 11, .rw, 0⟩
  | .HLT_WQPTR_TAIL => ⟨.HLT_WQPTR, 16, 10, .ro, 0⟩
  | .HLT_WQPTR_HEAD => ⟨.HLT_WQPTR, 0, 10, .rw, 0⟩
  | .HLT_WQACK_RESULT => ⟨.HLT_WQACK, 28, 4, .rw, 0⟩
  | .HLT_WQACK_SEQ => ⟨.HLT_WQACK, 0, 16, .rw, 0⟩
  | .HLT_MCOEF_BASE => ⟨.HLT_MCOEF, 24, 8, .rw, 0xf0⟩
  | .HLT_MCOEF_KI => ⟨.HLT_MCOEF, 20, 4, .rw, 8⟩
  | .HLT_MCOEF_CSH => ⟨.HLT_MCOEF, 16, 4, .rw, 6⟩
  | .HLT_MCOEF_ESH => ⟨.HLT_MCOEF, 12, 4, .rw, 6⟩
  | .HLT_MCOEF_W => ⟨.HLT_MCOEF, 8, 4, .rw, 4⟩
  | .HLT_MCOEF_LSH => ⟨.HLT_MCOEF, 4, 4, .rw, 5⟩
  | .HLT_MLIM_PATROL => ⟨.HLT_MLIM, 24, 8, .rw, 0x90⟩
  | .HLT_MLIM_REFRESH => ⟨.HLT_MLIM, 16, 8, .rw, 0x60⟩
  | .HLT_MLIM_FLOOR => ⟨.HLT_MLIM, 8, 8, .rw, 0x40⟩
  | .HLT_MLIM_TRIMLOW => ⟨.HLT_MLIM, 0, 8, .rw, 0x80⟩
  | .HLT_INTF_LIMIT => ⟨.HLT_INTF, 16, 16, .rw, 0x4000⟩
  | .HLT_INTF_W1 => ⟨.HLT_INTF, 10, 6, .rw, 0x10⟩
  | .HLT_INTF_W2 => ⟨.HLT_INTF, 5, 5, .rw, 4⟩
  | .HLT_INTF_W3 => ⟨.HLT_INTF, 0, 5, .rw, 1⟩
  | .HLT_WEEVIL_PERIOD => ⟨.HLT_WEEVIL, 22, 10, .rw, 0xb4⟩
  | .HLT_WEEVIL_GRACE => ⟨.HLT_WEEVIL, 16, 6, .rw, 0xe⟩
  | .HLT_WEEVIL_MINGAP => ⟨.HLT_WEEVIL, 8, 8, .rw, 7⟩
  | .HLT_WEEVIL_INFLIGHT => ⟨.HLT_WEEVIL, 4, 4, .rw, 4⟩
  | .HLT_TRIM_WCMAG => ⟨.HLT_TRIM, 24, 8, .rw, 0x50⟩
  | .HLT_TRIM_MAX => ⟨.HLT_TRIM, 16, 8, .rw, 0x28⟩
  | .HLT_TRIM_STEP => ⟨.HLT_TRIM, 8, 8, .rw, 2⟩
  | .HLT_CAL_PERIOD => ⟨.HLT_CAL, 20, 12, .rw, 0x2d0⟩
  | .HLT_CAL_REVS => ⟨.HLT_CAL, 16, 4, .rw, 2⟩
  | .HLT_CAL_DTEMP => ⟨.HLT_CAL, 8, 8, .rw, 0xa⟩
  | .HLT_CAL_DROP => ⟨.HLT_CAL, 0, 8, .rw, 0x18⟩
  | .HLT_AVS_GUARD => ⟨.HLT_AVS, 24, 8, .rw, 0x1e⟩
  | .HLT_AVS_HYST => ⟨.HLT_AVS, 16, 8, .rw, 0xa⟩
  | .HLT_AVS_VMAX => ⟨.HLT_AVS, 8, 8, .rw, 0x14⟩
  | .HLT_AVS_VMIN => ⟨.HLT_AVS, 0, 8, .rw, 0⟩
  | .HLT_AVSSTAT_VCODE => ⟨.HLT_AVSSTAT, 24, 8, .rw, 0xa⟩
  | .HLT_AVSSTAT_MCCLK => ⟨.HLT_AVSSTAT, 16, 8, .ro, 0x10⟩
  | .HLT_AVSSTAT_WSLACK => ⟨.HLT_AVSSTAT, 0, 16, .ro, 0⟩
  | .HLT_PLAN_HORIZON => ⟨.HLT_PLAN, 16, 16, .rw, 0x2238⟩
  | .HLT_PLAN_SPARETH => ⟨.HLT_PLAN, 8, 8, .rw, 0xa⟩
  | .HLT_PROJ_HOURS => ⟨.HLT_PROJ, 0, 32, .ro, 0xffffffff⟩
  | .HLT_REPL_REPLACE => ⟨.HLT_REPL, 31, 1, .ro, 0⟩
  | .HLT_REPL_SOURCE => ⟨.HLT_REPL, 30, 1, .ro, 0⟩
  | .HLT_REPL_AVAIL => ⟨.HLT_REPL, 16, 8, .ro, 0x64⟩
  | .HLT_REPL_PCTUSED => ⟨.HLT_REPL, 8, 8, .ro, 0⟩
  | .HLT_REPL_TRIG => ⟨.HLT_REPL, 0, 4, .ro, 0⟩
  | .HLT_TEMP_MAX => ⟨.HLT_TEMP, 24, 8, .ro, 0⟩
  | .HLT_TEMP_MIN => ⟨.HLT_TEMP, 16, 8, .ro, 0⟩
  | .HLT_CNT_PATROLS => ⟨.HLT_CNT, 16, 16, .rc, 0⟩
  | .HLT_CNT_REFRESH => ⟨.HLT_CNT, 8, 8, .rc, 0⟩
  | .HLT_CNT_CKPT => ⟨.HLT_CNT, 0, 8, .rc, 0⟩
  | .FLT_CTL_LOCK => ⟨.FLT_CTL, 2, 1, .rw, 0⟩
  | .FLT_CTL_RELEASE => ⟨.FLT_CTL, 1, 1, .rw, 0⟩
  | .FLT_STAT_SAFE => ⟨.FLT_STAT, 31, 1, .ro, 0⟩
  | .FLT_STAT_SAFEACT => ⟨.FLT_STAT, 30, 1, .ro, 0⟩
  | .FLT_STAT_HOLD => ⟨.FLT_STAT, 29, 1, .ro, 0⟩
  | .FLT_STAT_CRKRUN => ⟨.FLT_STAT, 28, 1, .ro, 0⟩
  | .FLT_STAT_RELREF => ⟨.FLT_STAT, 27, 1, .w1c, 0⟩
  | .FLT_STAT_LOCKREF => ⟨.FLT_STAT, 26, 1, .w1c, 0⟩
  | .FLT_STAT_ANYPEND => ⟨.FLT_STAT, 19, 1, .ro, 0⟩
  | .FLT_STAT_TOPSEV => ⟨.FLT_STAT, 16, 3, .ro, 0⟩
  | .FLT_CFG_CRKSEV => ⟨.FLT_CFG, 24, 3, .rw, 3⟩
  | .FLT_CFG_RECTMO => ⟨.FLT_CFG, 16, 8, .rw, 0x64⟩
  | .FLT_CFG_RLREFILL => ⟨.FLT_CFG, 0, 16, .rw, 0x3e8⟩
  | .FLT_PEND0_PEND => ⟨.FLT_PEND0, 0, 32, .w1c, 0⟩
  | .FLT_PEND1_PEND => ⟨.FLT_PEND1, 0, 32, .w1c, 0⟩
  | .FLT_FORCE0_FORCE => ⟨.FLT_FORCE0, 0, 32, .rw, 0⟩
  | .FLT_FORCE1_FORCE => ⟨.FLT_FORCE1, 0, 32, .rw, 0⟩
  | .FLT_LAST_INST => ⟨.FLT_LAST, 24, 8, .ro, 0⟩
  | .FLT_LAST_SOURCE => ⟨.FLT_LAST, 16, 6, .ro, 0⟩
  | .FLT_LAST_SEV => ⟨.FLT_LAST, 12, 3, .ro, 0⟩
  | .FLT_LAST_ESC => ⟨.FLT_LAST, 11, 1, .ro, 0⟩
  | .FLT_LAST_FORCED => ⟨.FLT_LAST, 10, 1, .ro, 0⟩
  | .FLT_RAISES_COUNT => ⟨.FLT_RAISES, 0, 16, .rc, 0⟩
  | .FLT_TEMP_CRIT => ⟨.FLT_TEMP, 8, 8, .rw, 0x6e⟩
  | .FLT_TEMP_HOT => ⟨.FLT_TEMP, 0, 8, .rw, 0x69⟩
  | .FLT_WDCTL_EN => ⟨.FLT_WDCTL, 31, 1, .rw, 0⟩
  | .FLT_WDCTL_ACT => ⟨.FLT_WDCTL, 8, 1, .rw, 0⟩
  | .FLT_WDCTL_PERIOD => ⟨.FLT_WDCTL, 0, 7, .rw, 0x64⟩
  | .FLT_WDKICK_KEY => ⟨.FLT_WDKICK, 0, 8, .rw, 0⟩
  | .FLT_WDSTAT_EXPIRIES => ⟨.FLT_WDSTAT, 24, 8, .rc, 0⟩
  | .FLT_WDSTAT_WRONG => ⟨.FLT_WDSTAT, 9, 1, .w1c, 0⟩
  | .FLT_WDSTAT_EXPIRED => ⟨.FLT_WDSTAT, 8, 1, .w1c, 0⟩
  | .FLT_WDSTAT_REMAIN => ⟨.FLT_WDSTAT, 0, 7, .ro, 0⟩
  | .FLT_SRCCFG_BURST => ⟨.FLT_SRCCFG, 12, 4, .rw, 4⟩
  | .FLT_SRCCFG_NOESC => ⟨.FLT_SRCCFG, 8, 1, .rw, 0⟩
  | .FLT_SRCCFG_SEV => ⟨.FLT_SRCCFG, 0, 3, .rw, 0⟩
  | .FLT_SRCSTAT_COUNT => ⟨.FLT_SRCSTAT, 16, 16, .rc, 0⟩
  | .FLT_SRCSTAT_INST => ⟨.FLT_SRCSTAT, 8, 8, .ro, 0⟩
  | .FLT_SRCSTAT_PEND => ⟨.FLT_SRCSTAT, 7, 1, .ro, 0⟩
  | .FLT_SRCSTAT_ESC => ⟨.FLT_SRCSTAT, 6, 1, .ro, 0⟩
  | .FLT_SRCSTAT_EFFSEV => ⟨.FLT_SRCSTAT, 3, 3, .ro, 0⟩
  | .EVT_CTL_FLUSH => ⟨.EVT_CTL, 2, 1, .rw, 0⟩
  | .EVT_CTL_NORLOG => ⟨.EVT_CTL, 1, 1, .rw, 0⟩
  | .EVT_STAT_LOST => ⟨.EVT_STAT, 31, 1, .w1c, 0⟩
  | .EVT_STAT_BADCODE => ⟨.EVT_STAT, 30, 1, .w1c, 0⟩
  | .EVT_STAT_NORERR => ⟨.EVT_STAT, 29, 1, .w1c, 0⟩
  | .EVT_STAT_SAVED => ⟨.EVT_STAT, 28, 1, .ro, 0⟩
  | .EVT_STAT_PFFLUSH => ⟨.EVT_STAT, 27, 1, .ro, 0⟩
  | .EVT_STAT_UNFL => ⟨.EVT_STAT, 0, 11, .ro, 0⟩
  | .EVT_CFG_FLUSHSEV => ⟨.EVT_CFG, 24, 3, .rw, 2⟩
  | .EVT_CFG_PAGETMO => ⟨.EVT_CFG, 8, 8, .rw, 0xa⟩
  | .EVT_SEQ_NEXT => ⟨.EVT_SEQ, 0, 32, .rw, 0⟩
  | .EVT_CNT_SUPPRESSED => ⟨.EVT_CNT, 16, 16, .rc, 0⟩
  | .EVT_CNT_LOST => ⟨.EVT_CNT, 0, 16, .rc, 0⟩
  | .EVT_NEWEST_VALID => ⟨.EVT_NEWEST, 16, 11, .ro, 0⟩
  | .EVT_NEWEST_INDEX => ⟨.EVT_NEWEST, 0, 10, .ro, 0⟩
  | .EVT_NORBASE_VALUE => ⟨.EVT_NORBASE, 12, 20, .rw, 0⟩
  | .EVT_NORSIZE_VALUE => ⟨.EVT_NORSIZE, 12, 20, .rw, 0⟩
  | .EVT_NORWP_OFFSET => ⟨.EVT_NORWP, 0, 32, .rw, 0⟩
  | .EVT_NORERASED_BYTES => ⟨.EVT_NORERASED, 0, 32, .ro, 0⟩
  | .EVT_RLDEF_BURST => ⟨.EVT_RLDEF, 16, 6, .rw, 0x10⟩
  | .EVT_RLDEF_REFILL => ⟨.EVT_RLDEF, 0, 16, .rw, 0x3e8⟩
  | .EVT_SWDATA0_DATA => ⟨.EVT_SWDATA0, 0, 32, .rw, 0⟩
  | .EVT_SWDATA1_DATA => ⟨.EVT_SWDATA1, 0, 32, .rw, 0⟩
  | .EVT_SWDATA2_DATA => ⟨.EVT_SWDATA2, 0, 32, .rw, 0⟩
  | .EVT_SWCODE_INST => ⟨.EVT_SWCODE, 24, 8, .rw, 0⟩
  | .EVT_SWCODE_CODE => ⟨.EVT_SWCODE, 0, 16, .rw, 0⟩
  | .EVT_RLMATCH_MASK => ⟨.EVT_RLMATCH, 16, 16, .rw, 0⟩
  | .EVT_RLMATCH_CODE => ⟨.EVT_RLMATCH, 0, 16, .rw, 0⟩
  | .EVT_RLLIM_EN => ⟨.EVT_RLLIM, 31, 1, .rw, 0⟩
  | .EVT_RLLIM_TOKENS => ⟨.EVT_RLLIM, 24, 6, .ro, 0⟩
  | .EVT_RLLIM_BURST => ⟨.EVT_RLLIM, 16, 6, .rw, 0⟩
  | .EVT_RLLIM_REFILL => ⟨.EVT_RLLIM, 0, 16, .rw, 0x3e8⟩
  | .CFG_STAT_RESTERR => ⟨.CFG_STAT, 15, 1, .w1c, 0⟩
  | .CFG_STAT_RESTORED => ⟨.CFG_STAT, 14, 1, .ro, 0⟩
  | .CFG_STAT_TRIAL => ⟨.CFG_STAT, 13, 1, .ro, 0⟩
  | .CFG_STAT_SRVERR => ⟨.CFG_STAT, 12, 1, .w1c, 0⟩
  | .CFG_STAT_NSERR => ⟨.CFG_STAT, 11, 1, .w1c, 0⟩
  | .CFG_STAT_LAYERR => ⟨.CFG_STAT, 10, 1, .w1c, 0⟩
  | .CFG_STAT_ZONEERR => ⟨.CFG_STAT, 9, 1, .w1c, 0⟩
  | .CFG_STAT_MAPFIX => ⟨.CFG_STAT, 8, 1, .w1c, 0⟩
  | .CFG_STAT_STATE => ⟨.CFG_STAT, 0, 3, .ro, 0⟩
  | .CFG_SLOT_SVN => ⟨.CFG_SLOT, 24, 8, .ro, 0⟩
  | .CFG_SLOT_ATTEMPTS => ⟨.CFG_SLOT, 8, 8, .ro, 0⟩
  | .CFG_SLOT_ACTIVE => ⟨.CFG_SLOT, 2, 2, .ro, 0⟩
  | .CFG_SLOT_BOOTED => ⟨.CFG_SLOT, 0, 2, .ro, 0⟩
  | .CFG_ERR_SLOT => ⟨.CFG_ERR, 16, 2, .ro, 0⟩
  | .CFG_ERR_SECTION => ⟨.CFG_ERR, 8, 8, .ro, 0⟩
  | .CFG_ERR_CAUSE => ⟨.CFG_ERR, 0, 5, .ro, 0⟩
  | .CFG_LOADTIME_US => ⟨.CFG_LOADTIME, 0, 32, .ro, 0⟩
  | .CFG_RESTORE_DONE => ⟨.CFG_RESTORE, 0, 1, .rw, 0⟩
  | .CFG_FUSE_MINSVN => ⟨.CFG_FUSE, 8, 8, .ro, 0⟩
  | .CFG_FUSE_REVOKE0 => ⟨.CFG_FUSE, 0, 1, .ro, 0⟩
  | .CFG_NORINFO_DENSITY => ⟨.CFG_NORINFO, 24, 2, .ro, 0⟩
  | .CFG_NORINFO_DIV => ⟨.CFG_NORINFO, 8, 6, .ro, 0x32⟩
  | .CFG_NORINFO_SUSP => ⟨.CFG_NORINFO, 1, 1, .ro, 0⟩
  | .CFG_NORINFO_QUAD => ⟨.CFG_NORINFO, 0, 1, .ro, 0⟩
  | .CFG_NORCMD_GO => ⟨.CFG_NORCMD, 31, 1, .rw, 0⟩
  | .CFG_NORCMD_OP => ⟨.CFG_NORCMD, 28, 3, .rw, 0⟩
  | .CFG_NORCMD_LEN => ⟨.CFG_NORCMD, 0, 24, .rw, 0⟩
  | .CFG_NORADDR_ADDR => ⟨.CFG_NORADDR, 0, 32, .rw, 0⟩
  | .CFG_NORBUFLO_ADDR => ⟨.CFG_NORBUFLO, 0, 32, .rw, 0⟩
  | .CFG_NORBUFHI_ADDR => ⟨.CFG_NORBUFHI, 0, 8, .rw, 0⟩
  | .CFG_NORSTAT_DONE => ⟨.CFG_NORSTAT, 31, 1, .w1c, 0⟩
  | .CFG_NORSTAT_ERR => ⟨.CFG_NORSTAT, 30, 1, .w1c, 0⟩
  | .CFG_NORSTAT_PROT => ⟨.CFG_NORSTAT, 29, 1, .w1c, 0⟩
  | .CFG_NORSTAT_BUSY => ⟨.CFG_NORSTAT, 28, 1, .ro, 0⟩
  | .CFG_NORSTAT_SUSPENDED => ⟨.CFG_NORSTAT, 27, 1, .ro, 0⟩
  | .SVC_CFG_FUSE => ⟨.SVC_CFG, 2, 1, .rw, 0⟩
  | .SVC_CFG_MODE => ⟨.SVC_CFG, 0, 2, .rw, 2⟩
  | .SVC_STAT_LASTERR => ⟨.SVC_STAT, 12, 4, .ro, 0⟩
  | .SVC_STAT_HS => ⟨.SVC_STAT, 8, 1, .ro, 0⟩
  | .SVC_STAT_STATE => ⟨.SVC_STAT, 0, 3, .ro, 0⟩
  | .SVC_USBID_PID => ⟨.SVC_USBID, 16, 16, .rw, 0⟩
  | .SVC_USBID_VID => ⟨.SVC_USBID, 0, 16, .rw, 0⟩
  | .SVC_MADDRLO_ADDR => ⟨.SVC_MADDRLO, 0, 32, .rw, 0⟩
  | .SVC_MADDRHI_ADDR => ⟨.SVC_MADDRHI, 0, 8, .rw, 0⟩
  | .SVC_CNT_RESETS => ⟨.SVC_CNT, 24, 8, .rc, 0⟩
  | .SVC_CNT_ABANDON => ⟨.SVC_CNT, 16, 8, .rc, 0⟩
  | .SVC_CNT_STALLS => ⟨.SVC_CNT, 8, 8, .rc, 0⟩
  | .SVC_CNT_COMMITS => ⟨.SVC_CNT, 0, 8, .rc, 0⟩
  | .RCK_CTL_RESTART => ⟨.RCK_CTL, 2, 1, .rw, 0⟩
  | .RCK_CTL_MANREC => ⟨.RCK_CTL, 1, 1, .rw, 0⟩
  | .RCK_CTL_ENABLE => ⟨.RCK_CTL, 0, 1, .rw, 0⟩
  | .RCK_CFG_NODE => ⟨.RCK_CFG, 0, 9, .rw, 0⟩
  | .RCK_STAT_DUPID => ⟨.RCK_STAT, 9, 1, .w1c, 0⟩
  | .RCK_STAT_ALERTIN => ⟨.RCK_STAT, 8, 1, .w1c, 0⟩
  | .RCK_STAT_ALERTOUT => ⟨.RCK_STAT, 7, 1, .ro, 0⟩
  | .RCK_STAT_MASTER => ⟨.RCK_STAT, 6, 1, .ro, 0⟩
  | .RCK_STAT_STEWARD => ⟨.RCK_STAT, 5, 1, .ro, 0⟩
  | .RCK_STAT_BUSOFF => ⟨.RCK_STAT, 4, 1, .ro, 0⟩
  | .RCK_STAT_PASSIVE => ⟨.RCK_STAT, 3, 1, .ro, 0⟩
  | .RCK_STAT_SOLO => ⟨.RCK_STAT, 2, 1, .ro, 0⟩
  | .RCK_STAT_HOLDING => ⟨.RCK_STAT, 1, 1, .ro, 0⟩
  | .RCK_STAT_WAITING => ⟨.RCK_STAT, 0, 1, .ro, 0⟩
  | .RCK_ERR_BUSOFFS => ⟨.RCK_ERR, 24, 8, .rc, 0⟩
  | .RCK_ERR_REC => ⟨.RCK_ERR, 8, 8, .ro, 0⟩
  | .RCK_ERR_TEC => ⟨.RCK_ERR, 0, 8, .ro, 0⟩
  | .RCK_BITTIME_TDCO => ⟨.RCK_BITTIME, 22, 4, .rw, 6⟩
  | .RCK_BITTIME_DSJW => ⟨.RCK_BITTIME, 20, 2, .rw, 2⟩
  | .RCK_BITTIME_DSP => ⟨.RCK_BITTIME, 16, 4, .rw, 6⟩
  | .RCK_BITTIME_ASJW => ⟨.RCK_BITTIME, 12, 4, .rw, 8⟩
  | .RCK_BITTIME_ASP => ⟨.RCK_BITTIME, 0, 6, .rw, 0x20⟩
  | .RCK_TOK_POOL => ⟨.RCK_TOK, 0, 6, .rw, 2⟩
  | .RCK_TOKSTAT_SEQ => ⟨.RCK_TOKSTAT, 16, 16, .ro, 0⟩
  | .RCK_TOKSTAT_QUEUE => ⟨.RCK_TOKSTAT, 8, 8, .ro, 0⟩
  | .RCK_TOKSTAT_HELD => ⟨.RCK_TOKSTAT, 0, 6, .ro, 0⟩
  | .RCK_SOLO_REMAIN => ⟨.RCK_SOLO, 16, 16, .ro, 0⟩
  | .RCK_SOLO_DELAY => ⟨.RCK_SOLO, 0, 16, .ro, 0⟩
  | .RCK_ROLES_HEARD => ⟨.RCK_ROLES, 21, 9, .ro, 0⟩
  | .RCK_ROLES_MASTER => ⟨.RCK_ROLES, 9, 9, .ro, 0⟩
  | .RCK_ROLES_STEWARD => ⟨.RCK_ROLES, 0, 9, .ro, 0⟩
  | .RCK_CNT_TXDROP => ⟨.RCK_CNT, 24, 8, .rc, 0⟩
  | .RCK_CNT_FOREIGN => ⟨.RCK_CNT, 16, 8, .rc, 0⟩
  | .RCK_CNT_MARKERS => ⟨.RCK_CNT, 8, 8, .rc, 0⟩
  | .RCK_CNT_BEACONS => ⟨.RCK_CNT, 0, 8, .rc, 0⟩

/-- The header of a register. -/
def Reg.info : Reg → RegInfo
  | .SYS_ID => ⟨.SYS, 0x0, [], .immediate, [.SYS_ID_VENDOR, .SYS_ID_DEVICE]⟩
  | .SYS_STEP => ⟨.SYS, 0x4, [], .immediate, [.SYS_STEP_MAJOR, .SYS_STEP_MINOR]⟩
  | .SYS_CAP => ⟨.SYS, 0x8, [], .immediate, [.SYS_CAP_LANES, .SYS_CAP_DECODERS, .SYS_CAP_SLOTS, .SYS_CAP_VENG, .SYS_CAP_ACTS]⟩
  | .SYS_STAT => ⟨.SYS, 0x10, [], .immediate, [.SYS_STAT_HANDOVER, .SYS_STAT_SLOWBUSY, .SYS_STAT_PDROP, .SYS_STAT_ANGVALID]⟩
  | .SYS_CLKSTAT => ⟨.SYS, 0x14, [], .immediate, [.SYS_CLKSTAT_LOSS, .SYS_CLKSTAT_SLOW_OK, .SYS_CLKSTAT_DRAM_LOCK, .SYS_CLKSTAT_VE_LOCK, .SYS_CLKSTAT_MC_LOCK, .SYS_CLKSTAT_FAB_LOCK, .SYS_CLKSTAT_XTAL_OK]⟩
  | .SYS_RSTCTL => ⟨.SYS, 0x20, [], .immediate, [.SYS_RSTCTL_KEY, .SYS_RSTCTL_FULL, .SYS_RSTCTL_WARM]⟩
  | .SYS_RSTCAUSE => ⟨.SYS, 0x24, [], .immediate, [.SYS_RSTCAUSE_SAFESTOP, .SYS_RSTCAUSE_FULL_SW, .SYS_RSTCAUSE_WDOG, .SYS_RSTCAUSE_WARM_SVC, .SYS_RSTCAUSE_WARM_SW, .SYS_RSTCAUSE_POR]⟩
  | .SYS_CONFLICT => ⟨.SYS, 0x30, [], .immediate, [.SYS_CONFLICT_VALID, .SYS_CONFLICT_COUNT, .SYS_CONFLICT_WINNER, .SYS_CONFLICT_LOSER]⟩
  | .SYS_CONFLICT_ADDR => ⟨.SYS, 0x34, [], .immediate, [.SYS_CONFLICT_ADDR_OFFSET]⟩
  | .SYS_PEND => ⟨.SYS, 0x40, [], .immediate, [.SYS_PEND_BLOCKS]⟩
  | .SYS_BAR2CTL => ⟨.SYS, 0x50, [], .immediate, [.SYS_BAR2CTL_DISABLE, .SYS_BAR2CTL_RELOCK1, .SYS_BAR2CTL_RELOCK0, .SYS_BAR2CTL_WDROP1, .SYS_BAR2CTL_WDROP0, .SYS_BAR2CTL_UNLOCK1, .SYS_BAR2CTL_UNLOCK0]⟩
  | .ANG_CTL => ⟨.ANG, 0x100000, [], .immediate, [.ANG_CTL_REACQ, .ANG_CTL_AUTO, .ANG_CTL_ENABLE]⟩
  | .ANG_GEOM => ⟨.ANG, 0x100004, [], .rev, [.ANG_GEOM_WEDGES]⟩
  | .ANG_STAT => ⟨.ANG, 0x100008, [], .immediate, [.ANG_STAT_EPOCH, .ANG_STAT_HCLAMP, .ANG_STAT_BADCFG, .ANG_STAT_WRAP, .ANG_STAT_SPEED, .ANG_STAT_USABLE, .ANG_STAT_VALID, .ANG_STAT_STATE]⟩
  | .ANG_LOSS => ⟨.ANG, 0x10000c, [], .immediate, [.ANG_LOSS_SPEED, .ANG_LOSS_PHASE, .ANG_LOSS_DISAGREE, .ANG_LOSS_NOFRAME, .ANG_LOSS_FEWREF]⟩
  | .ANG_LO => ⟨.ANG, 0x100010, [], .immediate, [.ANG_LO_ANG]⟩
  | .ANG_HI => ⟨.ANG, 0x100014, [], .immediate, [.ANG_HI_ANG]⟩
  | .ANG_TSLO => ⟨.ANG, 0x100018, [], .immediate, [.ANG_TSLO_TS]⟩
  | .ANG_TSHI => ⟨.ANG, 0x10001c, [], .immediate, [.ANG_TSHI_TS]⟩
  | .ANG_PERIOD => ⟨.ANG, 0x100020, [], .immediate, [.ANG_PERIOD_CYCLES]⟩
  | .ANG_LOOP => ⟨.ANG, 0x100024, [], .rev, [.ANG_LOOP_DAMP, .ANG_LOOP_BW]⟩
  | .ANG_TOL => ⟨.ANG, 0x100028, [], .rev, [.ANG_TOL_BADREV, .ANG_TOL_PERR, .ANG_TOL_DIS]⟩
  | .ANG_REFCTL => ⟨.ANG, 0x100030, [], .immediate, [.ANG_REFCTL_READMIT, .ANG_REFCTL_FORCEOUT, .ANG_REFCTL_USE]⟩
  | .ANG_REFSTAT => ⟨.ANG, 0x100034, [], .immediate, [.ANG_REFSTAT_REFD, .ANG_REFSTAT_REFC, .ANG_REFSTAT_REFB, .ANG_REFSTAT_REFA]⟩
  | .ANG_REFERR => ⟨.ANG, 0x100038, [], .immediate, [.ANG_REFERR_REFD, .ANG_REFERR_REFC, .ANG_REFERR_REFB, .ANG_REFERR_REFA]⟩
  | .ANG_REFOFF => ⟨.ANG, 0x100040, [(4, 0x4)], .rev, [.ANG_REFOFF_OFF]⟩
  | .ANG_PEND => ⟨.ANG, 0x100060, [], .immediate, [.ANG_PEND_PEND]⟩
  | .ANG_SOFF => ⟨.ANG, 0x100400, [(32, 0x4)], .rev, [.ANG_SOFF_OFF]⟩
  | .ANG_RRO => ⟨.ANG, 0x100800, [(4, 0x100), (64, 0x4)], .rev, [.ANG_RRO_CORR]⟩
  | .ANG_HOFF => ⟨.ANG, 0x101000, [(128, 0x10)], .wedge, [.ANG_HOFF_OFF]⟩
  | .ANG_HSKEW => ⟨.ANG, 0x101004, [(128, 0x10)], .wedge, [.ANG_HSKEW_TOFF, .ANG_HSKEW_WOFF]⟩
  | .ANG_SCKRATE => ⟨.ANG, 0x102000, [(32, 0x10)], .wedge, [.ANG_SCKRATE_ENABLE, .ANG_SCKRATE_SPR]⟩
  | .ANG_WCKRATE => ⟨.ANG, 0x102400, [(32, 0x10)], .wedge, [.ANG_WCKRATE_ENABLE, .ANG_WCKRATE_SPR]⟩
  | .ANG_SCKPHASE => ⟨.ANG, 0x102004, [(32, 0x10)], .wedge, [.ANG_SCKPHASE_PHASE]⟩
  | .ANG_WCKPHASE => ⟨.ANG, 0x102404, [(32, 0x10)], .wedge, [.ANG_WCKPHASE_PHASE]⟩
  | .ANG_SCKSTAT => ⟨.ANG, 0x102008, [(32, 0x10)], .immediate, [.ANG_SCKSTAT_RUN, .ANG_SCKSTAT_RANGE, .ANG_SCKSTAT_UNOWNED, .ANG_SCKSTAT_OWNER]⟩
  | .ANG_WCKSTAT => ⟨.ANG, 0x102408, [(32, 0x10)], .immediate, [.ANG_WCKSTAT_RUN, .ANG_WCKSTAT_RANGE, .ANG_WCKSTAT_UNOWNED, .ANG_WCKSTAT_OWNER]⟩
  | .ANG_CMPCTL => ⟨.ANG, 0x103000, [(16, 0x20)], .immediate, [.ANG_CMPCTL_ARM, .ANG_CMPCTL_PERIODIC, .ANG_CMPCTL_IRQ, .ANG_CMPCTL_FRAME, .ANG_CMPCTL_HEAD]⟩
  | .ANG_CMPTGTLO => ⟨.ANG, 0x103004, [(16, 0x20)], .immediate, [.ANG_CMPTGTLO_TGT]⟩
  | .ANG_CMPTGTHI => ⟨.ANG, 0x103008, [(16, 0x20)], .immediate, [.ANG_CMPTGTHI_TGT]⟩
  | .ANG_CMPSTAT => ⟨.ANG, 0x10300c, [(16, 0x20)], .immediate, [.ANG_CMPSTAT_FIRED, .ANG_CMPSTAT_LATE, .ANG_CMPSTAT_LOST]⟩
  | .LNX_CTL => ⟨.LNX, 0x110000, [], .immediate, [.LNX_CTL_SWROUTE]⟩
  | .LNX_STAT => ⟨.LNX, 0x110004, [], .immediate, [.LNX_STAT_LANE, .LNX_STAT_PAIRERR, .LNX_STAT_DUPLICATE, .LNX_STAT_REFUSED]⟩
  | .LNX_PEND0 => ⟨.LNX, 0x110010, [], .immediate, [.LNX_PEND0_PEND]⟩
  | .LNX_PEND1 => ⟨.LNX, 0x110014, [], .immediate, [.LNX_PEND1_PEND]⟩
  | .LNX_ROUTE => ⟨.LNX, 0x110100, [(64, 0x4)], .route, [.LNX_ROUTE_SRC, .LNX_ROUTE_EN, .LNX_ROUTE_INPUT]⟩
  | .LANE_CTL => ⟨.LANE, 0x200000, [(64, 0x1000)], .immediate, [.LANE_CTL_RECAL, .LANE_CTL_READMIT, .LANE_CTL_FORCEOUT]⟩
  | .LANE_STAT => ⟨.LANE, 0x200004, [(64, 0x1000)], .immediate, [.LANE_STAT_BANKFLT, .LANE_STAT_NOCLK, .LANE_STAT_STUCK, .LANE_STAT_CALFAIL, .LANE_STAT_SKEWERR, .LANE_STAT_SLIP, .LANE_STAT_TLCLAMP, .LANE_STAT_OVR, .LANE_STAT_RECALPEND, .LANE_STAT_DUAL, .LANE_STAT_ROUTED, .LANE_STAT_HELD, .LANE_STAT_STATE]⟩
  | .LANE_OVRCNT => ⟨.LANE, 0x200008, [(64, 0x1000)], .immediate, [.LANE_OVRCNT_EVENTS]⟩
  | .LANE_PEND => ⟨.LANE, 0x20000c, [(64, 0x1000)], .immediate, [.LANE_PEND_PEND]⟩
  | .LANE_AFE => ⟨.LANE, 0x200010, [(64, 0x1000)], .wedge, [.LANE_AFE_SBOOST, .LANE_AFE_SFC, .LANE_AFE_HPF, .LANE_AFE_BOOST, .LANE_AFE_FC]⟩
  | .LANE_AGC => ⟨.LANE, 0x200014, [(64, 0x1000)], .wedge, [.LANE_AGC_STEP, .LANE_AGC_TARGET, .LANE_AGC_INIT]⟩
  | .LANE_GAIN => ⟨.LANE, 0x200018, [(64, 0x1000)], .immediate, [.LANE_GAIN_VGA]⟩
  | .LANE_TLOOP => ⟨.LANE, 0x200020, [(64, 0x1000)], .wedge, [.LANE_TLOOP_FLIM, .LANE_TLOOP_KI, .LANE_TLOOP_KP]⟩
  | .LANE_TPHASE => ⟨.LANE, 0x200024, [(64, 0x1000)], .immediate, [.LANE_TPHASE_PHASE, .LANE_TPHASE_FREQ]⟩
  | .LANE_MODE => ⟨.LANE, 0x200040, [(64, 0x1000)], .wedge, [.LANE_MODE_MASK, .LANE_MODE_AGCFREEZE, .LANE_MODE_TLFREEZE, .LANE_MODE_ADAPT]⟩
  | .LANE_FIR => ⟨.LANE, 0x200080, [(64, 0x1000), (16, 0x4)], .wedge, [.LANE_FIR_COEF]⟩
  | .LANE_FIRCFG => ⟨.LANE, 0x2000c0, [(64, 0x1000)], .wedge, [.LANE_FIRCFG_MU, .LANE_FIRCFG_MAIN]⟩
  | .LANE_TARGET => ⟨.LANE, 0x2000c4, [(64, 0x1000)], .wedge, [.LANE_TARGET_G4, .LANE_TARGET_G3, .LANE_TARGET_G2, .LANE_TARGET_G1]⟩
  | .LANE_CAL => ⟨.LANE, 0x200100, [(64, 0x1000)], .immediate, [.LANE_CAL_DNL, .LANE_CAL_TONE, .LANE_CAL_OFFSET, .LANE_CAL_PASS]⟩
  | .RDI_CTL => ⟨.RDI, 0x300000, [(256, 0x100)], .immediate, [.RDI_CTL_INVERT, .RDI_CTL_TERM, .RDI_CTL_DECL]⟩
  | .RDI_STAT => ⟨.RDI, 0x300004, [(256, 0x100)], .immediate, [.RDI_STAT_LANE, .RDI_STAT_WIGN, .RDI_STAT_ROUTED, .RDI_STAT_SHORT, .RDI_STAT_OPEN]⟩
  | .ITB_CTL => ⟨.ITB, 0x400000, [], .immediate, [.ITB_CTL_NOBORROW, .ITB_CTL_ENABLE]⟩
  | .ITB_STAT => ⟨.ITB, 0x400004, [], .immediate, [.ITB_STAT_CFGERR, .ITB_STAT_CTXFULL, .ITB_STAT_CTXPEAK, .ITB_STAT_CTXUSE, .ITB_STAT_ESERV]⟩
  | .ITB_POOL => ⟨.ITB, 0x400010, [], .rev, [.ITB_POOL_PAIRMAX, .ITB_POOL_MAX]⟩
  | .ITB_POOLLVL => ⟨.ITB, 0x400014, [], .immediate, [.ITB_POOLLVL_QLEN, .ITB_POOLLVL_LEVEL]⟩
  | .ITB_LIMIT => ⟨.ITB, 0x400018, [], .rev, [.ITB_LIMIT_DEADLINE, .ITB_LIMIT_BWAIT]⟩
  | .ITB_PROFBASE => ⟨.ITB, 0x400020, [], .rev, [.ITB_PROFBASE_BASE]⟩
  | .ITB_CODEBASE => ⟨.ITB, 0x400024, [], .rev, [.ITB_CODEBASE_BASE]⟩
  | .ITB_GUARLO => ⟨.ITB, 0x400030, [], .immediate, [.ITB_GUARLO_COUNT]⟩
  | .ITB_GUARHI => ⟨.ITB, 0x400034, [], .immediate, [.ITB_GUARHI_COUNT]⟩
  | .ITB_BORRLO => ⟨.ITB, 0x400038, [], .immediate, [.ITB_BORRLO_COUNT]⟩
  | .ITB_BORRHI => ⟨.ITB, 0x40003c, [], .immediate, [.ITB_BORRHI_COUNT]⟩
  | .ITB_FAILCNT => ⟨.ITB, 0x400040, [], .immediate, [.ITB_FAILCNT_DROPPED, .ITB_FAILCNT_BWAIT, .ITB_FAILCNT_EXPIRED, .ITB_FAILCNT_NOCONV]⟩
  | .ITB_FAILCNT2 => ⟨.ITB, 0x400044, [], .immediate, [.ITB_FAILCNT2_TBLERR, .ITB_FAILCNT2_CTXERR, .ITB_FAILCNT2_ABANDON]⟩
  | .ITB_PEND => ⟨.ITB, 0x400050, [], .immediate, [.ITB_PEND_PEND]⟩
  | .ITB_ENGCTL => ⟨.ITB, 0x401000, [(48, 0x10)], .immediate, [.ITB_ENGCTL_READMIT, .ITB_ENGCTL_FORCEOUT]⟩
  | .ITB_ENGSTAT => ⟨.ITB, 0x401004, [(48, 0x10)], .immediate, [.ITB_ENGSTAT_ITERS, .ITB_ENGSTAT_CALFAIL, .ITB_ENGSTAT_TIMEOUT, .ITB_ENGSTAT_PARERR, .ITB_ENGSTAT_STATE]⟩
  | .TPE_CTL => ⟨.TPE, 0x480000, [], .immediate, [.TPE_CTL_RECON, .TPE_CTL_ENABLE]⟩
  | .TPE_STAT => ⟨.TPE, 0x480004, [], .immediate, [.TPE_STAT_WIGN, .TPE_STAT_DEFFULL, .TPE_STAT_ACCPAR, .TPE_STAT_MAPERR, .TPE_STAT_RBUSY]⟩
  | .TPE_ZONEBASE => ⟨.TPE, 0x480010, [], .immediate, [.TPE_ZONEBASE_BASE]⟩
  | .TPE_ZONECNT => ⟨.TPE, 0x480014, [], .immediate, [.TPE_ZONECNT_COUNT]⟩
  | .TPE_LAYBASE => ⟨.TPE, 0x480018, [], .immediate, [.TPE_LAYBASE_BASE]⟩
  | .TPE_LAYCNT => ⟨.TPE, 0x48001c, [], .immediate, [.TPE_LAYCNT_COUNT]⟩
  | .TPE_DEFBMP => ⟨.TPE, 0x480020, [], .immediate, [.TPE_DEFBMP_BASE]⟩
  | .TPE_DEFLO => ⟨.TPE, 0x480028, [], .immediate, [.TPE_DEFLO_ADDR]⟩
  | .TPE_DEFHI => ⟨.TPE, 0x48002c, [], .immediate, [.TPE_DEFHI_ADDR]⟩
  | .TPE_DEFMAX => ⟨.TPE, 0x480030, [], .immediate, [.TPE_DEFMAX_MAX]⟩
  | .TPE_DEFCNT => ⟨.TPE, 0x480034, [], .immediate, [.TPE_DEFCNT_COUNT]⟩
  | .TPE_RECON => ⟨.TPE, 0x480040, [], .immediate, [.TPE_RECON_REFUSED, .TPE_RECON_FAIL, .TPE_RECON_OK]⟩
  | .FSQ_CTL => ⟨.FSQ, 0x500000, [(32, 0x4000)], .immediate, [.FSQ_CTL_RESUME, .FSQ_CTL_STEP, .FSQ_CTL_BRKEN, .FSQ_CTL_CLRMCHK, .FSQ_CTL_STOP, .FSQ_CTL_ENABLE]⟩
  | .FSQ_STAT => ⟨.FSQ, 0x500004, [(32, 0x4000)], .immediate, [.FSQ_STAT_MCHK, .FSQ_STAT_ILLEGAL, .FSQ_STAT_WDOG, .FSQ_STAT_IRQ, .FSQ_STAT_FMTERR, .FSQ_STAT_QSTALL, .FSQ_STAT_SVIGN, .FSQ_STAT_VGIGN, .FSQ_STAT_RGIGN, .FSQ_STAT_CAUSE, .FSQ_STAT_STATE]⟩
  | .FSQ_PC => ⟨.FSQ, 0x500008, [(32, 0x4000)], .immediate, [.FSQ_PC_MCADDR, .FSQ_PC_SP, .FSQ_PC_PC]⟩
  | .FSQ_JOB => ⟨.FSQ, 0x500010, [(32, 0x4000)], .immediate, [.FSQ_JOB_ENTRYW, .FSQ_JOB_KIND, .FSQ_JOB_URG, .FSQ_JOB_PAIR, .FSQ_JOB_HEAD]⟩
  | .FSQ_JSTARTLO => ⟨.FSQ, 0x500018, [(32, 0x4000)], .immediate, [.FSQ_JSTARTLO_ANG]⟩
  | .FSQ_JSTARTHI => ⟨.FSQ, 0x50001c, [(32, 0x4000)], .immediate, [.FSQ_JSTARTHI_ANG]⟩
  | .FSQ_ZGEOM => ⟨.FSQ, 0x500020, [(32, 0x4000)], .immediate, [.FSQ_ZGEOM_ZONE, .FSQ_ZGEOM_L]⟩
  | .FSQ_ZU => ⟨.FSQ, 0x500024, [(32, 0x4000)], .immediate, [.FSQ_ZU_U]⟩
  | .FSQ_ENTRY => ⟨.FSQ, 0x500030, [(32, 0x4000)], .immediate, [.FSQ_ENTRY_VALID, .FSQ_ENTRY_LISTEND, .FSQ_ENTRY_INDEX, .FSQ_ENTRY_ROLE, .FSQ_ENTRY_SLOT]⟩
  | .FSQ_CNT => ⟨.FSQ, 0x500040, [(32, 0x4000)], .immediate, [.FSQ_CNT_CNT1, .FSQ_CNT_CNT0]⟩
  | .FSQ_CMPSTAT => ⟨.FSQ, 0x500044, [(32, 0x4000)], .immediate, [.FSQ_CMPSTAT_VGQ, .FSQ_CMPSTAT_WGQ, .FSQ_CMPSTAT_RGQ, .FSQ_CMPSTAT_ACBLOST, .FSQ_CMPSTAT_ACALOST, .FSQ_CMPSTAT_ACBLATE, .FSQ_CMPSTAT_ACALATE, .FSQ_CMPSTAT_PCBF, .FSQ_CMPSTAT_PCAF, .FSQ_CMPSTAT_ACBF, .FSQ_CMPSTAT_ACAF]⟩
  | .FSQ_POS => ⟨.FSQ, 0x500050, [(32, 0x4000)], .immediate, [.FSQ_POS_VALID, .FSQ_POS_EXCL, .FSQ_POS_U]⟩
  | .FSQ_STAMPLO => ⟨.FSQ, 0x500058, [(32, 0x4000)], .immediate, [.FSQ_STAMPLO_ANG]⟩
  | .FSQ_STAMPHI => ⟨.FSQ, 0x50005c, [(32, 0x4000)], .immediate, [.FSQ_STAMPHI_ANG]⟩
  | .FSQ_STAMPPOS => ⟨.FSQ, 0x500060, [(32, 0x4000)], .immediate, [.FSQ_STAMPPOS_POS]⟩
  | .FSQ_ABNCNT => ⟨.FSQ, 0x500070, [(32, 0x4000)], .immediate, [.FSQ_ABNCNT_MCHKS, .FSQ_ABNCNT_ABANDONS]⟩
  | .FSQ_CFG => ⟨.FSQ, 0x500080, [(32, 0x4000)], .wedge, [.FSQ_CFG_JOBREV]⟩
  | .FSQ_PEND => ⟨.FSQ, 0x500084, [(32, 0x4000)], .immediate, [.FSQ_PEND_CFG]⟩
  | .FSQ_CSCTL => ⟨.FSQ, 0x500200, [(4, 0x20000)], .immediate, [.FSQ_CSCTL_OPEN]⟩
  | .FSQ_CSSTAT => ⟨.FSQ, 0x500204, [(4, 0x20000)], .immediate, [.FSQ_CSSTAT_BADADDR, .FSQ_CSSTAT_RPERR, .FSQ_CSSTAT_WDROP, .FSQ_CSSTAT_DRAINING, .FSQ_CSSTAT_OPENED]⟩
  | .WRF_CTL => ⟨.WRF, 0x600000, [], .immediate, [.WRF_CTL_WEN, .WRF_CTL_ENABLE]⟩
  | .WRF_STAT => ⟨.WRF, 0x600004, [], .immediate, [.WRF_STAT_ENCBUSY, .WRF_STAT_MISDIR, .WRF_STAT_WRFPAR, .WRF_STAT_WFAULT, .WRF_STAT_OFFTRK, .WRF_STAT_GUARD, .WRF_STAT_NOSTREAM, .WRF_STAT_UNDERRUN]⟩
  | .WRF_VCRIT => ⟨.WRF, 0x600010, [], .rev, [.WRF_VCRIT_MAXERAS, .WRF_VCRIT_MAXERR]⟩
  | .WRF_VCRIT2 => ⟨.WRF, 0x600014, [], .rev, [.WRF_VCRIT2_DTOL, .WRF_VCRIT2_MINMAG, .WRF_VCRIT2_CVMAX, .WRF_VCRIT2_LOWMAG]⟩
  | .WRF_RETRY => ⟨.WRF, 0x600018, [], .rev, [.WRF_RETRY_OTHER, .WRF_RETRY_INPLACE]⟩
  | .WRF_HWEN => ⟨.WRF, 0x600020, [(4, 0x4)], .immediate, [.WRF_HWEN_WEN]⟩
  | .WRF_VCNT => ⟨.WRF, 0x600030, [], .immediate, [.WRF_VCNT_FAIL, .WRF_VCNT_PASS]⟩
  | .WRF_MDEXPLO => ⟨.WRF, 0x600040, [], .immediate, [.WRF_MDEXPLO_PSA]⟩
  | .WRF_MDEXPHI => ⟨.WRF, 0x600044, [], .immediate, [.WRF_MDEXPHI_PSA]⟩
  | .WRF_MDOBSLO => ⟨.WRF, 0x600048, [], .immediate, [.WRF_MDOBSLO_PSA]⟩
  | .WRF_MDOBSHI => ⟨.WRF, 0x60004c, [], .immediate, [.WRF_MDOBSHI_PSA]⟩
  | .WRF_PEND => ⟨.WRF, 0x600050, [], .immediate, [.WRF_PEND_PEND]⟩
  | .WRF_GUARD => ⟨.WRF, 0x600100, [(4, 0x20)], .rev, [.WRF_GUARD_SHKCH, .WRF_GUARD_PESLIM, .WRF_GUARD_HOLD, .WRF_GUARD_SHKEN, .WRF_GUARD_PESEN]⟩
  | .WRF_SHKLIM => ⟨.WRF, 0x600104, [(4, 0x20)], .rev, [.WRF_SHKLIM_LEVEL]⟩
  | .WRF_ONTRK => ⟨.WRF, 0x600108, [(4, 0x20)], .rev, [.WRF_ONTRK_LIMIT]⟩
  | .WRF_GSTAT => ⟨.WRF, 0x60010c, [(4, 0x20)], .immediate, [.WRF_GSTAT_TRIPS, .WRF_GSTAT_OFFTRK, .WRF_GSTAT_SHKTRIP, .WRF_GSTAT_PESTRIP, .WRF_GSTAT_INHIBIT]⟩
  | .WRF_SSTAT => ⟨.WRF, 0x601000, [(32, 0x40)], .immediate, [.WRF_SSTAT_LASTRES, .WRF_SSTAT_NOSTREAM, .WRF_SSTAT_NOTWR, .WRF_SSTAT_WFAULT, .WRF_SSTAT_UNDERRUN, .WRF_SSTAT_INHIBIT, .WRF_SSTAT_DRIVING, .WRF_SSTAT_READY, .WRF_SSTAT_PREP]⟩
  | .WRF_PRECOMP => ⟨.WRF, 0x601004, [(32, 0x40)], .wedge, [.WRF_PRECOMP_EARLY2, .WRF_PRECOMP_EARLY1]⟩
  | .WRF_SVCNT => ⟨.WRF, 0x601008, [(32, 0x40)], .immediate, [.WRF_SVCNT_FAIL, .WRF_SVCNT_PASS]⟩
  | .SRV_CTL => ⟨.SRV, 0x700000, [(4, 0x10000)], .immediate, [.SRV_CTL_DONE, .SRV_CTL_UNLOAD, .SRV_CTL_LOAD, .SRV_CTL_READMIT, .SRV_CTL_FORCEOUT, .SRV_CTL_ENABLE]⟩
  | .SRV_STAT => ⟨.SRV, 0x700004, [(4, 0x10000)], .immediate, [.SRV_STAT_GUIDE, .SRV_STAT_REFHEAD, .SRV_STAT_SRVLOSS, .SRV_STAT_SEEKTO, .SRV_STAT_LATE, .SRV_STAT_RUNAWAY, .SRV_STAT_MODE, .SRV_STAT_SVC]⟩
  | .SRV_CAL => ⟨.SRV, 0x700008, [(4, 0x10000)], .immediate, [.SRV_CAL_PASS]⟩
  | .SRV_VTGT => ⟨.SRV, 0x700010, [(4, 0x10000)], .immediate, [.SRV_VTGT_TRACK]⟩
  | .SRV_VPOS => ⟨.SRV, 0x700014, [(4, 0x10000)], .immediate, [.SRV_VPOS_POS]⟩
  | .SRV_VCMCMD => ⟨.SRV, 0x700020, [(4, 0x10000)], .immediate, [.SRV_VCMCMD_CMD]⟩
  | .SRV_VCMOUT => ⟨.SRV, 0x700024, [(4, 0x10000)], .immediate, [.SRV_VCMOUT_CLAMP, .SRV_VCMOUT_DAC]⟩
  | .SRV_TIMING => ⟨.SRV, 0x700028, [(4, 0x10000)], .rev, [.SRV_TIMING_MDLY, .SRV_TIMING_VDLY]⟩
  | .SRV_SFMT => ⟨.SRV, 0x70002c, [(4, 0x10000)], .rev, [.SRV_SFMT_CELL, .SRV_SFMT_PRE, .SRV_SFMT_BURST, .SRV_SFMT_SAMWIN, .SRV_SFMT_SAMTOL]⟩
  | .SRV_SAMPAT => ⟨.SRV, 0x700030, [(4, 0x10000)], .rev, [.SRV_SAMPAT_PAT]⟩
  | .SRV_SETTLE => ⟨.SRV, 0x700034, [(4, 0x10000)], .rev, [.SRV_SETTLE_FLIM, .SRV_SETTLE_FCNT, .SRV_SETTLE_SCNT, .SRV_SETTLE_WSLIM, .SRV_SETTLE_RSLIM]⟩
  | .SRV_MACFG => ⟨.SRV, 0x70003c, [(4, 0x10000)], .rev, [.SRV_MACFG_STROKE, .SRV_MACFG_MALIM]⟩
  | .SRV_RUN => ⟨.SRV, 0x700040, [(4, 0x10000)], .rev, [.SRV_RUN_MISSMAX, .SRV_RUN_VMAX, .SRV_RUN_IMCH, .SRV_RUN_IERR]⟩
  | .SRV_RANGE0 => ⟨.SRV, 0x700044, [(4, 0x10000)], .rev, [.SRV_RANGE0_TRACK]⟩
  | .SRV_RANGE1 => ⟨.SRV, 0x700048, [(4, 0x10000)], .rev, [.SRV_RANGE1_TRACK]⟩
  | .SRV_VCMLIM => ⟨.SRV, 0x70004c, [(4, 0x10000)], .rev, [.SRV_VCMLIM_LIM]⟩
  | .SRV_RVFF => ⟨.SRV, 0x700050, [(4, 0x10000)], .rev, [.SRV_RVFF_EN, .SRV_RVFF_CHB, .SRV_RVFF_CHA, .SRV_RVFF_SHIFT]⟩
  | .SRV_RVFIR => ⟨.SRV, 0x700054, [(4, 0x10000), (4, 0x4)], .rev, [.SRV_RVFIR_TAPODD, .SRV_RVFIR_TAPEVEN]⟩
  | .SRV_CONTACT => ⟨.SRV, 0x700064, [(4, 0x10000)], .rev, [.SRV_CONTACT_EN, .SRV_CONTACT_AMPDEV]⟩
  | .SRV_RETRACT => ⟨.SRV, 0x700068, [(4, 0x10000)], .immediate, [.SRV_RETRACT_TIME, .SRV_RETRACT_CUR]⟩
  | .SRV_TIMEOUT => ⟨.SRV, 0x70006c, [(4, 0x10000)], .rev, [.SRV_TIMEOUT_LOADTO, .SRV_TIMEOUT_SEEKTO]⟩
  | .SRV_CNT => ⟨.SRV, 0x700070, [(4, 0x10000)], .immediate, [.SRV_CNT_MISSED, .SRV_CNT_MALATE, .SRV_CNT_LATE]⟩
  | .SRV_PEND => ⟨.SRV, 0x700080, [(4, 0x10000)], .immediate, [.SRV_PEND_PEND]⟩
  | .SRV_HCTL => ⟨.SRV, 0x701000, [(4, 0x10000), (32, 0x40)], .immediate, [.SRV_HCTL_READMIT, .SRV_HCTL_FORCEOUT]⟩
  | .SRV_HSTAT => ⟨.SRV, 0x701004, [(4, 0x10000), (32, 0x40)], .immediate, [.SRV_HSTAT_CONTACT, .SRV_HSTAT_OUTSTROKE, .SRV_HSTAT_MAFAULT, .SRV_HSTAT_CALFAIL, .SRV_HSTAT_WROUT, .SRV_HSTAT_RDOUT, .SRV_HSTAT_BOUND, .SRV_HSTAT_GUIDE, .SRV_HSTAT_FOLLOW, .SRV_HSTAT_STATE]⟩
  | .SRV_HTGT => ⟨.SRV, 0x701008, [(4, 0x10000), (32, 0x40)], .immediate, [.SRV_HTGT_JOBW, .SRV_HTGT_TRACK]⟩
  | .SRV_XOFF => ⟨.SRV, 0x70100c, [(4, 0x10000), (32, 0x40)], .immediate, [.SRV_XOFF_OFF]⟩
  | .SRV_MA => ⟨.SRV, 0x701010, [(4, 0x10000), (32, 0x40)], .immediate, [.SRV_MA_CODE]⟩
  | .SRV_HPRED => ⟨.SRV, 0x701014, [(4, 0x10000), (32, 0x40)], .immediate, [.SRV_HPRED_POS]⟩
  | .SRV_SMP0 => ⟨.SRV, 0x701020, [(4, 0x10000), (32, 0x40)], .immediate, [.SRV_SMP0_VALID, .SRV_SMP0_RROBAD, .SRV_SMP0_WEDGE, .SRV_SMP0_TRACK]⟩
  | .SRV_SMP1 => ⟨.SRV, 0x701024, [(4, 0x10000), (32, 0x40)], .immediate, [.SRV_SMP1_PES, .SRV_SMP1_RRO]⟩
  | .SRV_SMP2 => ⟨.SRV, 0x701028, [(4, 0x10000), (32, 0x40)], .immediate, [.SRV_SMP2_N, .SRV_SMP2_Q]⟩
  | .SRV_SMP3 => ⟨.SRV, 0x70102c, [(4, 0x10000), (32, 0x40)], .immediate, [.SRV_SMP3_AMP, .SRV_SMP3_COUNT, .SRV_SMP3_TIME]⟩
  | .ARM_CTL => ⟨.ARM, 0x780000, [(4, 0x100)], .immediate, [.ARM_CTL_SAFE, .ARM_CTL_RETRAIN, .ARM_CTL_AUTORT, .ARM_CTL_ENABLE]⟩
  | .ARM_STAT => ⟨.ARM, 0x780004, [(4, 0x100)], .immediate, [.ARM_STAT_TEMP, .ARM_STAT_LOSSES, .ARM_STAT_DOWN, .ARM_STAT_LSTATE]⟩
  | .ARM_ERR => ⟨.ARM, 0x780008, [(4, 0x100)], .immediate, [.ARM_ERR_NAK, .ARM_ERR_UPCRC, .ARM_ERR_RESEND, .ARM_ERR_DELIM]⟩
  | .ARM_WSTAT => ⟨.ARM, 0x78000c, [(4, 0x100)], .immediate, [.ARM_WSTAT_FAULT, .ARM_WSTAT_WSEL]⟩
  | .ARM_HCFG => ⟨.ARM, 0x780010, [(4, 0x100)], .immediate, [.ARM_HCFG_HMAX]⟩
  | .ARM_REGCMD => ⟨.ARM, 0x780020, [(4, 0x100)], .immediate, [.ARM_REGCMD_GO, .ARM_REGCMD_WR, .ARM_REGCMD_ADDR, .ARM_REGCMD_DATA]⟩
  | .ARM_REGRSP => ⟨.ARM, 0x780024, [(4, 0x100)], .immediate, [.ARM_REGRSP_DONE, .ARM_REGRSP_TIMEOUT, .ARM_REGRSP_BUSY, .ARM_REGRSP_DATA]⟩
  | .ARM_CONTACT => ⟨.ARM, 0x780028, [(4, 0x100)], .immediate, [.ARM_CONTACT_VALID, .ARM_CONTACT_SURF, .ARM_CONTACT_METRIC]⟩
  | .ARM_HTR => ⟨.ARM, 0x781000, [(128, 0x4)], .immediate, [.ARM_HTR_WRITE, .ARM_HTR_READ]⟩
  | .SPN_CTL => ⟨.SPN, 0x800000, [], .immediate, [.SPN_CTL_DECEL, .SPN_CTL_HOLDSHORT, .SPN_CTL_BRAKE, .SPN_CTL_RUN, .SPN_CTL_ENABLE]⟩
  | .SPN_STAT => ⟨.SPN, 0x800004, [], .immediate, [.SPN_STAT_PFAIL, .SPN_STAT_DRVFLT, .SPN_STAT_ZCLOST, .SPN_STAT_STARTFAIL, .SPN_STAT_OVERSPEED, .SPN_STAT_RATEERR, .SPN_STAT_BADCFG, .SPN_STAT_WAITGRANT, .SPN_STAT_PHLOCKED, .SPN_STAT_INRANGE, .SPN_STAT_ATSPEED, .SPN_STAT_SRC, .SPN_STAT_STATE]⟩
  | .SPN_SPEED => ⟨.SPN, 0x800008, [], .immediate, [.SPN_SPEED_TARGET]⟩
  | .SPN_MEAS => ⟨.SPN, 0x80000c, [], .immediate, [.SPN_MEAS_SPEED]⟩
  | .SPN_MOTOR => ⟨.SPN, 0x800010, [], .immediate, [.SPN_MOTOR_VBUS, .SPN_MOTOR_IV, .SPN_MOTOR_IU, .SPN_MOTOR_POLES]⟩
  | .SPN_PWM => ⟨.SPN, 0x800014, [], .immediate, [.SPN_PWM_DEAD, .SPN_PWM_FREQ]⟩
  | .SPN_ILIM => ⟨.SPN, 0x800018, [], .immediate, [.SPN_ILIM_BRK, .SPN_ILIM_RUN]⟩
  | .SPN_GRANT => ⟨.SPN, 0x80001c, [], .immediate, [.SPN_GRANT_LIMIT]⟩
  | .SPN_HFI => ⟨.SPN, 0x800020, [], .immediate, [.SPN_HFI_PTEST, .SPN_HFI_AMP, .SPN_HFI_FREQ]⟩
  | .SPN_BEMF => ⟨.SPN, 0x800024, [], .immediate, [.SPN_BEMF_BLANK, .SPN_BEMF_ZCMISS]⟩
  | .SPN_REG => ⟨.SPN, 0x800028, [], .immediate, [.SPN_REG_KI, .SPN_REG_KP]⟩
  | .SPN_PFAIL => ⟨.SPN, 0x800030, [], .immediate, [.SPN_PFAIL_VTRIP, .SPN_PFAIL_VMIN]⟩
  | .SPN_PFCFG => ⟨.SPN, 0x800034, [], .immediate, [.SPN_PFCFG_BRAKE, .SPN_PFCFG_HOLD]⟩
  | .SPN_PFSTAT => ⟨.SPN, 0x800038, [], .immediate, [.SPN_PFSTAT_ELAPSED, .SPN_PFSTAT_UNIT, .SPN_PFSTAT_DONE, .SPN_PFSTAT_RETRACTED]⟩
  | .SPN_PHLOCK => ⟨.SPN, 0x800040, [], .rev, [.SPN_PHLOCK_EN, .SPN_PHLOCK_SLOTS, .SPN_PHLOCK_SLOT, .SPN_PHLOCK_LOCKTOL, .SPN_PHLOCK_TRIM]⟩
  | .SPN_PHERR => ⟨.SPN, 0x800044, [], .immediate, [.SPN_PHERR_TRIM, .SPN_PHERR_ERR]⟩
  | .SPN_PEND => ⟨.SPN, 0x800060, [], .immediate, [.SPN_PEND_PHLOCK]⟩
  | .SPN_PADV => ⟨.SPN, 0x800080, [(8, 0x4)], .immediate, [.SPN_PADV_ODD, .SPN_PADV_EVEN]⟩
  | .MAC_CTL => ⟨.MAC, 0x880000, [], .immediate, [.MAC_CTL_ENABLE]⟩
  | .MAC_PEND => ⟨.MAC, 0x880010, [], .immediate, [.MAC_PEND_PEND]⟩
  | .MAC_CHCFG => ⟨.MAC, 0x881000, [(24, 0x20)], .immediate, [.MAC_CHCFG_RESET, .MAC_CHCFG_OSR, .MAC_CHCFG_EN]⟩
  | .MAC_CHSYNC => ⟨.MAC, 0x881004, [(24, 0x20)], .rev, [.MAC_CHSYNC_UNIT, .MAC_CHSYNC_EACH, .MAC_CHSYNC_SRC]⟩
  | .MAC_CHDATA => ⟨.MAC, 0x881008, [(24, 0x20)], .immediate, [.MAC_CHDATA_VALID, .MAC_CHDATA_CLIP, .MAC_CHDATA_COUNT, .MAC_CHDATA_DATA]⟩
  | .MAC_CHSTAT => ⟨.MAC, 0x88100c, [(24, 0x20)], .immediate, [.MAC_CHSTAT_RESETS, .MAC_CHSTAT_RANGE]⟩
  | .VE_STAT => ⟨.VE, 0x900004, [], .immediate, [.VE_STAT_MCHK, .VE_STAT_BUSY]⟩
  | .VE_ECTL => ⟨.VE, 0x901000, [(12, 0x200)], .immediate, [.VE_ECTL_CLRMCHK, .VE_ECTL_RESUME, .VE_ECTL_HALT, .VE_ECTL_ENABLE]⟩
  | .VE_ESTAT => ⟨.VE, 0x901004, [(12, 0x200)], .immediate, [.VE_ESTAT_MBFULL, .VE_ESTAT_HIGN, .VE_ESTAT_FAULTV, .VE_ESTAT_TAIL, .VE_ESTAT_SBFULL, .VE_ESTAT_CSPAR, .VE_ESTAT_ILLEGAL, .VE_ESTAT_COMMITTED, .VE_ESTAT_CAUSE, .VE_ESTAT_STATE]⟩
  | .VE_EPC => ⟨.VE, 0x901008, [(12, 0x200)], .immediate, [.VE_EPC_MCADDR, .VE_EPC_PC]⟩
  | .VE_ETRIG => ⟨.VE, 0x90100c, [(12, 0x200)], .immediate, [.VE_ETRIG_SBUSED, .VE_ETRIG_RESTARTS, .VE_ETRIG_PRIO, .VE_ETRIG_TYPE]⟩
  | .VE_ECFG => ⟨.VE, 0x901010, [(12, 0x200)], .immediate, [.VE_ECFG_FLTRST, .VE_ECFG_MAXRST, .VE_ECFG_RTLIM]⟩
  | .VE_ETIMER => ⟨.VE, 0x901014, [(12, 0x200)], .immediate, [.VE_ETIMER_PERIOD]⟩
  | .VE_EQSTAT => ⟨.VE, 0x901018, [(12, 0x200)], .immediate, [.VE_EQSTAT_Q3, .VE_EQSTAT_Q2, .VE_EQSTAT_Q1, .VE_EQSTAT_Q0]⟩
  | .VE_ECNT => ⟨.VE, 0x90101c, [(12, 0x200)], .immediate, [.VE_ECNT_ABANDONS, .VE_ECNT_ROUTINES]⟩
  | .VE_ECNT2 => ⟨.VE, 0x901020, [(12, 0x200)], .immediate, [.VE_ECNT2_COALESCED, .VE_ECNT2_FAULTS, .VE_ECNT2_MCHKS]⟩
  | .VE_MBOXLO => ⟨.VE, 0x901030, [(12, 0x200)], .immediate, [.VE_MBOXLO_DATA]⟩
  | .VE_MBOXHI => ⟨.VE, 0x901034, [(12, 0x200)], .immediate, [.VE_MBOXHI_DATA]⟩
  | .VE_CSCTL => ⟨.VE, 0x901040, [(12, 0x200)], .immediate, [.VE_CSCTL_OPEN]⟩
  | .VE_CSSTAT => ⟨.VE, 0x901044, [(12, 0x200)], .immediate, [.VE_CSSTAT_BADADDR, .VE_CSSTAT_RESREF, .VE_CSSTAT_RPERR, .VE_CSSTAT_WDROP, .VE_CSSTAT_OPENED]⟩
  | .VE_GLO => ⟨.VE, 0x901100, [(12, 0x200), (32, 0x8)], .immediate, [.VE_GLO_G]⟩
  | .VE_GHI => ⟨.VE, 0x901104, [(12, 0x200), (32, 0x8)], .immediate, [.VE_GHI_G]⟩
  | .HIF_CTL => ⟨.HIF, 0xa00000, [], .immediate, [.HIF_CTL_PAUSE, .HIF_CTL_ENABLE]⟩
  | .HIF_PORTCFG => ⟨.HIF, 0xa00004, [], .immediate, [.HIF_PORTCFG_MODE]⟩
  | .HIF_STAT => ⟨.HIF, 0xa00008, [], .immediate, [.HIF_STAT_DPCONF, .HIF_STAT_ADMFULL, .HIF_STAT_FULL, .HIF_STAT_DUAL]⟩
  | .HIF_INFLIGHT => ⟨.HIF, 0xa0000c, [], .immediate, [.HIF_INFLIGHT_COUNT]⟩
  | .HIF_PEAK => ⟨.HIF, 0xa00010, [], .immediate, [.HIF_PEAK_PEAK]⟩
  | .HIF_FSEQ => ⟨.HIF, 0xa00014, [], .immediate, [.HIF_FSEQ_NEXT]⟩
  | .HIF_CMDBASE => ⟨.HIF, 0xa00018, [], .immediate, [.HIF_CMDBASE_BASE]⟩
  | .HIF_NSTBASE => ⟨.HIF, 0xa0001c, [], .immediate, [.HIF_NSTBASE_BASE]⟩
  | .HIF_HZTLO => ⟨.HIF, 0xa00020, [], .immediate, [.HIF_HZTLO_ADDR]⟩
  | .HIF_HZTHI => ⟨.HIF, 0xa00024, [], .immediate, [.HIF_HZTHI_ADDR]⟩
  | .HIF_ADMRBASE => ⟨.HIF, 0xa00030, [], .immediate, [.HIF_ADMRBASE_BASE]⟩
  | .HIF_ADMRPTR => ⟨.HIF, 0xa00034, [], .immediate, [.HIF_ADMRPTR_TAIL, .HIF_ADMRPTR_HEAD]⟩
  | .HIF_ADMDONE => ⟨.HIF, 0xa00038, [], .immediate, [.HIF_ADMDONE_INDEX]⟩
  | .HIF_DPCNT => ⟨.HIF, 0xa00040, [], .immediate, [.HIF_DPCNT_COUNT]⟩
  | .HIF_DIGCNT => ⟨.HIF, 0xa00044, [], .immediate, [.HIF_DIGCNT_DIGESTS]⟩
  | .HIF_LNKSTAT => ⟨.HIF, 0xa01000, [(2, 0x100)], .immediate, [.HIF_LNKSTAT_UP, .HIF_LNKSTAT_SPEED, .HIF_LNKSTAT_WIDTH]⟩
  | .HIF_NVMSTAT => ⟨.HIF, 0xa01004, [(2, 0x100)], .immediate, [.HIF_NVMSTAT_CFS, .HIF_NVMSTAT_SHST, .HIF_NVMSTAT_RDY, .HIF_NVMSTAT_EN]⟩
  | .HIF_PERR => ⟨.HIF, 0xa01008, [(2, 0x100)], .immediate, [.HIF_PERR_LINKDOWN, .HIF_PERR_UNCOR, .HIF_PERR_CORR]⟩
  | .HIF_ABCNT => ⟨.HIF, 0xa0100c, [(2, 0x100)], .immediate, [.HIF_ABCNT_NOTABORTED, .HIF_ABCNT_ABORTED]⟩
  | .SCH_CTL => ⟨.SCH, 0xb00000, [], .immediate, [.SCH_CTL_RESTART, .SCH_CTL_NOFORCE, .SCH_CTL_HOLD, .SCH_CTL_ENABLE]⟩
  | .SCH_STAT => ⟨.SCH, 0xb00004, [], .immediate, [.SCH_STAT_DRAIN, .SCH_STAT_FORCE, .SCH_STAT_PWRWAIT, .SCH_STAT_BUFWAIT, .SCH_STAT_ACWAIT, .SCH_STAT_STATE]⟩
  | .SCH_RQLO => ⟨.SCH, 0xb00008, [], .immediate, [.SCH_RQLO_FSEQ]⟩
  | .SCH_RQHI => ⟨.SCH, 0xb0000c, [], .immediate, [.SCH_RQHI_TAG, .SCH_RQHI_INTERNAL, .SCH_RQHI_GRAN]⟩
  | .SCH_RQRSPLO => ⟨.SCH, 0xb00018, [], .immediate, [.SCH_RQRSPLO_VALID, .SCH_RQRSPLO_ERR, .SCH_RQRSPLO_OVER, .SCH_RQRSPLO_HANDLE, .SCH_RQRSPLO_TAG]⟩
  | .SCH_RQRSPHI => ⟨.SCH, 0xb0001c, [], .immediate, [.SCH_RQRSPHI_BASE]⟩
  | .SCH_AGE => ⟨.SCH, 0xb00010, [], .immediate, [.SCH_AGE_INTAGE, .SCH_AGE_URGSTRICT, .SCH_AGE_LIMIT]⟩
  | .SCH_CAL => ⟨.SCH, 0xb00014, [], .immediate, [.SCH_CAL_STARVE, .SCH_CAL_MINGAP]⟩
  | .SCH_BUFLO => ⟨.SCH, 0xb00020, [], .immediate, [.SCH_BUFLO_ADDR]⟩
  | .SCH_BUFHI => ⟨.SCH, 0xb00024, [], .immediate, [.SCH_BUFHI_ADDR]⟩
  | .SCH_BUFCFG => ⟨.SCH, 0xb00028, [], .immediate, [.SCH_BUFCFG_SIZE]⟩
  | .SCH_BUFINT => ⟨.SCH, 0xb0002c, [], .immediate, [.SCH_BUFINT_INTMAX, .SCH_BUFINT_INTRSV]⟩
  | .SCH_BUFSTAT => ⟨.SCH, 0xb00030, [], .immediate, [.SCH_BUFSTAT_WAITERS, .SCH_BUFSTAT_FREE]⟩
  | .SCH_ACORN => ⟨.SCH, 0xb00034, [], .immediate, [.SCH_ACORN_GFRAC, .SCH_ACORN_LOAD]⟩
  | .SCH_PWRBUD => ⟨.SCH, 0xb00040, [], .immediate, [.SCH_PWRBUD_TOKENS, .SCH_PWRBUD_BUDGET]⟩
  | .SCH_PWRCOST => ⟨.SCH, 0xb00044, [], .immediate, [.SCH_PWRCOST_SEEKW, .SCH_PWRCOST_FOLLOWW]⟩
  | .SCH_PWRSPN => ⟨.SCH, 0xb00048, [], .immediate, [.SCH_PWRSPN_SPINW, .SCH_PWRSPN_RUNW]⟩
  | .SCH_SPNGRANT => ⟨.SCH, 0xb0004c, [], .immediate, [.SCH_SPNGRANT_SPINMA, .SCH_SPNGRANT_RUNMA]⟩
  | .SCH_SPIN => ⟨.SCH, 0xb00050, [], .immediate, [.SCH_SPIN_TARGET]⟩
  | .SCH_SOLO => ⟨.SCH, 0xb00054, [], .immediate, [.SCH_SOLO_SPINTO, .SCH_SOLO_SOLOMA]⟩
  | .SCH_PWRLVL => ⟨.SCH, 0xb00058, [], .immediate, [.SCH_PWRLVL_SEEKS, .SCH_PWRLVL_CHARGED]⟩
  | .SCH_TIMING => ⟨.SCH, 0xb00060, [], .immediate, [.SCH_TIMING_SETTLE, .SCH_TIMING_LEAD]⟩
  | .SCH_DRAMSH => ⟨.SCH, 0xb00064, [], .immediate, [.SCH_DRAMSH_BACKGROUND, .SCH_DRAMSH_FIRMWARE, .SCH_DRAMSH_HOST, .SCH_DRAMSH_MEDIA]⟩
  | .SCH_SEEKT => ⟨.SCH, 0xb00080, [(8, 0x4)], .immediate, [.SCH_SEEKT_ODD, .SCH_SEEKT_EVEN]⟩
  | .SCH_OVL => ⟨.SCH, 0xb000a0, [], .immediate, [.SCH_OVL_ENTRIES]⟩
  | .SCH_CNT => ⟨.SCH, 0xb000b0, [], .immediate, [.SCH_CNT_PROMOTED, .SCH_CNT_FORCED, .SCH_CNT_CANCELLED]⟩
  | .SCH_DLAT => ⟨.SCH, 0xb000b4, [], .immediate, [.SCH_DLAT_MAXWAIT]⟩
  | .SCH_ASTAT => ⟨.SCH, 0xb01000, [(4, 0x40)], .immediate, [.SCH_ASTAT_LASTFORCE, .SCH_ASTAT_GUIDELANE, .SCH_ASTAT_DRAIN, .SCH_ASTAT_FORCE, .SCH_ASTAT_GUIDE, .SCH_ASTAT_SEEKTOK, .SCH_ASTAT_BUSY]⟩
  | .MEM_L2CTL => ⟨.MEM, 0xc00000, [], .immediate, [.MEM_L2CTL_DISBUSY, .MEM_L2CTL_INVALID, .MEM_L2CTL_ENABLE]⟩
  | .MEM_L2MAINT => ⟨.MEM, 0xc00004, [], .immediate, [.MEM_L2MAINT_GO, .MEM_L2MAINT_OP, .MEM_L2MAINT_ALL, .MEM_L2MAINT_WAY, .MEM_L2MAINT_SET]⟩
  | .MEM_STAT => ⟨.MEM, 0xc00008, [], .immediate, [.MEM_STAT_MBUSY, .MEM_STAT_BERR, .MEM_STAT_ENREF, .MEM_STAT_CETHR, .MEM_STAT_UE, .MEM_STAT_CE]⟩
  | .MEM_ERRCNT => ⟨.MEM, 0xc0000c, [], .immediate, [.MEM_ERRCNT_UE, .MEM_ERRCNT_CE]⟩
  | .MEM_LEAK => ⟨.MEM, 0xc00010, [], .immediate, [.MEM_LEAK_THRESH, .MEM_LEAK_PERIOD]⟩
  | .MEM_BUCKET => ⟨.MEM, 0xc00014, [], .immediate, [.MEM_BUCKET_CACHE, .MEM_BUCKET_DRAM]⟩
  | .MEM_CELOGLO => ⟨.MEM, 0xc00020, [], .immediate, [.MEM_CELOGLO_ADDR]⟩
  | .MEM_UELOGLO => ⟨.MEM, 0xc00028, [], .immediate, [.MEM_UELOGLO_ADDR]⟩
  | .MEM_CELOGHI => ⟨.MEM, 0xc00024, [], .immediate, [.MEM_CELOGHI_ARRAY, .MEM_CELOGHI_REQ, .MEM_CELOGHI_ADDR]⟩
  | .MEM_UELOGHI => ⟨.MEM, 0xc0002c, [], .immediate, [.MEM_UELOGHI_ARRAY, .MEM_UELOGHI_REQ, .MEM_UELOGHI_ADDR]⟩
  | .MEM_BERRLO => ⟨.MEM, 0xc00030, [], .immediate, [.MEM_BERRLO_ADDR]⟩
  | .MEM_BERRHI => ⟨.MEM, 0xc00034, [], .immediate, [.MEM_BERRHI_MASTER, .MEM_BERRHI_ADDR]⟩
  | .MEM_FLIPCTL => ⟨.MEM, 0xc00040, [], .immediate, [.MEM_FLIPCTL_ARM, .MEM_FLIPCTL_DONE, .MEM_FLIPCTL_TARGET]⟩
  | .MEM_FLIPADDRLO => ⟨.MEM, 0xc00044, [], .immediate, [.MEM_FLIPADDRLO_ADDR]⟩
  | .MEM_FLIPADDRHI => ⟨.MEM, 0xc00048, [], .immediate, [.MEM_FLIPADDRHI_ADDR]⟩
  | .MEM_FLIPMASK => ⟨.MEM, 0xc0004c, [], .immediate, [.MEM_FLIPMASK_DBIT1, .MEM_FLIPMASK_DB1EN, .MEM_FLIPMASK_DBIT0, .MEM_FLIPMASK_MASK]⟩
  | .MEM_SCRUB => ⟨.MEM, 0xc00050, [], .immediate, [.MEM_SCRUB_EN, .MEM_SCRUB_PERIOD]⟩
  | .MEM_SCRUBSTAT => ⟨.MEM, 0xc00054, [], .immediate, [.MEM_SCRUBSTAT_PASSES, .MEM_SCRUBSTAT_PROGRESS]⟩
  | .MEM_DRCFG => ⟨.MEM, 0xc00060, [], .immediate, [.MEM_DRCFG_INIT, .MEM_DRCFG_RAW, .MEM_DRCFG_RATE]⟩
  | .MEM_DRSTAT => ⟨.MEM, 0xc00064, [], .immediate, [.MEM_DRSTAT_CAP, .MEM_DRSTAT_SELFREF, .MEM_DRSTAT_TRAINFAIL, .MEM_DRSTAT_READY]⟩
  | .MEM_L1CTL => ⟨.MEM, 0xc00100, [(8, 0x4)], .immediate, [.MEM_L1CTL_INVDONE, .MEM_L1CTL_INV, .MEM_L1CTL_DEN, .MEM_L1CTL_IEN]⟩
  | .MEM_RGBASE => ⟨.MEM, 0xc00200, [(16, 0x10)], .immediate, [.MEM_RGBASE_ADDR]⟩
  | .MEM_RGLIMIT => ⟨.MEM, 0xc00204, [(16, 0x10)], .immediate, [.MEM_RGLIMIT_ADDR]⟩
  | .MEM_RGATTR => ⟨.MEM, 0xc00208, [(16, 0x10)], .immediate, [.MEM_RGATTR_L2POL, .MEM_RGATTR_L1, .MEM_RGATTR_EN]⟩
  | .DMA_CTL => ⟨.DMA, 0xc80000, [], .immediate, [.DMA_CTL_ENABLE]⟩
  | .DMA_STAT => ⟨.DMA, 0xc80004, [], .immediate, [.DMA_STAT_BERR, .DMA_STAT_HALTED, .DMA_STAT_CHAN, .DMA_STAT_STGUSE]⟩
  | .DMA_CFG => ⟨.DMA, 0xc80008, [], .immediate, [.DMA_CFG_MAXSTG]⟩
  | .DMA_IRQ0 => ⟨.DMA, 0xc80010, [], .immediate, [.DMA_IRQ0_PEND]⟩
  | .DMA_IRQ1 => ⟨.DMA, 0xc80014, [], .immediate, [.DMA_IRQ1_PEND]⟩
  | .DMA_BERRLO => ⟨.DMA, 0xc80018, [], .immediate, [.DMA_BERRLO_ADDR]⟩
  | .DMA_BERRHI => ⟨.DMA, 0xc8001c, [], .immediate, [.DMA_BERRHI_SIDE, .DMA_BERRHI_ADDR]⟩
  | .DMA_CCTL => ⟨.DMA, 0xc81000, [(64, 0x40)], .immediate, [.DMA_CCTL_RESUME, .DMA_CCTL_STOP, .DMA_CCTL_START]⟩
  | .DMA_CCFG => ⟨.DMA, 0xc81004, [(64, 0x40)], .immediate, [.DMA_CCFG_IEERR, .DMA_CCFG_IEFULL, .DMA_CCFG_IEHALF, .DMA_CCFG_IEDONE, .DMA_CCFG_BLK, .DMA_CCFG_PSEL, .DMA_CCFG_PACE, .DMA_CCFG_PRIO, .DMA_CCFG_MODE]⟩
  | .DMA_CDESCLO => ⟨.DMA, 0xc81008, [(64, 0x40)], .immediate, [.DMA_CDESCLO_ADDR]⟩
  | .DMA_CDESCHI => ⟨.DMA, 0xc8100c, [(64, 0x40)], .immediate, [.DMA_CDESCHI_ADDR]⟩
  | .DMA_CCURLO => ⟨.DMA, 0xc81010, [(64, 0x40)], .immediate, [.DMA_CCURLO_ADDR]⟩
  | .DMA_CCURHI => ⟨.DMA, 0xc81014, [(64, 0x40)], .immediate, [.DMA_CCURHI_ADDR]⟩
  | .DMA_CREMAIN => ⟨.DMA, 0xc81018, [(64, 0x40)], .immediate, [.DMA_CREMAIN_BYTES]⟩
  | .DMA_CSTAT => ⟨.DMA, 0xc81020, [(64, 0x40)], .immediate, [.DMA_CSTAT_STOPPED, .DMA_CSTAT_DESCERR, .DMA_CSTAT_CFGIGN, .DMA_CSTAT_PACEOVR, .DMA_CSTAT_OVERRUN, .DMA_CSTAT_ERR, .DMA_CSTAT_FULL, .DMA_CSTAT_HALF, .DMA_CSTAT_DONE, .DMA_CSTAT_STATE]⟩
  | .CHK_CTL => ⟨.CHK, 0xd00000, [], .immediate, [.CHK_CTL_ENABLE]⟩
  | .CHK_STAT => ⟨.CHK, 0xd00004, [], .immediate, [.CHK_STAT_CLAIMREF, .CHK_STAT_SWERR, .CHK_STAT_ROLE, .CHK_STAT_FAIL]⟩
  | .CHK_CNT => ⟨.CHK, 0xd00008, [], .immediate, [.CHK_CNT_FAIL, .CHK_CNT_GEN1]⟩
  | .CHK_STBASE => ⟨.CHK, 0xd00010, [], .immediate, [.CHK_STBASE_BASE]⟩
  | .CHK_FAILLO => ⟨.CHK, 0xd00018, [], .immediate, [.CHK_FAILLO_PSA]⟩
  | .CHK_FAILHI => ⟨.CHK, 0xd0001c, [], .immediate, [.CHK_FAILHI_PSA]⟩
  | .CHK_SWOWN => ⟨.CHK, 0xd00040, [], .immediate, [.CHK_SWOWN_CLAIM, .CHK_SWOWN_OWNED, .CHK_SWOWN_OWNER]⟩
  | .CHK_SWCTL => ⟨.CHK, 0xd00044, [], .immediate, [.CHK_SWCTL_GO, .CHK_SWCTL_ALG]⟩
  | .CHK_SWSTAT => ⟨.CHK, 0xd00048, [], .immediate, [.CHK_SWSTAT_BUSY, .CHK_SWSTAT_DONE, .CHK_SWSTAT_ERR]⟩
  | .CHK_SWSRCLO => ⟨.CHK, 0xd00050, [], .immediate, [.CHK_SWSRCLO_SRC]⟩
  | .CHK_SWSRCHI => ⟨.CHK, 0xd00054, [], .immediate, [.CHK_SWSRCHI_SRC]⟩
  | .CHK_SWLEN => ⟨.CHK, 0xd00058, [], .immediate, [.CHK_SWLEN_LEN]⟩
  | .CHK_SWSEEDLO => ⟨.CHK, 0xd00060, [], .immediate, [.CHK_SWSEEDLO_SEED]⟩
  | .CHK_SWSEEDHI => ⟨.CHK, 0xd00064, [], .immediate, [.CHK_SWSEEDHI_FOLD, .CHK_SWSEEDHI_SEED]⟩
  | .CHK_SWRESLO => ⟨.CHK, 0xd00068, [], .immediate, [.CHK_SWRESLO_RES]⟩
  | .CHK_SWRESHI => ⟨.CHK, 0xd0006c, [], .immediate, [.CHK_SWRESHI_RES]⟩
  | .CMP_CTL => ⟨.CMP, 0xd80000, [], .immediate, [.CMP_CTL_ENABLE]⟩
  | .CMP_STAT => ⟨.CMP, 0xd80004, [], .immediate, [.CMP_STAT_QUEUED, .CMP_STAT_RUNNING, .CMP_STAT_MEMERR, .CMP_STAT_QFULL]⟩
  | .CMP_SUBLO => ⟨.CMP, 0xd80008, [], .immediate, [.CMP_SUBLO_ADDR]⟩
  | .CMP_SUBHI => ⟨.CMP, 0xd8000c, [], .immediate, [.CMP_SUBHI_ADDR]⟩
  | .CMP_DIRLO => ⟨.CMP, 0xd80010, [], .immediate, [.CMP_DIRLO_ADDR]⟩
  | .CMP_DIRHI => ⟨.CMP, 0xd80014, [], .immediate, [.CMP_DIRHI_ADDR]⟩
  | .CMP_MAPLO => ⟨.CMP, 0xd80020, [], .immediate, [.CMP_MAPLO_ADDR]⟩
  | .CMP_MAPHI => ⟨.CMP, 0xd80024, [], .immediate, [.CMP_MAPHI_ADDR]⟩
  | .CMP_DIRCNT => ⟨.CMP, 0xd80018, [], .immediate, [.CMP_DIRCNT_COUNT]⟩
  | .CMP_SLOTS => ⟨.CMP, 0xd80028, [], .immediate, [.CMP_SLOTS_COUNT]⟩
  | .CMP_CNT => ⟨.CMP, 0xd80030, [], .immediate, [.CMP_CNT_RAW, .CMP_CNT_JOBS]⟩
  | .CMP_FAILCNT => ⟨.CMP, 0xd80034, [], .immediate, [.CMP_FAILCNT_OUTFULL, .CMP_FAILCNT_FORMAT, .CMP_FAILCNT_LENGTH, .CMP_FAILCNT_HEADER]⟩
  | .CMP_DONE => ⟨.CMP, 0xd80038, [], .immediate, [.CMP_DONE_DONE]⟩
  | .HLT_CTL => ⟨.HLT, 0xe00000, [], .immediate, [.HLT_CTL_NOWAKE, .HLT_CTL_WEEVIL, .HLT_CTL_AVS, .HLT_CTL_ENABLE]⟩
  | .HLT_STAT => ⟨.HLT, 0xe00004, [], .immediate, [.HLT_STAT_AVSFAIL, .HLT_STAT_HLTSTALL, .HLT_STAT_WSFULL, .HLT_STAT_SILICON, .HLT_STAT_JWAIT, .HLT_STAT_SAVED, .HLT_STAT_SAVING, .HLT_STAT_READY]⟩
  | .HLT_POH => ⟨.HLT, 0xe00008, [], .immediate, [.HLT_POH_HOURS]⟩
  | .HLT_LEDGERLO => ⟨.HLT, 0xe00010, [], .immediate, [.HLT_LEDGERLO_ADDR]⟩
  | .HLT_LEDGERHI => ⟨.HLT, 0xe00014, [], .immediate, [.HLT_LEDGERHI_NSURF, .HLT_LEDGERHI_ADDR]⟩
  | .HLT_WSBASE => ⟨.HLT, 0xe00018, [], .immediate, [.HLT_WSBASE_BASE]⟩
  | .HLT_WSCFG => ⟨.HLT, 0xe0001c, [], .immediate, [.HLT_WSCFG_FLUSH, .HLT_WSCFG_COUNT]⟩
  | .HLT_MIRROR => ⟨.HLT, 0xe00020, [], .immediate, [.HLT_MIRROR_ZONE, .HLT_MIRROR_JSECT]⟩
  | .HLT_JRNL => ⟨.HLT, 0xe00024, [], .immediate, [.HLT_JRNL_CKPT, .HLT_JRNL_MAXOPEN, .HLT_JRNL_MAXADV, .HLT_JRNL_TMO, .HLT_JRNL_SPAN]⟩
  | .HLT_RWLO => ⟨.HLT, 0xe00030, [], .immediate, [.HLT_RWLO_SURF, .HLT_RWLO_RESET, .HLT_RWLO_TRACK]⟩
  | .HLT_RWHI => ⟨.HLT, 0xe00034, [], .immediate, [.HLT_RWHI_TAG]⟩
  | .HLT_RWRSPLO => ⟨.HLT, 0xe00038, [], .immediate, [.HLT_RWRSPLO_VALID, .HLT_RWRSPLO_ERR, .HLT_RWRSPLO_OVER, .HLT_RWRSPLO_TAG]⟩
  | .HLT_RWRSPHI => ⟨.HLT, 0xe0003c, [], .immediate, [.HLT_RWRSPHI_WORD0]⟩
  | .HLT_WQBASE => ⟨.HLT, 0xe00040, [], .immediate, [.HLT_WQBASE_BASE]⟩
  | .HLT_WQPTR => ⟨.HLT, 0xe00044, [], .immediate, [.HLT_WQPTR_TAIL, .HLT_WQPTR_HEAD]⟩
  | .HLT_WQACK => ⟨.HLT, 0xe00048, [], .immediate, [.HLT_WQACK_RESULT, .HLT_WQACK_SEQ]⟩
  | .HLT_MCOEF => ⟨.HLT, 0xe00050, [], .immediate, [.HLT_MCOEF_BASE, .HLT_MCOEF_KI, .HLT_MCOEF_CSH, .HLT_MCOEF_ESH, .HLT_MCOEF_W, .HLT_MCOEF_LSH]⟩
  | .HLT_MLIM => ⟨.HLT, 0xe00054, [], .immediate, [.HLT_MLIM_PATROL, .HLT_MLIM_REFRESH, .HLT_MLIM_FLOOR, .HLT_MLIM_TRIMLOW]⟩
  | .HLT_INTF => ⟨.HLT, 0xe00058, [], .immediate, [.HLT_INTF_LIMIT, .HLT_INTF_W1, .HLT_INTF_W2, .HLT_INTF_W3]⟩
  | .HLT_WEEVIL => ⟨.HLT, 0xe00060, [], .immediate, [.HLT_WEEVIL_PERIOD, .HLT_WEEVIL_GRACE, .HLT_WEEVIL_MINGAP, .HLT_WEEVIL_INFLIGHT]⟩
  | .HLT_TRIM => ⟨.HLT, 0xe00064, [], .immediate, [.HLT_TRIM_WCMAG, .HLT_TRIM_MAX, .HLT_TRIM_STEP]⟩
  | .HLT_CAL => ⟨.HLT, 0xe00068, [], .immediate, [.HLT_CAL_PERIOD, .HLT_CAL_REVS, .HLT_CAL_DTEMP, .HLT_CAL_DROP]⟩
  | .HLT_AVS => ⟨.HLT, 0xe00070, [], .immediate, [.HLT_AVS_GUARD, .HLT_AVS_HYST, .HLT_AVS_VMAX, .HLT_AVS_VMIN]⟩
  | .HLT_AVSSTAT => ⟨.HLT, 0xe00074, [], .immediate, [.HLT_AVSSTAT_VCODE, .HLT_AVSSTAT_MCCLK, .HLT_AVSSTAT_WSLACK]⟩
  | .HLT_PLAN => ⟨.HLT, 0xe00080, [], .immediate, [.HLT_PLAN_HORIZON, .HLT_PLAN_SPARETH]⟩
  | .HLT_PROJ => ⟨.HLT, 0xe00084, [], .immediate, [.HLT_PROJ_HOURS]⟩
  | .HLT_REPL => ⟨.HLT, 0xe00088, [], .immediate, [.HLT_REPL_REPLACE, .HLT_REPL_SOURCE, .HLT_REPL_AVAIL, .HLT_REPL_PCTUSED, .HLT_REPL_TRIG]⟩
  | .HLT_TEMP => ⟨.HLT, 0xe0008c, [], .immediate, [.HLT_TEMP_MAX, .HLT_TEMP_MIN]⟩
  | .HLT_CNT => ⟨.HLT, 0xe00090, [], .immediate, [.HLT_CNT_PATROLS, .HLT_CNT_REFRESH, .HLT_CNT_CKPT]⟩
  | .FLT_CTL => ⟨.FLT, 0x20000, [], .immediate, [.FLT_CTL_LOCK, .FLT_CTL_RELEASE]⟩
  | .FLT_STAT => ⟨.FLT, 0x20004, [], .immediate, [.FLT_STAT_SAFE, .FLT_STAT_SAFEACT, .FLT_STAT_HOLD, .FLT_STAT_CRKRUN, .FLT_STAT_RELREF, .FLT_STAT_LOCKREF, .FLT_STAT_ANYPEND, .FLT_STAT_TOPSEV]⟩
  | .FLT_CFG => ⟨.FLT, 0x20008, [], .immediate, [.FLT_CFG_CRKSEV, .FLT_CFG_RECTMO, .FLT_CFG_RLREFILL]⟩
  | .FLT_PEND0 => ⟨.FLT, 0x20010, [], .immediate, [.FLT_PEND0_PEND]⟩
  | .FLT_PEND1 => ⟨.FLT, 0x20014, [], .immediate, [.FLT_PEND1_PEND]⟩
  | .FLT_FORCE0 => ⟨.FLT, 0x20018, [], .immediate, [.FLT_FORCE0_FORCE]⟩
  | .FLT_FORCE1 => ⟨.FLT, 0x2001c, [], .immediate, [.FLT_FORCE1_FORCE]⟩
  | .FLT_LAST => ⟨.FLT, 0x20020, [], .immediate, [.FLT_LAST_INST, .FLT_LAST_SOURCE, .FLT_LAST_SEV, .FLT_LAST_ESC, .FLT_LAST_FORCED]⟩
  | .FLT_RAISES => ⟨.FLT, 0x20024, [], .immediate, [.FLT_RAISES_COUNT]⟩
  | .FLT_TEMP => ⟨.FLT, 0x20030, [], .immediate, [.FLT_TEMP_CRIT, .FLT_TEMP_HOT]⟩
  | .FLT_WDCTL => ⟨.FLT, 0x20100, [(8, 0x10)], .immediate, [.FLT_WDCTL_EN, .FLT_WDCTL_ACT, .FLT_WDCTL_PERIOD]⟩
  | .FLT_WDKICK => ⟨.FLT, 0x20104, [(8, 0x10)], .immediate, [.FLT_WDKICK_KEY]⟩
  | .FLT_WDSTAT => ⟨.FLT, 0x20108, [(8, 0x10)], .immediate, [.FLT_WDSTAT_EXPIRIES, .FLT_WDSTAT_WRONG, .FLT_WDSTAT_EXPIRED, .FLT_WDSTAT_REMAIN]⟩
  | .FLT_SRCCFG => ⟨.FLT, 0x20200, [(41, 0x8)], .immediate, [.FLT_SRCCFG_BURST, .FLT_SRCCFG_NOESC, .FLT_SRCCFG_SEV]⟩
  | .FLT_SRCSTAT => ⟨.FLT, 0x20204, [(41, 0x8)], .immediate, [.FLT_SRCSTAT_COUNT, .FLT_SRCSTAT_INST, .FLT_SRCSTAT_PEND, .FLT_SRCSTAT_ESC, .FLT_SRCSTAT_EFFSEV]⟩
  | .EVT_CTL => ⟨.EVT, 0x30000, [], .immediate, [.EVT_CTL_FLUSH, .EVT_CTL_NORLOG]⟩
  | .EVT_STAT => ⟨.EVT, 0x30004, [], .immediate, [.EVT_STAT_LOST, .EVT_STAT_BADCODE, .EVT_STAT_NORERR, .EVT_STAT_SAVED, .EVT_STAT_PFFLUSH, .EVT_STAT_UNFL]⟩
  | .EVT_CFG => ⟨.EVT, 0x30008, [], .immediate, [.EVT_CFG_FLUSHSEV, .EVT_CFG_PAGETMO]⟩
  | .EVT_SEQ => ⟨.EVT, 0x3000c, [], .immediate, [.EVT_SEQ_NEXT]⟩
  | .EVT_CNT => ⟨.EVT, 0x30010, [], .immediate, [.EVT_CNT_SUPPRESSED, .EVT_CNT_LOST]⟩
  | .EVT_NEWEST => ⟨.EVT, 0x30014, [], .immediate, [.EVT_NEWEST_VALID, .EVT_NEWEST_INDEX]⟩
  | .EVT_NORBASE => ⟨.EVT, 0x30020, [], .immediate, [.EVT_NORBASE_VALUE]⟩
  | .EVT_NORSIZE => ⟨.EVT, 0x30024, [], .immediate, [.EVT_NORSIZE_VALUE]⟩
  | .EVT_NORWP => ⟨.EVT, 0x30028, [], .immediate, [.EVT_NORWP_OFFSET]⟩
  | .EVT_NORERASED => ⟨.EVT, 0x3002c, [], .immediate, [.EVT_NORERASED_BYTES]⟩
  | .EVT_RLDEF => ⟨.EVT, 0x30040, [], .immediate, [.EVT_RLDEF_BURST, .EVT_RLDEF_REFILL]⟩
  | .EVT_SWDATA0 => ⟨.EVT, 0x30050, [], .immediate, [.EVT_SWDATA0_DATA]⟩
  | .EVT_SWDATA1 => ⟨.EVT, 0x30054, [], .immediate, [.EVT_SWDATA1_DATA]⟩
  | .EVT_SWDATA2 => ⟨.EVT, 0x30058, [], .immediate, [.EVT_SWDATA2_DATA]⟩
  | .EVT_SWCODE => ⟨.EVT, 0x3005c, [], .immediate, [.EVT_SWCODE_INST, .EVT_SWCODE_CODE]⟩
  | .EVT_RLMATCH => ⟨.EVT, 0x30100, [(32, 0x8)], .immediate, [.EVT_RLMATCH_MASK, .EVT_RLMATCH_CODE]⟩
  | .EVT_RLLIM => ⟨.EVT, 0x30104, [(32, 0x8)], .immediate, [.EVT_RLLIM_EN, .EVT_RLLIM_TOKENS, .EVT_RLLIM_BURST, .EVT_RLLIM_REFILL]⟩
  | .CFG_STAT => ⟨.CFG, 0x10000, [], .immediate, [.CFG_STAT_RESTERR, .CFG_STAT_RESTORED, .CFG_STAT_TRIAL, .CFG_STAT_SRVERR, .CFG_STAT_NSERR, .CFG_STAT_LAYERR, .CFG_STAT_ZONEERR, .CFG_STAT_MAPFIX, .CFG_STAT_STATE]⟩
  | .CFG_SLOT => ⟨.CFG, 0x10004, [], .immediate, [.CFG_SLOT_SVN, .CFG_SLOT_ATTEMPTS, .CFG_SLOT_ACTIVE, .CFG_SLOT_BOOTED]⟩
  | .CFG_ERR => ⟨.CFG, 0x10008, [], .immediate, [.CFG_ERR_SLOT, .CFG_ERR_SECTION, .CFG_ERR_CAUSE]⟩
  | .CFG_LOADTIME => ⟨.CFG, 0x1000c, [], .immediate, [.CFG_LOADTIME_US]⟩
  | .CFG_RESTORE => ⟨.CFG, 0x10010, [], .immediate, [.CFG_RESTORE_DONE]⟩
  | .CFG_FUSE => ⟨.CFG, 0x10014, [], .immediate, [.CFG_FUSE_MINSVN, .CFG_FUSE_REVOKE0]⟩
  | .CFG_NORINFO => ⟨.CFG, 0x10020, [], .immediate, [.CFG_NORINFO_DENSITY, .CFG_NORINFO_DIV, .CFG_NORINFO_SUSP, .CFG_NORINFO_QUAD]⟩
  | .CFG_NORCMD => ⟨.CFG, 0x10030, [], .immediate, [.CFG_NORCMD_GO, .CFG_NORCMD_OP, .CFG_NORCMD_LEN]⟩
  | .CFG_NORADDR => ⟨.CFG, 0x10034, [], .immediate, [.CFG_NORADDR_ADDR]⟩
  | .CFG_NORBUFLO => ⟨.CFG, 0x10038, [], .immediate, [.CFG_NORBUFLO_ADDR]⟩
  | .CFG_NORBUFHI => ⟨.CFG, 0x1003c, [], .immediate, [.CFG_NORBUFHI_ADDR]⟩
  | .CFG_NORSTAT => ⟨.CFG, 0x10040, [], .immediate, [.CFG_NORSTAT_DONE, .CFG_NORSTAT_ERR, .CFG_NORSTAT_PROT, .CFG_NORSTAT_BUSY, .CFG_NORSTAT_SUSPENDED]⟩
  | .SVC_CFG => ⟨.SVC, 0xf00000, [], .immediate, [.SVC_CFG_FUSE, .SVC_CFG_MODE]⟩
  | .SVC_STAT => ⟨.SVC, 0xf00004, [], .immediate, [.SVC_STAT_LASTERR, .SVC_STAT_HS, .SVC_STAT_STATE]⟩
  | .SVC_USBID => ⟨.SVC, 0xf00008, [], .immediate, [.SVC_USBID_PID, .SVC_USBID_VID]⟩
  | .SVC_MADDRLO => ⟨.SVC, 0xf00010, [], .immediate, [.SVC_MADDRLO_ADDR]⟩
  | .SVC_MADDRHI => ⟨.SVC, 0xf00014, [], .immediate, [.SVC_MADDRHI_ADDR]⟩
  | .SVC_CNT => ⟨.SVC, 0xf00018, [], .immediate, [.SVC_CNT_RESETS, .SVC_CNT_ABANDON, .SVC_CNT_STALLS, .SVC_CNT_COMMITS]⟩
  | .RCK_CTL => ⟨.RCK, 0xf80000, [], .immediate, [.RCK_CTL_RESTART, .RCK_CTL_MANREC, .RCK_CTL_ENABLE]⟩
  | .RCK_CFG => ⟨.RCK, 0xf80004, [], .immediate, [.RCK_CFG_NODE]⟩
  | .RCK_STAT => ⟨.RCK, 0xf80008, [], .immediate, [.RCK_STAT_DUPID, .RCK_STAT_ALERTIN, .RCK_STAT_ALERTOUT, .RCK_STAT_MASTER, .RCK_STAT_STEWARD, .RCK_STAT_BUSOFF, .RCK_STAT_PASSIVE, .RCK_STAT_SOLO, .RCK_STAT_HOLDING, .RCK_STAT_WAITING]⟩
  | .RCK_ERR => ⟨.RCK, 0xf8000c, [], .immediate, [.RCK_ERR_BUSOFFS, .RCK_ERR_REC, .RCK_ERR_TEC]⟩
  | .RCK_BITTIME => ⟨.RCK, 0xf80010, [], .immediate, [.RCK_BITTIME_TDCO, .RCK_BITTIME_DSJW, .RCK_BITTIME_DSP, .RCK_BITTIME_ASJW, .RCK_BITTIME_ASP]⟩
  | .RCK_TOK => ⟨.RCK, 0xf80014, [], .immediate, [.RCK_TOK_POOL]⟩
  | .RCK_TOKSTAT => ⟨.RCK, 0xf80018, [], .immediate, [.RCK_TOKSTAT_SEQ, .RCK_TOKSTAT_QUEUE, .RCK_TOKSTAT_HELD]⟩
  | .RCK_SOLO => ⟨.RCK, 0xf8001c, [], .immediate, [.RCK_SOLO_REMAIN, .RCK_SOLO_DELAY]⟩
  | .RCK_ROLES => ⟨.RCK, 0xf80020, [], .immediate, [.RCK_ROLES_HEARD, .RCK_ROLES_MASTER, .RCK_ROLES_STEWARD]⟩
  | .RCK_CNT => ⟨.RCK, 0xf80024, [], .immediate, [.RCK_CNT_TXDROP, .RCK_CNT_FOREIGN, .RCK_CNT_MARKERS, .RCK_CNT_BEACONS]⟩

/-- The registers of a block window. -/
def Block.regs : Block → List Reg
  | .SYS => [.SYS_ID, .SYS_STEP, .SYS_CAP, .SYS_STAT, .SYS_CLKSTAT, .SYS_RSTCTL, .SYS_RSTCAUSE, .SYS_CONFLICT, .SYS_CONFLICT_ADDR, .SYS_PEND, .SYS_BAR2CTL]
  | .ANG => [.ANG_CTL, .ANG_GEOM, .ANG_STAT, .ANG_LOSS, .ANG_LO, .ANG_HI, .ANG_TSLO, .ANG_TSHI, .ANG_PERIOD, .ANG_LOOP, .ANG_TOL, .ANG_REFCTL, .ANG_REFSTAT, .ANG_REFERR, .ANG_REFOFF, .ANG_PEND, .ANG_SOFF, .ANG_RRO, .ANG_HOFF, .ANG_HSKEW, .ANG_SCKRATE, .ANG_WCKRATE, .ANG_SCKPHASE, .ANG_WCKPHASE, .ANG_SCKSTAT, .ANG_WCKSTAT, .ANG_CMPCTL, .ANG_CMPTGTLO, .ANG_CMPTGTHI, .ANG_CMPSTAT]
  | .LNX => [.LNX_CTL, .LNX_STAT, .LNX_PEND0, .LNX_PEND1, .LNX_ROUTE]
  | .LANE => [.LANE_CTL, .LANE_STAT, .LANE_OVRCNT, .LANE_PEND, .LANE_AFE, .LANE_AGC, .LANE_GAIN, .LANE_TLOOP, .LANE_TPHASE, .LANE_MODE, .LANE_FIR, .LANE_FIRCFG, .LANE_TARGET, .LANE_CAL]
  | .RDI => [.RDI_CTL, .RDI_STAT]
  | .ITB => [.ITB_CTL, .ITB_STAT, .ITB_POOL, .ITB_POOLLVL, .ITB_LIMIT, .ITB_PROFBASE, .ITB_CODEBASE, .ITB_GUARLO, .ITB_GUARHI, .ITB_BORRLO, .ITB_BORRHI, .ITB_FAILCNT, .ITB_FAILCNT2, .ITB_PEND, .ITB_ENGCTL, .ITB_ENGSTAT]
  | .TPE => [.TPE_CTL, .TPE_STAT, .TPE_ZONEBASE, .TPE_ZONECNT, .TPE_LAYBASE, .TPE_LAYCNT, .TPE_DEFBMP, .TPE_DEFLO, .TPE_DEFHI, .TPE_DEFMAX, .TPE_DEFCNT, .TPE_RECON]
  | .FSQ => [.FSQ_CTL, .FSQ_STAT, .FSQ_PC, .FSQ_JOB, .FSQ_JSTARTLO, .FSQ_JSTARTHI, .FSQ_ZGEOM, .FSQ_ZU, .FSQ_ENTRY, .FSQ_CNT, .FSQ_CMPSTAT, .FSQ_POS, .FSQ_STAMPLO, .FSQ_STAMPHI, .FSQ_STAMPPOS, .FSQ_ABNCNT, .FSQ_CFG, .FSQ_PEND, .FSQ_CSCTL, .FSQ_CSSTAT]
  | .WRF => [.WRF_CTL, .WRF_STAT, .WRF_VCRIT, .WRF_VCRIT2, .WRF_RETRY, .WRF_HWEN, .WRF_VCNT, .WRF_MDEXPLO, .WRF_MDEXPHI, .WRF_MDOBSLO, .WRF_MDOBSHI, .WRF_PEND, .WRF_GUARD, .WRF_SHKLIM, .WRF_ONTRK, .WRF_GSTAT, .WRF_SSTAT, .WRF_PRECOMP, .WRF_SVCNT]
  | .SRV => [.SRV_CTL, .SRV_STAT, .SRV_CAL, .SRV_VTGT, .SRV_VPOS, .SRV_VCMCMD, .SRV_VCMOUT, .SRV_TIMING, .SRV_SFMT, .SRV_SAMPAT, .SRV_SETTLE, .SRV_MACFG, .SRV_RUN, .SRV_RANGE0, .SRV_RANGE1, .SRV_VCMLIM, .SRV_RVFF, .SRV_RVFIR, .SRV_CONTACT, .SRV_RETRACT, .SRV_TIMEOUT, .SRV_CNT, .SRV_PEND, .SRV_HCTL, .SRV_HSTAT, .SRV_HTGT, .SRV_XOFF, .SRV_MA, .SRV_HPRED, .SRV_SMP0, .SRV_SMP1, .SRV_SMP2, .SRV_SMP3]
  | .ARM => [.ARM_CTL, .ARM_STAT, .ARM_ERR, .ARM_WSTAT, .ARM_HCFG, .ARM_REGCMD, .ARM_REGRSP, .ARM_CONTACT, .ARM_HTR]
  | .SPN => [.SPN_CTL, .SPN_STAT, .SPN_SPEED, .SPN_MEAS, .SPN_MOTOR, .SPN_PWM, .SPN_ILIM, .SPN_GRANT, .SPN_HFI, .SPN_BEMF, .SPN_REG, .SPN_PFAIL, .SPN_PFCFG, .SPN_PFSTAT, .SPN_PHLOCK, .SPN_PHERR, .SPN_PEND, .SPN_PADV]
  | .MAC => [.MAC_CTL, .MAC_PEND, .MAC_CHCFG, .MAC_CHSYNC, .MAC_CHDATA, .MAC_CHSTAT]
  | .VE => [.VE_STAT, .VE_ECTL, .VE_ESTAT, .VE_EPC, .VE_ETRIG, .VE_ECFG, .VE_ETIMER, .VE_EQSTAT, .VE_ECNT, .VE_ECNT2, .VE_MBOXLO, .VE_MBOXHI, .VE_CSCTL, .VE_CSSTAT, .VE_GLO, .VE_GHI]
  | .HIF => [.HIF_CTL, .HIF_PORTCFG, .HIF_STAT, .HIF_INFLIGHT, .HIF_PEAK, .HIF_FSEQ, .HIF_CMDBASE, .HIF_NSTBASE, .HIF_HZTLO, .HIF_HZTHI, .HIF_ADMRBASE, .HIF_ADMRPTR, .HIF_ADMDONE, .HIF_DPCNT, .HIF_DIGCNT, .HIF_LNKSTAT, .HIF_NVMSTAT, .HIF_PERR, .HIF_ABCNT]
  | .SCH => [.SCH_CTL, .SCH_STAT, .SCH_RQLO, .SCH_RQHI, .SCH_RQRSPLO, .SCH_RQRSPHI, .SCH_AGE, .SCH_CAL, .SCH_BUFLO, .SCH_BUFHI, .SCH_BUFCFG, .SCH_BUFINT, .SCH_BUFSTAT, .SCH_ACORN, .SCH_PWRBUD, .SCH_PWRCOST, .SCH_PWRSPN, .SCH_SPNGRANT, .SCH_SPIN, .SCH_SOLO, .SCH_PWRLVL, .SCH_TIMING, .SCH_DRAMSH, .SCH_SEEKT, .SCH_OVL, .SCH_CNT, .SCH_DLAT, .SCH_ASTAT]
  | .MEM => [.MEM_L2CTL, .MEM_L2MAINT, .MEM_STAT, .MEM_ERRCNT, .MEM_LEAK, .MEM_BUCKET, .MEM_CELOGLO, .MEM_UELOGLO, .MEM_CELOGHI, .MEM_UELOGHI, .MEM_BERRLO, .MEM_BERRHI, .MEM_FLIPCTL, .MEM_FLIPADDRLO, .MEM_FLIPADDRHI, .MEM_FLIPMASK, .MEM_SCRUB, .MEM_SCRUBSTAT, .MEM_DRCFG, .MEM_DRSTAT, .MEM_L1CTL, .MEM_RGBASE, .MEM_RGLIMIT, .MEM_RGATTR]
  | .DMA => [.DMA_CTL, .DMA_STAT, .DMA_CFG, .DMA_IRQ0, .DMA_IRQ1, .DMA_BERRLO, .DMA_BERRHI, .DMA_CCTL, .DMA_CCFG, .DMA_CDESCLO, .DMA_CDESCHI, .DMA_CCURLO, .DMA_CCURHI, .DMA_CREMAIN, .DMA_CSTAT]
  | .CHK => [.CHK_CTL, .CHK_STAT, .CHK_CNT, .CHK_STBASE, .CHK_FAILLO, .CHK_FAILHI, .CHK_SWOWN, .CHK_SWCTL, .CHK_SWSTAT, .CHK_SWSRCLO, .CHK_SWSRCHI, .CHK_SWLEN, .CHK_SWSEEDLO, .CHK_SWSEEDHI, .CHK_SWRESLO, .CHK_SWRESHI]
  | .CMP => [.CMP_CTL, .CMP_STAT, .CMP_SUBLO, .CMP_SUBHI, .CMP_DIRLO, .CMP_DIRHI, .CMP_MAPLO, .CMP_MAPHI, .CMP_DIRCNT, .CMP_SLOTS, .CMP_CNT, .CMP_FAILCNT, .CMP_DONE]
  | .HLT => [.HLT_CTL, .HLT_STAT, .HLT_POH, .HLT_LEDGERLO, .HLT_LEDGERHI, .HLT_WSBASE, .HLT_WSCFG, .HLT_MIRROR, .HLT_JRNL, .HLT_RWLO, .HLT_RWHI, .HLT_RWRSPLO, .HLT_RWRSPHI, .HLT_WQBASE, .HLT_WQPTR, .HLT_WQACK, .HLT_MCOEF, .HLT_MLIM, .HLT_INTF, .HLT_WEEVIL, .HLT_TRIM, .HLT_CAL, .HLT_AVS, .HLT_AVSSTAT, .HLT_PLAN, .HLT_PROJ, .HLT_REPL, .HLT_TEMP, .HLT_CNT]
  | .FLT => [.FLT_CTL, .FLT_STAT, .FLT_CFG, .FLT_PEND0, .FLT_PEND1, .FLT_FORCE0, .FLT_FORCE1, .FLT_LAST, .FLT_RAISES, .FLT_TEMP, .FLT_WDCTL, .FLT_WDKICK, .FLT_WDSTAT, .FLT_SRCCFG, .FLT_SRCSTAT]
  | .EVT => [.EVT_CTL, .EVT_STAT, .EVT_CFG, .EVT_SEQ, .EVT_CNT, .EVT_NEWEST, .EVT_NORBASE, .EVT_NORSIZE, .EVT_NORWP, .EVT_NORERASED, .EVT_RLDEF, .EVT_SWDATA0, .EVT_SWDATA1, .EVT_SWDATA2, .EVT_SWCODE, .EVT_RLMATCH, .EVT_RLLIM]
  | .CFG => [.CFG_STAT, .CFG_SLOT, .CFG_ERR, .CFG_LOADTIME, .CFG_RESTORE, .CFG_FUSE, .CFG_NORINFO, .CFG_NORCMD, .CFG_NORADDR, .CFG_NORBUFLO, .CFG_NORBUFHI, .CFG_NORSTAT]
  | .SVC => [.SVC_CFG, .SVC_STAT, .SVC_USBID, .SVC_MADDRLO, .SVC_MADDRHI, .SVC_CNT]
  | .RCK => [.RCK_CTL, .RCK_CFG, .RCK_STAT, .RCK_ERR, .RCK_BITTIME, .RCK_TOK, .RCK_TOKSTAT, .RCK_SOLO, .RCK_ROLES, .RCK_CNT]

/-- Every block. -/
def Block.all : List Block := [.SYS, .ANG, .LNX, .LANE, .RDI, .ITB, .TPE, .FSQ, .WRF, .SRV, .ARM, .SPN, .MAC, .VE, .HIF, .SCH, .MEM, .DMA, .CHK, .CMP, .HLT, .FLT, .EVT, .CFG, .SVC, .RCK]

end Sys2Proof.Machine
end

