-- ==== Sys2Proof/Machine/Sparse.lean ====
section
/-! DEFINITION. Sparse tables: lists of (key, value) pairs with strictly rising keys. One form serves the register file, the
byte memory (a list of Host.Cell) and every per-instance table. -/

namespace Sys2Proof.Machine

/-- A sparse table over natural keys. -/
abbrev Tab (α : Type) := List (Nat × α)

variable {α : Type}

/-- The entry at `k`, where the table lists one. -/
def Tab.look : Tab α → Nat → Option α
  | [], _ => none
  | (j, v) :: t, k => if j = k then some v else Tab.look t k

/-- The entry at `k`, or `dflt` where none is listed. -/
def Tab.getD (t : Tab α) (k : Nat) (dflt : α) : α := (Tab.look t k).getD dflt

/-- The table with `v` at `k`, keys kept rising. -/
def Tab.put : Tab α → Nat → α → Tab α
  | [], k, v => [(k, v)]
  | (j, u) :: t, k, v => if k < j then (k, v) :: (j, u) :: t else if j = k then (k, v) :: t else (j, u) :: Tab.put t k v

/-- The table with nothing listed at `k`. -/
def Tab.del : Tab α → Nat → Tab α
  | [], _ => []
  | (j, u) :: t, k => if j = k then Tab.del t k else (j, u) :: Tab.del t k

/-- The table that reads `v` at `k`, where an unlisted key reads `dflt`: the default itself is never listed. -/
def Tab.store [DecidableEq α] (t : Tab α) (dflt : α) (k : Nat) (v : α) : Tab α :=
  if v = dflt then Tab.del t k else Tab.put t k v

/-- Keys strictly rising. -/
def Tab.Sorted (t : Tab α) : Prop := t.Pairwise (fun a b => a.1 < b.1)

/-- No entry equals what an unlisted key reads as. -/
def Tab.NoDefault [DecidableEq α] (t : Tab α) (dflt : Nat → α) : Prop := ∀ e ∈ t, e.2 ≠ dflt e.1

/-- The table with `f` applied to the entry at `k`. -/
def Tab.upd (t : Tab α) (dflt : α) (k : Nat) (f : α → α) : Tab α := Tab.put t k (f (Tab.getD t k dflt))

end Sys2Proof.Machine
end

