-- ==== Sys2Proof/Machine/State.lean ====
section
/-! DEFINITION. The state of the ZD-940 as plain data: the register file (one entry per register field that differs from
its reset value), memory, and for every block the state the spec gives it beside its registers; the queue of waiting
commands; and the machine right after reset. -/

namespace Sys2Proof.Machine

/-! ### Registers, buses and time (02_register_conventions) -/

/-- One buffered WD value (R45): the register instance, the word it will hold, and the cycle its last write was accepted. -/
structure PendW where
  reg   : Reg
  idx   : Nat
  word  : Word
  cycle : Nat
  deriving DecidableEq, Repr

/-- Register-space state beside the fields themselves. -/
structure Bus where
  pend   : List PendW := []          -- R17, R45: buffered WD values, oldest first
  hold   : Tab Nat := []             -- R57: holding registers, key master * 4096 + quantity
  loBuf  : Tab Nat := []             -- R58: buffered LO halves, key master * 4096 + quantity
  slow   : Option PendW := none        -- R55: the slow-domain write in transit
  unlock : Tab Nat := []             -- R69: seconds left of an unlocked BAR2 window, by port; unlisted = locked
  deriving DecidableEq, Repr

/-! ### Angle base (03) -/

/-- Working state of one reference reader (R77). -/
structure Reader where
  good   : Nat := 0                 -- consecutive good frames that count for the present state
  bad    : Nat := 0                 -- consecutive bad frames
  badAt  : List Nat := []            -- frame slots of the last revolution that were bad
  deriving DecidableEq, Repr

/-- The ABU beside its registers. -/
structure Ang where
  val     : Nat := 0                -- ANG, 48 bits (R79)
  sub     : Nat := 0                -- fraction of a tick, 1/65,536
  prev    : Nat := 0                -- ANG one fabric cycle before, so that what falls in this cycle can be told (R89, R90)
  rate    : Option Nat := none         -- the loop's rate estimate, 1/65,536 tick per fabric cycle (R82); none before the first
  skip    : Tab Nat := []            -- by head: ANG at which a wedge whose strobe ANG_HOFF has moved ahead is met again (R91)
  readers : Tab Reader := []
  slots   : Nat := 0                -- frame slots met
  comb    : Option Nat := none         -- latest combined angle, ticks (R75)
  ranged  : List Nat := []           -- synthesisers out of range now, 32 + s for writer s (R101)
  resume  : Tab Nat := []            -- device cycle up to which a synthesiser suppresses its edges (R100)
  agree   : Nat := 0                -- consecutive slots in which at least two TRACK readers agreed (R84)
  nolook  : Nat := 0                -- consecutive slots with no surviving reading (R85 NOFRAME)
  split   : Nat := 0                -- consecutive slots discarding both of two readings (R85 DISAGREE)
  revAt   : Option Nat := none         -- device time of the last index of the combined angle (ANG_PERIOD)
  cmpHit  : Tab Bool := []           -- compare u met its condition when it was armed (R95 LATE)
  cmpAt   : Tab Nat := []            -- device cycle in which compare u last fired (R385)
  deriving DecidableEq, Repr

/-! ### Lanes (04) -/

/-- A soft value (R143) with the erasure flag of R144. -/
structure Soft where
  v : Int
  f : Bool
  deriving DecidableEq, Repr

/-- A run of a lane's samples: the numbers of its first and last edge. Edges are counted on over the revolutions, so that a run
of one revolution says nothing of the next; the grid index k is the count modulo SPR (R99, R116). -/
structure FlagRun where
  first : Nat
  last  : Nat
  deriving DecidableEq, Repr

/-- The equaliser and detector settings that a lane had up to an edge (R115, R145). -/
structure LaneSet where
  upto  : Nat                -- the last edge they applied to
  taps  : List Nat           -- the 16 coefficients, as LANE_FIR shows them
  main  : Nat                -- main-tap index
  adapt : Bool               -- adaptation enabled
  tgt   : Nat                -- LANE_TARGET
  deriving DecidableEq, Repr

/-- One lane beside its registers. -/
structure Lane where
  flags   : List FlagRun := []       -- R124: the union of these runs is flagged
  overs   : List FlagRun := []       -- the overrange samples (R126)
  ovrEnd  : Option Nat := none         -- edge of the lane's last overrange sample (R126)
  fault   : Option Nat := none         -- first output of a routed input whose open or short condition persists (R108)
  gateAt  : Option Nat := none         -- edge from which a read or verify gate is open on the lane (R117, R118)
  gates   : List FlagRun := []       -- the runs of the gates that have closed (R267)
  servoAt : Option Nat := none         -- edge from which the servo gate is open on the lane (R120)
  servos  : List FlagRun := []       -- the runs of the servo gates that have closed (R149)
  hist    : List LaneSet := []       -- settings before their latest changes, oldest first (R145)
  taps    : List Nat := []           -- coefficients that adaptation has reached; none before it has run (LANE_FIR)
  loopAt  : Nat := 0                -- edge up to which the gain and timing loops have run (R117, R118)
  deriving DecidableEq, Repr

/-- Reader inputs and the crossbar beside their registers. -/
structure Lnx where
  openNow  : List Nat := []          -- inputs whose open condition persists (R108)
  shortNow : List Nat := []          -- inputs whose short condition persists
  delay    : Tab (List (Nat × Soft)) := []  -- by pair: the lead lane's soft outputs by index k, at most 16,384 (R131)
  deriving DecidableEq, Repr

/-! ### Iteration bank (05) -/

/-- A decode profile (R160). -/
structure Profile where
  valid : Bool
  (code short scale wl wt ws bmax block gmax lpg ofs alt : Nat)
  deriving DecidableEq, Repr

/-- One non-zero circulant of a code table (R158), with its layer. -/
structure Circ where
  (layer col shift : Nat)
  deriving DecidableEq, Repr

/-- A code table (R156, R158). -/
structure Code where
  (c m : Nat)
  circs : List Circ
  deriving DecidableEq, Repr

/-- Where a context stands. -/
inductive CtxPhase where
  | filling                    -- claimed, capture not complete (R163)
  | ready                      -- ready for a local iteration
  | running (e : Nat)          -- in an engine for this period
  | waitPath                   -- needs a re-detection path (R151)
  | redetect (p : Nat)         -- on path p
  | redone                     -- re-detection over, ready from the next boundary
  deriving DecidableEq, Repr

/-- One of the 128 codeword contexts (R163). -/
structure Ctx where
  phase   : CtxPhase
  head    : Nat                -- head of the job
  cal     : Bool               -- a calibration job (R586: no margin sample)
  seq     : Nat                -- order of capture (R171); 0 while filling
  pair    : Nat
  fsq     : Nat                -- head slot of the job
  owner   : Nat                -- command engine that owns the job
  urg     : Bool
  psa     : Nat                -- expected PSA at generation g (R215)
  bndry   : Bool               -- the member lies in the boundary stripe
  role    : Nat                -- role of the entry: 0 data, 1 parity
  gens    : List Nat           -- permitted generations, in the order they are tried (R546)
  zone    : Nat                -- zone entry
  fseq    : Nat
  buf     : Nat                -- buffer address (R415)
  prof    : Nat
  profile : Profile
  code    : Code
  dual    : Bool               -- combined dual-look
  trailOnly : Bool             -- only the trail lane found sync (R219)
  (k0 k0T : Nat)               -- edge of the codeword's first position on each lane (0: the lane found no mark)
  u0      : Nat                -- usable index of the codeword's first position
  metaBytes : Nat              -- metadata bytes of the zone
  lead    : List Soft          -- stored lead equaliser samples, in units of one code, with flags
  trail   : List Soft
  tgt     : Nat                -- LANE_TARGET of the lead lane in effect at capture (R162)
  tgtT    : Nat                -- and of the trail lane
  first   : List Int           -- first combined values, in the order of the code's variables (CORR of R183)
  chan    : List Soft          -- current combined values
  post    : List Int           -- posteriors of the last local iteration
  msgs    : List Int           -- check-to-variable messages, entry * 256 + row
  guar    : Nat                -- guarantee left (R170)
  grant   : Nat                -- granted acorns left
  grantAt : Nat                -- order of the grant (R171)
  borrowed : Nat               -- acorns granted so far (R172)
  spent   : Nat                -- borrowed acorns spent
  align   : Nat                -- alignment of the detector's windows (log 3)
  iters   : Nat
  globs   : Nat
  usc     : Nat
  age     : Nat                -- whole acorn periods since capture (R176)
  wait    : Nat                -- periods its request has waited
  deriving DecidableEq, Repr

/-- The bank beside its registers. -/
structure Itb where
  ctx     : Tab Ctx := []            -- contexts in use, by number
  queue   : List Nat := []           -- borrow queue, head first (R172)
  ret     : Nat := 0                -- acorns returned by codewords that ended since the last boundary (R175)
  guarRun : Nat := 0                -- guaranteed iterations of the period just ending (R173)
  cap     : Nat := 0                -- PCAP as last applied (R173)
  started : Bool := false               -- the period grid runs (R169)
  paths   : List Nat := []           -- busy re-detection paths (R150)
  waitq   : List Nat := []           -- contexts that wait for a path, arrival order (R151)
  capSeq  : Nat := 0                -- captures so far
  grants  : Nat := 0                -- grants so far
  deriving DecidableEq, Repr

/-! ### Track parity (06) -/

/-- One TPE encode context (R226). -/
structure EncCtx where
  stripe  : Nat
  fill    : Nat
  surf    : Nat
  track   : Nat
  order   : Nat                -- SCH's number for the job that it belongs to
  par     : List (List Nat)    -- parity symbols by parity member, column 0 first
  deriving DecidableEq, Repr

/-- A reallocation under way (R231-R233): the member by its slot, the write command that relocates it where one does (R309), and the
spare slot being written, its track first. -/
structure Move where
  (surf track slot gen : Nat)
  cmd : Option Nat
  tgt : Option (Nat × Nat)
  deriving DecidableEq, Repr

/-- The TPE beside its registers. -/
structure Tpe where
  zones   : List Nat := []           -- zone entries CFG accepted (R195)
  enc     : Tab EncCtx := []         -- by head slot
  recon   : List ReconReq := []      -- running, at most four (R230)
  queue   : List ReconReq := []      -- waiting, arrival order
  moves   : List Move := []          -- reallocations under way (R233)
  deriving DecidableEq, Repr

/-! ### Format sequencers (07) and the write path (08) -/

/-- One entry of a job's list (R246, R414). -/
structure Entry where
  (slot role bufIdx : Nat)
  deriving DecidableEq, Repr

/-- A media job (R246, R247, R414). -/
structure Job where
  (head pair kind entryw start : Nat)
  urg      : Bool
  (surf track zone : Nat)
  (gen bstripe fseq cmdref buf owner : Nat)
  desc     : Nat               -- offset of its descriptor (R414)
  order    : Nat               -- SCH's number for it
  entries  : List Entry
  (l u w svt spg rpad slots spr : Nat)   -- geometry copied from the zone entry (R247)
  (metaSel prof ds ps : Nat)
  gl       : Nat               -- guarantee load (R488)
  deriving DecidableEq, Repr

/-- An action in a gate queue (R262): `target` none means "at once". -/
structure GateAct where
  opens  : Bool
  target : Option Nat
  lead   : Bool                -- lane 2m has acted (read gates)
  trail  : Bool                -- lane 2m + 1 has acted
  slot   : Option Nat          -- the prepared sector an accepted WG OPEN names (R265)
  deriving DecidableEq, Repr

/-- An angle compare unit of a sequencer (R259); `late`: it met its condition when it was armed. -/
structure AngCmp where
  (target frame : Nat := 0)
  (armed late : Bool := false)
  deriving DecidableEq, Repr

/-- A position compare unit (R259). -/
structure PosCmp where
  (target ctr : Nat := 0)
  armed : Bool := false
  deriving DecidableEq, Repr

/-- An armed sync search of a lane (R267, R268). -/
structure Search where
  slot  : Nat
  arm   : Nat                -- the lane's edge at ARM: its window is the first to end after it
  since : Nat                -- positions before this edge count as flagged (RESTART)
  deriving DecidableEq, Repr

/-- A declared sync result (R218). -/
structure SyncRes where
  res   : Nat                -- 0 FOUND, 1 FOUND_SM2MISS, 2 FALLBACK, 3 NONE
  index : Nat                -- grid index k of the SM1 position
  u0    : Nat                -- usable index at which the data begins
  e0    : Nat                -- the lane's edge there
  deriving DecidableEq, Repr

/-- One format sequencer beside its registers. -/
structure Seq where
  job     : Option Job := none
  acted   : List Nat := []           -- fields of the word in issue that have acted (R261)
  cond    : Option Bool := none        -- the condition as it stood at the start of the issue cycle (R256)
  step    : Bool := false               -- STEP has released one word in HELD (R243)
  brk     : Bool := false               -- the breakpoint of the present word has been taken
  stack   : List Nat := []           -- call stack, top first
  (aca acb : AngCmp := {})
  (pca pcb : PosCmp := {})
  (rgq wgq vgq : List GateAct := [])
  (rgLead rgTrail wg vg : Bool := false)  -- gates open
  (srchLead srchTrail : List Search := []) -- armed searches of each lane, active first (R267)
  (foundL foundT : Bool := false)       -- the most recently declared result of each lane is not NONE
  leadRes : Tab SyncRes := []        -- what each lane declared, by slot index
  trailRes : Tab SyncRes := []
  (fromLead fromTrail : Nat := 0)   -- slot at which each read gate last opened
  solo    : Bool := false               -- lane 2m + 1 has left SERVICE during the job: lead-only to its end (R133, R140)
  (heldL heldT heldW : Nat := 0)    -- usable index each position counter held when its synthesiser stopped (R250)
  routes  : Nat := 0                -- routes asked for by RTE: 1 both lanes, 2 the lead lane only
  svgOn   : Bool := false               -- servo gating on
  freeze  : Bool := false               -- LFZ freeze
  heat    : Nat := 0                -- 0 none, 1 write heat, 2 read heat
  done    : List Nat := []           -- list positions whose DONE has issued
  met     : List Nat := []           -- list positions whose capture is complete or whose gate has passed (R249)
  committed : List Nat := []         -- list positions committed (R249)
  passed  : List Nat := []           -- list positions with a PASS verify record
  returned  : List Nat := []         -- list positions given back by JOP RETURN
  next    : Nat := 0                -- next list position to fetch
  (stamp stampPos : Nat := 0)
  revs    : Nat := 0                -- reference indices since the job became busy (R271)
  deriving DecidableEq, Repr

/-- A prepared sector (R284-R286). -/
structure Prep where
  entry   : Nat                -- position in the job's list
  (slot role psa attempt : Nat)
  code    : List Bool          -- the codeword
  ready   : Bool
  started : Bool
  lost    : Bool := false      -- its data could not be read from the buffer, so that it is never ready (R528)
  deriving DecidableEq, Repr

/-- A slot being written, or awaiting its verify record. -/
structure Emit where
  (entry slot role psa attempt : Nat)
  code    : List Bool
  driven  : Bool               -- driven at its first position
  written : Bool               -- not idle from SM1 to the end of the codeword (R291)
  surf    : Nat                -- surface of the head selected for writing (R306)
  tracks  : List Nat           -- track numbers decoded before and in the slot (R306)
  job     : Job                -- the job that wrote it
  cut     : Bool               -- its verify stream was cut short (R302)
  deriving DecidableEq, Repr

/-- A position that a writer has still to launch: the edge of its synthesiser, the grid index, and the bit (R282). -/
structure WBit where
  (edge k : Nat)
  bit : Bool
  deriving DecidableEq, Repr

/-- The position a writer launched last, and whether it and the one before it carry transitions (R283). -/
structure Launch where
  edge : Nat
  (bit t1 t2 : Bool)
  deriving DecidableEq, Repr

/-- Writer output s beside its registers. -/
structure Wslot where
  prep    : List Prep := []          -- at most two, oldest first (R270, R286)
  cur     : Option Nat := none         -- slot index the open write gate is over
  endAt   : Nat := 0                -- the writer's edge behind the last position of that slot
  nextAt  : Option (Nat × Nat) := none  -- the gate is past that slot: the next one's index and the edge of its first position
  wire    : List WBit := []          -- positions of the slot still to be launched; none while the output is idle
  last    : Option Launch := none    -- the position launched last
  early   : List (Nat × Nat × Nat) := [] -- from an edge on, EARLY1 and EARLY2 (R283)
  emits   : List Emit := []          -- slots whose verify record is still to come, oldest first
  idleSlot : Bool := false              -- a fence condition failed in the present slot: idle to its end (R290)
  idleJob : Bool := false               -- MISDIR: idle for the rest of the job (R307)
  onTrack : Bool := false               -- a valid record carrying the job's track was delivered since the binding (R294)
  latestOk : Bool := false              -- condition ONTRACK of the bound head (R294)
  offTrk  : Bool := false               -- an off-track detection stands for the bound head
  lastTrk : Option Nat := none         -- track number of the bound head's last servo field
  selHead : Option Nat := none         -- head the arm link reports selected for writing
  feFault : Bool := false               -- a front-end write fault is reported
  faulted : Bool := false               -- the present write job has raised WRFAULT (R298)
  deriving DecidableEq, Repr

/-- WRF beside its registers. -/
structure Wrf where
  slots   : Tab Wslot := []
  clean   : Tab Nat := []            -- trip-free reference strobes since the last trip, by actuator (R296)
  faults  : Tab Nat := []            -- consecutive write jobs with WRFAULT, by head (R298)
  deriving DecidableEq, Repr

/-! ### Faults and events (17) -/

/-- An event record on its way to the buffer (R630). -/
structure EvtIn where
  (code inst origin sev : Nat)
  (forced esc nolimit : Bool)
  (time epoch poh d0 d1 d2 cycle : Nat)
  deriving DecidableEq, Repr

/-- A stored event record: its eight words. -/
structure EvtRec where
  (w0 w1 w2 w3 w4 w5 w6 w7 : Nat)
  deriving DecidableEq, Repr

/-- FLT beside its registers. -/
structure Flt where
  timers   : List Nat := []          -- sources whose recovery timer runs (R619)
  expired  : List Nat := []          -- sources whose recovery timer has expired
  deferred : List (Nat × Nat) := []  -- (source, severity) reactions waiting for the power-fail sequence (R617)
  wdStreak : Tab Nat := []           -- consecutive expiries without a kick (R626)
  wdAt     : Tab Nat := []           -- device time of the last restart of each watchdog's count
  hotArmed : Bool := false              -- a TEMPHI raise is permitted (R627)
  lastData : Tab (Nat × Nat × Nat) := [] -- DATA0, DATA1 and DATA2 of each source's last raise (R620)
  wdHold   : Option Nat := none      -- cores 1 to 7 are powered down in Cicada idle, since this cycle (R625)
  lastAt   : Tab Nat := []           -- device time [31:0] of each source's last raise (R645)
  crkOn    : Bool := false              -- a handover has enabled CRICKET (R628)
  crk      : Bool := false              -- the level of the CRICKET pin
  deriving DecidableEq, Repr

/-- EVT beside its registers. -/
structure Evt where
  queue   : List EvtIn := []         -- the 64-entry input queue and the records producers still offer (R631)
  buf     : Tab EvtRec := []         -- the 1,024-record ring
  wr      : Nat := 0                -- next index
  page    : List Nat := []           -- buffer indices of the open page
  closed  : List (List Nat) := []    -- closed pages not yet programmed
  supp    : Tab Nat := []            -- suppressed since the last stored record, by bucket (R633)
  tokens  : Tab Nat := []            -- tokens of source buckets (0-40) and the default bucket (64)
  lost    : Nat := 0                -- records lost and not yet told by a LOST record (R636)
  saving  : Bool := false               -- a normal shutdown waits for the save (R642)
  pfStep  : Nat := 0                -- power-fail flush: 0 none, 1 pages, 2 records formed (R641)
  deriving DecidableEq, Repr
/-! ### Servo, actuators and arm links (09) -/

/-- One head beside its registers. -/
structure Head where
  settle  : Nat := 0                -- consecutive samples that count towards SETTLED (SCNT)
  fail    : Nat := 0                -- consecutive samples over FLIM (FCNT)
  miss    : Nat := 0                -- consecutive missed samples (MISSMAX)
  out     : Nat := 0                -- consecutive sends at the clamp (OUTSTROKE, R336)
  sentMa  : Option Nat := none         -- microactuator word last sent (R335)
  amps    : List Nat := []           -- the last 16 sample amplitudes (R339)
  clamped : Bool := false               -- the present microactuator word was clamped (R335)
  last    : Option (Nat × Nat) := none -- wedge and track of the latest valid sample
  prev    : Option (Nat × Nat) := none -- those of the valid sample before it (R329 VELOCITY)
  missed  : Option Nat := none         -- the wedge, counted over revolutions, whose missing record was last found (R293)
  htr     : Nat := 0                -- heater code last sent
  calOk   : Nat := 0                -- valid samples in the revolution of the actuator's calibration (R322)
  deriving DecidableEq, Repr

/-- One actuator beside its registers. -/
structure Act where
  cmdNew  : Bool := false               -- SRV_VCMCMD written since the last update point (R326)
  late    : Nat := 0                -- consecutive late updates
  seekTo  : Nat := 0                -- consecutive SEEKTO faults (R324)
  retract : Bool := false               -- the hardware retract runs (R328)
  hist    : List Int := []           -- the last 8 filter inputs of the feed-forward (R327)
  guide   : Option Nat := none         -- guide head
  guidePair : Option Nat := none       -- the pair that carries the guide lane (R485)
  ref     : Option Nat := none         -- head bound by a seek, until its job is dispatched (R325, R481)
  guideOk : Nat := 0                -- consecutive valid samples of the guide head (R323)
  modeAt  : Nat := 0                -- cycle at which the mode was entered, or its timer restarted (R322, R323, R328)
  modeAng : Nat := 0                -- ANG at which the mode was entered, or a seek took a new target (R322, R324)
  updAt   : Nat := 0                -- ANG at the last VCM update (R325)
  validAt : Nat := 0                -- cycle of the latest valid sample of a head, or of entry to LOADING (R330)
  curOff  : Option Nat := none      -- cycle since which the measured VCM current differs from the DAC (R329 IDRIVE)
  satAt   : Option Nat := none      -- cycle since which the DAC stays at the limit in FOLLOW (R329 SATURATE)
  curFor  : Option Nat := none      -- the curOff for which IDRIVE was declared (R329)
  satFor  : Option Nat := none      -- the satAt for which SATURATE was declared (R329)
  lossFor : Option Nat := none      -- the validAt for which SRVLOSS was raised (R330)
  deriving DecidableEq, Repr

/-- An arm-link frame (R342, R344): type, target (channel, surface or register) and payload. -/
structure ArmFrame where
  (type target payload : Nat)
  urgent : Bool                -- sent at SAFE priority (R340)
  deriving DecidableEq, Repr

/-- One arm link beside its registers. -/
structure Link where
  down    : List ArmFrame := []      -- downlink queue in send order (R342)
  resend  : List (Nat × ArmFrame) := [] -- sent frames kept until acknowledged, by tag
  tag     : Nat := 0                -- next downlink tag
  lossAt  : List Nat := []           -- device times of the losses of the last second (R349)
  access  : Option ArmFrame := none    -- AFE register access outstanding (R350)
  bias    : Nat := 0                -- biased surfaces
  bad     : Nat := 0                -- consecutive invalid uplink frames (R348)
  deriving DecidableEq, Repr

/-! ### Spindle and measurement channels (10) -/

/-- The unit that an actuator was writing when power failed (R377, R641): its slot, the PSA of its first member, the fetch
sequence, the sector slots of its members, those of them that are data, and those that have passed verify. -/
structure PfUnit where
  (slot psa fseq : Nat)
  (members data passed : List Nat)
  deriving DecidableEq, Repr

/-- What the two switches of a leg do (R353, R354): both off, one on, the high side pulse-width modulated, or both in turn. -/
inductive Leg where
  | off | low | high | pwmHigh | pwm
  deriving DecidableEq, Repr

/-- SPN beside its registers. -/
structure Spn where
  attempts : Nat := 0               -- failed detection attempts (R363)
  misses  : Nat := 0                -- consecutive missing crossings (R366)
  zc      : Bool := false               -- a crossing has been seen since the last commutation
  commAt  : Nat := 0                -- cycle of the last commutation (R366)
  zcAt    : Nat := 0                -- cycle of the latest crossing, or of entry to the state (R359, R366)
  ivals   : List Nat := []           -- the last two commutation intervals, latest first (R366)
  rect    : List Leg := []           -- the legs in PFAIL, U first: each as its last zero crossing left it (R376)
  gates   : List Leg := [.off, .off, .off] -- the gate outputs, U first (R353)
  held    : Bool := false               -- the gates stay off until RUN is written (R356)
  slow    : Bool := false               -- the drive has stopped more than 0.5% above the target (R371)
  senseAt : Nat := 0                -- cycle of the latest braking window, or of entry to BRAKE (R373)
  retryAt : Nat := 0                -- cycle of the latest failed attempt (R363)
  markAt  : Nat := 0                -- cycle of the latest usable marker (R381)
  markPer : Option Nat := none         -- the marker period before it
  trimBack : Option (Int × Nat) := none -- the trim that returns to 0, and the cycle from which it does (R381)
  seen    : Nat := 0                -- consecutive crossings seen in COAST (R359)
  ovsRef  : Nat := 0                -- OVSREF, 0.01 rpm (R370); 0 before the first target
  fast    : Bool := false               -- the speed is above 1.10 x OVSREF
  inTol   : Nat := 0                -- consecutive revolutions within tolerance (R371)
  stopWin : Nat := 0                -- braking windows in a row below 50 mV (R373)
  step    : Nat := 0                -- commutation step 0-5
  retry   : Bool := false               -- a failed detection attempt waits 10 ms for the next (R363)
  (pwmFreq pwmDead pwmLim : Nat := 0) -- in force in the present PWM period (R355, R357, R358)
  cut     : Bool := false               -- the present PWM period was cut short (R357)
  duty    : Int := 0                -- PWM duty applied, in 2^-20 / 100
  integ   : Int := 0                -- integral part of the regulator, same unit
  phOk    : Nat := 0                -- consecutive markers within LOCKTOL (R381)
  drvLow  : Bool := false               -- SPN_FAULT_N is low (R356)
  pfLow   : Nat := 0                -- consecutive valid bus samples below VTRIP (R375)
  running : Bool := false               -- the power-fail sequence runs (R377)
  pfAt    : Nat := 0                -- device time of its start
  pfUnits : Tab PfUnit := []         -- units in progress at its start, by slot
  pfBusy  : List Nat := []           -- actuators whose step 3 still runs
  pfVmin  : Bool := false               -- the bus has fallen below VMIN (R378)
  pfRecs  : Bool := false               -- PFUNIT and PFSUM have been formed (R641)
  deriving DecidableEq, Repr

/-- One MAC channel beside its registers. -/
structure Chan where
  fill    : Nat := 0                -- outputs still invalid after a filter reset (R384)
  at'     : Nat := 0                -- cycle of the latest output, or of the reset after it (R382, R384)
  outAt   : Option Nat := none      -- cycle of the latest output (R537)
  armed   : Bool := false               -- a synchronising reset is armed
  deriving DecidableEq, Repr

/-! ### Vertical engines (11) -/

/-- A trigger (R400). -/
structure Trig where
  (type prio src a0 a1 a2 a3 : Nat)
  restarts : Nat               -- restart count (R406)
  flts     : Nat               -- abandons by MEMERR or TIMEOUT in a row (R407)
  deriving DecidableEq, Repr

/-- An effect waiting in the commit buffer (R404). -/
inductive Buffered where
  | store (a v n : Nat)        -- n bytes of v at address a
  | emit (ofs : Nat)           -- table-SRAM offset of a descriptor
  | post (code ofs : Nat)      -- POST code and table-SRAM offset of its operand
  deriving DecidableEq, Repr

/-- A load under way (R392): target register, the value read, and the memory it was read from, 0 bytes for register space. -/
structure Load where
  (reg val addr size : Nat)
  deriving DecidableEq, Repr

/-- One vertical engine beside its registers. -/
structure Eng where
  queues  : List Trig := []          -- queued triggers, oldest first (R402)
  run     : Option Trig := none
  g       : Tab Nat := []            -- the general registers G1-G31 (R398)
  g0      : Tab Nat := []            -- the values they had at dispatch (R406)
  stack   : List Nat := []           -- call stack, top first
  pos     : Nat := 0                -- micro-ops of the present step that have acted (R392)
  res     : List (Nat × Nat) := []   -- register results of the present step
  buffer  : List Buffered := []      -- commit buffer (R404)
  loads   : List Load := []          -- outstanding loads, oldest first (R392)
  halting : Bool := false               -- HALT was written after the COMMIT: the engine halts at DONE (R408)
  refNext : Bool := false               -- a REFSMP that preempted is dispatched next (R418)
  noPre   : Bool := false               -- this run is not preempted (R407)
  deriving DecidableEq, Repr
/-! ### Health (16) -/

/-- A working-set entry (R576): the record's four words and HLT's accumulators for the track. -/
structure WsEntry where
  (w0 w1 w2 w3 : Nat)
  passed : List Nat            -- members of the boundary stripe with their bit set (R585): i data, 128 + p parity
  locks  : Nat                 -- write locks that hold the entry
  used   : Nat                 -- device time of the last use (least recently used first)
  low    : Nat                 -- lowest sample of the running patrol (R587)
  hard   : Bool := false       -- a member needed recovery at level 2 or above in the running scrub (R590)
  dirty  : Bool                -- a statistic differs from the DRAM record (R577)
  deriving DecidableEq, Repr

/-- A work item of the ring (R596). -/
structure Work where
  (op surf track head arg arg2 : Nat)
  granted : Bool
  seq    : Nat
  ckpt   : Nat                 -- CHECKPOINT: its sequence
  pages  : List Nat            -- CHECKPOINT: the changed pages it names
  deriving DecidableEq, Repr

/-- An open journal intent (R581): the track span, the checkpoint sequence, and the advances of each track. -/
structure Intent where
  (surf first ckpt : Nat)
  adv    : Tab Nat
  acked  : Bool                -- its JOURNAL item has been acknowledged as done
  deriving DecidableEq, Repr

/-- A rewrite request (R582). -/
structure RwReq where
  (master surf track tag : Nat)
  rst    : Bool
  deriving DecidableEq, Repr

/-- HLT beside its registers. -/
structure Hlt where
  ws       : Tab WsEntry := []       -- by record index
  margin   : Tab Nat := []           -- head margins (R587)
  contacts : Tab Nat := []           -- contacts by head (R609)
  mag      : Tab (List Nat) := []    -- MAG of the last verify records by head, newest first, at most 4,096 (R599)
  magMean  : Tab Nat := []           -- mean of each head's last 4,096 records
  wctrim   : List Nat := []          -- heads with a WCTRIM item outstanding
  held     : List Work := []         -- items waiting for room in the ring (R596)
  work     : List Work := []         -- items queued or handed out and not acknowledged
  seq      : Nat := 0               -- next item sequence
  intents  : List Intent := []
  ckpt     : Nat := 0               -- checkpoint sequence
  jnext    : Nat := 0               -- next journal entry index
  waiting  : Bool := false              -- the first request has asked for its JOURNAL item
  tooSlow  : Bool := false              -- the condition of R603 held at the last reading
  pages    : List Nat := []          -- pages changed since they were last written (R580)
  reqs     : List RwReq := []        -- requests waiting, in order (R582)
  retry    : List Work := []         -- failed patrols and scrubs waiting for their hour (R594)
  lastCal  : Tab (Nat × Nat × Nat) := [] -- head: (POH, temperature, margin) at its last calibration (R600)
  calReq   : List (Nat × Nat) := []  -- (head, cause) submitted to SCH
  jobFirst : List Nat := []          -- descriptors of write jobs that have had their first verify record (R589)
  slack    : Tab Nat := []           -- last slack readings, ps
  temps    : Tab Int := []           -- last die temperatures
  avsBusy  : Bool := false              -- an AVS command waits for its acknowledgement
  avsWant  : Nat := 0               -- voltage code asked for
  calm     : Nat := 0               -- readings in a row that allow a lower voltage (R602)
  vfirst   : Option Nat := none        -- first recorded voltage code (R607)
  history  : List (Nat × Nat × Nat) := [] -- weekly (POH, media statistic, voltage code), newest first (R604)
  mfirst   : Option Nat := none        -- first media statistic
  trig     : Nat := 0               -- replacement triggers, sticky until power-on (R605)
  cands    : List Nat := []          -- PSAs of the sectors reported as candidates for reallocation (R186)
  fresh    : List Nat := []          -- records of tracks whose first write is under way (R445)
  lost     : List Nat := []          -- records of tracks a member of which reached level 5 in a refresh (R591)
  unmoved  : List Nat := []          -- PSAs of the members that stay in place because the defect map is full (R237)
  saveSeq  : Option Nat := none        -- CHECKPOINT item whose acknowledgement completes a normal shutdown (R608)
  deriving DecidableEq, Repr

/-! ### Check values (15) -/

/-- A decoded sector on its way through CHK (R546). -/
structure Decoded where
  (owner psa fseq buf pair slot role head : Nat)
  cal    : Bool                -- of a calibration job
  bndry  : Bool
  gens   : List Nat            -- permitted generations, in the order they are tried
  bytes  : List Byte           -- user, metadata and check-value bytes
  drec   : List Nat            -- the decode record to queue once the status word is visible (R549)
  deriving DecidableEq, Repr
/-! ### Host interface (12) -/

/-- A submission queue (R425, R464); `stop`: its deletion waits for its commands (R456). -/
structure Sq where
  (base size head tail cq prio inflight : Nat)
  stop : Bool
  deriving DecidableEq, Repr

/-- A completion queue: `agg` entries posted wait for their interrupt (R434). -/
structure Cq where
  (base size head tail vec agg : Nat)
  (phase ien : Bool)
  deriving DecidableEq, Repr

/-- A completion: its submission queue, command identifier, dwords 0 and 1, and the status of dword 3 [31:17]. -/
structure Cqe where
  (sq cid dw0 dw1 status : Nat)
  deriving DecidableEq, Repr

/-- Where a command in flight stands (R458). -/
inductive CmdPhase where
  | fetched                    -- its record is written; not yet checked
  | held                       -- checked; waits for a command engine (R413)
  | offered                    -- a CMD trigger has been queued
  deriving DecidableEq, Repr

/-- An I/O command in flight. -/
structure Cmd where
  (fseq port sq cid idx time owner : Nat) -- idx: its command record; owner: number of the command engine
  sqe    : List Nat            -- its 16 dwords
  urgent : Bool
  phase  : CmdPhase
  moving : Nat                 -- transfers to the host not yet accepted by the link
  ending : Option Cqe          -- the completion that waits for them (R459)
  piErr  : Nat                 -- 0, or the first failed check of a transfer to the host: 1 guard, 2 application tag, 3 reference tag
  piAt   : Nat := 0            -- the block that the first failed check names, of a transfer either way (R438)
  limit  : Bool                -- TLER has passed: recovery of its sectors stops (R453)
  begun  : Bool                -- the write gate of one of its members has opened (R455)
  got    : List Nat            -- blocks of its write data that have arrived (R28)
  comp   : List (Nat × Nat × Nat) -- what CMP has packed of it (R28): host zone entry, first block, blocks
  ask    : Option (Nat × Nat × Nat × Nat) -- data asked of the host: first block, count, buffer, LBA for remapping (R459)
  unread : List (Nat × Bool) := []  -- PSAs of its sectors whose recovery ended without data, and whether that was at level 5 of limit 4 (R454)
  deriving DecidableEq, Repr

/-- An admin command from its fetch to its completion; `ring`: its entry, once written (R460). -/
structure Adm where
  (fseq port cid : Nat)
  sqe    : List Nat
  ring   : Option Nat
  deriving DecidableEq, Repr

/-- A namespace-scoped feature value and the fetch sequence from which it holds (R435). -/
structure NsFeat where
  (ns fid fseq val : Nat)
  deriving DecidableEq, Repr

/-- One PCIe function and its controller beside their registers. -/
structure Port where
  (cc aqa asq acq : Nat := 0)
  sqs    : Tab Sq := []              -- 0 is the admin queue
  cqs    : Tab Cq := []
  wait   : List Cqe := []            -- admin completions that wait for room in their queue
  feats  : Tab Nat := []             -- controller-scoped features, by identifier (vector configuration: 256 * vector + 9)
  nqSet  : Bool := false                -- Number of Queues has been set since the enable
  aers   : List Nat := []            -- fetch sequences of outstanding Asynchronous Event Requests
  aes    : List (Nat × Nat) := []         -- completion dwords 0 and 1 of events that wait for a request
  masked : List Nat := []            -- event types reported and not yet cleared
  warn   : Nat := 0                 -- critical-warning bits as last reported
  marks  : List (Nat × Nat) := []    -- (submission queue, command identifier) to be aborted when fetched (R455)
  turn   : Tab Nat := []             -- queue served last, by class: 1 high, 2 medium, 3 low, 0 urgent or round robin
  credit : Tab Nat := []             -- weighted round robin credits left, by class
  burst  : Option (Nat × Nat) := none  -- the queue whose arbitration burst runs, and what is left of it
  dels   : List (Nat × Nat) := []    -- deletions of submission queues under way: (queue, fetch sequence of the command)
  quiet  : Bool := false                -- fetching has stopped for a shutdown
  saving : Bool := false                -- a normal shutdown waits for the saves of HLT and EVT (R428)
  cfg    : Tab Nat := []             -- configuration space, by dword offset
  msix   : Tab Nat := []             -- MSI-X table words, by 4 * vector + word
  pba    : List Nat := []            -- vectors with an interrupt pending
  changed : List (Nat × Nat) := []   -- the Changed Zone List: namespace and start LBA (R438)
  deriving DecidableEq, Repr

/-- A HIF request that microcode posts (R459): the operation, the completion it asks for, and the blocks and buffer it names. -/
structure HifReq where
  (op status dw0 dw1 first count buf rtlba idx : Nat)
  deriving DecidableEq, Repr

/-- An entry of the Error Information log (R438): its number, whose completion it is, and the first failing LBA. -/
structure LogErr where
  (num port sq cid status lba ns : Nat)
  deriving DecidableEq, Repr

/-- What the log pages count (R438, R439): the last 64 errors, newest first, completions of status type 2h, and power-fail sequences. -/
structure Logs where
  errs   : List LogErr := []
  media  : Nat := 0
  pfails : Nat := 0
  deriving DecidableEq, Repr

/-- HIF beside its registers. -/
structure Hif where
  ports  : Tab Port := []
  cmds   : List Cmd := []            -- I/O commands in flight, fetch order
  adm    : List Adm := []            -- admin commands not completed, fetch order
  feats  : List NsFeat := []         -- namespace-scoped features, fetch order
  finished : Tab Nat := []           -- host zone entries that Finish has filled: the first block past the last stripe written (R448)
  again  : List HifReq := []         -- transfers to the host that wait for sectors to be read again (R528)
  log    : Logs := {}                -- kept through every reset (log 96)
  deriving DecidableEq, Repr

/-- What the State Digest remembers (R464, R465): DGEN, and for each section its GEN and the items of the previous digest. -/
structure Dig where
  count  : Nat := 0
  gens   : Tab Nat := []
  prev   : Tab (List Nat) := []
  deriving DecidableEq, Repr

/-! ### Memory and DMA (14) -/

/-- A word stored with wrong check bits or parity: its address, the array it lies in (code of MEM_UELOGHI.ARRAY), whether the
error is uncorrectable, and the cycle in which it was stored. -/
structure BadWord where
  (addr array : Nat)
  fatal : Bool
  cycle : Nat
  deriving DecidableEq, Repr

/-- An L2 maintenance operation under way (R523): its code and the lines it acts on, none for all. -/
structure Maint where
  op    : Nat
  lines : Option (List Nat)
  deriving DecidableEq, Repr

/-- The memory system beside its registers and the bytes it holds. -/
structure MemSys where
  dram   : Tab Byte := []            -- bytes of DRAM that the L2 has not yet written back keep their former value here (R518)
  icache : Tab (List Byte) := []     -- lines of the L1 I caches, by core * 2^40 + address (R519)
  bad    : List BadWord := []
  poison : List Nat := []            -- poisoned 128-byte lines (R527)
  ways   : List Nat := []            -- withdrawn ways, set * 16 + way (R526)
  maint  : Option Maint := none
  full   : List Nat := []            -- buckets at THRESH that have raised MEMCE: 0 DRAM, 1 CACHE
  scrub  : Nat := 0                 -- words read in the scrub pass under way
  training : Bool := false              -- DRAM initialisation runs
  deriving DecidableEq, Repr

/-- A DMA channel beside its registers. -/
structure DmaCh where
  desc   : Nat := 0                 -- address of the current descriptor
  words  : List Nat := []            -- its eight words, where fetched
  moved  : Nat := 0                 -- bytes of the descriptor or pass written
  wait   : Bool := false                -- a pace event waits (R537)
  master : Nat := 0                 -- the master that started it
  deriving DecidableEq, Repr

/-- The DMA engine: channels, and whether a bus error has stopped its reads (R540). -/
structure Dma where
  chans  : Tab DmaCh := []
  failed : Bool := false
  deriving DecidableEq, Repr

/-! ### Compression (15) -/

/-- A compression job: its descriptor's address and who submitted it. -/
structure CmpJob where
  (desc master : Nat)
  deriving DecidableEq, Repr

/-- CMP beside its registers. -/
structure Cmp where
  queue   : List CmpJob := []
  running : List CmpJob := []
  deriving DecidableEq, Repr

/-! ### Start-up (18) and the service port (19) -/

/-- The fuses (R659, R681): key hashes, MINSVN, REVOKE0 and the USB identity. -/
structure Fuses where
  (hash0 hash1 minSvn usbId : Nat := 0)
  revoke0 : Bool := false
  deriving DecidableEq, Repr

/-- A NOR access command under way (R676). -/
structure NorCmd where
  (op addr buf len : Nat)
  deriving DecidableEq, Repr

/-- CFG beside its registers. -/
structure Cfg where
  copy   : List (Nat × Nat) := []    -- the REGWRITE copy (R665): offsets and values
  kind   : Nat := 0                 -- reset requested: 0 none, 1 warm, 2 full (R651, R666)
  cause  : Nat := 0                 -- the bit of SYS_RSTCAUSE it sets
  quiet  : Bool := false                -- the quiesce has ended
  units  : Tab PfUnit := []          -- units started when the quiesce began, by slot
  fuses  : Fuses := {}               -- values in effect
  blown  : Fuses := {}               -- values programmed (R681)
  ident  : List Nat := []            -- PCIe identity of the image: four words (R658)
  serial : Nat := 0
  entry  : Nat := 0                 -- reset vector of the cores
  cores  : Bool := false                -- the cores are released
  l2off  : Bool := false
  hold   : Bool := false                -- HOLDSPIN
  badNs  : List Nat := []            -- namespaces that failed check 10 (R663)
  badSrv : List Nat := []            -- actuators that failed check 11 (R663)
  began  : Nat := 0                 -- device cycle of the end of the reset
  nor    : Option NorCmd := none
  deriving DecidableEq, Repr

/-- An OUT request whose data is staged (R683). -/
inductive Staged where
  | regwr (off : Nat) (words : List Nat)
  | memwr (bytes : List Byte)
  | reset (full : Bool)
  | fuse (sel : Nat) (val : Nat)
  deriving DecidableEq, Repr

/-- The service port beside its registers. -/
structure Svc where
  vbus   : Bool := false
  offTill : Nat := 0                -- the cycle until which a reset holds the port disconnected (R685)
  addr   : Nat := 0                 -- USB address
  conf   : Nat := 0                 -- configuration
  back   : Nat := 0                 -- state to which a resume returns
  test   : Bool := false                -- TEST_MODE is set
  halts  : List Nat := []            -- halted endpoints
  staged : Option Staged := none
  stream : Nat := 0                 -- SEQ of the next event record to send
  told   : Option (List Nat) := none   -- what the last short digest of EP2 showed
  deriving DecidableEq, Repr

/-! ### Scheduler (13) -/

/-- An overlap table entry (R470): the range is the blocks lo to hi - 1 of namespace ns. -/
structure Ovl where
  (fseq ns lo hi time port : Nat)
  ordered  : Bool              -- false: no range (Flush, Zone Management Receive)
  reads    : Bool              -- Read or Verify
  append   : Bool              -- Zone Append
  urgent   : Bool              -- from an urgent-class queue
  promoted : Bool              -- promoted by age (R490)
  withdrawn : Bool             -- withdrawn by a controller reset (R475)
  deriving DecidableEq, Repr

/-- A reservation request (R471). -/
structure ResReq where
  (master tag gran fseq order : Nat)
  internal : Bool
  cleared  : Bool
  deriving DecidableEq, Repr

/-- A reservation held: a command slot and contiguous granules (R467). -/
structure Resv where
  (handle base gran fseq : Nat)
  internal : Bool
  aged     : Bool              -- an internal job's rank has aged to HOST (R490)
  deriving DecidableEq, Repr

/-- What holds a track lock (R476): a read job by its number, a host write command by its fetch sequence, an internal write
command by its reservation, a reallocation by its member. -/
inductive LockBy where
  | job (order : Nat)
  | host (fseq : Nat)
  | internal (handle : Nat)
  | move (member : Nat)
  deriving DecidableEq, Repr

/-- A sector in the recovery sequence (R184): the last level taken, whether it has failed CHK (R185), and the heads that have read it,
each with the USC it gave where it decoded a codeword. -/
structure Recov where
  (owner fseq psa level : Nat)
  checked : Bool
  heads   : List (Nat × Option Nat)
  deriving DecidableEq, Repr

/-- What a write command has written (R29, R311): the members its jobs name, and those with a PASS record, by the PSA of the slot whose
member each is, without its generation. -/
structure WriteLog where
  (named passed : List Nat)
  noSpare : Bool               -- a relocation of one of them found no target (R310, R449)
  lost    : Bool := false      -- the data of one of them could not be read from the buffer (R528)
  deriving DecidableEq, Repr

/-- A job that waits in SCH. -/
structure SJob where
  job   : Job
  mask  : Nat                  -- AMASK
  ready : Option Nat           -- device cycle at which it became ready (R491)
  pick  : Option Nat           -- the actuator it has picked (R480)
  deriving DecidableEq, Repr

/-- A calibration request of HLT (R498). -/
structure CalReq where
  (head cause waited : Nat)    -- waited: reference indices waited through
  granted : Bool
  deriving DecidableEq, Repr

/-- SCH beside its registers. -/
structure Sch where
  returned : Tab (List Nat) := []    -- list positions of the last returned part, by slot
  ovl      : List Ovl := []
  reqs     : List ResReq := []
  resv     : List Resv := []
  order    : Nat := 0               -- requests and jobs so far
  locks    : Tab LockBy := []        -- track locks by surface * 2^20 + track
  recov    : List Recov := []        -- sectors in the recovery sequence
  writes   : Tab WriteLog := []      -- by fetch sequence of the write command
  jobs     : List SJob := []
  cal      : List CalReq := []
  turn     : Nat := 0               -- actuator that received the previous dispatch (R469)
  seekFor  : Tab Nat := []           -- actuator -> number of the job a seek keeps it for (R481)
  drainFor : Tab Nat := []           -- actuator -> number of the job DRAIN is set for (R482)
  forced   : Tab Nat := []           -- actuator -> head of the request FORCE is set for (R499)
  revOn    : List Nat := []          -- actuators whose forced revolution runs
  forceAt  : Tab Nat := []           -- device cycle of the end of each actuator's last forced revolution
  loads    : List Nat := []          -- actuators whose load waits for the spindle, a token or power (R323, R496)
  spin     : Bool := false              -- a spin-up has been granted and INRANGE not reached since (R497)
  charge   : Bool := false              -- the spindle is charged SPINW: granted and not yet ATSPEED (R495)
  wake     : Bool := false              -- a wake cause stands (R503)
  up       : Bool := false              -- READY has been reached since the last start (R426)
  deriving DecidableEq, Repr

/-! ### Rack link (19) -/

/-- A rack-link frame (R690): type, addressee and payload bytes; failed attempts while error-passive (R695). -/
structure RackFrame where
  (type dst : Nat)
  bytes : List Nat
  tries : Nat
  deriving DecidableEq, Repr

/-- The last beacon taken (R701): sequence, own ABS fraction and device cycle at its start of frame, and the cycle of the one
before. -/
structure Beacon where
  (num frac cycle : Nat)
  prev : Option Nat
  deriving DecidableEq, Repr

/-- RCK beside its registers. -/
structure Rck where
  queue  : List RackFrame := []      -- transmit queue in the order of R691
  heard  : Tab Nat := []             -- other nodes heard, with the flags byte of their HELLO (R692)
  holds  : List Nat := []            -- other nodes whose TOKHOLD counts (R694)
  reqs   : List (Nat × Nat) := []    -- requests waiting at the steward: (node, sequence), arrival order
  seq    : Nat := 0                 -- request sequence
  want   : Bool := false                -- a token request of this node waits
  hold   : Bool := false                -- this node holds a token
  ann    : Bool := false                -- a solo spin-up is announced (R696)
  alone  : Bool := false                -- the present spin-up is a solo spin-up
  delay  : Bool := false                -- the solo delay runs (R695)
  endAt  : Nat := 0                 -- device cycle of its end
  freed  : Bool := false                -- the solo delay has ended and SCH may spin up
  alertAt : Option Nat := none         -- device cycle of the last ALERT, or of the last foreign low level (R694)
  stewardAt : Option Nat := none       -- since when this node has been steward
  txerr  : Nat := 0
  rxerr  : Nat := 0
  restart : Bool := false               -- RESTART has been written in bus-off (R697)
  mine   : Option Nat := none          -- as beacon master: D of the last beacon sent (R700)
  bnum   : Nat := 0                 -- beacon sequence
  choice : Option Nat := none          -- the node that may be beacon master, as it stands (R700)
  master : Option Nat := none          -- node taken as beacon master
  taken  : Option Beacon := none       -- the last beacon taken from it
  alertTill : Nat := 0              -- the least cycle in which this node lets go of RACK_ALERT (R698)
  replied : Tab Nat := []            -- device cycle of the last DIGREQ answered, by requester (R702)
  deriving DecidableEq, Repr

/-! ### Check engine (15) -/

/-- A computation of the software context: what it took from its registers at GO (R555). -/
structure ChkRun where
  (alg src len seed fold : Nat)
  deriving DecidableEq, Repr

/-- CHK beside its registers. -/
structure Chk where
  run   : Option ChkRun := none      -- the computation of the software context
  queue : List Decoded := []         -- decoded sectors that wait for their check (R546)
  deriving DecidableEq, Repr

/-! ### The device -/

/-- Waits whose end a command declares: the cycle from which one runs stands in `Dev.timers`. -/
inductive Timer where
  | train (a : Nat)                -- training of arm link a (R348)
  | afe (a : Nat)                  -- an AFE register read (R350)
  | routine (e : Nat)              -- the routine of engine e (R406)
  | veTimer (e : Nat)              -- the period of VE_ETIMER (R403)
  | bar2 (p : Nat)                 -- the unlocked BAR2 window of port p (R69, R461)
  | coalesce (p v : Nat)           -- the aggregation time of vector v of port p (R434)
  | joining (u : Unit4)            -- a unit in JOINING (R134, R187, R320)
  | resv (handle : Nat)            -- an internal reservation (R490)
  | spinup                         -- a spin-up from its grant (R497)
  | take                           -- the latest forced take (R499)
  | forced (a : Nat)               -- the forced revolution of actuator a (R499)
  | drained (a : Nat)              -- the drain of forced actuator a is over, and its revolution has not begun (R499)
  | leak                           -- the leak of the error buckets (R530)
  | work (seq : Nat)               -- a work item (R596)
  | retry (seq : Nat)              -- a failed patrol or scrub (R594)
  | checkpoint                     -- the checkpoint interval (R580)
  | avs                            -- an AVSBus command (R603)
  | slack                          -- the reading of the delay monitors (R601)
  | dieTemp                        -- the reading of the die sensors (R601)
  | hour                           -- the powered hour (HLT_POH)
  | recov (src : Nat)              -- the recovery timer of a source (R619)
  | bucket (b : Nat)               -- the refill of a rate bucket (R633)
  | page                           -- the open page, from its first record (R638)
  | cricket                        -- CRICKET's half period (R628)
  | quiesce                        -- the quiesce before a reset (R666)
  | flush                          -- the flush before a reset (R640)
  | hello                          -- the interval of HELLO (R692)
  | tokReq                         -- the latest TOKREQ (R693)
  | tokHold                        -- the interval of TOKHOLD (R693)
  | heard (n : Nat)                -- the latest HELLO of node n (R692)
  | holder (n : Nat)               -- the latest TOKHOLD of node n (R694)
  | beacon                         -- the latest BEACON queued (R700)
  | choice                         -- the present choice of a beacon master (R701)
  | pace (c : Nat)                 -- the latest pace event of DMA channel c (R537)
  deriving DecidableEq, Repr

/-- What a command makes the device say to the outside. -/
inductive Out where
  | busError (m : Nat)             -- an access of master m ends in a bus error (R39)
  | data (m v : Nat)               -- a read of master m returns v
  | unsupported (port : Nat)       -- a BAR2 read completes with Unsupported Request (R71)
  | completerAbort (port : Nat)    -- a BAR2 read completes with Completer Abort (R71)
  | irq (b : Block) (unit : Nat)   -- an interrupt of a block (R19)
  | coreIrq (c n : Nat)            -- local interrupt n of core c
  | armFrame (a : Nat) (v : Nat)   -- a frame on arm link a (R342)
  | pwmCut                         -- the present PWM period is shortened (R357)
  | gates (legs : List Leg) (dead : Nat) -- the legs U, V and W change; between a leg's two switches `dead` ns pass (R353, R354)
  | detect (freq amp ptest : Nat)  -- the carrier and the two polarity pulses of a detection attempt: kHz, per cent, us (R362)
  | norProgram (addr : Nat) (words : List Nat) -- words programmed into NOR
  | norErase (addr n : Nat)        -- n bytes of NOR erased
  | norWrite (addr : Nat) (bytes : List Byte) -- bytes programmed into NOR
  | coreFault (c cause : Nat)      -- core c takes an access fault (R528)
  | cqe (port cq : Nat) (dwords : List Nat) -- a completion queue entry (R427)
  | msix (port vec addr data : Nat) -- an MSI-X message
  | hostData (port fseq len : Nat) (fields : List (Nat × Nat × Nat)) -- fields (offset, bytes, value) of a data structure sent to the host; other bytes 0
  | hostBytes (port fseq : Nat) (bytes : List Byte) -- bytes sent to the host
  | hostBlocks (port fseq first : Nat) (data md : List (List Byte)) -- logical blocks sent to the host, data and metadata
  | hostAsk (port fseq first count : Nat) -- data asked of the host (R459)
  | usb (ep : Nat) (bytes : List Nat) -- bytes sent on a USB endpoint
  | usbStall (ep : Nat)            -- a STALL on a USB endpoint
  | filter (lane corner boost : Nat) -- the continuous-time filter of a lane takes a corner code and a boost (R120)
  | writer (s : Nat) (bits : List (Nat × Bool × Nat)) -- what WDOs has launched, without a break in this order: grid index, bit, sixty-fourths of a position by which it comes early (R282, R283)
  | rackFrame (type src dst : Nat) (bytes : List Nat) -- a rack-link frame sent (R690)
  deriving DecidableEq, Repr

/-- The vertical engines together. -/
structure Ve where
  engs  : Tab Eng := []
  adopt : Tab Nat := []              -- owner number of an engine that lost its jobs -> that of their adopter (R413)
  gen   : Tab Nat := []              -- times a command engine's jobs have been adopted
  held  : List (Nat × Trig) := []    -- records held while no command engine can take them: owner number, trigger (R413)
  deriving DecidableEq, Repr

structure Fsq where
  seqs : Tab Seq := []
  deriving DecidableEq, Repr

structure Srv where
  heads : Tab Head := []
  acts  : Tab Act := []
  deriving DecidableEq, Repr

structure Arm where
  links : Tab Link := []
  deriving DecidableEq, Repr

/-- The register file: fields that differ from their reset value, by key `i * 2048 + f.ctorIdx`. -/
abbrev RegFile := Tab Nat

/-- The device: its registers, its memory, and the state of each block beside its registers, under the chapter that gives it. -/
structure Dev where
  now   : Nat := 0          -- device time, 48 bits, fabric cycles (R55, ANG_TSLO)
  regs  : RegFile := []      -- every register field, 32-bit registers
  mem   : Tab Byte := []     -- table SRAM, DRAM as seen through the L2, core-local memory (R35), bytes that are not 0 (log 4)
  out   : List Out := []     -- what the present command says to the outside
  free  : Nat := 0          -- the model's own: free values used so far (log 3)
  timers : List (Timer × Nat) := [] -- the waits that run, with the cycle of their start
  bus   : Bus := {}          -- 02
  ang   : Ang := {}          -- 03
  lnx   : Lnx := {}          -- 04
  lanes : Tab Lane := []     -- 04, by lane 0-63
  itb   : Itb := {}          -- 05
  tpe   : Tpe := {}          -- 06
  fsq   : Fsq := {}          -- 07
  wrf   : Wrf := {}          -- 08
  srv   : Srv := {}          -- 09
  arm   : Arm := {}          -- 09
  spn   : Spn := {}          -- 10
  mac   : Tab Chan := []     -- 10, by channel 0-23
  ve    : Ve := {}           -- 11
  hif   : Hif := {}          -- 12
  dig   : Dig := {}          -- 12, R463-R465
  sch   : Sch := {}          -- 13
  rck   : Rck := {}          -- 19
  chk   : Chk := {}          -- 15
  memx  : MemSys := {}       -- 14
  dma   : Dma := {}          -- 14
  cmp   : Cmp := {}          -- 15
  cfg   : Cfg := {}          -- 18
  svc   : Svc := {}          -- 19
  hlt   : Hlt := {}          -- 16
  flt   : Flt := {}          -- 17
  evt   : Evt := {}          -- 17
  deriving DecidableEq, Repr

/-- The device, the commands that wait for it, first in first out, and the level of the TEST_MODE pin (R706). -/
structure State where
  dev     : Dev                     -- the device
  pending : List Instr              -- the model's own: the commands that wait, first in first out
  test    : Bool := false           -- TEST_MODE, as the latest power-on reset found it (R706)
  deriving DecidableEq, Repr

/-- Why a step would stop the machine. No meaning of this model raises one: every command of the table has an effect. -/
inductive Fault where
  /-- Raised by nothing: no rule gives a command an undefined effect that stops the device (safe). -/
  | none
  deriving DecidableEq, Repr

/-- Why a command has no outcome. -/
inductive Refusal where
  /-- Raised by `exec` for a command whose meaning is not written; every command has one (safe: nothing follows from it). -/
  | notModelled (mnemonic : String)
  deriving DecidableEq, Repr

/-- The machine right after power-on reset (R650): every register field at its reset value (an unlisted key of `regs`), every
buffer and queue empty, memory blank, no command waiting. -/
def State.reset : State := { dev := {}, pending := [] }

/-- What each per-instance table reads where it lists nothing: the state after reset. -/
def Seq.init : Seq := {}
def Wslot.init : Wslot := {}
def Eng.init : Eng := {}
def Head.init : Head := {}
def Act.init : Act := {}
def Link.init : Link := {}
def Lane.init : Lane := {}

end Sys2Proof.Machine
end

