-- ==== Sys2Proof/Machine/Ops.lean ====
section
/-! DEFINITION. The named operations over the register file, memory and time that every meaning uses: reading and writing a
register field, composing a register word, byte and word access to memory, and the passing of fabric cycles. -/

namespace Sys2Proof.Machine

/-! ### Register fields -/

/-- Severity and NOESC defaults of the 41 fault sources (R612): class, severity, NOESC. -/
def faultRow : Nat → Nat × Nat × Nat
  | 0 => (0, 2, 0) | 1 => (0, 1, 0)
  | 2 => (1, 1, 0) | 3 => (1, 0, 1) | 4 => (1, 2, 0) | 5 => (1, 2, 0) | 6 => (1, 1, 0) | 7 => (1, 2, 0)
  | 8 => (2, 2, 0) | 9 => (2, 2, 0)
  | 10 => (3, 0, 1) | 11 => (3, 1, 0) | 12 => (3, 1, 0) | 13 => (3, 2, 0)
  | 14 => (4, 1, 0) | 15 => (4, 3, 0) | 16 => (4, 0, 1) | 17 => (4, 3, 0) | 18 => (4, 1, 0) | 19 => (4, 1, 0)
  | 20 => (5, 4, 0) | 21 => (5, 1, 0) | 22 => (5, 4, 0) | 23 => (5, 3, 0) | 24 => (5, 1, 0)
  | 25 => (2, 2, 0) | 26 => (2, 2, 0) | 27 => (2, 2, 0) | 28 => (2, 3, 0)
  | 29 => (6, 2, 0) | 30 => (6, 0, 1) | 31 => (6, 1, 0)
  | 32 => (7, 0, 1) | 33 => (7, 2, 0) | 34 => (7, 4, 0) | 35 => (7, 1, 0) | 36 => (7, 4, 0)
  | 37 => (8, 2, 0) | 38 => (8, 1, 0) | 39 => (8, 1, 0)
  | 40 => (9, 0, 1)
  | _ => (10, 0, 1)

/-- The reset value of field `f` of instance `i`: the table's, but for the fields whose reset differs by instance. -/
def Fld.reset (f : Fld) (i : Nat) : Nat :=
  match f with
  | .ANG_REFOFF_OFF => i * 0x400000
  | .LANE_FIR_COEF => if i % 16 = 4 then 0x100 else 0
  | .FLT_SRCCFG_SEV => (faultRow i).2.1
  | .FLT_SRCCFG_NOESC => (faultRow i).2.2
  | _ => f.info.rst

/-- The key of field `f` of instance `i` in the register file. -/
def Fld.key (f : Fld) (i : Nat) : Nat := i * 2048 + f.ctorIdx

/-- The stored value of a field; an unlisted field holds its reset value. -/
def RegFile.get (r : RegFile) (f : Fld) (i : Nat) : Nat := Tab.getD r (f.key i) (f.reset i)

/-- The register file with a field written: the value is cut to the field's width, and a reset value is never listed. -/
def RegFile.set (r : RegFile) (f : Fld) (i v : Nat) : RegFile :=
  Tab.store r (f.reset i) (f.key i) (v % 2 ^ f.info.w)

/-- Field `f` of instance `i`. -/
def Dev.rd (d : Dev) (f : Fld) (i : Nat := 0) : Nat := d.regs.get f i

/-- Field `f` of instance `i` is not 0. -/
def Dev.on (d : Dev) (f : Fld) (i : Nat := 0) : Bool := d.rd f i != 0

/-- Write field `f` of instance `i`. -/
def Dev.wr (d : Dev) (f : Fld) (i v : Nat) : Dev := { d with regs := d.regs.set f i v }

/-- A wait begins, or begins anew. -/
def Dev.beginWait (d : Dev) (t : Timer) : Dev := { d with timers := (d.timers.filter fun x => x.1 != t) ++ [(t, d.now)] }

/-- A wait is over. -/
def Dev.endWait (d : Dev) (t : Timer) : Dev := { d with timers := d.timers.filter fun x => x.1 != t }

/-- A wait runs, and `n` cycles of it have passed. -/
def Dev.waited (d : Dev) (t : Timer) (n : Nat) : Bool := d.timers.any fun x => x.1 == t && decide (x.2 + n ≤ d.now)

/-- The cycle in which a wait began; the reset of the device where it has not begun anew. -/
def Dev.waitFrom (d : Dev) (t : Timer) : Nat := ((d.timers.find? fun x => x.1 == t).map Prod.snd).getD 0

/-- What happens once in each period of `n` cycles: `f` once the present one has passed, nothing before. -/
def Dev.periodic (d : Dev) (t : Timer) (n : Nat) (f : Dev → Dev) : Dev :=
  let k := d.waitFrom t + n
  if d.now < k then d else f { d with timers := (d.timers.filter fun x => x.1 != t) ++ [(t, k)] }

/-- A periodic wait begins its next period, `n` cycles behind the last. -/
def Dev.nextPeriod (d : Dev) (t : Timer) (n : Nat) : Dev :=
  { d with timers := d.timers.map fun x => if x.1 == t then (t, x.2 + n) else x }

/-- Write a one-bit field. -/
def Dev.wrb (d : Dev) (f : Fld) (i : Nat) (b : Bool) : Dev := d.wr f i (bnat b)

/-- Set a sticky bit. -/
def Dev.stick (d : Dev) (f : Fld) (i : Nat := 0) : Dev := d.wr f i 1

/-- Advance a counter field by `n`, stopping at its largest value. -/
def Dev.count (d : Dev) (f : Fld) (i : Nat := 0) (n : Nat := 1) : Dev := d.wr f i (satAdd f.info.w (d.rd f i) n)

/-- Advance a counter field by `n`, modulo its width. -/
def Dev.tally (d : Dev) (f : Fld) (i : Nat := 0) (n : Nat := 1) : Dev := d.wr f i (d.rd f i + n)

/-- Set or clear bit `k` of field `f`. -/
def Dev.wrBit (d : Dev) (f : Fld) (i k : Nat) (b : Bool) : Dev :=
  d.wr f i (if b then setBit (d.rd f i) k else clearBit (d.rd f i) k)

/-- A signed field as an integer. -/
def Dev.rdInt (d : Dev) (f : Fld) (i : Nat := 0) : Int := signed f.info.w (d.rd f i)

/-- Return every field of a register instance to its reset value. -/
def Dev.resetReg (d : Dev) (r : Reg) (i : Nat) : Dev :=
  { d with regs := r.info.flds.foldl (fun t f => Tab.del t (f.key i)) d.regs }

/-- Return every instance of the registers that `keep` does not name to its reset value, in block `b`. -/
def Dev.resetBlock (d : Dev) (b : Block) (keep : Fld → Bool) : Dev :=
  let fs := (b.regs.flatMap fun r => r.info.flds.filter fun f => !keep f).map Fld.ctorIdx
  { d with regs := d.regs.filter fun e => !fs.contains (e.1 % 2048),
           bus := { d.bus with pend := d.bus.pend.filter fun p => p.reg.info.block != b } }

/-- Compose a register word from field values (R15: reserved bits read 0). -/
def composeWord (flds : List Fld) (val : Fld → Nat) : Nat :=
  flds.foldl (fun acc f => acc + val f % 2 ^ f.info.w * 2 ^ f.info.lo) 0

/-- The part of a written word that field `f` receives. -/
def Fld.slice (f : Fld) (w : Nat) : Nat := bits w f.info.lo f.info.w

/-! ### Memory -/

/-- What a byte that no write has listed reads as: 0 (DESIGN CHOICE, log 4). -/
def memBlank : Byte := 0

/-- One byte of the 40-bit address space. -/
def Dev.ld8 (d : Dev) (a : Nat) : Byte := Tab.getD d.mem a memBlank

/-- The array that holds an address, by the code of MEM_UELOGHI.ARRAY: 0 DRAM, 1 the L2 data array in its diagnostic window, 5
table SRAM, 6 core-local memory; 7 for any other (R35, R37, R512). -/
def arrayOf (a : Nat) : Nat :=
  if 0x1000000000 ≤ a ∧ a < 0x1400000000 then 0
  else if a < 0x0004000000 then 1
  else if 0x0004000000 ≤ a ∧ a < 0x0005800000 then 5
  else if 0x0008000000 ≤ a ∧ a < 0x0008800000 ∧ a % 0x100000 < 0xC0000 then 6
  else 7

/-- An address of memory that exists: DRAM up to its data capacity, the diagnostic window while the L2 is disabled (R37, R515,
R524). -/
def Dev.memExists (d : Dev) (a : Nat) : Bool :=
  let r := arrayOf a
  r == 5 || r == 6 || (r == 1 && !d.on .MEM_L2CTL_ENABLE) || (r == 0 && decide (a < 0x1000000000 + d.rd .MEM_DRSTAT_CAP * 2 ^ 28))

/-- The requester codes of MEM_UELOGHI.REQ for the HIF data mover and the media path (R529), which name them in a bus error. -/
def reqHif : Nat := 0x19
def reqMedia : Nat := 0x1A

/-- Every byte of a range exists. -/
def Dev.rangeExists (d : Dev) (a n : Nat) : Bool := n == 0 || (d.memExists a && d.memExists (a + n - 1) && arrayOf a == arrayOf (a + n - 1))

/-- The word an armed flip-mask test would store at address `a` (R531), where it alters one: which array, and whether the error
is uncorrectable. Two inversions of one bit leave it right. -/
def Dev.flipped (d : Dev) (a : Nat) : Option (Nat × Bool) :=
  let r := arrayOf a
  let m := popcount (d.rd .MEM_FLIPMASK_MASK)
  let two := d.on .MEM_FLIPMASK_DB1EN && d.rd .MEM_FLIPMASK_DBIT1 != d.rd .MEM_FLIPMASK_DBIT0
  match d.rd .MEM_FLIPCTL_TARGET with
  | 0 => if r = 0 ∧ (two ∨ !d.on .MEM_FLIPMASK_DB1EN) then some (0, two) else none
  | 1 => if r = 0 ∧ 0 < m then some (0, decide (1 < m)) else none
  | 2 => if r = 0 ∧ 0 < m ∧ d.on .MEM_L2CTL_ENABLE then some (1, false) else none
  | 3 => if r = 5 ∧ 0 < m then some (5, true) else none
  | 4 => if r = 6 ∧ 0 < m then some (6, true) else none
  | _ => none

/-- A store into word `w`: what the word held of bad check bits goes, but for what this very command has put there. -/
def Dev.cleanWord (d : Dev) (w : Nat) : Dev :=
  if d.memx.bad.isEmpty then d
  else { d with memx := { d.memx with bad := d.memx.bad.filter fun b => b.addr != w || b.cycle == d.now } }

/-- The armed flip-mask test alters the write that stores its word (R531). -/
def Dev.flipWord (d : Dev) (w : Nat) : Dev :=
  if !d.on .MEM_FLIPCTL_ARM || w != d.rd .MEM_FLIPADDRLO_ADDR * 8 + d.rd .MEM_FLIPADDRHI_ADDR * 2 ^ 32 then d
  else
    let d := match d.flipped w with
      | some (r, f) =>
        let b : BadWord := { addr := w, array := r, fatal := f, cycle := d.now }
        { d with memx := { d.memx with bad := d.memx.bad ++ [b] } }
      | none => d
    if d.rd .MEM_FLIPCTL_TARGET ≤ 4 then (d.wr .MEM_FLIPCTL_ARM 0 0).wr .MEM_FLIPCTL_DONE 0 1 else d

/-- The canonical form of memory: addresses strictly rising, and no entry that an unlisted address reads as. -/
def Memory.wf (m : Tab Byte) : Bool := decide (m.Pairwise fun a b => a.1 < b.1) && m.all fun e => e.2 != memBlank

/-- The bytes at the addresses that `p` names are lost. -/
def Dev.dropMem (d : Dev) (p : Nat → Bool) : Dev := { d with mem := d.mem.filter fun e => !p e.1 }

/-- `n` bytes from `a` take their value from another table. -/
def Dev.refill (d : Dev) (t : Tab Byte) (a n : Nat) : Dev :=
  { d with mem := (List.range n).foldl (fun m k => Tab.store m memBlank (a + k) (Tab.getD t (a + k) memBlank)) d.mem }

/-- Write one byte: wrong check bits in its word are replaced, and an armed flip-mask test may act (R526, R531). -/
def Dev.st8 (d : Dev) (a : Nat) (b : Byte) : Dev :=
  let w := a / 8 * 8
  (({ d with mem := Tab.store d.mem memBlank a b }).cleanWord w).flipWord w

/-- `n` bytes from `a`. -/
def Dev.ldBytes (d : Dev) (a n : Nat) : List Byte := (List.range n).map fun i => d.ld8 (a + i)

/-- Little-endian value of `n` bytes from `a`. -/
def Dev.ldN (d : Dev) (a : Nat) : Nat → Nat
  | 0 => 0
  | n + 1 => (d.ld8 a).toNat + 256 * d.ldN (a + 1) n

/-- Store the low `n` bytes of `v` from `a`, little-endian. -/
def Dev.stN (d : Dev) (a v : Nat) : Nat → Dev
  | 0 => d
  | n + 1 => (d.st8 a (BitVec.ofNat 8 v)).stN (a + 1) (v / 256) n

/-- A 32-bit word. -/
def Dev.ld32 (d : Dev) (a : Nat) : Nat := d.ldN a 4

/-- Store a 32-bit word. -/
def Dev.st32 (d : Dev) (a v : Nat) : Dev := d.stN a v 4

/-- Store a list of bytes from `a`. -/
def Dev.stBytes (d : Dev) (a : Nat) : List Byte → Dev
  | [] => d
  | b :: bs => (d.st8 a b).stBytes (a + 1) bs

/-- Store a block of bytes in transfers of whole lines: each line it covers in full loses its poison (R527). -/
def Dev.putBytes (d : Dev) (a : Nat) (bs : List Byte) : Dev :=
  let d := d.stBytes a bs
  { d with memx := { d.memx with poison := d.memx.poison.filter fun l => !(decide (a ≤ l) && decide (l + 128 ≤ a + bs.length)) } }

/-- Store a list of 32-bit words from `a`. -/
def Dev.stWords (d : Dev) (a : Nat) : List Nat → Dev
  | [] => d
  | w :: ws => (d.st32 a w).stWords (a + 4) ws

/-- `a` lies in the `n` bytes from `b`. -/
def within (b n a : Nat) : Bool := decide (b ≤ a) && decide (a < b + n)

/-- Byte `a` lies in a table that masters read but do not write: the zone table and the layout map after handover (R196), the defect
map and the ledger from CFG_RESTORE.DONE on (R234, R575, R669). What such a write does is DESIGN CHOICE (log 81): nothing. -/
def Dev.closed (d : Dev) (a : Nat) : Bool :=
  (d.on .SYS_STAT_HANDOVER &&
    (within (0x0004000000 + d.rd .TPE_ZONEBASE_BASE * 4096) (32 * d.rd .TPE_ZONECNT_COUNT) a ||
      within (0x0004000000 + d.rd .TPE_LAYBASE_BASE * 4096) (16 * d.rd .TPE_LAYCNT_COUNT) a)) ||
  (d.on .CFG_STAT_RESTORED &&
    (within (d.rd .TPE_DEFLO_ADDR * 2 ^ 12 + d.rd .TPE_DEFHI_ADDR * 2 ^ 32) (16 * d.rd .TPE_DEFCNT_COUNT) a ||
      within (d.rd .HLT_LEDGERLO_ADDR * 2 ^ 20 + d.rd .HLT_LEDGERHI_ADDR * 2 ^ 32) ((d.rd .HLT_LEDGERHI_NSURF + 1) * 2 ^ 24) a))

/-- A master stores the low `n` bytes of `v` from `a`: a closed byte stays. -/
def Dev.mstN (d : Dev) (a v : Nat) : Nat → Dev
  | 0 => d
  | n + 1 => (if d.closed a then d else d.st8 a (BitVec.ofNat 8 v)).mstN (a + 1) (v / 256) n

/-- A master stores a block of bytes from `a`: closed bytes stay. -/
def Dev.mputBytes (d : Dev) (a : Nat) (bs : List Byte) : Dev :=
  let was := d.ldBytes a bs.length
  d.putBytes a ((List.range bs.length).map fun k => if d.closed (a + k) then was.getD k memBlank else bs.getD k memBlank)

/-- Copy `n` bytes from `src` to `dst`, lowest first. -/
def Dev.copyMem (d : Dev) (src dst n : Nat) : Dev := d.stBytes dst (d.ldBytes src n)

/-- Base of table SRAM, of the DRAM window, of register space and of the control-store windows (R35). -/
def tableSram : Nat := 0x0004000000
def dramBase : Nat := 0x1000000000
def regBase : Nat := 0x00F0000000
def fsqStore : Nat := 0x0006000000
def veStore : Nat := 0x0006080000
def coreLocal : Nat := 0x0008000000

/-! ### Time, outputs and free values -/

/-- Device time, 48 bits (ANG_TSLO, ANG_TSHI). -/
def Dev.time (d : Dev) : Nat := mod48 d.now

/-- Emit an output of this command. -/
def Dev.emit (d : Dev) (o : Out) : Dev := { d with out := d.out ++ [o] }

/-- The next free value. -/
def Dev.fresh (d : Dev) : Nat := Config.freeValue d.free

/-- The device after a free value has been taken. -/
def Dev.used (d : Dev) : Dev := { d with free := d.free + 1 }

end Sys2Proof.Machine
end

