-- ==== Sys2Proof/Machine/Geometry.lean ====
section
/-! DEFINITION. Where things are on the track: frames of reference (R90, R94), wedges (R89), the grid and the data windows
(R198, R199), which synthesisers run (R98, R101), and the position counters of a sequencer (R250). -/

namespace Sys2Proof.Machine

/-- Actuator of head `h` (R83) and of head slot `s` (R12). -/
def actOfHead (h : Nat) : Nat := h / 32
def surfOfHead (h : Nat) : Nat := h % 32
def actOfSlot (s : Nat) : Nat := s / 8

/-! ### Frames of reference (R90, R94) -/

/-- Offset of frame `f` of head `h` (R94): ABS, LEAD, WRITE, TRAIL. -/
def Dev.frameOff (d : Dev) (f h : Nat) : Nat :=
  let lead := d.rd .ANG_SOFF_OFF (surfOfHead h) + d.rd .ANG_HOFF_OFF h
  (match f with
  | 0 => 0
  | 1 => lead
  | 2 => lead + d.rd .ANG_HSKEW_WOFF h
  | _ => lead + d.rd .ANG_HSKEW_TOFF h) % rev

/-- The angle of a frame (R94). -/
def Dev.frameAngle (d : Dev) (f h : Nat) : Nat := subMod 48 d.ang.val (d.frameOff f h)

/-- A compare with target `t` in frame `f` of head `h` meets its condition (R95). -/
def Dev.cmpMet (d : Dev) (f h t : Nat) : Bool := decide (subMod 48 (d.frameAngle f h) t < 2 ^ 47)

/-- Wedges per revolution. -/
def Dev.wedges (d : Dev) : Nat := 64 * d.rd .ANG_GEOM_WEDGES

/-- Position of wedge `w` (R89). -/
def Dev.wedgePos (d : Dev) (w : Nat) : Nat := w * rev / d.wedges

/-! ### What falls in the present cycle (R79, R89, R90)

ANG moves by up to two ticks a cycle (R79), so it can step over a position: a position falls in the cycle in which ANG first
reaches it or passes it (log 69). -/

/-- Ticks ANG has moved in the present cycle. -/
def Dev.moved (d : Dev) : Nat := subMod 48 d.ang.val d.ang.prev

/-- ANG reaches the position `x` of its revolution in the present cycle. -/
def Dev.falls (d : Dev) (x : Nat) : Bool := decide (subMod 24 d.ang.val x < d.moved)

/-- A frame of reference offset by `off` reaches the start of a wedge in the present cycle: which wedge (R89). -/
def Dev.wedgeNow (d : Dev) (off : Nat) : Option Nat :=
  let f := subMod 24 d.ang.val off
  let w := ((f + 1) * d.wedges - 1) / rev
  if f - d.wedgePos w < d.moved then some w else none

/-- Offset of an owner's strobes (R89, R90). -/
def Dev.strobeOff (d : Dev) : Owner → Nat
  | .ref => 0
  | .surf s => d.rd .ANG_SOFF_OFF s.val
  | .head h => d.frameOff 1 h.val

/-- A head whose offset has moved ahead does not meet the same wedge again (R91). -/
def Dev.skips (d : Dev) : Owner → Bool
  | .head h => match Tab.look d.ang.skip h.val with
    | some x => let k := subMod 48 d.ang.val x; decide (2 ^ 47 ≤ k) || decide (k < d.moved)
    | none => false
  | _ => false

/-- The wedge whose strobe of an owner falls in the present cycle; none while the angle base is not valid (R89, R90, R92). -/
def Dev.strobeNow (d : Dev) (o : Owner) : Option Nat :=
  if d.rd .ANG_STAT_STATE != 2 || d.skips o then none else d.wedgeNow (d.strobeOff o)

/-- The reference index falls in the present cycle. -/
def Dev.indexNow (d : Dev) : Bool := d.strobeNow .ref == some 0

/-- ANG has reached position `x` after cycle `t`, and within the last 1,024 ticks. -/
def Dev.fellSince (d : Dev) (x t : Nat) : Bool :=
  let f := subMod 24 d.ang.val x
  d.rd .ANG_STAT_STATE == 2 && decide (f < 1024) && decide (f * 65536 < d.ang.rate.getD 0 * (d.now - t))

/-- A reference index has fallen after cycle `t`, and within the last 1,024 ticks: what an index makes happen at once takes the
commands of the cycles behind it (log 2). -/
def Dev.indexSince (d : Dev) (t : Nat) : Bool := d.fellSince 0 t

/-- A reference wedge strobe has fallen after cycle `t`, and within the last 1,024 ticks. -/
def Dev.strobeSince (d : Dev) (t : Nat) : Bool :=
  let f := d.ang.val % rev
  let k := f - d.wedgePos (((f + 1) * d.wedges - 1) / rev)
  d.rd .ANG_STAT_STATE == 2 && decide (k < 1024) && decide (k * 65536 < d.ang.rate.getD 0 * (d.now - t))

/-- What fell in cycle `x`, if it did, is after cycle `t`, and within the last 512 cycles. -/
def Dev.lately (d : Dev) (x : Option Nat) (t : Nat) : Bool := x.any fun x => decide (t ≤ x) && decide (d.now < x + 512)

/-! ### The grid and the data windows (R198, R199) -/

/-- First position of the grid at or after angle `t` (ticks). -/
def firstPos (spr t : Nat) : Nat := (t * spr + (rev - 1)) / rev

/-- The usable run of data window `w` of a track with this geometry: its first grid position and its length, the resume pad
left out. -/
def windowAt (spr svt spg rpad wedges w : Nat) : Nat × Nat :=
  let p (k : Nat) : Nat := k * rev / wedges
  let a := firstPos spr (p w + svt) + 8 * rpad
  let b := firstPos spr (p (w + 1) - spg)
  (a, b - a)

/-- Grid position of usable index `u`. -/
def gridOf : List (Nat × Nat) → Nat → Nat
  | [], u => u
  | (a, n) :: l, u => if u < n then a + u else gridOf l (u - n)

/-- Usable index of grid position `k`: that of the first usable position at or after it. -/
def usableOf : List (Nat × Nat) → Nat → Nat
  | [], _ => 0
  | (a, n) :: l, k => if k < a + n then k - a else n + usableOf l k

/-- Grid position `k` is usable. -/
def isUsable (ws : List (Nat × Nat)) (k : Nat) : Bool := ws.any fun w => decide (w.1 ≤ k) && decide (k < w.1 + w.2)

/-! ### Synthesisers (R98-R102) -/

/-- Fields of synthesiser `k`: pair `k`, or writer `k - 32`. -/
def synEnable (k : Nat) : Fld × Nat := if k < 32 then (.ANG_SCKRATE_ENABLE, k) else (.ANG_WCKRATE_ENABLE, k - 32)
def synUnowned (k : Nat) : Fld × Nat := if k < 32 then (.ANG_SCKSTAT_UNOWNED, k) else (.ANG_WCKSTAT_UNOWNED, k - 32)
def synOwner (k : Nat) : Fld × Nat := if k < 32 then (.ANG_SCKSTAT_OWNER, k) else (.ANG_WCKSTAT_OWNER, k - 32)
def synRange (k : Nat) : Fld × Nat := if k < 32 then (.ANG_SCKSTAT_RANGE, k) else (.ANG_WCKSTAT_RANGE, k - 32)
def synRun (k : Nat) : Fld × Nat := if k < 32 then (.ANG_SCKSTAT_RUN, k) else (.ANG_WCKSTAT_RUN, k - 32)

def synSpr (k : Nat) : Fld × Nat := if k < 32 then (.ANG_SCKRATE_SPR, k) else (.ANG_WCKRATE_SPR, k - 32)
def synPhase (k : Nat) : Fld × Nat := if k < 32 then (.ANG_SCKPHASE_PHASE, k) else (.ANG_WCKPHASE_PHASE, k - 32)

/-- The edges per revolution of synthesiser `k`. -/
def Dev.spr (d : Dev) (k : Nat) : Nat := d.rd (synSpr k).1 (synSpr k).2

/-- The output frequency of synthesiser `k`, SPR times the revolutions per second of the rate estimate, lies within 0.50 to
3.78 GHz (R101). One unit of the rate is 2^-40 revolution in a fabric cycle of 0.8 ns. -/
def Dev.inRange (d : Dev) (k : Nat) : Bool :=
  let f := d.spr k * d.ang.rate.getD 0 * 1250000000
  decide (500000000 * 2 ^ 40 ≤ f) && decide (f ≤ 3780000000 * 2 ^ 40)

/-- Edges are produced: enabled, owned, within range, and the suppression of a new grid over (R98, R100, R101). -/
def Dev.synRuns (d : Dev) (k : Nat) : Bool :=
  d.on (synEnable k).1 (synEnable k).2 && !d.on (synUnowned k).1 (synUnowned k).2 && d.inRange k &&
    decide (Tab.getD d.ang.resume k 0 ≤ d.now)

/-- In a frame offset by `off`: the number of synthesiser `k`'s latest edge, counted on over the revolutions, and how many edges
fall in the present cycle (R99). -/
def Dev.edgesNow (d : Dev) (k off : Nat) : Nat × Nat :=
  let a := subMod 48 d.ang.prev (off + d.rd (synPhase k).1 (synPhase k).2)
  let n := (a + d.moved) * d.spr k / rev
  (n, n - a * d.spr k / rev)

/-- The grid index k of an edge (R99). -/
def Dev.edgeIndex (d : Dev) (k n : Nat) : Nat := n % max 1 (d.spr k)

/-! ### A lane's own edges (R99, R116, R117) -/

/-- Offset of the frame that clocks lane `l`: LEAD of its pair's owner, TRAIL on the odd lane (R99). -/
def Dev.laneOff (d : Dev) (l : Nat) : Nat := d.frameOff (if l % 2 = 0 then 1 else 3) (d.rd .ANG_SCKSTAT_OWNER (l / 2))

/-- Number of lane `l`'s latest edge, counted on over the revolutions. -/
def Dev.laneEdge (d : Dev) (l : Nat) : Nat := (d.edgesNow (l / 2) (d.laneOff l)).1

/-- Lane `l`'s latest edge of grid index `k`. -/
def Dev.edgeAt (d : Dev) (l k : Nat) : Nat :=
  let spr := max 1 (d.spr (l / 2))
  let n := d.laneEdge l
  n - (n + spr - k % spr) % spr

/-- Lane `l`'s edge number `c` cycles hence, at the loop's present rate. -/
def Dev.edgeIn (d : Dev) (l c : Nat) : Nat :=
  let k := l / 2
  let a := subMod 48 d.ang.val (d.laneOff l + d.rd (synPhase k).1 (synPhase k).2)
  (a + (d.ang.sub + d.ang.rate.getD 0 * c) / 65536) * d.spr k / rev

/-- The sample of lane `r` that is its latest when lane `l` takes sample `e` of its own trimmed grid (R117, R127). -/
def Dev.coincides (d : Dev) (l e r : Nat) : Nat :=
  let place (x : Nat) : Int := subMod 48 d.ang.val (d.laneOff x + d.rd (synPhase (x / 2)).1 (synPhase (x / 2)).2)
  let trim (x : Nat) : Int := signed 7 (d.rd .LANE_TPHASE_PHASE x)
  let spr (x : Nat) : Int := max 1 (d.spr (x / 2))
  let back := place l * 64 * spr l - (64 * e + trim l) * rev
  (((place r * 64 * spr l - back) * spr r - trim r * spr l * rev) / (64 * spr l * rev)).toNat

/-! ### Position counters (R250) -/

/-- The sequencer state of slot `s`. -/
def Dev.seq (d : Dev) (s : Nat) : Seq := Tab.getD d.fsq.seqs s Seq.init

/-- The windows of a job's track, from the geometry it copied (R247). -/
def Job.windows (j : Job) (wedges : Nat) : List (Nat × Nat) := (List.range wedges).map (windowAt j.spr j.svt j.spg j.rpad wedges)

/-- Usable index of the latest usable position of a job's track at or before grid position `k`. -/
def Job.indexAt (j : Job) (wedges k : Nat) : Nat :=
  let ws := j.windows wedges
  let n := usableOf ws k
  if isUsable ws k then n else (n + j.u - 1) % max 1 j.u

/-- The synthesiser that a counter of slot `s` counts: 0 LEAD and 1 TRAIL the pair's, 2 WRITE the writer's. -/
def ctrSyn (s : Nat) (j : Job) (c : Nat) : Nat := if c = 2 then 32 + s else j.pair

/-- The synthesiser of a counter runs for the job's head, and the angle base is valid. -/
def Dev.counterRuns (d : Dev) (s : Nat) (j : Job) (c : Nat) : Bool :=
  let k := ctrSyn s j c
  (d.rd .ANG_STAT_STATE == 2) && d.synRuns k && d.rd (synOwner k).1 (synOwner k).2 == j.head

/-- The frame code of a counter (R94). -/
def ctrFrame (c : Nat) : Nat := if c = 0 then 1 else if c = 1 then 3 else 2

/-- The edge count of a counter's synthesiser in the counter's frame, and the edges of the present cycle (R99). -/
def Dev.ctrEdges (d : Dev) (s : Nat) (j : Job) (c : Nat) : Nat × Nat :=
  d.edgesNow (ctrSyn s j c) (d.frameOff (ctrFrame c) j.head)

/-- The index a counter held when its synthesiser stopped (R250). -/
def Seq.heldAt (q : Seq) (c : Nat) : Nat := if c = 0 then q.heldL else if c = 1 then q.heldT else q.heldW

/-- A position counter of slot `s`: its usable index, and whether its latest edge is excluded or in a resume pad. -/
def Dev.counterAt (d : Dev) (s c : Nat) : Nat × Bool :=
  match (d.seq s).job with
  | none => (0, false)
  | some j =>
    if d.counterRuns s j c then
      let k := d.edgeIndex (ctrSyn s j c) (d.ctrEdges s j c).1
      (j.indexAt j.w k, !isUsable (j.windows j.w) k)
    else ((d.seq s).heldAt c, false)

/-- A counter meets usable index `u` in the present cycle: an edge of it falls on that place (R251). -/
def Dev.meets (d : Dev) (s c u : Nat) : Bool :=
  match (d.seq s).job with
  | none => false
  | some j =>
    let e := d.ctrEdges s j c
    let k := gridOf (j.windows j.w) (u % max 1 j.u)
    let spr := max 1 (d.spr (ctrSyn s j c))
    d.counterRuns s j c && decide ((e.1 + spr - k % spr) % spr < e.2)

/-- The LEAD counter of slot `s` runs (FSQ_POS.VALID). -/
def Dev.leadRuns (d : Dev) (s : Nat) : Bool := (((d.seq s).job).map fun j => d.counterRuns s j 0).getD false

end Sys2Proof.Machine
end

