-- ==== Sys2Proof/Machine/Events.lean ====
section
/-! DEFINITION. What a register reads at this moment, where some of its fields are computed from the rest of the state, and
the event recorder's intake: queueing a record (R630, R631), closing pages (R638), and storing (R633-R636). -/

namespace Sys2Proof.Machine

/-! ### Views -/

/-- State codes shared by lanes (R134) and decode engines (R187). -/
def unitOff : Nat := 0
def unitCal : Nat := 1
def unitJoin : Nat := 2
def unitServ : Nat := 3
def unitOut : Nat := 4

/-- Angle base states (R84). -/
def abuIdle : Nat := 0
def abuAcquire : Nat := 1
def abuLocked : Nat := 2
def abuLost : Nat := 3

/-- The angle base is valid: LOCKED only (R84). -/
def Dev.angValid (d : Dev) : Bool := d.rd .ANG_STAT_STATE == abuLocked

/-- The state field of reader `r` (R77). -/
def readerFld : Nat → Fld
  | 0 => .ANG_REFSTAT_REFA | 1 => .ANG_REFSTAT_REFB | 2 => .ANG_REFSTAT_REFC | _ => .ANG_REFSTAT_REFD

/-- Reader `r` is usable: in TRACK or SUSPECT (R76). -/
def Dev.usable (d : Dev) (r : Nat) : Bool := d.rd (readerFld r) == 2 || d.rd (readerFld r) == 3

/-- The usable readers as bits [3:0]. -/
def Dev.usableMask (d : Dev) : Nat := (List.range 4).foldl (fun m r => m + bnat (d.usable r) * 2 ^ r) 0

/-- Declared readers that are usable (R76). -/
def Dev.usableDeclared (d : Dev) : Nat :=
  ((List.range 4).filter fun r => d.usable r && bit (d.rd .ANG_REFCTL_USE) r).length

/-- The redundancy rule (R76). -/
def Dev.redundancy (d : Dev) : Bool := decide (2 ≤ d.usableDeclared)

/-- The handover has been made (SYS_STAT.HANDOVER). -/
def Dev.handed (d : Dev) : Bool := d.on .SYS_STAT_HANDOVER

/-- A WD value is buffered for an instance of one of the registers. -/
def Dev.pendsAny (d : Dev) (rs : List Reg) : Bool := d.bus.pend.any fun p => rs.contains p.reg

/-- A WD value is buffered for instance `i` of register `r`. -/
def Dev.pends (d : Dev) (r : Reg) (i : Nat) : Bool := d.bus.pend.any fun p => p.reg == r && p.idx == i

/-- Bits 0, 1, … of a pending summary. -/
def maskOf (bs : List Bool) : Nat := bs.foldr (fun b m => bnat b + 2 * m) 0

/-- The lane to which reader input `n` has an applied route, if any (R109). -/
def Dev.laneOf (d : Dev) (n : Nat) : Option Nat :=
  (List.range 64).find? fun l => d.on .LNX_ROUTE_EN l && d.rd .LNX_ROUTE_SRC l == 0 && d.rd .LNX_ROUTE_INPUT l == n

/-- The reference head of actuator `a` (R325): the bound head of its lowest busy slot, a head a seek has bound, or the guide
head; and whether it is the guide head. -/
def Dev.refHead (d : Dev) (a : Nat) : Option Nat × Bool :=
  let x := Tab.getD d.srv.acts a Act.init
  let busy := (List.range 8).findSome? fun j => (d.seq (8 * a + j)).job.map Job.head
  match busy, x.ref with
  | some h, _ => (some h, false)
  | none, some h => (some h, false)
  | none, none => (x.guide, x.guide.isSome)

/-- WRF's state of slot `s`. -/
def Dev.wslot (d : Dev) (s : Nat) : Wslot := Tab.getD d.wrf.slots s Wslot.init

/-- The writer's latest edge is a position of its slot: at an excluded position its output is idle (R253). -/
def Dev.launching (d : Dev) (s : Nat) : Bool :=
  ((d.seq s).job.map fun j => (d.wslot s).wire.any fun b => b.edge == (d.ctrEdges s j 2).1).getD false

/-- Effective severity of source `n` while it is pending (R619). -/
def Dev.fltPend (d : Dev) (n : Nat) : Bool :=
  if n < 32 then bit (d.rd .FLT_PEND0_PEND) n else bit (d.rd .FLT_PEND1_PEND) (n - 32)

/-- The sources that are pending. -/
def Dev.pendingSources (d : Dev) : List Nat := (List.range 41).filter d.fltPend

/-- Highest effective severity pending (FLT_STAT.TOPSEV). -/
def Dev.topSev (d : Dev) : Nat := d.pendingSources.foldl (fun m n => max m (d.rd .FLT_SRCSTAT_EFFSEV n)) 0

/-- Records not yet flushed (R635). -/
def Dev.unflushed (d : Dev) : Nat := d.evt.page.length + (d.evt.closed.map List.length).sum

/-- Watchdog count left, in 0.1 ms: 125,000 fabric cycles each; it pauses while the core is powered down (R625). -/
def Dev.wdRemain (d : Dev) (c : Nat) : Nat :=
  let p := max 1 (min 100 (d.rd .FLT_WDCTL_PERIOD c))
  let now := if c = 0 then d.now else d.flt.wdHold.getD d.now
  if d.on .FLT_WDCTL_EN c then p - (now - Tab.getD d.flt.wdAt c 0) / 125000 else 0

/-- Every condition of R290 that does not belong to one sector: WDOs of slot `s` may drive for job `j`. -/
def Dev.fence (d : Dev) (s : Nat) (j : Job) : Bool :=
  let w := d.wslot s
  let k := 32 + s
  d.angValid && d.synRuns k && d.rd (synOwner k).1 (synOwner k).2 == j.head && !d.on .ANG_WCKSTAT_RANGE s &&
    d.on .WRF_CTL_ENABLE && d.on .WRF_CTL_WEN && bit (d.rd .WRF_HWEN_WEN (j.head / 32)) (j.head % 32) &&
    w.selHead == some j.head && !w.offTrk && w.onTrack && !d.on .WRF_GSTAT_INHIBIT (actOfSlot s) && !w.feFault &&
    !d.on .FLT_STAT_SAFEACT && !w.idleJob

/-- Encoders busy (R286): prepared sectors not ready, at most eight. -/
def Dev.encBusy (d : Dev) : Nat := min 8 ((d.wrf.slots.map fun w => (w.2.prep.filter fun p => !p.ready).length).sum)

/-- Vertical engine `e` (R36), its queue as far as it has room (R402), and its triggers of priority `p`. -/
def Dev.engNow (d : Dev) (e : Nat) : Eng := Tab.getD d.ve.engs e Eng.init
def queueRoom (e : Nat) : Nat := if e < 4 then 64 else 1024
def Dev.trigQueue (d : Dev) (e : Nat) : List Trig := (d.engNow e).queues.take (queueRoom e)
def Dev.trigCount (d : Dev) (e p : Nat) : Nat := min 255 ((d.trigQueue e).filter fun t => t.prio == p).length

/-- A general register as VE_GLO and VE_GHI show it: readable in HALTED and MCHK only (R419). -/
def Dev.shownReg (d : Dev) (i : Nat) : Nat :=
  let st := d.rd .VE_ESTAT_STATE (i / 32)
  if st == 3 || st == 4 then Tab.getD (d.engNow (i / 32)).g (i % 32) 0 else 0

/-- Actuators in SEEK or LOADING (R496). -/
def Dev.seeks (d : Dev) : Nat := ((List.range 4).filter fun a => d.rd .SRV_STAT_MODE a == 3 || d.rd .SRV_STAT_MODE a == 1).length

/-- The spindle's charge (R495): nothing without a grant, SPINW from the grant until ATSPEED, then RUNW. -/
def Dev.spindlePower (d : Dev) : Nat :=
  if d.rd .SPN_GRANT_LIMIT = 0 then 0 else if d.sch.charge then d.rd .SCH_PWRSPN_SPINW else d.rd .SCH_PWRSPN_RUNW

/-- An actuator's charge (R495). -/
def Dev.actPower (d : Dev) (a : Nat) : Nat :=
  match d.rd .SRV_STAT_MODE a with
  | 1 | 2 | 4 => d.rd .SCH_PWRCOST_FOLLOWW
  | 3 => d.rd .SCH_PWRCOST_FOLLOWW + d.rd .SCH_PWRCOST_SEEKW
  | _ => 0

/-- A heater code of 0.1 mW in units of 10 mW, rounded up. -/
def heatUnits (code : Nat) : Nat := (code + 99) / 100

/-- The drive power ledger, 10 mW (R495). -/
def Dev.ledgerPower (d : Dev) : Nat :=
  d.spindlePower + ((List.range 4).map d.actPower).sum + (d.srv.heads.map fun h => heatUnits h.2.htr).sum

/-- Granules of the pool that no reservation holds. -/
def Dev.freeGranules (d : Dev) : Nat := d.rd .SCH_BUFCFG_SIZE - (d.sch.resv.map Resv.gran).sum

/-- Seconds since an actuator's last forced revolution; 255 before the first. -/
def Dev.lastForce (d : Dev) (a : Nat) : Nat :=
  match Tab.look d.sch.forceAt a with
  | some t => min 255 ((d.now - t) / 1250000000)
  | none => 255

/-- The steward: the lowest-numbered node heard, this one included (R693). -/
def Dev.steward (d : Dev) : Nat := d.rck.heard.foldl (fun m e => min m e.1) (d.rd .RCK_CFG_NODE)

/-- Port 1 exists in dual-port mode only (R420). -/
def Dev.portExists (d : Dev) (p : Nat) : Bool := p == 0 || (p == 1 && d.on .HIF_PORTCFG_MODE)

/-- A CC value that R425 admits: CSS 0b000 or 0b110, AMS 0b000 or 0b001, and the queue entry sizes. -/
def goodCc (cc : Nat) : Bool :=
  (bits cc 4 3 == 0 || bits cc 4 3 == 6) && decide (bits cc 11 3 < 2) && bits cc 16 4 == 6 && bits cc 20 4 == 4

/-- CSTS.RDY of a controller (R426): enabled with a CC that R425 admits, and HIF runs. -/
def Dev.ctrlReady (d : Dev) (p : Nat) : Bool :=
  let cc := (Tab.getD d.hif.ports p {}).cc
  bit cc 0 && goodCc cc && d.portExists p && d.on .HIF_CTL_ENABLE

/-- Entries the admin ring holds (HIF_ADMRPTR). -/
def Dev.admRing (d : Dev) : Nat := subMod 10 (d.rd .HIF_ADMRPTR_TAIL) (d.rd .HIF_ADMRPTR_HEAD)

/-- Bytes a descriptor names, and those of it or of the present pass not yet written. -/
def DmaCh.len (c : DmaCh) : Nat := bits (c.words.getD 4 0) 0 24
def DmaCh.left (c : DmaCh) : Nat := c.len - c.moved

/-- A channel has DONE, HALF, FULL or ERR set with its enable bit (DMA_IRQ0, DMA_IRQ1). -/
def Dev.dmaPend (d : Dev) (c : Nat) : Bool :=
  (d.on .DMA_CSTAT_DONE c && d.on .DMA_CCFG_IEDONE c) || (d.on .DMA_CSTAT_HALF c && d.on .DMA_CCFG_IEHALF c) ||
    (d.on .DMA_CSTAT_FULL c && d.on .DMA_CCFG_IEFULL c) || (d.on .DMA_CSTAT_ERR c && d.on .DMA_CCFG_IEERR c)

/-- The phase trim applied now, ppm: the one in the register, or one that returns to 0 over one second, linearly (R380, R381; the spec does
not say how it returns, DESIGN CHOICE, log 32). -/
def Dev.phaseTrimNow (d : Dev) : Int :=
  match d.spn.trimBack with
  | some (t, at') => t * ((1250000000 - (d.now - at') : Nat) : Int) / 1250000000
  | none => signed 16 (d.rd .SPN_PHERR_TRIM)

/-- The value a field shows now. Most fields are stored; the others are computed here from the state they summarise. -/
def Dev.fldNow (d : Dev) (f : Fld) (i : Nat) : Nat :=
  match f with
  | .SYS_STAT_ANGVALID | .ANG_STAT_VALID => bnat d.angValid
  | .SYS_STAT_SLOWBUSY => bnat d.bus.slow.isSome
  | .SYS_PEND_BLOCKS =>
    maskOf ([Block.ANG, .LNX, .LANE, .RDI, .ITB, .TPE, .FSQ, .WRF, .SRV, .ARM, .SPN, .MAC].map fun b =>
      d.bus.pend.any fun p => p.reg.info.block == b)
  | .CFG_FUSE_MINSVN => d.cfg.fuses.minSvn
  | .CFG_FUSE_REVOKE0 => bnat d.cfg.fuses.revoke0
  | .CFG_NORCMD_GO => bnat d.cfg.nor.isSome
  | .CFG_NORSTAT_BUSY => bnat d.cfg.nor.isSome
  | .SYS_BAR2CTL_UNLOCK0 => bnat (Tab.look d.bus.unlock 0).isSome
  | .SYS_BAR2CTL_UNLOCK1 => bnat (Tab.look d.bus.unlock 1).isSome
  | .ANG_STAT_USABLE => d.usableMask
  | .ANG_LO_ANG => d.ang.val % 2 ^ 32
  | .ANG_HI_ANG => d.ang.val / 2 ^ 32
  | .ANG_TSLO_TS => d.time % 2 ^ 32
  | .ANG_TSHI_TS => d.time / 2 ^ 32
  | .ANG_SCKSTAT_RUN => bnat (d.synRuns i)
  | .ANG_WCKSTAT_RUN => bnat (d.synRuns (32 + i))
  | .ANG_PEND_PEND =>
    maskOf [d.pendsAny [.ANG_GEOM], d.pendsAny [.ANG_LOOP], d.pendsAny [.ANG_TOL], d.pendsAny [.ANG_REFOFF],
      d.pendsAny [.ANG_SOFF], d.pendsAny [.ANG_RRO], d.pendsAny [.ANG_HOFF, .ANG_HSKEW],
      d.pendsAny [.ANG_SCKRATE, .ANG_SCKPHASE], d.pendsAny [.ANG_WCKRATE, .ANG_WCKPHASE]]
  | .LNX_PEND0_PEND => maskOf ((List.range 32).map fun l => d.pends .LNX_ROUTE l)
  | .LNX_PEND1_PEND => maskOf ((List.range 32).map fun l => d.pends .LNX_ROUTE (32 + l))
  | .LANE_PEND_PEND =>
    maskOf [d.pends .LANE_AFE i, d.pends .LANE_AGC i, d.pends .LANE_TLOOP i, d.pends .LANE_MODE i,
      (List.range 16).any fun t => d.pends .LANE_FIR (16 * i + t), d.pends .LANE_FIRCFG i, d.pends .LANE_TARGET i]
  | .LANE_STAT_ROUTED => bnat (d.on .LNX_ROUTE_EN i)
  | .RDI_STAT_ROUTED => bnat (d.laneOf i).isSome
  | .RDI_STAT_LANE => (d.laneOf i).getD 0
  | .ITB_STAT_CTXUSE => d.itb.ctx.length
  | .ITB_POOLLVL_QLEN => d.itb.queue.length
  | .ITB_PEND_PEND =>
    maskOf [d.pendsAny [.ITB_POOL], d.pendsAny [.ITB_LIMIT], d.pendsAny [.ITB_PROFBASE], d.pendsAny [.ITB_CODEBASE]]
  | .TPE_STAT_RBUSY => d.tpe.recon.length
  | .FSQ_PC_SP => (d.seq i).stack.length
  | .FSQ_CMPSTAT_RGQ => (d.seq i).rgq.length
  | .FSQ_CMPSTAT_WGQ => (d.seq i).wgq.length
  | .FSQ_CMPSTAT_VGQ => (d.seq i).vgq.length
  | .FSQ_POS_VALID => bnat (d.leadRuns i)
  | .FSQ_POS_EXCL => bnat (d.counterAt i 0).2
  | .FSQ_POS_U => (d.counterAt i 0).1
  | .FSQ_STAMPLO_ANG => (d.seq i).stamp % 2 ^ 32
  | .FSQ_STAMPHI_ANG => (d.seq i).stamp / 2 ^ 32
  | .FSQ_STAMPPOS_POS => (d.seq i).stampPos
  | .FSQ_PEND_CFG => bnat (d.pends .FSQ_CFG i)
  | .WRF_PEND_PEND =>
    maskOf [d.pendsAny [.WRF_VCRIT], d.pendsAny [.WRF_VCRIT2], d.pendsAny [.WRF_RETRY],
      d.pendsAny [.WRF_GUARD, .WRF_SHKLIM, .WRF_ONTRK], d.pendsAny [.WRF_PRECOMP]]
  | .WRF_SSTAT_PREP => (d.wslot i).prep.length
  | .WRF_SSTAT_DRIVING => bnat (d.on .WRF_SSTAT_DRIVING i && d.launching i)
  | .WRF_SSTAT_READY => bnat ((((d.wslot i).prep.find? fun p => !p.started).map Prep.ready).getD false)
  | .WRF_SSTAT_INHIBIT => bnat ((((d.seq i).job.map fun j => j.kind == 1 && !d.fence i j)).getD false)
  | .WRF_STAT_ENCBUSY => d.encBusy
  | .SRV_STAT_REFHEAD => ((d.refHead i).1).getD 0
  | .SRV_STAT_GUIDE => bnat (d.refHead i).2
  | .SRV_PEND_PEND =>
    bnat (d.bus.pend.any fun p => p.reg.info.block == .SRV && (if p.reg == .SRV_RVFIR then p.idx / 4 else p.idx) == i)
  | .SPN_PHERR_TRIM => unsigned 16 d.phaseTrimNow
  | .SPN_STAT_WAITGRANT => bnat (d.on .SPN_CTL_RUN && d.rd .SPN_STAT_STATE == 1 && d.rd .SPN_GRANT_LIMIT == 0)
  | .SPN_PEND_PHLOCK => bnat (d.pendsAny [.SPN_PHLOCK])
  | .MAC_PEND_PEND => maskOf ((List.range 24).map fun c => d.pends .MAC_CHSYNC c)
  | .VE_STAT_MCHK => maskOf ((List.range 12).map fun e => d.rd .VE_ESTAT_STATE e == 4)
  | .VE_STAT_BUSY => maskOf ((List.range 12).map fun e => d.rd .VE_ESTAT_STATE e == 2)
  | .VE_ETRIG_SBUSED => (d.engNow i).buffer.length
  | .VE_ETRIG_RESTARTS => (((d.engNow i).run.map Trig.restarts)).getD 0
  | .VE_ETRIG_PRIO => (((d.engNow i).run.map Trig.prio)).getD 0
  | .VE_ETRIG_TYPE => (((d.engNow i).run.map Trig.type)).getD 0
  | .VE_EQSTAT_Q3 => d.trigCount i 3
  | .VE_EQSTAT_Q2 => d.trigCount i 2
  | .VE_EQSTAT_Q1 => d.trigCount i 1
  | .VE_EQSTAT_Q0 => d.trigCount i 0
  | .VE_GLO_G => d.shownReg i % 2 ^ 32
  | .VE_GHI_G => d.shownReg i / 2 ^ 32
  | .SCH_STAT_DRAIN => maskOf ((List.range 4).map fun a => (Tab.look d.sch.drainFor a).isSome)
  | .SCH_STAT_FORCE => maskOf ((List.range 4).map fun a => (Tab.look d.sch.forced a).isSome)
  | .SCH_STAT_BUFWAIT => bnat (d.sch.reqs.any ResReq.cleared)
  | .SCH_BUFSTAT_WAITERS => min 65535 (d.sch.reqs.filter ResReq.cleared).length
  | .SCH_BUFSTAT_FREE => d.freeGranules
  | .SCH_OVL_ENTRIES => d.sch.ovl.length
  | .SCH_PWRLVL_SEEKS => d.seeks
  | .SCH_PWRLVL_CHARGED => min 65535 d.ledgerPower
  | .SCH_ASTAT_LASTFORCE => d.lastForce i
  | .SCH_ASTAT_DRAIN => bnat (Tab.look d.sch.drainFor i).isSome
  | .SCH_ASTAT_FORCE => bnat (Tab.look d.sch.forced i).isSome
  | .SCH_ASTAT_SEEKTOK => bnat (d.rd .SRV_STAT_MODE i == 3 || d.rd .SRV_STAT_MODE i == 1)
  | .RCK_STAT_STEWARD => bnat (d.steward == d.rd .RCK_CFG_NODE)
  | .RCK_STAT_HOLDING => bnat (d.rck.hold || d.rck.ann)
  | .RCK_STAT_WAITING => bnat (d.rck.want || d.rck.delay)
  | .RCK_STAT_MASTER => bnat (d.rck.master == some (d.rd .RCK_CFG_NODE))
  | .RCK_STAT_PASSIVE => bnat (decide (128 ≤ d.rck.txerr) || decide (128 ≤ d.rck.rxerr))
  | .RCK_ERR_TEC => min 255 d.rck.txerr
  | .RCK_ERR_REC => min 255 d.rck.rxerr
  | .RCK_TOKSTAT_SEQ => d.rck.seq
  | .RCK_TOKSTAT_QUEUE => d.rck.reqs.length
  | .RCK_TOKSTAT_HELD => d.rck.holds.length + bnat (d.rck.hold || d.rck.ann)
  | .RCK_SOLO_REMAIN => if d.rck.delay then (d.rck.endAt - d.now + 12499999) / 12500000 else 0
  | .RCK_ROLES_HEARD => d.rck.heard.length
  | .RCK_ROLES_MASTER => d.rck.master.getD 0x1FF
  | .RCK_ROLES_STEWARD => d.steward
  | .FLT_STAT_ANYPEND => bnat (!d.pendingSources.isEmpty)
  | .FLT_STAT_TOPSEV => d.topSev
  | .FLT_SRCSTAT_PEND => bnat (d.fltPend i)
  | .FLT_WDSTAT_REMAIN => d.wdRemain i
  | .EVT_STAT_UNFL => d.unflushed
  | .MEM_DRSTAT_SELFREF =>
    bnat (d.on .MEM_DRSTAT_READY && (d.rd .SCH_STAT_STATE == 6 || d.rd .CFG_STAT_STATE == 5 ||
      (d.spn.running && d.spn.pfRecs && !d.on .EVT_STAT_PFFLUSH)))
  | .DMA_STAT_HALTED => bnat ((List.range 64).any fun c => d.rd .DMA_CSTAT_STATE c == 3)
  | .DMA_IRQ0_PEND => maskOf ((List.range 32).map d.dmaPend)
  | .DMA_IRQ1_PEND => maskOf ((List.range 32).map fun c => d.dmaPend (32 + c))
  | .DMA_CCURLO_ADDR => (Tab.getD d.dma.chans i {}).desc % 2 ^ 32
  | .DMA_CCURHI_ADDR => (Tab.getD d.dma.chans i {}).desc / 2 ^ 32
  | .DMA_CREMAIN_BYTES => (Tab.getD d.dma.chans i {}).left
  | .CHK_SWOWN_CLAIM => d.rd .CHK_SWOWN_OWNED
  | .CMP_STAT_QUEUED => d.cmp.queue.length
  | .CMP_STAT_RUNNING => d.cmp.running.length
  | .HIF_STAT_DUAL => d.rd .HIF_PORTCFG_MODE
  | .HIF_STAT_FULL => bnat (decide (65536 ≤ d.hif.cmds.length))
  | .HIF_STAT_ADMFULL => bnat (d.admRing == 1023)
  | .HIF_INFLIGHT_COUNT => d.hif.cmds.length
  | .HIF_NVMSTAT_EN => bnat (bit (Tab.getD d.hif.ports i {}).cc 0)
  | .HIF_NVMSTAT_RDY => bnat (d.ctrlReady i)
  | .HIF_NVMSTAT_CFS | .HIF_NVMSTAT_SHST | .HIF_LNKSTAT_UP | .HIF_LNKSTAT_SPEED | .HIF_LNKSTAT_WIDTH =>
    if d.portExists i then d.rd f i else 0
  | _ => d.rd f i

/-- The word register `r` of instance `i` holds now. -/
def Dev.word (d : Dev) (r : Reg) (i : Nat := 0) : Nat := composeWord r.info.flds fun f => d.fldNow f i

/-! ### Event intake -/

/-- Arrival order of records of one fabric cycle (R631): fault and acknowledgement records in source order, then other
hardware records in code order, then master records in priority order. -/
def EvtIn.rank (e : EvtIn) : Nat :=
  if e.code < 0x40 then 2 * e.code
  else if e.code < 0x140 then 2 * (e.code - 0x100) + 1
  else if e.code < 0x8000 then 0x1000 + e.code
  else 0x10000 + e.origin

/-- Queue a record behind the records of earlier cycles and those of this cycle that go before it (R631). -/
def enqueue (q : List EvtIn) (e : EvtIn) : List EvtIn :=
  let before := q.takeWhile fun x => x.cycle < e.cycle || x.rank ≤ e.rank
  before ++ e :: q.drop before.length

/-- Offer a record to EVT, stamped with the device time, epoch and powered hours of this cycle (R630). -/
def Dev.record (d : Dev) (code inst origin sev : Nat) (forced esc nolimit : Bool) (d0 d1 d2 : Nat) : Dev :=
  let e : EvtIn :=
    { code := code, inst := inst % 256, origin := origin, sev := sev, forced := forced, esc := esc, nolimit := nolimit,
      time := d.time, epoch := d.rd .ANG_STAT_EPOCH, poh := d.rd .HLT_POH_HOURS, d0 := d0 % 2 ^ 32, d1 := d1 % 2 ^ 32,
      d2 := d2 % 2 ^ 32, cycle := d.now }
  { d with evt := { d.evt with queue := enqueue d.evt.queue e } }

/-- A hardware record other than a fault record: severity 7, origin 0x00. Codes 0x0500 to 0x05FF are never suppressed
(R634). -/
def Dev.event (d : Dev) (code inst d0 d1 d2 : Nat) : Dev :=
  d.record code inst 0 7 false false (0x500 ≤ code && code < 0x600) d0 d1 d2

/-- Close the open page, where it holds a record (R638). -/
def Dev.closePage (d : Dev) : Dev :=
  if d.evt.page.isEmpty then d
  else ({ d with evt := { d.evt with page := [], closed := d.evt.closed ++ [d.evt.page] } }).endWait .page

/-- SAVED sets once no record is left unflushed after a normal shutdown asked for it (R642). -/
def Dev.checkSaved (d : Dev) : Dev :=
  if d.evt.saving && d.evt.queue.isEmpty && d.unflushed == 0 then
    ({ d with evt := { d.evt with saving := false } }).wr .EVT_STAT_SAVED 0 1
  else d

/-- The bucket a record spends from (R633): a source 0-40, a rate slot 128 + i, or the default bucket 64. -/
def Dev.bucketOf (d : Dev) (e : EvtIn) : Nat :=
  if e.code < 0x40 then e.code
  else match (List.range 32).find? fun i => d.on .EVT_RLLIM_EN i &&
      (Nat.xor e.code (d.rd .EVT_RLMATCH_CODE i)) &&& d.rd .EVT_RLMATCH_MASK i == 0 with
    | some i => 128 + i
    | none => 64

/-- The size of a bucket; 0 means no limit. -/
def Dev.burstOf (d : Dev) (b : Nat) : Nat :=
  if b < 64 then d.rd .FLT_SRCCFG_BURST b else if b = 64 then d.rd .EVT_RLDEF_BURST else d.rd .EVT_RLLIM_BURST (b - 128)

/-- The tokens a bucket holds. -/
def Dev.tokensOf (d : Dev) (b : Nat) : Nat :=
  if b ≤ 64 then Tab.getD d.evt.tokens b (d.burstOf b) else d.rd .EVT_RLLIM_TOKENS (b - 128)

/-- Set the tokens of a bucket. -/
def Dev.setTokens (d : Dev) (b n : Nat) : Dev :=
  if b ≤ 64 then { d with evt := { d.evt with tokens := Tab.put d.evt.tokens b n } } else d.wr .EVT_RLLIM_TOKENS (b - 128) n

/-- A record is tracked as unflushed: before handover, and while NORLOG is 1 after it (R635). -/
def Dev.tracksFlush (d : Dev) : Bool := !d.handed || d.on .EVT_CTL_NORLOG

/-- Write a record into the ring at the next index and give it the next SEQ (R630, R631, R635, R638). -/
def Dev.storeRec (d : Dev) (e : EvtIn) (supp : Nat) : Dev :=
  let i := d.evt.wr
  let r : EvtRec :=
    { w0 := e.code * 2 ^ 16 + e.origin * 2 ^ 11 + e.sev * 2 ^ 8 + bnat e.forced * 2 ^ 7 + bnat e.esc * 2 ^ 6 + min supp 63,
      w1 := d.rd .EVT_SEQ_NEXT, w2 := e.time % 2 ^ 32, w3 := e.inst * 2 ^ 24 + e.epoch * 2 ^ 16 + e.time / 2 ^ 32 % 2 ^ 16,
      w4 := e.poh, w5 := e.d0, w6 := e.d1, w7 := e.d2 }
  let page := if d.tracksFlush then d.evt.page ++ [i] else d.evt.page
  let d := if d.evt.page.isEmpty then d.beginWait .page else d
  let d := { d with evt := { d.evt with buf := Tab.put d.evt.buf i r, wr := (i + 1) % 1024, page := page } }
  let d := (d.tally .EVT_SEQ_NEXT).wr .EVT_NEWEST_INDEX 0 i
  let d := d.wr .EVT_NEWEST_VALID 0 (min 1024 (d.rd .EVT_NEWEST_VALID + 1))
  if 8 ≤ page.length || e.code == 0xF01 || (e.code < 0x40 && d.rd .EVT_CFG_FLUSHSEV ≤ e.sev) then d.closePage else d

/-- There is room: the next index does not hold an unflushed record (R636). -/
def Dev.evtSpace (d : Dev) : Bool := decide (d.unflushed < 1024)

/-- Store the LOST record owed since records were discarded, before any other (R636). -/
def Dev.storeLost (d : Dev) : Dev :=
  if d.evt.lost = 0 || !d.evtSpace then d
  else
    let e : EvtIn :=
      { code := 0xF00, inst := 0, origin := 0, sev := 7, forced := false, esc := false, nolimit := true, time := d.time,
        epoch := d.rd .ANG_STAT_EPOCH, poh := d.rd .HLT_POH_HOURS, d0 := d.evt.lost, d1 := 0, d2 := 0, cycle := d.now }
    let d := { d with evt := { d.evt with lost := 0 } }
    d.storeRec e 0

/-- A record passes its rate limit: exempt (R634), an unlimited bucket, or a token left (R633). -/
def Dev.passesLimit (d : Dev) (e : EvtIn) : Bool :=
  e.nolimit || d.burstOf (d.bucketOf e) == 0 || d.tokensOf (d.bucketOf e) != 0

/-- Store, suppress or discard one record (R633-R636). -/
def Dev.storeOne (d : Dev) (e : EvtIn) : Dev :=
  let b := d.bucketOf e
  if !d.passesLimit e then
    ({ d with evt := { d.evt with supp := Tab.put d.evt.supp b (Tab.getD d.evt.supp b 0 + 1) } }).count .EVT_CNT_SUPPRESSED
  else
    let d := if e.nolimit || d.burstOf b == 0 then d else d.setTokens b (d.tokensOf b - 1)
    let d := d.storeLost
    if !d.evtSpace then
      (({ d with evt := { d.evt with lost := d.evt.lost + 1 } }).count .EVT_CNT_LOST).stick .EVT_STAT_LOST
    else
      let n := Tab.getD d.evt.supp b 0
      ({ d with evt := { d.evt with supp := Tab.put d.evt.supp b 0 } }).storeRec e n

end Sys2Proof.Machine
end

