-- ==== Sys2Proof/Machine/Ledger.lean ====
section
/-! DEFINITION. The Hazel ledger (R573-R578): reading and writing a track's record through the working set, the work ring
(R596), margin samples (R586, R587) and interference (R589). -/

namespace Sys2Proof.Machine

/-- Record index of track `t` of surface `s` (R573). -/
def ledgerIndex (s t : Nat) : Nat := s * 1048576 + t

/-- DRAM address of record `i` (R573). -/
def Dev.ledgerAddr (d : Dev) (i : Nat) : Nat :=
  d.rd .HLT_LEDGERLO_ADDR * 2 ^ 20 + d.rd .HLT_LEDGERHI_ADDR * 2 ^ 32 + 16 * i

/-- The record of index `i`: the working-set entry where one exists, else the DRAM record (R577). -/
def Dev.wsGet (d : Dev) (i : Nat) : WsEntry :=
  match Tab.look d.hlt.ws i with
  | some e => e
  | none =>
    let a := d.ledgerAddr i
    { w0 := d.ld32 a, w1 := d.ld32 (a + 4), w2 := d.ld32 (a + 8), w3 := d.ld32 (a + 12), passed := [], locks := 0,
      used := 0, low := 255, dirty := false }

/-- HLT writes a record to the DRAM ledger, from CFG_RESTORE.DONE on (R576, R669). -/
def Dev.recToDram (d : Dev) (i : Nat) (e : WsEntry) : Dev :=
  if d.on .CFG_STAT_RESTORED then d.stWords (d.ledgerAddr i) [e.w0, e.w1, e.w2, e.w3] else d

/-- The least recently used entry that no lock holds (R576). -/
def lruVictim (ws : Tab WsEntry) : Option Nat :=
  (ws.foldl (fun (best : Option (Nat × Nat)) p =>
    if p.2.locks != 0 then best
    else match best with
      | some (_, u) => if p.2.used < u then some (p.1, p.2.used) else best
      | none => some (p.1, p.2.used)) none).map Prod.fst

/-- Working-set allocation for record `i` (R576): none where every entry is held by a lock. -/
def Dev.wsAllocate (d : Dev) (i : Nat) : Option Dev :=
  match Tab.look d.hlt.ws i with
  | some e => some { d with hlt := { d.hlt with ws := Tab.put d.hlt.ws i { e with used := d.now } } }
  | none =>
    let fresh := { d.wsGet i with used := d.now }
    if d.hlt.ws.length < d.rd .HLT_WSCFG_COUNT then
      some { d with hlt := { d.hlt with ws := Tab.put d.hlt.ws i fresh } }
    else match lruVictim d.hlt.ws with
      | none => none
      | some v =>
        let d := d.recToDram v (d.wsGet v)
        some { d with hlt := { d.hlt with ws := Tab.put (Tab.del d.hlt.ws v) i fresh } }

/-- Note that the page of record `i` has changed since it was last written (R579, R580). -/
def Dev.pageChanged (d : Dev) (i : Nat) : Dev :=
  if d.hlt.pages.contains (i / 256) then d else { d with hlt := { d.hlt with pages := d.hlt.pages ++ [i / 256] } }

/-- Change a record's statistic fields: the working-set entry where one can be held, else the DRAM record (R577). -/
def Dev.updStat (d : Dev) (i : Nat) (f : WsEntry → WsEntry) : Dev :=
  let d := d.pageChanged i
  match d.wsAllocate i with
  | some d => { d with hlt := { d.hlt with ws := Tab.put d.hlt.ws i { f (d.wsGet i) with dirty := true } } }
  | none => d.recToDram i (f (d.wsGet i))

/-- Change a record's control fields: the DRAM record changes at once, and the entry with it (R577). -/
def Dev.updCtl (d : Dev) (i : Nat) (f : WsEntry → WsEntry) : Dev :=
  let d := d.pageChanged i
  let e := f (d.wsGet i)
  let d := d.recToDram i e
  if (Tab.look d.hlt.ws i).isSome then { d with hlt := { d.hlt with ws := Tab.put d.hlt.ws i e } } else d

/-- A word with bits [lo+w-1:lo] replaced by `v`. -/
def setBits (n lo w v : Nat) : Nat := n - bits n lo w * 2 ^ lo + v % 2 ^ w * 2 ^ lo

/-- Fields of a record (R574). -/
def WsEntry.gen (e : WsEntry) : Nat := bits e.w0 20 12
def WsEntry.bound (e : WsEntry) : Nat := bits e.w0 10 10
def WsEntry.written (e : WsEntry) : Bool := bit e.w0 9
def WsEntry.refresh (e : WsEntry) : Bool := bit e.w0 8
def WsEntry.htrim (e : WsEntry) : Int := signed 8 e.w0
def WsEntry.intf (e : WsEntry) : Nat := bits e.w1 16 16
def WsEntry.margin (e : WsEntry) : Nat := bits e.w1 8 8
def WsEntry.lastv (e : WsEntry) : Nat := bits e.w2 12 20
def WsEntry.contact (e : WsEntry) : Nat := bits e.w3 8 8
def WsEntry.scrub (e : WsEntry) : Bool := bit e.w3 0

/-- Add to a saturating counter of word 2 or 3 of a record. -/
def satField (n lo w k : Nat) : Nat := setBits n lo w (satAdd w (bits n lo w) k)

/-! ### Work items (R596) -/

/-- Ring operations of R596. -/
def opPatrol : Nat := 0
def opRefresh : Nat := 1
def opScrub : Nat := 2
def opCalib : Nat := 3
def opWcTrim : Nat := 4
def opJournal : Nat := 5
def opCheckpoint : Nat := 6

/-- Unit of the HLT interrupt that tells the management cluster of the work ring; 0 to 7 tell a core of its own reply. -/
def hltRingIrq : Nat := 8

/-- Write a work item into the ring at TAIL (R596); a ring that was empty raises the HLT interrupt. -/
def Dev.ringPut (d : Dev) (w : Work) : Dev :=
  let t := d.rd .HLT_WQPTR_TAIL
  let d := if t = d.rd .HLT_WQPTR_HEAD then d.emit (.irq .HLT hltRingIrq) else d
  let a := tableSram + d.rd .HLT_WQBASE_BASE * 2 ^ 14 + 16 * t
  let d := d.stWords a [w.op * 2 ^ 28 + bnat w.granted * 2 ^ 27 + w.surf * 2 ^ 20 + w.track, w.seq * 2 ^ 16 + w.head,
    w.arg, w.arg2]
  ({ d with hlt := { d.hlt with work := d.hlt.work ++ [w] } }).wr .HLT_WQPTR_TAIL 0 (t + 1)

/-- The ring is full: one entry stays free. -/
def Dev.ringFull (d : Dev) : Bool := (d.rd .HLT_WQPTR_TAIL + 1) % 1024 == d.rd .HLT_WQPTR_HEAD

/-- Queue a work item under the next sequence number; a full ring holds it in order (R596). -/
def Dev.queueWork (d : Dev) (w : Work) : Dev :=
  let w := { w with seq := d.hlt.seq % 65536 }
  let d := ({ d with hlt := { d.hlt with seq := d.hlt.seq + 1 } }).beginWait (.work w.seq)
  if d.ringFull || !d.hlt.held.isEmpty then { d with hlt := { d.hlt with held := d.hlt.held ++ [w] } } else d.ringPut w

/-- A new work item. -/
def Dev.workItem (d : Dev) (op surf track head arg arg2 : Nat) (granted : Bool) : Dev :=
  d.queueWork
    { op := op, surf := surf, track := track, head := head, arg := arg, arg2 := arg2, granted := granted,
      seq := d.hlt.seq % 65536, ckpt := 0, pages := [] }

/-- Move held items into the ring while it has room. -/
def Dev.ringDrain (d : Dev) : Nat → Dev
  | 0 => d
  | n + 1 =>
    match d.hlt.held with
    | [] => d
    | w :: ws => if d.ringFull then d else (({ d with hlt := { d.hlt with held := ws } }).ringPut w).ringDrain n

/-- Set REFRESH on a written track and queue a REFRESH item (R590). -/
def Dev.orderRefresh (d : Dev) (s t : Nat) : Dev :=
  let e := d.wsGet (ledgerIndex s t)
  if !e.written || e.refresh then d
  else (d.updCtl (ledgerIndex s t) fun e => { e with w0 := setBit e.w0 8 }).workItem opRefresh s t 0 0 0 false

/-- Set SCRUB on a track (R592). -/
def Dev.orderScrub (d : Dev) (s t : Nat) : Dev := d.updCtl (ledgerIndex s t) fun e => { e with w3 := setBit e.w3 0 }

/-- A contact on a head and its track (R592, R598): the heater trim falls by twice the step, and the track is to be scrubbed. -/
def Dev.hltContact (d : Dev) (head surf track : Nat) : Dev :=
  let i := ledgerIndex surf track
  let m : Int := min 127 (d.rd .HLT_TRIM_MAX)
  let down (e : WsEntry) : WsEntry :=
    { e with w0 := setBits e.w0 0 8 (unsigned 8 (max (-m) (e.htrim - 2 * d.rd .HLT_TRIM_STEP))) }
  let d' := (d.updStat i fun e => { e with w3 := satField e.w3 8 8 1 }).updCtl i down
  ({ d' with hlt := { d'.hlt with contacts := Tab.put d'.hlt.contacts head (Tab.getD d'.hlt.contacts head 0 + 1) } }).orderScrub
    surf track

/-! ### Margin (R586, R587) -/

/-- `a ÷ b` rounded half away from zero. -/
def roundDiv (a : Int) (b : Nat) : Int :=
  if b = 0 then 0
  else if 0 ≤ a then ((2 * a.toNat + b) / (2 * b) : Nat) else -(((2 * (-a).toNat + b) / (2 * b) : Nat) : Int)

/-- MARGIN ← MARGIN + round((x − MARGIN) ÷ 2^W) (R587); W outside 1-8 applies as 4. -/
def marginStep (w m x : Nat) : Nat :=
  let w := if 1 ≤ w ∧ w ≤ 8 then w else 4
  ((m : Int) + roundDiv ((x : Int) - m) (2 ^ w)).toNat

/-- An integer cut to 0-255. -/
def clampByte (x : Int) : Nat := (max 0 (min 255 x)).toNat

/-- The margin sample of a decode record (R586). -/
def Dev.decodeSample (d : Dev) (status iters corr eras : Nat) : Option Nat :=
  if status = 0 then
    some (clampByte ((d.rd .HLT_MCOEF_BASE : Int) - d.rd .HLT_MCOEF_KI * iters - (corr / 2 ^ d.rd .HLT_MCOEF_CSH : Nat) -
      (eras / 2 ^ d.rd .HLT_MCOEF_ESH : Nat)))
  else if status = 1 ∨ status = 2 ∨ status = 3 then some 0 else none

/-- The margin sample of a verify record (R586). -/
def Dev.verifySample (d : Dev) (result mag lowc mism : Nat) : Option Nat :=
  if result ≤ 3 then some (clampByte ((2 * mag : Int) - (lowc / 2 ^ d.rd .HLT_MCOEF_LSH : Nat) - mism))
  else if result = 4 ∨ result = 5 then some 0 else none

/-- Apply a margin sample to a track and its head (R587). -/
def Dev.marginSample (d : Dev) (surf track head x : Nat) : Dev :=
  let w := d.rd .HLT_MCOEF_W
  let d := d.updStat (ledgerIndex surf track) fun e =>
    { e with w1 := setBits e.w1 8 8 (marginStep w e.margin x), low := min e.low x }
  { d with hlt := { d.hlt with margin := Tab.put d.hlt.margin head (marginStep w (Tab.getD d.hlt.margin head 0) x) } }

/-! ### Interference (R589, R590) -/

/-- Add `k` to the INTF of track `t`, ordering a refresh where it reaches the limit. -/
def Dev.interfere (d : Dev) (s t k : Nat) : Dev :=
  let i := ledgerIndex s t
  let d := d.updStat i fun e => { e with w1 := satField e.w1 16 16 k }
  if max 1 (d.rd .HLT_INTF_LIMIT) ≤ (d.wsGet i).intf then d.orderRefresh s t else d

/-- The tracks of a surface at distance `k` from `t`. -/
def tracksAt (t k : Nat) : List Nat := (if k ≤ t then [t - k] else []) ++ (if t + k < 1048576 then [t + k] else [])

/-- Interference of one write job on its neighbours (R589). -/
def Dev.interference (d : Dev) (s t : Nat) : Dev :=
  let add (d : Dev) (k w : Nat) : Dev := (tracksAt t k).foldl (fun d u => d.interfere s u w) d
  add (add (add d 1 (d.rd .HLT_INTF_W1)) 2 (d.rd .HLT_INTF_W2)) 3 (d.rd .HLT_INTF_W3)

end Sys2Proof.Machine
end

