-- ==== Sys2Proof/Machine/Recovery.lean ====
section
/-! DEFINITION. The recovery sequence of a sector (R184-R186, R453, R588): which levels it has taken, which one is next, and what its
end reports to HLT. -/

namespace Sys2Proof.Machine

/-- Surface, track and slot of a PSA (R211). -/
def psaSurf (p : Nat) : Nat := bits p 42 6
def psaTrack (p : Nat) : Nat := bits p 22 20
def psaSlot (p : Nat) : Nat := bits p 12 10
def psaGen (p : Nat) : Nat := p % 4096
def mkPsa (surf track slot gen : Nat) : Nat := surf % 64 * 2 ^ 42 + track % 2 ^ 20 * 2 ^ 22 + slot % 1024 * 2 ^ 12 + gen % 4096

/-- The recovery limit of a command (R453, R592): 4 for a Read or Verify, 2 with LR; none for any other host command; 3 for a job of
no host command, a patrol's or a refresh's. -/
def Dev.recovLimit (d : Dev) (fseq : Nat) : Nat :=
  match d.hif.cmds.find? fun c => c.fseq == fseq with
  | some c =>
    let op := bits (c.sqe.getD 0 0) 0 8
    if op != 0x02 && op != 0x0C then 0 else if bit (c.sqe.getD 12 0) 31 then 2 else 4
  | none => 3

/-- TLER has passed for the command (R453). -/
def Dev.recovStopped (d : Dev) (fseq : Nat) : Bool := d.hif.cmds.any fun c => c.fseq == fseq && c.limit

/-- The next level under a limit, 5 where there is none (R184): a sector that has failed CHK skips levels 1 and 4 (R185). -/
def Recov.next (r : Recov) (lim : Nat) : Nat :=
  ([1, 2, 3, 4].find? fun l => decide (r.level < l) && decide (l ≤ lim) && !(r.checked && (l == 1 || l == 4))).getD 5

/-- The level at which a job reads the sector again: level 2 reads the stripe's other members. -/
def Recov.nextRead (r : Recov) (lim : Nat) : Nat :=
  if r.next lim = 2 then ({ r with level := 2 } : Recov).next lim else r.next lim

/-- Records of one sector of one command. -/
def Recov.of (r : Recov) (fseq psa : Nat) : Bool := r.fseq == fseq && r.psa / 4096 == psa / 4096

/-- The sector of a command that is under recovery, if it is. -/
def Dev.recovOf (d : Dev) (fseq psa : Nat) : Option Recov := d.sch.recov.find? fun r => r.of fseq psa

/-- The recovery of a sector ends. -/
def Dev.dropRecov (d : Dev) (r : Recov) : Dev :=
  { d with sch := { d.sch with recov := d.sch.recov.filter fun x => !x.of r.fseq r.psa } }

/-- A member of a track has needed recovery at level 2 or above in work of HLT's own (R590). -/
def Dev.scrubHard (d : Dev) (i : Nat) : Dev := d.updStat i fun e => { e with hard := true }

/-- A host command is told that a sector of its is lost (R454). -/
def Dev.noteUnread (d : Dev) (r : Recov) (whole : Bool) : Dev :=
  let note (c : Cmd) : Cmd := if c.fseq == r.fseq then { c with unread := c.unread ++ [(r.psa / 4096 * 4096, whole)] } else c
  { d with hif := { d.hif with cmds := d.hif.cmds.map note } }

/-- A sector waits for its next level; with none left it has reached level 5, which orders a scrub and is recorded, unless LR, TLER or
its kind of command ended its recovery (R186, R454, R588). -/
def Dev.recovFail (d : Dev) (r : Recov) : Dev :=
  let lim := d.recovLimit r.fseq
  let stop := d.recovStopped r.fseq
  let d := d.dropRecov r
  if !stop && r.next lim != 5 then { d with sch := { d.sch with recov := d.sch.recov ++ [r] } }
  else if stop || lim < 3 then d.noteUnread r false
  else
    let d := d.noteUnread r true
    let i := ledgerIndex (psaSurf r.psa) (psaTrack r.psa)
    let d := if lim = 3 && !d.hlt.lost.contains i then { d with hlt := { d.hlt with lost := d.hlt.lost ++ [i] } } else d
    let d := if lim = 3 then d.scrubHard i else d
    (d.orderScrub (psaSurf r.psa) (psaTrack r.psa)).event 0x400 (psaSurf r.psa) r.psa (r.psa / 2 ^ 32) r.fseq

/-- A sector that `head` read did not end OK, or failed CHK (`checked`); `usc`: what the head gave, where a codeword was decoded. A
sector ABANDON cuts short returns with its job and is read again by it (R272, R274), not by the recovery sequence (DEDUCED, log 88). -/
def Dev.sectorFailed (d : Dev) (owner fseq psa head : Nat) (usc : Option Nat) (checked : Bool) : Dev :=
  let r := (d.recovOf fseq psa).getD { owner := owner, fseq := fseq, psa := psa, level := 0, checked := false, heads := [] }
  d.recovFail { r with checked := r.checked || checked, heads := r.heads ++ [(head, usc)] }

/-- HLT is told of a sector recovered at level 2 or above: RECOV counts it, and it is a candidate for reallocation (R186, R588). -/
def Dev.recovered (d : Dev) (fseq psa : Nat) : Dev :=
  let i := ledgerIndex (psaSurf psa) (psaTrack psa)
  let d := d.updStat i fun e => { e with w2 := satField e.w2 8 4 1 }
  let d := if d.recovLimit fseq = 3 then d.scrubHard i else d
  if d.hlt.cands.contains psa then d else { d with hlt := { d.hlt with cands := d.hlt.cands ++ [psa] } }

/-- A sector is lost to its command no more. -/
def Dev.clearUnread (d : Dev) (fseq psa : Nat) : Dev :=
  let clear (c : Cmd) : Cmd := if c.fseq == fseq then { c with unread := c.unread.filter fun u => u.1 != psa / 4096 * 4096 } else c
  { d with hif := { d.hif with cmds := d.hif.cmds.map clear } }

/-- A sector has ended OK and passed CHK: the first success ends its recovery (R184). -/
def Dev.sectorGood (d : Dev) (fseq psa : Nat) : Dev :=
  let d := d.clearUnread fseq psa
  match d.recovOf fseq psa with
  | none => d
  | some r => if r.level < 2 then d.dropRecov r else (d.dropRecov r).recovered fseq psa

/-- The head that gave the lowest USC so far, the earlier one on ties (R184); of a head that decoded nothing it is not known. -/
def Recov.bestHead (r : Recov) : Option Nat :=
  ((r.heads.filterMap fun h => h.2.map fun u => (u, h.1)).foldl (fun b x => match b with
    | some y => if x.1 < y.1 then some x else some y
    | none => some x) none).map Prod.snd |>.or (r.heads.getLast?.map Prod.fst)

/-- Actuator `a` may serve a re-read of a sector at level `l` (R184): 1 the same head, where it is known, 3 a head of another actuator, 4 the best
head. -/
def Recov.admits (r : Recov) (l a : Nat) : Bool :=
  match l with
  | 1 => (r.heads.getLast?.map fun h => h.1 / 32 == a).getD true
  | 3 => !(r.heads.map fun h => h.1 / 32).contains a
  | 4 => (r.bestHead.map fun h => h / 32) == some a
  | _ => true

/-- The sectors of a job that are under recovery. -/
def Dev.recovIn (d : Dev) (j : Job) : List Recov :=
  if j.kind != 0 then [] else j.entries.filterMap fun e => d.recovOf j.fseq (mkPsa j.surf j.track e.slot j.gen)

/-- Actuator `a` may serve a job as the levels of its sectors ask. -/
def Dev.recovAdmits (d : Dev) (j : Job) (a : Nat) : Bool :=
  (d.recovIn j).all fun r => r.admits (r.nextRead (d.recovLimit j.fseq)) a

/-- A job takes the next level of each of its sectors under recovery. -/
def Dev.recovTake (d : Dev) (j : Job) : Dev :=
  let lim := d.recovLimit j.fseq
  let l := d.recovIn j
  let up (r : Recov) : Recov := if l.contains r then { r with level := r.nextRead lim } else r
  { d with sch := { d.sch with recov := d.sch.recov.map up } }

/-- A job that no actuator may serve: the levels it was to take have failed. -/
def Dev.recovLost (d : Dev) (j : Job) : Dev :=
  let l := d.recovIn j
  let d := d.recovTake j
  l.foldl (fun d r => match d.recovOf r.fseq r.psa with | some x => d.recovFail x | none => d) d

/-- The decode profile a sector is captured with: the profile's alternate at level 4 (R184). -/
def Dev.recovProf (d : Dev) (fseq psa prof alt : Nat) : Nat :=
  if ((d.recovOf fseq psa).map fun r => r.level == 4).getD false then alt else prof

/-- The members that a level-2 request gives as erasures, by their owner. -/
def Dev.recovByOwner (d : Dev) (owner : Nat) (psas : List Nat) : List Recov :=
  d.sch.recov.filter fun r => r.owner == owner && psas.any fun p => p / 4096 == r.psa / 4096

/-- A level-2 request is taken up (R184, R227). -/
def Dev.recovAsk (d : Dev) (owner : Nat) (psas : List Nat) : Dev :=
  let l := d.recovByOwner owner psas
  let up (r : Recov) : Recov := if l.contains r then { r with level := max 2 r.level } else r
  { d with sch := { d.sch with recov := d.sch.recov.map up } }

/-- Level 2 has failed (R228). -/
def Dev.recovVain (d : Dev) (owner : Nat) (psas : List Nat) : Dev :=
  (d.recovByOwner owner psas).foldl (fun d r => d.recovFail r) d

/-- Level 2 has recovered every erasure. -/
def Dev.recovDone (d : Dev) (owner : Nat) (psas : List Nat) : Dev :=
  let l := d.recovByOwner owner psas
  let d := l.foldl (fun d r => d.dropRecov r) d
  psas.foldl (fun d p => d.recovered (((l.find? fun r => r.psa / 4096 == p / 4096).map Recov.fseq).getD 0) p) d

end Sys2Proof.Machine
end

