-- ==== Sys2Proof/Machine/Base.lean ====
section
/-! DEFINITION. Actions that several blocks share and that raise no fault by themselves: queueing a trigger for a vertical
engine (R402), queueing an arm-link frame (R342), ending a codeword context (R180-R183), ending or abandoning a sequencer's
job (R256, R272), putting a head LOST (R332, R333), the hardware retract (R328). -/

namespace Sys2Proof.Machine

/-! ### Accessors -/

/-- Engine `e` of R36: 0-3 servo engines, 4-11 command engines. -/
def Dev.eng (d : Dev) (e : Nat) : Eng := Tab.getD d.ve.engs e Eng.init
def Dev.setEng (d : Dev) (e : Nat) (x : Eng) : Dev := { d with ve := { d.ve with engs := Tab.put d.ve.engs e x } }
def Dev.setSeq (d : Dev) (s : Nat) (q : Seq) : Dev := { d with fsq := { d.fsq with seqs := Tab.put d.fsq.seqs s q } }
def Dev.setWslot (d : Dev) (s : Nat) (w : Wslot) : Dev := { d with wrf := { d.wrf with slots := Tab.put d.wrf.slots s w } }
def Dev.head (d : Dev) (h : Nat) : Head := Tab.getD d.srv.heads h Head.init
def Dev.setHead (d : Dev) (h : Nat) (x : Head) : Dev := { d with srv := { d.srv with heads := Tab.put d.srv.heads h x } }
def Dev.act (d : Dev) (a : Nat) : Act := Tab.getD d.srv.acts a Act.init
def Dev.setAct (d : Dev) (a : Nat) (x : Act) : Dev := { d with srv := { d.srv with acts := Tab.put d.srv.acts a x } }
def Dev.link (d : Dev) (a : Nat) : Link := Tab.getD d.arm.links a Link.init
def Dev.setLink (d : Dev) (a : Nat) (x : Link) : Dev := { d with arm := { d.arm with links := Tab.put d.arm.links a x } }
def Dev.lane (d : Dev) (n : Nat) : Lane := Tab.getD d.lanes n Lane.init
def Dev.setLane (d : Dev) (n : Nat) (x : Lane) : Dev := { d with lanes := Tab.put d.lanes n x }

/-- The head slot to which head `h` is bound by a job, if any. -/
def Dev.slotOfHead (d : Dev) (h : Nat) : Option Nat :=
  (List.range 32).find? fun s => ((d.seq s).job.map fun j => j.head == h).getD false

/-- The head slot whose job holds pair `m`, if any. -/
def Dev.slotOfPair (d : Dev) (m : Nat) : Option Nat :=
  (List.range 32).find? fun s => ((d.seq s).job.map fun j => j.pair == m).getD false

/-- A sequencer in RUN, DRAIN or HELD is busy (R244). -/
def Dev.seqBusy (d : Dev) (s : Nat) : Bool :=
  let st := d.rd .FSQ_STAT_STATE s
  st == 2 || st == 3 || st == 6

/-! ### Triggers (R400-R402) -/

/-- Trigger types of R401. -/
def tInit : Nat := 0
def tCmd : Nat := 1
def tDrec : Nat := 2
def tVrec : Nat := 3
def tRet : Nat := 4
def tRecon : Nat := 5
def tAbort : Nat := 6
def tMsg : Nat := 7
def tTimer : Nat := 8
def tRefsmp : Nat := 16
def tSample : Nat := 17
def tTarget : Nat := 18
def tMode : Nat := 19
def tFault : Nat := 31

/-- The priority a type is queued at (R401). -/
def trigPrio (t : Nat) : Nat :=
  if t = 0 ∨ t = 4 ∨ t = 6 ∨ t = 16 ∨ t = 31 then 3
  else if t = 2 ∨ t = 3 ∨ t = 5 ∨ t = 17 then 2
  else if t = 1 ∨ t = 18 ∨ t = 19 then 1
  else 0

/-- Queue a trigger. At most one REFSMP or SAMPLE per source is queued: a newer record replaces the arguments of the queued
one and counts in COALESCED (R402). -/
def Dev.trigger (d : Dev) (e type src a0 a1 a2 a3 : Nat) : Dev :=
  let x := d.eng e
  let t : Trig := { type := type, prio := trigPrio type, src := src, a0 := a0, a1 := a1, a2 := a2, a3 := a3, restarts := 0,
                    flts := 0 }
  let same (u : Trig) : Bool := (u.type == tRefsmp || u.type == tSample) && u.src == src
  if (type == tRefsmp || type == tSample) && x.queues.any same then
    let newer (u : Trig) : Trig :=
      if same u then { u with type := type, prio := trigPrio type, a0 := a0, a1 := a1, a2 := a2, a3 := a3 } else u
    (d.setEng e { x with queues := x.queues.map newer }).count .VE_ECNT2_COALESCED e
  else d.setEng e { x with queues := x.queues ++ [t] }

/-- The number under which command engine `k` owns the jobs it emits now: it grows by 8 each time its jobs are adopted (R413). -/
def Dev.ownerId (d : Dev) (k : Nat) : Nat := k % 8 + 8 * Tab.getD d.ve.gen (k % 8) 0

/-- The command engine that now owns the jobs of owner number `o`. -/
def Dev.ceOf (d : Dev) (o : Nat) : Nat := Tab.getD d.ve.adopt o o % 8

/-- Command engine `k` can take work: IDLE or RUN (R412). -/
def Dev.ceWorks (d : Dev) (k : Nat) : Bool := d.rd .VE_ESTAT_STATE (4 + k) == 1 || d.rd .VE_ESTAT_STATE (4 + k) == 2

/-- Some command engine is in IDLE or RUN. -/
def Dev.anyCe (d : Dev) : Bool := (List.range 8).any d.ceWorks

/-- Queue a trigger for the owner of a job. While no command engine can take it, its source holds it (R413). -/
def Dev.ceTrigger (d : Dev) (o type src a0 a1 a2 a3 : Nat) : Dev :=
  if d.anyCe then d.trigger (4 + d.ceOf o) type src a0 a1 a2 a3
  else
    let t : Trig := { type := type, prio := trigPrio type, src := src, a0 := a0, a1 := a1, a2 := a2, a3 := a3, restarts := 0,
                      flts := 0 }
    { d with ve := { d.ve with held := d.ve.held ++ [(o, t)] } }

/-! ### Arm-link frames (R342, R343) -/

/-- Send priority of a downlink frame type: lower goes first (R342). -/
def armRank (t : Nat) : Nat :=
  match t with
  | 8 => 0 | 7 => 1 | 1 => 2 | 4 => 3 | 3 => 4 | 2 => 5 | 5 => 6 | 6 => 7 | _ => 8

/-- Send priority of a frame; a heater frame of a contact goes at SAFE priority (R340). -/
def ArmFrame.rank (f : ArmFrame) : Nat := if f.urgent then 0 else armRank f.type

/-- Put a frame into a downlink queue: a queued frame of the same type and target is replaced, in place where the priority is
the same; otherwise the frame goes behind those of its own or higher priority (R342). -/
def armInsert (q : List ArmFrame) (f : ArmFrame) : List ArmFrame :=
  if q.any fun g => g.type == f.type && g.target == f.target && g.rank ≤ f.rank then
    q.map fun g => if g.type == f.type && g.target == f.target then { f with urgent := g.urgent } else g
  else
    let q := q.filter fun g => !(g.type == f.type && g.target == f.target)
    let before := q.takeWhile fun g => g.rank ≤ f.rank
    before ++ f :: q.drop before.length

/-- Queue a downlink frame on the link of actuator `a`. -/
def Dev.armQueue (d : Dev) (a : Nat) (f : ArmFrame) : Dev :=
  let l := d.link a
  d.setLink a { l with down := armInsert l.down f }

/-- Queue a frame of its type's priority. -/
def Dev.armSend (d : Dev) (a type target payload : Nat) : Dev :=
  d.armQueue a { type := type, target := target, payload := payload, urgent := false }

/-- SELECT for the write channel of slot `s` with a head's surface and WEN (R343). -/
def Dev.armSelect (d : Dev) (s surf : Nat) (wen : Bool) : Dev :=
  d.armSend (actOfSlot s) 1 (s % 8) (s % 8 * 2 ^ 29 + surf * 2 ^ 24 + bnat wen * 2 ^ 23)

/-- HEATER for a surface of actuator `a` (R342); the code is kept for a resend (R349). -/
def Dev.armHeaterAt (d : Dev) (a surf code : Nat) (urgent : Bool) : Dev :=
  let h := 32 * a + surf
  let d := d.setHead h { d.head h with htr := code % 2 ^ 10 }
  d.armQueue a { type := 3, target := surf, payload := surf * 2 ^ 27 + code % 2 ^ 10, urgent := urgent }

def Dev.armHeater (d : Dev) (a surf code : Nat) : Dev := d.armHeaterAt a surf code false

/-- Heater code 0 for every head of actuator `a` whose last code was not 0. -/
def Dev.heatersOff (d : Dev) (a : Nat) : Dev :=
  (List.range 32).foldl (fun d s => if (d.head (32 * a + s)).htr = 0 then d else d.armHeater a s 0) d

/-- Head `h` is declared: its lead reader is (R107, R338). -/
def Dev.declared (d : Dev) (h : Nat) : Bool := d.on .RDI_CTL_DECL (2 * h)

/-- The surfaces of actuator `a` whose readers are biased while it is not PARKED: declared heads that are not OUT (R338). -/
def Dev.biasMask (d : Dev) (a : Nat) : Nat :=
  maskOf ((List.range 32).map fun s => d.declared (32 * a + s) && d.rd .SRV_HSTAT_STATE (32 * a + s) != unitOut)

/-- BIAS for an actuator. -/
def Dev.armBias (d : Dev) (a m : Nat) : Dev := (d.setLink a { d.link a with bias := m }).armSend a 2 0 m

/-! ### Pending routes and WD values -/

/-- Buffer a WD value (R17, R45): it replaces one already buffered for the register instance. -/
def Dev.buffer (d : Dev) (r : Reg) (i : Nat) (w : Word) : Dev :=
  { d with bus := { d.bus with
      pend := (d.bus.pend.filter fun p => !(p.reg == r && p.idx == i)) ++ [{ reg := r, idx := i, word := w, cycle := d.now }] } }

/-- Make the removal of a lane's applied route pending (R110, R113, R256). A route still pending is given up. -/
def Dev.unroute (d : Dev) (l : Nat) : Dev :=
  if d.on .LNX_ROUTE_EN l then d.buffer .LNX_ROUTE l 0
  else { d with bus := { d.bus with pend := d.bus.pend.filter fun p => !(p.reg == .LNX_ROUTE && p.idx == l) } }

/-- Remove a lane's route at once (a lane in OUT, R134). -/
def Dev.dropRoute (d : Dev) (l : Nat) : Dev :=
  let rest := d.bus.pend.filter fun p => !(p.reg == .LNX_ROUTE && p.idx == l)
  let d := { d with bus := { d.bus with pend := rest } }
  ((d.wr .LNX_ROUTE_EN l 0).wr .LNX_ROUTE_SRC l 0).wr .LNX_ROUTE_INPUT l 0

/-- The dual-look condition of a pair (R129, R130): DUAL of both lanes, SKEWERR of the odd lane. A pair that has gone on lead-only
during its job stays so to the job's end (R133, R140). -/
def Dev.evalDual (d : Dev) (m : Nat) : Dev :=
  let l := 2 * m
  let inp := d.rd .LNX_ROUTE_INPUT l
  let h := inp / 2
  let routed := d.on .LNX_ROUTE_EN l && d.rd .LNX_ROUTE_SRC l == 0 && inp % 2 == 0 &&
    d.on .LNX_ROUTE_EN (l + 1) && d.rd .LNX_ROUTE_SRC (l + 1) == 0 && d.rd .LNX_ROUTE_INPUT (l + 1) == inp + 1
  let st := d.rd .LANE_STAT_STATE l
  let same := st == d.rd .LANE_STAT_STATE (l + 1) && (st == unitServ || st == unitCal)
  let skew := (d.rd .ANG_HSKEW_TOFF h * d.rd .ANG_SCKRATE_SPR m + (rev - 1)) / rev
  let solo := ((d.slotOfPair m).map fun s => (d.seq s).solo).getD false
  let dual := routed && same && !solo && decide (skew ≤ 16000)
  let d := (d.wrb .LANE_STAT_DUAL l dual).wrb .LANE_STAT_DUAL (l + 1) dual
  if routed && decide (16000 < skew) then d.stick .LANE_STAT_SKEWERR (l + 1) else d

/-! ### Codeword contexts -/

/-- Context `c`, where in use. -/
def Dev.ctx? (d : Dev) (c : Nat) : Option Ctx := Tab.look d.itb.ctx c
def Dev.setCtx (d : Dev) (c : Nat) (x : Ctx) : Dev := { d with itb := { d.itb with ctx := Tab.put d.itb.ctx c x } }

/-- Positions whose final hard decision differs from the sign of the first combined value (R183). -/
def Ctx.corr (x : Ctx) : Nat :=
  ((x.post.zip x.first).filter fun p => decide (p.1 < 0) != decide (p.2 < 0)).length

/-- Flagged combined positions (R183). -/
def Ctx.eras (x : Ctx) : Nat := (x.chan.filter Soft.f).length

/-- The four words of a decode record (R183). -/
def drecWords (status iters globs : Nat) (dual urg : Bool) (corr usc eras psa prof pair spent : Nat) : List Nat :=
  [status * 2 ^ 28 + iters * 2 ^ 21 + globs * 2 ^ 18 + bnat dual * 2 ^ 17 + bnat urg * 2 ^ 16 + min corr 65535,
   min usc 65535 * 2 ^ 16 + min eras 65535, psa % 2 ^ 32,
   prof * 2 ^ 26 + pair * 2 ^ 21 + (spent + 1) / 2 * 2 ^ 16 + psa / 2 ^ 32]

/-- Post a decode record to the owner and to HLT (R183, R586): calibration jobs give no sample. -/
def Dev.postDrec (d : Dev) (owner : Nat) (w : List Nat) (head : Nat) (cal : Bool) : Dev :=
  let psa := w.getD 2 0 + w.getD 3 0 % 2 ^ 16 * 2 ^ 32
  let d := d.ceTrigger owner tDrec 0 (w.getD 0 0) (w.getD 1 0) (w.getD 2 0) (w.getD 3 0)
  let sample := d.decodeSample (bits (w.getD 0 0) 28 4) (bits (w.getD 0 0) 21 7) (bits (w.getD 0 0) 0 16) (bits (w.getD 1 0) 0 16)
  match sample with
  | some x => if cal then d else d.marginSample (psaSurf psa) (psaTrack psa) head x
  | none => d

/-- Count a sector's end in the failure counters (ITB_FAILCNT, ITB_FAILCNT2). -/
def Dev.countEnd (d : Dev) (status : Nat) : Dev :=
  match status with
  | 1 => d.count .ITB_FAILCNT_NOCONV
  | 2 => d.count .ITB_FAILCNT_EXPIRED
  | 3 => d.count .ITB_FAILCNT_BWAIT
  | 4 => d.count .ITB_FAILCNT_DROPPED
  | 5 => d.count .ITB_FAILCNT2_ABANDON
  | 6 => d.count .ITB_FAILCNT2_CTXERR
  | 7 => d.count .ITB_FAILCNT2_TBLERR
  | _ => d

/-- Release context `c`: granted acorns unspent return at the next boundary (R175), and its place in the queue and its
re-detection path are free. -/
def Dev.releaseCtx (d : Dev) (c : Nat) (x : Ctx) : Dev :=
  let paths := match x.phase with
    | .redetect p => d.itb.paths.filter (· != p)
    | _ => d.itb.paths
  { d with itb := { d.itb with ctx := Tab.del d.itb.ctx c, queue := d.itb.queue.filter (· != c), ret := d.itb.ret + x.grant,
                               paths := paths, waitq := d.itb.waitq.filter (· != c) } }

/-- End context `c` with a status other than OK: record, counters and release (R180, R183). -/
def Dev.endCtx (d : Dev) (c : Nat) (x : Ctx) (status : Nat) : Dev :=
  let w := drecWords status x.iters x.globs x.dual x.urg x.corr x.usc x.eras x.psa x.prof x.pair x.spent
  let d := ((d.releaseCtx c x).countEnd status).postDrec x.owner w x.head x.cal
  if x.cal || status == 5 then d else d.sectorFailed x.owner x.fseq x.psa x.head (if status = 7 then none else some x.usc) false

/-- End with ABANDON every context still filling for slot `s` (R181, R269). -/
def Dev.cutCaptures (d : Dev) (s : Nat) : Dev :=
  d.itb.ctx.foldl (fun d p => if p.2.fsq == s && p.2.phase == .filling then d.endCtx p.1 p.2 5 else d) d

/-! ### Gates, restarts and loops of a lane (R117-R123, R267) -/

/-- The lanes of an analog bank. -/
def bankLanes (b : Nat) : List Nat := [4 * b, 4 * b + 1, 4 * b + 2, 4 * b + 3]

/-- The runs that can still concern a lane at edge `n`: those of its last two revolutions. -/
def runsKept (spr n : Nat) (l : List FlagRun) : List FlagRun := l.filter fun r => decide (n ≤ r.last + 2 * spr)

/-- The outputs of a lane from edge `a` to `b` are flagged (R122, R124). -/
def Dev.flagRun (d : Dev) (l a b : Nat) : Dev :=
  let x := d.lane l
  d.setLane l { x with flags := runsKept (d.spr (l / 2)) a x.flags ++ [{ first := a, last := b }] }

/-- The equaliser restarts: the next eight outputs are flagged (R123). -/
def Dev.eqRestart (d : Dev) (l : Nat) : Dev := d.flagRun l (d.laneEdge l + 1) (d.laneEdge l + 8)

/-- A lane's gate closes behind edge `last`. -/
def Lane.closeGate (x : Lane) (last : Nat) : Lane :=
  match x.gateAt with
  | some a => { x with gateAt := none, gates := x.gates ++ [{ first := a, last := last }] }
  | none => x

/-- A lane's servo gate closes at edge `n`, and its equaliser restarts (R120, R123). -/
def Lane.closeServo (x : Lane) (n : Nat) : Lane :=
  match x.servoAt with
  | some a => { x with servoAt := none, servos := x.servos ++ [{ first := a, last := n }],
                       flags := x.flags ++ [{ first := n + 1, last := n + 8 }] }
  | none => x

/-- The edges are counted anew from `n`: what the lane knows of earlier ones no longer names them. -/
def Lane.renumber (x : Lane) (n : Nat) : Lane :=
  { x with flags := [], overs := [], ovrEnd := none, gates := [], servos := [], hist := [], loopAt := n,
           gateAt := x.gateAt.map fun _ => n, servoAt := x.servoAt.map fun _ => n, fault := x.fault.map fun _ => n }

/-- LFZ of the sequencer that holds lane `l` freezes its gain and timing loops (R264). -/
def Dev.lfzOn (d : Dev) (l : Nat) : Bool := ((d.slotOfPair (l / 2)).map fun s => (d.seq s).freeze).getD false

/-- A value within `b` of `v` and at most `hi`; `up` and `down` say which way it may have moved. -/
def reached (free v b hi : Nat) (up down : Bool) : Nat :=
  let lo := if down then v - b else v
  let top := if up then min hi (v + b) else v
  lo + free % (top - lo + 1)

/-- The gain of lane `l` after `n` samples under an open gate: at most STEP + 1 steps for every 32 unflagged ones, towards TARGET
where `mean` tells on which side of it the ADC codes lie (R118). How far within that it moves is a free value (log 72). -/
def Dev.agcRun (d : Dev) (l n : Nat) (mean : Option Nat) : Dev :=
  if d.on .LANE_MODE_AGCFREEZE l || d.lfzOn l then d
  else
    let goal := d.rd .LANE_AGC_TARGET l
    let up := (mean.map fun m => decide (m < goal)).getD true
    let down := (mean.map fun m => decide (goal < m)).getD true
    let b := (n + 31) / 32 * (d.rd .LANE_AGC_STEP l + 1)
    d.used.wr .LANE_GAIN_VGA l (reached d.fresh (d.rd .LANE_GAIN_VGA l) b 127 up down)

/-- The timing correction of lane `l` after samples under an open gate: a free value within its bounds (log 72); one that would pass
±32/64 UI stays there and sets TLCLAMP (R117, LANE_TLOOP.FLIM). -/
def Dev.timingRun (d : Dev) (l : Nat) : Dev :=
  if d.on .LANE_MODE_TLFREEZE l || d.lfzOn l then d
  else
    let p : Int := (d.fresh % 129 : Nat) - 64
    let lim := min 32767 (5000 * (d.rd .LANE_TLOOP_FLIM l + 1))
    let f : Int := (d.used.fresh % (2 * lim + 1) : Nat) - lim
    let d' := ((d.used.used).wr .LANE_TPHASE_PHASE l (unsigned 7 (max (-32) (min 32 p)))).wr .LANE_TPHASE_FREQ l (unsigned 16 f)
    if p < -32 ∨ 32 < p then d'.stick .LANE_STAT_TLCLAMP l else d'

/-- The coefficients of lane `l` after samples under an open gate with adaptation enabled: free values (log 72). -/
def Dev.adaptRun (d : Dev) (l : Nat) : Dev :=
  if !d.on .LANE_MODE_ADAPT l then d
  else
    let n := d.free
    let taps := (List.range 16).map fun i => Config.freeValue (n + i) % 1024
    ({ d with free := n + 16 }).setLane l { d.lane l with taps := taps }

/-- The loops of lane `l` run up to its latest edge: only under an open read gate, and not under a servo gate (R117, R118, R120). -/
def Dev.loopsRun (d : Dev) (l : Nat) (mean : Option Nat) : Dev :=
  let x := d.lane l
  let n := d.laneEdge l
  if x.gateAt.isNone || x.servoAt.isSome || decide (n ≤ x.loopAt) then d
  else
    let d := ((d.agcRun l (n - x.loopAt) mean).timingRun l).adaptRun l
    d.setLane l { d.lane l with loopAt := n }

/-- A gate opens on lane `l` at edge `e`. -/
def Dev.openGate (d : Dev) (l e : Nat) : Dev :=
  let x := d.lane l
  if x.gateAt.isSome then d
  else
    let keep := runsKept (d.spr (l / 2)) e
    d.setLane l { x with gateAt := some e, loopAt := e, gates := keep x.gates, servos := keep x.servos, flags := keep x.flags }

/-- The gate of lane `l` closes behind edge `last`. -/
def Dev.endGate (d : Dev) (l last : Nat) : Dev :=
  if (d.lane l).gateAt.isNone then d
  else
    let d := d.loopsRun l none
    d.setLane l ((d.lane l).closeGate last)

/-- The filter setting in effect on an even lane changes with its servo gate (R120). -/
def Dev.showFilter (d : Dev) (l : Nat) : Dev :=
  let servo := (d.lane l).servoAt.isSome
  d.emit (.filter l (d.rd (if servo then .LANE_AFE_SFC else .LANE_AFE_FC) l) (d.rd (if servo then .LANE_AFE_SBOOST else .LANE_AFE_BOOST) l))

/-- The servo gate of lane `l` closes. -/
def Dev.endServo (d : Dev) (l : Nat) : Dev :=
  let x := d.lane l
  if x.servoAt.isNone then d else (d.setLane l { x.closeServo (d.laneEdge l) with loopAt := d.laneEdge l }).showFilter l

/-! ### What a writer launches (R281-R283) -/

/-- EARLY1 and EARLY2 as they stand on edge `e` of the writer. -/
def Wslot.earlyAt (w : Wslot) (e : Nat) : Nat × Nat := ((w.early.filter fun x => decide (x.1 ≤ e)).getLast?.map Prod.snd).getD (0, 0)

/-- Launch a position behind `before`, the one launched last: its grid index, its bit, and the sixty-fourths of a position by which its
transition comes early (R283). The first position after an idle span has no transition. -/
def Wslot.launch (w : Wslot) (before : Option Launch) (b : WBit) : Launch × Nat × Bool × Nat :=
  let p := before.filter fun x => x.edge + 1 == b.edge
  let t := p.any fun x => x.bit != b.bit
  let t1 := p.any Launch.t1
  let shift := if !t then 0 else if t1 then (w.earlyAt b.edge).1 else if p.any Launch.t2 then (w.earlyAt b.edge).2 else 0
  ({ edge := b.edge, bit := b.bit, t1 := t, t2 := t1 }, b.k, b.bit, shift)

/-- Launch positions in order: the last of them, and what each is launched with. -/
def Wslot.launches (w : Wslot) (before : Option Launch) : List WBit → Option Launch × List (Nat × Bool × Nat)
  | [] => (before, [])
  | b :: l =>
    let x := w.launch before b
    let r := w.launches (some x.1) l
    (r.1, x.2 :: r.2)

/-- Writer `s` has launched its slot's positions up to edge `e`; the others are dropped. -/
def Dev.launchTo (d : Dev) (s e : Nat) : Dev :=
  let w := d.wslot s
  let r := w.launches w.last (w.wire.filter fun b => decide (b.edge ≤ e))
  let d := d.setWslot s { w with wire := [], last := r.1 }
  if r.2.isEmpty then d else d.emit (.writer s r.2)

/-- Output `s` goes idle (R281). -/
def Dev.idleOutput (d : Dev) (s : Nat) : Dev :=
  let d := match (d.seq s).job with
    | some j => if (d.wslot s).wire.isEmpty then d else d.launchTo s (d.ctrEdges s j 2).1
    | none => d
  d.wr .WRF_SSTAT_DRIVING s 0

/-- WRF_PRECOMP of slot `s` takes effect, for the positions that follow. -/
def Dev.noteEarly (d : Dev) (s : Nat) : Dev :=
  let w := d.wslot s
  match (d.seq s).job with
  | some j =>
    let x := ((d.ctrEdges s j 2).1 + 1, d.rd .WRF_PRECOMP_EARLY1 s, d.rd .WRF_PRECOMP_EARLY2 s)
    if w.wire.isEmpty then d else d.setWslot s { w with early := w.early ++ [x] }
  | none => d

/-! ### Ends of jobs -/

/-- Close every gate of slot `s` (R21, R87, R272) and idle its writer. -/
def Dev.closeGates (d : Dev) (s : Nat) : Dev :=
  let q := d.seq s
  let d := (d.setSeq s { q with rgLead := false, rgTrail := false, wg := false, vg := false }).idleOutput s
  match q.job with
  | some j =>
    let shut (d : Dev) (l : Nat) : Dev := d.endGate l (d.laneEdge l)
    shut (shut d (2 * j.pair)) (2 * j.pair + 1)
  | none => d

/-- A head leaves its last binding, unless it is a guide head: its follow state goes to NONE (R332) and its heater is sent
code 0 (R337). -/
def Dev.unfollow (d : Dev) (h : Nat) : Dev :=
  if (d.act (actOfHead h)).guide == some h then d
  else (d.wr .SRV_HSTAT_FOLLOW h 0).armHeater (actOfHead h) (surfOfHead h) 0

/-- The entry in slot `n` of the job on slot `s` has been captured, or its gate has passed: a DONE of it takes effect
(R249). -/
def Dev.entryMet (d : Dev) (s n : Nat) : Dev :=
  let q := d.seq s
  match q.job with
  | none => d
  | some j =>
    match j.entries.findIdx? fun e => e.slot == n with
    | none => d
    | some i =>
      let met := if q.met.contains i then q.met else q.met ++ [i]
      let com := if q.done.contains i && !q.committed.contains i then q.committed ++ [i] else q.committed
      d.setSeq s { q with met := met, committed := com }

/-- Another sequencer of the actuator is busy. -/
def Dev.otherBusy (d : Dev) (s : Nat) : Bool :=
  (List.range 8).any fun j => actOfSlot s * 8 + j != s && d.seqBusy (actOfSlot s * 8 + j)

/-- The actuator needs a guide lane once `s` is idle: LOADING, FOLLOW or SEEK with no busy slot (R485). -/
def Dev.keepsGuide (d : Dev) (s : Nat) : Bool :=
  let m := d.rd .SRV_STAT_MODE (actOfSlot s)
  (m == 1 || m == 2 || m == 3) && !d.otherBusy s

/-- Make head `h` the guide head of its actuator on pair `m` (R485); its microactuator word is held at 0 (R335). -/
def Dev.setGuide (d : Dev) (h m : Nat) : Dev :=
  let a := actOfHead h
  let d := d.setAct a { d.act a with guide := some h, guidePair := some m, guideOk := 0 }
  (((d.wr .SRV_HSTAT_GUIDE h 1).wr .SRV_MA_CODE h 0).wr .SCH_ASTAT_GUIDE a 1).wr .SCH_ASTAT_GUIDELANE a (2 * m)

/-- The actuator's guide ends; its lane is released unless `keep`. -/
def Dev.endGuide (d : Dev) (a : Nat) (keep : Bool) : Dev :=
  let x := d.act a
  match x.guide, x.guidePair with
  | some h, some m =>
    let d := d.setAct a { x with guide := none, guidePair := none, guideOk := 0 }
    let d := ((d.wr .SRV_HSTAT_GUIDE h 0).wr .SCH_ASTAT_GUIDE a 0).wr .SCH_ASTAT_GUIDELANE a 0
    if keep then d else d.unroute (2 * m)
  | _, _ => d

/-- Pair `m` is free for a grant: both lanes in SERVICE and not held, no RECAL waiting, and no guide on it (R484). -/
def Dev.pairFree (d : Dev) (m : Nat) : Bool :=
  let ok (l : Nat) : Bool := d.rd .LANE_STAT_STATE l == unitServ && !d.on .LANE_STAT_HELD l && !d.on .LANE_STAT_RECALPEND l
  ok (2 * m) && ok (2 * m + 1) && !((List.range 4).any fun a => (d.act a).guidePair == some m) && (d.slotOfPair m).isNone

/-- Key of a track's lock. -/
def lockKey (surf track : Nat) : Nat := surf * 1048576 + track

/-- Give a track's lock back, where `b` holds it (R476). -/
def Dev.unlock (d : Dev) (k : Nat) (b : LockBy) : Dev :=
  if Tab.look d.sch.locks k == some b then { d with sch := { d.sch with locks := Tab.del d.sch.locks k } } else d

/-- Give back the lock of a write command with its hold on the track's working-set entry (R311, R576). -/
def Dev.unlockWrite (d : Dev) (k : Nat) (b : LockBy) : Dev :=
  if Tab.look d.sch.locks k != some b then d
  else
    let ws := d.hlt.ws.map fun (e : Nat × WsEntry) => if e.1 = k then (e.1, { e.2 with locks := e.2.locks - 1 }) else e
    ({ d with hlt := { d.hlt with ws := ws } }).unlock k b

/-- Every lock that a write command holds returns. -/
def Dev.unlockAll (d : Dev) (b : LockBy) : Dev :=
  (d.sch.locks.filter fun e => e.2 == b).foldl (fun d e => d.unlockWrite e.1 b) d

/-- The job on slot `s` has ended: lanes and head are released, the routes are removed at their next apply point (R256), the
guarantee load leaves SCH_ACORN.LOAD (R488), the lock of a read job returns (R476), the writer loses its owner (R98), WEN falls for a write job (R343), and a
guide lane stays where one is needed (R485). -/
def Dev.jobEnd (d : Dev) (s state : Nat) : Dev :=
  match (d.seq s).job with
  | none => d.wr .FSQ_STAT_STATE s state
  | some j =>
    let m := j.pair
    let h := j.head
    let d := d.wr .FSQ_STAT_STATE s state
    let d := (d.wr .LANE_STAT_HELD (2 * m) 0).wr .LANE_STAT_HELD (2 * m + 1) 0
    let d := if d.keepsGuide s then (d.setGuide h m).unroute (2 * m + 1) else (d.unroute (2 * m)).unroute (2 * m + 1)
    let d := d.wr .SCH_ACORN_LOAD 0 (d.rd .SCH_ACORN_LOAD - j.gl)
    let d := (d.wrBit .SCH_ASTAT_BUSY (actOfSlot s) (s % 8) false).unlockWrite (lockKey j.surf j.track) (.job j.order)
    let d := (d.wr .ANG_WCKSTAT_UNOWNED s 1).wr .ANG_WCKSTAT_OWNER s 0
    let d := if j.kind == 1 then d.armSelect s (surfOfHead h) false else d
    let d := if j.kind == 1 && !(d.wslot s).faulted then { d with wrf := { d.wrf with faults := Tab.put d.wrf.faults h 0 } } else d
    let d := d.wr .SRV_HSTAT_BOUND h 0
    let d := d.setSeq s { Seq.init with stamp := (d.seq s).stamp, stampPos := (d.seq s).stampPos }
    let d := { d with tpe := { d.tpe with enc := Tab.del d.tpe.enc s } }
    let w := { d.wslot s with prep := [], cur := none, nextAt := none, wire := [], onTrack := false, latestOk := false, offTrk := false, lastTrk := none }
    let d := d.setWslot s { w with idleSlot := false, idleJob := false, faulted := false }
    d.unfollow h

/-- The verify streams of slot `s` end here (R274, R302). -/
def Dev.cutStreams (d : Dev) (s : Nat) : Dev :=
  let w := d.wslot s
  d.setWslot s { w with emits := w.emits.map fun e => { e with cut := true } }

/-- An abandon leaves records to come for committed entries only, without their streams (R272, R302, R303). -/
def Dev.cutWrites (d : Dev) (s : Nat) : Dev :=
  let w := d.wslot s
  let q := d.seq s
  let left := w.emits.filter fun e => q.job != some e.job || q.committed.contains e.entry
  (d.setWslot s { w with prep := [], cur := none, nextAt := none, emits := left }).cutStreams s

/-- Entries an abandon returns: those fetched and not committed, and those not fetched (R272). -/
def Seq.returnedCount (q : Seq) (n : Nat) : Nat :=
  ((List.range n).filter fun i => !q.committed.contains i && !q.returned.contains i).length

/-- Abandon the job of a busy sequencer with a cause of R271: queues, searches and unstarted sectors are discarded, gates
close, captures cut short end ABANDON, the entries not committed return to the owner by RET, and the sequencer reaches IDLE,
or MCHK for causes ILLEGAL and MCHK (R272). -/
def Dev.abandon (d : Dev) (s cause : Nat) : Dev :=
  if !d.seqBusy s then d
  else
    let q := d.seq s
    let d := (d.wr .FSQ_STAT_CAUSE s cause).count .FSQ_ABNCNT_ABANDONS s
    let d := if cause = 2 then d.stick .FSQ_STAT_WDOG s
      else if cause = 3 then d.stick .FSQ_STAT_FMTERR s
      else if cause = 4 then d.stick .FSQ_STAT_ILLEGAL s
      else if cause = 5 then d.stick .FSQ_STAT_MCHK s else d
    let d := if cause = 4 ∨ cause = 5 then d.count .FSQ_ABNCNT_MCHKS s else d
    let d := (d.closeGates s).cutCaptures s
    let d := d.cutWrites s
    let d := match q.job with
      | some j =>
        let n := j.entries.length
        d.ceTrigger j.owner tRet 0 j.desc cause (q.returnedCount n) (q.committed.length)
      | none => d
    let back := (q.job.map fun j => (List.range j.entries.length).filter fun i => !q.committed.contains i).getD []
    let d := { d with sch := { d.sch with returned := Tab.put d.sch.returned s back } }
    d.jobEnd s (if cause = 4 ∨ cause = 5 then 5 else 1)

/-- Abandon every busy sequencer. -/
def Dev.abandonAll (d : Dev) (cause : Nat) : Dev := (List.range 32).foldl (fun d s => d.abandon s cause) d

/-! ### Heads and actuators -/

/-- A head enters LOST; the job bound to it is abandoned with cause SERVO (R332, R333). -/
def Dev.loseHead (d : Dev) (h : Nat) : Dev :=
  let d := if d.rd .SRV_HSTAT_FOLLOW h == 0 then d else d.wr .SRV_HSTAT_FOLLOW h 3
  match d.slotOfHead h with
  | some s => d.abandon s 7
  | none => d

/-- Every head of actuator `a` goes LOST. -/
def Dev.loseHeads (d : Dev) (a : Nat) : Dev := (List.range 32).foldl (fun d s => d.loseHead (a * 32 + s)) d

/-- The VCM current measured on channel IMCH differs from the applied DAC value by more than IERR (R329). A sample with VALID 0
measures nothing (log 34). -/
def Dev.vcmAstray (d : Dev) (a : Nat) : Bool :=
  let c := d.rd .SRV_RUN_IMCH a
  decide (c < 24) && d.on .MAC_CHDATA_VALID c &&
    decide (d.rd .SRV_RUN_IERR a < (signed 16 (d.rd .MAC_CHDATA_DATA c) - signed 16 (d.rd .SRV_VCMOUT_DAC a)).natAbs)

/-- In FOLLOW, the applied DAC value stands at ±VCMLIM (R329). -/
def Dev.vcmPinned (d : Dev) (a : Nat) : Bool :=
  d.rd .SRV_STAT_MODE a == 2 && (signed 16 (d.rd .SRV_VCMOUT_DAC a)).natAbs == d.rd .SRV_VCMLIM_LIM a

/-- Since when the conditions of IDRIVE and SATURATE have stood without a break (R329). -/
def Dev.watchVcm (d : Dev) (a : Nat) : Dev :=
  let x := d.act a
  let keep (on : Bool) (t : Option Nat) : Option Nat := if on then some (t.getD d.now) else none
  d.setAct a { x with curOff := keep (d.vcmAstray a) x.curOff, satAt := keep (d.vcmPinned a) x.satAt }

/-- The motion mode changes and the servo engine is told (R323, R401 MODE): heaters go off when FOLLOW and SEEK are left
(R337), readers are biased from LOADING until PARKED (R338). -/
def Dev.setMode (d : Dev) (a mode cause : Nat) : Dev :=
  let follows (m : Nat) : Bool := m == 2 || m == 3
  let was := d.rd .SRV_STAT_MODE a
  let d := if follows was && !follows mode then d.heatersOff a else d
  let d := if mode = 1 then d.armBias a (d.biasMask a) else if mode = 0 then d.armBias a 0 else d
  let x := d.act a
  let d := d.setAct a { x with modeAt := d.now, modeAng := d.ang.val, validAt := if mode = 1 then d.now else x.validAt }
  ((d.wr .SRV_STAT_MODE a mode).watchVcm a).trigger a tMode 0 mode cause 0 0

/-- Start the hardware retract of actuator `a`, or restart its timer (R328). -/
def Dev.retract (d : Dev) (a : Nat) : Dev :=
  let d := d.setAct a { d.act a with retract := true, modeAt := d.now }
  let d := (d.wr .SRV_VCMOUT_DAC a (d.rd .SRV_RETRACT_CUR a)).wr .SRV_VCMOUT_CLAMP a 0
  if d.rd .SRV_STAT_MODE a == 5 then d.watchVcm a else d.setMode a 5 0

/-! ### The power stage (R353-R359) -/

/-- The two legs that conduct in commutation step `k`, high side and low side, and the one that floats: 0 U, 1 V, 2 W (R365). The spec
numbers no steps (DESIGN CHOICE, log 31). -/
def stepLegs (k : Nat) : Nat × Nat × Nat :=
  match k % 6 with
  | 0 => (0, 1, 2)
  | 1 => (0, 2, 1)
  | 2 => (1, 2, 0)
  | 3 => (1, 0, 2)
  | 4 => (2, 0, 1)
  | _ => (2, 1, 0)

def allLegs (x : Leg) : List Leg := [x, x, x]

/-- The gates as the state of SPN has them (R356, R357, R359, R365, R371, R373, R376). -/
def Dev.legsNow (d : Dev) : List Leg :=
  let x := d.spn
  let shorted := allLegs (if x.cut then .off else .low)
  let braking := if d.on .SPN_CTL_DECEL then shorted else allLegs .off
  if x.drvLow || x.held then allLegs .off
  else
    match d.rd .SPN_STAT_STATE with
    | 1 => allLegs (if d.on .SPN_CTL_HOLDSHORT then .low else .off)
    | 2 => allLegs (if x.retry then .off else .pwm)
    | 3 => if x.slow then braking else allLegs (if x.cut then .off else .pwm)
    | 4 =>
      let s := stepLegs x.step
      if x.slow then braking
      else (List.range 3).map fun l => if l = s.1 then (if x.cut then .off else .pwmHigh) else if l = s.2.1 then .low else .off
    | 6 => shorted
    | 7 => if 110000 ≤ d.rd .SPN_MEAS_SPEED then (List.range 3).map fun l => x.rect.getD l .off else allLegs .off
    | _ => allLegs .off

/-- The gate outputs follow; the dead time is never shorter than 40 ns (R354). -/
def Dev.showGates (d : Dev) : Dev :=
  let g := d.legsNow
  if g = d.spn.gates then d
  else ({ d with spn := { d.spn with gates := g } }).emit (.gates g (max 40 d.spn.pwmDead))

/-- Set the state of SPN; counters of the state left are cleared. -/
def Dev.spnState (d : Dev) (st : Nat) : Dev :=
  let spn := { d.spn with misses := 0, seen := 0, stopWin := 0, zc := false, cut := false, slow := false, rect := [], zcAt := d.now,
                          senseAt := d.now }
  ((({ d with spn := spn }).wr .SPN_STAT_STATE 0 st)).showGates

/-- SPN goes to COAST from DETECT, INJECT, BEMF or BRAKE, and RUN clears (R360). -/
def Dev.spnCoast (d : Dev) : Dev :=
  let st := d.rd .SPN_STAT_STATE
  if st == 2 || st == 3 || st == 4 || st == 6 then (d.wr .SPN_CTL_RUN 0 0).spnState 5 else d

/-- SCH goes to HALTED (R501), which begins a start (R426). -/
def Dev.schHalt (d : Dev) : Dev := ({ d with sch := { d.sch with up := false } }).wr .SCH_STAT_STATE 0 8

/-- REPLACE trigger `k` of HLT_REPL latches (R605, R629): the pin asserts and a REPLACE record is stored. -/
def Dev.replace (d : Dev) (k : Nat) : Dev :=
  let was := d.on .HLT_REPL_REPLACE
  let d := { d with hlt := { d.hlt with trig := setBit d.hlt.trig k } }
  let d := (d.wrBit .HLT_REPL_TRIG 0 k true).wr .HLT_REPL_REPLACE 0 1
  if was then d else d.event 0x513 0 (d.word .HLT_REPL) 0 0

end Sys2Proof.Machine
end

