-- ==== Sys2Proof/Machine/Rack.lean ====
section
/-! DEFINITION. The rack link's transmit queue (R689-R691), the roles of its nodes (R692, R693), tokens (R693) and RACK_ALERT
(R698). -/

namespace Sys2Proof.Machine

/-- Frame types of R690. -/
def fAlert : Nat := 1
def fBeacon : Nat := 2
def fTokGrant : Nat := 3
def fTokReq : Nat := 4
def fTokHold : Nat := 5
def fTokRel : Nat := 6
def fHello : Nat := 7
def fDigReq : Nat := 8
def fDigest : Nat := 9

/-- PRIO of a frame type (R690). -/
def rackPrio (t : Nat) : Nat :=
  if t ≤ 3 then t - 1 else if t ≤ 6 then 3 else if t = 7 then 4 else 5

/-- The 29-bit identifier of a frame (R689). -/
def rackId (type src dst : Nat) : Nat :=
  rackPrio type * 2 ^ 25 + type * 2 ^ 20 + src * 2 ^ 11 + dst * 4 + (if dst = 0 then 2 else 0)

/-- The `n` bytes of `v`, little-endian. -/
def leBytes (v : Nat) : Nat → List Nat
  | 0 => []
  | n + 1 => v % 256 :: leBytes (v / 256) n

/-- This node's ID. -/
def Dev.node (d : Dev) : Nat := d.rd .RCK_CFG_NODE

/-- Put a frame behind those of its own or a higher priority; a queued HELLO, TOKHOLD or BEACON is replaced (R691). -/
def rackInsert (q : List RackFrame) (f : RackFrame) : List RackFrame :=
  let q := if f.type = fHello ∨ f.type = fTokHold ∨ f.type = fBeacon then q.filter fun g => g.type != f.type else q
  let before := q.takeWhile fun g => decide (rackPrio g.type ≤ rackPrio f.type)
  before ++ f :: q.drop before.length

/-- Queue a frame; a full queue drops its lowest-priority, newest frame (R691). -/
def Dev.rackSend (d : Dev) (type dst : Nat) (bytes : List Nat) : Dev :=
  let q := rackInsert d.rck.queue { type := type, dst := dst, bytes := bytes, tries := 0 }
  let d := { d with rck := { d.rck with queue := q.take 16 } }
  if 16 < q.length then d.count .RCK_CNT_TXDROP else d

/-- This node is the steward. -/
def Dev.isSteward (d : Dev) : Bool := d.steward == d.node

/-- The steward queues a request that has arrived, unless the node already waits (R694). -/
def Dev.stewardQueue (d : Dev) (n q : Nat) : Dev :=
  if d.rck.reqs.any fun r => r.1 == n then
    { d with rck := { d.rck with reqs := d.rck.reqs.map fun r => if r.1 = n then (n, q) else r } }
  else { d with rck := { d.rck with reqs := d.rck.reqs ++ [(n, q)] } }

/-- TOKREQ for the waiting request; the steward serves itself without a frame (R693, R694). -/
def Dev.sendTokReq (d : Dev) : Dev :=
  let n := d.rck.seq
  let d := (d.beginWait .tokReq).rackSend fTokReq 0 (leBytes n 2 ++ leBytes (d.rd .SCH_SPNGRANT_SPINMA) 2)
  if d.isSteward then d.stewardQueue d.node n else d

/-- Start the solo delay: node mod 32 seconds and a random part of 0 to 999 ms, which is a free value (R695, log 3). -/
def Dev.soloDelay (d : Dev) : Dev :=
  let ms := d.node % 32 * 1000 + d.fresh % 1000
  let d := { d.used with rck := { d.rck with delay := true, freed := false, endAt := d.now + ms * 1250000 } }
  d.wr .RCK_SOLO_DELAY 0 ((ms + 9) / 10)

/-- SCH asks for a token (R693, R695). -/
def Dev.askToken (d : Dev) : Dev :=
  let d := { d with rck := { d.rck with hold := false, freed := false } }
  if d.on .RCK_STAT_SOLO then d.soloDelay
  else
    let n := (d.rck.seq + 1) % 65536
    ({ d with rck := { d.rck with seq := n, want := true } }).sendTokReq

/-- SCH releases the token, or gives its request up (R693). -/
def Dev.releaseToken (d : Dev) : Dev :=
  let held := d.rck.hold
  let reqs := d.rck.reqs.filter fun r => r.1 != d.node
  let d := { d with rck := { d.rck with hold := false, want := false, ann := false, alone := false, delay := false,
                                        freed := false, reqs := reqs } }
  if held then d.rackSend fTokRel 0 (leBytes d.rck.seq 2) else d

/-- Drive RACK_ALERT, for at least 10 ms or for 100 ms, and queue ALERT with its cause: 1 power fail, 2 safe state (R698). -/
def Dev.rackAlert (d : Dev) (cause : Nat) : Dev :=
  let till := max d.rck.alertTill (d.now + (if cause = 1 then 12500000 else 125000000))
  (({ d with rck := { d.rck with alertTill := till } }).wr .RCK_STAT_ALERTOUT 0 1).rackSend fAlert 0 [cause, d.rd .SCH_STAT_STATE, 0, 0]

end Sys2Proof.Machine
end

