-- ==== Sys2Proof/Machine/Faults.lean ====
section
/-! DEFINITION. Raising a fault (R612-R622): pending bits, escalation, the record, the recovery timer, the hold (R614) and the
safe state (R615). -/

namespace Sys2Proof.Machine

/-- Set or clear the pending bit of source `n`. -/
def Dev.setPend (d : Dev) (n : Nat) (b : Bool) : Dev :=
  if n < 32 then d.wrBit .FLT_PEND0_PEND 0 n b else d.wrBit .FLT_PEND1_PEND 0 (n - 32) b

/-- The class of a source (R612). -/
def faultClass (n : Nat) : Nat := (faultRow n).1

/-- The programmed severity of source `n`: codes 5-7 apply as SAFESTOP (R613). -/
def Dev.progSev (d : Dev) (n : Nat) : Nat := min 4 (d.rd .FLT_SRCCFG_SEV n)

/-- A counting fault of the class of `n` is pending (R619). -/
def Dev.classCounts (d : Dev) (n : Nat) : Bool :=
  d.pendingSources.any fun m => faultClass m == faultClass n && decide (1 ≤ d.rd .FLT_SRCSTAT_EFFSEV m)

/-- The raise of source `n` would be escalated (R619). -/
def Dev.escalates (d : Dev) (n : Nat) : Bool := !d.on .FLT_SRCCFG_NOESC n && d.classCounts n

/-- The effective severity of a raise of source `n` (R619). -/
def Dev.raiseSev (d : Dev) (n : Nat) : Nat := if d.escalates n then min 4 (d.progSev n + 1) else d.progSev n

/-- Start the hold (R614); each start stores a record. -/
def Dev.hold (d : Dev) (src : Nat) : Dev :=
  if d.on .FLT_STAT_HOLD then d else (d.wr .FLT_STAT_HOLD 0 1).event 0x511 src 0 0 0

/-- The writer of slot `s` is idle to the end of the present slot (R290). -/
def Dev.idleWriter (d : Dev) (s : Nat) : Dev :=
  (d.setWslot s { d.wslot s with idleSlot := true }).idleOutput s

/-- The safe-state reaction (R615), applied once; a further SAFESTOP raise is only recorded (R616). -/
def Dev.safeState (d : Dev) (src : Nat) : Dev :=
  if d.on .FLT_STAT_SAFEACT then d
  else
    let d := d.wr .FLT_STAT_SAFEACT 0 1
    let d := (List.range 32).foldl Dev.idleWriter d
    let d := d.abandonAll 9
    let d := (List.range 4).foldl (fun d a => (d.armSend a 8 0 0x5AFE).retract a) d
    let d := (d.spnCoast.schHalt.wr .HIF_NVMSTAT_CFS 0 1).wr .HIF_NVMSTAT_CFS 1 1
    (d.rackAlert 2).closePage.event 0x510 src 0 0 0

/-- The reactions CONTAIN and SAFESTOP of a raise; they wait while the power-fail sequence runs (R617). -/
def Dev.react (d : Dev) (src sev : Nat) : Dev :=
  if sev < 3 then d
  else if d.spn.running then { d with flt := { d.flt with deferred := d.flt.deferred ++ [(src, sev)] } }
  else if sev = 3 then d.hold src
  else (d.hold src).safeState src

/-- Start the recovery timer of a source whose effective severity first becomes RECOVER (R619). -/
def Dev.startTimer (d : Dev) (src sev : Nat) : Dev :=
  if sev = 2 && !d.flt.timers.contains src && !d.flt.expired.contains src then
    ({ d with flt := { d.flt with timers := d.flt.timers ++ [src] } }).beginWait (.recov src)
  else d

/-- Raise source `src` for `n` instances found together, `inst` the lowest (R618, R619). -/
def Dev.raiseMany (d : Dev) (src inst n d0 d1 d2 : Nat) (forced : Bool) : Dev :=
  let esc := d.escalates src
  let sev := d.raiseSev src
  let eff := max (if d.fltPend src then d.rd .FLT_SRCSTAT_EFFSEV src else 0) sev
  let d := ((d.setPend src true).count .FLT_SRCSTAT_COUNT src n).count .FLT_RAISES_COUNT
  let d := ((d.wr .FLT_SRCSTAT_INST src inst).wrb .FLT_SRCSTAT_ESC src esc).wr .FLT_SRCSTAT_EFFSEV src eff
  let d := ((d.wr .FLT_LAST_INST 0 inst).wr .FLT_LAST_SOURCE 0 src).wr .FLT_LAST_SEV 0 sev
  let d := (d.wrb .FLT_LAST_ESC 0 esc).wrb .FLT_LAST_FORCED 0 forced
  let flt := { d.flt with lastAt := Tab.put d.flt.lastAt src (d.time % 2 ^ 32), lastData := Tab.put d.flt.lastData src (d0, d1, d2) }
  let d := { d with flt := flt }
  let d := d.record src inst 0 sev forced esc (esc || decide (2 ≤ sev)) d0 d1 d2
  (d.startTimer src eff).react src sev

/-- Raise source `src` for one instance, with DATA0. -/
def Dev.raise (d : Dev) (src inst d0 : Nat) : Dev := d.raiseMany src inst 1 d0 0 0 false

/-- Acknowledge source `n` (R621): its record carries the writer as ORIGIN. -/
def Dev.acknowledge (d : Dev) (n origin : Nat) : Dev :=
  if !d.fltPend n then d
  else
    let exempt := decide (2 ≤ d.rd .FLT_SRCSTAT_EFFSEV n) || d.on .FLT_SRCSTAT_ESC n
    let d := (d.setPend n false).wr .FLT_SRCSTAT_EFFSEV n 0
    let flt := { d.flt with timers := d.flt.timers.filter (· != n), expired := d.flt.expired.filter (· != n) }
    let d := ({ d with flt := flt }).endWait (.recov n)
    d.record (0x100 + n) 0 origin 7 false false exempt (d.rd .FLT_SRCSTAT_COUNT n) 0 0

/-- CRICKET toggles after a handover while no condition of R628 stops it. -/
def Dev.crkRuns (d : Dev) : Bool :=
  d.flt.crkOn && !d.on .FLT_STAT_HOLD && !d.on .FLT_STAT_SAFEACT &&
    !(d.pendingSources.any fun n => decide (min 4 (d.rd .FLT_CFG_CRKSEV) ≤ d.rd .FLT_SRCSTAT_EFFSEV n))

/-- A sequencer with its gates closed. -/
def Seq.shut (q : Seq) : Seq := { q with rgLead := false, rgTrail := false, wg := false, vg := false }

/-- While the angle base is not valid every gate is closed, the servo gates that the sequencers open among them (R254), and no
writer drives (R21, R87). -/
def Dev.interlock (d : Dev) : Dev :=
  if d.angValid then d
  else
    let seqs := d.fsq.seqs.map fun e => (e.1, e.2.shut)
    let shut (d : Dev) (e : Nat × Lane) : Dev := (d.endGate e.1 (d.laneEdge e.1)).endServo e.1
    let d := d.lanes.foldl shut { d with fsq := { d.fsq with seqs := seqs } }
    (List.range 32).foldl Dev.idleOutput d

/-- What holds combinationally after every command: the interlock and CRICKET's run condition. -/
def Dev.settle (d : Dev) : Dev :=
  let d := d.interlock
  d.wrb .FLT_STAT_CRKRUN 0 d.crkRuns

end Sys2Proof.Machine
end

