-- ==== Sys2Proof/Machine/Memory.lean ====
section
/-! DEFINITION. The memory system (14_memory_and_dma): DRAM initialisation, the caches and their maintenance, memory errors and
their counting, the flip-mask test's arming, and the scrubber. -/

namespace Sys2Proof.Machine

/-! ### DRAM and the L2 (R514-R524) -/

/-- Address of the 128-byte L2 line, and of the 64-byte L1 line, of an address. -/
def lineOf (a : Nat) : Nat := a / 128 * 128
def l1Line (a : Nat) : Nat := a / 64 * 64

/-- The listed bytes of DRAM. -/
def Dev.dramBytes (d : Dev) : Tab Byte := d.mem.filter fun e => arrayOf e.1 == 0

/-- Everything masters have written has reached DRAM. -/
def Dev.syncDram (d : Dev) : Dev := { d with memx := { d.memx with dram := d.dramBytes } }

/-- One line has reached DRAM. -/
def Dev.cleanLine (d : Dev) (l : Nat) : Dev :=
  let keep := d.memx.dram.filter fun e => lineOf e.1 != l
  { d with memx := { d.memx with dram := (d.mem.filter fun e => lineOf e.1 == l).foldl (fun t e => Tab.put t e.1 e.2) keep } }

/-- The region that sets the attributes of an address: the lowest-numbered enabled one that covers it (R521). -/
def Dev.regionOf (d : Dev) (a : Nat) : Option Nat :=
  (List.range 16).find? fun r =>
    d.on .MEM_RGATTR_EN r && decide (d.rd .MEM_RGBASE_ADDR r ≤ a / 65536) && decide (a / 65536 ≤ d.rd .MEM_RGLIMIT_ADDR r)

/-- The L2 write policy of a DRAM address: 0 WB, 1 WT, 2 NA (R521). -/
def Dev.l2pol (d : Dev) (a : Nat) : Nat :=
  match d.regionOf a with
  | some r => d.rd .MEM_RGATTR_L2POL r % 3
  | none => 0

/-- A line of DRAM that is dirty in the L2: what it holds differs from what has reached DRAM (R518, R523). -/
def Dev.dirty (d : Dev) (l : Nat) : Bool :=
  arrayOf l == 0 && d.on .MEM_L2CTL_ENABLE && d.l2pol l == 0 &&
    (List.range 128).any fun k => d.ld8 (l + k) != Tab.getD d.memx.dram (l + k) memBlank

/-- MEM_DRCFG is written with INIT 1, before handover (R514). -/
def Dev.dramInit (d : Dev) (raw rate : Nat) : Dev :=
  if d.handed then d
  else
    let d := (d.wr .MEM_DRCFG_RAW 0 raw).wr .MEM_DRCFG_RATE 0 rate
    { d with memx := { d.memx with training := true } }

/-- Data capacity in units of 256 MiB (R515). -/
def dataCapacity (raw : Nat) : Nat := min 64 (raw * 4 * 8 / 9)

/-- Training ends (R514, R515). -/
def Dev.dramReady (d : Dev) (ok : Bool) : Dev :=
  if !d.memx.training then d
  else
    let d := { d with memx := { d.memx with training := false } }
    if ok then (d.wr .MEM_DRSTAT_READY 0 1).wr .MEM_DRSTAT_CAP 0 (dataCapacity (d.rd .MEM_DRCFG_RAW))
    else d.stick .MEM_DRSTAT_TRAINFAIL

/-- MEM_L1CTL.INV is written 1: the core's L1 caches are empty (R520). -/
def Dev.l1Invalidate (d : Dev) (c : Nat) : Dev :=
  let d := { d with memx := { d.memx with icache := d.memx.icache.filter fun e => e.1 / 2 ^ 40 != c } }
  d.wr .MEM_L1CTL_INVDONE c 1

/-- MEM_L1CTL.IEN and DEN are written (R520). -/
def Dev.l1Enable (d : Dev) (c : Nat) (ien den : Bool) : Dev :=
  let set (d : Dev) (f : Fld) (b : Bool) : Dev :=
    if b && !d.on .MEM_L1CTL_INVDONE c then d.stick .MEM_STAT_ENREF else d.wrb f c b
  set (set d .MEM_L1CTL_IEN ien) .MEM_L1CTL_DEN den

/-- MEM_L2CTL.ENABLE is written 1 (R520); what the data array held is lost. -/
def Dev.l2Enable (d : Dev) : Dev :=
  if !d.on .MEM_L2CTL_INVALID then d.stick .MEM_STAT_ENREF
  else
    let d := d.dropMem fun a => arrayOf a == 1
    ((d.wr .MEM_L2CTL_ENABLE 0 1).wr .MEM_L2CTL_INVALID 0 0).syncDram

/-- MEM_L2CTL.ENABLE is written 0 (R524). -/
def Dev.l2Disable (d : Dev) : Dev := if d.on .MEM_L2CTL_ENABLE then d.wr .MEM_L2CTL_DISBUSY 0 1 else d

/-- Every line is clean and invalid, and the L2 disables (R524). -/
def Dev.l2Disabled (d : Dev) : Dev :=
  if !d.on .MEM_L2CTL_DISBUSY then d else ((d.wr .MEM_L2CTL_DISBUSY 0 0).wr .MEM_L2CTL_ENABLE 0 0).syncDram

/-- MEM_L2MAINT is written with GO 1 and an operation: 1 CLEAN, 2 INVAL, 3 CLEANINV (R523). Which line the set and way hold,
`line`, is the replacement's choice (log 3). -/
def Dev.l2Maint (d : Dev) (op : Nat) (all : Bool) (set way : Nat) (line : Option Nat) : Dev :=
  if d.memx.maint.isSome then d.stick .MEM_STAT_MBUSY
  else
    let d := ((d.wr .MEM_L2MAINT_OP 0 op).wrb .MEM_L2MAINT_ALL 0 all).wr .MEM_L2MAINT_SET 0 set
    let d := (d.wr .MEM_L2MAINT_WAY 0 way).wr .MEM_L2MAINT_GO 0 1
    let lines := if all then none else some ((line.map lineOf).toList.filter fun l => l / 128 % 32768 == set)
    { d with memx := { d.memx with maint := some { op := op, lines := lines } } }

/-- The operation completes: what it cleans has reached DRAM, and an invalidate of every line of a disabled L2 sets INVALID. -/
def Dev.l2MaintEnd (d : Dev) : Dev :=
  match d.memx.maint with
  | none => d
  | some m =>
    let d := ({ d with memx := { d.memx with maint := none } }).wr .MEM_L2MAINT_GO 0 0
    if d.on .MEM_L2CTL_ENABLE then
      match m.lines with
      | none => d.syncDram
      | some l => l.foldl Dev.cleanLine d
    else if m.op ≠ 1 ∧ m.lines.isNone then d.wr .MEM_L2CTL_INVALID 0 1
    else d

/-! ### Memory errors (R526-R530) -/

/-- Requester codes beyond the masters of R59 (R529). -/
def reqDma : Nat := 0x1B
def reqCmp : Nat := 0x1C
def reqHlt : Nat := 0x1D
def reqScrub : Nat := 0x1E
def reqL2 : Nat := 0x1F

/-- An uncorrectable error is counted, logged and raised (R529). -/
def Dev.uncorrectable (d : Dev) (req array addr : Nat) : Dev :=
  let d := (d.count .MEM_ERRCNT_UE).stick .MEM_STAT_UE
  let d := ((d.wr .MEM_UELOGLO_ADDR 0 addr).wr .MEM_UELOGHI_ADDR 0 (addr / 2 ^ 32)).wr .MEM_UELOGHI_ARRAY 0 array
  let d := d.wr .MEM_UELOGHI_REQ 0 req
  d.raiseMany 29 req 1 (d.word .MEM_UELOGLO) (d.word .MEM_UELOGHI) 0 false

/-- THRESH of the leaky buckets. -/
def Dev.leakThresh (d : Dev) : Nat := max 1 (d.rd .MEM_LEAK_THRESH)

/-- A correctable error is counted and logged, and fills a bucket (0 DRAM, 1 CACHE) (R529, R530). -/
def Dev.correctable (d : Dev) (req array addr bucket : Nat) : Dev :=
  let d := (d.count .MEM_ERRCNT_CE).stick .MEM_STAT_CE
  let d := ((d.wr .MEM_CELOGLO_ADDR 0 addr).wr .MEM_CELOGHI_ADDR 0 (addr / 2 ^ 32)).wr .MEM_CELOGHI_ARRAY 0 array
  let d := d.wr .MEM_CELOGHI_REQ 0 req
  let f : Fld := if bucket = 0 then .MEM_BUCKET_DRAM else .MEM_BUCKET_CACHE
  let d := d.count f
  if d.rd f < d.leakThresh ∨ d.memx.full.contains bucket then d
  else (({ d with memx := { d.memx with full := d.memx.full ++ [bucket] } }).stick .MEM_STAT_CETHR).raise 30 bucket (d.word .MEM_BUCKET)

/-- Every PERIOD seconds each bucket loses one (R530). -/
def Dev.bucketLeak (d : Dev) : Dev :=
  let one (d : Dev) (b : Nat) : Dev :=
    let f : Fld := if b = 0 then .MEM_BUCKET_DRAM else .MEM_BUCKET_CACHE
    let d := d.wr f 0 (d.rd f - 1)
    if d.rd f < d.leakThresh then { d with memx := { d.memx with full := d.memx.full.filter (· != b) } } else d
  one (one d 0) 1

/-- PERIOD seconds have passed since the last leak (R530). -/
def Dev.leakDue (d : Dev) : Dev := d.periodic .leak (max 1 (d.rd .MEM_LEAK_PERIOD) * 1250000000) Dev.bucketLeak

/-- A line is poisoned (R527). -/
def Dev.poisonLine (d : Dev) (l : Nat) : Dev :=
  if d.memx.poison.contains l then d else { d with memx := { d.memx with poison := d.memx.poison ++ [l] } }

/-- A word's bad check bits are gone. -/
def Dev.mendWord (d : Dev) (w : Nat) : Dev := { d with memx := { d.memx with bad := d.memx.bad.filter fun b => b.addr != w } }

/-- A read or fill finds an error at an address of an array; `hard`: two or more bits of DRAM, or both copies of a tag (R526). -/
def Dev.memError (d : Dev) (req array addr : Nat) (hard : Bool) : Dev :=
  let w := addr / 8 * 8
  let l := lineOf addr
  match array with
  | 0 => if hard then ((d.mendWord w).poisonLine l).uncorrectable req 0 addr else (d.mendWord w).correctable req 0 addr 0
  | 1 => if d.dirty l then ((d.mendWord w).poisonLine l).uncorrectable req 1 addr else (d.mendWord w).correctable req 1 addr 1
  | 2 =>
    if !hard then d.correctable req 2 addr 1
    else
      let set := l / 128 % 32768
      let out := (d.memx.ways.filter fun x => x / 16 == set).length
      let d := if d.dirty l then d.refill d.memx.dram l 128 else d
      ({ d with memx := { d.memx with ways := d.memx.ways ++ [set * 16 + out] } }).uncorrectable req 2 addr
  | 3 => ({ d with memx := { d.memx with icache := d.memx.icache.filter fun e => e.1 % 2 ^ 40 != l1Line addr } }).correctable req 3 addr 1
  | 4 => d.correctable req 4 addr 1
  | k =>
    let b : BadWord := { addr := w, array := k, fatal := true, cycle := 0 }
    let d := if d.memx.bad.any fun x => x.addr == w then d else { d with memx := { d.memx with bad := d.memx.bad ++ [b] } }
    d.uncorrectable req k addr

/-- A read of `n` bytes from `a`: what it finds of bad words is handled, the lowest address last, which the logs then hold (R529), and
the flag says that data is returned; an address that does not exist and a poisoned line end it in a bus error (R37, R526-R528). -/
def Dev.readCheck (d : Dev) (req a n : Nat) : Dev × Bool :=
  if !d.rangeExists a n then (d, false)
  else
    let hit := d.memx.bad.filter fun b => decide (b.addr < a + n) && decide (a < b.addr + 8)
    let low := hit.foldl (fun m b => min m b.addr) (a + n)
    let hit := hit.filter (fun b => b.addr != low) ++ hit.filter fun b => b.addr == low
    let d := hit.foldl (fun d b => d.memError req b.array b.addr b.fatal) d
    let left := d.memx.bad.any fun b => decide (b.addr < a + n) && decide (a < b.addr + 8)
    let poisoned := d.memx.poison.any fun l => decide (l < a + n) && decide (a < l + 128)
    (d, !left && !poisoned)

/-- An error found in a read fits where it is said to be: in the array of its address, or in the caches of DRAM. -/
def Dev.errorFits (d : Dev) (b : MemErr) : Bool :=
  let r := arrayOf b.addr.toNat
  match b.array.val with
  | 1 => r == 0 && d.on .MEM_L2CTL_ENABLE
  | 2 => r == 0 && d.on .MEM_L2CTL_ENABLE
  | 3 => r == 0 || r == 5
  | 4 => r == 0 || r == 5
  | k => r == k

/-- A read of `n` bytes from `a` that meets `err`, the error the array shows in this access, if any. -/
def Dev.readMem (d : Dev) (req a n : Nat) (err : Option MemErr) : Dev × Bool :=
  match err with
  | none => d.readCheck req a n
  | some b =>
    if !d.rangeExists a n then (d, false)
    else if b.addr.toNat < a ∨ a + n ≤ b.addr.toNat ∨ !d.errorFits b then d.readCheck req a n
    else
      let d := d.memError req b.array.val b.addr.toNat b.hard
      if 5 ≤ b.array.val then (d, false) else d.readCheck req a n

/-! ### The flip-mask test (R531) and the scrubber (R532) -/

/-- A write of MEM_FLIPCTL: ignored while the test is armed. -/
def Dev.flipCtl (d : Dev) (w : Nat) : Dev :=
  let d := if bit w 30 then d.wr .MEM_FLIPCTL_DONE 0 0 else d
  if d.on .MEM_FLIPCTL_ARM then d else (d.wr .MEM_FLIPCTL_TARGET 0 (w % 8)).wrb .MEM_FLIPCTL_ARM 0 (bit w 31)

/-- Words of all the arrays that a pass reads: DRAM, L2 data and tags, table SRAM and core-local memory. -/
def Dev.scrubWords (d : Dev) : Nat := d.rd .MEM_DRSTAT_CAP * 2 ^ 25 + 2 ^ 23 + 2 ^ 19 + 3 * 2 ^ 20 + 786432

/-- The scrubber reads `n` more words and finds the errors listed; the end of a pass has met every word. -/
def Dev.scrubRead (d : Dev) (n : Nat) (errs : List (Nat × Nat × Bool)) : Dev :=
  if !d.on .MEM_SCRUB_EN then d
  else
    let d := errs.foldl (fun d e => d.memError reqScrub e.1 e.2.1 e.2.2) d
    let k := d.memx.scrub + n
    if k < d.scrubWords then
      ({ d with memx := { d.memx with scrub := k } }).wr .MEM_SCRUBSTAT_PROGRESS 0 (100 * k / max 1 d.scrubWords)
    else
      let d := d.memx.bad.foldl (fun d b => d.memError reqScrub b.array b.addr b.fatal) d
      (({ d with memx := { d.memx with scrub := 0 } }).tally .MEM_SCRUBSTAT_PASSES).wr .MEM_SCRUBSTAT_PROGRESS 0 0

/-! ### Cache-block operations and fence.i (R519, R525) -/

/-- cbo.clean, cbo.flush and cbo.inval: the line reaches DRAM; the caches are coherent, so nothing else shows. -/
def Dev.cboClean (d : Dev) (a : Nat) : Dev := if arrayOf a = 0 ∧ d.memExists a then d.cleanLine (lineOf a) else d

/-- cbo.zero writes 64 zero bytes; it has no effect on table SRAM and core-local memory, and in register space, a control store or a
reserved range it ends in a store access fault (R525). -/
def Dev.cboZero (d : Dev) (c a : Nat) : Dev :=
  if !d.memExists a then d.emit (.coreFault c 7)
  else if arrayOf a = 5 ∨ arrayOf a = 6 then d
  else d.mputBytes (l1Line a) (List.replicate 64 0)

/-- fence.i: the core's own L1 I is empty. -/
def Dev.fenceI (d : Dev) (c : Nat) : Dev :=
  { d with memx := { d.memx with icache := d.memx.icache.filter fun e => e.1 / 2 ^ 40 != c } }

end Sys2Proof.Machine
end

