-- ==== Sys2Proof/Machine/Angle.lean ====
section
/-! DEFINITION. The angle base: the passing of fabric cycles (R79-R82), judging and combining the reference frames (R73-R77),
loss (R85-R87), lock (R80), and the compare units (R94-R97). -/

namespace Sys2Proof.Machine

/-! ### Time and ANG -/

/-- ANG wraps (R81): WRAP sets and an event is recorded. -/
def Dev.wrapped (d : Dev) : Dev := (d.stick .ANG_STAT_WRAP).event 0x200 0 (d.rd .ANG_STAT_EPOCH) 0 0

/-- `n` fabric cycles pass: device time advances, and ANG follows the loop's rate estimate (R79, R82). -/
def Dev.elapse (d : Dev) (n : Nat) : Dev :=
  if n = 0 then d
  else
    let d := { d with now := d.now + n }
    match d.ang.rate with
    | none => { d with ang := { d.ang with prev := d.ang.val } }
    | some r =>
      let t := d.ang.val * 65536 + d.ang.sub + r * n
      let v := t / 65536
      let d := { d with ang := { d.ang with val := mod48 v, sub := t % 65536, prev := mod48 ((t - r) / 65536) } }
      if v < 2 ^ 48 then d else d.wrapped

/-- ANG moves on to its wrap (R81): the cycles it needs at the present rate pass. -/
def Dev.toWrap (d : Dev) : Dev :=
  match d.ang.rate with
  | none => d
  | some r =>
    if r = 0 then d
    else d.elapse ((2 ^ 48 * 65536 - (d.ang.val * 65536 + d.ang.sub) + (r - 1)) / r)

/-! ### Loss (R47, R85-R87) -/

/-- WEDGE and REV writes pending are discarded (R47), routes among them: they apply at wedge strobes (R113). -/
def Dev.dropDeferred (d : Dev) : Dev :=
  let keep (p : PendW) : Bool := p.reg.info.app == .immediate
  let rest := d.bus.pend.filter keep
  if rest.length == d.bus.pend.length then d
  else ({ d with bus := { d.bus with pend := rest } }).stick .SYS_STAT_PDROP

/-- An armed ABU compare is disarmed by loss and reports LOST (R87). -/
def Dev.loseCompare (d : Dev) (u : Nat) : Dev :=
  if d.on .ANG_CMPCTL_ARM u then (d.wr .ANG_CMPCTL_ARM u 0).stick .ANG_CMPSTAT_LOST u else d

/-- The armed angle compares of sequencer `s` are disarmed and report LOST (R87, R97). -/
def Dev.loseSeqCompares (d : Dev) (s : Nat) : Dev :=
  let q := d.seq s
  let d := if q.aca.armed then d.wr .FSQ_CMPSTAT_ACALOST s 1 else d
  let d := if q.acb.armed then d.wr .FSQ_CMPSTAT_ACBLOST s 1 else d
  if q.aca.armed || q.acb.armed then
    d.setSeq s { q with aca := { q.aca with armed := false }, acb := { q.acb with armed := false } }
  else d

/-- Everything R87 lists but raising ANGLOSS; the state becomes `next`. -/
def Dev.angDrop (d : Dev) (next : Nat) : Dev :=
  let d := (d.wr .ANG_STAT_STATE 0 next).dropDeferred
  let d := (List.range 16).foldl Dev.loseCompare d
  let d := (List.range 32).foldl Dev.loseSeqCompares d
  ({ d with ang := { d.ang with agree := 0 }, wrf := { d.wrf with clean := [] } }).abandonAll 8

/-- Loss is declared with the causes of `m` (ANG_LOSS bits); nothing happens outside LOCKED (R84, R87). The table of R22 names the
safe state for the loss of the reference readers beyond redundancy, and R612 gives ANGLOSS the severity RECOVER, whose reaction is
not the safe state: the reaction follows the severity that FLT_SRCCFG holds (DESIGN CHOICE, log 70). Where that reaction abandons
the jobs too, the highest cause of the cycle is recorded (R271), so it goes first. -/
def Dev.angLoss (d : Dev) (m : Nat) : Dev :=
  if m = 0 || !d.angValid then d
  else
    let stickIf (d : Dev) (k : Nat) (f : Fld) : Dev := if bit m k then d.stick f else d
    let d := stickIf (stickIf (stickIf d 0 .ANG_LOSS_FEWREF) 1 .ANG_LOSS_NOFRAME) 2 .ANG_LOSS_DISAGREE
    let d := stickIf (stickIf d 3 .ANG_LOSS_PHASE) 4 .ANG_LOSS_SPEED
    (d.raise 0 0 (d.word .ANG_LOSS)).angDrop abuLost

/-- FEWREF: the redundancy rule is no longer met (R76, R85). -/
def Dev.checkFewref (d : Dev) : Dev := if d.redundancy then d else d.angLoss 1

/-! ### Readers (R73-R78) -/

/-- Runout correction of reader `r` at angle `x`: linear between the two neighbouring ANG_RRO entries, rounded down (R73;
the rounding is DESIGN CHOICE, log 10). -/
def Dev.runout (d : Dev) (r x : Nat) : Int :=
  let e := x / 262144 % 64
  let c0 := d.rdInt .ANG_RRO_CORR (r * 64 + e)
  let c1 := d.rdInt .ANG_RRO_CORR (r * 64 + (e + 1) % 64)
  c0 + (c1 - c0) * (x % 262144 : Nat) / 262144

/-- A reader's reading as a signed offset from the predicted angle (R73, R75). -/
def Dev.readingOff (d : Dev) (r f : Nat) (phase : Int) (pred : Nat) : Int :=
  let raw : Int := (f * 1024 : Nat) + phase - d.rd .ANG_REFOFF_OFF r
  signed 24 (unsigned 24 (raw - d.runout r (unsigned 24 raw) - pred))

/-- A reader whose frames are judged (R74). -/
def judgedState (st : Nat) : Bool := st == 1 || st == 2 || st == 3 || st == 5

/-- The frame-number cells of a frame, as recorded: cell `i` of cycles 48 to 61, most significant first (R72). -/
def refCell (o : ReaderObs) (i : Nat) : Bool := o.cells.getLsbD (15 - i)

/-- The frame number that 14 Gray-coded cells give (R72). -/
def refNumber (o : ReaderObs) : Nat :=
  ((List.range 14).foldl (fun (s : Bool × Nat) i => let b := s.1 != refCell o i; (b, 2 * s.2 + bnat b)) (false, 0)).2

/-- Number bit `b` as recorded: bit 13 is read first. -/
def refBit (o : ReaderObs) (b : Nat) : Bool := refCell o (13 - b)

/-- The parity bits hold: even parity over the even-numbered frame-number bits, then over the odd-numbered ones (R72), as recorded
(DEDUCED, log 71). -/
def refParity (o : ReaderObs) : Bool :=
  let odd (first : Nat) : Bool := (List.range 7).foldl (fun p k => p != refBit o (2 * k + first)) false
  odd 0 == refCell o 14 && odd 1 == refCell o 15

/-- The burst-amplitude threshold of a reference input, mV peak to peak (R716). -/
def refThreshold : Nat := 30

/-- A frame passes the first four tests of R74. -/
def framePlain (o : ReaderObs) (f : Nat) : Bool :=
  ((o.mark.map fun x => decide (-512 ≤ x) && decide (x ≤ 512)).getD false) && refParity o && decide (refThreshold ≤ o.amp) &&
    refNumber o == f

/-- Insert into a rising list. -/
def insertInt (x : Int) : List Int → List Int
  | [] => [x]
  | y :: ys => if x ≤ y then x :: y :: ys else y :: insertInt x ys

/-- Median of three readings, or the mean of the middle two of four, rounded down (R75). -/
def median (l : List Int) : Int :=
  let s := l.foldr insertInt []
  if s.length = 3 then s.getD 1 0 else (s.getD 1 0 + s.getD 2 0) / 2

/-- The two numbers differ by more than `dis`. -/
def apart (x y : Int) (dis : Nat) : Bool := decide ((dis : Int) < x - y) || decide ((dis : Int) < y - x)

/-- The readers of a slot after R75: those left, the median's outliers, and whether both of two were discarded. -/
def combineReadings (l : List (Nat × Int)) (dis : Nat) : List (Nat × Int) × List Nat × Bool :=
  if 3 ≤ l.length then
    let m := median (l.map Prod.snd)
    (l.filter fun p => !apart p.2 m dis, (l.filter fun p => apart p.2 m dis).map Prod.fst, false)
  else match l with
    | [p, q] => if apart p.2 q.2 dis then ([], [], true) else (l, [], false)
    | _ => (l, [], false)

/-- State change of one reader on a judged frame (R77). `agrees`: its reading agrees with another acquiring or tracking
reader. -/
def Reader.judge (x : Reader) (st slot badrev : Nat) (good agrees : Bool) : Reader × Nat :=
  let badAt := (if good then x.badAt else x.badAt ++ [slot]).filter fun k => slot < k + 16384
  let x := { x with badAt := badAt }
  match st with
  | 1 =>
    if good && agrees then (if 16 ≤ x.good + 1 then ({ x with good := 0 }, 2) else ({ x with good := x.good + 1 }, 1))
    else ({ x with good := 0 }, 1)
  | 2 =>
    if good then (x, 2)
    else if badrev ≤ badAt.length then ({ x with good := 0, bad := 0 }, 4)
    else ({ x with good := 0, bad := 1 }, 3)
  | 3 =>
    if good then (if 8 ≤ x.good + 1 then ({ x with good := 0, bad := 0 }, 2) else ({ x with good := x.good + 1, bad := 0 }, 3))
    else if 3 ≤ x.bad + 1 || badrev ≤ badAt.length then ({ x with good := 0, bad := 0 }, 4)
    else ({ x with good := 0, bad := x.bad + 1 }, 3)
  | st => (x, st)

/-- The error counter of a reader. -/
def referrFld : Nat → Fld
  | 0 => .ANG_REFERR_REFA | 1 => .ANG_REFERR_REFB | 2 => .ANG_REFERR_REFC | _ => .ANG_REFERR_REFD

/-- Readers `l` have entered FAILED: REFFAIL (R88, R618). -/
def Dev.reffail (d : Dev) (l : List Nat) : Dev :=
  match l with
  | [] => d
  | r :: _ => d.raiseMany 1 r l.length (d.word .ANG_REFSTAT) 0 0 false

/-- REPLACE asserts when the number of usable declared readers has fallen below two (R88). -/
def Dev.refReplace (d : Dev) (before : Nat) : Dev :=
  if decide (2 ≤ before) && decide (d.usableDeclared < 2) then d.replace 2 else d

/-- The combined angle passes its index: ANG_PERIOD takes the revolution just completed. -/
def Dev.indexPassed (d : Dev) : Dev :=
  let d := match d.ang.revAt with
    | some t => d.wr .ANG_PERIOD_CYCLES 0 (d.now - t)
    | none => d
  { d with ang := { d.ang with revAt := some d.now } }

/-- What one frame slot finds: the judged readers, each with whether its frame was good, what is kept of it and its next state;
the readings left, and whether two were discarded for each other. -/
structure FrameResult where
  judged : List (Nat × Bool × Reader × Nat)
  left   : List (Nat × Int)
  both   : Bool
  deriving DecidableEq, Repr

/-- Readings and judgement of one frame slot (R73-R77). -/
def Dev.frameResult (d : Dev) (x : RefFrame) : FrameResult :=
  let dis := d.rd .ANG_TOL_DIS
  let st (r : Nat) : Nat := d.rd (readerFld r)
  let obs (r : Nat) : ReaderObs := x.obs.getD r ⟨none, 0, 0, 0⟩
  let off (r : Nat) : Int := d.readingOff r x.f (obs r).phase x.pred
  let judged := (List.range 4).filter fun r => judgedState (st r)
  let plain := judged.filter fun r => framePlain (obs r) x.f
  let (left, outliers, both) := combineReadings ((plain.filter fun r => st r == 2).map fun r => (r, off r)) dis
  let good (r : Nat) : Bool := plain.contains r && !outliers.contains r
  let agrees (r : Nat) : Bool := plain.any fun q => q != r && (st q == 1 || st q == 2) && !apart (off q) (off r) dis
  let verdict (r : Nat) : Reader × Nat :=
    (Tab.getD d.ang.readers r {}).judge (st r) (d.ang.slots + 1) (d.rd .ANG_TOL_BADREV) (good r) (agrees r)
  { judged := judged.map fun r => (r, good r, verdict r), left := left, both := both }

/-- A judged reader: a bad frame is counted, and its next state is written. -/
def Dev.readerJudged (d : Dev) (e : Nat × Bool × Reader × Nat) : Dev :=
  let d := if e.2.1 then d else d.count (referrFld e.1)
  ({ d with ang := { d.ang with readers := Tab.put d.ang.readers e.1 e.2.2.1 } }).wr (readerFld e.1) 0 e.2.2.2

/-- The combined angle: the predicted one plus the mean of the readings left, rounded down (log 10); with none left, as it was. -/
def combinedAngle (old : Option Nat) (pred : Nat) (l : List Int) : Option Nat :=
  if l.isEmpty then old else some (unsigned 24 ((pred : Int) + l.sum / l.length))

/-- The index at which the counters on synthesiser `k` stop now is held (R250): LEAD and TRAIL of a pair, WRITE of a writer. -/
def Dev.holdCounters (d : Dev) (k : Nat) : Dev :=
  let s? := if k < 32 then d.slotOfPair k else some (k - 32)
  match s? with
  | none => d
  | some s =>
    match (d.seq s).job with
    | none => d
    | some j =>
      let at' (c : Nat) : Nat := if d.counterRuns s j c then (d.counterAt s c).1 else (d.seq s).heldAt c
      if k < 32 then d.setSeq s { d.seq s with heldL := at' 0, heldT := at' 1 } else d.setSeq s { d.seq s with heldW := at' 2 }

/-- The frequency of synthesiser `k` is held to its range (R101): RANGE sets as it leaves it, and it is within it again once it
returns. -/
def Dev.checkRange (d : Dev) (k : Nat) : Dev :=
  let out := d.on (synEnable k).1 (synEnable k).2 && !d.inRange k
  if out && !d.ang.ranged.contains k then
    ({ d with ang := { d.ang with ranged := d.ang.ranged ++ [k] } }).stick (synRange k).1 (synRange k).2
  else if !out && d.ang.ranged.contains k then { d with ang := { d.ang with ranged := d.ang.ranged.filter (· != k) } }
  else d

/-- The loop takes a new rate estimate (R79, R82); a synthesiser whose frequency leaves its range stops (R101). -/
def Dev.takeRate (d : Dev) (r : Nat) : Dev :=
  let e := { d with ang := { d.ang with rate := some (min r 131072) } }
  let stop := (List.range 64).filter fun k => d.synRuns k && !e.inRange k
  let held := stop.foldl Dev.holdCounters d
  let d := { held with ang := { held.ang with rate := some (min r 131072) } }
  (List.range 64).foldl Dev.checkRange d

/-- The result of a frame slot takes effect (R75, R82, R85). With no reading left the loop coasts on its rate estimate. -/
def Dev.frameTakes (d : Dev) (x : RefFrame) (v : FrameResult) : Dev :=
  let before := d.usableDeclared
  let failed := (v.judged.filter fun e => e.2.2.2 == 4).map Prod.fst
  let d := v.judged.foldl Dev.readerJudged { d with ang := { d.ang with slots := d.ang.slots + 1 } }
  let comb := combinedAngle d.ang.comb x.pred (v.left.map Prod.snd)
  let agree := if 2 ≤ v.left.length then d.ang.agree + 1 else 0
  let nolook := if v.left.isEmpty then d.ang.nolook + 1 else 0
  let split := if v.both then d.ang.split + 1 else 0
  let d := { d with ang := { d.ang with comb := comb, agree := agree, nolook := nolook, split := split } }
  let d := if v.left.isEmpty then d else d.takeRate x.rate
  let inRange := decide (1600 ≤ x.rpm) && decide (x.rpm ≤ 8000)
  let d := d.wrb .ANG_STAT_SPEED 0 inRange
  let d := if x.f = 0 && !v.left.isEmpty then d.indexPassed else d
  let causes := bnat (!d.redundancy) + 2 * bnat (3 ≤ nolook) + 4 * bnat (2 ≤ split) +
    8 * bnat (d.rd .ANG_TOL_PERR * 16 < x.phaseErr) + 16 * bnat (!inRange)
  ((d.reffail failed).refReplace before).angLoss causes

/-- One frame slot of the reference track. -/
def Dev.referenceFrame (d : Dev) (x : RefFrame) : Dev := d.frameTakes x (d.frameResult x)

/-! ### State of the angle base (R80, R84) -/

/-- Enter ACQUIRE: agreement is counted afresh. -/
def Dev.toAcquire (d : Dev) : Dev :=
  ({ d with ang := { d.ang with agree := 0 } }).wr .ANG_STAT_STATE 0 abuAcquire

/-- ANG_CTL.ENABLE is written (R84). -/
def Dev.abuEnable (d : Dev) (b : Bool) : Dev :=
  let d := d.wrb .ANG_CTL_ENABLE 0 b
  if b then (if d.rd .ANG_STAT_STATE == abuIdle then d.toAcquire else d)
  else if d.angValid then d.angDrop abuIdle
  else d.wr .ANG_STAT_STATE 0 abuIdle

/-- ANG_CTL.REACQ is written 1 (R84). -/
def Dev.abuReacquire (d : Dev) : Dev := if d.rd .ANG_STAT_STATE == abuLost then d.toAcquire else d

/-- LOST returns to ACQUIRE by itself (R84). -/
def Dev.autoReacquire (d : Dev) : Dev :=
  if d.rd .ANG_STAT_STATE == abuLost && d.on .ANG_CTL_AUTO && d.redundancy then d.toAcquire else d

/-- The readers in TRACK. -/
def Dev.trackers (d : Dev) : Nat := ((List.range 4).filter fun r => d.rd (readerFld r) == 2).length

/-- The conditions under which the next index ends ACQUIRE (R84). -/
def Dev.lockReady (d : Dev) : Bool :=
  d.rd .ANG_STAT_STATE == abuAcquire && decide (2 ≤ d.trackers) && decide (16 ≤ d.ang.agree) && d.on .ANG_STAT_SPEED &&
    d.redundancy

/-- The index of the combined angle at which LOCKED is entered (R80, R84): ANG moves up to a whole revolution. -/
def Dev.angleLock (d : Dev) : Dev :=
  if !d.lockReady then d
  else
    let v := (d.ang.val + (rev - 1)) / rev * rev
    let ang := { d.ang with val := mod48 v, prev := mod48 v, sub := 0, nolook := 0, split := 0 }
    let d := (({ d with ang := ang }).wr .ANG_STAT_STATE 0 abuLocked).tally .ANG_STAT_EPOCH
    let d := if v < 2 ^ 48 then d else d.wrapped
    d.event 0x201 0 (d.word .ANG_STAT) 0 0

/-- ANG_REFCTL.USE of reader `r` is written (R77). -/
def Dev.readerUse (d : Dev) (r : Nat) (b : Bool) : Dev :=
  let was := bit (d.rd .ANG_REFCTL_USE) r
  let before := d.usableDeclared
  let d := d.wrBit .ANG_REFCTL_USE 0 r b
  if b == was then d
  else
    let st := if !b then 0 else if d.angValid then 5 else 1
    ((({ d with ang := { d.ang with readers := Tab.put d.ang.readers r {} } }).wr (readerFld r) 0 st).refReplace before).checkFewref

/-- ANG_REFCTL.FORCEOUT of reader `r` (R77, R88). -/
def Dev.readerForceout (d : Dev) (r : Nat) : Dev :=
  let st := d.rd (readerFld r)
  if st == 0 || st == 4 then d
  else
    let before := d.usableDeclared
    (((d.wr (readerFld r) 0 4).reffail [r]).refReplace before).checkFewref

/-- ANG_REFCTL.READMIT of reader `r` (R77). -/
def Dev.readerReadmit (d : Dev) (r : Nat) : Dev := if d.rd (readerFld r) == 4 then d.wr (readerFld r) 0 5 else d

/-- A write of ANG_REFCTL: FORCEOUT acts alone where READMIT is set for the same reader (R77). -/
def Dev.refCtl (d : Dev) (w : Nat) : Dev :=
  (List.range 4).foldl (fun d r =>
    let d := d.readerUse r (bit w r)
    if bit w (4 + r) then d.readerForceout r else if bit w (8 + r) then d.readerReadmit r else d) d

/-- A calibrating reader's revolution ends (R77, R78): `off` and `corr` are what was measured against a TRACK reader. A reader that
passes enters TRACK at a reference index, with the values measured; before one nothing happens yet. -/
def Dev.readerCalEnd (d : Dev) (r off : Nat) (corr : List Int) : Dev :=
  if d.rd (readerFld r) != 5 then d
  else if decide (1 ≤ d.trackers) && !apart (signed 24 (subMod 24 off (d.rd .ANG_REFOFF_OFF r))) 0 (d.rd .ANG_TOL_DIS) then
    if !d.indexNow then d else
    let d := (d.wr .ANG_REFOFF_OFF r off).wr (readerFld r) 0 2
    let d := (List.range 64).foldl (fun d e => d.wr .ANG_RRO_CORR (r * 64 + e) (unsigned 16 (corr.getD e 0))) d
    { d with ang := { d.ang with readers := Tab.put d.ang.readers r {} } }
  else (d.wr (readerFld r) 0 4).reffail [r]

/-! ### Compare units (R94-R97) -/

/-- The committed target of compare unit `u`. -/
def Dev.cmpTarget (d : Dev) (u : Nat) : Nat := d.rd .ANG_CMPTGTLO_TGT u + d.rd .ANG_CMPTGTHI_TGT u * 2 ^ 32

/-- Write the committed target. -/
def Dev.setCmpTarget (d : Dev) (u t : Nat) : Dev := (d.wr .ANG_CMPTGTLO_TGT u t).wr .ANG_CMPTGTHI_TGT u (t / 2 ^ 32)

/-- Unit `u` meets its condition. -/
def Dev.unitMet (d : Dev) (u : Nat) : Bool :=
  d.cmpMet (d.rd .ANG_CMPCTL_FRAME u) (d.rd .ANG_CMPCTL_HEAD u) (d.cmpTarget u)

/-- A write of ANG_CMPCTL (R95). -/
def Dev.compareArm (d : Dev) (u w : Nat) : Dev :=
  let d := (((d.wrb .ANG_CMPCTL_ARM u (bit w 31)).wrb .ANG_CMPCTL_PERIODIC u (bit w 30)).wrb .ANG_CMPCTL_IRQ u (bit w 29))
  let d := (d.wr .ANG_CMPCTL_FRAME u (bits w 24 2)).wr .ANG_CMPCTL_HEAD u (bits w 0 7)
  { d with ang := { d.ang with cmpHit := Tab.put d.ang.cmpHit u (bit w 31 && d.unitMet u) } }

/-- An armed unit meets its condition and fires (R95, R97): only while the angle base is valid. -/
def Dev.compareFire (d : Dev) (u : Nat) : Dev :=
  if !(d.on .ANG_CMPCTL_ARM u && d.angValid && d.unitMet u) then d
  else
    let d := d.stick .ANG_CMPSTAT_FIRED u
    let d := if Tab.getD d.ang.cmpHit u false then d.stick .ANG_CMPSTAT_LATE u else d
    let d := { d with ang := { d.ang with cmpHit := Tab.put d.ang.cmpHit u false, cmpAt := Tab.put d.ang.cmpAt u d.now } }
    let d := if d.on .ANG_CMPCTL_PERIODIC u then d.setCmpTarget u (mod48 (d.cmpTarget u + rev)) else d.wr .ANG_CMPCTL_ARM u 0
    if d.on .ANG_CMPCTL_IRQ u then d.emit (.irq .ANG u) else d

/-! ### Synthesisers (R98-R102) -/

/-- A new grid starts: edges are suppressed for 16 fabric cycles (R100). -/
def Dev.synGrid (d : Dev) (k : Nat) : Dev :=
  let d := d.holdCounters k
  ({ d with ang := { d.ang with resume := Tab.put d.ang.resume k (d.now + 16) } }).checkRange k

/-- Synthesiser `k` takes head `h` as its owner, or has none (R98, R100). -/
def Dev.synOwn (d : Dev) (k : Nat) (h : Option Nat) : Dev :=
  match h with
  | some h =>
    let d := d.holdCounters k
    ((d.wr (synUnowned k).1 (synUnowned k).2 0).wr (synOwner k).1 (synOwner k).2 h).synGrid k
  | none => ((d.holdCounters k).wr (synUnowned k).1 (synUnowned k).2 1).wr (synOwner k).1 (synOwner k).2 0

end Sys2Proof.Machine
end

