-- ==== Sys2Proof/Machine/Lanes.lean ====
section
/-! DEFINITION. Reader inputs, the lane crossbar and the lanes (R106-R142): routes and their checks, lane states, overrange,
and what a strobe applies (R45, R46, R91, R113). -/

namespace Sys2Proof.Machine

/-! ### Lane states (R134) -/

/-- A lane changes state; a lane not in SERVICE is held by no grant (R134, R140), and the dual-look condition of its pair is
evaluated again (R129). -/
def Dev.laneState (d : Dev) (n st : Nat) : Dev :=
  let d := d.wr .LANE_STAT_STATE n st
  (if st = unitServ then d else d.wr .LANE_STAT_HELD n 0).evalDual (n / 2)

/-- The route of a lane is removed at once; the pair synthesiser loses the owner of an even lane (R98, R110, R134). -/
def Dev.removeRoute (d : Dev) (n : Nat) : Dev :=
  let d := d.dropRoute n
  if n % 2 = 0 then (d.dropRoute (n + 1)).synOwn (n / 2) none else d

/-- Lane 2m + 1 of a job's pair leaves SERVICE: the job goes on lead-only to its end, its verify streams cut (R133, R274). -/
def Dev.pairSolo (d : Dev) (s : Nat) : Dev := (d.setSeq s { d.seq s with solo := true }).cutStreams s

/-- A lane goes to OUT (R133, R134): its routes go at once, and an even lane held by a job takes the job with it. -/
def Dev.laneOut (d : Dev) (n : Nat) : Dev :=
  let job := if d.on .LANE_STAT_HELD n then d.slotOfPair (n / 2) else none
  let d := (d.wr .LANE_STAT_RECALPEND n 0).laneState n unitOut
  let d := match job with
    | some s => if n % 2 = 0 then d.abandon s 6 else d.pairSolo s
    | none => d
  (d.removeRoute n).evalDual (n / 2)

/-- LANE_CTL.FORCEOUT acts in any state except OFF (R135). -/
def Dev.laneForceout (d : Dev) (n : Nat) : Dev :=
  let st := d.rd .LANE_STAT_STATE n
  if st == unitOff || st == unitOut then d else d.laneOut n

/-- LANE_CTL.READMIT acts only in OUT (R135). -/
def Dev.laneReadmit (d : Dev) (n : Nat) : Dev :=
  if d.rd .LANE_STAT_STATE n == unitOut then d.laneState n unitCal else d

/-- LANE_CTL.RECAL acts only in SERVICE, and waits while the lane is held (R135). -/
def Dev.laneRecal (d : Dev) (n : Nat) : Dev :=
  if d.rd .LANE_STAT_STATE n != unitServ then d
  else if d.on .LANE_STAT_HELD n then d.wr .LANE_STAT_RECALPEND n 1
  else d.laneState n unitCal

/-- A RECAL that waited acts once the lane is released (R135). -/
def Dev.deferredRecal (d : Dev) (n : Nat) : Dev :=
  if d.on .LANE_STAT_RECALPEND n && !d.on .LANE_STAT_HELD n && d.rd .LANE_STAT_STATE n == unitServ then
    (d.wr .LANE_STAT_RECALPEND n 0).laneState n unitCal
  else d

/-- A write of LANE_CTL: FORCEOUT alone, otherwise READMIT before RECAL (R135). -/
def Dev.laneCtl (d : Dev) (n w : Nat) : Dev :=
  if bit w 1 then d.laneForceout n
  else
    let d := if bit w 2 then d.laneReadmit n else d
    if bit w 3 then d.laneRecal n else d

/-- The lane could meet the fault (R136): STUCK takes 1,024 samples under an open gate, NOCLK an open gate while the pair
synthesiser reports RUN. -/
def Dev.faultable (d : Dev) (n : Nat) (k : LaneFault) : Bool :=
  match k, (d.lane n).gateAt with
  | .bankflt, _ => true
  | _, none => false
  | .stuck, some a => decide (a + 1023 ≤ d.laneEdge n)
  | .noclk, some _ => d.synRuns (n / 2)

/-- A lane fault (R136): LANEFAIL, with one raise for every lane of a bank fault (R618). -/
def Dev.laneFault (d : Dev) (n : Nat) (k : LaneFault) : Dev :=
  match k with
  | .bankflt =>
    let hit := (bankLanes (n / 4)).filter fun l =>
      let st := d.rd .LANE_STAT_STATE l
      st != unitOff && st != unitOut
    let d := hit.foldl (fun d l => (d.stick .LANE_STAT_BANKFLT l).laneOut l) d
    match hit with
    | [] => d
    | l :: _ => d.raiseMany 2 l hit.length (d.word .LANE_STAT l) 0 0 false
  | k =>
    if d.rd .LANE_STAT_STATE n != unitServ || !d.faultable n k then d
    else
      let d := (d.stick (if k == .stuck then .LANE_STAT_STUCK else .LANE_STAT_NOCLK) n).laneOut n
      d.raise 2 n (d.word .LANE_STAT n)

/-- Step 4 of a lane's calibration is run: no lane of its bank is in SERVICE or JOINING (R137). -/
def Dev.bankQuiet (d : Dev) (n : Nat) : Bool :=
  (bankLanes (n / 4)).all fun l => d.rd .LANE_STAT_STATE l != unitServ && d.rd .LANE_STAT_STATE l != unitJoin

/-- The steps passed in order: each needs those before it (R137). -/
def stepsPassed : List Bool → List Bool
  | true :: l => true :: stepsPassed l
  | l => l.map fun _ => false

/-- The steps a lane passed (R137): residual offset within 0.5 LSB, amplitude within 0.5 dB and DNL within 0.5 LSB, by the values
recorded; the corner and the bank reference by what the sequence found. -/
def calSteps (c : LaneCal) (four : Bool) : List Bool :=
  stepsPassed [decide (c.offset.natAbs ≤ 8), decide (c.tone.natAbs ≤ 10) && decide (c.dnl ≤ 32), c.corner, four && c.reference]

/-- The calibration sequence of a lane ends (R137, R139). A lane in JOINING or OUT carries nothing (R134). -/
def Dev.laneCalEnd (d : Dev) (n : Fin 64) (c : LaneCal) : Dev :=
  if d.rd .LANE_STAT_STATE n != unitCal then d
  else
    let four := d.bankQuiet n
    let pass := calSteps c four
    let d := ((d.wr .LANE_CAL_PASS n (maskOf pass)).wr .LANE_CAL_DNL n c.dnl).wr .LANE_CAL_TONE n (unsigned 8 c.tone)
    let d := d.wr .LANE_CAL_OFFSET n (unsigned 8 c.offset)
    if (pass.take (if four then 4 else 3)).all id then ((d.removeRoute n).laneState n unitJoin).beginWait (.joining (.lane n))
    else
      let d := (d.stick .LANE_STAT_CALFAIL n).laneOut n
      d.raise 2 n (d.word .LANE_STAT n)

/-- A route of a lane as its applied or pending word has it: source, enable, input. -/
def routeWord (w : Nat) : Nat × Bool × Nat := (bits w 9 2, bit w 8, bits w 0 8)

/-- The word of the applied route of lane `l`. -/
def Dev.routeNow (d : Dev) (l : Nat) : Nat :=
  d.rd .LNX_ROUTE_SRC l * 512 + d.rd .LNX_ROUTE_EN l * 256 + d.rd .LNX_ROUTE_INPUT l

/-- The pending route word of lane `l`, if any. -/
def Dev.routePend (d : Dev) (l : Nat) : Option Nat :=
  (d.bus.pend.find? fun p => p.reg == .LNX_ROUTE && p.idx == l).map fun p => p.word.toNat

/-- The word carries input `n`. -/
def carries (n w : Nat) : Bool := bit w 8 && bits w 9 2 == 0 && bits w 0 8 == n

/-- Lane `l` carries input `n`, applied or pending (R109). -/
def Dev.holdsInput (d : Dev) (l n : Nat) : Bool :=
  carries n (d.routeNow l) || ((d.routePend l).map (carries n)).getD false

/-! ### Route writes (R109-R112) -/

/-- The even-lane and odd-lane rule broken by routing input `inp` to lane `l` (R109): an odd lane takes the trail reader of the head
whose lead reader its partner carries, applied or pending. -/
def Dev.pairErr (d : Dev) (l inp : Nat) : Bool :=
  let lead (w : Nat) : Bool := let (src, en, e) := routeWord w; en && src == 0 && e + 1 == inp
  if l % 2 = 0 then inp % 2 == 1
  else inp % 2 == 0 || !(lead (d.routeNow (l - 1)) || ((d.routePend (l - 1)).map lead).getD false)

/-- Another lane carries the input, applied or pending: the one-lane rule of R109. -/
def Dev.twice (d : Dev) (l inp : Nat) : Bool := (List.range 64).any fun k => k != l && d.holdsInput k inp

/-- The lane already has another source, applied or pending: the one-source rule of R109. An applied route keeps its lane until its
removal is applied (DEDUCED, log 19). -/
def Dev.sourced (d : Dev) (l w : Nat) : Bool :=
  let other (v : Nat) : Bool := bit v 8 && v != w
  other (d.routeNow l) || ((d.routePend l).map other).getD false

/-- The status bits of a master's route write: REFUSED, DUPLICATE, PAIRERR (R111). `granted`: an SCH grant addresses the lane in
the same cycle (R112). The reserved SRC code refuses a route and not a removal, whose SRC names nothing (DESIGN CHOICE, log 74). -/
def Dev.routeCheck (d : Dev) (l w : Nat) (granted : Bool) : Bool × Bool × Bool :=
  let st := d.rd .LANE_STAT_STATE l
  let (src, en, inp) := routeWord w
  let admitted := !granted && (st == unitCal || (st == unitServ && !d.on .LANE_STAT_HELD l && d.on .LNX_CTL_SWROUTE))
  let bad := en && (src == 3 || (src != 0 && st != unitCal) || (src == 0 && !d.on .RDI_CTL_DECL inp))
  (!admitted || bad, en && ((src == 0 && d.twice l inp) || d.sourced l w), en && src == 0 && d.pairErr l inp)

/-- A route is refused: LNX_STAT and an event (R111). -/
def Dev.refuseRoute (d : Dev) (l w : Nat) (x : Bool × Bool × Bool) : Dev :=
  let d := d.wr .LNX_STAT_LANE 0 l
  let d := if x.1 then d.stick .LNX_STAT_REFUSED else d
  let d := if x.2.1 then d.stick .LNX_STAT_DUPLICATE else d
  let d := if x.2.2 then d.stick .LNX_STAT_PAIRERR else d
  d.event 0x210 l (d.word .LNX_STAT) w 0

/-- A master's write of LNX_ROUTE is made pending or refused (R111). -/
def Dev.routeWrite (d : Dev) (l w : Nat) (granted : Bool) : Dev :=
  let x := d.routeCheck l w granted
  if !(x.1 || x.2.1 || x.2.2) then d.buffer .LNX_ROUTE l (BitVec.ofNat 32 (w % 2048)) else d.refuseRoute l w x

/-- SCH routes a lane in SERVICE to an input through its grant path (R107, R109, R111): the route takes over from what the lane
carried, as a guide's lane passes to a job (R485), and is refused as a write would be where another rule of R109 forbids it. -/
def Dev.grantRoute (d : Dev) (l inp : Nat) : Dev :=
  let w := 256 + inp
  let x := (d.rd .LANE_STAT_STATE l != unitServ || !d.on .RDI_CTL_DECL inp, d.twice l inp, d.pairErr l inp)
  if x.1 || x.2.1 || x.2.2 then d.refuseRoute l w x
  else if d.routePend l == some w || (d.routePend l == none && d.routeNow l == w) then d
  else d.buffer .LNX_ROUTE l (BitVec.ofNat 32 w)

/-- No lane but those of pair `m` carries an input of head `h`: SCH grants the pair only then (R109; DEDUCED, log 19). -/
def Dev.inputsFree (d : Dev) (h m : Nat) : Bool :=
  (List.range 64).all fun l => l / 2 == m || !(d.holdsInput l (2 * h) || d.holdsInput l (2 * h + 1))

/-! ### Guide lanes (R485) -/

/-- An actuator needs a guide lane (R485). -/
def Dev.needsGuide (d : Dev) (a : Nat) : Bool :=
  let m := d.rd .SRV_STAT_MODE a
  (m == 1 || m == 2 || m == 3) && (d.act a).guide.isNone && !((List.range 8).any fun j => d.seqBusy (8 * a + j))

/-- Give an actuator that needs one a guide: its lowest head in SERVICE on the lowest free pair (R485). -/
def Dev.giveGuide (d : Dev) (a : Nat) : Dev :=
  if !d.needsGuide a then d
  else
    match (List.range 32).find? fun s => d.rd .SRV_HSTAT_STATE (32 * a + s) == unitServ with
    | none => d
    | some s =>
      let h := 32 * a + s
      match (List.range 32).find? fun m => d.pairFree m && d.inputsFree h m with
      | some m => (d.setGuide h m).grantRoute (2 * m) (2 * h)
      | none => d

/-! ### Reader inputs (R108, R142) -/

/-- A head goes OUT: the job bound to it is abandoned (R331-R333), it is a guide no more, and its reader bias goes with the
next BIAS frame (R338). -/
def Dev.headGoesOut (d : Dev) (h : Nat) : Dev :=
  let a := actOfHead h
  let d := (d.wr .SRV_HSTAT_STATE h unitOut).loseHead h
  let d := if (d.act a).guide == some h then (d.endGuide a false).giveGuide a else d
  if d.rd .SRV_STAT_MODE a == 0 then d else d.armBias a (d.biasMask a)

/-- A calibration job of a head in CALIBRATING has run (R331): the head passes and is to join, or fails. What the sweep and the heater
test have shown is the head's own: a free value (log 91). -/
def Dev.headCalEnd (d : Dev) (h : Nat) : Dev :=
  if d.rd .SRV_HSTAT_STATE h != unitCal then d
  else
    let pass := d.fresh % 2 == 1
    let d := d.used
    if pass then (d.wr .SRV_HSTAT_STATE h unitJoin).beginWait (.joining (.head (Fin.ofNat 128 h)))
    else (d.stick .SRV_HSTAT_CALFAIL h).headGoesOut h

/-- A head leaves SERVICE for OUT (R331). -/
def Dev.headOut (d : Dev) (h : Nat) : Dev := if d.rd .SRV_HSTAT_STATE h == unitServ then d.headGoesOut h else d

/-- The lanes that carry input `n`. -/
def Dev.lanesOf (d : Dev) (n : Nat) : List Nat :=
  (List.range 64).filter fun l => d.on .LNX_ROUTE_EN l && d.rd .LNX_ROUTE_SRC l == 0 && d.rd .LNX_ROUTE_INPUT l == n

/-- The lane flags every output from its latest edge on (R108). -/
def Dev.faultFrom (d : Dev) (l : Nat) : Dev :=
  let x := d.lane l
  if x.fault.isSome then d else d.setLane l { x with fault := some (d.laneEdge l) }

/-- The lane flags no more for its input's condition (R108). -/
def Dev.faultEnds (d : Dev) (l : Nat) : Dev :=
  match (d.lane l).fault with
  | some a => (d.setLane l { d.lane l with fault := none }).flagRun l a (d.laneEdge l)
  | none => d

/-- An input's common mode has stayed open (or shorted) for 1 µs (R108). OPEN and SHORT are set when the monitor finds the
condition; a W1C while it persists leaves the bit clear until it is found anew (DESIGN CHOICE, log 73). -/
def Dev.inputFault (d : Dev) (n : Nat) (isOpen : Bool) : Dev :=
  let d := if isOpen then { d with lnx := { d.lnx with openNow := (d.lnx.openNow.filter (· != n)) ++ [n] } }
    else { d with lnx := { d.lnx with shortNow := (d.lnx.shortNow.filter (· != n)) ++ [n] } }
  let d := (d.lanesOf n).foldl Dev.faultFrom d
  let d := if isOpen then d.stick .RDI_STAT_OPEN n else d.stick .RDI_STAT_SHORT n
  let d := d.event 0x211 n (d.word .RDI_STAT n) 0 0
  (d.stick .SRV_HSTAT_RDOUT (n / 2)).headOut (n / 2)

/-- The condition of an input ends: its lane stops flagging (R108). -/
def Dev.inputClear (d : Dev) (n : Nat) (isOpen : Bool) : Dev :=
  let d := if isOpen then { d with lnx := { d.lnx with openNow := d.lnx.openNow.filter (· != n) } }
    else { d with lnx := { d.lnx with shortNow := d.lnx.shortNow.filter (· != n) } }
  if d.lnx.openNow.contains n || d.lnx.shortNow.contains n then d else (d.lanesOf n).foldl Dev.faultEnds d

/-- A write of RDI_CTL, ignored with WIGN while the input has a route (R142). -/
def Dev.rdiCtl (d : Dev) (n w : Nat) : Dev :=
  if (List.range 64).any fun l => d.holdsInput l n then d.stick .RDI_STAT_WIGN n
  else ((d.wrb .RDI_CTL_DECL n (bit w 0)).wrb .RDI_CTL_TERM n (bit w 1)).wrb .RDI_CTL_INVERT n (bit w 2)

/-! ### Overrange (R125-R128) and the servo gate -/

/-- An overrange event during a read reaches the track's record (R128, R588). -/
def Dev.ledgerOverrange (d : Dev) (l : Nat) : Dev :=
  match (d.slotOfPair (l / 2)).bind fun s => (d.seq s).job with
  | some j => if j.kind = 0 then d.updStat (ledgerIndex j.surf j.track) fun e => { e with w2 := satField e.w2 0 8 1 } else d
  | none => d

/-- The lane takes samples: it is powered and in use, and its synthesiser produces edges (R126, R134). -/
def Dev.sampling (d : Dev) (l : Nat) : Bool :=
  let st := d.rd .LANE_STAT_STATE l
  st != unitOff && st != unitOut && d.synRuns (l / 2)

/-- The other lanes of the bank flag their own outputs, from the sample that coincides with edge `a` of lane `l` to the eighth after
the one that coincides with edge `b` (R127). -/
def Dev.disturb (d : Dev) (l a b : Nat) : Dev :=
  ((bankLanes (l / 4)).filter fun r => r != l && d.sampling r).foldl (fun d r => d.flagRun r (d.coincides l a r) (d.coincides l b r + 8)) d

/-- Lane `l` has just taken a run of overrange samples, grid indices `first` to `last` (R126, R127). -/
def Dev.overrange (d : Dev) (l first last : Nat) : Dev :=
  if !d.sampling l then d
  else
    let spr := max 1 (d.spr (l / 2))
    let b := d.edgeAt l last
    let a := b - (last % spr + spr - first % spr) % spr
    let x := d.lane l
    let fresh := match x.ovrEnd with
      | some e => decide (e + 24 < a)
      | none => true
    let overs := runsKept spr a x.overs ++ [{ first := a, last := b }]
    let d := d.setLane l { x with ovrEnd := some b, overs := overs }
    let d := (d.stick .LANE_STAT_OVR l).flagRun l a (b + 24)
    let d := if fresh then (d.count .LANE_OVRCNT_EVENTS l).ledgerOverrange l else d
    d.disturb l a b

/-- The servo gate of lane 2m has its place now (R254): `off` ticks after P(w) in the LEAD frame of the job that gates it. On a guide
lane, which no sequencer gates, the spec names no place (log 75). -/
def Dev.servoDue (d : Dev) (l : Nat) (off : Job → Nat) : Bool :=
  match d.slotOfPair (l / 2) with
  | some s => match (d.seq s).job with
    | some j => (d.seq s).svgOn && (d.wedgeNow (d.laneOff l + off j)).isSome
    | none => false
  | none => (List.range 4).any fun a => (d.act a).guidePair == some (l / 2)

/-- The servo gate of an even lane opens, P(w) - SPG (R120, R254): the lane's loops freeze and its servo filter settings apply. -/
def Dev.servoGateOpen (d : Dev) (l : Nat) : Dev :=
  if l % 2 = 0 && d.angValid && d.on .LNX_ROUTE_EN l && (d.lane l).servoAt.isNone && d.servoDue l (fun j => rev - j.spg) then
    let d := d.loopsRun l none
    (d.setLane l { d.lane l with servoAt := some (d.laneEdge l) }).showFilter l
  else d

/-- The servo gate closes, P(w) + SVT: data settings return and the equaliser restarts (R120, R123, R254). -/
def Dev.servoGateClose (d : Dev) (l : Nat) : Dev := if d.servoDue l Job.svt then d.endServo l else d

/-! ### What a strobe applies (R45, R46) -/

/-- The head bound to head slot `s`, if any. -/
def Dev.headOfSlot (d : Dev) (s : Nat) : Option Nat := (d.seq s).job.map Job.head

/-- An owner: the reference where there is none (R93). -/
def ownerOr : Option Nat → Owner
  | some h => if hlt : h < 128 then .head ⟨h, hlt⟩ else .ref
  | none => .ref

/-- The owner of a pair (R98). -/
def Dev.pairOwner (d : Dev) (m : Nat) : Option Nat := if d.on .ANG_SCKSTAT_UNOWNED m then none else some (d.rd .ANG_SCKSTAT_OWNER m)

/-- The owner whose strobe applies a buffered value (R93, R113). A removal on a lane that carries no reader has no head owner: it applies
at a reference strobe (DESIGN CHOICE, log 92). -/
def Dev.ownerOf (d : Dev) (p : PendW) : Owner :=
  match p.reg with
  | .ANG_SOFF => if hlt : p.idx < 32 then .surf ⟨p.idx, hlt⟩ else .ref
  | .ANG_HOFF | .ANG_HSKEW => ownerOr (some p.idx)
  | .ANG_SCKRATE | .ANG_SCKPHASE => ownerOr (d.pairOwner p.idx)
  | .ANG_WCKRATE | .ANG_WCKPHASE | .FSQ_CFG | .WRF_PRECOMP => ownerOr (d.headOfSlot p.idx)
  | .LANE_AFE | .LANE_AGC | .LANE_TLOOP | .LANE_MODE | .LANE_FIRCFG | .LANE_TARGET => ownerOr (d.pairOwner (p.idx / 2))
  | .LANE_FIR => ownerOr (d.pairOwner (p.idx / 32))
  | .LNX_ROUTE =>
    let (src, en, inp) := routeWord p.word.toNat
    let (src0, en0, inp0) := routeWord (d.routeNow p.idx)
    if en then (if src = 0 then ownerOr (some (inp / 2)) else .ref)
    else if en0 && src0 == 0 then ownerOr (some (inp0 / 2)) else .ref
  | _ => .ref

/-- A buffered value applies at strobe `x`: its owner's, of its apply point, at least 8 cycles after its last write (R45). -/
def Dev.due (d : Dev) (x : Strobe) (p : PendW) : Bool :=
  d.ownerOf p == x.owner && decide (p.cycle + 8 ≤ d.now) && (p.reg.info.app != .rev || x.index)

/-- Write every writable field of a register from a word. -/
def Dev.putFields (d : Dev) (r : Reg) (i w : Nat) : Dev :=
  r.info.flds.foldl (fun d f =>
    match f.info.acc with
    | .wd | .rwmWd | .rw => d.wr f i (f.slice w)
    | _ => d) d

/-- The applied route of a lane is taken away; a pending one stays. -/
def Dev.clearRoute (d : Dev) (l : Nat) : Dev := ((d.wr .LNX_ROUTE_EN l 0).wr .LNX_ROUTE_SRC l 0).wr .LNX_ROUTE_INPUT l 0

/-- Lane `l` starts on a new grid: outputs are flagged from now to the eighth after an equaliser restart `cycles` later (R114,
R123). The edge then reached is taken at the loop's present rate (log 76). -/
def Dev.startLane (d : Dev) (l cycles : Nat) : Dev :=
  let n := d.laneEdge l
  (d.setLane l ((d.lane l).renumber n)).flagRun l n (d.edgeIn l cycles + 8)

/-- A source is connected to lane `l` (R114, R117, R118): the switch settles within 20 ns (a free value, log 76), while the
synthesiser suppresses its edges for 16 cycles (R100). -/
def Dev.connect (d : Dev) (l src inp : Nat) : Dev :=
  let d := (d.wr .LANE_GAIN_VGA l (d.rd .LANE_AGC_INIT l)).wr .LANE_TPHASE_PHASE l 0
  let d := (d.wr .LANE_TPHASE_FREQ l 0).setLane l {}
  let d := d.used.startLane l (max 16 (d.fresh % 26))
  if src == 0 && (d.lnx.openNow.contains inp || d.lnx.shortNow.contains inp) then d.faultFrom l else d

/-- Servo gating is turned on as the routes of the job's pair apply (R254). -/
def Dev.gateServo (d : Dev) (m h : Nat) : Dev :=
  match d.slotOfPair m with
  | some s => if d.headOfSlot s == some h then d.setSeq s { d.seq s with svgOn := true } else d
  | none => d

/-- A route takes effect on lane `l` (R110, R113). -/
def Dev.applyRoute (d : Dev) (l w : Nat) (partnerDue : Bool) : Dev :=
  let (src, en, inp) := routeWord w
  let d := if l % 2 = 0 && !partnerDue then (d.clearRoute (l + 1)).setLane (l + 1) {} else d
  let d := ((d.wrb .LNX_ROUTE_EN l en).wr .LNX_ROUTE_SRC l src).wr .LNX_ROUTE_INPUT l inp
  let owned := en && src == 0
  let d := if l % 2 = 0 then d.synOwn (l / 2) (if owned then some (inp / 2) else none) else d
  let d := if en then d.connect l src inp else (d.endServo l).setLane l {}
  if l % 2 = 0 && owned then d.gateServo (l / 2) (inp / 2) else d

/-- A new SPR or PHASE of pair `m` takes effect (R100, R117, R123). -/
def Dev.pairGrid (d : Dev) (m : Nat) : Dev :=
  let zero (d : Dev) (l : Nat) : Dev := ((d.wr .LANE_TPHASE_PHASE l 0).wr .LANE_TPHASE_FREQ l 0).startLane l 16
  (zero (zero (d.synGrid m) (2 * m)) (2 * m + 1)).evalDual m

/-- The head's offset moves by `step`: where it moves ahead, the strobe at which it applied is not met again (R91). -/
def Dev.moveHoff (d : Dev) (h : Nat) (step : Int) : Dev :=
  let d' := d.wr .ANG_HOFF_OFF h (unsigned 24 (d.rd .ANG_HOFF_OFF h + step))
  if 0 < step then { d' with ang := { d'.ang with skip := Tab.put d'.ang.skip h (mod48 (d.ang.val + step.toNat)) } } else d'

/-- An applied change of ANG_HOFF, clamped at a quarter wedge the shorter way round (R91). -/
def Dev.applyHoff (d : Dev) (h v : Nat) : Dev :=
  let step := signed 24 (subMod 24 v (d.rd .ANG_HOFF_OFF h))
  let q : Int := (2 ^ 22 / d.wedges : Nat)
  if step < -q then (d.moveHoff h (-q)).stick .ANG_STAT_HCLAMP
  else if q < step then (d.moveHoff h q).stick .ANG_STAT_HCLAMP
  else d.moveHoff h step

/-- The registers whose values a lane's equaliser and detector use (R115, R145). -/
def isSetting : Reg → Bool
  | .LANE_MODE | .LANE_FIRCFG | .LANE_TARGET | .LANE_FIR => true
  | _ => false

/-- The coefficients of lane `l`: those adaptation has reached, else those of LANE_FIR. -/
def Dev.tapsOf (d : Dev) (l : Nat) : List Nat :=
  let x := d.lane l
  if d.on .LANE_MODE_ADAPT l && !x.taps.isEmpty then x.taps else (List.range 16).map fun i => d.rd .LANE_FIR_COEF (16 * l + i)

/-- The settings of lane `l` now. -/
def Dev.settingsNow (d : Dev) (l : Nat) : LaneSet :=
  { upto := d.laneEdge l, taps := d.tapsOf l, main := d.rd .LANE_FIRCFG_MAIN l, adapt := d.on .LANE_MODE_ADAPT l,
    tgt := d.word .LANE_TARGET l }

/-- The settings of lane `l` up to here are kept, since some of them are about to change (R145). -/
def Dev.keepSettings (d : Dev) (l : Nat) : Dev :=
  let d := d.loopsRun l none
  let x := d.lane l
  let n := d.laneEdge l
  let old := x.hist.filter fun h => decide (n ≤ h.upto + 2 * d.spr (l / 2))
  d.setLane l { x with hist := if old.any (fun h => h.upto == n) then old else old ++ [d.settingsNow l] }

/-- A setting of lane `l` takes effect. A coefficient written while adaptation is enabled is where it goes on from; adaptation that is
switched off leaves LANE_FIR as written (LANE_FIR). -/
def Dev.applySetting (d : Dev) (r : Reg) (i l w : Nat) : Dev :=
  let d := (d.keepSettings l).putFields r i w
  let x := d.lane l
  if r == .LANE_FIR then d.setLane l { x with taps := if x.taps.isEmpty then [] else x.taps.set (i % 16) (bits w 0 10) }
  else if r == .LANE_MODE && !d.on .LANE_MODE_ADAPT l then d.setLane l { x with taps := [] }
  else d

/-- One buffered value takes effect. -/
def Dev.applyOne (d : Dev) (all : List PendW) (p : PendW) : Dev :=
  let w := p.word.toNat
  match p.reg with
  | .ANG_HOFF => d.applyHoff p.idx (bits w 0 24)
  | .ANG_SCKRATE | .ANG_SCKPHASE => (d.putFields p.reg p.idx w).pairGrid p.idx
  | .ANG_WCKRATE | .ANG_WCKPHASE => (d.putFields p.reg p.idx w).synGrid (32 + p.idx)
  | .ANG_HSKEW =>
    (List.range 32).foldl (fun d m => if d.pairOwner m == some p.idx then d.evalDual m else d) (d.putFields p.reg p.idx w)
  | .LNX_ROUTE => d.applyRoute p.idx w (all.any fun q => q.reg == .LNX_ROUTE && q.idx == p.idx + 1 && bit q.word.toNat 8)
  | .MAC_CHSYNC =>
    let d := d.putFields .MAC_CHSYNC p.idx w
    { d with mac := Tab.put d.mac p.idx { Tab.getD d.mac p.idx {} with armed := true } }
  | .WRF_PRECOMP => (d.putFields .WRF_PRECOMP p.idx w).noteEarly p.idx
  | .SRV_RUN | .SRV_VCMLIM => (d.putFields p.reg p.idx w).watchVcm p.idx
  | r =>
    if isSetting r then d.applySetting r p.idx (if r == .LANE_FIR then p.idx / 16 else p.idx) w else d.putFields r p.idx w

/-- Routes go in lane order before the rest, so that a pair's even lane takes effect first. -/
def routesFirst (l : List PendW) : List PendW :=
  let routes := (List.range 64).flatMap fun n => l.filter fun p => p.reg == .LNX_ROUTE && p.idx == n
  routes ++ l.filter fun p => p.reg != .LNX_ROUTE

/-- At a head's strobe the writer of the slot it is bound to takes it as owner (R98, R113). -/
def Dev.bindWriter (d : Dev) : Owner → Dev
  | .head h =>
    match d.slotOfHead h.val with
    | some s => if d.rd .ANG_WCKSTAT_OWNER s == h.val && !d.on .ANG_WCKSTAT_UNOWNED s then d else d.synOwn (32 + s) (some h.val)
    | none => d
  | _ => d

/-- The guide lane of pair `m` passes to the job that holds the pair: the guide ends at that strobe (R485). -/
def Dev.guideTaken (d : Dev) (m : Nat) : Dev :=
  match (List.range 4).find? fun a => (d.act a).guidePair == some m with
  | none => d
  | some a =>
    if (d.slotOfPair m).isNone then d
    else
      let h := ((d.act a).guide).getD 0
      let d := d.endGuide a true
      if (d.slotOfHead h).isNone then d.unfollow h else d

/-- A strobe: every buffered value due at it applies in one cycle (R46); no strobe occurs while the angle base is not valid
(R92). -/
def Dev.strobe (d : Dev) (x : Strobe) : Dev :=
  if !d.angValid then d
  else
    let now := routesFirst (d.bus.pend.filter (d.due x))
    let d := { d with bus := { d.bus with pend := d.bus.pend.filter fun p => !now.contains p } }
    let d := d.bindWriter x.owner
    let d := now.foldl (fun d p => d.applyOne now p) d
    let pairs := (now.filter fun p => p.reg == .LNX_ROUTE).map fun p => p.idx / 2
    pairs.foldl (fun d m => (d.evalDual m).guideTaken m) d

end Sys2Proof.Machine
end

