-- ==== Sys2Proof/Machine/Codec.lean ====
section
/-! DEFINITION. The arithmetic of detection and coding: code tables and profiles (R156-R161), the soft-output detector
(R145-R147, R150), the dual-look combiner (R152-R154), layered min-sum decoding (R165), and encoding by forward substitution
(R285). -/

namespace Sys2Proof.Machine

/-! ### Tables (R158-R161) -/

/-- One entry word of a code table: ENDL, ENDT, COL, SHIFT. -/
def entryWord (w : Nat) : Bool × Bool × Nat × Nat := (bit w 31, bit w 30, bits w 16 8, bits w 0 8)

/-- Read entries from `a` until ENDT, at most `fuel`: the circulants with their layers, the number of layers closed, and
whether ENDT was met. ENDT closes the last layer, whether or not its entry has ENDL too (DESIGN CHOICE, log 80). -/
def Dev.readCircs (d : Dev) (a layer : Nat) : Nat → List Circ × Nat × Bool
  | 0 => ([], layer, false)
  | fuel + 1 =>
    let (endl, endt, col, shift) := entryWord (d.ld32 a)
    let c : Circ := { layer := layer, col := col, shift := shift }
    if endt then ([c], layer + 1, true)
    else
      let (cs, n, ok) := d.readCircs (a + 4) (if endl then layer + 1 else layer) fuel
      (c :: cs, n, ok)

/-- The circulants of layer `i`. -/
def Code.layer (t : Code) (i : Nat) : List Circ := t.circs.filter fun c => c.layer == i

/-- Strictly rising. -/
def rising : List Nat → Bool
  | a :: b :: l => decide (a < b) && rising (b :: l)
  | _ => true

/-- One layer satisfies R156 and R159. -/
def Code.layerOk (t : Code) (i : Nat) : Bool :=
  let cs := t.layer i
  let p := t.c - t.m + i
  decide (2 ≤ cs.length) && decide (cs.length ≤ 64) && rising (cs.map Circ.col) && cs.all (fun c => decide (c.col ≤ p)) &&
    cs.any fun c => c.col == p && c.shift == 0

/-- The code table `t` (R158), where it is valid (R156, R159). -/
def Dev.codeTable (d : Dev) (t : Nat) : Option Code :=
  let a := tableSram + d.rd .ITB_CODEBASE_BASE * 8192 + t * 8192
  let h := d.ld32 a
  let (cs, n, ok) := d.readCircs (a + 4) 0 2047
  let code : Code := { c := bits h 16 8, m := bits h 8 6, circs := cs }
  let info := (List.range (code.c - code.m)).all fun k => decide (2 ≤ (cs.filter fun e => e.col == k).length)
  if ok && n == code.m && decide (24 ≤ code.c) && decide (code.c ≤ 160) && decide (1 ≤ code.m) && decide (code.m ≤ 32) &&
      (List.range code.m).all code.layerOk && info then some code
  else none

/-- The decode profile `p` (R160). -/
def Dev.profile (d : Dev) (p : Nat) : Profile :=
  let a := tableSram + d.rd .ITB_PROFBASE_BASE * 4096 + 16 * p
  let w0 := d.ld32 a
  let w1 := d.ld32 (a + 4)
  let w2 := d.ld32 (a + 8)
  { valid := bit w0 31, code := bits w0 24 4, short := bits w0 0 11, scale := bits w1 24 8, wl := bits w1 10 5,
    wt := bits w1 5 5, ws := bits w1 0 5, bmax := bits w2 26 6, block := bits w2 22 4, gmax := bits w2 19 3,
    lpg := bits w2 16 3, ofs := bits w2 13 3, alt := bits (d.ld32 (a + 12)) 0 6 }

/-- Bits of a codeword on the media (R157). -/
def codeBits (t : Code) (short : Nat) : Nat := 256 * t.c - short

/-- A profile is usable with a valid code table and `metaBytes` metadata bytes (R161). -/
def Profile.usable (p : Profile) (t : Code) (metaBytes : Nat) : Bool :=
  let k := 8 * (4102 + metaBytes)
  p.valid && decide (p.wl ≤ 16) && decide (p.wt ≤ 16) && decide (p.ws ≤ 16) && p.block != 0 && p.lpg != 0 &&
    decide (p.gmax ≤ 6) && decide (p.bmax ≤ 60) && decide (256 * (t.c - t.m) = k + p.short) &&
    decide (84 * codeBits t p.short ≤ 100 * k) && decide (100 * k ≤ 94 * codeBits t p.short)

/-- Metadata bytes of a META code. -/
def metaSize : Nat → Nat
  | 0 => 0 | 1 => 8 | 2 => 16 | _ => 64

/-- The metadata sizes of the zones that name profile `p`: the entries of the zone table in use (R161, R193; that an entry in use
counts whether or not it is valid is DEDUCED, log 87). -/
def Dev.profileSizes (d : Dev) (p : Nat) : List Nat :=
  (List.range (min 1024 (d.rd .TPE_ZONECNT_COUNT))).filterMap fun i =>
    let a := 0x0004000000 + d.rd .TPE_ZONEBASE_BASE * 4096 + 32 * i
    let w := d.ld32 (a + 4)
    if bit (d.ld32 a) 31 && bits w 26 6 == p then some (metaSize (bits w 24 2)) else none

/-- The code table and profile that a capture under profile `p` uses; none where they are not usable, for the zone at hand or for
another that names the profile (R161). The tables must lie in table SRAM (ITB_PROFBASE, ITB_CODEBASE). -/
def Dev.codeOf (d : Dev) (p metaBytes : Nat) : Option (Profile × Code) :=
  let pr := d.profile p
  let inside := decide (d.rd .ITB_PROFBASE_BASE * 4096 + 1024 ≤ 0x1800000) &&
    decide (d.rd .ITB_CODEBASE_BASE * 8192 + 0x20000 ≤ 0x1800000)
  match d.codeTable pr.code with
  | some t => if inside && pr.usable t metaBytes && (d.profileSizes p).all (fun n => pr.usable t n) then some (pr, t) else none
  | none => none

/-! ### The detector (R145-R150) -/

/-- A number held within ±m. -/
def clampInt (m : Nat) (x : Int) : Int := max (-(m : Int)) (min (m : Int) x)

/-- Symbol of bit `b`: +1 for 0, −1 for 1. -/
def symbol (b : Nat) : Int := if b % 2 = 0 then 1 else -1

/-- Twice the ideal equaliser output for bit `b` after state `st`, whose bit i is the bit of a(k − 1 − i); `g` is G1 to G4. -/
def ideal2 (g : List Int) (st b : Nat) : Int :=
  64 * symbol b + g.getD 0 0 * symbol st + g.getD 1 0 * symbol (st / 2) + g.getD 2 0 * symbol (st / 4) +
    g.getD 3 0 * symbol (st / 8)

/-- The target taps G1 to G4 of a LANE_TARGET word. -/
def targetTaps (w : Nat) : List Int := [signed 8 (bits w 0 8), signed 8 (bits w 8 8), signed 8 (bits w 16 8), signed 8 (bits w 24 8)]

/-- One position as the detector takes it: the equaliser output, the target in effect when its sample was taken, and the a priori
value of R150. -/
structure Obs where
  y  : Soft
  g  : List Int
  la : Int
  deriving DecidableEq, Repr

/-- Branch metric in units of 1 ÷ (4 × SCALE): the squared error of an unflagged sample, and the a priori term of R150. -/
def branch (scale : Nat) (x : Obs) (st b : Nat) : Int :=
  let e := 2 * x.y.v - ideal2 x.g st b
  (if x.y.f then 0 else scale * e * e) - symbol b * x.la * 8192

/-- The smaller of two metrics by their arguments. -/
def minAt (f : Nat → Int) (l : List Nat) : Int := l.foldl (fun m k => min m (f k)) (f (l.headD 0))

/-- One forward step: the metric of each next state. -/
def stepForward (scale : Nat) (x : Obs) (m : List Int) : List Int :=
  (List.range 16).map fun t =>
    minAt (fun o => m.getD (t / 2 + 8 * o) 0 + branch scale x (t / 2 + 8 * o) (t % 2)) [0, 1]

/-- One backward step. -/
def stepBackward (scale : Nat) (x : Obs) (m : List Int) : List Int :=
  (List.range 16).map fun st => minAt (fun b => m.getD ((2 * st + b) % 16) 0 + branch scale x st b) [0, 1]

/-- The metrics before each position of a window, from equal metrics at its start. -/
def forwards (scale : Nat) : List Obs → List Int → List (List Int)
  | [], _ => []
  | x :: l, m => m :: forwards scale l (stepForward scale x m)

/-- The metrics after each position of a window, from equal metrics at its end. -/
def backwards (scale : Nat) (l : List Obs) : List (List Int) :=
  (l.foldr (fun (x : Obs) (acc : List (List Int)) =>
    stepBackward scale x (acc.headD (List.replicate 16 0)) :: acc) [List.replicate 16 0]).drop 1

/-- Soft output of one position (R146): half away from zero, held within ±31; a flagged sample gives a flagged 0 (R147). -/
def softOut (scale : Nat) (x : Obs) (a b : List Int) : Soft :=
  if x.y.f then { v := 0, f := true }
  else
    let best (k : Nat) : Int :=
      minAt (fun st => a.getD st 0 + branch scale x st k + b.getD ((2 * st + k) % 16) 0) (List.range 16)
    { v := clampInt 31 (roundDiv (best 1 - best 0) 16384), f := false }

/-- The soft outputs of one window. The path metrics of all states are equal at its start and at its end (DESIGN CHOICE, log 77). -/
def detectWindow (scale : Nat) (l : List Obs) : List Soft :=
  ((l.zip (forwards scale l (List.replicate 16 0))).zip (backwards scale l)).map fun x =>
    softOut scale x.1.1 x.1.2 x.2

/-- The detector over a stretch of its stream: windows of 128 positions that overlap by 64 (R146), each giving its middle 64 outputs
(DESIGN CHOICE, log 77). The spec does not state where the windows begin: `align` is a free value (log 3). -/
def detect (scale align : Nat) (l : List Obs) : List Soft :=
  let n := l.length
  (List.range (n / 64 + 2)).flatMap fun j =>
    let lo := 64 * j + align - 64
    let hi := min n (64 * j + align)
    let from' := lo - 32
    ((detectWindow scale ((l.drop from').take (hi + 32 - from'))).drop (lo - from')).take (hi - lo)

/-! ### The combiner (R152-R154) -/

/-- One dual-look position (R152). -/
def combineOne (wl wt ws : Nat) (a b : Soft) : Soft :=
  if a.f && b.f then { v := 0, f := true }
  else if a.f then { v := clampInt 31 (roundDiv (ws * b.v) 16), f := false }
  else if b.f then { v := clampInt 31 (roundDiv (ws * a.v) 16), f := false }
  else { v := clampInt 31 (roundDiv (wl * a.v + wt * b.v) 16), f := false }

/-- A lead-only position: the third row of R152 with the flags of the lead lane (R153). -/
def soloOne (ws : Nat) (a : Soft) : Soft :=
  if a.f then { v := 0, f := true } else { v := clampInt 31 (roundDiv (ws * a.v) 16), f := false }

/-- The combined values of a codeword. -/
def combineLooks (p : Profile) (dual : Bool) (lead trail : List Soft) : List Soft :=
  if dual then (lead.zip trail).map fun x => combineOne p.wl p.wt p.ws x.1 x.2 else lead.map (soloOne p.ws)

/-! ### Min-sum decoding (R165) -/

/-- Channel inputs in variable order: the SHORT zero bits stand after the information bits, at +31 (R157). -/
def channelVars (t : Code) (short : Nat) (c : List Soft) : List Int :=
  let k := 256 * (t.c - t.m) - short
  (c.take k).map Soft.v ++ List.replicate short 31 ++ (c.drop k).map Soft.v

/-- The variable of a circulant in row `r`: the identity shifted right by SHIFT. -/
def circVar (c : Circ) (r : Nat) : Nat := 256 * c.col + (r + c.shift) % 256

/-- Replace the value at `i`. -/
def setAt (a : Array Int) (i : Nat) (v : Int) : Array Int := a.setIfInBounds i v

/-- The two smallest magnitudes and the number of negative inputs of a check. -/
def checkSum (qs : List Int) : Nat × Nat × Nat :=
  qs.foldl (fun (x : Nat × Nat × Nat) q =>
    let m := q.natAbs
    let neg := x.2.2 + bnat (decide (q < 0))
    if m < x.1 then (m, x.1, neg) else if m < x.2.1 then (x.1, m, neg) else (x.1, x.2.1, neg)) (1000, 1000, 0)

/-- One check: each message has the smallest magnitude among the other inputs less OFS, and the product of their signs. -/
def checkRow (ofs : Nat) (cs : List (Nat × Circ)) (r : Nat) (s : Array Int × Array Int) : Array Int × Array Int :=
  let ins := cs.map fun e => (e, s.1.getD (circVar e.2 r) 0 - s.2.getD (256 * e.1 + r) 0)
  let (m1, m2, neg) := checkSum (ins.map Prod.snd)
  ins.foldl (fun (s : Array Int × Array Int) (x : (Nat × Circ) × Int) =>
    let q := x.2
    let mag : Int := min 31 ((if q.natAbs = m1 then m2 else m1) - ofs : Nat)
    let msg := if (neg + bnat (decide (q < 0))) % 2 = 0 then mag else -mag
    (setAt s.1 (circVar x.1.2 r) (clampInt 127 (q + msg)), setAt s.2 (256 * x.1.1 + r) msg)) s

/-- One local iteration: every layer in table order. Posteriors and messages in, posteriors and messages out. -/
def minSum (t : Code) (ofs : Nat) (s : Array Int × Array Int) : Array Int × Array Int :=
  let es := (List.range t.circs.length).zip t.circs
  (List.range t.m).foldl (fun s i =>
    let cs := es.filter fun e => e.2.layer == i
    (List.range 256).foldl (fun s r => checkRow ofs cs r s) s) s

/-- Posteriors from channel inputs and kept messages, held within ±127 at each addition (DESIGN CHOICE, log 79: the spec does not say
what they are after a re-detection). -/
def posterior (t : Code) (chan : List Int) (msgs : Array Int) : Array Int :=
  let es := (List.range t.circs.length).zip t.circs
  es.foldl (fun a e => (List.range 256).foldl (fun a r =>
    let v := circVar e.2 r
    setAt a v (clampInt 127 (a.getD v 0 + msgs.getD (256 * e.1 + r) 0))) a) chan.toArray

/-- Unsatisfied checks of the hard decisions: a negative posterior is bit 1, and one of exactly 0 is taken as bit 0 (DESIGN CHOICE,
log 78). -/
def syndrome (t : Code) (post : Array Int) : Nat :=
  ((List.range t.m).flatMap fun i =>
    let cs := t.layer i
    (List.range 256).filter fun r => (cs.filter fun c => decide (post.getD (circVar c r) 0 < 0)).length % 2 == 1).length

/-! ### Bits and bytes (R157) -/

/-- Bytes as bits, most significant first. -/
def bytesToBits (l : List Byte) : List Bool := l.flatMap fun b => (List.range 8).map fun k => b.toNat.testBit (7 - k)

/-- Eight bits as a byte, most significant first. -/
def byteOfBits (l : List Bool) : Byte := BitVec.ofNat 8 (l.foldl (fun n b => 2 * n + bnat b) 0)

/-- Bits as bytes, most significant first. -/
def bitsToBytes (l : List Bool) : List Byte :=
  (List.range (l.length / 8)).map fun i => byteOfBits ((l.drop (8 * i)).take 8)

/-- The information bytes of the decisions: user bytes, metadata bytes and check value. -/
def infoBytes (n : Nat) (post : List Int) : List Byte := bitsToBytes ((post.take (8 * n)).map fun p => decide (p < 0))

/-- The parity bits of layer `i`, given the variables so far (R285). -/
def parityLayer (t : Code) (v : Array Bool) (i : Nat) : Array Bool :=
  let p := t.c - t.m + i
  let cs := (t.layer i).filter fun c => decide (c.col < p)
  (List.range 256).foldl (fun v r =>
    v.setIfInBounds (256 * p + r) (cs.foldl (fun b c => xor b (v.getD (circVar c r) false)) false)) v

/-- The codeword bits on the media of `info` (R157, R285): information bits, then parity bits; the SHORT zeros are not
written. -/
def encodeBits (t : Code) (short : Nat) (info : List Bool) : List Bool :=
  let k := 256 * (t.c - t.m)
  let v := (info.take k ++ List.replicate (256 * t.c - info.length) false).toArray
  let v := (List.range t.m).foldl (parityLayer t) v
  info.take (k - short) ++ (v.toList.drop k)

end Sys2Proof.Machine
end

