-- ==== Sys2Proof/Machine/Iteration.lean ====
section
/-! DEFINITION. The iteration bank: claiming and capturing a context (R155, R162-R164), local iterations and their acorns
(R165-R175), re-detection (R150, R151), expiry (R176) and the decode engines (R187-R190). -/

namespace Sys2Proof.Machine

/-! ### Claim and capture -/

/-- The lowest free context, where the bank is enabled and one is free (R163, R164). -/
def Dev.freeCtx (d : Dev) : Option Nat :=
  if d.on .ITB_CTL_ENABLE then (List.range 128).find? fun c => (d.ctx? c).isNone else none

/-- A sector ends DROPPED: CTXFULL sets and is raised only where the bank was enabled (R164). -/
def Dev.dropSector (d : Dev) (x : Ctx) : Dev :=
  let d := if d.on .ITB_CTL_ENABLE then
      let d := d.stick .ITB_STAT_CTXFULL
      d.raise 3 x.pair (d.word .ITB_STAT)
    else d
  let d := (d.countEnd 4).postDrec x.owner (drecWords 4 0 0 x.dual x.urg 0 0 0 x.psa x.prof x.pair 0) x.head x.cal
  if x.cal then d else d.sectorFailed x.owner x.fseq x.psa x.head none false

/-- Claim a context for a sector whose sync mark was found, or drop the sector (R163, R164). -/
def Dev.claimCtx (d : Dev) (x : Ctx) : Dev :=
  match d.freeCtx with
  | none => d.dropSector x
  | some c =>
    let d := d.setCtx c x
    d.wr .ITB_STAT_CTXPEAK 0 (max (d.rd .ITB_STAT_CTXPEAK) d.itb.ctx.length)

/-! ### What a lane delivers (R115, R116, R122-R126, R145-R149) -/

/-- Edge `e` lies in one of the runs. -/
def inRuns (l : List FlagRun) (e : Nat) : Bool := l.any fun r => decide (r.first ≤ e) && decide (e ≤ r.last)

/-- Edge `e` lies at or behind an open beginning. -/
def onward (a : Option Nat) (e : Nat) : Bool := (a.map fun n => decide (n ≤ e)).getD false

/-- Output `e` is flagged: the union of all causes (R108, R114, R123-R127). -/
def Lane.flagged (x : Lane) (e : Nat) : Bool := inRuns x.flags e || onward x.fault e

/-- Output `e` lies under a read gate, or a verify gate in a write job (R252). -/
def Lane.gated (x : Lane) (e : Nat) : Bool := inRuns x.gates e || onward x.gateAt e

/-- Output `e` lies under the servo gate, where an even lane's detector is idle (R149). -/
def Lane.underServo (x : Lane) (e : Nat) : Bool := inRuns x.servos e || onward x.servoAt e

/-- The settings in effect when edge `e` of lane `l` was sampled (R145). -/
def Dev.settingsAt (d : Dev) (l e : Nat) : LaneSet := ((d.lane l).hist.find? fun h => decide (e ≤ h.upto)).getD (d.settingsNow l)

/-- The ADC code at edge `e`, from codes that begin at edge `base`: an overrange sample gives +63 or −64 (R126). -/
def Lane.codeAt (x : Lane) (base : Nat) (cs : Codes) (e : Nat) : Option Int :=
  if e < base then none
  else (cs[e - base]?).map fun c => if inRuns x.overs e then (if c.toInt < 0 then -64 else 63) else c.toInt

/-- The equaliser's 8-bit saturating output from a sum of code times coefficient (R115). -/
def firOut (s : Int) : Int :=
  let q := if s % 256 = 0 then s / 256 else s / 256 + bnat (Config.firUp s)
  max (-128) (min 127 q)

/-- The 16-tap sum at edge `e`, the main tap on the sample of `e` itself (R115; DEDUCED, log 72). -/
def firSum (taps : List Nat) (main : Nat) (at' : Nat → Int) (e : Nat) : Int :=
  ((List.range 16).map fun i => if e + main < i then 0 else signed 10 (taps.getD i 0) * at' (e + main - i)).sum

/-- The coefficients at edge `e`: with adaptation enabled, free values from number `n` on (log 72). -/
def LaneSet.tapsAt (s : LaneSet) (n i : Nat) : List Nat :=
  if s.adapt then (List.range 16).map fun k => Config.freeValue (n + 16 * i + k) % 1024 else s.taps

/-- The equaliser output of lane `l` at edge `e` (R115, R122), with the target then in effect (R145). -/
def Dev.equalised (d : Dev) (l base : Nat) (cs : Codes) (e : Nat) : Obs :=
  let x := d.lane l
  let s := d.settingsAt l e
  let y := firOut (firSum (s.tapsAt d.free (e - base)) s.main (fun k => (x.codeAt base cs k).getD 0) e)
  { y := if (x.codeAt base cs e).isSome then { v := y, f := x.flagged e } else { v := 0, f := true }, g := targetTaps s.tgt, la := 0 }

/-- The mean absolute code of the unflagged samples of a stretch (R118). -/
def Dev.meanCode (d : Dev) (l base : Nat) (cs : Codes) : Option Nat :=
  let x := d.lane l
  let live := (List.range cs.length).filter fun i => !x.flagged (base + i)
  if live.isEmpty then none else some ((live.map fun i => ((x.codeAt base cs (base + i)).getD 0).natAbs).sum / live.length)

/-- Samples that the commands carry before and after the positions they are about, so that the equaliser and the detector run over a
continuous stream there (R146). -/
def lapSamples : Nat := 128

/-- The edges `a` to `b` whose outputs reach the detector: under a gate, and not under a servo gate (R149, R252). -/
def Lane.heard (x : Lane) (a b : Nat) : List Nat :=
  ((List.range (b + 1 - a)).map (a + ·)).filter fun e => x.gated e && !x.underServo e

/-- The soft values of lane `l` over a stretch (R146): the streaming path, with no a priori input. -/
def Dev.streamed (d : Dev) (l scale align base : Nat) (cs : Codes) (a b : Nat) : List (Nat × Soft) :=
  let es := (d.lane l).heard (a - lapSamples) (b + lapSamples)
  es.zip (detect scale align (es.map (d.equalised l base cs)))

/-- The soft value of edge `e`; an output that reached no detector is a flagged 0. -/
def softAt (l : List (Nat × Soft)) (e : Nat) : Soft := ((l.find? fun p => p.1 == e).map Prod.snd).getD { v := 0, f := true }

/-- The edge of usable index `u`, where usable index `u0` is at edge `e0` and `u` follows it within a revolution. -/
def edgeFrom (ws : List (Nat × Nat)) (u spr u0 e0 i : Nat) : Nat :=
  e0 + (gridOf ws ((u0 + i) % max 1 u) + spr - gridOf ws (u0 % max 1 u)) % spr

/-- The edges of the `n` usable positions from index `u0`, at edge `e0`, of a job's track (R200). -/
def Job.edges (j : Job) (spr u0 e0 n : Nat) : List Nat := (List.range n).map (edgeFrom (j.windows j.w) j.u (max 1 spr) u0 e0)

/-- The outputs of a lane at `es`, as the codeword's samples are stored (R163). -/
def Dev.stored (d : Dev) (l base : Nat) (cs : Codes) (es : List Nat) : List Soft := es.map fun e => (d.equalised l base cs e).y

/-- Lane 2m's soft outputs enter the pair's delay buffer, which holds the newest 16,384 (R131). -/
def Dev.delayed (d : Dev) (m : Nat) (l : List (Nat × Soft)) : Dev :=
  let all := Tab.getD d.lnx.delay m [] ++ l
  { d with lnx := { d.lnx with delay := Tab.put d.lnx.delay m (all.drop (all.length - 16384)) } }

/-- The lead output of index `k` that waits for the trail output of the same index (R131). -/
def waiting (l : List (Nat × Soft)) (k : Nat) : Soft := softAt l.reverse k

/-- ITBTBL: a profile was not usable, or a code-table read met a parity error (R182). -/
def Dev.itbTable (d : Dev) (prof : Nat) : Dev :=
  let d := d.stick .ITB_STAT_CFGERR
  d.raise 4 prof (d.word .ITB_STAT)

/-- The two looks over the stored samples, with the target and SCALE of the context (R150). -/
def Ctx.detectLooks (x : Ctx) (pl pt : List Int) : List Soft × List Soft :=
  let join (y : List Soft) (tgt : Nat) (la : List Int) : List Obs :=
    ((List.range y.length).zip y).map fun p => { y := p.2, g := targetTaps tgt, la := la.getD p.1 0 }
  (detect x.profile.scale x.align (join x.lead x.tgt pl), detect x.profile.scale x.align (join x.trail x.tgtT pt))

/-- The combined values of a context from its two looks (R152, R153, R219). -/
def Ctx.combined (x : Ctx) (lead trail : List Soft) : List Soft :=
  if x.trailOnly then combineLooks x.profile false trail [] else combineLooks x.profile x.dual lead trail

/-- A lane has delivered its soft value for edge `e`: 40 sample clocks of equaliser and 256 of detector after it (R119, R148). -/
def Dev.softReady (d : Dev) (l e : Nat) : Bool := decide (e + 296 ≤ d.laneEdge l)

/-- The combined values of a codeword's last position can be formed: each lane that the sector is decoded from has delivered it. -/
def Dev.formed (d : Dev) (x : Ctx) (lead trail : List Nat) : Bool :=
  (x.trailOnly || d.softReady (2 * x.pair) (lead.getLastD 0)) &&
    (!(x.trailOnly || x.dual) || d.softReady (2 * x.pair + 1) (trail.getLastD 0))

/-- The combined value of the last position of context `c` has been formed (R155, R162): the context copies its profile,
code and targets, and holds a guarantee of 4 acorns (R170). `lead` and `trail`: the codes that each lane has sampled from
`lapSamples` + 15 edges before the codeword to as many behind it. `parity`: a code-table read met a parity error. -/
def Dev.sectorCapture (d : Dev) (c : Nat) (lead trail : Codes) (parity : Bool) : Dev :=
  match d.ctx? c with
  | none => d
  | some x =>
    match (if x.phase == .filling then (d.seq x.fsq).job else none) with
    | none => d
    | some j =>
      match (if parity then none else d.codeOf x.prof x.metaBytes) with
      | none => ((d.endCtx c x 7).itbTable x.prof).entryMet x.fsq (psaSlot x.psa)
      | some (pr, t) =>
        let m := x.pair
        let n := codeBits t pr.short
        let x := { x with dual := x.dual && !x.trailOnly && d.on .LANE_STAT_DUAL (2 * m) }
        let el := j.edges (d.spr m) x.u0 x.k0 n
        let et := j.edges (d.spr m) x.u0 x.k0T n
        if !d.formed x el et then d
        else
          let baseL := x.k0 - (lapSamples + 15)
          let baseT := x.k0T - (lapSamples + 15)
          let align := d.fresh % 64
          let d1 := d.used
          let index (e : Nat) : Nat := d.edgeIndex m e
          let sl := d1.streamed (2 * m) pr.scale align baseL lead x.k0 (el.getLastD 0)
          let st := d1.streamed (2 * m + 1) pr.scale align baseT trail x.k0T (et.getLastD 0)
          let queue := Tab.getD d.lnx.delay m [] ++ el.map fun e => (index e, softAt sl e)
          let x := { x with
            profile := pr, code := t, tgt := d.word .LANE_TARGET (2 * m), tgtT := d.word .LANE_TARGET (2 * m + 1),
            lead := d1.stored (2 * m) baseL lead el, trail := d1.stored (2 * m + 1) baseT trail et, align := align }
          let chan := x.combined (et.map fun e => waiting queue (index e)) (et.map (softAt st))
          let chan := if x.dual || x.trailOnly then chan else x.combined (el.map (softAt sl)) []
          let vars := channelVars t pr.short chan
          let x := { x with phase := .ready, seq := d.itb.capSeq + 1, guar := 4, first := vars, chan := chan, post := vars, msgs := [] }
          let mean := d.meanCode (2 * m) baseL lead
          let meanT := d.meanCode (2 * m + 1) baseT trail
          let d := { d1 with free := d1.free + 16 * (lead.length + trail.length), itb := { d1.itb with capSeq := d1.itb.capSeq + 1 } }
          let d := (d.loopsRun (2 * m) mean).loopsRun (2 * m + 1) meanT
          let d := if x.trailOnly then d else d.delayed m (el.map fun e => (index e, softAt sl e))
          (d.setCtx c x).entryMet x.fsq (psaSlot x.psa)

/-! ### Local iterations -/

/-- The context that runs in engine `e`. -/
def Dev.ctxInEngine (d : Dev) (e : Nat) : Option (Nat × Ctx) := d.itb.ctx.find? fun p => p.2.phase == .running e

/-- The acorns a context still holds. -/
def Ctx.holds (x : Ctx) : Nat := x.guar + x.grant

/-- The size of the grant a context asks for (R172). -/
def Ctx.asks (x : Ctx) : Nat := min x.profile.block (x.profile.bmax - x.borrowed)

/-- Place a request in the borrow queue (R172). -/
def Dev.borrow (d : Dev) (c : Nat) (x : Ctx) : Dev :=
  let urgent (k : Nat) : Bool := ((d.ctx? k).map Ctx.urg).getD false
  let q := d.itb.queue
  let q' := if x.urg then q.filter urgent ++ c :: q.filter (fun k => !urgent k) else q ++ [c]
  ({ d with itb := { d.itb with queue := q' } }).setCtx c { x with wait := 0 }

/-- The lowest free re-detection path (R150). -/
def Dev.freePath (d : Dev) : Option Nat := (List.range 32).find? fun p => !d.itb.paths.contains p

/-- Start waiting contexts on free paths, in arrival order (R150, R151). -/
def Dev.feedPaths (d : Dev) : Nat → Dev
  | 0 => d
  | n + 1 =>
    match d.itb.waitq, d.freePath with
    | c :: rest, some p =>
      let d := { d with itb := { d.itb with waitq := rest, paths := d.itb.paths ++ [p] } }
      (match d.ctx? c with
      | some x => d.setCtx c { x with phase := .redetect p }
      | none => d).feedPaths n
    | _, _ => d

/-- Advance a 48-bit counter held in two fields. -/
def Dev.tally48 (d : Dev) (lo hi : Fld) : Dev :=
  let v := d.rd lo + d.rd hi * 2 ^ 32 + 1
  (d.wr lo 0 v).wr hi 0 (v / 2 ^ 32)

/-- A converged codeword leaves the bank with its decisions on their way to CHK (R166); its decode record follows the check
(R549). -/
def Dev.converge (d : Dev) (c : Nat) (x : Ctx) : Dev :=
  let w := drecWords 0 x.iters x.globs x.dual x.urg x.corr 0 x.eras x.psa x.prof x.pair x.spent
  let z : Decoded :=
    { owner := x.owner, psa := x.psa, fseq := x.fseq, buf := x.buf, pair := x.pair, slot := psaSlot x.psa, role := x.role,
      bndry := x.bndry, gens := x.gens, bytes := infoBytes (4102 + x.metaBytes) x.post, drec := w, head := x.head,
      cal := x.cal }
  let d := d.releaseCtx c x
  { d with chk := { d.chk with queue := d.chk.queue ++ [z] } }

/-- The accounts of one completed local iteration (R169, R173): a guaranteed acorn first, then a borrowed one. -/
def Dev.chargeIteration (d : Dev) (x : Ctx) : Dev × Ctx :=
  if x.guar != 0 then
    (({ d with itb := { d.itb with guarRun := d.itb.guarRun + 1 } }).tally48 .ITB_GUARLO_COUNT .ITB_GUARHI_COUNT,
      { x with guar := x.guar - 1, iters := x.iters + 1 })
  else (d.tally48 .ITB_BORRLO_COUNT .ITB_BORRHI_COUNT,
      { x with grant := x.grant - 1, spent := x.spent + 1, iters := x.iters + 1 })

/-- After an iteration without convergence: a borrow request once the acorns are spent, re-detection after every LPG
iterations while GMAX allows, NOCONV where nothing more may be borrowed (R167, R172). -/
def Dev.afterIteration (d : Dev) (c : Nat) (x : Ctx) : Dev :=
  if x.holds = 0 && x.profile.bmax ≤ x.borrowed then d.endCtx c x 1
  else
    let again := x.iters % x.profile.lpg == 0 && decide (x.globs < x.profile.gmax)
    let x := { x with phase := if again then .waitPath else .ready }
    let d := d.setCtx c x
    let d := if again then { d with itb := { d.itb with waitq := d.itb.waitq ++ [c] } } else d
    let d := d.feedPaths 32
    if x.holds = 0 then d.borrow c ((d.ctx? c).getD x) else d

/-- Engine `e` finishes its local iteration (R165, R166). -/
def Dev.iterationEnd (d : Dev) (e : Nat) : Dev :=
  match d.ctxInEngine e with
  | none => d
  | some (c, x) =>
    let r := minSum x.code x.profile.ofs (x.post.toArray, (x.msgs ++ List.replicate (256 * x.code.circs.length - x.msgs.length) 0).toArray)
    let usc := syndrome x.code r.1
    let d := d.count .ITB_ENGSTAT_ITERS e
    let (d, x) := d.chargeIteration x
    let x := { x with post := r.1.toList, msgs := r.2.toList, usc := usc, phase := .ready }
    if usc = 0 then (d.converge c x).feedPaths 32 else d.afterIteration c x

/-! ### Re-detection -/

/-- The extrinsic values the decoder sends: posterior less channel input, held within ±31; shortened positions are left out
(R168). -/
def Ctx.extrinsic (x : Ctx) : List Int :=
  let v := channelVars x.code x.profile.short x.chan
  let all := (x.post.zip v).map fun p => clampInt 31 (p.1 - p.2)
  let k := 256 * (x.code.c - x.code.m)
  all.take (k - x.profile.short) ++ all.drop k

/-- A look's extrinsic output: its posterior less the a priori value, held within ±31; flagged stays flagged (R150). -/
def lookExtrinsic (l : List Soft) (la : List Int) : List Soft :=
  (l.zip la).map fun p => if p.1.f then p.1 else { v := clampInt 31 (p.1.v - p.2), f := false }

/-- The re-detection on path `p` ends (R150, R151, R154, R167): the channel inputs are replaced, the messages kept, and the
context is ready from the next boundary. -/
def Dev.redetectionEnd (d : Dev) (p : Nat) : Dev :=
  match d.itb.ctx.find? fun q => q.2.phase == .redetect p with
  | none => d
  | some (c, x) =>
    let la := x.extrinsic
    let looks := x.detectLooks la la
    let chan := x.combined (lookExtrinsic looks.1 la) (lookExtrinsic looks.2 la)
    let post := posterior x.code (channelVars x.code x.profile.short chan) x.msgs.toArray
    let x := { x with phase := .redone, globs := x.globs + 1, chan := chan, post := post.toList }
    let d := { d with itb := { d.itb with paths := d.itb.paths.filter (· != p) } }
    (d.setCtx c x).feedPaths 32

/-! ### The period boundary (R171-R177) -/

/-- The engines in SERVICE. -/
def Dev.servingEngines (d : Dev) : List Nat := (List.range 48).filter fun e => d.rd .ITB_ENGSTAT_STATE e == unitServ

/-- PCAP for `e` engines and the present ITB_POOL.MAX (R173). -/
def Dev.pcap (d : Dev) (e : Nat) : Nat := min (min 576 (d.rd .ITB_POOL_MAX)) (12 * e)

/-- Granted and unspent acorns of the contexts a pair captured (R174). -/
def Dev.outstanding (d : Dev) (m : Nat) : Nat := (d.itb.ctx.map fun p => if p.2.pair = m then p.2.grant else 0).sum

/-- One period older: ages count whole periods since capture, waits those since the request. -/
def Ctx.older (x : Ctx) (queued : Bool) : Ctx :=
  { x with age := if x.phase == .filling then 0 else x.age + 1, wait := if queued then x.wait + 1 else x.wait }

/-- DEADLINE in effect: lower values apply as 80 (ITB_LIMIT). -/
def Dev.deadline (d : Dev) : Nat := max 80 (d.rd .ITB_LIMIT_DEADLINE)

/-- End the contexts whose deadline has passed (R176), before step 1 so that their acorns return at this boundary (R175). -/
def Dev.expire (d : Dev) : Dev :=
  d.itb.ctx.foldl (fun d p => if d.deadline < p.2.age then d.endCtx p.1 p.2 2 else d) d

/-- End the contexts whose request has waited BWAIT periods ungranted (R176). -/
def Dev.expireWaits (d : Dev) : Dev :=
  d.itb.queue.foldl (fun d c =>
    match d.ctx? c with
    | some x => if max 1 (d.rd .ITB_LIMIT_BWAIT) < x.wait then d.endCtx c x 3 else d
    | none => d) d

/-- Grant queued requests from the head: a request blocked by the pool stops granting, one blocked by PAIRMAX is passed over
(R174). -/
def Dev.grantAll (d : Dev) : List Nat → Dev
  | [] => d
  | c :: rest =>
    match d.ctx? c with
    | none => d.grantAll rest
    | some x =>
      if d.rd .ITB_POOLLVL_LEVEL < x.asks then d
      else if d.rd .ITB_POOL_PAIRMAX < d.outstanding x.pair + x.asks then d.grantAll rest
      else
        let d := d.wr .ITB_POOLLVL_LEVEL 0 (d.rd .ITB_POOLLVL_LEVEL - x.asks)
        let d := { d with itb := { d.itb with queue := d.itb.queue.filter (· != c), grants := d.itb.grants + 1 } }
        (d.setCtx c { x with grant := x.asks, borrowed := x.borrowed + x.asks, grantAt := d.itb.grants, wait := 0 }).grantAll rest

/-- Insert by a key, least first, behind equals. -/
def insertBy (f : Nat × Ctx → Nat) (p : Nat × Ctx) : List (Nat × Ctx) → List (Nat × Ctx)
  | [] => [p]
  | q :: l => if f p < f q then p :: q :: l else q :: insertBy f p l

/-- Sort by a key. -/
def sortBy (f : Nat × Ctx → Nat) (l : List (Nat × Ctx)) : List (Nat × Ctx) := l.foldl (fun acc p => insertBy f p acc) []

/-- The contexts that get a slot of the new period, first first (R171). -/
def Dev.runOrder (d : Dev) : List (Nat × Ctx) :=
  let ready := d.itb.ctx.filter fun p => p.2.phase == .ready
  sortBy (fun p => p.2.seq) (ready.filter fun p => p.2.guar != 0) ++
    sortBy (fun p => p.2.grantAt) (ready.filter fun p => p.2.guar == 0 && p.2.grant != 0)

/-- Fill the slots of the new period with the engines in SERVICE that are free, lowest first. -/
def Dev.fillSlots (d : Dev) : Dev :=
  let free := d.servingEngines.filter fun e => (d.ctxInEngine e).isNone
  (d.runOrder.zip free).foldl (fun d x => d.setCtx x.1.1 { x.1.2 with phase := .running x.2 }) d

/-- A period boundary (R171-R176): expiries, returns, inflow, change of E, grants, waits, slots. -/
def Dev.acornPeriod (d : Dev) : Dev :=
  if !d.itb.started then d
  else
    let older := d.itb.ctx.map fun p => (p.1, p.2.older (d.itb.queue.contains p.1))
    let awake := older.map fun p => (p.1, if p.2.phase == .redone then { p.2 with phase := .ready } else p.2)
    let d := ({ d with itb := { d.itb with ctx := awake } }).expire
    let e := d.rd .ITB_STAT_ESERV
    let back := min d.itb.cap (d.rd .ITB_POOLLVL_LEVEL + d.itb.ret)
    let inflow := min d.itb.cap (back + (e - d.itb.guarRun))
    let e' := d.servingEngines.length
    let cap := d.pcap e'
    let d := { d with itb := { d.itb with ret := 0, guarRun := 0, cap := cap } }
    let d := (d.wr .ITB_STAT_ESERV 0 e').wr .ITB_POOLLVL_LEVEL 0 (min inflow cap)
    let d := if d.on .ITB_CTL_NOBORROW then d else d.grantAll d.itb.queue
    d.expireWaits.fillSlots.feedPaths 32

/-! ### Faults and engines -/

/-- A parity error is read from the context store (R182). -/
def Dev.ctxParity (d : Dev) (c : Nat) : Dev :=
  match d.ctx? c with
  | none => d
  | some x =>
    let d := d.endCtx c x 6
    (d.raise 5 x.pair (d.word .ITB_STAT)).feedPaths 32

/-- ITB_CTL.ENABLE is written; the first enable starts the period grid (R169). -/
def Dev.itbEnable (d : Dev) (b : Bool) : Dev :=
  let d := d.wrb .ITB_CTL_ENABLE 0 b
  if b then { d with itb := { d.itb with started := true } } else d

/-- An engine goes to OUT: its iteration is discarded and its context is ready again with nothing charged (R187, R189). -/
def Dev.engineOut (d : Dev) (e : Nat) : Dev :=
  let d := match d.ctxInEngine e with
    | some (c, x) => d.setCtx c { x with phase := .ready }
    | none => d
  d.wr .ITB_ENGSTAT_STATE e unitOut

/-- ITB_ENGCTL.FORCEOUT acts in any state except OFF. -/
def Dev.engineForceout (d : Dev) (e : Nat) : Dev := if d.rd .ITB_ENGSTAT_STATE e == unitOff then d else d.engineOut e

/-- ITB_ENGCTL.READMIT acts only in OUT. -/
def Dev.engineReadmit (d : Dev) (e : Nat) : Dev :=
  if d.rd .ITB_ENGSTAT_STATE e == unitOut then d.wr .ITB_ENGSTAT_STATE e unitCal else d

/-- A write of ITB_ENGCTL (R187). -/
def Dev.engCtl (d : Dev) (e w : Nat) : Dev :=
  if bit w 1 then d.engineForceout e else if bit w 2 then d.engineReadmit e else d

/-- An engine fault (R189): ENGFAIL. -/
def Dev.engineFault (d : Dev) (e : Nat) (k : EngineFault) : Dev :=
  if d.rd .ITB_ENGSTAT_STATE e != unitServ then d
  else
    let d := (d.stick (if k == .parerr then .ITB_ENGSTAT_PARERR else .ITB_ENGSTAT_TIMEOUT) e).engineOut e
    d.raise 6 e (d.word .ITB_ENGSTAT e)

/-- The self-test of an engine ends (R187, R190). -/
def Dev.selftestEnd (d : Dev) (e : Fin 48) (pass : Bool) : Dev :=
  if d.rd .ITB_ENGSTAT_STATE e != unitCal then d
  else if pass then (d.wr .ITB_ENGSTAT_STATE e unitJoin).beginWait (.joining (.engine e))
  else (d.stick .ITB_ENGSTAT_CALFAIL e).wr .ITB_ENGSTAT_STATE e unitOut

end Sys2Proof.Machine
end

