-- ==== Sys2Proof/Machine/Format.lean ====
section
/-! DEFINITION. The media format as arithmetic: recording zones (R193-R196), track positions and windows (R197-R200), slots and
roles (R201-R207), the media check value (R544), the guards (R552), and the track-parity code (R221-R227). -/

namespace Sys2Proof.Machine

/-! ### Zones (R193) -/

/-- One zone entry. -/
structure Zone where
  valid : Bool
  (index surf first prof metaSel last spr ds ps spmin sptrk gap pre mid post rpad svt spg smtol swin sm1 sm2 : Nat)
  deriving DecidableEq, Repr

/-- Zone entry `i` as it stands in table SRAM. -/
def Dev.zoneEnt (d : Dev) (i : Nat) : Zone :=
  let a := tableSram + d.rd .TPE_ZONEBASE_BASE * 4096 + 32 * i
  let w (k : Nat) : Nat := d.ld32 (a + 4 * k)
  { valid := bit (w 0) 31, index := i, surf := bits (w 0) 26 5, first := bits (w 0) 0 20, prof := bits (w 1) 26 6,
    metaSel := bits (w 1) 24 2, last := bits (w 1) 0 20, spr := bits (w 2) 0 26, ds := bits (w 3) 25 7, ps := bits (w 3) 21 4,
    spmin := bits (w 3) 15 6, sptrk := bits (w 3) 0 15, gap := bits (w 4) 24 8, pre := bits (w 4) 16 8, mid := bits (w 4) 8 8,
    post := bits (w 4) 4 4, rpad := bits (w 4) 0 4, svt := bits (w 5) 16 16, spg := bits (w 5) 8 8, smtol := bits (w 5) 5 3,
    swin := bits (w 5) 0 5, sm1 := w 6, sm2 := w 7 }

/-! ### Positions and windows (R198, R199) -/

/-- The usable run of data window `w`: its first grid position and its length, the resume pad left out. -/
def Zone.window (z : Zone) (wedges w : Nat) : Nat × Nat := windowAt z.spr z.svt z.spg z.rpad wedges w

/-- The windows of a track. -/
def Zone.windows (z : Zone) (wedges : Nat) : List (Nat × Nat) := (List.range wedges).map (z.window wedges)

/-- U (R199). -/
def Zone.usable (z : Zone) (wedges : Nat) : Nat := ((z.windows wedges).map Prod.snd).sum

/-! ### Slots and roles (R201-R207) -/

/-- Codeword bits of a zone's profile (R157). -/
def Dev.zoneBits (d : Dev) (z : Zone) : Nat :=
  let p := d.profile z.prof
  256 * bits (d.ld32 (tableSram + d.rd .ITB_CODEBASE_BASE * 8192 + p.code * 8192)) 16 8 - p.short

/-- Sector length L (R201). -/
def Dev.sectorLen (d : Dev) (z : Zone) : Nat := 8 * (z.gap + z.pre + z.mid + z.post) + 64 + d.zoneBits z

/-- Slots S of a track (R204). -/
def Dev.slotsOf (d : Dev) (z : Zone) : Nat := min 1024 (z.usable d.wedges / d.sectorLen z)

/-- `a ÷ b` rounded up. -/
def ceilDiv (a b : Nat) : Nat := (a + b - 1) / b

/-- Data members D (R205): the largest multiple of 64 that fits. -/
def dataMembers (s ds ps spmin : Nat) : Nat :=
  ((List.range (s / 64 + 1)).filter fun k => decide (64 * k + ceilDiv (64 * k) ds * ps + spmin ≤ s)).foldl (fun _ k => 64 * k) 0

/-- D of a zone. -/
def Dev.dataOf (d : Dev) (z : Zone) : Nat := dataMembers (d.slotsOf z) z.ds z.ps z.spmin

/-- Stripes of a track. -/
def Dev.stripesOf (d : Dev) (z : Zone) : Nat := ceilDiv (d.dataOf z) z.ds

/-- Data members of stripe `j` (R206). -/
def stripeData (dm ds j : Nat) : Nat := min ds (dm - j * ds)

/-- Role of a slot (R206). -/
inductive SlotRole where
  | data (member : Nat)
  | parity (stripe p : Nat)
  | spare
  deriving DecidableEq, Repr

/-- The role of slot `n` of a non-spare track. -/
def slotRole (dm ds ps n : Nat) : SlotRole :=
  let j := n / (ds + ps)
  let o := n % (ds + ps)
  if ceilDiv dm ds ≤ j then .spare
  else if o < stripeData dm ds j then .data (j * ds + o)
  else if o < stripeData dm ds j + ps then .parity j (o - stripeData dm ds j)
  else .spare

/-- The slot of data member `i`, and of parity member `p` of stripe `j`. -/
def slotOfData (ds ps i : Nat) : Nat := i / ds * (ds + ps) + i % ds
def slotOfParity (dm ds ps j p : Nat) : Nat := j * (ds + ps) + stripeData dm ds j + p

/-- A track of a zone that is spare (R207). -/
def Zone.spareTrack (z : Zone) (t : Nat) : Bool := decide (z.last + 1 ≤ t + z.sptrk)

/-- Stripe of a slot of a non-spare track, if it has one. -/
def Dev.stripeOf (d : Dev) (z : Zone) (n : Nat) : Option Nat :=
  match slotRole (d.dataOf z) z.ds z.ps n with
  | .data i => some (i / z.ds)
  | .parity j _ => some j
  | .spare => none

/-! ### Validity (R194, R195) -/

/-- Number of bits in which two 32-bit words differ. -/
def hamming (a b : Nat) : Nat := ((List.range 32).filter fun k => bit a k != bit b k).length

/-- The 32-bit windows of the preamble pattern 0, 0, 1, 1. -/
def preambleWindows : List Nat := [0x33333333, 0x66666666, 0xCCCCCCCC, 0x99999999]

/-- Conditions of R194 on the entry alone. -/
def Dev.zoneFits (d : Dev) (z : Zone) : Bool :=
  let far := 2 * z.smtol + 1
  z.valid && decide (z.first ≤ z.last) && decide (1 ≤ z.ds) && decide (z.ds ≤ 119) && decide (z.ps ≤ 8) && decide (8 ≤ z.pre) &&
    decide (2 ≤ z.mid) && decide (1 ≤ z.post) && decide (2 ≤ z.rpad) && decide (5555556 ≤ z.spr) && decide (z.spr ≤ 30000000) &&
    (d.codeOf z.prof (metaSize z.metaSel)).isSome && decide (z.ds + z.ps ≤ 120) && decide (z.svt + z.spg < rev / d.wedges) &&
    decide (2 * z.swin < 8 * z.mid + 32) && decide (far ≤ hamming z.sm1 z.sm2) &&
    preambleWindows.all (fun w => decide (far ≤ hamming z.sm1 w) && decide (far ≤ hamming z.sm2 w)) &&
    decide (64 ≤ d.dataOf z) && decide (d.stripesOf z ≤ 1023) && decide (z.sptrk < z.last + 1 - z.first)

/-- Two entries share a track. -/
def Zone.overlaps (a b : Zone) : Bool := a.surf == b.surf && decide (a.first ≤ b.last) && decide (b.first ≤ a.last)

/-- The valid zone entries, judged in ascending order (R194, R195). -/
def Dev.judgeZones (d : Dev) : List Zone :=
  (List.range (min 1024 (d.rd .TPE_ZONECNT_COUNT))).foldl (fun acc i =>
    let z := d.zoneEnt i
    if d.zoneFits z && !acc.any (fun y => y.overlaps z) then acc ++ [z] else acc) []

/-- The zone of a track: an entry CFG accepted at load (R195). -/
def Dev.zoneOf (d : Dev) (surf track : Nat) : Option Zone :=
  (d.tpe.zones.map d.zoneEnt).find? fun z => z.surf == surf && decide (z.first ≤ track) && decide (track ≤ z.last)

/-! ### The media check value (R544) and the guards (R552) -/

/-- One bit into a direct-form CRC register of `w` bits. -/
def crcBit (w g r : Nat) (b : Bool) : Nat :=
  let s := 2 * r % 2 ^ w
  if xor b (bit r (w - 1)) then Nat.xor s g else s

/-- A direct-form CRC over bytes, most significant bit first. -/
def crcBytes (w g r : Nat) (m : List Byte) : Nat := (bytesToBits m).foldl (crcBit w g) r

/-- C(seed, M) (R544). -/
def cvCore (seed : Nat) (m : List Byte) : Nat := crcBytes 48 0x2F15D8A34C6B (seed % 2 ^ 48) m

/-- F of a parity member with fill `n`; 0 for a data member (R544). -/
def foldOf : Option Nat → Nat
  | some n => (0x80 + n) % 256
  | none => 0

/-- The check value of M under a PSA and F (R544). -/
def checkValue (psa f : Nat) (m : List Byte) : Nat := Nat.xor (cvCore psa m) (Nat.xor 0xFFFFFFFFFFFF (f * 2 ^ 40))

/-- The six bytes of a check value, bit 47 first. -/
def cvBytes (cv : Nat) : List Byte := (List.range 6).map fun i => BitVec.ofNat 8 (cv / 2 ^ (8 * (5 - i)))

/-- A number from bytes, most significant first. -/
def ofBytesBE (l : List Byte) : Nat := l.foldl (fun n b => 256 * n + b.toNat) 0

/-- The 16b guard. -/
def guard16 (m : List Byte) : Nat := crcBytes 16 0x8BB7 0 m

/-- The bits of a byte in reverse order. -/
def revByte (b : Byte) : Byte := BitVec.ofNat 8 ((List.range 8).foldl (fun n k => n + bnat (b.toNat.testBit k) * 2 ^ (7 - k)) 0)

/-- The low `w` bits of `n` in reverse order. -/
def revBits (w n : Nat) : Nat := (List.range w).foldl (fun m k => m + bnat (bit n k) * 2 ^ (w - 1 - k)) 0

/-- The 64b guard: reflected in and out, all ones in and out. -/
def guard64 (m : List Byte) : Nat :=
  Nat.xor (revBits 64 (crcBytes 64 0xAD93D23594C93659 (2 ^ 64 - 1) (m.map revByte))) (2 ^ 64 - 1)

/-! ### Track parity (R221-R227) -/

/-- Multiplication in GF(2^16) with x^16 + x^12 + x^3 + x + 1. -/
def gfMul (a b : Nat) : Nat :=
  (List.range 16).foldl (fun acc k =>
    let s := 2 * acc
    let s := if s < 65536 then s else Nat.xor s 0x1100B
    if bit b (15 - k) then Nat.xor s a else s) 0

/-- `a ^ n` in GF(2^16). -/
def gfPow (a : Nat) : Nat → Nat
  | 0 => 1
  | n + 1 => gfMul a (gfPow a n)

/-- Inverse: `a ^ (2^16 − 2)` by repeated squaring. -/
def gfInv (a : Nat) : Nat :=
  ((List.range 15).foldl (fun (x : Nat × Nat) _ =>
    let s := gfMul x.1 x.1
    (s, gfMul x.2 s)) (a, 1)).2

/-- The root α of the field polynomial is x, the number 2. -/
def alpha (n : Nat) : Nat := gfPow 2 n

/-- Coefficients of g(x) below x^PS, constant term first (R221). -/
def genPoly : Nat → List Nat
  | 0 => []
  | n + 1 =>
    let g := genPoly n ++ [1]
    let r := alpha n
    ((List.range (n + 1)).map fun k => Nat.xor (gfMul r (g.getD k 0)) (if k = 0 then 0 else g.getD (k - 1) 0))

/-- x^n modulo g(x), constant term first. -/
def xPowMod (ps : Nat) : Nat → List Nat
  | 0 => (List.range ps).map fun k => if k = 0 then 1 else 0
  | n + 1 =>
    let r := xPowMod ps n
    let top := r.getD (ps - 1) 0
    let g := genPoly ps
    (List.range ps).map fun k => Nat.xor (if k = 0 then 0 else r.getD (k - 1) 0) (gfMul top (g.getD k 0))

/-- The 16-bit symbols of a member: bytes 2c and 2c + 1, the first the high half (R222). -/
def symbolsOf : List Byte → List Nat
  | a :: b :: l => (256 * a.toNat + b.toNat) :: symbolsOf l
  | _ => []

/-- Symbols as bytes. -/
def symbolBytes (l : List Nat) : List Byte := l.flatMap fun s => [BitVec.ofNat 8 (s / 256), BitVec.ofNat 8 s]

/-- The symbol of each parity member that data member `j` adds for a symbol 1: parity p is the coefficient of x^(PS−1−p). -/
def parityRow (ds ps j : Nat) : List Nat :=
  let r := xPowMod ps (ps + ds - 1 - j)
  (List.range ps).map fun p => r.getD (ps - 1 - p) 0

/-- Add data member `j` with symbols `m` to parity symbols `par` (one list per parity member, R226). -/
def addParity (ds ps j : Nat) (par : List (List Nat)) (m : List Nat) : List (List Nat) :=
  (parityRow ds ps j).zipIdx.map fun x =>
    (List.range m.length).map fun c => Nat.xor ((par.getD x.2 []).getD c 0) (gfMul x.1 (m.getD c 0))

/-- The power of x of a member of a stripe (R222). -/
def memberPower (ds ps : Nat) (parity : Bool) (i : Nat) : Nat := if parity then ps - 1 - i else ps + ds - 1 - i

/-- Syndrome `i` of one column: members as (power, symbol). -/
def gfSyndrome (i : Nat) (col : List (Nat × Nat)) : Nat :=
  col.foldl (fun s x => Nat.xor s (gfMul (alpha (i * x.1)) x.2)) 0

/-- Eliminate: a row scaled so that entry `k` is 1. -/
def gfNormal (k : Nat) (r : List Nat) : List Nat := r.map (gfMul (gfInv (r.getD k 1)))

/-- Clear entry `k` of row `r` with the pivot row `p`. -/
def gfClear (k : Nat) (p r : List Nat) : List Nat :=
  (List.range r.length).map fun c => Nat.xor (r.getD c 0) (gfMul (r.getD k 0) (p.getD c 0))

/-- Gauss-Jordan elimination of `n` unknowns on an augmented matrix; the right-hand column of the result solves it. A
Vandermonde matrix of distinct nodes has a pivot in every column among the rows left. -/
def gfSolve (n : Nat) (rows : List (List Nat)) : List Nat :=
  let final := (List.range n).foldl (fun (m : List (List Nat)) k =>
    let done := m.take k
    let rest := m.drop k
    match rest.find? fun r => r.getD k 0 != 0 with
    | none => m
    | some r =>
      let others := rest.filter fun x => x != r
      let p := gfNormal k r
      done.map (gfClear k p) ++ p :: others.map (gfClear k p)) rows
  final.map fun r => r.getD n 0

/-- The erased symbols of one column from its first syndromes, and whether the remaining syndromes are zero (R227). -/
def gfRecover (ps : Nat) (erased : List Nat) (col : List (Nat × Nat)) : List Nat × Bool :=
  let e := erased.length
  let rows := (List.range e).map fun i => erased.map (fun x => alpha (i * x)) ++ [gfSyndrome i col]
  let ys := gfSolve e rows
  let full := col ++ erased.zip ys
  (ys, (List.range (ps - e)).all fun i => gfSyndrome (e + i) full == 0)

end Sys2Proof.Machine
end

