-- ==== Sys2Proof/Machine/HostBlocks.lean ====
section
/-! DEFINITION. What a host block is: namespaces and host zones (R440, R441, R446), the fields of a command, protection
information (R442, R443, R553), where a block lies and whether it has been written (R208, R444-R446), and the changes a completed command
makes to a zone (R446-R450, R463, R562). -/

namespace Sys2Proof.Machine

/-! ### Namespaces (R440) -/

/-- A namespace table entry. -/
structure Ns where
  valid : Bool
  (csi lbaf : Nat)
  ext : Bool
  pit : Nat
  piFirst : Bool
  (nsze nsbase firstz zones zsze : Nat)
  deriving DecidableEq, Repr

/-- The table entry of namespace `n`, 1 to 16; one that CFG refused counts as VALID = 0 (R441, R663). -/
def Dev.nsEntry (d : Dev) (n : Nat) : Ns :=
  let a := tableSram + d.rd .HIF_NSTBASE_BASE * 4096 + 32 * (n - 1)
  let w (k : Nat) : Nat := d.ld32 (a + 4 * k)
  { valid := bit (w 0) 31 && !d.cfg.badNs.contains n, csi := bits (w 0) 24 4, lbaf := bits (w 0) 18 2, ext := bit (w 0) 17, pit := bits (w 0) 14 3,
    piFirst := bit (w 0) 13, nsze := w 1 + bits (w 2) 0 4 * 2 ^ 32, nsbase := w 3 + bits (w 4) 0 4 * 2 ^ 32, firstz := w 5,
    zones := w 6, zsze := w 7 }

/-- A controller's CC fields. -/
def Port.css (p : Port) : Nat := bits p.cc 4 3
def Port.ams (p : Port) : Nat := bits p.cc 11 3
def Port.enabled (p : Port) : Bool := bit p.cc 0

/-- Namespace `n` is active on a controller: CSS 0b000 admits NVM namespaces only (R425). -/
def Dev.nsActive (d : Dev) (p : Port) (n : Nat) : Option Ns :=
  if n = 0 ∨ 16 < n then none
  else
    let e := d.nsEntry n
    if e.valid && (p.css != 0 || e.csi == 0) then some e else none

/-- Metadata bytes of a namespace's format (R441), and the bytes of its protection information. -/
def Ns.meta (n : Ns) : Nat := metaSize n.lbaf
def Ns.piLen (n : Ns) : Nat := if n.pit = 0 ∨ n.lbaf = 0 then 0 else if n.lbaf = 1 then 8 else 16

/-- Bytes between blocks in the buffer (R415). -/
def Ns.stride (n : Ns) : Nat := if n.lbaf = 0 then 4096 else 4224

/-! ### Host zones (R446) -/

/-- A host zone table entry. -/
structure HZone where
  (msn state wp zcap : Nat)
  (packed zfc : Bool)
  deriving DecidableEq, Repr

/-- Address of host zone entry `i`. -/
def Dev.hzAddr (d : Dev) (i : Nat) : Nat := d.rd .HIF_HZTLO_ADDR * 4096 + d.rd .HIF_HZTHI_ADDR * 2 ^ 32 + 16 * i

/-- Host zone entry `i`. -/
def Dev.hzone (d : Dev) (i : Nat) : HZone :=
  let a := d.hzAddr i
  let w (k : Nat) : Nat := d.ld32 (a + 4 * k)
  { msn := w 0 + bits (w 1) 0 4 * 2 ^ 32, state := bits (w 1) 28 4, packed := bit (w 1) 27, zfc := bit (w 1) 26, wp := w 2,
    zcap := w 3 }

/-- Store host zone entry `i`; its reserved bits stay. -/
def Dev.setHzone (d : Dev) (i : Nat) (z : HZone) : Dev :=
  let a := d.hzAddr i
  let keep := bits (d.ld32 (a + 4)) 4 22
  (d.st32 (a + 4) (z.state * 2 ^ 28 + bnat z.packed * 2 ^ 27 + bnat z.zfc * 2 ^ 26 + keep * 16 + z.msn / 2 ^ 32)).st32 (a + 8) z.wp

/-- Zone states of the Zoned Namespace Command Set. -/
def zEmpty : Nat := 1
def zImplicit : Nat := 2
def zExplicit : Nat := 3
def zClosed : Nat := 4
def zReadOnly : Nat := 13
def zFull : Nat := 14
def zOffline : Nat := 15

/-- An open zone is active, and so is a closed one. -/
def zoneOpen (s : Nat) : Bool := s == zImplicit || s == zExplicit
def zoneActive (s : Nat) : Bool := zoneOpen s || s == zClosed

/-! ### Commands -/

/-- Dword `k` of a command. -/
def sqeDw (e : List Nat) (k : Nat) : Nat := e.getD k 0 % 2 ^ 32

def sqeOp (e : List Nat) : Nat := bits (sqeDw e 0) 0 8
def sqeCid (e : List Nat) : Nat := bits (sqeDw e 0) 16 16
def sqePsdt (e : List Nat) : Nat := bits (sqeDw e 0) 14 2
def sqeNs (e : List Nat) : Nat := sqeDw e 1
def sqeLba (e : List Nat) : Nat := sqeDw e 10 + sqeDw e 11 * 2 ^ 32
def sqeBlocks (e : List Nat) : Nat := bits (sqeDw e 12) 0 16 + 1
def sqePract (e : List Nat) : Bool := bit (sqeDw e 12) 29
def sqePrchk (e : List Nat) : Nat := bits (sqeDw e 12) 26 3
def sqeLr (e : List Nat) : Bool := bit (sqeDw e 12) 31
def sqeApp (e : List Nat) : Nat := bits (sqeDw e 15) 0 16
def sqeMask (e : List Nat) : Nat := bits (sqeDw e 15) 16 16
def sqeZsa (e : List Nat) : Nat := bits (sqeDw e 13) 0 8
def sqeAll (e : List Nat) : Bool := bit (sqeDw e 13) 8

/-- The reference tag a command names: 32 bits, or 48 with a 64b guard, whose upper part is in dword 2 (PRESUMED, log 20). -/
def sqeRef (n : Ns) (e : List Nat) : Nat :=
  sqeDw e 14 + (if n.piLen = 16 then bits (sqeDw e 2) 0 16 * 2 ^ 32 else 0)

/-- Opcodes of R433. -/
def opFlush : Nat := 0x00
def opWrite : Nat := 0x01
def opRead : Nat := 0x02
def opWriteZeroes : Nat := 0x08
def opVerify : Nat := 0x0C
def opZoneSend : Nat := 0x79
def opZoneReceive : Nat := 0x7A
def opZoneAppend : Nat := 0x7D
def opZoneAttribute : Nat := 0x84

/-- A command writes the media. -/
def writesMedia (op : Nat) : Bool := op == opWrite || op == opWriteZeroes || op == opZoneAppend

/-- A command names a range of blocks. -/
def namesBlocks (op : Nat) : Bool := writesMedia op || op == opRead || op == opVerify

/-- A completion status: type, code and Do Not Retry. -/
def status (sct sc : Nat) (dnr : Bool) : Nat := sc + sct * 256 + bnat dnr * 2 ^ 14

/-- Namespace Not Ready with CRD 1 (R426). -/
def notReady : Nat := 0x82 + 2 ^ 11

/-- An opcode is valid for a namespace's command set (R433). -/
def opValid (csi op : Nat) : Bool :=
  op == opFlush || op == opWrite || op == opRead || op == opWriteZeroes || op == opVerify ||
    (csi == 2 && (op == opZoneSend || op == opZoneReceive || op == opZoneAppend || op == opZoneAttribute))

/-- The zone of a zoned namespace that holds a block. -/
def Ns.zone (n : Ns) (lba : Nat) : Nat := lba / max 1 n.zsze

/-- A write crosses a zone (R433). -/
def Ns.crosses (n : Ns) (lba k : Nat) : Bool := n.csi == 2 && n.zone lba != n.zone (lba + k - 1)

/-- The checks HIF makes on an I/O command itself (R433, R441, R443): the status it ends with, if any. -/
def Dev.ioRefusal (d : Dev) (p : Port) (e : List Nat) : Option Nat :=
  let op := sqeOp e
  match d.nsActive p (sqeNs e) with
  | none => if op = opFlush ∧ sqeNs e = 2 ^ 32 - 1 then none else some (status 0 0x0B true)
  | some n =>
    let lba := sqeLba e
    let k := sqeBlocks e
    if !opValid n.csi op then some (status 0 0x01 true)
    else if op = opFlush then none
    else if sqePsdt e ≠ 0 then some (status 0 0x02 true)
    else if namesBlocks op then
      if (op = opWrite ∨ op = opRead ∨ op = opZoneAppend) ∧ 256 < k then some (status 0 0x02 true)
      else if op = opZoneAppend ∧ 64 < k then some (status 0 0x02 true)
      else if op = opZoneAppend ∧ lba % max 1 n.zsze ≠ 0 then some (status 0 0x02 true)
      else if n.nsze < lba + k then some (status 0 0x80 true)
      else if writesMedia op && n.crosses lba k then some (status 1 0xB8 true)
      else if n.pit = 1 ∧ n.piLen ≠ 0 ∧ bit (sqePrchk e) 0 ∧ op ≠ opZoneAppend ∧
          sqeRef n e ≠ lba % (if n.piLen = 16 then 2 ^ 48 else 2 ^ 32) then some (status 1 0x81 true)
      else none
    else if op = opZoneSend then
      let a := sqeZsa e
      if a = 0 ∨ 5 < a then some (status 0 0x02 true)
      else if sqeAll e then none
      else if n.nsze ≤ lba then some (status 0 0x80 true)
      else if lba % max 1 n.zsze ≠ 0 then some (status 0 0x02 true)
      else none
    else if op = opZoneReceive then
      if bits (sqeDw e 13) 0 8 ≠ 0 then some (status 0 0x02 true)
      else if n.nsze ≤ lba then some (status 0 0x80 true)
      else if 0x100000 < 4 * (sqeDw e 12 + 1) then some (status 0 0x02 true)
      else none
    else if lba % max 1 n.zsze ≠ 0 ∨ 65536 < n.zsze ∧ bit (sqeDw e 12) 0 then some (status 0 0x02 true)
    else if n.nsze ≤ lba then some (status 0 0x80 true)
    else none

/-! ### Protection information (R442, R443, R553) -/

/-- A block's protection information: guard, application tag and reference tag. -/
structure Pi where
  (guard app ref : Nat)
  deriving DecidableEq, Repr

/-- The bytes of `v`, `n` of them, most significant first. -/
def beBytes (v : Nat) : Nat → List Byte
  | 0 => []
  | n + 1 => BitVec.ofNat 8 (v / 256 ^ n) :: beBytes v n

/-- Where the protection information lies in the metadata. -/
def Ns.piAt (n : Ns) : Nat := if n.piFirst then 0 else n.meta - n.piLen

/-- The metadata without it. -/
def Ns.stripPi (n : Ns) (md : List Byte) : List Byte := md.take n.piAt ++ md.drop (n.piAt + n.piLen)

/-- The guard of a block: over the data, and over the metadata that goes before (R552). -/
def Ns.guardOf (n : Ns) (data md : List Byte) : Nat :=
  let m := data ++ (if n.piFirst then [] else md.take n.piAt)
  if n.piLen = 16 then guard64 m else guard16 m

/-- The fields as stored. -/
def Ns.piOf (n : Ns) (md : List Byte) : Pi :=
  let b := (md.drop n.piAt).take n.piLen
  if n.piLen = 16 then
    { guard := ofBytesBE (b.take 8), app := ofBytesBE ((b.drop 8).take 2), ref := ofBytesBE (b.drop 10) }
  else { guard := ofBytesBE (b.take 2), app := ofBytesBE ((b.drop 2).take 2), ref := ofBytesBE (b.drop 4) }

/-- The bytes of a protection information field. -/
def Ns.piBytes (n : Ns) (x : Pi) : List Byte :=
  if n.piLen = 16 then beBytes x.guard 8 ++ beBytes x.app 2 ++ beBytes x.ref 6
  else beBytes x.guard 2 ++ beBytes x.app 2 ++ beBytes x.ref 4

/-- Metadata with its protection information replaced. -/
def Ns.withPi (n : Ns) (md : List Byte) (x : Pi) : List Byte := md.take n.piAt ++ n.piBytes x ++ md.drop (n.piAt + n.piLen)

/-- Bits of a reference tag. -/
def Ns.refMod (n : Ns) : Nat := if n.piLen = 16 then 2 ^ 48 else 2 ^ 32

/-- The escape values disable checking: application tag all ones, and for type 3 the reference tag as well. -/
def Ns.escapes (n : Ns) (x : Pi) : Bool := x.app == 0xFFFF && (n.pit != 3 || x.ref == n.refMod - 1)

/-- The first check of a block that fails under PRCHK: 1 guard, 2 application tag, 3 reference tag, 0 none; `ref` is the tag
expected, and type 3 has none. -/
def Ns.piFails (n : Ns) (chk app mask ref : Nat) (data md : List Byte) : Nat :=
  if n.piLen = 0 then 0
  else
    let x := n.piOf md
    if n.escapes x then 0
    else if bit chk 2 && x.guard != n.guardOf data md then 1
    else if bit chk 1 && (x.app &&& mask) != (app &&& mask) then 2
    else if bit chk 0 && n.pit != 3 && x.ref != ref % n.refMod then 3
    else 0

/-- The tag that block `i` of a command is to carry: counted from the LBA for type 1, and from the command's tag otherwise
(R443); an append's LBA is its zone's start. -/
def Ns.refOf (n : Ns) (e : List Nat) (i : Nat) : Nat :=
  if n.pit = 1 then sqeLba e + i else sqeRef n e + i

/-- A block of host data becomes what the buffer holds (R442, R443): generated information with PRACT, else as it came; an
append's tags are counted anew from the LBA assigned. -/
def Ns.blockIn (n : Ns) (e : List Nat) (i rtlba : Nat) (data md : List Byte) : List Byte :=
  let ref := if sqeOp e = opZoneAppend then rtlba + i else n.refOf e i
  if n.piLen = 0 then md
  else if sqePract e then
    let body := if n.meta = n.piLen then List.replicate n.meta 0 else md
    n.withPi body { guard := n.guardOf data body, app := sqeApp e, ref := ref % n.refMod }
  else if sqeOp e = opZoneAppend ∧ n.pit = 1 ∧ !n.escapes (n.piOf md) then
    n.withPi md { n.piOf md with ref := ref % n.refMod }
  else md

/-- The metadata of a block as it goes to the host: PRACT strips it where it is nothing but protection information. -/
def Ns.blockOut (n : Ns) (e : List Nat) (md : List Byte) : List Byte :=
  if sqePract e ∧ n.piLen ≠ 0 ∧ n.meta = n.piLen then [] else md

/-! ### Where a block lies (R208, R209, R446) -/

/-- A layout run (R208), with the zone that holds it and that zone's data members per track. -/
structure LRun where
  (base surf first count members metaSel : Nat)
  deriving DecidableEq, Repr

def LRun.msns (r : LRun) : Nat := r.count * r.members

/-- Run `i` of the layout map, where it lies on whole tracks of one valid zone and starts at a multiple of 64 (R209). -/
def Dev.layoutRun (d : Dev) (i : Nat) : Option LRun :=
  let a := tableSram + d.rd .TPE_LAYBASE_BASE * 4096 + 16 * i
  let surf := bits (d.ld32 (a + 8)) 27 5
  let first := bits (d.ld32 (a + 8)) 0 20
  let count := bits (d.ld32 (a + 12)) 0 20
  let base := d.ld32 a + bits (d.ld32 (a + 4)) 0 4 * 2 ^ 32
  match d.zoneOf surf first with
  | none => none
  | some z =>
    if count = 0 ∨ z.last < first + count - 1 ∨ z.spareTrack (first + count - 1) ∨ base % 64 ≠ 0 then none
    else some { base := base, surf := surf, first := first, count := count, members := d.dataOf z, metaSel := z.metaSel }

/-- Two runs overlap, in MSN or in track. -/
def LRun.overlaps (a b : LRun) : Bool :=
  (decide (a.base < b.base + b.msns) && decide (b.base < a.base + a.msns)) ||
    (a.surf == b.surf && decide (a.first < b.first + b.count) && decide (b.first < a.first + a.count))

/-- The runs CFG accepts, in order. -/
def Dev.layoutRuns (d : Dev) : List LRun :=
  (List.range (d.rd .TPE_LAYCNT_COUNT)).foldl (fun acc i =>
    match d.layoutRun i with
    | some r => if acc.any r.overlaps then acc else acc ++ [r]
    | none => acc) []

/-- Surface, track and data member of a media sector number (R209). -/
def Dev.placeOf (d : Dev) (m : Nat) : Option (Nat × Nat × Nat) :=
  (d.layoutRuns.find? fun r => decide (r.base ≤ m) && decide (m < r.base + r.msns)).map fun r =>
    (r.surf, r.first + (m - r.base) / max 1 r.members, (m - r.base) % max 1 r.members)

/-- The host zone entry that holds a block of a zoned namespace, and the block's offset in it. -/
def Ns.entryOf (n : Ns) (lba : Nat) : Nat := n.firstz + n.zone lba
def Ns.offset (n : Ns) (lba : Nat) : Nat := lba % max 1 n.zsze

/-- The media sector number of a block (R446), where it has one: a packed zone keeps records instead (R563). -/
def Dev.blockMsn (d : Dev) (n : Ns) (lba : Nat) : Option Nat :=
  if n.csi = 2 then
    let z := d.hzone (n.entryOf lba)
    if z.packed ∨ z.zcap ≤ n.offset lba then none else some (z.msn + n.offset lba)
  else some (n.nsbase + lba)

/-- Surface, track and data member of a block. -/
def Dev.blockPlace (d : Dev) (n : Ns) (lba : Nat) : Option (Nat × Nat × Nat) := (d.blockMsn n lba).bind d.placeOf

/-! ### Packed zones (R562, R566, R569) -/

/-- Address of a packed directory entry and of a map slot. -/
def Dev.dirAddr (d : Dev) (i : Nat) : Nat := d.rd .CMP_DIRLO_ADDR * 2 ^ 14 + d.rd .CMP_DIRHI_ADDR * 2 ^ 32 + 8 * i
def Dev.mapAddr (d : Dev) (n : Nat) : Nat := d.rd .CMP_MAPLO_ADDR * 2 ^ 14 + d.rd .CMP_MAPHI_ADDR * 2 ^ 32 + n * 16384

/-- The map slot of host zone entry `i`. -/
def Dev.mapSlot (d : Dev) (i : Nat) : Option Nat :=
  let w := d.ld32 (d.dirAddr i)
  if i < d.rd .CMP_DIRCNT_COUNT ∧ bit w 31 then some (w % 65536) else none

/-- The lowest free map slot. -/
def Dev.freeSlot (d : Dev) : Option Nat :=
  let used := (List.range (d.rd .CMP_DIRCNT_COUNT)).filterMap d.mapSlot
  (List.range (min (d.rd .CMP_SLOTS_COUNT) (used.length + 1))).find? fun n => !used.contains n

/-- Clear the entries of a map slot. -/
def Dev.clearMap (d : Dev) (n : Nat) : Dev := d.stBytes (d.mapAddr n) (List.replicate 16384 0)

/-- PACKED is set: the lowest free slot is assigned, its entries are cleared and MP is 0; without a free slot nothing changes. -/
def Dev.packZone (d : Dev) (i : Nat) : Dev :=
  if (d.mapSlot i).isSome then d
  else match d.freeSlot with
    | some n => (((d.clearMap n).st32 (d.dirAddr i) (2 ^ 31 + n)).st32 (d.dirAddr i + 4) 0).setHzone i { d.hzone i with packed := true }
    | none => d

/-- The slot of a zone is free again, and it is packed no more. -/
def Dev.unpackZone (d : Dev) (i : Nat) : Dev :=
  let d := if (d.mapSlot i).isSome then d.st32 (d.dirAddr i) 0 else d
  d.setHzone i { d.hzone i with packed := false }

/-- Reset of a packed zone: MP is 0 and the entries are cleared; the slot is kept. -/
def Dev.clearPacked (d : Dev) (i : Nat) : Dev :=
  match d.mapSlot i with
  | some n => (d.clearMap n).st32 (d.dirAddr i + 4) 0
  | none => d

/-- The map of a packed zone holds block `o` (R566, R568). -/
def Dev.mapHolds (d : Dev) (i o : Nat) : Bool :=
  match d.mapSlot i with
  | none => false
  | some n =>
    let w := d.ld32 (d.mapAddr n + 4 * (o / 16))
    bit w 31 && decide (o % 16 ≤ bits w 27 4)

/-- What CMP has packed of a command covers block `o` of host zone entry `i`. -/
def Cmd.packed (c : Cmd) (i o : Nat) : Bool := c.comp.any fun e => e.1 == i && decide (e.2.1 ≤ o) && decide (o < e.2.1 + e.2.2)

/-- All the data of a write command is in the buffer, packed where its zone is (R28). Where an append's blocks will lie is not known
before it completes: CMP must have packed as many blocks of its zone. -/
def Dev.dataHere (d : Dev) (c : Cmd) : Bool :=
  let e := c.sqe
  let op := sqeOp e
  let k := sqeBlocks e
  let came := !(op == opWrite || op == opZoneAppend) || (List.range k).all c.got.contains
  let n := d.nsEntry (sqeNs e)
  let i := n.entryOf (sqeLba e)
  came && (!writesMedia op || n.csi != 2 || !(d.hzone i).packed ||
    if op = opZoneAppend then decide (k ≤ ((c.comp.filter fun x => x.1 == i).map fun x => x.2.2).sum)
    else (List.range k).all fun x => c.packed i (n.offset (sqeLba e) + x))

/-- CMP has packed a job's blocks into the buffer (R567): the command whose reservation holds their data has them compressed. -/
def Dev.notePacked (d : Dev) (src zone first count : Nat) : Dev :=
  let g := src / 65536 - (d.rd .SCH_BUFLO_ADDR + d.rd .SCH_BUFHI_ADDR * 2 ^ 16)
  let mine (c : Cmd) : Bool := d.sch.resv.any fun r => !r.internal && r.fseq == c.fseq && decide (r.base ≤ g) && decide (g < r.base + r.gran)
  let note (c : Cmd) : Cmd := if mine c then { c with comp := c.comp ++ [(zone, first, count)] } else c
  { d with hif := { d.hif with cmds := d.hif.cmds.map note } }

/-! ### Unwritten blocks (R444, R445, R568) -/

/-- A block is unwritten: at or above its zone's write pointer, or past the stripe that Finish filled, or not held by a packed zone's
map; in an NVM namespace, on a track that has never been written. -/
def Dev.unwritten (d : Dev) (n : Ns) (lba : Nat) : Bool :=
  if n.csi = 2 then
    let i := n.entryOf lba
    let o := n.offset lba
    let z := d.hzone i
    decide (z.wp ≤ o) || ((Tab.look d.hif.finished i).map fun e => decide (e ≤ o)).getD false || (z.packed && !d.mapHolds i o)
  else
    match d.blockPlace n lba with
    | some (s, t, _) => !(d.wsGet (ledgerIndex s t)).written
    | none => true

/-- An unwritten block as it is read: zeros, with every PI byte FFh. -/
def Ns.zeroBlock (n : Ns) : List Byte × List Byte :=
  (List.replicate 4096 0,
   List.replicate n.piAt 0 ++ List.replicate n.piLen 0xFF ++ List.replicate (n.meta - n.piAt - n.piLen) 0)

/-- Member `i` of a track is none of a host write's blocks, in an NVM namespace (R445). -/
def Dev.uncovered (d : Dev) (fseq surf track i : Nat) : Bool :=
  d.hif.cmds.any fun c =>
    let n := d.nsEntry (sqeNs c.sqe)
    c.fseq == fseq && writesMedia (sqeOp c.sqe) && n.csi == 0 &&
      !(List.range (sqeBlocks c.sqe)).any fun k => d.blockPlace n (sqeLba c.sqe + k) == some (surf, track, i)

/-! ### What a write must have proven (R29, R445) -/

/-- What a write command has written so far. -/
def Dev.writeLog (d : Dev) (fseq : Nat) : WriteLog :=
  Tab.getD d.sch.writes fseq { named := [], passed := [], noSpare := false }

/-- The track of a member, and its stripe: every member of the track where a whole track is written. -/
def Dev.provenWith (d : Dev) (whole : Bool) (p : Nat × Nat × Nat) : List Nat :=
  match d.zoneOf p.1 p.2.1 with
  | none => []
  | some z =>
    let key (n : Nat) : Nat := mkPsa p.1 p.2.1 n 0
    let parity (j : Nat) : List Nat := (List.range z.ps).map fun k => key (slotOfParity (d.dataOf z) z.ds z.ps j k)
    if whole then
      ((List.range (d.dataOf z)).map fun i => key (slotOfData z.ds z.ps i)) ++ (List.range (d.stripesOf z)).flatMap parity
    else key (slotOfData z.ds z.ps p.2.2) :: parity (p.2.2 / z.ds)

/-- The parity members of a member's stripe. -/
def Dev.provenAlong (d : Dev) (key : Nat) : List Nat :=
  match d.zoneOf (psaSurf key) (psaTrack key) with
  | none => [key]
  | some z => match slotRole (d.dataOf z) z.ds z.ps (psaSlot key) with
    | .data i => d.provenWith false (psaSurf key, psaTrack key, i)
    | _ => [key]

/-- The members that the completion of a write waits for, with the parity that covers them (R29): those of its blocks, and in an NVM
namespace of their whole tracks (R445); of a packed zone, those that its jobs name. `lba`: where its blocks lie. -/
def Dev.provenNeeds (d : Dev) (e : List Nat) (lba : Nat) (w : WriteLog) : List Nat :=
  let n := d.nsEntry (sqeNs e)
  let blocks := if writesMedia (sqeOp e) then (List.range (sqeBlocks e)).filterMap fun k => d.blockPlace n (lba + k) else []
  w.named.flatMap d.provenAlong ++ blocks.flatMap (d.provenWith (n.csi == 0))

/-- Every member that a write has written has passed verify, and so has every parity member that covers it (R29): a command that writes
the media has named some. -/
def Dev.provenAt (d : Dev) (c : Cmd) (lba : Nat) : Bool :=
  let w := d.writeLog c.fseq
  (!writesMedia (sqeOp c.sqe) || !w.named.isEmpty) && (d.provenNeeds c.sqe lba w).all w.passed.contains

/-! ### What a completed command does to a zone (R446-R450) -/

/-- Finish fills the stripe that holds the write pointer (R448): the first block past it, of a zone that is not packed. -/
def Dev.finishEnd (d : Dev) (z : HZone) : Nat :=
  match d.placeOf (z.msn + z.wp) with
  | none => z.zcap
  | some (s, t, i) => match d.zoneOf s t with
    | none => z.zcap
    | some y => min z.zcap (z.wp - i + min (d.dataOf y) ((i / y.ds + 1) * y.ds))

/-- Note how far a finished zone is written; a packed zone's map says it (R568). -/
def Dev.noteFinish (d : Dev) (i : Nat) : Dev :=
  let z := d.hzone i
  if z.packed then d else { d with hif := { d.hif with finished := Tab.put d.hif.finished i (d.finishEnd z) } }

/-- A zone action on host zone entry `i`, where the zone's state admits it. -/
def Dev.zoneAct (d : Dev) (i zsa : Nat) : Dev :=
  let z := d.hzone i
  match zsa with
  | 1 => if zoneOpen z.state then d.setHzone i { z with state := if z.wp = 0 then zEmpty else zClosed } else d
  | 2 =>
    if zoneActive z.state || z.state == zEmpty then (d.noteFinish i).setHzone i { z with state := zFull, wp := z.zcap } else d
  | 3 => if zoneActive z.state || z.state == zEmpty then d.setHzone i { z with state := zExplicit } else d
  | 4 =>
    if zoneActive z.state || z.state == zFull then
      let d := { d with hif := { d.hif with finished := Tab.del d.hif.finished i } }
      (d.setHzone i { z with state := zEmpty, wp := 0, zfc := false }).clearPacked i
    else d
  | 5 => if z.state = zReadOnly then (d.setHzone i { z with state := zOffline }).unpackZone i else d
  | _ => d

/-- With Select All an action takes the zones its own rule names: Open the closed ones, Close the open ones, Finish and Reset
those that are not Empty. -/
def Dev.zoneActAll (d : Dev) (i zsa : Nat) : Dev :=
  let s := (d.hzone i).state
  match zsa with
  | 3 => if s = zClosed then d.zoneAct i 3 else d
  | 2 => if zoneActive s then d.zoneAct i 2 else d
  | _ => d.zoneAct i zsa

/-- Blocks up to offset `o` have been written: the write pointer moves, a zone that was not open opens implicitly, and a zone
at its capacity is full. -/
def Dev.zoneWritten (d : Dev) (i o : Nat) : Dev :=
  let z := d.hzone i
  let w := max z.wp o
  let s := if z.zcap ≤ w then zFull else if zoneOpen z.state then z.state else zImplicit
  d.setHzone i { z with wp := w, state := s }

/-- Fetch sequence `a` is earlier than `b` (R431). -/
def earlier (a b : Nat) : Bool :=
  let k := subMod 32 b a
  decide (0 < k) && decide (k < 2 ^ 31)

/-- The zone that a command names, of a zoned namespace, is that of `z`. -/
def Ns.sameZone (n : Ns) (e z : List Nat) : Bool := sqeNs e == sqeNs z && n.zone (sqeLba e) == n.zone (sqeLba z)

/-- A write of the same zone that was fetched earlier is in flight. -/
def Dev.writesAhead (d : Dev) (n : Ns) (fseq : Nat) (e : List Nat) : Bool :=
  d.hif.cmds.any fun c => writesMedia (sqeOp c.sqe) && earlier c.fseq fseq && n.sameZone c.sqe e

/-- Zones of a namespace that are active, of which 4,096 may be (R447); with as many open zones allowed, open ones cannot run out first. -/
def Dev.activeZones (d : Dev) (n : Ns) : Nat := ((List.range n.zones).filter fun k => zoneActive (d.hzone (n.firstz + k)).state).length

/-- The zone rule that a write breaks (R433, R447, R454): its zone is full, read only or offline, it does not start at the write pointer, or
it would make one zone too many active. The write pointer is judged once no earlier write of the zone is in flight (log 97). -/
def Dev.writeRule (d : Dev) (n : Ns) (fseq : Nat) (e : List Nat) : Option Nat :=
  let z := d.hzone (n.entryOf (sqeLba e))
  let off := n.offset (sqeLba e)
  let ahead := d.writesAhead n fseq e
  if z.state = zFull then some 0xB9
  else if z.state = zReadOnly then some 0xBA
  else if z.state = zOffline then some 0xBB
  else if sqeOp e ≠ opZoneAppend ∧ (off < z.wp ∨ z.wp < off ∧ !ahead) then some 0xBC
  else if z.state = zEmpty ∧ 4096 ≤ d.activeZones n then some 0xBD
  else none

/-- The zone rule that a read breaks: a zone of its range is offline (R454). -/
def Dev.readRule (d : Dev) (n : Ns) (e : List Nat) : Option Nat :=
  let a := n.zone (sqeLba e)
  let b := n.zone (sqeLba e + sqeBlocks e - 1)
  if (List.range (b + 1 - a)).any fun k => (d.hzone (n.firstz + a + k)).state == zOffline then some 0xBB else none

/-- Invalid Zone State Transition (R463), the zone rules of reads and writes (R454), and Capacity Exceeded of Zone Attribute without a free map slot (R562): what stands for the
success of a command that its zone's state does not admit, if anything. -/
def Dev.zoneRefusal (d : Dev) (n : Ns) (fseq : Nat) (e : List Nat) : Option Nat :=
  let op := sqeOp e
  let i := n.entryOf (sqeLba e)
  let s := (d.hzone i).state
  let admits := match sqeZsa e with
    | 1 => zoneActive s
    | 2 | 4 => zoneActive s || s == zEmpty || s == zFull
    | 3 => zoneActive s || s == zEmpty
    | 5 => s == zReadOnly
    | _ => true
  if n.csi ≠ 2 then none
  else if writesMedia op then (d.writeRule n fseq e).map fun c => status 1 c true
  else if op = opRead ∨ op = opVerify then (d.readRule n e).map fun c => status 1 c true
  else if op = opZoneSend ∧ !sqeAll e ∧ !admits then some (status 1 0xBF true)
  else if op = opZoneSend ∧ !sqeAll e ∧ sqeZsa e = 3 ∧ s = zEmpty ∧ 4096 ≤ d.activeZones n then some (status 1 0xBD true)
  else if op = opZoneAttribute ∧ s ≠ zEmpty then some (status 1 0xBF true)
  else if op = opZoneAttribute ∧ bit (sqeDw e 12) 0 ∧ (d.mapSlot i).isNone ∧ d.freeSlot.isNone then some (status 0 0x81 true)
  else none

/-- What posting a completion changes in the zone table (R446, R449): success applies the command; Capacity Exceeded finishes
a packed zone at its write pointer with ZFC; a write that failed for want of a spare target makes the zone Read Only. -/
def Dev.zoneCompletion (d : Dev) (n : Ns) (e : List Nat) (noSpare : Bool) (st dw0 dw1 : Nat) : Dev :=
  if n.csi ≠ 2 then d
  else
    let op := sqeOp e
    let i := n.firstz + n.zone (sqeLba e)
    let code := st % 2048
    if code = 0x081 ∧ writesMedia op then d.setHzone i { d.hzone i with state := zFull, zfc := true }
    else if code = 0x280 ∧ noSpare ∧ writesMedia op then d.setHzone i { d.hzone i with state := zReadOnly }
    else if code ≠ 0 then d
    else if op = opZoneAppend then d.zoneWritten i ((dw0 + dw1 * 2 ^ 32) % max 1 n.zsze + sqeBlocks e)
    else if writesMedia op then d.zoneWritten i (sqeLba e % max 1 n.zsze + sqeBlocks e)
    else if op = opZoneSend then
      if sqeAll e then (List.range n.zones).foldl (fun d k => d.zoneActAll (n.firstz + k) (sqeZsa e)) d
      else d.zoneAct i (sqeZsa e)
    else if op = opZoneAttribute then (if bit (sqeDw e 12) 0 then d.packZone i else d.unpackZone i)
    else d

end Sys2Proof.Machine
end

