-- ==== Sys2Proof/Machine/Sync.lean ====
section
/-! DEFINITION. Sync results and the claim of a context (R217-R220), the check of a decoded sector (R546-R551), and the track
parity engine: encoding (R226), reconstruction (R227-R230), spares, reallocation and the defect map (R231-R237). -/

namespace Sys2Proof.Machine

/-! ### The defect map (R234) -/

/-- The defect map's address. -/
def Dev.defAddr (d : Dev) : Nat := d.rd .TPE_DEFLO_ADDR * 2 ^ 12 + d.rd .TPE_DEFHI_ADDR * 2 ^ 32

/-- One map entry (R234): source, kind, target. -/
structure MapEntry where
  (surf track slot kind tsurf ttrack tslot : Nat)
  deriving DecidableEq, Repr

/-- The four words of an entry. -/
def MapEntry.words (e : MapEntry) : List Nat :=
  [e.surf * 2 ^ 26 + e.track * 2 ^ 6, e.slot * 2 ^ 22 + e.kind * 2 ^ 20, e.tsurf * 2 ^ 26 + e.ttrack * 2 ^ 6, e.tslot * 2 ^ 22]

/-- Entry `i` of the map. -/
def Dev.mapEntry (d : Dev) (i : Nat) : MapEntry :=
  let a := d.defAddr + 16 * i
  { surf := bits (d.ld32 a) 26 6, track := bits (d.ld32 a) 6 20, slot := bits (d.ld32 (a + 4)) 22 10,
    kind := bits (d.ld32 (a + 4)) 20 2, tsurf := bits (d.ld32 (a + 8)) 26 6, ttrack := bits (d.ld32 (a + 8)) 6 20,
    tslot := bits (d.ld32 (a + 12)) 22 10 }

/-- Sort key of an entry (R234). -/
def MapEntry.key (e : MapEntry) : Nat := (e.surf * 2 ^ 20 + e.track) * 2 ^ 10 + e.slot

/-- The map. -/
def Dev.defectMap (d : Dev) : List MapEntry := (List.range (d.rd .TPE_DEFCNT_COUNT)).map d.mapEntry

/-- Track and slot that hold the member of a slot now: where the map has moved it to, or its own (R231). -/
def Dev.heldIn (d : Dev) (surf track n : Nat) : Nat × Nat :=
  ((d.defectMap.find? fun e => e.kind != 2 && e.surf == surf && e.track == track && e.slot == n).map fun e =>
    (e.ttrack, e.tslot)).getD (track, n)

/-- The track and slot whose member a slot holds: the source of the map entry that has it as its target, or the member of the
reallocation that writes it, else itself (R231, R233, R234). -/
def Dev.memberOf (d : Dev) (surf track n : Nat) : Nat × Nat :=
  match d.defectMap.find? fun e => e.kind != 2 && e.tsurf == surf && e.ttrack == track && e.tslot == n with
  | some e => (e.track, e.slot)
  | none =>
    match d.tpe.moves.find? fun m => m.surf == surf && m.tgt == some (track, n) with
    | some m => (m.track, m.slot)
    | none => (track, n)

/-- The role of what a slot holds: that of the member it serves; a slot of a spare track that serves none is spare (R207, R231). -/
def Dev.roleOf (d : Dev) (z : Zone) (surf track n : Nat) : SlotRole :=
  let m := d.memberOf surf track n
  if z.spareTrack m.1 then .spare else slotRole (d.dataOf z) z.ds z.ps m.2

/-- Stripe of the member that a slot holds, if it holds one (R206, R231). -/
def Dev.memberStripe (d : Dev) (z : Zone) (surf track n : Nat) : Option Nat :=
  match d.roleOf z surf track n with
  | .data i => some (i / z.ds)
  | .parity j _ => some j
  | .spare => none

/-! ### The sync search (R217, R218, R267) -/

/-- Buffer stride of a META code (R415). -/
def bufStride (metaSel : Nat) : Nat := if metaSel = 0 then 4096 else 4224

/-- The zone of a job. -/
def Dev.jobZone (d : Dev) (j : Job) : Zone := d.zoneEnt j.zone

/-- Usable index of a slot's expected SM1 position (R217). -/
def Job.sm1 (j : Job) (z : Zone) (n : Nat) : Nat := n * j.l + 8 * (z.gap + z.pre)

/-- Where a lane's search looks: usable index at which its SM1 window begins, the lane's edge there, and its edge at the end of the
SM2 window, the first such after ARM (R217, R267). -/
structure Window where
  (u e last : Nat)
  deriving DecidableEq, Repr

/-- The window of an armed search. -/
def Dev.window (d : Dev) (j : Job) (x : Search) : Window :=
  let z := d.jobZone j
  let ws := j.windows j.w
  let u := max 1 j.u
  let spr := max 1 (d.spr j.pair)
  let first := (j.sm1 z x.slot + u - z.swin) % u
  let kEnd := gridOf ws ((j.sm1 z x.slot + 32 + 8 * z.mid + 31 + z.swin) % u)
  let last := x.arm + (kEnd + spr - x.arm % spr) % spr
  { u := first, e := last - (kEnd + spr - gridOf ws first) % spr, last := last }

/-- Offsets of ±`w` in the order of preference: nearest first, and then the earlier one (R217). -/
def offsets (w : Nat) : List Int := 0 :: (List.range w).flatMap fun k => [-((k : Int) + 1), (k : Int) + 1]

/-- The best candidate: the fewest mismatches, the first in order on ties (R217). -/
def bestAt (miss : Int → Nat) (l : List Int) : Int := l.foldl (fun b o => if miss o < miss b then o else b) 0

/-- The search over the sign bits `bitAt` of usable positions counted from the window's first: result and offset (R217). -/
def searchMarks (z : Zone) (bitAt : Nat → Option Bool) : Nat × Int :=
  let miss (mark first : Nat) (o : Int) : Nat :=
    ((List.range 32).filter fun i => bitAt (((first + i : Nat) : Int) + o).toNat != some (bit mark (31 - i))).length
  let m1 := miss z.sm1 z.swin
  let m2 := miss z.sm2 (z.swin + 32 + 8 * z.mid)
  let o1 := bestAt m1 (offsets z.swin)
  let o2 := bestAt m2 (offsets z.swin)
  if m1 o1 ≤ z.smtol then (if m2 o1 ≤ z.smtol then 0 else 1, o1)
  else if m2 o2 ≤ z.smtol then (2, o2) else (3, 0)

/-- The sign bit of a lane's output at each usable position of a window; a flagged output, or one under no open gate, gives none, and
counts as a mismatch (R217, R267, R268). Codes begin 15 edges before the window. -/
def Dev.signBits (d : Dev) (l : Nat) (j : Job) (x : Search) (v : Window) (cs : Codes) : List (Option Bool) :=
  let z := d.jobZone j
  (j.edges (d.spr j.pair) v.u v.e (2 * z.swin + 64 + 8 * z.mid)).map fun e =>
    let o := (d.equalised l (v.e - 15) cs e).y
    if o.f || !(d.lane l).gated e || decide (e < x.since) then none else some (decide (o.v < 0))

/-- What a lane declares for an armed search (R217, R218). -/
def Dev.searchResult (d : Dev) (l : Nat) (j : Job) (x : Search) (cs : Codes) : SyncRes :=
  let z := d.jobZone j
  let v := d.window j x
  let bs := d.signBits l j x v cs
  let (res, o) := searchMarks z fun i => (bs[i]?).getD none
  let i := ((z.swin : Int) + o).toNat
  let at' (k : Nat) : Nat := edgeFrom (j.windows j.w) j.u (max 1 (d.spr j.pair)) v.u v.e k
  if res = 3 then { res := 3, index := 0, u0 := 0, e0 := 0 }
  else
    let k := i + 64 + 8 * z.mid
    { res := res, index := d.edgeIndex j.pair (at' i), u0 := (v.u + k) % max 1 j.u, e0 := at' k }

/-! ### Sync results (R218-R220) -/

/-- The permitted generations of a slot by the stripe of the member it holds (R215, R546). A slot that holds no member is tried
under both (DEDUCED, log 12). -/
def permittedGens (stripe : Option Nat) (bstripe gen : Nat) : List Nat :=
  let before := (gen + 4095) % 4096
  match stripe with
  | some j => if j < bstripe then [gen] else if bstripe < j then [before] else [gen, before]
  | none => [gen, before]

/-- The context a pair claims for slot `n` of its job (R163). -/
def Dev.newCtx (d : Dev) (s : Nat) (j : Job) (n : Nat) : Ctx :=
  let z := d.jobZone j
  let e := (j.entries.find? fun e => e.slot == n).getD { slot := n, role := 0, bufIdx := 0 }
  let stripe := d.memberStripe z j.surf j.track n
  { phase := .filling, head := j.head, cal := j.kind == 2, seq := 0, pair := j.pair, fsq := s, owner := j.owner, urg := j.urg,
    psa := mkPsa j.surf j.track n j.gen, bndry := stripe == some j.bstripe, role := e.role % 2,
    gens := permittedGens stripe j.bstripe j.gen, zone := j.zone, fseq := j.fseq,
    buf := j.buf + e.bufIdx * bufStride j.metaSel,
    prof := d.recovProf j.fseq (mkPsa j.surf j.track n j.gen) j.prof (d.profile j.prof).alt,
    profile := { valid := false, code := 0, short := 0, scale := 0, wl := 0, wt := 0, ws := 0, bmax := 0, block := 0,
                 gmax := 0, lpg := 0, ofs := 0, alt := 0 },
    code := { c := 0, m := 0, circs := [] }, dual := false, trailOnly := false, k0 := 0, k0T := 0, u0 := 0,
    metaBytes := metaSize j.metaSel, lead := [], trail := [], tgt := 0, tgtT := 0, first := [], chan := [], post := [],
    msgs := [], guar := 0, grant := 0, grantAt := 0, borrowed := 0, spent := 0, align := 0, iters := 0, globs := 0, usc := 0,
    age := 0, wait := 0 }

/-- The context still filling for slot `n` of pair `m`. -/
def Dev.fillingCtx (d : Dev) (m n : Nat) : Option (Nat × Ctx) :=
  d.itb.ctx.find? fun p => p.2.phase == .filling && p.2.pair == m && psaSlot p.2.psa == n

/-- The lead lane has declared for slot `n` of a read job: a found mark claims a context (R163, R219). -/
def Dev.leadDeclared (d : Dev) (s : Nat) (j : Job) (n : Nat) (r : SyncRes) (trailArmed : Bool) : Dev :=
  if r.res = 3 then d
  else d.claimCtx { d.newCtx s j n with dual := d.on .LANE_STAT_DUAL (2 * j.pair) && trailArmed, k0 := r.e0, u0 := r.u0 }

/-- The trail lane has declared: it joins the lead lane's capture, slips (R132), or captures trail-only (R219); with NONE of both lanes
the sector enters the recovery sequence (R220). -/
def Dev.trailDeclared (d : Dev) (s : Nat) (j : Job) (n : Nat) (r : SyncRes) (lead : Option SyncRes) : Dev :=
  if (lead.map fun x => x.res != 3).getD false then
    let slip := r.res != 3 && (lead.map fun x => x.index != r.index).getD false
    let d := if slip then d.stick .LANE_STAT_SLIP (2 * j.pair + 1) else d
    match d.fillingCtx j.pair n with
    | some (c, y) => d.setCtx c { y with dual := y.dual && r.res != 3 && !slip, k0T := r.e0 }
    | none => d
  else if r.res = 3 then
    if j.kind = 0 && lead.isSome then d.sectorFailed j.owner j.fseq (mkPsa j.surf j.track n j.gen) j.head none false else d
  else d.claimCtx { d.newCtx s j n with trailOnly := true, k0T := r.e0, u0 := r.u0 }

/-- Count FOUND_SM2MISS, FALLBACK and NONE in the track's record (R220, R588). -/
def Dev.countSync (d : Dev) (j : Job) (r : Nat) : Dev :=
  if r = 0 then d else d.updStat (ledgerIndex j.surf j.track) fun e => { e with w3 := satField e.w3 24 8 1 }

/-- A lane declares a result for its active search (R218): it is counted, kept for its slot, and, but for a write job, where it
aligns the verify comparison, decides the capture (R219, R220). -/
def Dev.declareSync (d : Dev) (s : Nat) (j : Job) (lead : Bool) (n : Nat) (r : SyncRes) : Dev :=
  let d := d.countSync j r.res
  let q := d.seq s
  let q' := if lead then { q with srchLead := q.srchLead.drop 1, foundL := r.res != 3, leadRes := Tab.put q.leadRes n r }
    else { q with srchTrail := q.srchTrail.drop 1, foundT := r.res != 3, trailRes := Tab.put q.trailRes n r }
  let d := d.setSeq s q'
  if j.kind = 1 then d
  else if lead then d.leadDeclared s j n r (q.srchTrail.any fun x => x.slot == n)
  else d.trailDeclared s j n r (Tab.look q.leadRes n)

/-- Lane `l` declares the result of its active search, once its last output of the SM2 window has come (R119, R218). `cs`: the codes
it has sampled from 15 edges before the window to 15 behind it. -/
def Dev.syncDeclare (d : Dev) (l : Nat) (cs : Codes) : Dev :=
  match d.slotOfPair (l / 2) with
  | none => d
  | some s =>
    let q := d.seq s
    let lead := l % 2 == 0
    match q.job, (if lead then q.srchLead else q.srchTrail) with
    | some j, x :: _ =>
      let v := d.window j x
      if d.laneEdge l < v.last + 40 then d
      else
        let r := d.searchResult l j x cs
        let d' := { d with free := d.free + 16 * cs.length }
        (d'.loopsRun l (d.meanCode l (v.e - 15) cs)).declareSync s j lead x.slot r
    | _, _ => d

/-! ### The check of a decoded sector (R546-R551) -/

/-- The check status word's address for a buffer address (R549). -/
def Dev.statusAddr (d : Dev) (buf : Nat) : Nat :=
  let pool := d.rd .SCH_BUFLO_ADDR * 2 ^ 16 + d.rd .SCH_BUFHI_ADDR * 2 ^ 32
  tableSram + d.rd .CHK_STBASE_BASE * 2 ^ 16 + 4 * ((buf - pool) / 4096)

/-- Write a check status word. -/
def Dev.putStatus (d : Dev) (buf result gen1 fill psa : Nat) : Dev :=
  d.st32 (d.statusAddr buf) (result * 2 ^ 28 + gen1 * 2 ^ 27 + fill % 128 * 2 ^ 20 + psaSlot psa * 2 ^ 10 + psaTrack psa % 2 ^ 10)

/-- The PSA with another generation. -/
def withGen (psa g : Nat) : Nat := psa - psa % 4096 + g % 4096

/-- D of a decoded sector under a seed (R546). -/
def checkDiff (psa : Nat) (bytes : List Byte) : Nat :=
  let n := bytes.length - 6
  Nat.xor (cvCore psa (bytes.take n)) (Nat.xor (ofBytesBE (bytes.drop n)) 0xFFFFFFFFFFFF)

/-- The pass condition of a role (R546). -/
def rolePasses (role x : Nat) : Bool :=
  if role = 0 then x == 0 else x % 2 ^ 40 == 0 && decide (0x80 ≤ x / 2 ^ 40) && decide (x / 2 ^ 40 ≤ 0xF7)

/-- The outcome of a check: result, the generation that passed, the observed fill. -/
def Decoded.judge (z : Decoded) : Nat × Nat × Nat :=
  let xs := z.gens.map fun g => (g, checkDiff (withGen z.psa g) z.bytes)
  match xs.find? fun x => rolePasses z.role x.2 with
  | some (g, x) => (0, g, if z.role = 0 then 0 else x / 2 ^ 40 % 128)
  | none => (if xs.any fun x => rolePasses (1 - z.role) x.2 then 2 else 1, 0, 0)

/-- The media path stores bytes in the buffer; where that does not exist it ends in a bus error (R37). -/
def Dev.mediaBytes (d : Dev) (a : Nat) (bs : List Byte) : Dev :=
  if d.rangeExists a bs.length then d.putBytes a bs else d.emit (.busError reqMedia)

/-- CHK judges the sector that has waited longest (R546-R549, R551), while it is enabled. -/
def Dev.sectorCheck (d : Dev) : Dev :=
  match d.chk.queue with
  | [] => d
  | z :: rest =>
    if !d.on .CHK_CTL_ENABLE then d
    else
      let d := { d with chk := { d.chk with queue := rest } }
      let (res, g, fill) := z.judge
      let older := res == 0 && g != psaGen z.psa
      let first := withGen z.psa (z.gens.headD (psaGen z.psa))
      let d := if res = 0 then d.mediaBytes z.buf (z.bytes.take (z.bytes.length - 6))
        else
          let d := (d.count .CHK_CNT_FAIL).stick (if res = 1 then .CHK_STAT_FAIL else .CHK_STAT_ROLE)
          (d.wr .CHK_FAILLO_PSA 0 first).wr .CHK_FAILHI_PSA 0 (first / 2 ^ 32)
      let d := if older then d.count .CHK_CNT_GEN1 else d
      let d := d.putStatus z.buf res (bnat older) fill z.psa
      let d := d.postDrec z.owner z.drec z.head z.cal
      if z.cal then d
      else if res = 0 then d.sectorGood z.fseq z.psa
      else d.sectorFailed z.owner z.fseq z.psa z.head (some (bits (z.drec.getD 1 0) 16 16)) true

/-! ### Reconstruction (R227-R230) -/

/-- The zone of a request's track. -/
def Dev.reconZone (d : Dev) (r : ReconReq) : Option Zone := d.zoneOf r.surf r.track

/-- Members given as erasures. -/
def erasedOf (r : ReconReq) : List Member := r.members.filter fun m => !m.ok

/-- The TPE refuses a request (R228). -/
def Dev.reconRefused (d : Dev) (r : ReconReq) : Bool :=
  match d.reconZone r with
  | none => true
  | some z =>
    let b := (d.wsGet (ledgerIndex r.surf r.track)).bound
    z.ps == 0 || decide (z.ps - 1 < (erasedOf r).length) || (decide (b < d.stripesOf z) && b == r.stripe) || r.parityBad ||
      !d.on .TPE_CTL_RECON

/-- Report a result to the owner: the spec does not state the arguments of a RECON trigger (free values, log 3). -/
def Dev.reconReport (d : Dev) (owner : Nat) : Dev :=
  let n := d.free
  let f (k : Nat) : Nat := Config.freeValue (n + k) % 2 ^ 32
  ({ d with free := n + 4 }).ceTrigger owner tRecon 0 (f 0) (f 1) (f 2) (f 3)

/-- Take up waiting requests while fewer than four run (R230); a refused one is counted and reported. -/
def Dev.reconFeed (d : Dev) : Nat → Dev
  | 0 => d
  | n + 1 =>
    match d.tpe.queue with
    | [] => d
    | r :: rest =>
      if !d.on .TPE_CTL_ENABLE || decide (4 ≤ d.tpe.recon.length) then d
      else
        let d := { d with tpe := { d.tpe with queue := rest } }
        (if d.reconRefused r then ((d.recovVain r.owner ((erasedOf r).map Member.psa)).count .TPE_RECON_REFUSED).reconReport r.owner
         else { d with tpe := { d.tpe with recon := d.tpe.recon ++ [r] } }).reconFeed n

/-- A level-2 request reaches the TPE (R227, R228, R230). -/
def Dev.reconRequest (d : Dev) (r : ReconReq) : Dev :=
  let o := d.ownerId r.owner
  let d := ({ d with tpe := { d.tpe with queue := d.tpe.queue ++ [{ r with owner := o }] } }).recovAsk o ((erasedOf r).map Member.psa)
  d.reconFeed d.tpe.queue.length

/-- A member's symbols from its buffer. -/
def Dev.memberSymbols (d : Dev) (bytes : Nat) (m : Member) : List Nat := symbolsOf (d.ldBytes m.buf bytes)

/-- The erased members of a stripe, column by column, and whether every check syndrome is zero (R222, R227). -/
def Dev.recover (d : Dev) (z : Zone) (r : ReconReq) : List (List Nat) × Bool :=
  let bytes := 4096 + metaSize z.metaSel
  let pow (m : Member) : Nat := memberPower z.ds z.ps m.parity m.index
  let known := (r.members.filter fun m => m.ok && (m.parity || decide (m.index < r.fill))).map fun m =>
    (pow m, d.memberSymbols bytes m)
  let cols := (List.range (bytes / 2)).map fun c =>
    gfRecover z.ps ((erasedOf r).map pow) (known.map fun k => (k.1, k.2.getD c 0))
  ((List.range (erasedOf r).length).map fun i => cols.map fun c => c.1.getD i 0, cols.all Prod.snd)

/-- The members of a stripe as the TPE reads them from their buffers: one that cannot be read is an erasure (R528). -/
def Dev.readMembers (d : Dev) (bytes : Nat) : List Member → Dev × List Member
  | [] => (d, [])
  | m :: l =>
    let x := if m.ok then d.readCheck reqMedia m.buf bytes else (d, true)
    let y := (if x.2 then x.1 else x.1.emit (.busError reqMedia)).readMembers bytes l
    (y.1, { m with ok := m.ok && x.2 } :: y.2)

/-- The k-th running reconstruction ends (R229, R230, R550): recovered members go to their buffers with status RECON. -/
def Dev.reconEnd (d : Dev) (k : Nat) : Dev :=
  match d.tpe.recon[k]? with
  | none => d
  | some r =>
    let d := { d with tpe := { d.tpe with recon := d.tpe.recon.eraseIdx k } }
    match d.reconZone r with
    | none => d
    | some z =>
      let (d, ms) := d.readMembers (4096 + metaSize z.metaSel) r.members
      let r := { r with members := ms }
      let (syms, ok) := d.recover z r
      let d := if ok && decide ((erasedOf r).length < z.ps) then
          let d := ((erasedOf r).zip syms).foldl (fun d x => (d.mediaBytes x.1.buf (symbolBytes x.2)).putStatus x.1.buf 3 0 0 x.1.psa) d
          (d.recovDone r.owner ((erasedOf r).map Member.psa)).count .TPE_RECON_OK 0 (erasedOf r).length
        else (d.recovVain r.owner ((erasedOf r).map Member.psa)).count .TPE_RECON_FAIL
      (d.reconReport r.owner).reconFeed d.tpe.queue.length

/-- A parity error in an encode context (of slot `s`), or in the running reconstruction `k` (R612, TPE_STAT.ACCPAR): the job
is abandoned, a reconstruction is put back to be retried, and TPEPAR is raised. -/
def Dev.tpeParity (d : Dev) (s : Nat) (k : Option Nat) : Dev :=
  let d := d.stick .TPE_STAT_ACCPAR
  let d := match k with
    | some i => match d.tpe.recon[i]? with
      | some r => { d with tpe := { d.tpe with recon := d.tpe.recon.eraseIdx i, queue := d.tpe.queue ++ [r] } }
      | none => d
    | none => ({ d with tpe := { d.tpe with enc := Tab.del d.tpe.enc s } }).abandon s 1
  let d := d.raise 7 s (d.word .TPE_STAT)
  d.reconFeed d.tpe.queue.length

/-! ### Spares and the defect map (R231-R237) -/

/-- Insert an entry in order; one of the same source is replaced (R234: no source is repeated). -/
def insertEntry (e : MapEntry) : List MapEntry → List MapEntry
  | [] => [e]
  | x :: l => if e.key < x.key then e :: x :: l else if e.key = x.key then e :: l else x :: insertEntry e l

/-- Write the map back. -/
def Dev.putMap (d : Dev) (l : List MapEntry) : Dev :=
  (d.stWords d.defAddr (l.flatMap MapEntry.words)).wr .TPE_DEFCNT_COUNT 0 l.length

/-- The bitmap byte and bit of a track (R235). -/
def Dev.bitmapSet (d : Dev) (surf track : Nat) : Dev :=
  let i := ledgerIndex surf track
  let a := tableSram + d.rd .TPE_DEFBMP_BASE * 2 ^ 16 + i / 8
  d.st8 a (BitVec.ofNat 8 (setBit (d.ld8 a).toNat (i % 8)))

/-- The map has room for an entry (R237). -/
def Dev.mapTakes (d : Dev) (e : MapEntry) : Bool := decide ((insertEntry e d.defectMap).length ≤ d.rd .TPE_DEFMAX_MAX)

/-- Spare slots of a track in ascending order. -/
def Dev.spareSlots (d : Dev) (z : Zone) (t : Nat) : List Nat :=
  (List.range (d.slotsOf z)).filter fun n =>
    z.spareTrack t || slotRole (d.dataOf z) z.ds z.ps n == .spare

/-- Spare slots of a zone, and those of them not taken. -/
def Dev.spareCount (d : Dev) (z : Zone) : Nat × Nat :=
  let l := d.defectMap
  let per (t : Nat) : Nat := (d.spareSlots z t).length
  let all := (List.range (z.last + 1 - z.first)).foldl (fun n k => n + per (z.first + k)) 0
  let spare (t n : Nat) : Bool := z.first ≤ t && t ≤ z.last && (d.spareSlots z t).contains n
  let taken := (l.filter fun e =>
    (e.kind != 2 && e.tsurf == z.surf && spare e.ttrack e.tslot) || (e.kind == 2 && e.surf == z.surf && spare e.track e.slot)).length
  (all, all - taken)

/-- Available Spare (R607). -/
def Dev.availSpare (d : Dev) : Nat :=
  d.tpe.zones.foldl (fun m i => let (n, f) := d.spareCount (d.zoneEnt i); if n = 0 then m else min m (100 * f / n)) 100

/-- The spares trigger (R605) with AVAIL brought up to date. -/
def Dev.checkSpares (d : Dev) : Dev :=
  let a := d.availSpare
  let d := d.wr .HLT_REPL_AVAIL 0 a
  if a < d.rd .HLT_PLAN_SPARETH then d.replace 1 else d

/-- Insert a map entry and its bitmap bit, and judge what spares are left (R605), in one step of the model, so that a lookup by another command sees the map wholly before or
wholly after it (R236; an insertion may fall between the loads of one search: DESIGN CHOICE, log 82); at DEFMAX it is refused, and HLT
is told of the member, or of the member being moved, that stays (R237). -/
def Dev.mapInsert (d : Dev) (e : MapEntry) (member : Nat) : Dev :=
  if d.mapTakes e then ((d.putMap (insertEntry e d.defectMap)).bitmapSet e.surf e.track).checkSpares
  else
    let d := d.stick .TPE_STAT_DEFFULL
    { d with hlt := { d.hlt with unmoved := if d.hlt.unmoved.contains member then d.hlt.unmoved else d.hlt.unmoved ++ [member] } }

/-- The TPE inserts an entry after the restore: no FACTORY entry, which only the image supplies, and none of the reserved kind (R234,
R669). -/
def Dev.defectInsert (d : Dev) (e : MapEntry) : Dev :=
  if d.on .CFG_STAT_RESTORED && (e.kind == 0 || e.kind == 2) then d.mapInsert e (mkPsa e.surf e.track e.slot 0) else d

/-- A slot is taken: the map has it as a target, or retired it. The former target of a member that has moved again is no entry's
target any more, and counts as free (DESIGN CHOICE, log 83). -/
def slotTaken (l : List MapEntry) (s t n : Nat) : Bool :=
  l.any fun e => (e.kind != 2 && e.tsurf == s && e.ttrack == t && e.tslot == n) ||
    (e.kind == 2 && e.surf == s && e.track == t && e.slot == n)

/-- A slot is free for a reallocation: neither taken nor being written by another. -/
def Dev.slotFree (d : Dev) (s t n : Nat) : Bool :=
  !slotTaken d.defectMap s t n && !d.tpe.moves.any fun m => m.surf == s && m.tgt == some (t, n)

/-- The target the TPE chooses (R232): the lowest free spare slot of the track, then that of the first spare track. -/
def Dev.spareTarget (d : Dev) (z : Zone) (t : Nat) : Option (Nat × Nat) :=
  let free (u : Nat) : Option (Nat × Nat) := ((d.spareSlots z u).find? fun n => d.slotFree z.surf u n).map fun n => (u, n)
  (free t).or ((List.range z.sptrk).findSome? fun k => free (z.last + 1 - z.sptrk + k))

/-! ### Reallocation (R231-R233, R476) -/

/-- The member a reallocation moves. -/
def Move.member (m : Move) : Nat := mkPsa m.surf m.track m.slot 0

/-- The PSA of the member a reallocation moves, and of its target. -/
def Move.source (m : Move) : Nat := mkPsa m.surf m.track m.slot m.gen
def Move.target (m : Move) (t n : Nat) : Nat := mkPsa m.surf t n m.gen

/-- Replace a reallocation under way. -/
def Dev.setMove (d : Dev) (m : Move) : Dev :=
  { d with tpe := { d.tpe with moves := d.tpe.moves.map fun x => if x.member == m.member then m else x } }

/-- A reallocation ends: its track locks return. -/
def Dev.endMove (d : Dev) (m : Move) : Dev :=
  { d with tpe := { d.tpe with moves := d.tpe.moves.filter fun x => x.member != m.member },
           sch := { d.sch with locks := d.sch.locks.filter fun e => e.2 != .move m.member } }

/-- The lock of track `t` is free for a reallocation, or its own, or that of the command it serves. -/
def Dev.mayLock (d : Dev) (m : Move) (t : Nat) : Bool :=
  match Tab.look d.sch.locks (m.surf * 1048576 + t) with
  | none => true
  | some b => b == .move m.member || (m.cmd.map LockBy.host) == some b

/-- Take a track's lock, unless the command that the reallocation serves holds it. -/
def Dev.lockFor (d : Dev) (m : Move) (t : Nat) : Dev :=
  let k := m.surf * 1048576 + t
  if (Tab.look d.sch.locks k).isSome then d
  else { d with sch := { d.sch with locks := Tab.put d.sch.locks k (.move m.member) } }

/-- The write command that a reallocation serves has found no target (R310, R449). -/
def Dev.noteNoSpare (d : Dev) (m : Move) : Dev :=
  match m.cmd with
  | none => d
  | some f => { d with sch := { d.sch with writes := Tab.put d.sch.writes f { d.writeLog f with noSpare := true } } }

/-- A waiting reallocation gets its target, and the locks of its source and spare track together, once both can be had (R232, R233,
R476); with no target the member stays in place and HLT is told (R605). -/
def Dev.moveStart (d : Dev) (m : Move) : Dev :=
  match d.zoneOf m.surf m.track with
  | none => d.endMove m
  | some z =>
    match d.spareTarget z m.track with
    | none => (((d.endMove m).noteNoSpare m).event 0x401 m.surf m.source (m.source / 2 ^ 32) 0).replace 1
    | some (t, n) =>
      if d.mayLock m m.track && d.mayLock m t then ((d.lockFor m m.track).lockFor m t).setMove { m with tgt := some (t, n) } else d

/-- HLT, or a write command that could not write it in place (`cmd`, R309), orders the member of a slot moved: a data or parity
member of a non-spare track (R231), from CFG_RESTORE.DONE on (R669). -/
def Dev.reallocate (d : Dev) (surf track slot gen : Nat) (cmd : Option Nat) : Dev :=
  let m : Move := { surf := surf, track := track, slot := slot, gen := gen, cmd := cmd, tgt := none }
  let fits := match d.zoneOf surf track with
    | some z => !z.spareTrack track && d.roleOf z surf track slot != .spare
    | none => false
  if !d.on .CFG_STAT_RESTORED || !fits || d.tpe.moves.any (fun x => x.member == m.member) then d
  else
    ({ d with tpe := { d.tpe with moves := d.tpe.moves ++ [m] },
              hlt := { d.hlt with cands := d.hlt.cands.filter fun p => p / 4096 != m.source / 4096 } }).moveStart m

/-- The reallocations that wait for their locks try again. -/
def Dev.moveWaiting (d : Dev) : Dev := (d.tpe.moves.filter fun m => m.tgt.isNone).foldl Dev.moveStart d

/-- The reallocation that writes slot `n` of a track. -/
def Dev.moveOf (d : Dev) (surf track n : Nat) : Option Move :=
  d.tpe.moves.find? fun m => m.surf == surf && m.tgt == some (track, n)

/-- The write of a reallocation's target is judged (R233). PASS inserts the map entry. A failure retires the target, whose entry has no
target of its own (0 in its fields: DESIGN CHOICE, log 84), and the next is tried; at DEFMAX the member stays in place (R237). A
target that was not written, or whose stream was missing, or that went elsewhere is written again (R309). -/
def Dev.moveJudged (d : Dev) (m : Move) (t n res : Nat) : Dev :=
  if res = 0 then
    let e : MapEntry := { surf := m.surf, track := m.track, slot := m.slot, kind := 0, tsurf := m.surf, ttrack := t, tslot := n }
    let g := m.target t n
    let s := m.source
    let ok := d.mapTakes e
    let d := (d.mapInsert e s).endMove m
    if ok then d.event 0x402 m.surf s g (g / 2 ^ 32 + s / 2 ^ 32 * 2 ^ 16) else d
  else if 6 ≤ res then d
  else
    let e : MapEntry := { surf := m.surf, track := t, slot := n, kind := 2, tsurf := 0, ttrack := 0, tslot := 0 }
    let ok := d.mapTakes e
    let d := d.mapInsert e m.source
    if ok then
      let x := { m with tgt := none }
      let locks := d.sch.locks.filter fun l => l.2 != .move m.member || l.1 == m.surf * 1048576 + m.track
      (({ d with sch := { d.sch with locks := locks } }).setMove x).moveStart x
    else d.endMove m

end Sys2Proof.Machine
end

