-- ==== Sys2Proof/Machine/Write.lean ====
section
/-! DEFINITION. The write path: preparing a sector (R284-R287) with its track parity (R226), starting and ending a slot under the
fence (R288-R292), off-track detection and the guard (R293-R296), front-end faults (R297, R298), and verify (R299-R307). -/

namespace Sys2Proof.Machine

/-! ### Preparing a sector (R284-R287) -/

/-- An encode context for a stripe: from zero, or from the stripe's stored parity, whose members lie in the buffer from
`stored` (R226). -/
def Dev.encStart (d : Dev) (z : Zone) (j : Job) (stripe : Nat) (stored : Option StoredParity) : EncCtx :=
  let n := (4096 + metaSize j.metaSel) / 2
  match stored with
  | some p =>
    { stripe := stripe, fill := p.fill, surf := j.surf, track := j.track, order := j.order,
      par := (List.range z.ps).map fun k => symbolsOf (d.ldBytes (p.buf + k * bufStride j.metaSel) (2 * n)) }
  | none => { stripe := stripe, fill := 0, surf := j.surf, track := j.track, order := j.order, par := (List.range z.ps).map fun _ => List.replicate n 0 }

/-- The encode context of slot `s` for a stripe: the one its job has begun, or a new one. -/
def Dev.encFor (d : Dev) (s : Nat) (z : Zone) (j : Job) (stripe : Nat) (stored : Option StoredParity) : EncCtx :=
  match Tab.look d.tpe.enc s with
  | some c => if c.stripe = stripe && c.order == j.order then c else d.encStart z j stripe stored
  | none => d.encStart z j stripe stored

/-- Add data member `i` of the stripe, unless the context covers it (R226). -/
def EncCtx.add (c : EncCtx) (z : Zone) (i : Nat) (m : List Byte) : EncCtx :=
  if i < c.fill then c else { c with fill := i + 1, par := addParity z.ds z.ps i c.par (symbolsOf m) }

/-- Set the encode context of a slot. -/
def Dev.setEnc (d : Dev) (s : Nat) (c : EncCtx) : Dev := { d with tpe := { d.tpe with enc := Tab.put d.tpe.enc s c } }

/-- The codeword bits of M with its check value under a profile (R157, R284, R285). -/
def Dev.codeword (d : Dev) (j : Job) (psa fold : Nat) (m : List Byte) : List Bool :=
  match d.codeOf j.prof (metaSize j.metaSel) with
  | some (p, t) => encodeBits t p.short (bytesToBits (m ++ cvBytes (checkValue psa fold m)))
  | none => []

/-- Writes of the member in the command so far are counted by HLT's ledger of verify records: ATTEMPT of R304 is carried by the
descriptor's owner as an operand of PREP. -/
def Dev.addPrep (d : Dev) (s : Nat) (e : Entry) (idx psa attempt : Nat) (lost : Bool) (code : List Bool) : Dev :=
  let w := d.wslot s
  let p : Prep := { entry := idx, slot := e.slot, role := e.role % 2, psa := psa, attempt := attempt, code := code, ready := false,
                    started := false, lost := lost }
  d.setWslot s { w with prep := w.prep ++ [p] }

/-- The stripe and parity index of a parity entry, list position `idx`: those of the member its slot holds; of a slot that holds none
yet, the stripe of the context and the place among the list's parity entries (DEDUCED, log 85). -/
def Dev.parityPlace (d : Dev) (s : Nat) (z : Zone) (j : Job) (e : Entry) (idx : Nat) : Nat × Nat :=
  match d.roleOf z j.surf j.track e.slot with
  | .parity k p => (k, p)
  | _ => (((Tab.look d.tpe.enc s).map EncCtx.stripe).getD j.bstripe, ((j.entries.take idx).filter fun x => x.role == 3).length)

/-- A data member that the first write to a track of an NVM namespace takes as zeros: one that the command does not cover (R445). -/
def Dev.zeroFilled (d : Dev) (j : Job) (e : Entry) (role : SlotRole) : Bool :=
  let t := (d.memberOf j.surf j.track e.slot).1
  match role with
  | .data i => d.hlt.fresh.contains (ledgerIndex j.surf t) && d.uncovered j.fseq j.surf t i
  | _ => false

/-- The data of a write command's sector could not be read from the buffer: the command is to fail (R528). -/
def Dev.noteLost (d : Dev) (fseq : Nat) : Dev :=
  if d.hif.cmds.any fun c => c.fseq == fseq then
    { d with sch := { d.sch with writes := Tab.put d.sch.writes fseq { d.writeLog fseq with lost := true } } }
  else d

/-- WDS PREP of the current entry `e`, position `idx` of the list, as its role says (R284): a parity member takes its symbols from
the slot's encode context; a data member is taken from the buffer, and added to the context where it stands in a stripe. Data that
cannot be read from the buffer end in a bus error of the media path, and the sector is never ready (R37, R526-R528). -/
def Dev.prepEntry (d : Dev) (s : Nat) (j : Job) (e : Entry) (idx attempt : Nat) (stored : Option StoredParity) : Dev :=
  let z := d.jobZone j
  let psa := mkPsa j.surf j.track e.slot j.gen
  if e.role % 2 = 1 then
    let (stripe, p) := d.parityPlace s z j e idx
    let c := d.encFor s z j stripe stored
    let m := symbolBytes (c.par.getD p [])
    (d.setEnc s c).addPrep s e idx psa attempt false (d.codeword j psa (foldOf (some c.fill)) m)
  else
    let a := j.buf + e.bufIdx * bufStride j.metaSel
    let n := 4096 + metaSize j.metaSel
    let role := d.roleOf z j.surf j.track e.slot
    let zero := d.zeroFilled j e role
    let (d, ok) := if zero then (d, true) else d.readCheck reqMedia a n
    if !ok then ((d.emit (.busError reqMedia)).addPrep s e idx psa attempt true []).noteLost j.fseq
    else
      let bytes := if zero then List.replicate n 0 else d.ldBytes a n
      let d := match role with
        | .data i => if z.ps = 0 then d else d.setEnc s ((d.encFor s z j (i / z.ds) stored).add z (i % z.ds) bytes)
        | _ => d
      d.addPrep s e idx psa attempt false (d.codeword j psa 0 bytes)

/-- A PREP must wait: WRF or, where parity is needed, the TPE is disabled, or two prepared sectors are held (R270). -/
def Dev.prepStalls (d : Dev) (s : Nat) (j : Job) : Bool :=
  decide (2 ≤ (d.wslot s).prep.length) || !d.on .WRF_CTL_ENABLE || ((d.jobZone j).ps != 0 && !d.on .TPE_CTL_ENABLE)

/-- The oldest sector not ready becomes ready (R286); the order of PREPs keeps R287. -/
def markReady : List Prep → List Prep
  | [] => []
  | p :: l => if p.ready || p.lost then p :: markReady l else { p with ready := true } :: l

/-- PREP_READY. -/
def Dev.prepReady (d : Dev) (s : Nat) : Dev :=
  let w := d.wslot s
  d.setWslot s { w with prep := markReady w.prep }

/-- Discard the oldest prepared sector that has not started (WDS CANCEL). -/
def dropUnstarted : List Prep → List Prep
  | [] => []
  | p :: l => if p.started then p :: dropUnstarted l else l

/-! ### Emission (R288-R292) -/

/-- First position past the last codeword position of slot `n` of a job, from the slot's first usable index (R201). -/
def Dev.codeEnd (d : Dev) (j : Job) (n : Nat) : Nat := n * j.l + j.l - 8 * (d.jobZone j).post

/-- The writer has passed the codeword of the slot it is over. -/
def Dev.pastCode (d : Dev) (s : Nat) (j : Job) (n : Nat) : Bool :=
  let (u, _) := d.counterAt s 2
  decide (d.codeEnd j n ≤ u) && decide (u < (n + 1) * j.l)

/-- Apply `f` to the emission of slot `n`. -/
def Wslot.onEmit (w : Wslot) (n : Nat) (f : Emit → Emit) : Wslot :=
  { w with emits := w.emits.map fun e => if e.slot = n then f e else e }

/-- The output goes idle to the end of the present slot (R290); where that leaves codeword positions unwritten, the slot is not
written (R291). -/
def Dev.goIdle (d : Dev) (s : Nat) : Dev :=
  let d := d.idleOutput s
  let w := d.wslot s
  match (d.seq s).job, w.cur with
  | some j, some n =>
    if d.pastCode s j n then d.setWslot s { w with idleSlot := true }
    else d.setWslot s { (w.onEmit n fun e => { e with written := false }) with idleSlot := true }
  | _, _ => d

/-- A fence condition of R290 fails on slot `s`. -/
def Dev.fenceFails (d : Dev) (s : Nat) : Bool := ((d.seq s).job.map fun j => !d.fence s j).getD false

/-- The output of slot `s` goes idle where a fence condition fails (R290). -/
def Dev.checkFence (d : Dev) (s : Nat) : Dev := if d.fenceFails s then d.goIdle s else d

/-- Every writer is checked. -/
def Dev.checkFences (d : Dev) : Dev := (List.range 32).foldl Dev.checkFence d

/-- The prepared PSA names the job's surface and track and the slot under the writer (R290). -/
def psaFits (j : Job) (n psa : Nat) : Bool := psaSurf psa == j.surf % 64 && psaTrack psa == j.track && psaSlot psa == n

/-- The preamble pattern from the first position of a field (R202). -/
def preamble (n : Nat) : List Bool := (List.range n).map fun i => decide (2 ≤ i % 4)

/-- A sync mark, bit 31 first (R202). -/
def markBits (m : Nat) : List Bool := (List.range 32).map fun i => bit m (31 - i)

/-- The fields of a slot in order (R201). -/
def Zone.slotBits (z : Zone) (code : List Bool) : List Bool :=
  preamble (8 * z.gap) ++ preamble (8 * z.pre) ++ markBits z.sm1 ++ preamble (8 * z.mid) ++ markBits z.sm2 ++ code ++
    preamble (8 * z.post)

/-- The positions of a slot with its resume pads: `spr` edges a revolution, `at'` the edge launched before, and the slot's usable
positions by edge. A resume pad that the open gate crosses carries the preamble pattern, afresh (R200, R202; log 89). -/
def wired (spr rpad : Nat) : Nat → List (Nat × Bool) → List WBit
  | _, [] => []
  | at', (e, b) :: l =>
    let put (e : Nat) (b : Bool) : WBit := { edge := e, k := e % spr, bit := b }
    let pad := if e = at' + 1 then [] else ((preamble (8 * rpad)).zipIdx).map fun p => put (e - 8 * rpad + p.2) p.1
    pad ++ put e b :: wired spr rpad e l

/-- The edge of the usable position that follows the one at `e`, of usable index `u`. -/
def Job.nextEdge (j : Job) (spr u e : Nat) : Nat := edgeFrom (j.windows j.w) j.u (max 1 spr) u e 1

/-- The open write gate reaches the first position of slot `n`, on edge `e` of the writer's synthesiser (R265, R288, R290-R292); `at'`: the
edge before it, or that of the last position of the slot before where the gate was open over both and the output drove. -/
def Dev.startSlot (d : Dev) (s : Nat) (j : Job) (n e at' : Nat) : Dev :=
  let es := j.edges (d.spr (32 + s)) (n * j.l) e j.l
  let w := { d.wslot s with endAt := es.getLastD e + 1, nextAt := none }
  match w.prep.find? fun p => !p.started with
  | none => d.setWslot s { w with cur := some n, idleSlot := false }
  | some p =>
    if p.slot != n then d.setWslot s { w with cur := some n, idleSlot := false }
    else
      let drive := p.ready && d.fence s j && psaFits j n p.psa
      let x : Emit := { entry := p.entry, slot := n, role := p.role, psa := p.psa, attempt := p.attempt, code := p.code,
                        driven := drive, written := drive, surf := surfOfHead (w.selHead.getD j.head),
                        tracks := w.lastTrk.toList, job := j,
                        cut := d.rd .LANE_STAT_STATE (2 * j.pair + 1) != unitServ && d.rd .LANE_STAT_STATE (2 * j.pair + 1) != unitCal }
      let prep := w.prep.map fun q => if q.slot = n then { q with started := true } else q
      let wire := if drive then wired (max 1 (d.spr (32 + s))) j.rpad at' (es.zip ((d.jobZone j).slotBits p.code)) else []
      let early := [(0, d.rd .WRF_PRECOMP_EARLY1 s, d.rd .WRF_PRECOMP_EARLY2 s)]
      let d := d.setWslot s { w with prep := prep, cur := some n, emits := w.emits ++ [x], idleSlot := !drive, wire := wire, early := early }
      let d := d.wrb .WRF_SSTAT_DRIVING s drive
      if p.ready then d else (d.stick .WRF_SSTAT_UNDERRUN s).stick .WRF_STAT_UNDERRUN

/-- The writer passes the last position of the slot it is over: the sector is no longer held, and a DONE of its entry takes
effect (R249, R286). -/
def Dev.endSlot (d : Dev) (s : Nat) : Dev :=
  let w := d.wslot s
  match w.cur with
  | none => d
  | some n =>
    let d := d.launchTo s w.endAt
    let w := d.wslot s
    let d := d.setWslot s { w with prep := w.prep.filter (fun p => !(p.started && p.slot == n)), cur := none, idleSlot := false }
    (d.wr .WRF_SSTAT_DRIVING s 0).entryMet s n

/-- A host command has had the write gate of one of its members opened (R455). -/
def Dev.markBegun (d : Dev) (fseq : Nat) : Dev :=
  let mark (c : Cmd) : Cmd := if c.fseq == fseq then { c with begun := true } else c
  { d with hif := { d.hif with cmds := d.hif.cmds.map mark } }

/-- A write-gate action takes effect on edge `e`: an OPEN starts the slot it names; `at'` as in `Dev.startSlot`. -/
def Dev.setWg (d : Dev) (s : Nat) (j : Job) (a : GateAct) (e at' : Nat) : Dev :=
  let d := d.setSeq s { d.seq s with wg := a.opens }
  match a.opens, a.slot with
  | true, some n => (d.startSlot s j n e at').markBegun j.fseq
  | _, _ => d

/-- The action of the write queue that the end of slot `n` brings due: a CLOSE at or inside the slot, or an OPEN of the next (R265). -/
def slotAction (j : Job) (n : Nat) : List GateAct → Option (GateAct × List GateAct)
  | [] => none
  | a :: rest =>
    let next := (n + 1) * j.l
    let due := match a.target with
      | none => !a.opens
      | some t => if a.opens then t == next else decide (n * j.l < t) && decide (t ≤ next)
    if due then some (a, rest) else none

/-- The writer of slot `s`, its gate open, reaches the first position of slot `n + 1` on edge `e`: the actions due there act, and a gate
still open goes on with that slot (R265, R288, R291). -/
def Dev.nextSlot (d : Dev) (s : Nat) (j : Job) (n e : Nat) : Dev :=
  let w := d.wslot s
  let d := d.setWslot s { w with nextAt := none }
  let at' := match w.last with
    | some x => if x.edge + 1 = w.endAt then x.edge else e - 1
    | none => e - 1
  let q := d.seq s
  match slotAction j n q.wgq with
  | some (a, rest) =>
    let d := (d.setSeq s { q with wgq := rest }).setWg s j a e at'
    match (if a.opens then none else slotAction j n rest) with
    | some (b, rest') => if b.opens then (d.setSeq s { d.seq s with wgq := rest' }).setWg s j b e at' else d
    | none => d
  | none => if q.wg && decide (n + 1 < j.slots) then (d.startSlot s j (n + 1) e at').markBegun j.fseq else d

/-- The slots that writer `s` has passed by now, at most `fuel` ends and beginnings: a sector ends behind its last position, and the next
begins where its first one lies (R286, R288). -/
def Dev.writerPass (d : Dev) (s : Nat) : Nat → Dev
  | 0 => d
  | fuel + 1 =>
    let w := d.wslot s
    match (d.seq s).job with
    | none => d
    | some j =>
      let now := (d.ctrEdges s j 2).1
      match w.cur, w.nextAt with
      | some n, _ =>
        if now < w.endAt then d
        else
          let e := j.nextEdge (d.spr (32 + s)) ((n + 1) * j.l - 1) (w.endAt - 1)
          let d := d.endSlot s
          (d.setWslot s { d.wslot s with nextAt := some (n, e) }).writerPass s fuel
      | none, some (n, e) => if now < e then d else (d.nextSlot s j n e).writerPass s fuel
      | none, none => d

/-- Every writer moves on over its slots as time has passed. -/
def Dev.writersPass (d : Dev) : Dev := d.wrf.slots.foldl (fun d e => d.writerPass e.1 2048) d

/-- A parity error in the codeword being emitted (R289). -/
def Dev.prepParity (d : Dev) (s : Nat) : Dev :=
  let w := d.wslot s
  match w.cur with
  | none => d
  | some n =>
    if !(w.emits.any fun e => e.slot == n && e.driven) then d
    else
      let d := d.setWslot s { (w.onEmit n fun e => { e with written := false }) with idleSlot := true }
      let d := (d.idleOutput s).stick .WRF_STAT_WRFPAR
      d.raise 13 s (d.word .WRF_SSTAT s)

/-! ### Off-track detection and the guard (R293-R296) -/

/-- SRV_SMP0 of a head. -/
def Dev.smp0 (d : Dev) (h : Nat) : Nat := d.word .SRV_SMP0 h

/-- An off-track detection for head `h`, bound to slot `s` (R293). -/
def Dev.offTrack (d : Dev) (h s : Nat) : Dev :=
  let d := d.setWslot s { d.wslot s with offTrk := true, latestOk := false }
  let d := (d.stick .WRF_STAT_OFFTRK).stick .WRF_GSTAT_OFFTRK (actOfHead h)
  (d.raise 10 h (d.smp0 h)).goIdle s

/-- A trip of the guard of actuator `a` (R295, R296): by the position error, or by a shock sample. -/
def Dev.guardTrip (d : Dev) (a : Nat) (pes : Bool) : Dev :=
  let d := ((d.wr .WRF_GSTAT_INHIBIT a 1).count .WRF_GSTAT_TRIPS a).stick .WRF_STAT_GUARD
  let d := d.stick (if pes then .WRF_GSTAT_PESTRIP else .WRF_GSTAT_SHKTRIP) a
  let d := { d with wrf := { d.wrf with clean := Tab.put d.wrf.clean a 0 } }
  let d := d.event 0x220 a (d.word .WRF_GSTAT a) 0 0
  (List.range 8).foldl (fun d k => d.checkFence (8 * a + k)) d

/-- A valid sample of head `h`, track `t` and position error `e`, reaches WRF (R293-R295). -/
def Dev.wrfSample (d : Dev) (h t : Nat) (e : Int) : Dev :=
  match d.slotOfHead h with
  | none => d
  | some s =>
    let a := actOfHead h
    let w := d.wslot s
    let right := ((d.seq s).job.map fun j => j.track == t).getD false
    let within := decide (e.natAbs ≤ d.rd .WRF_ONTRK_LIMIT a)
    let w := match w.cur with
      | some n => w.onEmit n fun x => { x with tracks := x.tracks ++ [t] }
      | none => w
    let ok := right && within
    let d := d.setWslot s { w with lastTrk := some t, onTrack := w.onTrack || right, latestOk := ok,
                                   offTrk := if ok then false else w.offTrk }
    let d := if d.on .WRF_GUARD_PESEN a && decide (d.rd .WRF_GUARD_PESLIM a < e.natAbs) then d.guardTrip a true else d
    if ok then d else d.offTrack h s

/-- A valid MAC sample reaches the guards (R295). -/
def Dev.shockSample (d : Dev) (ch : Nat) (x : Int) : Dev :=
  (List.range 4).foldl (fun d a =>
    if d.on .WRF_GUARD_SHKEN a && d.rd .WRF_GUARD_SHKCH a == ch && decide (d.rd .WRF_SHKLIM_LEVEL a < x.natAbs) then
      d.guardTrip a false
    else d) d

/-- The inhibit of actuator `a` ends once HOLD + 1 reference strobes in a row have passed with no trip (R296). -/
def Dev.guardRelease (d : Dev) (a : Nat) : Dev :=
  if d.rd .WRF_GUARD_HOLD a < Tab.getD d.wrf.clean a 0 then d.wr .WRF_GSTAT_INHIBIT a 0 else d

/-- A reference strobe passes: trip-free strobes are counted for each inhibited actuator (R296), and at a reference index the
busy sequencers count it (R271). -/
def Dev.refStrobe (d : Dev) (index : Bool) : Dev :=
  let tick (d : Dev) (a : Nat) : Dev :=
    if d.on .WRF_GSTAT_INHIBIT a then
      { d with wrf := { d.wrf with clean := Tab.put d.wrf.clean a (Tab.getD d.wrf.clean a 0 + 1) } }
    else d
  let d := (List.range 4).foldl tick d
  if index then
    (List.range 32).foldl (fun d s => if d.seqBusy s then d.setSeq s { d.seq s with revs := (d.seq s).revs + 1 } else d) d
  else d

/-! ### Front-end write faults (R297, R298) -/

/-- A write fault is reported on the channel of slot `s` (R297); the third job in a row with one takes the head out (R298). -/
def Dev.writeFault (d : Dev) (s : Nat) : Dev :=
  match (d.seq s).job with
  | none => d
  | some j =>
    let w := d.wslot s
    let h := j.head
    let d := d.setWslot s { w with feFault := true, faulted := w.faulted || j.kind == 1 }
    let d := ((d.goIdle s).stick .WRF_SSTAT_WFAULT s).stick .WRF_STAT_WFAULT
    let d := d.raise 12 h (d.word .ARM_WSTAT (actOfHead h))
    if w.faulted || j.kind != 1 then d
    else
      let n := Tab.getD d.wrf.faults h 0 + 1
      let d := { d with wrf := { d.wrf with faults := Tab.put d.wrf.faults h n } }
      if n < 3 then d else (d.stick .SRV_HSTAT_WROUT h).headOut h

/-! ### Verify (R299-R307) -/

/-- Counts of one comparison (R301). -/
structure Verdict where
  (mism cvmism eras lowc mag : Nat)
  deriving DecidableEq, Repr

/-- A decision that disagrees with codeword bit `b`: positive decides 0, negative 1, and a computed 0 is a mismatch (R299). -/
def mismatched (x : Soft) (b : Bool) : Bool := if x.v = 0 then true else decide (x.v < 0) != b

/-- Compare a stream with a codeword whose check value stands at positions `cv` to `cv + 47` (R299, R301). -/
def compareStream (code : List Bool) (stream : List Soft) (cv lowmag : Nat) : Verdict :=
  let ps := ((List.range code.length).zip (code.zip stream))
  let live := ps.filter fun p => !p.2.2.f
  let bad := live.filter fun p => mismatched p.2.2 p.2.1
  { mism := bad.length, cvmism := (bad.filter fun p => decide (cv ≤ p.1) && decide (p.1 < cv + 48)).length,
    eras := code.length - live.length, lowc := (live.filter fun p => decide (p.2.2.v.natAbs ≤ lowmag)).length,
    mag := if live.isEmpty then 0 else 8 * (live.map fun p => p.2.2.v.natAbs).sum / live.length }

/-- The verify result of a comparison: the highest code whose condition holds (R302). -/
def Dev.verdictCode (d : Dev) (v : Verdict) : Nat :=
  if d.rd .WRF_VCRIT_MAXERAS < v.eras then 3
  else if d.rd .WRF_VCRIT_MAXERR < v.mism || decide (min 48 (d.rd .WRF_VCRIT2_CVMAX) < v.cvmism) then 2
  else if v.mag < d.rd .WRF_VCRIT2_MINMAG then 1 else 0

/-- The observed PSAs of an emission that differ from the prepared one (R306). -/
def Emit.observed (e : Emit) : Option Nat :=
  if !e.driven then none
  else
    let g := psaGen e.psa
    let obs (t : Nat) : Nat := mkPsa e.surf t (psaSlot e.psa) g
    ((e.tracks.map obs).reverse.find? fun p => p != e.psa).or
      (if e.surf % 64 == psaSurf e.psa then none else some (obs (psaTrack e.psa)))

/-- The four words of a verify record (R304). -/
def vrecWords (e : Emit) (res : Nat) (v : Verdict) (ofs : Int) : List Nat :=
  [res * 2 ^ 28 + e.role * 2 ^ 27 + min e.attempt 7 * 2 ^ 24 + min v.cvmism 48 * 2 ^ 16 + min v.mism 65535,
   min v.lowc 65535 * 2 ^ 16 + min v.eras 65535, e.psa % 2 ^ 32,
   min v.mag 248 * 2 ^ 24 + unsigned 5 (max (-15) (min 15 ofs)) * 2 ^ 16 + e.psa / 2 ^ 32]

/-- MISDIR (R307): what WRF does beside the record. -/
def Dev.misdirected (d : Dev) (s head psa obs : Nat) : Dev :=
  let d := ((d.wr .WRF_MDEXPLO_PSA 0 psa).wr .WRF_MDEXPHI_PSA 0 (psa / 2 ^ 32)).wr .WRF_MDOBSLO_PSA 0 obs
  let d := (d.wr .WRF_MDOBSHI_PSA 0 (obs / 2 ^ 32)).stick .WRF_STAT_MISDIR
  let d := d.goIdle s
  let d := d.setWslot s { d.wslot s with idleJob := true }
  let d := d.raiseMany 11 head 1 (d.word .WRF_STAT) (obs % 2 ^ 32) (obs / 2 ^ 32) false
  d.orderScrub (psaSurf obs) (psaTrack obs)

/-- The grid index of a slot's expected SM1 position (R217). -/
def Dev.sm1Index (d : Dev) (j : Job) (n : Nat) : Nat := gridOf (j.windows j.w) (j.sm1 (d.jobZone j) n)

/-- The judgement of an emission from the sync result of lane 2m + 1 and its stream, the codes it has sampled from `lapSamples` + 15 edges
before the codeword to as many behind it: result, counts and sync offset (R299-R302, R305). -/
def Dev.judgeWrite (d : Dev) (s : Nat) (e : Emit) (stream : Option Codes) : Nat × Verdict × Int :=
  let none' : Verdict := ⟨0, 0, 0, 0, 0⟩
  let j := e.job
  if e.observed.isSome then (8, none', 0)
  else if !e.written then (7, none', 0)
  else if e.cut then (6, none', 0)
  else
    match Tab.look (d.seq s).trailRes e.slot, stream with
    | none, _ | _, none => (6, none', 0)
    | some r, some cs =>
      let ofs : Int := r.index - d.sm1Index j e.slot
      if r.res = 3 then (5, none', 0)
      else if d.rd .WRF_VCRIT2_DTOL < ofs.natAbs then (4, none', ofs)
      else
        let l := 2 * j.pair + 1
        let es := j.edges (d.spr j.pair) r.u0 r.e0 e.code.length
        let soft := d.used.streamed l (d.profile j.prof).scale (d.fresh % 64) (r.e0 - (lapSamples + 15)) cs r.e0 (es.getLastD 0)
        let v := compareStream e.code (es.map (softAt soft)) (8 * (4096 + metaSize j.metaSel)) (d.rd .WRF_VCRIT2_LOWMAG)
        (d.verdictCode v, v, ofs)

end Sys2Proof.Machine
end

