-- ==== Sys2Proof/Machine/Fsq.lean ====
section
/-! DEFINITION. The format sequencers: the microword and its legality (R255-R260), the issue rules (R261), conditions (R257), the
fields' effects (R258, R262-R270), gate actions, the end of a job (R243), and the control stores (R276, R277). -/

namespace Sys2Proof.Machine

/-! ### The microword (R240, R255) -/

/-- Fields of a microword, in the order in which they act (R261): counters, JOP, compare loads, RTE to HTR, gates, SYN and WDS,
POST and STAMP, SEQ. -/
inductive MField where
  | c0 | c1 | jop | ac | pc | rte | svg | lfz | htr | rg | wg | vg | syn | wds | post | stamp | seq
  deriving DecidableEq, Repr

/-- Every field but SEQ. -/
def MField.actors : List MField :=
  [.c0, .c1, .jop, .ac, .pc, .rte, .svg, .lfz, .htr, .rg, .wg, .vg, .syn, .wds, .post, .stamp]

/-- The step of R261 in which a field acts. -/
def MField.stage : MField → Nat
  | .c0 | .c1 => 1
  | .jop => 2
  | .ac | .pc => 3
  | .rte | .svg | .lfz | .htr => 4
  | .rg | .wg | .vg => 5
  | .syn | .wds => 6
  | .post | .stamp => 7
  | .seq => 8

/-- Lowest bit and width of a field (R255). -/
def MField.place : MField → Nat × Nat
  | .c0 => (36, 2) | .c1 => (34, 2) | .jop => (135, 2) | .ac => (120, 3) | .pc => (66, 3) | .rte => (140, 2) | .svg => (142, 2)
  | .lfz => (131, 2) | .htr => (129, 2) | .rg => (150, 3) | .wg => (147, 3) | .vg => (144, 3) | .syn => (137, 3)
  | .wds => (133, 2) | .post => (126, 3) | .stamp => (125, 1) | .seq => (172, 4)

/-- The code of a field of microword `w`. -/
def MField.code (f : MField) (w : Nat) : Nat := bits w f.place.1 f.place.2

/-- Number of a field in a sequencer's list of fields that have acted. -/
def MField.num (f : MField) : Nat := f.ctorIdx

/-- The highest code of a field that is not reserved (R256, R258). -/
def MField.top : MField → Nat
  | .seq => 7 | .ac | .pc => 5 | .svg | .lfz | .htr | .wds => 2 | .syn | .post => 4 | .rg | .wg | .vg => 7
  | .c0 | .c1 | .jop | .rte => 3 | .stamp => 1

/-- Address of microword `w` of actuator `a`'s control store (R240). -/
def storeAddr (a w : Nat) : Nat := fsqStore + a * 0x20000 + w * 0x20

/-- The microword that sequencer `s` is issuing. -/
def Dev.mword (d : Dev) (s : Nat) : Nat := d.ldN (storeAddr (actOfSlot s) (d.rd .FSQ_PC_PC s)) 22

/-- Operand parts of a microword (R255). -/
def mTgt (w : Nat) : Nat := bits w 153 12
def mCond (w : Nat) : Nat := bits w 166 6
def mImmA (w : Nat) : Nat := bits w 70 48
def mImmP (w : Nat) : Int := signed 26 (bits w 38 26)
def mImmC (w : Nat) : Nat := bits w 18 16

/-! ### Conditions (R257) -/

/-- The routes the job asked for are applied. -/
def Dev.routed (d : Dev) (j : Job) (routes : Nat) : Bool :=
  let has (l inp : Nat) : Bool := d.on .LNX_ROUTE_EN l && d.rd .LNX_ROUTE_SRC l == 0 && d.rd .LNX_ROUTE_INPUT l == inp
  has (2 * j.pair) (2 * j.head) && (routes == 2 || has (2 * j.pair + 1) (2 * j.head + 1))

/-- The bound head is SETTLED on the job's track (R333). -/
def Dev.settled (d : Dev) (j : Job) : Bool := d.rd .SRV_HSTAT_FOLLOW j.head == 2 && d.rd .SRV_HTGT_TRACK j.head == j.track

/-- Condition `c` of sequencer `s` now (R257). -/
def Dev.condNow (d : Dev) (s c : Nat) : Bool :=
  let q := d.seq s
  let job (f : Job → Bool) : Bool := (q.job.map f).getD false
  match c with
  | 0 => true
  | 1 => d.on .FSQ_CMPSTAT_ACAF s
  | 2 => d.on .FSQ_CMPSTAT_ACBF s
  | 3 => d.on .FSQ_CMPSTAT_PCAF s
  | 4 => d.on .FSQ_CMPSTAT_PCBF s
  | 5 => d.on .FSQ_ENTRY_LISTEND s
  | 6 => job fun j => ((j.entries[q.next]?).map fun e => e.slot == d.rd .FSQ_ENTRY_SLOT s + 1).getD false
  | 7 => d.rd .FSQ_CNT_CNT0 s == 0
  | 8 => d.rd .FSQ_CNT_CNT1 s == 0
  | 9 => job fun j => d.routed j q.routes
  | 10 => job d.settled
  | 11 => (d.wslot s).latestOk
  | 12 => (d.wslot s).prep.any fun p => !p.started
  | 13 => q.foundL
  | 14 => q.foundT
  | 15 => q.srchLead.isEmpty && q.srchTrail.isEmpty
  | 16 => q.rgLead
  | 17 => q.wg
  | 18 => q.vg
  | 19 => job fun j => j.kind == 2
  | 20 => job fun j => j.kind == 1
  | 21 => d.on .FSQ_CMPSTAT_ACALATE s || d.on .FSQ_CMPSTAT_ACBLATE s
  | _ => false

/-- The condition of a microword now, inverted by CPOL (R256). -/
def Dev.wordCond (d : Dev) (s w : Nat) : Bool := xor (d.condNow s (mCond w)) (bit w 165)

/-- The condition as it stood at the start of the issue cycle. -/
def Dev.issueCond (d : Dev) (s w : Nat) : Bool := ((d.seq s).cond).getD (d.wordCond s w)

/-! ### Illegal and stalled words (R260, R261) -/

/-- A microword of sequencer `s` is illegal (R260). -/
def Dev.illegal (d : Dev) (s w : Nat) : Bool :=
  let seq := MField.seq.code w
  let q := d.seq s
  bits w 0 18 != 0 || (MField.seq :: MField.actors).any (fun f => decide (f.top < f.code w)) || decide (21 < mCond w) ||
    bits w 64 2 == 3 || MField.rg.code w == 3 || MField.wg.code w == 3 || MField.vg.code w == 3 ||
    (seq == 3 && d.wordCond s w && decide (4 ≤ q.stack.length)) || (seq == 4 && d.wordCond s w && q.stack.isEmpty)

/-- A read-gate action of this word is ignored (R263, R264). -/
def rgIgnored (kind code : Nat) : Bool := kind == 1 || (code == 1 && kind != 2)

/-- A verify-gate action of this word is ignored (R263, R264). -/
def vgIgnored (kind code : Nat) : Bool := kind == 0 || (code == 1 && kind != 2)

/-- A resource that the word names cannot accept its operation (R261, R262, R267, R270). -/
def Dev.stalls (d : Dev) (s w : Nat) : Bool :=
  let q := d.seq s
  match q.job with
  | none => false
  | some j =>
    let full (l : List GateAct) : Bool := decide (4 ≤ l.length)
    let rg := MField.rg.code w
    let vg := MField.vg.code w
    let wg := MField.wg.code w
    let syn := MField.syn.code w
    (rg != 0 && !rgIgnored j.kind rg && full q.rgq) || (vg != 0 && !vgIgnored j.kind vg && full q.vgq) ||
      (decide (2 ≤ wg) && full q.wgq) ||
      ((syn == 1 || syn == 4) && j.kind != 1 && decide (2 ≤ q.srchLead.length)) ||
      (syn == 1 && decide (2 ≤ q.srchTrail.length)) ||
      (MField.wds.code w == 1 && j.kind == 1 && d.prepStalls s j)

/-! ### Issue (R243, R261) -/

/-- A word of sequencer `s` may issue: RUN, or HELD with a STEP. -/
def Dev.issuing (d : Dev) (s : Nat) : Bool := d.rd .FSQ_STAT_STATE s == 2 || (d.rd .FSQ_STAT_STATE s == 6 && (d.seq s).step)

/-- The present word stops at its breakpoint (R243). -/
def Dev.breakDue (d : Dev) (s w : Nat) : Bool :=
  let q := d.seq s
  bit w 124 && d.on .FSQ_CTL_BRKEN s && d.rd .FSQ_STAT_STATE s == 2 && !q.brk && q.acted.isEmpty && !q.wg && q.wgq.isEmpty

/-- Every field of an earlier step of R261 that the word names has acted, and `f` has not. -/
def Seq.turn (q : Seq) (w : Nat) (f : MField) : Bool :=
  !q.acted.contains f.num &&
    MField.actors.all fun g => g.code w == 0 || decide (f.stage ≤ g.stage) || q.acted.contains g.num

/-- An illegal word does not issue: the job is abandoned with ILLEGAL and FSQILL is raised (R260, R275). Where the fault's reaction
abandons the job too, the highest cause of the cycle is recorded (R271), so the reaction goes first. -/
def Dev.illegalWord (d : Dev) (s : Nat) : Dev :=
  let pc := d.word .FSQ_PC s
  (d.raise 9 s pc).abandon s 4

/-- Field `f` of the word in issue acts where its code is one of `codes` and its turn has come: the first to act finds the word
legal and not stalled, and fixes the condition (R256, R260, R261). -/
def Dev.fieldAct (d : Dev) (s : Nat) (f : MField) (codes : List Nat) (g : Dev → Nat → Dev) : Dev :=
  let w := d.mword s
  let q := d.seq s
  if !d.issuing s || !codes.contains (f.code w) || d.breakDue s w || !q.turn w f then d
  else if q.acted.isEmpty && d.illegal s w then d.illegalWord s
  else if q.acted.isEmpty && d.stalls s w then d.stick .FSQ_STAT_QSTALL s
  else
    let cond := some (q.cond.getD (d.wordCond s w))
    g (d.setSeq s { q with acted := q.acted ++ [f.num], cond := cond }) w

/-- The word has issued: go to word `p`. A STEP is used up. -/
def Dev.nextWord (d : Dev) (s p : Nat) : Dev :=
  (d.setSeq s { d.seq s with acted := [], cond := none, step := false, brk := false }).wr .FSQ_PC_PC s p

/-- The word after the present one. -/
def Dev.succWord (d : Dev) (s : Nat) : Nat := (d.rd .FSQ_PC_PC s + 1) % 4096

/-- The job of sequencer `s`, where there is one, with `f`. -/
def Dev.withJob (d : Dev) (s : Nat) (f : Job → Dev) : Dev := match (d.seq s).job with | some j => f j | none => d

/-! ### SEQ (R256) -/

def Dev.seqCont (d : Dev) (s : Nat) : Dev := d.fieldAct s .seq [0] fun d _ => d.nextWord s (d.succWord s)

def Dev.seqBr (d : Dev) (s : Nat) : Dev :=
  d.fieldAct s .seq [1] fun d w => d.nextWord s (if d.issueCond s w then mTgt w else d.succWord s)

/-- WAIT: the condition is evaluated as it stands, from the cycle after the fields have acted. -/
def Dev.seqWait (d : Dev) (s : Nat) : Dev :=
  d.fieldAct s .seq [2] fun d w =>
    if d.wordCond s w then d.nextWord s (d.succWord s)
    else
      let q := d.seq s
      d.setSeq s { q with acted := q.acted.filter (· != MField.seq.num) }

def Dev.seqCall (d : Dev) (s : Nat) : Dev :=
  d.fieldAct s .seq [3] fun d w =>
    if d.issueCond s w then
      let q := d.seq s
      (d.setSeq s { q with stack := d.succWord s :: q.stack }).nextWord s (mTgt w)
    else d.nextWord s (d.succWord s)

def Dev.seqRet (d : Dev) (s : Nat) : Dev :=
  d.fieldAct s .seq [4] fun d w =>
    let q := d.seq s
    match q.stack with
    | p :: rest => if d.issueCond s w then (d.setSeq s { q with stack := rest }).nextWord s p else d.nextWord s (d.succWord s)
    | [] => d.nextWord s (d.succWord s)

def Dev.seqDisp (d : Dev) (s : Nat) : Dev :=
  d.fieldAct s .seq [5] fun d w => d.nextWord s (mTgt w / 4 * 4 + d.rd .FSQ_ENTRY_ROLE s)

/-- END: the state becomes DRAIN and a freeze ends (R256, R264). -/
def Dev.seqEnd (d : Dev) (s : Nat) : Dev :=
  d.fieldAct s .seq [6] fun d _ =>
    let d := d.nextWord s (d.rd .FSQ_PC_PC s)
    (d.setSeq s { d.seq s with freeze := false }).wr .FSQ_STAT_STATE s 3

def Dev.seqAbandon (d : Dev) (s : Nat) : Dev := d.fieldAct s .seq [7] fun d _ => d.abandon s 0

/-! ### Gates (R262-R266) -/

/-- The target a gate code names: none at once, else PCA or PCB (R258, R262). -/
def Seq.gateTarget (q : Seq) (code : Nat) : Option Nat :=
  if code < 3 then none else some (if code < 6 then q.pca.target else q.pcb.target)

/-- A gate action. -/
def mkAct (opens : Bool) (t slot : Option Nat) : GateAct := { opens := opens, target := t, lead := false, trail := false, slot := slot }

/-- RG: queued, or ignored (R262-R264). -/
def Dev.rgAction (d : Dev) (s : Nat) (opens : Bool) (codes : List Nat) : Dev :=
  d.fieldAct s .rg codes fun d w => d.withJob s fun j =>
    let q := d.seq s
    if rgIgnored j.kind (MField.rg.code w) then d.stick .FSQ_STAT_RGIGN s
    else d.setSeq s { q with rgq := q.rgq ++ [mkAct opens (q.gateTarget (MField.rg.code w)) none] }

/-- VG: queued, or ignored (R262-R264). -/
def Dev.vgAction (d : Dev) (s : Nat) (opens : Bool) (codes : List Nat) : Dev :=
  d.fieldAct s .vg codes fun d w => d.withJob s fun j =>
    let q := d.seq s
    if vgIgnored j.kind (MField.vg.code w) then d.stick .FSQ_STAT_VGIGN s
    else d.setSeq s { q with vgq := q.vgq ++ [mkAct opens (q.gateTarget (MField.vg.code w)) none] }

/-- The slot of the oldest prepared sector that no earlier OPEN names (R265). -/
def Dev.unnamed (d : Dev) (s : Nat) : Option Nat :=
  ((d.wslot s).prep.find? fun p => !p.started && !((d.seq s).wgq.any fun a => a.slot == some p.slot)).map Prep.slot

/-- WG OPEN: queued for the next prepared slot's first usable position; anything else is an FMTERR (R263, R265). -/
def Dev.wgOpen (d : Dev) (s : Nat) : Dev :=
  d.fieldAct s .wg [1, 4, 6] fun d w => d.withJob s fun j =>
    let q := d.seq s
    match q.gateTarget (MField.wg.code w), d.unnamed s with
    | some t, some n => if t = n * j.l then d.setSeq s { q with wgq := q.wgq ++ [mkAct true (some t) (some n)] } else d.abandon s 3
    | _, _ => d.abandon s 3

def Dev.wgClose (d : Dev) (s : Nat) : Dev :=
  d.fieldAct s .wg [2, 5, 7] fun d w =>
    let q := d.seq s
    d.setSeq s { q with wgq := q.wgq ++ [mkAct false (q.gateTarget (MField.wg.code w)) none] }

/-- Slots from `a` to `b`, around the end of the track. -/
def slotsFrom (a b n : Nat) : List Nat := (List.range ((b + n - a) % max 1 n + 1)).map fun k => (a + k) % max 1 n

/-- A read gate of a lane closes at usable index `u` before the last codeword position of a captured sector: the sector ends
ABANDON (R269). -/
def Dev.cutAt (d : Dev) (s : Nat) (j : Job) (u : Nat) : Dev :=
  d.itb.ctx.foldl (fun d p =>
    let n := psaSlot p.2.psa
    if p.2.fsq == s && p.2.phase == .filling && decide (n * j.l ≤ u) && decide (u < d.codeEnd j n) then d.endCtx p.1 p.2 5
    else d) d

/-- A CLOSE of a read gate at `u` has been acted on by each of its lanes: a DONE of the entries the gate covered takes effect
(R249). -/
def Dev.gatePassed (d : Dev) (s : Nat) (j : Job) (start u : Nat) : Dev :=
  let last := (u + max 1 j.u - 1) % max 1 j.u / max 1 j.l
  (slotsFrom start last j.slots).foldl (fun d n => d.entryMet s n) d

/-- Take the oldest entry a lane has not acted on out of the read queue, once both lanes have (R262). -/
def takeRg (lead : Bool) (single : Bool) : List GateAct → Option (GateAct × List GateAct)
  | [] => none
  | a :: l =>
    if (if lead then a.lead else a.trail) then (takeRg lead single l).map fun r => (r.1, a :: r.2)
    else
      let b := if lead then { a with lead := true } else { a with trail := true }
      some (a, if single || (b.lead && b.trail) then l else b :: l)

/-- Where an action acts in the present cycle, by counter `c`: its usable index and the edge. A target is met on its own edge (R251);
an action at once takes the first edge of the cycle that is neither excluded nor in a resume pad (R253, R263). -/
def Dev.actsAt (d : Dev) (s c : Nat) (a : GateAct) : Option (Nat × Nat) :=
  match (d.seq s).job with
  | none => none
  | some j =>
    let e := d.ctrEdges s j c
    let k := ctrSyn s j c
    let ws := j.windows j.w
    let spr := max 1 (d.spr k)
    if !d.counterRuns s j c then none
    else match a.target with
      | some u => if d.meets s c u then some (u, e.1 - (e.1 + spr - gridOf ws (u % max 1 j.u) % spr) % spr) else none
      | none =>
        (((List.range e.2).map fun i => e.1 + 1 - e.2 + i).find? fun n => isUsable ws (d.edgeIndex k n)).map fun n =>
          (usableOf ws (d.edgeIndex k n), n)

/-- A read-gate action acts on lane 2m (`lead`) or 2m + 1 (R262, R265); under ROUTELEAD lane 2m alone is gated. -/
def Dev.rgAct (d : Dev) (s : Nat) (j : Job) (lead : Bool) : Dev :=
  let q := d.seq s
  let single := q.routes == 2
  match (if !lead && single then none else takeRg lead single q.rgq) with
  | none => d
  | some (a, rest) =>
    match d.actsAt s (if lead then 0 else 1) a with
    | none => d
    | some (u, e) =>
      let l := if lead then 2 * j.pair else 2 * j.pair + 1
      let n := u / max 1 j.l
      let start := if lead then q.fromLead else q.fromTrail
      let q' := { q with rgq := rest }
      let q' := if lead then { q' with rgLead := a.opens, fromLead := if a.opens then n else start }
        else { q' with rgTrail := a.opens, fromTrail := if a.opens then n else start }
      let d := d.setSeq s q'
      if a.opens then d.openGate l e
      else
        let d := (d.endGate l (e - 1)).cutAt s j u
        if rest.length < q.rgq.length then d.gatePassed s j start u else d

/-- A verify-gate action acts on lane 2m + 1. -/
def Dev.vgAct (d : Dev) (s : Nat) (j : Job) : Dev :=
  let q := d.seq s
  match q.vgq with
  | [] => d
  | a :: rest =>
    match d.actsAt s 1 a with
    | none => d
    | some (_, e) =>
      let d := d.setSeq s { q with vgq := rest, vg := a.opens }
      if a.opens then d.openGate (2 * j.pair + 1) e else d.endGate (2 * j.pair + 1) (e - 1)

/-- A CLOSE that falls inside the slot under the writer acts at the first position of the next (R265). -/
def Dev.closeTarget (d : Dev) (s : Nat) (j : Job) (a : GateAct) : GateAct :=
  match (d.wslot s).cur with
  | none => a
  | some n =>
    let inside := (a.target.map fun t => decide (n * j.l < t) && decide (t < (n + 1) * j.l)).getD true
    if a.opens || !inside then a else { a with target := some ((n + 1) * j.l % max 1 j.u) }

/-- A write-gate action acts (R265, R288). -/
def Dev.wgAct (d : Dev) (s : Nat) (j : Job) : Dev :=
  let q := d.seq s
  match q.wgq with
  | [] => d
  | a :: rest =>
    match d.actsAt s 2 (d.closeTarget s j a) with
    | none => d
    | some (_, e) => (d.setSeq s { q with wgq := rest }).setWg s j a e (e - 1)

/-- The action at the head of a gate's queue acts, where its edge falls in the present cycle; no gate opens while the angle base is not
valid (R21). -/
def Dev.gateAct (d : Dev) (s : Nat) (g : GateName) : Dev :=
  if !d.seqBusy s || !d.angValid then d
  else d.withJob s fun j =>
    match g with
    | .rgLead => d.rgAct s j true
    | .rgTrail => d.rgAct s j false
    | .wg => d.wgAct s j
    | .vg => d.vgAct s j

/-- `n` fabric cycles pass, and the writers move on over their slots. -/
def Dev.advance (d : Dev) (n : Nat) : Dev := (d.elapse n).writersPass

/-! ### Routing, servo gating, freeze, heater (R254, R258, R264, R270, R337) -/

def Dev.svgOn (d : Dev) (s : Nat) : Dev := d.fieldAct s .svg [1] fun d _ => d.setSeq s { d.seq s with svgOn := true }

def Dev.svgOff (d : Dev) (s : Nat) : Dev :=
  d.fieldAct s .svg [2] fun d _ => d.withJob s fun j =>
    if j.kind = 2 then d.setSeq s { d.seq s with svgOn := false } else d.stick .FSQ_STAT_SVIGN s

/-- A job asks for a route of a lane that its grant holds: a lane that has left SERVICE is held no more, and no job is moved back onto
it (R140). -/
def Dev.askRoute (d : Dev) (l inp : Nat) : Dev := if d.on .LANE_STAT_HELD l then d.grantRoute l inp else d

/-- RTE ROUTE and ROUTELEAD go through SCH's grant path (R111, R258). -/
def Dev.rteRoute (d : Dev) (s : Nat) (code : Nat) : Dev :=
  d.fieldAct s .rte [code] fun d _ => d.withJob s fun j =>
    let d := d.setSeq s { d.seq s with routes := code }
    let d := d.askRoute (2 * j.pair) (2 * j.head)
    if code = 1 then d.askRoute (2 * j.pair + 1) (2 * j.head + 1) else d

def Dev.rteRelease (d : Dev) (s : Nat) : Dev :=
  d.fieldAct s .rte [3] fun d _ => d.withJob s fun j => (d.unroute (2 * j.pair)).unroute (2 * j.pair + 1)

def Dev.lfz (d : Dev) (s code : Nat) (b : Bool) : Dev :=
  d.fieldAct s .lfz [code] fun d _ => d.withJob s fun j =>
    let d := (d.loopsRun (2 * j.pair) none).loopsRun (2 * j.pair + 1) none
    d.setSeq s { d.seq s with freeze := b }

/-- The heater value of a head for a job: the code plus the track's trim, held within 0 and HMAX (R337). -/
def Dev.heaterCode (d : Dev) (j : Job) (write : Bool) : Nat :=
  let code : Nat := d.rd (if write then .ARM_HTR_WRITE else .ARM_HTR_READ) j.head
  let trim := (d.wsGet (ledgerIndex j.surf j.track)).htrim
  (max 0 (min (d.rd .ARM_HCFG_HMAX (actOfHead j.head) : Int) (code + trim))).toNat

def Dev.htr (d : Dev) (s code : Nat) : Dev :=
  d.fieldAct s .htr [code] fun d _ => d.withJob s fun j =>
    (d.setSeq s { d.seq s with heat := code }).armHeater (actOfHead j.head) (surfOfHead j.head) (d.heaterCode j (code == 1))

/-! ### Sync search (R267, R268) -/

/-- A search armed now on lane `l`. -/
def Dev.search (d : Dev) (l n : Nat) : Search := { slot := n, arm := d.laneEdge l, since := 0 }

/-- ARM: both lanes, in a write job lane 2m + 1 only. -/
def Dev.synArm (d : Dev) (s : Nat) : Dev :=
  d.fieldAct s .syn [1] fun d _ => d.withJob s fun j =>
    let q := d.seq s
    let n := d.rd .FSQ_ENTRY_SLOT s
    let lead := q.srchLead ++ [d.search (2 * j.pair) n]
    d.setSeq s { q with srchLead := if j.kind = 1 then q.srchLead else lead, srchTrail := q.srchTrail ++ [d.search (2 * j.pair + 1) n] }

/-- ARMLEAD: the lead lane only; a write job arms no lead lane. -/
def Dev.synArmLead (d : Dev) (s : Nat) : Dev :=
  d.fieldAct s .syn [4] fun d _ => d.withJob s fun j =>
    let q := d.seq s
    if j.kind = 1 then d else d.setSeq s { q with srchLead := q.srchLead ++ [d.search (2 * j.pair) (d.rd .FSQ_ENTRY_SLOT s)] }

/-- RESTART on one lane: what the active search has found is forgotten, and its window goes on over the positions that remain; a
window whose end has passed declares NONE (R268). -/
def Dev.restartSearch (d : Dev) (s : Nat) (j : Job) (lead : Bool) : Dev :=
  let q := d.seq s
  let n := d.laneEdge (if lead then 2 * j.pair else 2 * j.pair + 1)
  match (if lead then q.srchLead else q.srchTrail) with
  | [] => d
  | x :: rest =>
    if (d.window j x).last < n then d.declareSync s j lead x.slot { res := 3, index := 0, u0 := 0, e0 := 0 }
    else
      let l := { x with since := n + 1 } :: rest
      d.setSeq s (if lead then { q with srchLead := l } else { q with srchTrail := l })

/-- RESTART: the equalisers of both lanes restart, and both active searches (R123, R268). -/
def Dev.synRestart (d : Dev) (s : Nat) : Dev :=
  d.fieldAct s .syn [2] fun d _ => d.withJob s fun j =>
    (((d.eqRestart (2 * j.pair)).eqRestart (2 * j.pair + 1)).restartSearch s j true).restartSearch s j false

def Dev.synCancel (d : Dev) (s : Nat) : Dev :=
  d.fieldAct s .syn [3] fun d _ => d.setSeq s { d.seq s with srchLead := [], srchTrail := [] }

/-! ### The entry list (R248, R249) -/

def Dev.jopFetch (d : Dev) (s : Nat) : Dev :=
  d.fieldAct s .jop [1] fun d _ => d.withJob s fun j =>
    let q := d.seq s
    match j.entries[q.next]? with
    | none => d.wr .FSQ_ENTRY_LISTEND s 1
    | some e =>
      let d := d.setSeq s { q with next := q.next + 1 }
      (((d.wr .FSQ_ENTRY_VALID s 1).wr .FSQ_ENTRY_INDEX s q.next).wr .FSQ_ENTRY_ROLE s e.role).wr .FSQ_ENTRY_SLOT s e.slot

/-- DONE commits the current entry, at once where its capture is complete or its gate has passed. -/
def Dev.jopDone (d : Dev) (s : Nat) : Dev :=
  d.fieldAct s .jop [2] fun d _ =>
    let q := d.seq s
    let i := d.rd .FSQ_ENTRY_INDEX s
    if !d.on .FSQ_ENTRY_VALID s || q.done.contains i then d
    else
      d.setSeq s { q with done := q.done ++ [i], committed := if q.met.contains i then q.committed ++ [i] else q.committed }

/-- RETURN gives the current entry back to the owner undone. -/
def Dev.jopReturn (d : Dev) (s : Nat) : Dev :=
  d.fieldAct s .jop [3] fun d _ => d.withJob s fun j =>
    let q := d.seq s
    let i := d.rd .FSQ_ENTRY_INDEX s
    if !d.on .FSQ_ENTRY_VALID s || q.returned.contains i then d
    else
      let d := d.setSeq s { q with returned := q.returned ++ [i] }
      let d := { d with sch := { d.sch with returned := Tab.put d.sch.returned s [i] } }
      d.ceTrigger j.owner tRet 0 j.desc 0 1 q.committed.length

/-! ### Writer data (R284) -/

/-- PREP: an FMTERR outside a write job (R264). -/
def Dev.wdsPrep (d : Dev) (s attempt : Nat) (stored : Option StoredParity) : Dev :=
  d.fieldAct s .wds [1] fun d _ => d.withJob s fun j =>
    if j.kind != 1 then d.abandon s 3
    else
      let i := d.rd .FSQ_ENTRY_INDEX s
      match j.entries[i]? with
      | some e => if d.on .FSQ_ENTRY_VALID s then d.prepEntry s j e i attempt stored else d
      | none => d

def Dev.wdsCancel (d : Dev) (s : Nat) : Dev :=
  d.fieldAct s .wds [2] fun d _ =>
    let w := d.wslot s
    d.setWslot s { w with prep := dropUnstarted w.prep }

/-! ### POST and STAMP (R258, R279) -/

/-- The POST word (R279). -/
def Dev.postWord (d : Dev) (s : Nat) : Nat :=
  d.rd .FSQ_PC_PC s * 2 ^ 20 + d.rd .FSQ_ENTRY_SLOT s * 2 ^ 10 + d.rd .FSQ_CNT_CNT0 s % 2 ^ 10

/-- STATUS reaches the owning command engine as a MSG trigger (the carrier is DESIGN CHOICE, log 13). -/
def Dev.postStatus (d : Dev) (s : Nat) : Dev := d.withJob s fun j => d.ceTrigger j.owner tMsg s (d.postWord s) 0 0 0

/-- IRQ. -/
def Dev.postIrq (d : Dev) (s : Nat) : Dev := (d.stick .FSQ_STAT_IRQ s).emit (.irq .FSQ s)

def Dev.fsqPost (d : Dev) (s code : Nat) (status irq event : Bool) : Dev :=
  d.fieldAct s .post [code] fun d _ =>
    let d := if status then d.postStatus s else d
    let d := if irq then d.postIrq s else d
    if event then d.event 0x230 s (d.postWord s) 0 0 else d

def Dev.stampNow (d : Dev) (s : Nat) : Dev :=
  d.fieldAct s .stamp [1] fun d _ => d.setSeq s { d.seq s with stamp := d.ang.val, stampPos := (d.counterAt s 0).1 }

/-! ### Compares and counters (R258, R259) -/

/-- The head of the job on slot `s`; head 0 of no job. -/
def Dev.jobHead (d : Dev) (s : Nat) : Nat := (((d.seq s).job).map Job.head).getD 0

/-- The status fields of an angle compare unit: fired, LATE, LOST. -/
def acFlds (b : Bool) : Fld × Fld × Fld :=
  if b then (.FSQ_CMPSTAT_ACBF, .FSQ_CMPSTAT_ACBLATE, .FSQ_CMPSTAT_ACBLOST) else (.FSQ_CMPSTAT_ACAF, .FSQ_CMPSTAT_ACALATE, .FSQ_CMPSTAT_ACALOST)

/-- An angle compare of a sequencer. -/
def Seq.ac (q : Seq) (b : Bool) : AngCmp := if b then q.acb else q.aca
def Seq.setAc (q : Seq) (b : Bool) (x : AngCmp) : Seq := if b then { q with acb := x } else { q with aca := x }
def Seq.pcu (q : Seq) (b : Bool) : PosCmp := if b then q.pcb else q.pca
def Seq.setPcu (q : Seq) (b : Bool) (x : PosCmp) : Seq := if b then { q with pcb := x } else { q with pca := x }

/-- Load an angle compare unit and arm it: `f` gives the target from the old one and the word. -/
def Dev.acLoad (d : Dev) (s code : Nat) (f : Dev → AngCmp → Nat → Nat) : Dev :=
  d.fieldAct s .ac [code] fun d w =>
    let b := bit w 123
    let q := d.seq s
    let frame := bits w 118 2
    let t := mod48 (f d (q.ac b) w)
    let x : AngCmp := { target := t, frame := frame, armed := true, late := d.cmpMet frame (d.jobHead s) t }
    let (a, l, o) := acFlds b
    (((d.setSeq s (q.setAc b x)).wr a s 0).wr l s 0).wr o s 0

/-- JSTART. -/
def Dev.jstart (d : Dev) (s : Nat) : Nat := d.rd .FSQ_JSTARTLO_ANG s + d.rd .FSQ_JSTARTHI_ANG s * 2 ^ 32

def Dev.acDisarm (d : Dev) (s : Nat) : Dev :=
  d.fieldAct s .ac [5] fun d w =>
    let b := bit w 123
    let q := d.seq s
    d.setSeq s (q.setAc b { q.ac b with armed := false })

/-- The synthesiser to whose edges a unit in frame `f` is bound (R259): none in frame ABS, nor where it does not run or is not owned by
the job's head. -/
def Dev.boundTo (d : Dev) (s : Nat) (f : Nat) : Option Nat :=
  match (d.seq s).job with
  | none => none
  | some j =>
    let c := if f = 1 then 0 else if f = 3 then 1 else 2
    if f = 0 || !d.counterRuns s j c then none else some (ctrSyn s j c)

/-- An edge of synthesiser `k` in frame `f` of head `h` has come at or after target `t` (R96). -/
def Dev.edgeSince (d : Dev) (k f h t : Nat) : Bool :=
  let ph := d.rd (synPhase k).1 (synPhase k).2
  let a := subMod 48 (d.frameAngle f h) ph + 2 ^ 48
  let n := a * d.spr k / rev
  decide ((a - subMod 48 (d.frameAngle f h) t) * d.spr k ≤ n * rev)

/-- An armed angle compare of a sequencer meets its condition and fires: in the fabric cycle, or on the first edge of the synthesiser it
is bound to at or after its target (R95-R97, R259). -/
def Dev.seqCompareFire (d : Dev) (s : Nat) (b : Bool) : Dev :=
  let q := d.seq s
  let x := q.ac b
  let h := d.jobHead s
  let edge := ((d.boundTo s x.frame).map fun k => d.edgeSince k x.frame h x.target).getD true
  if !(x.armed && d.angValid && d.cmpMet x.frame h x.target && edge) then d
  else
    let (a, l, _) := acFlds b
    let d := (d.setSeq s (q.setAc b { x with armed := false })).wr a s 1
    if x.late then d.wr l s 1 else d

/-- The condition field of a position compare unit. -/
def pcFld (b : Bool) : Fld := if b then .FSQ_CMPSTAT_PCBF else .FSQ_CMPSTAT_PCAF

/-- Load a position compare unit and arm it; the target is taken modulo U (R258). -/
def Dev.pcLoad (d : Dev) (s code : Nat) (f : Dev → Job → PosCmp → Int) : Dev :=
  d.fieldAct s .pc [code] fun d w => d.withJob s fun j =>
    let b := bit w 69
    let q := d.seq s
    let t := ((f d j (q.pcu b) + mImmP w) % (max 1 j.u : Nat)).toNat
    (d.setSeq s (q.setPcu b { target := t, ctr := bits w 64 2, armed := true })).wr (pcFld b) s 0

def Dev.pcDisarm (d : Dev) (s : Nat) : Dev :=
  d.fieldAct s .pc [5] fun d w =>
    let b := bit w 69
    let q := d.seq s
    d.setSeq s (q.setPcu b { q.pcu b with armed := false })

/-- A position compare's counter meets its target in the present cycle (R251, R259); a counter that does not run flags no position
(R250). -/
def Dev.pcMeet (d : Dev) (s : Nat) (b : Bool) : Dev :=
  let x := (d.seq s).pcu b
  if x.armed && d.seqBusy s && d.meets s x.ctr x.target then d.wr (pcFld b) s 1 else d

/-- A counter operation of CNT0 (false) or CNT1 (R258). -/
def Dev.cntOp (d : Dev) (s : Nat) (c1 : Bool) (code : Nat) (f : Nat → Nat → Nat) : Dev :=
  d.fieldAct s (if c1 then .c1 else .c0) [code] fun d w =>
    let fld : Fld := if c1 then .FSQ_CNT_CNT1 else .FSQ_CNT_CNT0
    d.wr fld s (f (d.rd fld s) (mImmC w))

/-! ### States of a sequencer (R243) -/

/-- A breakpoint word is fetched: HELD. -/
def Dev.fsqBreak (d : Dev) (s : Nat) : Dev :=
  if d.breakDue s (d.mword s) then (d.setSeq s { d.seq s with brk := true }).wr .FSQ_STAT_STATE s 6 else d

/-- A microword fetch finds a parity error (R275). -/
def Dev.fetchParity (d : Dev) (s : Nat) : Dev :=
  if !d.issuing s then d
  else
    let pc := d.rd .FSQ_PC_PC s
    let d := (d.wr .FSQ_PC_MCADDR s pc).wr .FSQ_CSSTAT_BADADDR (actOfSlot s) pc
    (d.raise 8 s (d.word .FSQ_PC s)).abandon s 5

/-- The job has been busy for JOBREV reference indices (R271). -/
def Dev.jobWatchdog (d : Dev) (s : Nat) : Dev :=
  if max 1 (d.rd .FSQ_CFG_JOBREV s) ≤ (d.seq s).revs then d.abandon s 2 else d

/-- Everything that DRAIN waits for has ended (R243). -/
def Dev.drained (d : Dev) (s : Nat) : Bool :=
  let q := d.seq s
  let w := d.wslot s
  d.rd .FSQ_STAT_STATE s == 3 && !q.rgLead && !q.rgTrail && !q.wg && !q.vg && q.rgq.isEmpty && q.wgq.isEmpty && q.vgq.isEmpty &&
    w.prep.isEmpty && w.emits.isEmpty && !(d.itb.ctx.any fun p => p.2.fsq == s && p.2.phase == .filling)

def Dev.drainEnd (d : Dev) (s : Nat) : Dev :=
  if !d.drained s then d
  else match (d.seq s).job with
    | some j => if j.kind = 2 then (d.jobEnd s 1).headCalEnd j.head else d.jobEnd s 1
    | none => d.jobEnd s 1

def Dev.clrMchk (d : Dev) (s : Nat) : Dev := if d.rd .FSQ_STAT_STATE s == 5 then d.wr .FSQ_STAT_STATE s 1 else d

def Dev.fsqStep (d : Dev) (s : Nat) : Dev :=
  if d.rd .FSQ_STAT_STATE s == 6 then d.setSeq s { d.seq s with step := true } else d

def Dev.fsqResume (d : Dev) (s : Nat) : Dev := if d.rd .FSQ_STAT_STATE s == 6 then d.wr .FSQ_STAT_STATE s 2 else d

/-- A write of FSQ_CTL. -/
def Dev.fsqCtl (d : Dev) (s w : Nat) : Dev :=
  let d := (d.wrb .FSQ_CTL_ENABLE s (bit w 0)).wrb .FSQ_CTL_BRKEN s (bit w 3)
  let d := if bit w 1 then d.abandon s 1 else d
  let d := if bit w 2 then d.clrMchk s else d
  let d := if bit w 4 then d.fsqStep s else d
  if bit w 5 then d.fsqResume s else d

/-- A strobe falls: what is due applies (R46), and a reference strobe is counted. -/
def Dev.strobeAll (d : Dev) (x : Strobe) : Dev :=
  let d := d.strobe x
  if x.owner == .ref && d.angValid then d.refStrobe x.index else d

/-- Every owner of strobes (R89, R90). -/
def allOwners : List Owner :=
  .ref :: ((List.finRange 32).map Owner.surf ++ (List.finRange 128).map Owner.head)

/-- The strobes that fall in the present cycle (R89, R90, R92). -/
def Dev.strobesNow (d : Dev) : Dev :=
  let now := allOwners.filterMap fun o => (d.strobeNow o).map fun w => ({ owner := o, index := w == 0 } : Strobe)
  now.foldl Dev.strobeAll d

/-- The angle base enters LOCKED at an index, which is its first reference strobe (R80, R84, R92). -/
def Dev.lockIndex (d : Dev) : Dev :=
  let was := d.angValid
  let d := d.angleLock
  if d.angValid && !was then d.strobeAll { owner := .ref, index := true } else d

/-! ### Control stores (R276, R277) -/

/-- A write of FSQ_CSCTL.OPEN. -/
def Dev.storeOpen (d : Dev) (a : Nat) (b : Bool) : Dev :=
  let d := d.wrb .FSQ_CSCTL_OPEN a b
  if b then (if d.on .FSQ_CSSTAT_OPENED a then d else d.wr .FSQ_CSSTAT_DRAINING a 1)
  else (d.wr .FSQ_CSSTAT_OPENED a 0).wr .FSQ_CSSTAT_DRAINING a 0

/-- All eight sequencers are IDLE, MCHK or OFF. -/
def Dev.storeOpened (d : Dev) (a : Nat) : Dev :=
  let quiet := (List.range 8).all fun k =>
    let st := d.rd .FSQ_STAT_STATE (8 * a + k)
    st == 0 || st == 1 || st == 5
  if d.on .FSQ_CSSTAT_DRAINING a && quiet then (d.wr .FSQ_CSSTAT_OPENED a 1).wr .FSQ_CSSTAT_DRAINING a 0 else d

/-- An aligned access of 4 or 8 bytes. -/
def storeAccess (off size : Nat) : Bool := (size == 4 || size == 8) && off % size == 0

/-- Store the bytes of a microword location that are not reserved (R240). -/
def Dev.storeBytes (d : Dev) (base off v : Nat) (used : Nat) : Nat → Dev
  | 0 => d
  | n + 1 =>
    let d := if off % 32 < used then d.st8 (base + off) (BitVec.ofNat 8 v) else d
    d.storeBytes base (off + 1) (v / 256) used n

/-- A management core writes only an open store; CFG loads before handover; every other access is a bus error (R276). -/
def Dev.fsqStoreWrite (d : Dev) (m : Master) (a off size v : Nat) : Dev :=
  if !storeAccess off size then d.emit (.busError m.id)
  else
    let put := d.storeBytes (storeAddr a 0) (off % 0x20000) v 22 size
    match m with
    | .mc _ => if d.on .FSQ_CSSTAT_OPENED a then put else d.stick .FSQ_CSSTAT_WDROP a
    | .cfg => if d.handed then d.emit (.busError m.id) else put
    | _ => d.emit (.busError m.id)

/-- A read of the store (R277); `bad`: it finds a parity error. Reserved bytes read 0. -/
def Dev.fsqStoreRead (d : Dev) (m : Master) (a off size : Nat) (bad : Bool) : Dev :=
  let ok := match m with
    | .mc _ => true
    | .cfg => !d.handed
    | _ => false
  if !(ok && storeAccess off size) then d.emit (.busError m.id)
  else
    let d := if bad then d.stick .FSQ_CSSTAT_RPERR a else d
    d.emit (.data m.id (d.ldN (storeAddr a 0 + off % 0x20000) size))

end Sys2Proof.Machine
end

