-- ==== Sys2Proof/Machine/Servo.lean ====
section
/-! DEFINITION. Servo: demodulation of a servo field (R314-R318), the sample record and follow states (R319, R332), the VCM output
(R325-R328), runaway (R329), service states and modes (R320-R324, R331), microactuators (R335), contact (R339, R340). -/

namespace Sys2Proof.Machine

/-! ### Demodulation (R314-R318) -/

/-- sin((2k + 1)π ÷ 256) in units of 2^-64, k = 0-63, in four parts: the angles halfway between two values of PESRAW. With
16-bit correlations no angle comes within 2^-40 of one, so the rounding of R318 is exact. -/
def sinTable0 : List Nat :=
  [226369926147403917, 678973421663217291, 1131167928978272247, 1582681063030003905,
   2033240849189623030, 2482575887089462615, 2930415514104411062, 3376489968388956815,
   3820530551371637052, 4262269789609009851, 4701441595901655037, 5137781429575153479,
   5571026455829497539, 6000915704060946578, 6427190225060960324, 6849593246997519366]

def sinTable1 : List Nat :=
  [7267870330084875444, 7681769519848564266, 8091041498893359743, 8495439737082750293,
   8894720640039474723, 9288643695877666507, 9676971620078220518, 10059470498420114690,
   10435909927881590155, 10806063155426316219, 11169707214590940608, 11526623059791749741,
   11876595698269537712, 12219414319593205343, 12554872422644081165, 12882767940004473736]

def sinTable2 : List Nat :=
  [13202903359675528264, 13515085844051069277, 13819127346075763911, 14114844722517636517,
   14402059844286703433, 14680599703733276117, 14950296518861300146, 15210987834393955863,
   15462516619630642544, 15704731363036400681, 15937486163506795261, 16160640818253285484,
   16374060907256142060, 16577617874234040805, 16771189104081559484, 16954657996727932439]

def sinTable3 : List Nat :=
  [17127914037372573266, 17290852863055058269, 17443376325519471441, 17585392550335243823,
   17716815992238875079, 17837567486663201478, 17947574297423171006, 18046770160529401457,
   18135095324103129866, 18212496584368510011, 18278927317700577564, 18334347508709578402,
   18378723774344743121, 18412029384002988547, 18434244275630433513, 18445355067807029948]

def sinTable : List Nat := sinTable0 ++ sinTable1 ++ sinTable2 ++ sinTable3

/-- round(256 × atan2(n, q) ÷ 2π) in the first quadrant: the number of halfway angles below the vector. -/
def atanQuadrant (n q : Nat) : Nat :=
  ((List.range 64).filter fun k => decide (q * sinTable.getD k 0 < n * sinTable.getD (63 - k) 0)).length

/-- PESRAW (R318); the vector (0, 0) has no angle, and `free` gives the value there (log 14). -/
def pesRaw (n q : Int) (free : Nat) : Int :=
  if n = 0 && q = 0 then (free % 257 : Nat) - 128
  else
    let c : Int := atanQuadrant n.natAbs q.natAbs
    let up := if 0 ≤ q then c else 128 - c
    if 0 ≤ n then up else -up

/-- Gray code to binary, most significant bit first. -/
def grayDecode (l : List Bool) : Nat :=
  (l.foldl (fun (s : Nat × Bool) b => (2 * s.1 + bnat (xor s.2 b), xor s.2 b)) (0, false)).1

/-- A number from bits, most significant first. -/
def ofBitsBE (l : List Bool) : Nat := l.foldl (fun n b => 2 * n + bnat b) 0

/-- Even parity over the even-numbered and the odd-numbered bits of `l`, most significant bit first, against two parity bits. -/
def splitParity (l : List Bool) (pe po : Bool) : Bool :=
  let at' (r : Nat) : Bool := ((l.reverse.zipIdx.filter fun p => p.2 % 2 == r).map Prod.fst).foldl xor false
  at' 0 == pe && at' 1 == po

/-- The bits of two-cell fields: a 0 is the pair (1, 0), a 1 the pair (0, 1) (R314, R316). -/
def cellBits : List Int → List Bool
  | a :: b :: l => decide (a < b) :: cellBits l
  | _ => []

/-- Mismatches of 12 cell signs with the pattern, bit 11 first. -/
def samMiss (pat : Nat) (l : List Int) : Nat :=
  ((List.range 12).filter fun i => decide (0 < l.getD i 0) != bit pat (11 - i)).length

/-- Order of candidate cell offsets: nearest to the expected position first, the earlier of two (R217). -/
def samOrder (win : Nat) : List Int := 0 :: (List.range win).flatMap fun (k : Nat) => [-((k : Int) + 1), (k : Int) + 1]

/-- The SAM offset: the fewest mismatches within tolerance, ties by `samOrder` (R217, R316). The list of cells starts `win`
cells before the field. -/
def samFind (cells : List Int) (pre win tol pat : Nat) : Option Int :=
  let miss (o : Int) : Nat := samMiss pat (cells.drop (((win + pre : Nat) : Int) + o).toNat)
  let best := (samOrder win).foldl (fun (b : Option Int) o =>
    match b with
    | none => some o
    | some p => if miss o < miss p then some o else some p) none
  best.filter fun o => decide (miss o ≤ tol)

/-- What a servo field demodulates to: validity, wedge, track number, RRO and its parity, and amplitude. -/
structure Demod where
  valid : Bool
  wedge : Nat
  track : Nat
  rro   : Int
  rroBad : Bool
  amp   : Nat
  deriving DecidableEq, Repr

/-- The even lane that reads the servo fields of head `h`: that of its job's pair, or the guide lane (R316, R336). -/
def Dev.servoLane (d : Dev) (h : Nat) : Option Nat :=
  let x := d.act (actOfHead h)
  match (d.slotOfHead h).bind fun s => (d.seq s).job with
  | some j => some (2 * j.pair)
  | none => if x.guide == some h then x.guidePair.map (2 * ·) else none

/-- The latest run of a lane's servo gate: its first edge, and its last where it has closed. -/
def Lane.servoRun (x : Lane) : Option (Nat × Option Nat) :=
  match x.servoAt with
  | some a => some (a, none)
  | none => x.servos.getLast?.map fun r => (r.first, some r.last)

/-- Cells of a servo field (R314). -/
def Dev.fieldCells (d : Dev) (a : Nat) : Nat := d.rd .SRV_SFMT_PRE a + 2 * d.rd .SRV_SFMT_BURST a + 100

/-- The wedge in which head `h` stands, and the ticks since its strobe (R90). -/
def Dev.wedgeOf (d : Dev) (h : Nat) : Nat × Nat :=
  let f := d.frameAngle 1 h % rev
  let w := ((f + 1) * d.wedges - 1) / rev
  (w, f - d.wedgePos w)

/-- The servo cell of edge `e` of lane `l`, counted from the strobe of wedge `w` (R314, R316). -/
def Dev.cellOf (d : Dev) (a l w e : Nat) : Int :=
  let k := l / 2
  let spr := max 1 (d.spr k)
  let at' : Int := (d.rd (synPhase k).1 (synPhase k).2 * spr + e % spr * rev : Nat) - (d.wedgePos w * spr : Nat)
  let turn : Int := rev * spr
  let x := at' % turn
  (if turn < 2 * x then x - turn else x) / (4 * max 1 (d.rd .SRV_SFMT_CELL a) * spr : Nat)

/-- A servo field's samples: cell, code, and whether the output is flagged. -/
def Dev.cellSamples (d : Dev) (a l w : Nat) (cs : Codes) : List (Int × Int × Bool) :=
  match (d.lane l).servoRun with
  | none => []
  | some (b, last) =>
    let n := (last.map fun e => e + 1 - b).getD cs.length
    (List.range (min n cs.length)).map fun i =>
      (d.cellOf a l w (b + i), ((d.lane l).codeAt b cs (b + i)).getD 0, (d.lane l).flagged (b + i))

/-- Demodulate the field of a head's wedge (R314, R316, R317). A cell holds 1 where its sum is positive, and the mean over the preamble is
taken over all its samples (DESIGN CHOICE, log 90). -/
def Dev.demod (d : Dev) (h : Nat) (x : ServoObs) : Demod :=
  let a := actOfHead h
  let w := (d.wedgeOf h).1
  let ss := ((d.servoLane h).map fun l => d.cellSamples a l w x.codes).getD []
  let pre := d.rd .SRV_SFMT_PRE a
  let burst := d.rd .SRV_SFMT_BURST a
  let win := d.rd .SRV_SFMT_SAMWIN a
  let clean := ss.filter fun s => !s.2.2
  let sum (c : Int) : Int := ((clean.filter fun s => s.1 == c).map fun s => s.2.1).sum
  let cells := (List.range (d.fieldCells a + 2 * win)).map fun i => sum ((i : Int) - win)
  let off := samFind cells pre win (min 3 (d.rd .SRV_SFMT_SAMTOL a)) (d.rd .SRV_SAMPAT_PAT a)
  let body := cells.drop (((win + pre : Nat) : Int) + off.getD 0).toNat
  let wedge := grayDecode (cellBits ((body.drop 12).take 20))
  let tb := cellBits ((body.drop 32).take 44)
  let rb := cellBits ((body.drop (76 + 2 * burst)).take 24)
  let rroOk := splitParity (rb.take 10) (rb.getD 10 false) (rb.getD 11 false)
  let inside (n : Nat) (s : Int × Int × Bool) : Bool := decide (0 ≤ s.1) && decide (s.1 < n)
  let field := ss.filter (inside (d.fieldCells a))
  let first := ss.filter (inside pre)
  let total := ((first.filter fun s => !s.2.2).map fun s => s.2.1.natAbs).sum
  { valid := off.isSome && wedge == w && splitParity (tb.take 20) (tb.getD 20 false) (tb.getD 21 false) &&
      decide (4 * (field.filter fun s => s.2.2).length ≤ field.length),
    wedge := w, track := grayDecode (tb.take 20), rro := if rroOk then signed 10 (ofBitsBE (rb.take 10)) else 0, rroBad := !rroOk,
    amp := total / (2 * max 1 first.length) }

/-- A field of head `h` can be demodulated now: its lane has had a servo gate, and the field of the present wedge has passed (R316). -/
def Dev.fieldRead (d : Dev) (h : Nat) : Bool :=
  let a := actOfHead h
  d.angValid && ((d.servoLane h).bind fun l => (d.lane l).servoRun).isSome &&
    decide (4 * d.rd .SRV_SFMT_CELL a * d.fieldCells a ≤ (d.wedgeOf h).2)

/-- T′: the track number beside T whose position lies nearest the prediction, T on equal distances (R318). -/
def resolveTrack (t : Nat) (pes : Int) (pred : Nat) : Nat :=
  let dist (u : Nat) : Nat := (256 * (u : Int) + pes - pred).natAbs
  let low := if 0 < t && dist (t - 1) < dist t then t - 1 else t
  if t + 1 < 1048576 && decide (dist (t + 1) < dist low) then t + 1 else low

/-! ### Heads and contact (R331, R339, R340) -/

/-- Contact of head `h` on track `t` (R340). -/
def Dev.contact (d : Dev) (h t : Nat) : Dev :=
  let d := (d.armHeaterAt (actOfHead h) (surfOfHead h) 0 true).stick .SRV_HSTAT_CONTACT h
  let d := (d.loseHead h).headOut h
  (d.raise 18 h (d.word .SRV_HSTAT h)).hltContact h (surfOfHead h) t

/-- AMP differs from the mean of the previous 16 valid samples by more than AMPDEV percent (R339). -/
def ampContact (dev amp : Nat) (l : List Nat) : Bool :=
  let s := l.sum
  l.length == 16 && decide (dev * s < ((1600 * amp : Nat) - (100 * s : Nat) : Int).natAbs)

/-- FORCEOUT of a head (R331, as for a lane in R135). -/
def Dev.headForce (d : Dev) (h : Nat) : Dev :=
  let st := d.rd .SRV_HSTAT_STATE h
  if st == unitOff || st == unitOut then d else d.headGoesOut h

/-- READMIT of a head: it clears the causes of R108 and R298. -/
def Dev.headReadmit (d : Dev) (h : Nat) : Dev :=
  if d.rd .SRV_HSTAT_STATE h == unitOut then
    ((d.wr .SRV_HSTAT_RDOUT h 0).wr .SRV_HSTAT_WROUT h 0).wr .SRV_HSTAT_STATE h unitCal
  else d

/-- A write of SRV_HCTL: FORCEOUT acts alone. -/
def Dev.headCtl (d : Dev) (h w : Nat) : Dev := if bit w 1 then d.headForce h else if bit w 2 then d.headReadmit h else d

/-! ### Follow states (R332, R333) -/

/-- A new target of a head (R332). -/
def Dev.headTarget (d : Dev) (h t : Nat) (jobw : Bool) : Dev :=
  let d := (d.wr .SRV_HTGT_TRACK h t).wrb .SRV_HTGT_JOBW h jobw
  (d.setHead h { d.head h with settle := 0, fail := 0, miss := 0 }).wr .SRV_HSTAT_FOLLOW h 1

/-- A valid sample moves a head's follow state. -/
def Dev.follow (d : Dev) (h t : Nat) (e : Int) : Dev :=
  let a := actOfHead h
  let x := d.head h
  let hit := t == d.rd .SRV_HTGT_TRACK h
  match d.rd .SRV_HSTAT_FOLLOW h with
  | 1 =>
    let lim := if d.on .SRV_HTGT_JOBW h then d.rd .SRV_SETTLE_WSLIM a else d.rd .SRV_SETTLE_RSLIM a
    if d.rd .SRV_STAT_MODE a == 2 && hit && decide (e.natAbs ≤ lim) then
      (if max 1 (d.rd .SRV_SETTLE_SCNT a) ≤ x.settle + 1 then
        (d.setHead h { x with settle := 0, fail := 0, miss := 0 }).wr .SRV_HSTAT_FOLLOW h 2
      else d.setHead h { x with settle := x.settle + 1, miss := 0 })
    else d.setHead h { x with settle := 0, miss := 0 }
  | 2 =>
    if !hit then d.loseHead h
    else if d.rd .SRV_SETTLE_FLIM a < e.natAbs then
      (if max 1 (d.rd .SRV_SETTLE_FCNT a) ≤ x.fail + 1 then d.loseHead h else d.setHead h { x with fail := x.fail + 1, miss := 0 })
    else d.setHead h { x with fail := 0, miss := 0 }
  | _ => d

/-- A missed sample counts towards MISSMAX while SETTLED. -/
def Dev.followMiss (d : Dev) (h : Nat) : Dev :=
  let x := d.head h
  let x' := { x with miss := x.miss + 1, settle := 0 }
  let d := d.setHead h x'
  if d.rd .SRV_HSTAT_FOLLOW h == 2 && decide (max 1 (d.rd .SRV_RUN_MISSMAX (actOfHead h)) ≤ x'.miss) then d.loseHead h else d

/-! ### The sample record (R318, R319) -/

/-- The record's words as a trigger's arguments, to the servo engine (R401, R418). -/
def Dev.sampleTrigger (d : Dev) (h : Nat) : Dev :=
  let a := actOfHead h
  let type := if (d.refHead a).1 == some h then tRefsmp else tSample
  d.trigger a type (surfOfHead h) (d.word .SRV_SMP0 h) (d.word .SRV_SMP1 h) (d.word .SRV_SMP2 h) (d.word .SRV_SMP3 h)

/-- Write a sample record. -/
def Dev.putRecord (d : Dev) (h : Nat) (m : Demod) (track : Nat) (pes : Int) (x : ServoObs) : Dev :=
  let d := ((d.wrb .SRV_SMP0_VALID h m.valid).wrb .SRV_SMP0_RROBAD h m.rroBad).wr .SRV_SMP0_WEDGE h m.wedge
  let d := (d.wr .SRV_SMP0_TRACK h track).wr .SRV_SMP1_PES h (unsigned 16 pes)
  let d := ((d.wr .SRV_SMP1_RRO h (unsigned 16 m.rro)).wr .SRV_SMP2_N h x.n.toNat).wr .SRV_SMP2_Q h x.q.toNat
  ((d.wr .SRV_SMP3_AMP h m.amp).tally .SRV_SMP3_COUNT h).wr .SRV_SMP3_TIME h d.time

/-- The guide head's run of valid samples (R323). -/
def Dev.guideSample (d : Dev) (h : Nat) (valid : Bool) : Dev :=
  let a := actOfHead h
  let x := d.act a
  if x.guide == some h then d.setAct a { x with guideOk := if valid then x.guideOk + 1 else 0 } else d

/-- Records are delivered for a head whose follow state is not NONE, and for the guide head (R418). -/
def Dev.delivered (d : Dev) (h : Nat) : Bool := d.rd .SRV_HSTAT_FOLLOW h != 0 || (d.act (actOfHead h)).guide == some h

/-- Actuator runaway (R329): every head LOST, and the hardware retract. -/
def Dev.runaways (d : Dev) (a : Nat) : Dev :=
  let d := ((d.stick .SRV_STAT_RUNAWAY a).loseHeads a).retract a
  d.raise 15 a (d.word .SRV_STAT a)

/-- A valid sample of head `h` on track `t` shows the VCM outside its range, less the head's natural-track offset, or the head faster
since its last valid sample than VMAX tracks a wedge (R329). -/
def Dev.runsAway (d : Dev) (h wedge t : Nat) (last : Option (Nat × Nat)) : Bool :=
  let a := actOfHead h
  let v : Int := (t : Int) - d.rdInt .SRV_XOFF_OFF h
  decide (v < d.rd .SRV_RANGE0_TRACK a) || decide ((d.rd .SRV_RANGE1_TRACK a : Int) < v) ||
    match last with
    | some (w0, t0) =>
      let n := max 1 ((wedge + d.wedges - w0) % max 1 d.wedges)
      decide (d.rd .SRV_RUN_VMAX a * n < ((t : Int) - t0).natAbs)
    | none => false

/-- A valid sample counts towards a calibration in its revolution (R322), and stands against servo loss (R330). -/
def Dev.sampleCounts (d : Dev) (h : Nat) : Dev :=
  let a := actOfHead h
  let x := d.act a
  let d := d.setAct a { x with validAt := d.now }
  if d.rd .SRV_STAT_SVC a == unitCal && d.rd .SRV_STAT_MODE a == 2 && decide (subMod 48 d.ang.val x.modeAng ≤ rev) then
    d.setHead h { d.head h with calOk := (d.head h).calOk + 1 }
  else d

/-- A valid field of head `h`: its record, the follow state, and what the sample shows (R318, R319, R329, R332, R339). -/
def Dev.validSample (d : Dev) (h : Nat) (m : Demod) (x : ServoObs) : Dev :=
  let a := actOfHead h
  let pes := pesRaw x.n.toInt x.q.toInt d.fresh + m.rro
  let d := d.used.sampleCounts h
  let t := resolveTrack m.track pes (d.rd .SRV_HPRED_POS h)
  let e : Int := 256 * (t : Int) + pes - 256 * (d.rd .SRV_HTGT_TRACK h : Int)
  let y := d.head h
  let d := d.putRecord h m t pes x
  let d := d.setHead h { y with amps := (m.amp :: y.amps).take 16, last := some (m.wedge, t) }
  let d := if d.delivered h then d.sampleTrigger h else d
  let d := (d.wrfSample h t e).follow h t e
  let d := if d.on .SRV_CONTACT_EN a && ampContact (d.rd .SRV_CONTACT_AMPDEV a) m.amp y.amps then d.contact h t else d
  if d.runsAway h m.wedge t y.last then d.runaways a else d

/-- A missed field of head `h`: VALID is 0 and WRF is told nothing (R317). The words that the spec gives no value in an invalid record
are free values (log 14). -/
def Dev.missedSample (d : Dev) (h : Nat) (m : Demod) (x : ServoObs) : Dev :=
  let f := d.fresh
  let d := (d.used.putRecord h m (f % 2 ^ 20) (signed 16 (f / 2 ^ 20)) x).count .SRV_CNT_MISSED (actOfHead h)
  (if d.delivered h then d.sampleTrigger h else d).followMiss h

/-- The servo field of head `h` has passed under its lane's servo gate: it is demodulated and its record delivered (R316-R319). No field
is read while the angle base is not valid (R21). -/
def Dev.servoSample (d : Dev) (h : Nat) (x : ServoObs) : Dev :=
  if !d.fieldRead h then d
  else
    let m := d.demod h x
    let d := d.guideSample h m.valid
    if m.valid then d.validSample h m x else d.missedSample h m x

/-- ANG moves `n` ticks in `c` cycles at the present rate. -/
def Dev.ticksPass (d : Dev) (n c : Nat) : Bool := (d.ang.rate.map fun r => decide (n * 65536 ≤ r * c)).getD false

/-- 1.5 µs after a bound head's strobe no valid record of that wedge has come: an off-track detection, once for each strobe (R293). -/
def Dev.sampleMiss (d : Dev) (h : Nat) : Dev :=
  let (w, f) := d.wedgeOf h
  let late := (d.ang.rate.map fun r => decide (1875 * r ≤ f * 65536)).getD false
  let x := d.head h
  let k := d.frameAngle 1 h / rev * d.wedges + w
  match d.slotOfHead h with
  | some s =>
    if d.angValid && late && x.last.map Prod.fst != some w && x.missed != some k then (d.setHead h { x with missed := some k }).offTrack h s
    else d
  | none => d

/-! ### VCM output (R325-R328) -/

/-- The latest feed-forward input of an actuator: channel CHA less CHB, 0 unless both are valid (R327). -/
def Dev.rvInput (d : Dev) (a : Nat) : Int :=
  let ca := d.rd .SRV_RVFF_CHA a
  let cb := d.rd .SRV_RVFF_CHB a
  if ca < 24 && cb < 24 && d.on .MAC_CHDATA_VALID ca && d.on .MAC_CHDATA_VALID cb then
    signed 16 (d.rd .MAC_CHDATA_DATA ca) - signed 16 (d.rd .MAC_CHDATA_DATA cb)
  else 0

/-- Tap `k` of the filter. -/
def Dev.rvTap (d : Dev) (a k : Nat) : Int :=
  d.rdInt (if k % 2 = 0 then .SRV_RVFIR_TAPEVEN else .SRV_RVFIR_TAPODD) (a * 4 + k / 2)

/-- An integer held within ±m. -/
def holdWithin (m : Nat) (x : Int) : Int := max (-(m : Int)) (min (m : Int) x)

/-- The VCM update point (R326, R327); the DAC stays at the retract current while a retract runs (R328). -/
def Dev.vcmUpdate (d : Dev) (a : Nat) : Dev :=
  let x := d.act a
  if x.retract then d
  else
    let en := d.on .SRV_RVFF_EN a
    let hist := if en then (d.rvInput a :: x.hist).take 8 else x.hist
    let acc : Int := ((List.range 8).map fun k => d.rvTap a k * hist.getD k 0).sum
    let ff := if en then roundDiv acc (4096 * 2 ^ d.rd .SRV_RVFF_SHIFT a) else 0
    let want := signed 16 (d.rd .SRV_VCMCMD_CMD a) + ff
    let lim := d.rd .SRV_VCMLIM_LIM a
    let out := holdWithin lim want
    let d := ((d.wr .SRV_VCMOUT_DAC a (unsigned 16 out)).wrb .SRV_VCMOUT_CLAMP a (out != want)).watchVcm a
    let x := { d.act a with updAt := d.ang.val }
    if x.cmdNew then d.setAct a { x with cmdNew := false, late := 0, hist := hist }
    else
      let n := x.late + 1
      let d := ((d.setAct a { x with late := if n = 3 then 0 else n, hist := hist }).count .SRV_CNT_LATE a).stick .SRV_STAT_LATE a
      if n = 3 then d.raise 16 a (d.word .SRV_CNT a) else d

/-- The update point of actuator `a` falls now: VDLY ticks after a wedge strobe of the reference head, and at least half a wedge after
the last update (R325). -/
def Dev.updateDue (d : Dev) (a : Nat) : Bool :=
  match (d.refHead a).1 with
  | some h => d.angValid && (d.wedgeNow (d.frameOff 1 h + d.rd .SRV_TIMING_VDLY a)).isSome &&
      decide (rev ≤ 2 * d.wedges * subMod 48 d.ang.val (d.act a).updAt)
  | none => false

/-- The VCM is updated at its update point (R325-R327). -/
def Dev.vcmPoint (d : Dev) (a : Nat) : Dev := if d.updateDue a then d.vcmUpdate a else d

/-- A write of SRV_VCMCMD (R326, R328). -/
def Dev.vcmCommand (d : Dev) (a w : Nat) : Dev :=
  let x := d.act a
  if x.retract then d else (d.setAct a { x with cmdNew := true }).wr .SRV_VCMCMD_CMD a w

/-- Send a head's microactuator word, where it has changed since the last send; clamped on two sends running it is out of stroke (R335). -/
def Dev.maSendNow (d : Dev) (h : Nat) : Dev :=
  let x := d.head h
  let c := d.rd .SRV_MA_CODE h
  if x.sentMa == some c then d
  else
    let s := surfOfHead h
    let d := d.armSend (actOfHead h) 4 s (s * 2 ^ 27 + c)
    let n := if x.clamped then x.out + 1 else 0
    let d := d.setHead h { x with sentMa := some c, out := n }
    if n < 2 then d
    else
      let d := d.stick .SRV_HSTAT_OUTSTROKE h
      if d.rd .SRV_HSTAT_FOLLOW h == 2 then d.loseHead h else d

/-- The send point of head `h` in this wedge, MDLY ticks past its strobe, lies behind (R335). -/
def Dev.maLate (d : Dev) (h : Nat) : Bool :=
  d.angValid && decide (d.rd .SRV_TIMING_MDLY (actOfHead h) + d.moved ≤ (d.wedgeOf h).2)

/-- A write of SRV_MA (R335): clamped; after the send point of the wedge it is sent at once. The guide head's word is held at 0. -/
def Dev.maWrite (d : Dev) (h w : Nat) : Dev :=
  let a := actOfHead h
  let v := signed 12 w
  let c := holdWithin (d.rd .SRV_MACFG_MALIM a) v
  let guide := (d.act a).guide == some h
  let d := d.setHead h { d.head h with clamped := c != v }
  let d := d.wr .SRV_MA_CODE h (if guide then 0 else unsigned 12 c)
  if d.maLate h then (d.count .SRV_CNT_MALATE a).maSendNow h else d

/-- The microactuator send point of a head (R335). -/
def Dev.maPoint (d : Dev) (h : Nat) : Dev :=
  if d.angValid && (d.wedgeNow (d.frameOff 1 h + d.rd .SRV_TIMING_MDLY (actOfHead h))).isSome then d.maSendNow h else d

/-! ### Actuators (R320-R324, R328-R330) -/

/-- Entry to OUT (R321). -/
def Dev.actOut (d : Dev) (a : Nat) : Dev :=
  let st := d.rd .SRV_STAT_SVC a
  if st == unitOff || st == unitOut then d
  else
    let d := ((d.wr .SRV_STAT_SVC a unitOut).loseHeads a).retract a
    let d := (d.endGuide a false).raise 14 a (d.word .SRV_STAT a)
    d.replace 3

/-- The conditions under which heads may be loaded (R323). -/
def Dev.mayLoad (d : Dev) : Bool := d.on .SPN_STAT_INRANGE && d.angValid

/-- A load is granted (R496): a token is free and the ledger has room. -/
def Dev.movePower (d : Dev) : Bool :=
  decide (d.seeks < max 1 (d.rd .SCH_PWRBUD_TOKENS)) && decide (d.ledgerPower + d.rd .SCH_PWRCOST_SEEKW ≤ d.rd .SCH_PWRBUD_BUDGET)

/-- A parked actuator that may run. -/
def Dev.parkedUnit (d : Dev) (a : Nat) : Bool :=
  let st := d.rd .SRV_STAT_SVC a
  d.rd .SRV_STAT_MODE a == 0 && (st == unitCal || st == unitJoin || st == unitServ)

/-- Take an actuator off the list of waiting loads. -/
def Dev.dropLoad (d : Dev) (a : Nat) : Dev := { d with sch := { d.sch with loads := d.sch.loads.filter (· != a) } }

/-- A waiting load: PARKED to LOADING (R323) once the spindle, the angle base, a token and the power allow (R496); SCH provides
a guide lane (R485). -/
def Dev.tryLoad (d : Dev) (a : Nat) : Dev :=
  if !d.sch.loads.contains a then d
  else if !d.parkedUnit a then d.dropLoad a
  else if d.mayLoad && d.movePower then ((d.dropLoad a).setMode a 1 0).giveGuide a
  else d

/-- An actuator asks to be loaded. -/
def Dev.askLoad (d : Dev) (a : Nat) : Dev :=
  if !d.parkedUnit a then d
  else
    let l := if d.sch.loads.contains a then d.sch.loads else d.sch.loads ++ [a]
    ({ d with sch := { d.sch with loads := l } }).tryLoad a

/-- SRV_CTL.LOAD is written 1 (R323). -/
def Dev.loadHeads (d : Dev) (a : Nat) : Dev := if d.mayLoad then d.askLoad a else d

/-- Entry to CALIBRATING: a parked actuator loads (R320, R323). -/
def Dev.actCalibrate (d : Dev) (a : Nat) : Dev := (d.wr .SRV_STAT_SVC a unitCal).askLoad a

def Dev.actReadmit (d : Dev) (a : Nat) : Dev := if d.rd .SRV_STAT_SVC a == unitOut then d.actCalibrate a else d

/-- SRV_CTL.UNLOAD (R323). -/
def Dev.unloadHeads (d : Dev) (a : Nat) : Dev := if d.rd .SRV_STAT_MODE a == 2 then (d.setMode a 4 0).endGuide a false else d

/-- At least one declared head of the actuator in SERVICE gave valid samples in W - 8 wedges of the calibration's revolution (R322). -/
def Dev.headsPass (d : Dev) (a : Nat) : Bool :=
  (List.range 32).any fun s =>
    let h := 32 * a + s
    d.declared h && d.rd .SRV_HSTAT_STATE h == unitServ && decide (d.wedges - 8 ≤ (d.head h).calOk)

/-- SRV_CTL.DONE (R322, R323). -/
def Dev.servoDone (d : Dev) (a : Nat) : Dev :=
  match d.rd .SRV_STAT_MODE a with
  | 1 =>
    if 3 ≤ (d.act a).guideOk then
      ((List.range 32).foldl (fun d s => d.setHead (32 * a + s) { d.head (32 * a + s) with calOk := 0 }) d).setMode a 2 0
    else d
  | 3 => (d.setAct a { d.act a with seekTo := 0 }).setMode a 2 0
  | 4 => d.setMode a 0 0
  | 2 =>
    if d.rd .SRV_STAT_SVC a != unitCal then d
    else if d.on .SRV_CAL_PASS a && d.headsPass a then
      (d.wr .SRV_STAT_SVC a unitJoin).beginWait (.joining (.actuator (Fin.ofNat 4 a)))
    else d.actOut a
  | _ => d

/-- LOADTO ms have passed since the mode was entered. -/
def Dev.loadOver (d : Dev) (a : Nat) : Bool := decide ((d.act a).modeAt + d.rd .SRV_TIMEOUT_LOADTO a * 1250000 ≤ d.now)

/-- LOADTO elapses: in loading and in calibration the actuator fails, in unloading it is PARKED (R320, R322, R323). -/
def Dev.loadTimeout (d : Dev) (a : Nat) : Dev :=
  if !d.loadOver a then d
  else
  match d.rd .SRV_STAT_MODE a with
  | 1 => if d.rd .SRV_STAT_SVC a == unitCal then d.actOut a else d.retract a
  | 4 => d.setMode a 0 0
  | _ => if d.rd .SRV_STAT_SVC a == unitCal then d.actOut a else d

/-- Reference wedge strobes met up to angle `x` (R89). -/
def Dev.wedgesMet (d : Dev) (x : Nat) : Nat := ((x + 1) * d.wedges - 1) / rev

/-- SEEKTO reference wedges have passed since the seek began or took a new target; 0 applies as 1 (R323, R324). -/
def Dev.seekOver (d : Dev) (a : Nat) : Bool :=
  let x := (d.act a).modeAng
  decide (d.wedgesMet x + max 1 (d.rd .SRV_TIMEOUT_SEEKTO a) ≤ d.wedgesMet (x + subMod 48 d.ang.val x))

/-- SEEKTO reference wedges pass without DONE (R323, R324). -/
def Dev.seekTimeout (d : Dev) (a : Nat) : Dev :=
  if d.rd .SRV_STAT_MODE a != 3 || !d.seekOver a then d
  else
    let n := (d.act a).seekTo + 1
    let d := ((d.setAct a { d.act a with seekTo := n }).setMode a 2 1).stick .SRV_STAT_SEEKTO a
    if n < 3 then d else d.actOut a

/-- The retract time, TIME × 10 µs, has passed (R328). -/
def Dev.retractEnd (d : Dev) (a : Nat) : Dev :=
  let x := d.act a
  if !x.retract || decide (d.now < x.modeAt + d.rd .SRV_RETRACT_TIME a * 12500) then d
  else
    let d := d.setAct a { d.act a with retract := false, cmdNew := false }
    let d := if d.cfg.kind == 2 && d.cfg.quiet then d.beginWait .flush else d
    let d := if d.spn.running then d.wrBit .SPN_PFSTAT_RETRACTED 0 a true else d
    (d.wr .SRV_VCMOUT_DAC a 0).setMode a 0 0

/-- A write of SRV_CTL: FORCEOUT acts alone where READMIT is set with it. -/
def Dev.servoCtl (d : Dev) (a w : Nat) : Dev :=
  let d := d.wrb .SRV_CTL_ENABLE a (bit w 0)
  let d := if bit w 3 then d.actOut a else if bit w 4 then d.actReadmit a else d
  let d := if bit w 5 then d.loadHeads a else d
  let d := if bit w 6 then d.unloadHeads a else d
  if bit w 7 then d.servoDone a else d

/-- A condition of runaway has stood for its time, 20 µs or 40 µs, and has not been declared since its onset (R329). -/
def Dev.runawayStands (d : Dev) (a : Nat) (k : Runaway) : Bool :=
  let x := d.act a
  match k with
  | .idrive => (x.curOff.map fun t => decide (t + 25000 ≤ d.now)).getD false && x.curFor != x.curOff
  | .saturate => (x.satAt.map fun t => decide (t + 50000 ≤ d.now)).getD false && x.satFor != x.satAt

/-- The onset is one that has been declared. -/
def Dev.noteRunaway (d : Dev) (a : Nat) (k : Runaway) : Dev :=
  let x := d.act a
  d.setAct a (match k with
    | .idrive => { x with curFor := x.curOff }
    | .saturate => { x with satFor := x.satAt })

/-- Actuator runaway by IDRIVE or SATURATE, declared once for its onset (R329). -/
def Dev.runaway (d : Dev) (a : Nat) (k : Runaway) : Dev := if d.runawayStands a k then (d.noteRunaway a k).runaways a else d

/-- No valid sample of any head of the actuator for two wedges plus 1.5 µs while its mode is LOADING, FOLLOW or SEEK, raised once until
a valid sample comes (R330). -/
def Dev.servoLoss (d : Dev) (a : Nat) : Dev :=
  let m := d.rd .SRV_STAT_MODE a
  let x := d.act a
  let gone := d.now - x.validAt - 1875
  if (m == 1 || m == 2 || m == 3) && decide (x.validAt + 1875 < d.now) && d.ticksPass (2 * rev) (gone * d.wedges) &&
      x.lossFor != some x.validAt then
    let d := (d.setAct a { x with lossFor := some x.validAt }).stick .SRV_STAT_SRVLOSS a
    (d.raise 17 a (d.word .SRV_STAT a)).loseHeads a
  else d

end Sys2Proof.Machine
end

