-- ==== Sys2Proof/Machine/ArmLink.lean ====
section
/-! DEFINITION. The arm links: frames and their CRC (R341), the downlink queue (R342, R347), uplink frames (R344, R346, R297), link
states (R348, R349) and AFE register accesses (R350). -/

namespace Sys2Proof.Machine

/-! ### Frames (R341) -/

/-- CRC-8 of R341 over bits [47:8] of a frame's 48 bits: polynomial x^8 + x^2 + x + 1, initial value 0xFF. -/
def armCrc (v : Nat) : Nat := ((List.range 40).map fun k => bit v (47 - k)).foldl (crcBit 8 0x07) 0xFF

/-- The 48 bits of a frame. -/
def armWord (type tag payload : Nat) : Nat :=
  let v := type % 16 * 2 ^ 44 + tag % 16 * 2 ^ 40 + payload % 2 ^ 32 * 2 ^ 8
  v + armCrc v

/-! ### Sending (R342, R347) -/

/-- What the sending of a frame brings about: a REGWR completes its access (R350), a SAFE frame takes every heater to 0 (R337). -/
def Dev.frameSent (d : Dev) (a : Nat) (f : ArmFrame) : Dev :=
  if f.type = 5 then
    let l := d.link a
    if l.access == some f then ((d.setLink a { l with access := none }).wr .ARM_REGCMD_GO a 0).stick .ARM_REGRSP_DONE a else d
  else if f.type = 8 then d.heatersOff a
  else d

/-- The link is UP. -/
def Dev.linkUp (d : Dev) (a : Nat) : Bool := d.rd .ARM_STAT_LSTATE a == 2

/-- A downlink frame of type `t` goes out where it is the first to send; it is kept under its tag for a resend. -/
def Dev.sendFrame (d : Dev) (a t : Nat) : Dev :=
  let l := d.link a
  match l.down with
  | f :: rest =>
    if f.type != t || !d.linkUp a then d
    else
      let keep := (l.resend.filter fun p => p.1 != l.tag) ++ [(l.tag, f)]
      let d := (d.emit (.armFrame a (armWord f.type l.tag f.payload))).setLink a
        { l with down := rest, resend := keep, tag := (l.tag + 1) % 16 }
      d.frameSent a f
  | [] => d

/-- Put a frame ahead of every other frame of its type (R347). -/
def resendInsert (q : List ArmFrame) (f : ArmFrame) : List ArmFrame :=
  if q.any fun g => g.type == f.type && g.target == f.target then q
  else
    let before := q.takeWhile fun g => decide (g.rank < f.rank)
    before ++ f :: q.drop before.length

/-! ### Receiving (R341, R344, R347) -/

/-- An uplink frame of type `t` as its 50 bits came: a bad delimiter or CRC is counted and the frame discarded; invalid frames in a row
are counted too (R348). -/
def Dev.uplink (d : Dev) (a t v : Nat) (f : Dev → Nat → Nat → Dev) : Dev :=
  let l := d.link a
  if !d.linkUp a then d
  else if bits v 48 2 != 2 then (d.setLink a { l with bad := l.bad + 1 }).count .ARM_ERR_DELIM a
  else if bits v 0 8 != armCrc v then (d.setLink a { l with bad := l.bad + 1 }).count .ARM_ERR_UPCRC a
  else if bits v 44 4 != t then d
  else f (d.setLink a { l with bad := 0 }) (bits v 8 32) (bits v 40 4)

/-- An uplink frame of any type whose delimiter or CRC is bad (R347); a good frame has a row of its own. -/
def Dev.badUplink (d : Dev) (a v : Nat) : Dev := d.uplink a (bits v 44 4) v fun d _ _ => d

/-- Acknowledge an uplink frame. -/
def Dev.armAck (d : Dev) (a tag : Nat) : Dev := d.armSend a 7 tag tag

/-- The content of STAT and FAULT: what the channel reports (R344, R346). -/
def Dev.channelReport (d : Dev) (a p : Nat) : Dev :=
  let j := bits p 29 3
  let surf := bits p 24 5
  let wsel := bit p 23
  let faults := bits p 19 4
  let s := 8 * a + j
  let d := (d.wrBit .ARM_WSTAT_WSEL a j wsel).wr .ARM_STAT_TEMP a (bits p 0 8)
  let sel := if wsel && faults == 0 then some (32 * a + surf) else none
  let bound := ((d.seq s).job.map fun x => surfOfHead x.head == surf).getD false
  let d := d.setWslot s { d.wslot s with selHead := sel, feFault := faults != 0 && bound }
  d.checkFence s

/-- STAT (R346). -/
def Dev.statFrame (d : Dev) (a v : Nat) : Dev := d.uplink a 1 v fun d p _ => d.channelReport a p

/-- FAULT (R297): a write fault of a bound head is raised; the frame is acknowledged. -/
def Dev.faultFrame (d : Dev) (a v : Nat) : Dev :=
  d.uplink a 2 v fun d p tag =>
    let s := 8 * a + bits p 29 3
    let d := (d.armAck a tag).channelReport a p
    let d := if bits p 19 4 = 0 then d else d.wrBit .ARM_WSTAT_FAULT a (bits p 29 3) true
    if (d.wslot s).feFault then d.writeFault s else d

/-- NAK (R347). -/
def Dev.nakFrame (d : Dev) (a v : Nat) : Dev :=
  d.uplink a 3 v fun d p _ =>
    let d := d.count .ARM_ERR_NAK a
    let l := d.link a
    match l.resend.find? fun x => x.1 == p % 16 with
    | some x => (d.setLink a { l with down := resendInsert l.down x.2 }).count .ARM_ERR_RESEND a
    | none => d

/-- REGDATA completes the read outstanding (R350). -/
def Dev.regdataFrame (d : Dev) (a v : Nat) : Dev :=
  d.uplink a 4 v fun d p _ =>
    let l := d.link a
    match l.access with
    | some f =>
      if f.type = 6 && f.target == bits p 24 8 then
        (((d.setLink a { l with access := none }).wr .ARM_REGCMD_GO a 0).wr .ARM_REGRSP_DATA a (bits p 0 16)).stick .ARM_REGRSP_DONE a
      else d
    | none => d

/-- CONTACT (R339): the head's track is its target's. -/
def Dev.contactFrame (d : Dev) (a v : Nat) : Dev :=
  d.uplink a 5 v fun d p tag =>
    let s := bits p 27 5
    let h := 32 * a + s
    let d := ((d.armAck a tag).wr .ARM_CONTACT_VALID a 1).wr .ARM_CONTACT_SURF a s
    let d := d.wr .ARM_CONTACT_METRIC a (bits p 0 10)
    if d.rd .SRV_HSTAT_STATE h == unitOut then d
    else d.contact h (((d.head h).last.map Prod.snd).getD (d.rd .SRV_HTGT_TRACK h))

/-- MAFAULT (R331). -/
def Dev.mafaultFrame (d : Dev) (a v : Nat) : Dev :=
  d.uplink a 6 v fun d p tag =>
    let h := 32 * a + bits p 27 5
    ((d.armAck a tag).stick .SRV_HSTAT_MAFAULT h).headOut h

/-! ### Link states (R348, R349) -/

/-- The link goes to TRAIN (R348). -/
def Dev.toTrain (d : Dev) (a : Nat) : Dev := (d.wr .ARM_STAT_LSTATE a 1).beginWait (.train a)

/-- A link leaves UP (R349): heads go LOST, writers idle, and it trains again at once where `train` or AUTORT says so. A fourth
loss within a second raises ARMLINK and takes the actuator OUT. -/
def Dev.linkLoss (d : Dev) (a : Nat) (train : Bool) : Dev :=
  if !d.linkUp a then d
  else
    let again := train || d.on .ARM_CTL_AUTORT a
    let l := d.link a
    let recent := (l.lossAt.filter fun t => decide (d.now < t + 1250000000)) ++ [d.now]
    let d := d.setLink a { l with lossAt := recent, bad := 0 }
    let d := if again then d.toTrain a else d.wr .ARM_STAT_LSTATE a 0
    let d := (d.count .ARM_STAT_LOSSES a).stick .ARM_STAT_DOWN a
    let drop (d : Dev) (j : Nat) : Dev := (d.setWslot (8 * a + j) { d.wslot (8 * a + j) with selHead := none }).checkFence (8 * a + j)
    let d := ((List.range 8).foldl drop d).loseHeads a
    let d := d.event 0x221 a (d.word .ARM_STAT a) (d.word .ARM_ERR a) 0
    if recent.length < 4 then d else (d.raise 19 a (d.word .ARM_STAT a)).actOut a

/-- ARM_CTL.ENABLE is written (R348). -/
def Dev.armEnable (d : Dev) (a : Nat) (b : Bool) : Dev :=
  let d := d.wrb .ARM_CTL_ENABLE a b
  if b && d.rd .ARM_STAT_LSTATE a == 0 then d.toTrain a else d

/-- ARM_CTL.RETRAIN is written 1 (R348). -/
def Dev.armRetrain (d : Dev) (a : Nat) : Dev :=
  if d.rd .ARM_STAT_LSTATE a == 3 then d.toTrain a else d.linkLoss a true

/-- Training ends well: UP, and the current SELECT, BIAS, heater and microactuator values go out again (R348, R349). -/
def Dev.linkTrained (d : Dev) (a : Nat) : Dev :=
  if d.rd .ARM_STAT_LSTATE a != 1 then d
  else
    let d := d.wr .ARM_STAT_LSTATE a 2
    let sel (d : Dev) (k : Nat) : Dev :=
      match (d.seq (8 * a + k)).job with
      | some j => d.armSelect (8 * a + k) (surfOfHead j.head) (j.kind == 1)
      | none => d
    let d := ((List.range 8).foldl sel d).armBias a (d.link a).bias
    let one (d : Dev) (s : Nat) : Dev :=
      let x := d.head (32 * a + s)
      let d := if x.htr = 0 then d else d.armHeater a s x.htr
      match x.sentMa with
      | some c => d.armSend a 4 s (s * 2 ^ 27 + c)
      | none => d
    (List.range 32).foldl one d

/-- 20 µs without success: FAILED, and the actuator goes OUT (R348, R349). -/
def Dev.trainTimeout (d : Dev) (a : Nat) : Dev :=
  if d.rd .ARM_STAT_LSTATE a != 1 || !d.waited (.train a) 25000 then d
  else
    let d := d.wr .ARM_STAT_LSTATE a 3
    (d.raise 19 a (d.word .ARM_STAT a)).actOut a

/-! ### AFE registers (R350) -/

/-- A write of ARM_REGCMD. -/
def Dev.afeAccess (d : Dev) (a w : Nat) : Dev :=
  let l := d.link a
  if l.access.isSome then d.stick .ARM_REGRSP_BUSY a
  else
    let d := ((d.wrb .ARM_REGCMD_WR a (bit w 30)).wr .ARM_REGCMD_ADDR a (bits w 16 8)).wr .ARM_REGCMD_DATA a (bits w 0 16)
    if !bit w 31 then d
    else
      let r := bits w 16 8
      let f : ArmFrame := if bit w 30 then { type := 5, target := r, payload := r * 2 ^ 24 + bits w 0 16, urgent := false }
        else { type := 6, target := r, payload := r * 2 ^ 24, urgent := false }
      (((d.setLink a { l with access := some f }).beginWait (.afe a)).wr .ARM_REGCMD_GO a 1).armQueue a f

/-- 2 µs pass with no REGDATA (R350). -/
def Dev.afeTimeout (d : Dev) (a : Nat) : Dev :=
  let l := d.link a
  match l.access with
  | some f => if f.type = 6 && d.waited (.afe a) 2500 then ((d.setLink a { l with access := none }).wr .ARM_REGCMD_GO a 0).stick .ARM_REGRSP_TIMEOUT a else d
  | none => d

/-- A write of ARM_CTL. -/
def Dev.armCtl (d : Dev) (a w : Nat) : Dev :=
  let d := (d.armEnable a (bit w 0)).wrb .ARM_CTL_AUTORT a (bit w 1)
  let d := if bit w 2 then d.armRetrain a else d
  if bit w 3 then d.armSend a 8 0 0x5AFE else d

end Sys2Proof.Machine
end

