-- ==== Sys2Proof/Machine/Spindle.lean ====
section
/-! DEFINITION. The spindle controller (R353-R373), rack phase-lock (R380, R381) and the measurement channels (R382-R385). -/

namespace Sys2Proof.Machine

/-! ### States (R359-R361) -/

/-- DETECT begins: the carrier for 64 periods, and a pulse each way along the axis found (R362). -/
def Dev.toDetect (d : Dev) : Dev :=
  (d.spnState 2).emit (.detect (d.rd .SPN_HFI_FREQ) (d.rd .SPN_HFI_AMP) (d.rd .SPN_HFI_PTEST))

/-- A commutation interval at `v` hundredths of a revolution per minute, in cycles: a sixth of an electrical turn (R365, R367). -/
def Dev.intervalAt (d : Dev) (v : Nat) : Nat := 7500000000000 / max 1 (6 * d.rd .SPN_MOTOR_POLES * v)

/-- BEMF begins. From INJECT the first interval is taken from the injection estimate of speed (R367), from COAST the crossings give it.
The step is that of the rotor angle, which the device alone knows: a free value (log 31). -/
def Dev.toBemf (d : Dev) : Dev :=
  let first := if d.rd .SPN_STAT_STATE == 3 then [d.intervalAt (d.rd .SPN_MEAS_SPEED)] else d.spn.ivals
  let x := { d.spn with step := d.fresh % 6, commAt := d.now, ivals := first }
  ({ d.used with spn := x }).spnState 4

/-- STOPPED leaves for DETECT once RUN is 1 and the grant is not 0, unless the power stage reports a fault (R356, R358, R359). -/
def Dev.spnStart (d : Dev) : Dev :=
  if d.rd .SPN_STAT_STATE == 1 && d.on .SPN_CTL_RUN && d.rd .SPN_GRANT_LIMIT != 0 && !d.spn.drvLow then
    ({ d with spn := { d.spn with attempts := 0, duty := 0, integ := 0 } }).toDetect
  else d

/-- Transitions that the measured speed brings (R359): INJECT from BEMF below 900 rpm, and out of COAST. -/
def Dev.spnBySpeed (d : Dev) : Dev :=
  let v := d.rd .SPN_MEAS_SPEED
  if !d.on .SPN_CTL_RUN || d.spn.drvLow then d
  else
    match d.rd .SPN_STAT_STATE with
    | 4 => if v < 90000 then d.spnState 3 else d
    | 5 =>
      if v < 90000 then ({ d with spn := { d.spn with attempts := 0 } }).toDetect
      else if 110000 ≤ v && decide (12 ≤ d.spn.seen) then d.toBemf
      else d
    | _ => d

/-- SPN_CTL.ENABLE is written (R359, R360). -/
def Dev.spnEnable (d : Dev) (b : Bool) : Dev :=
  let d := d.wrb .SPN_CTL_ENABLE 0 b
  let st := d.rd .SPN_STAT_STATE
  if b then (if st = 0 then (d.spnState 1).spnStart else d)
  else if st = 7 then d else d.spnState 0

/-- SPN_CTL.RUN is written (R358-R360). -/
def Dev.spnRun (d : Dev) (b : Bool) : Dev :=
  let d := d.wrb .SPN_CTL_RUN 0 b
  let st := d.rd .SPN_STAT_STATE
  if b then (({ d with spn := { d.spn with held := false } }).spnStart).spnBySpeed.showGates
  else if st = 2 ∨ st = 3 ∨ st = 4 then d.spnState 5 else d

/-- SPN_CTL.BRAKE is written 1 (R360). -/
def Dev.spnBrake (d : Dev) : Dev :=
  let st := d.rd .SPN_STAT_STATE
  if st = 0 ∨ st = 7 then d else d.spnState 6

/-- A write of SPN_CTL: OFF goes before BRAKE, and BRAKE before RUN (R361). -/
def Dev.spnCtl (d : Dev) (w : Nat) : Dev :=
  let d := ((d.wrb .SPN_CTL_DECEL 0 (bit w 5)).wrb .SPN_CTL_HOLDSHORT 0 (bit w 4)).showGates
  let d := d.spnRun (bit w 2)
  let d := if bit w 3 then d.spnBrake else d
  if bit w 0 == d.on .SPN_CTL_ENABLE then d else d.spnEnable (bit w 0)

/-- SCH writes SPN_GRANT (R357, R358). -/
def Dev.spnGrant (d : Dev) (n : Nat) : Dev := (d.wr .SPN_GRANT_LIMIT 0 n).spnStart

/-- SPN_FAULT_N has been low for 200 ns, or returns high (R356). -/
def Dev.powerStage (d : Dev) : Dev :=
  let d := { d with spn := { d.spn with drvLow := true, held := true } }
  let d := (d.spnCoast.showGates.wr .SPN_CTL_RUN 0 0).stick .SPN_STAT_DRVFLT
  d.raise 20 0 (d.word .SPN_STAT)

def Dev.powerStageClear (d : Dev) : Dev := { d with spn := { d.spn with drvLow := false } }

/-! ### Start-up and commutation (R362-R368) -/

/-- The peaks of a polarity test differ by less than 3% (R363). -/
def peaksClose (p q : Nat) : Bool := decide (100 * (max p q - min p q) < 3 * max p q) || (p == 0 && q == 0)

/-- A detection attempt ends with the peak currents of its two pulses (R362, R363). -/
def Dev.detectEnd (d : Dev) (p q : Nat) : Dev :=
  if d.rd .SPN_STAT_STATE != 2 || d.spn.retry then d
  else if !peaksClose p q then d.spnState 3
  else
    let n := d.spn.attempts + 1
    let d := { d with spn := { d.spn with attempts := n, retry := decide (n < 3), retryAt := d.now } }
    if n < 3 then d.showGates
    else
      let d := ((d.wr .SPN_CTL_RUN 0 0).spnState 1).stick .SPN_STAT_STARTFAIL
      d.raise 21 0 (d.word .SPN_STAT)

/-- 10 ms after a failed attempt the next one starts (R363). -/
def Dev.detectRetry (d : Dev) : Dev :=
  if d.rd .SPN_STAT_STATE == 2 && d.spn.retry && decide (d.spn.retryAt + 12500000 ≤ d.now) then
    ({ d with spn := { d.spn with retry := false } }).toDetect
  else d

/-- The handover from INJECT to BEMF (R359, R367). -/
def Dev.handoverBemf (d : Dev) : Dev :=
  if d.rd .SPN_STAT_STATE == 3 && decide (110000 ≤ d.rd .SPN_MEAS_SPEED) then d.toBemf else d

/-- The phase advance at a speed, in 0.25° electrical: linear between the entries of SPN_PADV (R368), rounded down. -/
def Dev.phaseAdvance (d : Dev) (speed : Nat) : Nat :=
  let ent (i : Nat) : Nat := min 120 (d.rd (if i % 2 = 0 then .SPN_PADV_EVEN else .SPN_PADV_ODD) (i / 2))
  let i := min 15 (speed / 51200)
  if i = 15 then ent 15
  else
    let r := speed % 51200
    (ent i * (51200 - r) + ent (i + 1) * r) / 51200

/-- I, the mean of the last two commutation intervals (R366). -/
def Spn.interval (x : Spn) : Nat := x.ivals.sum / max 1 x.ivals.length

/-- The cycle at which the commutation after the last falls: behind the crossing by I ÷ 2 less the phase advance; without one, an interval
after the last (R366, R368; DEDUCED, log 94). -/
def Dev.commutesAt (d : Dev) : Nat :=
  let x := d.spn
  let i := x.interval
  if x.zc then x.zcAt + (120 - d.phaseAdvance (d.rd .SPN_MEAS_SPEED)) * i / 240 else x.commAt + i

/-! ### Speed (R369-R372) -/

/-- The effective target, 0.01 rpm (R371, R380). -/
def Dev.effTarget (d : Dev) : Nat :=
  ((d.rd .SPN_SPEED_TARGET : Int) * (1000000 + d.phaseTrimNow) / 1000000).toNat

/-- OVSREF follows the effective target up at once, and down once the speed has fallen to 1.10 × the new one (R370). -/
def Dev.setOvsRef (d : Dev) : Dev :=
  let new := max 180000 d.effTarget
  if d.spn.ovsRef ≤ new || decide (100 * d.rd .SPN_MEAS_SPEED ≤ 110 * new) then { d with spn := { d.spn with ovsRef := new } } else d

/-- INRANGE (R371). -/
def Dev.setInRange (d : Dev) : Dev :=
  let t := d.rd .SPN_SPEED_TARGET
  d.wrb .SPN_STAT_INRANGE 0 (d.on .SPN_STAT_ATSPEED && decide (540000 ≤ t) && decide (t ≤ 720000))

/-- A write of SPN_SPEED (R372). A changed target starts the count of revolutions for ATSPEED again. -/
def Dev.speedTarget (d : Dev) (w : Nat) : Dev :=
  let t := w % 2 ^ 20
  if t < 180000 || decide (720000 < t) then d.stick .SPN_STAT_BADCFG
  else if t = d.rd .SPN_SPEED_TARGET then d
  else
    let d := ({ d with spn := { d.spn with inTol := 0 } }).wr .SPN_SPEED_TARGET 0 t
    (d.wr .SPN_STAT_ATSPEED 0 0).setInRange.setOvsRef

/-- A write of SPN_MOTOR (R387). -/
def Dev.motorConfig (d : Dev) (w : Nat) : Dev :=
  let st := d.rd .SPN_STAT_STATE
  let poles := bits w 0 4
  if (st != 0 && st != 1) || decide (23 < bits w 24 5) || decide (23 < bits w 16 5) || decide (23 < bits w 8 5) ||
      decide (poles < 2) || decide (8 < poles) then
    d.stick .SPN_STAT_BADCFG
  else d.putFields .SPN_MOTOR 0 w

/-- The source of the measured speed (R369). -/
def Dev.speedSource (d : Dev) : Nat :=
  let st := d.rd .SPN_STAT_STATE
  if (List.range 4).any d.usable then 3
  else if st = 4 ∨ (st = 5 ∧ d.spn.seen ≠ 0) then 2
  else if st = 2 ∨ st = 3 then 1 else 0

/-- Overspeed (R370). -/
def Dev.overspeed (d : Dev) : Dev :=
  let now := decide (110 * d.spn.ovsRef < 100 * d.rd .SPN_MEAS_SPEED) && d.spn.ovsRef != 0
  let was := d.spn.fast
  let d := { d with spn := { d.spn with fast := now } }
  if now && !was then
    let d := d.spnCoast.stick .SPN_STAT_OVERSPEED
    d.raise 22 0 (d.word .SPN_MEAS)
  else d

/-- The speed that a source shows, 0.01 rpm: the rate estimate, the commutation intervals, or the injection estimate `v` (R369). -/
def Dev.speedBy (d : Dev) (src v : Nat) : Nat :=
  match src with
  | 3 => (d.ang.rate.getD 0) * 7500000000000 / 2 ^ 40
  | 2 => d.intervalAt d.spn.interval
  | 1 => v
  | _ => 0

/-- The mean speed of the revolution that has ended, where frames give it (R371). -/
def Dev.revSpeed (d : Dev) (src v : Nat) : Nat :=
  if src = 3 && d.rd .ANG_PERIOD_CYCLES != 0 then 7500000000000 / d.rd .ANG_PERIOD_CYCLES else d.speedBy src v

/-- The measured speed updates; `revEnd`: a revolution has ended (R369-R371). -/
def Dev.measureSpeed (d : Dev) (v : Nat) (revEnd : Bool) : Dev :=
  let src := d.speedSource
  let d := (d.wr .SPN_STAT_SRC 0 src).wr .SPN_MEAS_SPEED 0 (min (d.speedBy src v) (2 ^ 20 - 1))
  let d := d.setOvsRef
  let e := d.effTarget
  let d := if !revEnd then d
    else
      let m := d.revSpeed src v
      let ok := decide (1000 * (max m e - min m e) ≤ e) && src != 0
      let n := if ok then d.spn.inTol + 1 else 0
      (({ d with spn := { d.spn with inTol := n } }).wrb .SPN_STAT_ATSPEED 0 (decide (16 ≤ n))).setInRange
  d.overspeed.spnBySpeed.showGates

/-- A zero crossing of phase U, V or W (0 to 2): in BEMF that of the floating phase, behind the blanking and before 0.75 × I (R365, R366);
in COAST the crossings are counted; in PFAIL the phase's leg switches on it (R376). -/
def Dev.zeroCrossing (d : Dev) (phase : Nat) (up : Bool) : Dev :=
  let x := d.spn
  match d.rd .SPN_STAT_STATE with
  | 4 =>
    let t := d.now - x.commAt
    if x.zc || (stepLegs x.step).2.2 != phase || decide (256 * t < d.rd .SPN_BEMF_BLANK * x.interval) || decide (3 * x.interval < 4 * t) then d
    else { d with spn := { x with zc := true, misses := 0, zcAt := d.now } }
  | 5 =>
    let iv := if x.seen = 0 then [] else ((d.now - x.zcAt) :: x.ivals).take 2
    ({ d with spn := { x with seen := x.seen + 1, zcAt := d.now, ivals := iv } }).spnBySpeed
  | 7 =>
    let rect := (List.range 3).map fun l => if l = phase then (if up then .high else .low) else x.rect.getD l .off
    ({ d with spn := { x with rect := rect } }).showGates
  | _ => d

/-- The commutation point of BEMF: without a crossing it counts a miss, and ZCMISS of them in a row lose the rotor (R359, R366). -/
def Dev.commutate (d : Dev) : Dev :=
  let x := d.spn
  let at' := d.commutesAt
  if d.rd .SPN_STAT_STATE != 4 || decide (d.now < at') then d
  else
    let x' := { x with step := (x.step + 1) % 6, zc := false, misses := if x.zc then x.misses else x.misses + 1, commAt := at',
                       ivals := ((at' - x.commAt) :: x.ivals).take 2 }
    let d := { d with spn := x' }
    if !x.zc && decide (max 1 (d.rd .SPN_BEMF_ZCMISS) ≤ x'.misses) then (d.spnState 5).stick .SPN_STAT_ZCLOST
    else if d.speedSource = 2 then d.showGates.measureSpeed 0 false else d.showGates

/-- No crossing for 2 s in COAST (R359). -/
def Dev.coastTimeout (d : Dev) : Dev :=
  if d.rd .SPN_STAT_STATE == 5 && decide (d.spn.zcAt + 2500000000 ≤ d.now) then (d.spnState 1).spnStart else d

/-- One update of the PI regulator, `ms` milliseconds after the last (R371): the duty lies within 0 and 1. Above the target by
more than 0.5% the drive stops. -/
def Dev.regulate (d : Dev) (ms : Nat) : Dev :=
  let st := d.rd .SPN_STAT_STATE
  if st != 3 && st != 4 then d
  else
    let t := d.effTarget
    let v := d.rd .SPN_MEAS_SPEED
    let tooFast := decide (1005 * t < 1000 * v)
    let d := ({ d with spn := { d.spn with slow := tooFast } }).showGates
    if tooFast then { d with spn := { d.spn with duty := 0 } }
    else
      let e : Int := (t : Int) - v
      let full : Int := 100 * 2 ^ 20
      let i := max (-full) (min full (d.spn.integ + d.rd .SPN_REG_KI * e * ms))
      let u := max 0 (min full (64 * d.rd .SPN_REG_KP * e + i))
      { d with spn := { d.spn with duty := u, integ := i } }

/-- The effective current limit (R357). -/
def Dev.effLimit (d : Dev) : Nat := min (d.rd .SPN_ILIM_RUN) (d.rd .SPN_GRANT_LIMIT)

/-- A new PWM period takes the frequency, the dead time and the limit in force, and is shorter after a period that was cut; the
spec does not say by how much (a free value, log 3) (R354, R355, R357, R358). -/
def Dev.pwmPeriod (d : Dev) : Dev :=
  let x := d.spn
  let k : Int := Int.ofNat (d.fresh % 65536)
  let duty := if x.cut then x.duty * k / 65536 else x.duty
  let e := if x.cut then d.used else d
  let dead := 10 * max 4 (d.rd .SPN_PWM_DEAD)
  let freq := max 20 (min 160 (d.rd .SPN_PWM_FREQ))
  ({ e with spn := { x with pwmFreq := freq, pwmDead := dead, pwmLim := d.effLimit, cut := false, duty := duty } }).showGates

/-- A phase-current sample, mA (R357, R373): over the limit of the present PWM period its active part ends at once. -/
def Dev.phaseCurrent (d : Dev) (ma : Nat) : Dev :=
  let st := d.rd .SPN_STAT_STATE
  let brakes := st == 6 || (d.spn.slow && d.on .SPN_CTL_DECEL)
  if (if brakes then d.rd .SPN_ILIM_BRK else d.spn.pwmLim) < ma && (brakes || st == 3 || st == 4) then
    (({ d with spn := { d.spn with cut := true } }).emit .pwmCut).showGates
  else d

/-- A braking window, one every 10 ms, in which the low sides are open for 100 µs, reads a back-EMF amplitude of `mv` millivolts (R373). -/
def Dev.brakeSense (d : Dev) (mv : Nat) : Dev :=
  if d.rd .SPN_STAT_STATE != 6 || decide (d.now < d.spn.senseAt + 12500000) then d
  else
    let dead := max 40 d.spn.pwmDead
    let d := (d.emit (.gates (allLegs .off) dead)).emit (.gates d.spn.gates dead)
    let d := { d with spn := { d.spn with senseAt := d.now } }
    if 50 ≤ mv then { d with spn := { d.spn with stopWin := 0 } }
    else if d.spn.stopWin = 0 then { d with spn := { d.spn with stopWin := 1 } }
    else (d.spnState 1).spnStart

/-! ### Phase-lock (R380, R381) -/

/-- Slots of the rack: SLOTS + 1 (R380). -/
def Dev.phaseSlots (d : Dev) : Nat := max 1 (d.rd .SPN_PHLOCK_SLOTS) + 1

/-- The phase error at a marker of fraction `phi`, times the number of slots, which keeps the target fraction exact (R380). -/
def Dev.phaseErr (d : Dev) (phi : Nat) : Int :=
  let n := d.phaseSlots
  let k := d.rd .SPN_PHLOCK_SLOT % n
  let m := n * rev
  let x := (n * phi + m - (n - k) % n * rev) % m
  if 2 * x < m then Int.ofNat x else Int.ofNat x - Int.ofNat m

/-- The error and the trim as the registers show them: the law of the trim is not stated, so it is a free value within the
limit (log 3). -/
def Dev.phaseTrim (d : Dev) (e : Int) : Dev :=
  let lim := 4 * d.rd .SPN_PHLOCK_TRIM
  let trim : Int := Int.ofNat (d.fresh % (2 * lim + 1)) - Int.ofNat lim
  let d := { d with spn := { d.spn with trimBack := none } }
  (d.used.wr .SPN_PHERR_ERR 0 (unsigned 16 (e / Int.ofNat (256 * d.phaseSlots)))).wr .SPN_PHERR_TRIM 0 (unsigned 16 trim)

/-- Markers within LOCKTOL in a row. -/
def Dev.phaseCount (d : Dev) (e : Int) : Dev :=
  let ok := if e.natAbs ≤ d.phaseSlots * (d.rd .SPN_PHLOCK_LOCKTOL * 4096) then d.spn.phOk + 1 else 0
  let d := ({ d with spn := { d.spn with phOk := ok } }).setOvsRef
  if 16 ≤ ok then d.wr .SPN_STAT_PHLOCKED 0 1 else d

/-- A rack phase marker of fraction `phi`, a marker period after the one before it where that is known (R380, R381). -/
def Dev.phaseMarker (d : Dev) (phi : Nat) (period : Option Nat) : Dev :=
  let cicada := d.rd .SPN_SPEED_TARGET == 180000 && d.on .SPN_STAT_ATSPEED
  if !d.on .SPN_PHLOCK_EN || !d.angValid || !(d.on .SPN_STAT_INRANGE || cicada) then d
  else
    let per := d.rd .ANG_PERIOD_CYCLES
    let off := (period.map fun g => decide (per < 1000 * (max g per - min g per))).getD false
    if off then d.stick .SPN_STAT_RATEERR
    else
      let d := { d with spn := { d.spn with markAt := d.now, markPer := some (period.getD per) } }
      let e := d.phaseErr phi
      (d.phaseTrim e).phaseCount e

/-- Eight marker periods without a usable marker: the trim returns to 0 over one second (R381). -/
def Dev.phaseTimeout (d : Dev) : Dev :=
  match d.spn.markPer with
  | none => d
  | some p =>
    if d.now < d.spn.markAt + 8 * p then d
    else
      let back := some (signed 16 (d.rd .SPN_PHERR_TRIM), d.now)
      let d := { d with spn := { d.spn with phOk := 0, markPer := none, trimBack := back } }
      (d.wr .SPN_STAT_PHLOCKED 0 0).setOvsRef

/-! ### Measurement channels (R382-R385) -/

/-- A channel's state. -/
def Dev.chan (d : Dev) (c : Nat) : Chan := Tab.getD d.mac c {}

/-- Cycles between two outputs of a channel: OSR periods of 64 cycles; the codes 5 to 7 apply as 4 (R382). -/
def Dev.macPeriod (d : Dev) (c : Nat) : Nat := 64 * (16 * 2 ^ min 4 (d.rd .MAC_CHCFG_OSR c))

/-- A channel's filter is reset: the next three outputs are not valid, and the outputs count from here. Two causes in one cycle are one
reset (R384). -/
def Dev.macReset (d : Dev) (c : Nat) : Dev :=
  let y := d.chan c
  if y.fill = 3 && y.at' == d.now then d
  else ({ d with mac := Tab.put d.mac c { y with fill := 3, at' := d.now } }).count .MAC_CHSTAT_RESETS c

/-- A bus-voltage sample (R375). -/
def Dev.busSample (d : Dev) (c : Nat) (x : Int) : Dev :=
  if d.rd .SPN_MOTOR_VBUS != c then d
  else { d with spn := { d.spn with pfLow := if x < (d.rd .SPN_PFAIL_VTRIP : Int) then d.spn.pfLow + 1 else 0 } }

/-- The VCM current that channel `c` measures, if it does, is compared anew (R329). -/
def Dev.watchCurrent (d : Dev) (c : Nat) : Dev :=
  (List.range 4).foldl (fun d a => if d.rd .SRV_RUN_IMCH a == c then d.watchVcm a else d) d

/-- A channel delivers an output; `x` is what the filter gives, beyond full scale where the input is (R382-R384). -/
def Dev.macSample (d : Dev) (c : Nat) (x : Int) : Dev :=
  let y := d.chan c
  let at' := y.at' + d.macPeriod c
  if !(d.on .MAC_CTL_ENABLE && d.on .MAC_CHCFG_EN c) || decide (d.now < at') then d
  else
    let d := ({ d with mac := Tab.put d.mac c { y with fill := y.fill - 1, at' := at', outAt := some d.now } }).tally .MAC_CHDATA_COUNT c
    if y.fill != 0 then
      (((d.wr .MAC_CHDATA_DATA c 0).wr .MAC_CHDATA_VALID c 0).wr .MAC_CHDATA_CLIP c 0).watchCurrent c
    else
      let v := max (-32768) (min 32767 x)
      let d := ((d.wr .MAC_CHDATA_DATA c (unsigned 16 v)).wr .MAC_CHDATA_VALID c 1).wrb .MAC_CHDATA_CLIP c (v != x)
      let d := if v = x then d else d.stick .MAC_CHSTAT_RANGE c
      ((d.shockSample c v).busSample c v).watchCurrent c

/-- The synchronising event of a channel has just fallen, after its latest output or reset: a reference index, a reference wedge strobe,
or the firing of its compare unit (R385). -/
def Dev.macEvent (d : Dev) (c : Nat) : Bool :=
  let t := (d.chan c).at'
  match d.rd .MAC_CHSYNC_SRC c with
  | 1 => d.indexSince t
  | 2 => d.strobeSince t
  | 3 => d.lately (Tab.look d.ang.cmpAt (d.rd .MAC_CHSYNC_UNIT c)) t
  | _ => false

/-- The synchronising event of a channel (R385). -/
def Dev.macSync (d : Dev) (c : Nat) : Dev :=
  let y := d.chan c
  if !d.macEvent c || !y.armed || !d.angValid then d
  else
    let d := if d.on .MAC_CHSYNC_EACH c then d else { d with mac := Tab.put d.mac c { y with armed := false } }
    d.macReset c

/-- A write of MAC_CHCFG (R384): RESET, a change of OSR and the enabling of the channel reset its filter. -/
def Dev.macConfig (d : Dev) (c w : Nat) : Dev :=
  let reset := bit w 4 || min 4 (bits w 1 3) != min 4 (d.rd .MAC_CHCFG_OSR c) || (bit w 0 && !d.on .MAC_CHCFG_EN c)
  let d := (d.wr .MAC_CHCFG_OSR c (bits w 1 3)).wrb .MAC_CHCFG_EN c (bit w 0)
  if reset then d.macReset c else d

end Sys2Proof.Machine
end

