-- ==== Sys2Proof/Machine/Engines.lean ====
section
/-! DEFINITION. The vertical engines around their micro-ops (11_vertical_engines): states, adoption, abandons and machine
checks, dispatch, timers, mailboxes and the control-store windows. -/

namespace Sys2Proof.Machine

/-! ### States and registers -/

/-- Engine `e`'s state code (R408): 0 OFF, 1 IDLE, 2 RUN, 3 HALTED, 4 MCHK. -/
def Dev.veState (d : Dev) (e : Nat) : Nat := d.rd .VE_ESTAT_STATE e

/-- General register `n`, 48 bits: G0 reads 0 (R398). -/
def Eng.reg (x : Eng) (n : Nat) : Nat := if n = 0 then 0 else Tab.getD x.g n 0

/-- The registers with `n` written; a write of G0 is ignored (R398). -/
def Eng.put (x : Eng) (n v : Nat) : Eng := if n = 0 then x else { x with g := Tab.store x.g 0 n (v % 2 ^ 48) }

/-- The engine with nothing under way. -/
def Eng.clear (x : Eng) : Eng :=
  { x with run := none, stack := [], pos := 0, res := [], buffer := [], loads := [], noPre := false }

/-- Put a trigger at the head of its queue. -/
def Eng.requeue (x : Eng) (t : Trig) : Eng := { x with queues := t :: x.queues }

/-! ### Adoption (R412, R413) -/

/-- The command engine in IDLE or RUN with the fewest queued triggers that `f` counts, the lowest number on ties. -/
def Dev.fewest (d : Dev) (f : Trig → Bool) : Option Nat :=
  let n (k : Nat) : Nat := ((d.trigQueue (4 + k)).filter f).length
  ((List.range 8).filter d.ceWorks).foldl
    (fun (best : Option Nat) k => match best with | some b => if n k < n b then some k else best | none => some k) none

/-- The owner number of command engine `k` passes to engine `j`. -/
def Ve.pass (v : Ve) (o target : Nat) : Ve :=
  { v with adopt := Tab.put (v.adopt.map fun e => if e.2 = o then (e.1, target) else e) o target }

/-- A halted or checked command engine's queue and jobs move to an adopter, where there is one (R413). -/
def Dev.adoptFrom (d : Dev) (k : Nat) : Dev :=
  if d.ceWorks k || d.veState (4 + k) == 0 then d
  else
    match d.fewest fun _ => true with
    | none => d
    | some j =>
      let x := d.eng (4 + k)
      let y := d.eng (4 + j)
      let ve := d.ve.pass (d.ownerId k) (d.ownerId j)
      let d := { d with ve := { ve with gen := Tab.put ve.gen k (Tab.getD ve.gen k 0 + 1) } }
      (d.setEng (4 + k) { x with queues := [] }).setEng (4 + j) { y with queues := y.queues ++ x.queues }

/-- As for an engine whose routine has just been thrown away: its trigger goes to the head of the adopter's queue (R413). -/
def Dev.adoptWith (d : Dev) (k : Nat) (t : Option Trig) : Dev :=
  let d := (List.range 8).foldl Dev.adoptFrom d
  match t with
  | none => d
  | some t =>
    let e := match d.fewest fun _ => true with | some _ => 4 + d.ceOf (k % 8 + 8 * (Tab.getD d.ve.gen k 0 - 1)) | none => 4 + k
    d.setEng e ((d.eng e).requeue t)

/-- No command engine is left in IDLE or RUN: CEALL (R413). -/
def Dev.checkCeAll (d : Dev) : Dev := if d.anyCe then d else d.raise 28 0 (d.word .VE_STAT)

/-- A command engine has come back: engines still waiting for an adopter find one, and held records are delivered (R413). -/
def Dev.ceBack (d : Dev) : Dev :=
  let d := (List.range 8).foldl Dev.adoptFrom d
  let held := d.ve.held
  let d := { d with ve := { d.ve with held := [] } }
  held.foldl (fun d h => d.ceTrigger h.1 h.2.type h.2.src h.2.a0 h.2.a1 h.2.a2 h.2.a3) d

/-! ### Ends of routines (R406, R407, R409) -/

/-- Queue a FAULT trigger that carries trigger `t` with a cause code. -/
def Dev.faultTrigger (d : Dev) (e : Nat) (t : Trig) (cause : Nat) : Dev :=
  let d := d.trigger e tFault t.src (t.type % 32 + cause % 16 * 256) t.a0 t.a1 t.a2
  let d := (d.stick .VE_ESTAT_FAULTV e).count .VE_ECNT2_FAULTS e
  d.raise 25 e (d.word .VE_ESTAT e)

/-- Entry to MCHK (R409): the cause is recorded, the routine is discarded, and an actuator whose engine it is goes OUT. -/
def Dev.machineCheck (d : Dev) (e cause : Nat) (t : Option Trig) : Dev :=
  let d := ((d.wr .VE_ESTAT_STATE e 4).wr .VE_ESTAT_CAUSE e cause).count .VE_ECNT2_MCHKS e
  let d := match cause with
    | 8 => d.stick .VE_ESTAT_SBFULL e
    | 9 => d.stick .VE_ESTAT_CSPAR e
    | _ => d.stick .VE_ESTAT_ILLEGAL e
  let d := if cause = 9 then d.raise 26 e (d.word .VE_EPC e) else d.raise 27 e (d.word .VE_ESTAT e)
  if e < 4 then
    let d := match t with | some t => d.setEng e ((d.eng e).requeue t) | none => d
    d.actOut e
  else (d.adoptWith (e - 4) t).checkCeAll

/-- The routine of engine `e` ends by a cause of R406: abandoned while it is uncommitted, and TAIL after its COMMIT. -/
def Dev.veEnd (d : Dev) (e cause : Nat) : Dev :=
  let x := d.eng e
  match x.run with
  | none => d
  | some t =>
    if d.veState e != 2 then d
    else
      let com := d.on .VE_ESTAT_COMMITTED e
      let nested := t.type == tFault && decide (2 ≤ cause) && decide (cause ≤ 5)
      let cause := if nested then 10 else if com && decide (2 ≤ cause) && decide (cause ≤ 5) then 6 else cause
      if com && decide (cause < 2) then d
      else
        let y := if com then x.clear else { x.clear with g := x.g0 }
        let d := (d.setEng e y).wr .VE_ESTAT_COMMITTED e 0
        let d := (if com then d else d.count .VE_ECNT_ABANDONS e).wr .VE_ESTAT_CAUSE e cause
        let again : Trig := { t with restarts := min 255 (t.restarts + 1) }
        let d := d.wr .VE_ESTAT_STATE e 1
        match cause with
        | 0 | 1 => d.setEng e ((d.eng e).requeue { again with flts := 0 })
        | 2 | 3 =>
          if t.flts + 1 < max 1 (d.rd .VE_ECFG_FLTRST e) then
            d.setEng e ((d.eng e).requeue { again with flts := t.flts + 1 })
          else d.faultTrigger e t cause
        | 4 | 5 => d.faultTrigger e t cause
        | 6 => (d.stick .VE_ESTAT_TAIL e).faultTrigger e t 6
        | _ => d.machineCheck e cause (if com then none else some again)

/-- A trigger that preempts (R406, R418): of higher priority, or a REFSMP over any other routine of a servo engine. -/
def Dev.preempts (d : Dev) (e : Nat) : Bool :=
  let x := d.eng e
  match x.run with
  | none => false
  | some t =>
    d.veState e == 2 && !d.on .VE_ESTAT_COMMITTED e && !x.noPre &&
      (d.trigQueue e).any fun u => decide (t.prio < u.prio) || (decide (e < 4) && u.type == tRefsmp && t.type != tRefsmp)

/-- Preemption in the cycle in which the trigger is queued (R406, R418). -/
def Dev.preempt (d : Dev) (e : Nat) : Dev :=
  if !d.preempts e then d
  else
    let ref := decide (e < 4) && (d.trigQueue e).any fun u => u.type == tRefsmp
    let d := d.veEnd e 0
    d.setEng e { d.eng e with refNext := ref }

/-- Every engine. -/
def Dev.preemptAll (d : Dev) : Dev := (List.range 12).foldl Dev.preempt d

/-! ### States (R408-R411) -/

/-- An engine goes from OFF to IDLE with INIT queued (R408). -/
def Dev.veOn (d : Dev) (e : Nat) : Dev :=
  if d.veState e != 0 || !d.on .VE_ECTL_ENABLE e then d
  else
    let d := (d.wr .VE_ESTAT_STATE e 1).trigger e tInit 0 0 0 0 0
    if e < 4 then d else d.ceBack

/-- An engine goes to OFF: its queues are discarded; G1 to G26 are undefined afterwards, so they are free values (R411). -/
def Dev.veOff (d : Dev) (e : Nat) : Dev :=
  let free := (List.range 26).foldl (fun (x : Eng) k => x.put (k + 1) (Config.freeValue (d.free + k))) {}
  let d := { d with free := d.free + 26 }
  ((d.setEng e free).wr .VE_ESTAT_STATE e 0).wr .VE_ESTAT_COMMITTED e 0

/-- HALT would be ignored: a servo engine whose actuator is neither PARKED nor OFF nor OUT (R410). -/
def Dev.haltBarred (d : Dev) (e : Nat) : Bool :=
  decide (e < 4) && d.rd .SRV_STAT_MODE e != 0 && d.rd .SRV_STAT_SVC e != unitOff && d.rd .SRV_STAT_SVC e != unitOut

/-- VE_ECTL.HALT written 1 (R408, R410, R413). -/
def Dev.veHalt (d : Dev) (e : Nat) : Dev :=
  if d.haltBarred e then d.stick .VE_ESTAT_HIGN e
  else
    match d.veState e with
    | 1 =>
      let d := d.wr .VE_ESTAT_STATE e 3
      if e < 4 then d else (d.adoptWith (e - 4) none).checkCeAll
    | 2 =>
      if d.on .VE_ESTAT_COMMITTED e then d.setEng e { d.eng e with halting := true }
      else
        let d := (d.veEnd e 1).wr .VE_ESTAT_STATE e 3
        if e < 4 then d
        else
          let x := d.eng e
          ((d.setEng e { x with queues := x.queues.tail }).adoptWith (e - 4) x.queues.head?).checkCeAll
    | _ => d

/-- RESUME or CLRMCHK is ignored while the store is open (R391). -/
def Dev.csOpened (d : Dev) (e : Nat) : Bool := d.on .VE_CSSTAT_OPENED e

/-- VE_ECTL.RESUME written 1 (R391, R408). -/
def Dev.veResume (d : Dev) (e : Nat) : Dev :=
  if d.csOpened e then d.stick .VE_CSSTAT_RESREF e
  else if d.veState e != 3 then d
  else
    let d := d.wr .VE_ESTAT_STATE e 1
    if e < 4 then d else d.ceBack

/-- VE_ECTL.CLRMCHK written 1 (R391, R408). -/
def Dev.veClrMchk (d : Dev) (e : Nat) : Dev :=
  if d.csOpened e then d.stick .VE_CSSTAT_RESREF e
  else if d.veState e != 4 then d
  else
    let d := (d.wr .VE_ESTAT_STATE e 1).trigger e tInit 0 0 0 0 0
    if e < 4 then d else d.ceBack

/-! ### Triggers from registers and timers (R403) -/

/-- The routine of engine `e` has run RTLIM × 1,024 cycles of the 1.0 GHz VE clock (R389, R406; 0 applies as 1). -/
def Dev.routineTimeout (d : Dev) (e : Nat) : Dev := if d.waited (.routine e) (max 1 (d.rd .VE_ECFG_RTLIM e) * 1280) then d.veEnd e 3 else d

/-- VE_ETIMER's period passes. -/
def Dev.veTimer (d : Dev) (e : Nat) : Dev :=
  let x := d.eng e
  let n := d.rd .VE_ETIMER_PERIOD e * 1250
  if !d.waited (.veTimer e) n then d
  else
  let d := d.nextPeriod (.veTimer e) n
  let has := x.queues.any (fun t => t.type == tTimer) || ((x.run.map fun t => t.type == tTimer)).getD false
  if !d.on .VE_ETIMER_PERIOD e || has then d else d.trigger e tTimer 0 0 0 0 0

/-- A write of VE_MBOXHI with the ARG0 its LO half holds. -/
def Dev.mailbox (d : Dev) (e lo hi : Nat) : Dev :=
  let d := (d.wr .VE_MBOXLO_DATA e lo).wr .VE_MBOXHI_DATA e hi
  if queueRoom e ≤ (d.eng e).queues.length then d.stick .VE_ESTAT_MBFULL e
  else d.trigger e tMsg 0 (lo % 2 ^ 32) (hi % 2 ^ 16) 0 0

/-! ### Control stores (R390, R391) -/

/-- VE_CSCTL.OPEN written (R391). -/
def Dev.veStoreOpen (d : Dev) (e : Nat) (on : Bool) : Dev :=
  let d := d.wrb .VE_CSCTL_OPEN e on
  let st := d.veState e
  if !on then d.wr .VE_CSSTAT_OPENED e 0
  else if st == 0 || st == 3 || st == 4 then d.wr .VE_CSSTAT_OPENED e 1
  else d

/-- Address of micro-op `w` of engine `e` (R35, R390). -/
def uopAddr (e w : Nat) : Nat := veStore + e * 0x20000 + 4 * (w % 32768)

/-- The window takes aligned 32-bit accesses of the management cores and, before handover, of CFG (R391). -/
def Dev.veAdmits (d : Dev) (m : Master) (off size : Nat) : Bool :=
  let who := match m with
    | .mc _ => true
    | .cfg => !d.handed
    | _ => false
  who && size == 4 && off % 4 == 0

/-- A master's write of the store window (R391). -/
def Dev.veStoreWrite (d : Dev) (m : Master) (e off size v : Nat) : Dev :=
  if !d.veAdmits m off size then d.emit (.busError m.id)
  else if m == .cfg || d.csOpened e then d.st32 (uopAddr e (off / 4)) v
  else d.stick .VE_CSSTAT_WDROP e

/-- A master's read of the store window; `bad`: a parity error is found. -/
def Dev.veStoreRead (d : Dev) (m : Master) (e off size : Nat) (bad : Bool) : Dev :=
  if !d.veAdmits m off size then d.emit (.busError m.id)
  else (if bad then d.stick .VE_CSSTAT_RPERR e else d).emit (.data m.id (d.ld32 (uopAddr e (off / 4))))

/-- A write of a general register by VE_GHI, with the VE_GLO half buffered: in HALTED only (R419). -/
def Dev.veRegWrite (d : Dev) (e g lo hi : Nat) : Dev :=
  if d.veState e != 3 then d else d.setEng e ((d.eng e).put g (lo % 2 ^ 32 + hi % 2 ^ 16 * 2 ^ 32))

end Sys2Proof.Machine
end

