-- ==== Sys2Proof/Machine/Access.lean ====
section
/-! DEFINITION. Register space as its masters see it: which register an offset names (R39, R49-R53), what a read returns and
does (R14, R56, R57), and the halves of two-step writes (R58). -/

namespace Sys2Proof.Machine

/-! ### Decoding an offset -/

/-- The offset of an address in register space, whose base is a multiple of its 16 MiB (R35). -/
def regOffset (a : Nat) : Nat := a % 2 ^ 24

/-- What an offset from REG_BASE names. -/
inductive Target where
  | busError                    -- an unassigned range (R50)
  | hole                        -- reads 0 and ignores writes (R51, R52)
  | reg (r : Reg) (i : Nat)
  | evtWord (k : Nat)           -- word k of the event buffer window
  deriving DecidableEq, Repr

/-- The block window of R49 that holds offset `o`, if any. -/
def blockAt (o : Nat) : Option Block :=
  let ws : List (Block × Nat × Nat) :=
    [(.SYS, 0, 0x10000), (.CFG, 0x10000, 0x10000), (.FLT, 0x20000, 0x10000), (.EVT, 0x30000, 0x10000),
     (.ANG, 0x100000, 0x10000), (.LNX, 0x110000, 0x10000), (.LANE, 0x200000, 0x100000), (.RDI, 0x300000, 0x100000),
     (.ITB, 0x400000, 0x80000), (.TPE, 0x480000, 0x80000), (.FSQ, 0x500000, 0x100000), (.WRF, 0x600000, 0x100000),
     (.SRV, 0x700000, 0x80000), (.ARM, 0x780000, 0x80000), (.SPN, 0x800000, 0x80000), (.MAC, 0x880000, 0x80000),
     (.VE, 0x900000, 0x100000), (.HIF, 0xA00000, 0x100000), (.SCH, 0xB00000, 0x100000), (.MEM, 0xC00000, 0x80000),
     (.DMA, 0xC80000, 0x80000), (.CHK, 0xD00000, 0x80000), (.CMP, 0xD80000, 0x80000), (.HLT, 0xE00000, 0x100000),
     (.SVC, 0xF00000, 0x80000), (.RCK, 0xF80000, 0x80000)]
  (ws.find? fun w => decide (w.2.1 ≤ o) && decide (o < w.2.1 + w.2.2)).map Prod.fst

/-- Fold a region that begins at `base`, is `span` long and repeats every `per` bytes. -/
def foldRegion (o base span per : Nat) : Nat := if base ≤ o ∧ o < base + span then base + (o - base) % per else o

/-- The sequencer window: the eight instances of an actuator's FSQ_CSCTL and FSQ_CSSTAT are one register (R278). -/
def foldFsq (o : Nat) : Nat :=
  if 0x500000 ≤ o ∧ o < 0x600000 then
    let x := (o - 0x500000) % 0x80000
    let l := x % 0x4000
    0x500000 + (if l = 0x200 ∨ l = 0x204 then x / 0x20000 * 0x20000 + l else x)
  else o

/-- Every alias of R49, R52 and the chapters' array notes removed. -/
def foldAlias (o : Nat) : Nat :=
  let o := foldRegion o 0x200000 0x100000 0x40000
  let o := foldRegion o 0x300000 0x100000 0x10000
  let o := foldRegion o 0x700000 0x80000 0x40000
  let o := foldRegion o 0x100400 0x400 0x80
  let o := foldRegion o 0x102000 0x400 0x200
  let o := foldRegion o 0x102400 0x400 0x200
  let o := foldRegion o 0x103000 0x1000 0x200
  let o := foldRegion o 0x401000 0x1000 0x400
  let o := foldRegion o 0x780000 0x1000 0x400
  let o := foldRegion o 0x781000 0x400 0x200
  let o := foldRegion o 0x881000 0x1000 0x400
  let o := foldRegion o 0xA01000 0x1000 0x200
  foldFsq o

/-- The instance of register `r` at offset `o`, if it is one. -/
def Reg.at (r : Reg) (o : Nat) : Option Nat :=
  if o < r.info.off then none
  else
    let x := o - r.info.off
    match r.info.dims with
    | [] => if x = 0 then some 0 else none
    | [(n, s)] => if x % s = 0 ∧ x / s < n then some (x / s) else none
    | (n, s) :: (m, t) :: _ =>
      if x % s % t = 0 ∧ x / s < n ∧ x % s / t < m then some (x / s * m + x % s / t) else none

/-- The masters' banked registers (R472, R582). -/
def banked : List Reg := [.SCH_RQRSPLO, .SCH_RQRSPHI, .HLT_RWRSPLO, .HLT_RWRSPHI]

/-- What a master's access to offset `o` names. -/
def targetOf (m o : Nat) : Target :=
  match blockAt o with
  | none => .busError
  | some b =>
    if 0x38000 ≤ o ∧ o < 0x40000 then .evtWord ((o - 0x38000) / 4)
    else
      let x := foldAlias o
      match b.regs.findSome? fun r => (r.at x).map fun i => (r, i) with
      | some (r, i) => .reg r (if banked.contains r then m else i)
      | none => .hole

/-! ### Holding registers and LO halves -/

/-- The key of a quantity for a master. -/
def holdKey (m : Nat) (r : Reg) (i : Nat) : Nat := (i * 512 + r.ctorIdx) * 32 + m

/-- The registers whose values a read of `r` captures for its master (R57). -/
def Reg.captures : Reg → List Reg
  | .SYS_CONFLICT => [.SYS_CONFLICT_ADDR]
  | .ANG_LO => [.ANG_HI, .ANG_TSLO, .ANG_TSHI]
  | .ANG_CMPTGTLO => [.ANG_CMPTGTHI]
  | .ITB_GUARLO => [.ITB_GUARHI]
  | .ITB_BORRLO => [.ITB_BORRHI]
  | .FSQ_JSTARTLO => [.FSQ_JSTARTHI]
  | .FSQ_STAMPLO => [.FSQ_STAMPHI, .FSQ_STAMPPOS]
  | .WRF_MDEXPLO => [.WRF_MDEXPHI, .WRF_MDOBSLO, .WRF_MDOBSHI]
  | .SRV_SMP0 => [.SRV_SMP1, .SRV_SMP2, .SRV_SMP3]
  | .SCH_RQRSPLO => [.SCH_RQRSPHI]
  | .MEM_CELOGLO => [.MEM_CELOGHI]
  | .MEM_UELOGLO => [.MEM_UELOGHI]
  | .MEM_BERRLO => [.MEM_BERRHI]
  | .DMA_BERRLO => [.DMA_BERRHI]
  | .DMA_CCURLO => [.DMA_CCURHI, .DMA_CREMAIN]
  | .CHK_FAILLO => [.CHK_FAILHI]
  | .CHK_SWRESLO => [.CHK_SWRESHI]
  | .CHK_SWSEEDLO => [.CHK_SWSEEDHI]
  | .VE_GLO => [.VE_GHI]
  | .HLT_RWRSPLO => [.HLT_RWRSPHI]
  | _ => []

/-- A register that a read returns from the reading master's holding register (R57). -/
def Reg.snapped (r : Reg) : Bool :=
  [Reg.ANG_CMPTGTHI, .VE_GHI, .CHK_SWSEEDHI].contains r || r.info.flds.any fun f => f.info.acc == .snap

/-- The HI half that commits the LO half `r`, where it is one (R58, and the chapters' "buffered until … is written"). -/
def Reg.hiOf : Reg → Option Reg
  | .ANG_CMPTGTLO => some .ANG_CMPTGTHI
  | .VE_MBOXLO => some .VE_MBOXHI
  | .VE_GLO => some .VE_GHI
  | .HIF_HZTLO => some .HIF_HZTHI
  | .SCH_RQLO => some .SCH_RQHI
  | .SCH_BUFLO => some .SCH_BUFHI
  | .MEM_FLIPADDRLO => some .MEM_FLIPADDRHI
  | .DMA_CDESCLO => some .DMA_CDESCHI
  | .CHK_SWSRCLO => some .CHK_SWSRCHI
  | .CHK_SWSEEDLO => some .CHK_SWSEEDHI
  | .CMP_SUBLO => some .CMP_SUBHI
  | .CMP_DIRLO => some .CMP_DIRHI
  | .CMP_MAPLO => some .CMP_MAPHI
  | .HLT_LEDGERLO => some .HLT_LEDGERHI
  | .HLT_RWLO => some .HLT_RWHI
  | .CFG_NORBUFLO => some .CFG_NORBUFHI
  | .SVC_MADDRLO => some .SVC_MADDRHI
  | .TPE_DEFLO => some .TPE_DEFHI
  | _ => none

/-- Buffer a LO half for a master. -/
def Dev.putLo (d : Dev) (m : Nat) (r : Reg) (i w : Nat) : Dev :=
  { d with bus := { d.bus with loBuf := Tab.put d.bus.loBuf (holdKey m r i) w } }

/-- The LO half a master's HI write commits: its buffered write, or the register's present word (R58). -/
def Dev.loHalf (d : Dev) (m : Nat) (r : Reg) (i : Nat) : Nat := (Tab.look d.bus.loBuf (holdKey m r i)).getD (d.word r i)

/-- The buffered half is spent. -/
def Dev.dropLo (d : Dev) (m : Nat) (r : Reg) (i : Nat) : Dev :=
  { d with bus := { d.bus with loBuf := Tab.del d.bus.loBuf (holdKey m r i) } }

/-! ### Reading -/

/-- Word `k` of the event buffer window: eight words a record, 0 where nothing is stored. -/
def Dev.evtWord (d : Dev) (k : Nat) : Nat :=
  match Tab.look d.evt.buf (k / 8) with
  | none => 0
  | some r => match k % 8 with
    | 0 => r.w0 | 1 => r.w1 | 2 => r.w2 | 3 => r.w3 | 4 => r.w4 | 5 => r.w5 | 6 => r.w6 | _ => r.w7

/-- The value a master's read returns. -/
def Dev.readValue (d : Dev) (m o : Nat) : Option Nat :=
  match targetOf m o with
  | .busError => none
  | .hole => some 0
  | .evtWord k => some (d.evtWord k)
  | .reg r i => some (if r.snapped then Tab.getD d.bus.hold (holdKey m r i) 0 else d.word r i)

/-- RC fields of a register return to 0 (R14). -/
def Dev.clearRc (d : Dev) (r : Reg) (i : Nat) : Dev :=
  r.info.flds.foldl (fun d f => if f.info.acc == .rc then d.wr f i 0 else d) d

/-- The captures of a read (R57). -/
def Dev.capture (d : Dev) (m : Nat) (r : Reg) (i : Nat) : Dev :=
  r.captures.foldl (fun e c => { e with bus := { e.bus with hold := Tab.put e.bus.hold (holdKey m c i) (d.word c i) } }) d

/-- The effects of a read: snapshots always; RC fields clear unless the read is without side effects (R68). -/
def Dev.readEffect (d : Dev) (m o : Nat) (clear : Bool) : Dev :=
  match targetOf m o with
  | .reg r i =>
    let d := d.capture m r i
    if clear then d.clearRc r i else d
  | _ => d

/-- A master's 32-bit read of register space. -/
def Dev.regRead (d : Dev) (m o : Nat) (clear : Bool) : Dev :=
  match d.readValue m o with
  | none => d.emit (.busError m)
  | some v => (d.readEffect m o clear).emit (.data m v)

end Sys2Proof.Machine
end

