-- ==== Sys2Proof/Machine/Health.lean ====
section
/-! DEFINITION. Health (16_health_and_ageing): verify records and the boundary (R303, R585), rewrite requests (R582-R584), the work
queue and its acknowledgements (R580, R581, R594-R597), patrol selection (R593), calibration planning (R600), silicon ageing
(R601-R603), projection (R604-R607) and saving (R608). -/

namespace Sys2Proof.Machine

/-! ### Replies to masters (R472, R583, R584) -/

/-- The vertical engine that a master ID names, if it is one (R59). -/
def engineOf (m : Nat) : Option Nat := if 10 ≤ m ∧ m < 22 then some (m - 10) else none

/-- A reply: a MSG trigger to an engine, or the master's own copy of the banked registers. -/
def Dev.rewriteReply (d : Dev) (m tag word0 : Nat) (err : Bool) : Dev :=
  match engineOf m with
  | some e => d.trigger e tMsg 0 word0 (tag * 2 ^ 24 + bnat err * 2 ^ 23) 0 0
  | none =>
    let d := (d.wrb .HLT_RWRSPLO_OVER m (d.on .HLT_RWRSPLO_VALID m)).wr .HLT_RWRSPLO_VALID m 1
    let d := ((d.wrb .HLT_RWRSPLO_ERR m err).wr .HLT_RWRSPLO_TAG m tag).wr .HLT_RWRSPHI_WORD0 m word0
    if 2 ≤ m ∧ m < 10 then d.emit (.irq .HLT (m - 2)) else d

/-! ### Checkpoints and intents (R580, R581) -/

/-- Queue a CHECKPOINT of every page changed since it was last written. -/
def Dev.checkpoint (d : Dev) : Dev :=
  let ps := d.hlt.pages
  let lo := ps.foldl min (ps.headD 0)
  let hi := ps.foldl max 0
  let n := d.hlt.ckpt + 1
  let d := { d with hlt := { d.hlt with ckpt := n, pages := [] } }
  let w : Work :=
    { op := opCheckpoint, surf := 0, track := 0, head := 0, arg := lo, arg2 := if ps.isEmpty then 0 else hi + 1 - lo,
      granted := false, seq := 0, ckpt := n, pages := ps }
  d.queueWork w

/-- CKPT minutes have passed since the last (R580). -/
def Dev.checkpointDue (d : Dev) : Dev := d.periodic .checkpoint (max 1 (d.rd .HLT_JRNL_CKPT) * (60 * 1250000000)) Dev.checkpoint

/-- An item of an operation is outstanding. -/
def Dev.workHas (d : Dev) (op : Nat) : Bool := (d.hlt.held ++ d.hlt.work).any fun w => w.op == op

/-- An acknowledged intent covers a track and has an advance left (R581, R583). -/
def Dev.coversTrack (d : Dev) (surf track : Nat) (i : Intent) : Bool :=
  i.acked && i.surf == surf && decide (i.first ≤ track) && decide (track < i.first + d.rd .HLT_JRNL_SPAN) &&
    decide (Tab.getD i.adv track 0 < d.rd .HLT_JRNL_MAXADV)

/-- Ask for an intent for the first waiting request: a JOURNAL item, or a CHECKPOINT while MAXOPEN are open. -/
def Dev.askIntent (d : Dev) (surf track : Nat) : Dev :=
  let d := d.wr .HLT_STAT_JWAIT 0 1
  if d.hlt.waiting then d
  else if d.rd .HLT_JRNL_MAXOPEN ≤ (d.hlt.intents.filter Intent.acked).length then
    if d.workHas opCheckpoint then d else d.checkpoint
  else
    let i : Intent := { surf := surf, first := track, ckpt := d.hlt.ckpt, adv := [], acked := false }
    let n := d.hlt.jnext
    let d := { d with hlt := { d.hlt with intents := d.hlt.intents ++ [i], jnext := n + 1, waiting := true } }
    d.workItem opJournal surf track 0 n 0 false

/-! ### The heater rule (R597) -/

/-- HTRIM moves by STEP. -/
def Dev.heaterRule (d : Dev) (surf track : Nat) : Dev :=
  let i := ledgerIndex surf track
  let e := d.wsGet i
  let step : Int := d.rd .HLT_TRIM_STEP
  let m : Int := min 127 (d.rd .HLT_TRIM_MAX)
  let low := d.rd .HLT_MLIM_TRIMLOW
  let put (v : Int) : Dev := d.updCtl i fun e => { e with w0 := setBits e.w0 0 8 (unsigned 8 v) }
  if e.margin < low && e.contact == 0 then put (if e.htrim < m then min m (e.htrim + step) else e.htrim)
  else if low + 32 ≤ e.margin then
    put (if 0 < e.htrim then max 0 (e.htrim - step) else e.htrim)
  else d

/-! ### Rewrite requests (R582, R583) -/

/-- HLT_RWHI commits a request; a refresh adjusts the heater trim at its request (R597). -/
def Dev.rewriteRequest (d : Dev) (m lo hi : Nat) : Dev :=
  let r : RwReq := { master := m, surf := bits lo 26 6, track := bits lo 0 20, tag := bits hi 0 8, rst := bit lo 20 }
  let d := if (d.wsGet (ledgerIndex r.surf r.track)).refresh then d.heaterRule r.surf r.track else d
  { d with hlt := { d.hlt with reqs := d.hlt.reqs ++ [r] } }

/-- Steps 4 and 5 of R583; a refresh one of whose members has reached level 5 keeps SCRUB (R591). -/
def Dev.grantRewrite (d : Dev) (r : RwReq) : Dev :=
  let i := ledgerIndex r.surf r.track
  let e := d.wsGet i
  let keep := e.refresh && d.hlt.lost.contains i
  let d := { d with hlt := { d.hlt with lost := d.hlt.lost.erase i } }
  let d := if e.refresh then d.count .HLT_CNT_REFRESH else d
  let d := d.updStat i fun e => { e with w1 := setBits e.w1 16 16 0, w3 := setBits e.w3 8 8 0, passed := [] }
  let d := d.updCtl i fun e =>
    { e with w0 := setBits (setBits e.w0 8 12 2) 20 12 (e.gen + 1), w3 := if keep then e.w3 else clearBit e.w3 0 }
  let fresh := if e.written || d.hlt.fresh.contains i then d.hlt.fresh else d.hlt.fresh ++ [i]
  let d := { d with hlt := { d.hlt with fresh := fresh } }
  let adv (x : Intent) : Intent :=
    if x.acked && x.surf == r.surf && decide (x.first ≤ r.track) && decide (r.track < x.first + d.rd .HLT_JRNL_SPAN) then
      { x with adv := Tab.put x.adv r.track (Tab.getD x.adv r.track 0 + 1) }
    else x
  let d := { d with hlt := { d.hlt with intents := d.hlt.intents.map adv } }
  d.rewriteReply r.master r.tag (d.wsGet i).w0 false

/-- HLT serves its first waiting request (R583). -/
def Dev.rewriteServe (d : Dev) : Dev :=
  match if d.on .CFG_STAT_RESTORED then d.hlt.reqs else [] with
  | [] => d
  | r :: rest =>
    let e := d.wsGet (ledgerIndex r.surf r.track)
    let done := { d with hlt := { d.hlt with reqs := rest, waiting := false } }
    let done := done.wr .HLT_STAT_JWAIT 0 0
    match d.zoneOf r.surf r.track with
    | none => done.rewriteReply r.master r.tag e.w0 true
    | some z =>
      if e.bound < d.stripesOf z && !r.rst then done.rewriteReply r.master r.tag e.w0 true
      else if d.hlt.intents.any (d.coversTrack r.surf r.track) then done.grantRewrite r
      else d.askIntent r.surf r.track

/-! ### Verify records (R303-R307, R585, R589, R599) -/

/-- The key of the member a slot holds in the boundary stripe: data i as i, parity p as 128 + p, within stripe `b`. -/
def Dev.boundMember (d : Dev) (z : Zone) (surf track n b : Nat) : Option Nat :=
  match d.roleOf z surf track n with
  | .data i => if i / z.ds = b then some (i % z.ds) else none
  | .parity j p => if j = b then some (128 + p) else none
  | .spare => none

/-- A PASS at GEN sets the member's bit; with every bit of the stripe set BOUND advances. A relocated member counts for the track
that it serves (R214, R585). -/
def Dev.boundAdvance (d : Dev) (surf track n gen : Nat) : Dev :=
  let i := ledgerIndex surf (d.memberOf surf track n).1
  match Tab.look d.hlt.ws i, d.zoneOf surf track with
  | some e, some z =>
    if e.locks = 0 || e.gen != gen then d
    else
      match d.boundMember z surf track n e.bound with
      | none => d
      | some k =>
        let set := if e.passed.contains k then e.passed else e.passed ++ [k]
        let need := List.range (stripeData (d.dataOf z) z.ds e.bound) ++ (List.range z.ps).map (128 + ·)
        if need.all set.contains then
          let d := if e.bound + 1 < d.stripesOf z then d else { d with hlt := { d.hlt with fresh := d.hlt.fresh.erase i } }
          d.updCtl i fun e => { e with w0 := setBits e.w0 10 10 (e.bound + 1), passed := [] }
        else { d with hlt := { d.hlt with ws := Tab.put d.hlt.ws i { e with passed := set } } }
  | _, _ => d

/-- The mean MAG of a head's last 4,096 verify records, once there are so many, and the WCTRIM item its fall orders (R599, log 100). -/
def Dev.wcTrim (d : Dev) (h mag : Nat) : Dev :=
  let l := (mag :: Tab.getD d.hlt.mag h []).take 4096
  let mean := l.sum / 4096
  let d := { d with hlt := { d.hlt with mag := Tab.put d.hlt.mag h l } }
  if l.length < 4096 then d
  else
    let d := { d with hlt := { d.hlt with magMean := Tab.put d.hlt.magMean h mean } }
    if mean < d.rd .HLT_TRIM_WCMAG && !d.hlt.wctrim.contains h then
      ({ d with hlt := { d.hlt with wctrim := d.hlt.wctrim ++ [h] } }).workItem opWcTrim (surfOfHead h) 0 h 0 0 false
    else d

/-- What HLT takes from a verify record. -/
def Dev.hltVerify (d : Dev) (e : Emit) (res : Nat) (v : Verdict) : Dev :=
  let j := e.job
  let i := ledgerIndex j.surf j.track
  let d := match d.verifySample res (min v.mag 248) (min v.lowc 65535) (min v.mism 65535) with
    | some x => d.marginSample j.surf j.track j.head x
    | none => d
  let d := if res ≤ 3 then d.wcTrim j.head (min v.mag 248) else d
  let d := if e.attempt = 0 then d else d.updStat i fun r => { r with w3 := satField r.w3 16 8 1 }
  let d := if res = 7 || d.hlt.jobFirst.contains j.desc then d
    else ({ d with hlt := { d.hlt with jobFirst := d.hlt.jobFirst ++ [j.desc] } }).interference j.surf j.track
  if res = 0 then d.boundAdvance j.surf j.track e.slot (psaGen e.psa) else d

/-- A PASS of slot `e.slot` is noted by a unit that holds the member (R377, R641, R666). -/
def PfUnit.note (u : PfUnit) (e : Emit) : PfUnit :=
  if u.fseq = e.job.fseq ∧ u.psa / 2 ^ 22 = e.psa / 2 ^ 22 ∧ u.members.contains e.slot then { u with passed := u.passed ++ [e.slot] }
  else u

/-- The key of the member a slot holds: the PSA of its own slot, without a generation. -/
def Dev.memberKey (d : Dev) (surf track n : Nat) : Nat :=
  let m := d.memberOf surf track n
  mkPsa surf m.1 m.2 0

/-- A PASS is noted by the write command (R29). -/
def Dev.notePassed (d : Dev) (j : Job) (n : Nat) : Dev :=
  let w := d.writeLog j.fseq
  let k := d.memberKey j.surf j.track n
  if w.passed.contains k || !w.named.contains k then d
  else { d with sch := { d.sch with writes := Tab.put d.sch.writes j.fseq { w with passed := w.passed ++ [k] } } }

/-- A PASS is noted by the job in progress, by its command, and by the units of a power failure and of a quiesce. -/
def Dev.notePass (d : Dev) (s : Nat) (e : Emit) : Dev :=
  let d := d.notePassed e.job e.slot
  let q := d.seq s
  let d := if q.job == some e.job then d.setSeq s { q with passed := q.passed ++ [e.entry] } else d
  let upd (t : Tab PfUnit) : Tab PfUnit := t.map fun x => (x.1, x.2.note e)
  { d with spn := { d.spn with pfUnits := upd d.spn.pfUnits }, cfg := { d.cfg with units := upd d.cfg.units } }

/-- The verify of slot `n` of head slot `s` is judged and its record posted (R302-R307). -/
def Dev.verifyRecord (d : Dev) (s n : Nat) (stream : Option Codes) : Dev :=
  let w := d.wslot s
  match w.emits.find? fun e => e.slot == n && w.cur != some n with
  | none => d
  | some e =>
    let (res, v, ofs) := d.judgeWrite s e stream
    let d := (d.setWslot s { w with emits := w.emits.erase e }).used
    let d := d.wr .WRF_SSTAT_LASTRES s res
    let d := if res = 0 then (d.count .WRF_VCNT_PASS).count .WRF_SVCNT_PASS s
      else (d.count .WRF_VCNT_FAIL).count .WRF_SVCNT_FAIL s
    let d := if res = 6 then (d.stick .WRF_STAT_NOSTREAM).stick .WRF_SSTAT_NOSTREAM s
      else if res = 7 then d.stick .WRF_SSTAT_NOTWR s else d
    let d := match res, e.observed with
      | 8, some obs => d.misdirected s e.job.head e.psa obs
      | _, _ => d
    let d := if res = 0 then d.notePass s e else d
    let d := d.hltVerify e res v
    let d := match d.moveOf e.job.surf e.job.track e.slot with
      | some m => d.moveJudged m e.job.track e.slot res
      | none => d
    let r := vrecWords e res v ofs
    d.ceTrigger e.job.owner tVrec 0 (r.getD 0 0) (r.getD 1 0) (r.getD 2 0) (r.getD 3 0)

/-! ### Acknowledgements (R594, R596) -/

/-- The end of a patrol or scrub, or of a refresh: LASTV and MFLOOR are taken and the counters since the last patrol clear. -/
def Dev.patrolled (d : Dev) (surf track : Nat) : Dev :=
  let poh := d.rd .HLT_POH_HOURS
  d.updStat (ledgerIndex surf track) fun e =>
    { e with w1 := setBits e.w1 0 8 e.low, w2 := setBits (poh % 2 ^ 20 * 2 ^ 12) 0 12 0, w3 := setBits e.w3 16 16 0, low := 255, hard := false }

/-- A patrol or scrub acknowledged as done (R590, R594). -/
def Dev.patrolDone (d : Dev) (w : Work) : Dev :=
  let e := d.wsGet (ledgerIndex w.surf w.track)
  let bad := e.margin < d.rd .HLT_MLIM_REFRESH || (w.op == opScrub && e.hard)
  let d := (((d.patrolled w.surf w.track).heaterRule w.surf w.track).count .HLT_CNT_PATROLS)
  if bad then d.orderRefresh w.surf w.track else d

/-- A checkpoint acknowledged as done closes the intents made before it began (R581). -/
def Dev.closeIntents (d : Dev) (n : Nat) : Dev :=
  { d with hlt := { d.hlt with intents := d.hlt.intents.filter fun i => !i.acked || decide (n ≤ i.ckpt) } }

/-- Mark the intent of a JOURNAL item as open. -/
def Dev.openIntent (d : Dev) (w : Work) : Dev :=
  let f (i : Intent) : Intent := if i.surf == w.surf && i.first == w.track then { i with acked := true } else i
  { d with hlt := { d.hlt with intents := d.hlt.intents.map f, waiting := false } }

/-- The AFE temperature reported for a head's actuator. -/
def Dev.headTemp (d : Dev) (h : Nat) : Nat := d.rd .ARM_STAT_TEMP (actOfHead h)

/-- A head's calibration request ends, and with it its place in SCH (R498, R600). -/
def Dev.calOver (d : Dev) (h : Nat) : Dev :=
  { d with hlt := { d.hlt with calReq := d.hlt.calReq.filter fun c => c.1 != h },
           sch := { d.sch with cal := d.sch.cal.filter fun r => r.head != h } }

/-- Mark a head calibrated now (R600). -/
def Dev.calibrated (d : Dev) (h : Nat) : Dev :=
  let x := (d.rd .HLT_POH_HOURS, d.headTemp h, Tab.getD d.hlt.margin h 0)
  ({ d with hlt := { d.hlt with lastCal := Tab.put d.hlt.lastCal h x } }).calOver h

/-- The save of a normal shutdown ends (R608). -/
def Dev.saveEnd (d : Dev) (w : Work) (ok : Bool) : Dev :=
  if d.hlt.saveSeq != some w.ckpt then d
  else
    let d := ({ d with hlt := { d.hlt with saveSeq := none } }).wr .HLT_STAT_SAVING 0 0
    let d := d.wr .HLT_STAT_SAVED 0 1
    if ok then d else d.event 0x403 0 (d.word .HLT_STAT) 0 0

/-- An item acknowledged as done. -/
def Dev.workDone (d : Dev) (w : Work) : Dev :=
  if w.op = opPatrol ∨ w.op = opScrub then d.patrolDone w
  else if w.op = opRefresh then d.patrolled w.surf w.track
  else if w.op = opCalib then d.calibrated w.head
  else if w.op = opWcTrim then { d with hlt := { d.hlt with wctrim := d.hlt.wctrim.filter (· != w.head) } }
  else if w.op = opJournal then d.openIntent w
  else ((d.count .HLT_CNT_CKPT).closeIntents w.ckpt).saveEnd w true

/-- An item acknowledged as failed: a patrol or scrub waits an hour (R594); a journal entry and a checkpoint are needed still. -/
def Dev.workFailed (d : Dev) (w : Work) : Dev :=
  if w.op = opPatrol ∨ w.op = opScrub then
    ({ d with hlt := { d.hlt with retry := d.hlt.retry ++ [w] } }).beginWait (.retry w.seq)
  else if w.op = opJournal then d.queueWork w
  else if w.op = opWcTrim then { d with hlt := { d.hlt with wctrim := d.hlt.wctrim.filter (· != w.head) } }
  else if w.op = opCheckpoint then
    let d := d.count .HLT_CNT_CKPT
    let back := w.pages.filter fun p => !d.hlt.pages.contains p
    ({ d with hlt := { d.hlt with pages := d.hlt.pages ++ back } }).saveEnd w false
  else if w.op = opCalib then d.calOver w.head
  else d

/-- A write of HLT_WQACK (R594, R596); reserved results are ignored. -/
def Dev.workAck (d : Dev) (v : Nat) : Dev :=
  let res := bits v 28 4
  match d.hlt.work.find? fun w => w.seq == v % 65536 with
  | none => d
  | some w =>
    if 1 < res then d
    else
      let d := ({ d with hlt := { d.hlt with work := d.hlt.work.erase w } }).endWait (.work w.seq)
      let d := if res = 0 then d.workDone w else d.workFailed w
      d.ringDrain d.hlt.held.length

/-- A JOURNAL or CHECKPOINT item has waited TMO seconds (R596): HLTSTALL, and the item is queued again. -/
def Dev.workTimeout (d : Dev) (seq : Nat) : Dev :=
  match d.hlt.work.find? fun w => w.seq == seq % 65536 && (w.op == opJournal || w.op == opCheckpoint) with
  | none => d
  | some w =>
    if !d.waited (.work w.seq) (d.rd .HLT_JRNL_TMO * 1250000000) then d
    else
    let d := (({ d with hlt := { d.hlt with work := d.hlt.work.erase w } }).endWait (.work w.seq)).stick .HLT_STAT_HLTSTALL
    let d := d.raiseMany 37 0 1 (d.word .HLT_STAT) (w.op * 2 ^ 28 + w.surf * 2 ^ 20 + w.track) 0 false
    d.queueWork w

/-- An hour after a failed patrol or scrub the item is queued again (R594). -/
def Dev.workRetry (d : Dev) : Dev :=
  match d.hlt.retry with
  | [] => d
  | w :: rest =>
    if !d.waited (.retry w.seq) (3600 * 1250000000) then d
    else (({ d with hlt := { d.hlt with retry := rest } }).endWait (.retry w.seq)).queueWork w

/-- Statistic changes reach the DRAM records (R577). -/
def Dev.statFlush (d : Dev) : Dev :=
  let d := d.hlt.ws.foldl (fun d p => if p.2.dirty then d.recToDram p.1 p.2 else d) d
  { d with hlt := { d.hlt with ws := d.hlt.ws.map fun p => (p.1, { p.2 with dirty := false }) } }

/-- The save of a normal shutdown begins (R608). -/
def Dev.hltSave (d : Dev) : Dev :=
  let d := (d.statFlush.wr .HLT_STAT_SAVING 0 1).wr .HLT_STAT_SAVED 0 0
  let d := d.checkpoint
  { d with hlt := { d.hlt with saveSeq := some d.hlt.ckpt } }

/-! ### Patrol selection (R593) -/

/-- Record indices that can hold a written track: those the working set lists, and those a byte of DRAM is listed for. -/
def Dev.knownRecords (d : Dev) : List Nat :=
  let base := d.ledgerAddr 0
  let n := (d.rd .HLT_LEDGERHI_NSURF + 1) * 1048576
  let mem := (d.mem.filter fun c => decide (base ≤ c.1) && decide (c.1 < base + 16 * n)).map fun c => (c.1 - base) / 16
  (mem ++ d.hlt.ws.map Prod.fst).foldl (fun l i => if l.contains i then l else i :: l) []

/-- The written tracks, by ascending index, that no item names. -/
def Dev.freeWritten (d : Dev) : List (Nat × WsEntry) :=
  let busy := (d.hlt.held ++ d.hlt.work ++ d.hlt.retry).filter fun w => decide (w.op ≤ opScrub)
  let l := (d.knownRecords.map fun i => (i, d.wsGet i)).filter fun p =>
    p.2.written && !(busy.any fun w => ledgerIndex w.surf w.track == p.1)
  l.mergeSort fun a b => decide (a.1 ≤ b.1)

/-- Hours since a track's last patrol. -/
def Dev.sincePatrol (d : Dev) (e : WsEntry) : Nat := d.rd .HLT_POH_HOURS - e.lastv

/-- The patrol period in hours: halved while the margin trigger stands. -/
def Dev.patrolHours (d : Dev) : Nat :=
  let p := 24 * max 1 (d.rd .HLT_WEEVIL_PERIOD)
  if bit d.hlt.trig 0 then p / 2 else p

/-- The track chosen next, with its operation. -/
def Dev.patrolChoice (d : Dev) : Option (Nat × Nat) :=
  let l := d.freeWritten
  let c1 := (l.find? fun p => p.2.scrub).map fun p => (opScrub, p.1)
  let c2 := (l.find? fun p => p.2.refresh).map fun p => (opRefresh, p.1)
  let early (p : Nat × WsEntry) : Bool :=
    p.2.margin < d.rd .HLT_MLIM_PATROL && decide (24 * d.rd .HLT_WEEVIL_MINGAP ≤ d.sincePatrol p.2)
  let c3 := (l.find? early).map fun p => (opPatrol, p.1)
  let old := (l.filter fun p => decide (d.patrolHours ≤ d.sincePatrol p.2)).mergeSort fun a b => decide (a.2.lastv ≤ b.2.lastv)
  let c4 := old.head?.map fun p => (opPatrol, p.1)
  ((c1.or c2).or c3).or c4

/-- Queue the next patrol, refresh or scrub item while fewer than INFLIGHT are outstanding. -/
def Dev.patrolSelect (d : Dev) : Dev :=
  let out := ((d.hlt.held ++ d.hlt.work).filter fun w => decide (w.op ≤ opScrub)).length
  if !(d.on .HLT_CTL_ENABLE && d.on .HLT_CTL_WEEVIL) || decide (max 1 (d.rd .HLT_WEEVIL_INFLIGHT) ≤ out) then d
  else
    match d.patrolChoice with
    | none => d
    | some (op, i) =>
      let d := match Tab.look d.hlt.ws i with
        | some e => { d with hlt := { d.hlt with ws := Tab.put d.hlt.ws i { e with low := 255, hard := false } } }
        | none => d
      d.workItem op (i / 1048576) (i % 1048576) 0 0 0 false

/-- HLT would wake the drive from Cicada idle (R595). -/
def Dev.wantsWake (d : Dev) : Bool :=
  let l := d.knownRecords.map d.wsGet
  let late := d.patrolHours + 24 * d.rd .HLT_WEEVIL_GRACE
  !d.on .HLT_CTL_NOWAKE && l.any fun e => e.written && (e.scrub || e.refresh || decide (late ≤ d.sincePatrol e))

/-! ### Calibration planning (R600) -/

/-- The causes for which head `h` is due: bit 0 period, bit 1 temperature, bit 2 drift. -/
def Dev.calCauses (d : Dev) (h : Nat) : Nat :=
  let (poh, temp, m) := Tab.getD d.hlt.lastCal h (0, 0, 0)
  let t := d.headTemp h
  bnat (decide (d.rd .HLT_CAL_PERIOD ≤ d.rd .HLT_POH_HOURS - poh)) +
    2 * bnat (decide (d.rd .HLT_CAL_DTEMP < max t temp - min t temp)) +
    4 * bnat (decide (Tab.getD d.hlt.margin h 0 + d.rd .HLT_CAL_DROP < m))

/-- HLT plans a calibration of a head. -/
def Dev.calPlan (d : Dev) (h : Nat) : Dev :=
  let c := d.calCauses h
  if d.rd .SRV_HSTAT_STATE h != unitServ || c == 0 || d.hlt.calReq.any (fun x => x.1 == h) ||
      decide (32 ≤ d.hlt.calReq.length) then d
  else { d with hlt := { d.hlt with calReq := d.hlt.calReq ++ [(h, c)] } }

/-- The order in which requests are submitted: drift, then temperature, then period, oldest first. -/
def calRank (c : Nat) : Nat := if bit c 2 then 0 else if bit c 1 then 1 else 2

/-! ### Silicon (R601-R603) -/

/-- Send an AVSBus command for a voltage code (R602). -/
def Dev.avsCommand (d : Dev) (v : Nat) : Dev := ({ d with hlt := { d.hlt with avsBusy := true, avsWant := v } }).beginWait .avs

/-- Once a second: the worst of the 32 slacks, and one step of the voltage or of the MC clock. -/
def Dev.slackReading (d : Dev) (sl : List Int) : Dev :=
  let worst := sl.foldl min (sl.headD 0)
  let d := { d with hlt := { d.hlt with slack := (List.range 32).map fun k => (k, unsigned 32 (sl.getD k 0)) } }
  let d := d.wr .HLT_AVSSTAT_WSLACK 0 (unsigned 16 worst)
  let g := d.rd .HLT_AVS_GUARD
  let v := d.rd .HLT_AVSSTAT_VCODE
  let c := d.rd .HLT_AVSSTAT_MCCLK
  let calm := if (g + d.rd .HLT_AVS_HYST : Int) < worst then d.hlt.calm + 1 else 0
  let low := decide (worst < (g : Int))
  let stuck := low && decide (d.rd .HLT_AVS_VMAX ≤ v) && decide (c ≤ 14)
  let was := d.hlt.tooSlow
  let d := { d with hlt := { d.hlt with calm := calm, tooSlow := stuck } }
  if stuck then
    if was then d else (((d.stick .HLT_STAT_SILICON).raise 38 0 (d.word .HLT_AVSSTAT))).replace 0
  else if !d.on .HLT_CTL_AVS || d.hlt.avsBusy then d
  else if low then
    if v < d.rd .HLT_AVS_VMAX then d.avsCommand (v + 1) else d.wr .HLT_AVSSTAT_MCCLK 0 (c - 1)
  else if 60 ≤ calm then
    if c < 16 then d.wr .HLT_AVSSTAT_MCCLK 0 (c + 1)
    else if d.rd .HLT_AVS_VMIN < v then d.avsCommand (v - 1) else d
  else d

/-- The regulator acknowledges (R602). -/
def Dev.avsAck (d : Dev) : Dev :=
  if !d.hlt.avsBusy then d
  else ({ d with hlt := { d.hlt with avsBusy := false } }).wr .HLT_AVSSTAT_VCODE 0 d.hlt.avsWant

/-- No acknowledgement within 1 ms (R603). -/
def Dev.avsTimeout (d : Dev) : Dev :=
  if !d.hlt.avsBusy || !d.waited .avs 1250000 then d
  else
    let d := ({ d with hlt := { d.hlt with avsBusy := false } }).stick .HLT_STAT_AVSFAIL
    d.raise 39 0 (d.word .HLT_AVSSTAT)

/-- The die sensors (R601), and FLT's limits on the highest of them (R627). -/
def Dev.temperature (d : Dev) (ts : List Int) : Dev :=
  let hi := ts.foldl max (ts.headD 0)
  let d := { d with hlt := { d.hlt with temps := (List.range 8).map fun k => (k, ts.getD k 0) } }
  let d := (d.wr .HLT_TEMP_MAX 0 (unsigned 8 hi)).wr .HLT_TEMP_MIN 0 (unsigned 8 (ts.foldl min (ts.headD 0)))
  let sensor := (ts.findIdx fun t => t == hi)
  let hot := d.rdInt .FLT_TEMP_HOT
  let armed := d.flt.hotArmed || decide (hi ≤ hot - 5)
  let d := { d with flt := { d.flt with hotArmed := armed } }
  let d := if hot < hi && armed then
      ({ d with flt := { d.flt with hotArmed := false } }).raise 35 sensor (d.word .HLT_TEMP)
    else d
  if d.rdInt .FLT_TEMP_CRIT < hi then d.raise 36 sensor (d.word .HLT_TEMP) else d

/-! ### Projection and replacement (R604, R605, R607) -/

/-- The lowest over surfaces of the mean MARGIN of its written tracks (R604). -/
def Dev.mediaStat (d : Dev) : Nat :=
  let l := (d.knownRecords.map fun i => (i, d.wsGet i)).filter fun p => p.2.written
  ((List.range 32).filterMap fun (s : Nat) =>
    let m := l.filter fun p => p.1 / 1048576 == s
    if m.isEmpty then none else some ((m.map fun p => p.2.margin).sum / m.length)).foldl min 255

/-- The least-squares line through points (hours, value), newest last (R604): numerator and denominator of its slope, and its value at
the newest hours over the same denominator. -/
def fitLine (ps : List (Int × Int)) : Int × Int × Int :=
  let n : Int := ps.length
  let sum (f : Int × Int → Int) : Int := (ps.map f).foldl (· + ·) 0
  let sx := sum Prod.fst
  let sy := sum Prod.snd
  let den := n * sum (fun p => p.1 * p.1) - sx * sx
  let num := n * sum (fun p => p.1 * p.2) - sx * sy
  let x := (ps.getLast?.map Prod.fst).getD 0
  (num, den, (sy * den + num * (n * x - sx)) / max 1 n)

/-- Hours until the line reaches `lim`, downwards or upwards; none where it does not approach it. -/
def hoursTo (ps : List (Int × Int)) (lim : Int) (down : Bool) : Option Nat :=
  let (num, den, now) := fitLine ps
  let slope := if down then -num else num
  let gap := if down then now - lim * den else lim * den - now
  if slope ≤ 0 then none else some (max 0 (gap / slope)).toNat

/-- Percentage Used (R607). -/
def Dev.percentUsed (d : Dev) : Nat :=
  let v := d.rd .HLT_AVSSTAT_VCODE
  let v0 := d.hlt.vfirst.getD v
  let m0 := d.hlt.mfirst.getD 0
  let m := (d.hlt.history.head?.map fun h => h.2.1).getD m0
  let ratio (a b : Int) : Nat := if b ≤ 0 then 0 else (max 0 (100 * a / b)).toNat
  let a := d.rd .HLT_POH_HOURS / 3504
  let b := ratio ((v : Int) - v0) ((d.rd .HLT_AVS_VMAX : Int) - v0)
  let c := ratio ((m0 : Int) - m) ((m0 : Int) - d.rd .HLT_MLIM_FLOOR)
  min 255 (max a (max b c))

/-- The margin and the spares triggers are evaluated (R605). -/
def Dev.checkTriggers (d : Dev) : Dev :=
  (if d.rd .HLT_PROJ_HOURS < d.rd .HLT_PLAN_HORIZON then d.replace 0 else d).checkSpares

/-- Every 168 powered hours, once at each such hour (R604, R605). -/
def Dev.weekly (d : Dev) : Dev :=
  let poh := d.rd .HLT_POH_HOURS
  if poh = 0 ∨ poh % 168 ≠ 0 ∨ (d.hlt.history.head?.map Prod.fst) = some poh then d
  else
  let m := d.mediaStat
  let v := d.rd .HLT_AVSSTAT_VCODE
  let h := ((d.rd .HLT_POH_HOURS, m, v) :: d.hlt.history).take 16
  let d := { d with hlt := { d.hlt with history := h, vfirst := some (d.hlt.vfirst.getD v), mfirst := some (d.hlt.mfirst.getD m) } }
  let d := d.wr .HLT_REPL_PCTUSED 0 d.percentUsed
  let old := h.reverse
  let enough := decide (4 ≤ h.length)
  let pm := if enough then hoursTo (old.map fun x => ((x.1 : Int), (x.2.1 : Int))) (d.rd .HLT_MLIM_FLOOR) true else none
  let pv := if enough then hoursTo (old.map fun x => ((x.1 : Int), (x.2.2 : Int))) (d.rd .HLT_AVS_VMAX) false else none
  let none' := 2 ^ 32 - 1
  let a := min none' (pm.getD none')
  let b := min none' (pv.getD none')
  let d := (d.wr .HLT_PROJ_HOURS 0 (min a b)).wrb .HLT_REPL_SOURCE 0 (decide (b < a))
  d.checkTriggers

/-- PCTUSED is brought up to date (R607). -/
def Dev.showUsed (d : Dev) : Dev := d.wr .HLT_REPL_PCTUSED 0 d.percentUsed

/-- A powered hour passes (R574, HLT_POH). -/
def Dev.poweredHour (d : Dev) : Dev := (d.wr .HLT_POH_HOURS 0 (d.rd .HLT_POH_HOURS + 1)).showUsed

end Sys2Proof.Machine
end

