-- ==== Sys2Proof/Machine/Scheduler.lean ====
section
/-! DEFINITION. Command scheduling (13_scheduler): overlap and reservations (R470-R475), job descriptors (R414-R416), ranks
(R489-R491), the choice of an actuator (R478-R482), dispatch (R483-R488), power (R495-R497), calibration windows (R498-R500) and
the drive states (R501-R503). -/

namespace Sys2Proof.Machine

/-! ### Drive state -/

/-- SCH's state code (R501): 0 STOPPED, 1 TOKEN, 2 SPINUP, 3 LOADING, 4 READY, 5 IDLING, 6 CICADA, 7 WAKING, 8 HALTED. -/
def Dev.schState (d : Dev) : Nat := d.rd .SCH_STAT_STATE

/-- SCH enters a state. Entries to STOPPED and HALTED begin a start, which ends at READY (R426). -/
def Dev.toSch (d : Dev) (st : Nat) : Dev :=
  let d := d.wr .SCH_STAT_STATE 0 st
  if st = 4 then { d with sch := { d.sch with up := true } }
  else if st = 0 ∨ st = 8 then { d with sch := { d.sch with up := false } }
  else d

/-- SCH may dispatch (R501, R614): LOADING or READY, with no hold. -/
def Dev.schRuns (d : Dev) : Bool :=
  (d.schState == 3 || d.schState == 4) && !d.on .SCH_CTL_HOLD && !d.on .FLT_STAT_HOLD

/-- SCH may grant resources: not in HALTED. -/
def Dev.schGrants (d : Dev) : Bool := d.schState != 8

/-! ### Overlap and reservations (R470-R475) -/

/-- The overlap entry of a command. -/
def Dev.ovlOf (d : Dev) (fseq : Nat) : Option Ovl := d.sch.ovl.find? fun o => o.fseq == fseq

/-- Two ranges of one namespace overlap. -/
def Ovl.meets (a b : Ovl) : Bool :=
  a.ordered && b.ordered && a.ns == b.ns && decide (a.lo < b.hi) && decide (b.lo < a.hi)

/-- An earlier entry counts against a command (R473): not a read against a read, nor an append against an append of its zone. -/
def Ovl.bars (e o : Ovl) : Bool :=
  earlier e.fseq o.fseq && e.meets o && !(e.reads && o.reads) && !(e.append && o.append)

/-- A command clears overlap (R473). -/
def Dev.clears (d : Dev) (fseq : Nat) : Bool :=
  match d.ovlOf fseq with
  | some o => !(d.sch.ovl.any fun e => e.bars o)
  | none => false

/-- Enter a fetched command into the overlap table (R470). -/
def Dev.ovlEnter (d : Dev) (o : Ovl) : Dev := { d with sch := { d.sch with ovl := d.sch.ovl ++ [o] } }

/-- Rank of a host command with an overlap entry (R489). -/
def Ovl.rank (o : Ovl) : Nat := if o.urgent || o.promoted then 0 else 1

/-- The reply to a request (R471, R472). -/
def Dev.resReply (d : Dev) (m tag handle base : Nat) (err : Bool) : Dev :=
  match engineOf m with
  | some e => d.trigger e tMsg 0 (base % 2 ^ 24) (tag % 256 * 2 ^ 24 + bnat err * 2 ^ 23 + handle % 2 ^ 17) 0 0
  | none =>
    let d := (d.wrb .SCH_RQRSPLO_OVER m (d.on .SCH_RQRSPLO_VALID m)).wr .SCH_RQRSPLO_VALID m 1
    let d := ((d.wrb .SCH_RQRSPLO_ERR m err).wr .SCH_RQRSPLO_TAG m tag).wr .SCH_RQRSPLO_HANDLE m handle
    let d := d.wr .SCH_RQRSPHI_BASE m base
    if 2 ≤ m ∧ m < 10 then d.emit (.irq .SCH (m - 2)) else d

/-- A write of SCH_RQHI commits a request (R471). -/
def Dev.resRequest (d : Dev) (m fseq w : Nat) : Dev :=
  let gran := bits w 0 6
  let internal := bit w 7
  let tag := bits w 8 8
  if gran = 0 ∨ 32 < gran ∨ (!internal && (d.ovlOf fseq).isNone) then d.resReply m tag 0 0 true
  else
    let r : ResReq := { master := m, tag := tag, gran := gran, fseq := fseq, order := d.sch.order, internal := internal,
                        cleared := internal }
    { d with sch := { d.sch with reqs := d.sch.reqs ++ [r], order := d.sch.order + 1 } }

/-- The host requests of a command that has cleared overlap wait for granules from here on (R473). -/
def Dev.overlapClear (d : Dev) (fseq : Nat) : Dev :=
  if !d.clears fseq then d
  else
    let mark (r : ResReq) : ResReq := if !r.internal && r.fseq == fseq then { r with cleared := true } else r
    { d with sch := { d.sch with reqs := d.sch.reqs.map mark } }

/-- Rank of a request (R489). -/
def Dev.reqRank (d : Dev) (r : ResReq) : Nat :=
  if r.internal then 2 else ((d.ovlOf r.fseq).map Ovl.rank).getD 1

/-- Request `a` is granted before `b` (R474). -/
def Dev.reqBefore (d : Dev) (a b : ResReq) : Bool :=
  let x := d.reqRank a
  let y := d.reqRank b
  if x != y then decide (x < y)
  else if a.internal != b.internal then b.internal
  else if a.internal then decide (a.order < b.order)
  else earlier a.fseq b.fseq || (a.fseq == b.fseq && decide (a.order < b.order))

/-- The best element of a list under an order. -/
def bestOf {α : Type} (f : α → α → Bool) : List α → Option α
  | [] => none
  | a :: l => some (l.foldl (fun b x => if f x b then x else b) a)

/-- The first run of `n` granules that no reservation holds. -/
def Dev.firstFit (d : Dev) (n : Nat) : Option Nat :=
  let size := d.rd .SCH_BUFCFG_SIZE
  let free (b : Nat) : Bool := decide (b + n ≤ size) && d.sch.resv.all fun r => decide (r.base + r.gran ≤ b) || decide (b + n ≤ r.base)
  (0 :: d.sch.resv.map fun r => r.base + r.gran).foldl
    (fun (m : Option Nat) b => if free b then (match m with | some k => some (min k b) | none => some b) else m) none

/-- The lowest free handle: host 0-65535, internal from 65536 (R467, R471). -/
def Dev.freeHandle (d : Dev) (internal : Bool) : Option Nat :=
  let used := (d.sch.resv.filter fun r => r.internal == internal).map Resv.handle
  let lo := if internal then 65536 else 0
  let n := if internal then 4096 else 65536
  if used.length ≥ n then none
  else ((List.range (used.length + 1)).map (lo + ·)).find? fun h => !used.contains h

/-- The limits of R474 allow a request of `n` granules. -/
def Dev.granulesAllow (d : Dev) (internal : Bool) (n : Nat) : Bool :=
  if internal then
    decide (((d.sch.resv.filter Resv.internal).map Resv.gran).sum + n ≤ d.rd .SCH_BUFINT_INTMAX)
  else decide (n + d.rd .SCH_BUFINT_INTRSV ≤ d.freeGranules)

/-- SCH grants the first cleared request, where it fits; one that does not blocks every request behind it (R474). -/
def Dev.resGrant (d : Dev) : Dev :=
  if !d.schGrants then d
  else
    match bestOf d.reqBefore (d.sch.reqs.filter ResReq.cleared) with
    | none => d
    | some r =>
      match d.firstFit r.gran, d.freeHandle r.internal with
      | some b, some h =>
        if !d.granulesAllow r.internal r.gran then d
        else
          let v : Resv := { handle := h, base := b, gran := r.gran, fseq := r.fseq, internal := r.internal, aged := false }
          let d := { d with sch := { d.sch with reqs := d.sch.reqs.erase r, resv := d.sch.resv ++ [v] } }
          let d := if r.internal then d.beginWait (.resv h) else d
          d.resReply r.master r.tag h (d.rd .SCH_BUFLO_ADDR + d.rd .SCH_BUFHI_ADDR * 2 ^ 16 + b) false
      | _, _ => d

/-- POST code 3: a command's slot and buffer return, and with an internal write command's its track locks (R467). -/
def Dev.resRelease (d : Dev) (handle : Nat) : Dev :=
  (({ d with sch := { d.sch with resv := d.sch.resv.filter fun r => r.handle != handle } }).endWait (.resv handle)).unlockAll
    (.internal handle)

/-- A command's completion is posted: its overlap entry goes (R475), and its track locks return (R311). -/
def Dev.schComplete (d : Dev) (fseq : Nat) : Dev :=
  ({ d with sch := { d.sch with ovl := d.sch.ovl.filter fun o => o.fseq != fseq, writes := Tab.del d.sch.writes fseq,
                                recov := d.sch.recov.filter fun r => r.fseq != fseq } }).unlockAll (.host fseq)

/-! ### Job descriptors (R414-R416) -/

/-- Geometry of the zone entry, as a job copies it (R247). -/
def Dev.withZone (d : Dev) (j : Job) (z : Zone) : Job :=
  { j with zone := z.index, l := d.sectorLen z, u := z.usable d.wedges, w := d.wedges, svt := z.svt, spg := z.spg,
           rpad := z.rpad, slots := d.slotsOf z, spr := z.spr, metaSel := z.metaSel, prof := z.prof, ds := z.ds, ps := z.ps }

/-- Entry `i` of a descriptor. -/
def Dev.descEntry (d : Dev) (a i : Nat) : Entry :=
  let w := d.ld32 (a + 32 + 4 * i)
  { slot := bits w 0 10, role := bits w 10 2, bufIdx := bits w 16 16 }

/-- The guarantee load of a job on a track of `n` slots (R488); none while no revolution has been measured. -/
def Dev.guaranteeLoad (d : Dev) (n : Nat) : Option Nat :=
  let p := d.rd .ANG_PERIOD_CYCLES
  if p = 0 then none else some (ceilDiv (256 * 4 * 3390 * n) p)

/-- The job that a descriptor asks for, without its zone. -/
def Dev.descJob (d : Dev) (owner ofs : Nat) : Job :=
  let a := tableSram + ofs
  let w (k : Nat) : Nat := d.ld32 (a + 4 * k)
  { head := 0, pair := 0, kind := bits (w 0) 30 2, entryw := bits (w 0) 12 12, start := 0, urg := false,
    surf := bits (w 1) 26 6, track := bits (w 1) 0 20, zone := 0, gen := bits (w 2) 20 12, bstripe := bits (w 2) 0 10,
    fseq := w 3, cmdref := w 4, buf := w 5 + bits (w 6) 0 8 * 2 ^ 32, owner := owner, desc := ofs, order := d.sch.order,
    entries := (List.range (bits (w 0) 0 11)).map (d.descEntry a), l := 0, u := 0, w := 0, svt := 0, spg := 0, rpad := 0,
    slots := 0, spr := 0, metaSel := 0, prof := 0, ds := 0, ps := 0, gl := 0 }

/-- A reserved field of the descriptor is not zero. -/
def Dev.descReserved (d : Dev) (ofs n : Nat) : Bool :=
  let a := tableSram + ofs
  let w (k : Nat) : Nat := d.ld32 (a + 4 * k)
  bit (w 0) 28 || bit (w 0) 11 || bits (w 1) 20 6 != 0 || bits (w 2) 10 10 != 0 || bits (w 6) 8 24 != 0 || w 7 != 0 ||
    (List.range n).any fun i => bits (d.ld32 (a + 32 + 4 * i)) 12 4 != 0

/-- An actuator is declared (SRV_CTL.ENABLE). -/
def Dev.actDeclared (d : Dev) (a : Nat) : Bool := d.on .SRV_CTL_ENABLE a

/-- A role that the job's kind admits (R246). -/
def roleFits (kind role : Nat) : Bool :=
  if kind = 0 ∨ kind = 2 then decide (role < 2) else if kind = 1 then decide (2 ≤ role) else false

/-- SCH refuses a descriptor (R416). A spare slot that serves a data member takes its role (R231; DEDUCED, log 86). -/
def Dev.badJob (d : Dev) (ofs mask : Nat) (j : Job) : Bool :=
  let n := j.entries.length
  let slots := j.entries.map Entry.slot
  n == 0 || decide (1024 < n) || d.descReserved ofs n || !((List.range 4).any fun a => bit mask a && d.actDeclared a) ||
    !(j.entries.all fun e => roleFits j.kind e.role) || !decide slots.Nodup ||
    match d.zoneOf j.surf j.track with
    | none => true
    | some z =>
      slots.any (fun k => decide (d.slotsOf z ≤ k)) ||
        j.entries.any fun e => e.role % 2 == 0 && z.spareTrack (d.memberOf j.surf j.track e.slot).1

/-! ### Ranks and readiness (R489-R491) -/

/-- The reservation whose buffer holds a job's. -/
def Dev.resvOf (d : Dev) (j : Job) : Option Resv :=
  let pool := d.rd .SCH_BUFLO_ADDR + d.rd .SCH_BUFHI_ADDR * 2 ^ 16
  let g := j.buf / 65536
  d.sch.resv.find? fun r => decide (pool + r.base ≤ g) && decide (g < pool + r.base + r.gran)

/-- A calibration job of a unit in CALIBRATING (R506). -/
def Dev.calOfUnit (d : Dev) (x : SJob) : Bool :=
  (List.range 4).any fun a => bit x.mask a &&
    (d.rd .SRV_STAT_SVC a == unitCal || d.rd .SRV_HSTAT_STATE (32 * a + x.job.surf) == unitCal)

/-- Rank of a job (R489, R490): 0 URGENT, 1 HOST, 2 INTERNAL, 3 CALIB. -/
def Dev.jobRank (d : Dev) (x : SJob) : Nat :=
  if x.job.kind = 2 then (if d.calOfUnit x then 2 else 3)
  else
    match d.ovlOf x.job.fseq with
    | some o => o.rank
    | none => if ((d.resvOf x.job).map Resv.aged).getD false then 1 else 2

/-- What a job's lock is held by (R476). -/
def Dev.lockBy (d : Dev) (j : Job) : LockBy :=
  if j.kind != 1 then .job j.order
  else if (d.ovlOf j.fseq).isSome then .host j.fseq
  else match d.resvOf j with
    | some r => .internal r.handle
    | none => .job j.order

/-- A write job writes nothing but the target of the reallocation that holds its track's lock (R233). -/
def Dev.writesMove (d : Dev) (j : Job) (b : LockBy) : Bool :=
  j.kind == 1 && d.tpe.moves.any fun m =>
    b == .move m.member && m.surf == j.surf && j.entries.all fun e => m.tgt == some (j.track, e.slot)

/-- A job holds the lock of its track, or needs none. -/
def Dev.holdsLock (d : Dev) (j : Job) : Bool :=
  j.kind == 2 || match Tab.look d.sch.locks (lockKey j.surf j.track) with
    | some b => b == d.lockBy j || d.writesMove j b
    | none => false

/-! ### Choosing an actuator (R478-R480) -/

/-- A head or actuator may take a job: in SERVICE, or in CALIBRATING for a calibration job. -/
def unitTakes (kind st : Nat) : Bool := st == unitServ || (kind == 2 && st == unitCal)

/-- Actuator `a` can serve a job as long as its units stand (R478, R504). -/
def Dev.canServe (d : Dev) (x : SJob) (a : Nat) : Bool :=
  bit x.mask a && unitTakes x.job.kind (d.rd .SRV_STAT_SVC a) &&
    unitTakes x.job.kind (d.rd .SRV_HSTAT_STATE (32 * a + x.job.surf))

/-- Actuator `a` is eligible for a job (R478), and suits the recovery level of its sectors (R184). -/
def Dev.eligible (d : Dev) (x : SJob) (a : Nat) : Bool :=
  d.canServe x a && d.recovAdmits x.job a && !d.on .FSQ_CSSTAT_DRAINING a &&
    ((Tab.look d.sch.forced a).isNone || d.jobRank x == 0 || (d.jobRank x == 3 && d.sch.revOn.contains a))

/-- No slot of an actuator is busy. -/
def Dev.actIdle (d : Dev) (a : Nat) : Bool := !((List.range 8).any fun j => d.seqBusy (8 * a + j))

/-- |T - (VPOS ÷ 256 + XOFF)| in 1/256 track (R479, R480). -/
def Dev.stray (d : Dev) (h t : Nat) : Nat :=
  (256 * (Int.ofNat t - d.rdInt .SRV_XOFF_OFF h) - Int.ofNat (d.rd .SRV_VPOS_POS (actOfHead h))).natAbs

/-- A job on head `h` fits its actuator (R479). -/
def Dev.fits (d : Dev) (h t : Nat) : Bool :=
  let a := actOfHead h
  d.rd .SRV_STAT_MODE a == 2 && (d.slotOfHead h).isNone && decide (d.stray h t ≤ 256 * d.rd .SRV_MACFG_STROKE a) &&
    (Tab.look d.sch.drainFor a).isNone

/-- Entry `i` of the seek-time table, µs. -/
def Dev.seekEntry (d : Dev) (i : Nat) : Nat := d.rd (if i % 2 = 0 then .SCH_SEEKT_EVEN else .SCH_SEEKT_ODD) (i / 2)

/-- Seek time for `n` tracks, µs: linear between entries, entry i standing for 2^(i + 5) tracks (R480). -/
def Dev.seekTime (d : Dev) (n : Nat) : Nat :=
  if n ≤ 32 then d.seekEntry 0
  else
    let i := ((List.range 16).filter fun k => decide (2 ^ (k + 5) ≤ n)).length - 1
    let a := d.seekEntry i
    let b := if i < 15 then d.seekEntry (i + 1) else a
    let k := n - 2 ^ (i + 5)
    if a ≤ b then a + (b - a) * k / 2 ^ (i + 5) else a - (a - b) * k / 2 ^ (i + 5)

/-- Ticks that `n` fabric cycles take at the measured speed. -/
def Dev.cycleTicks (d : Dev) (n : Nat) : Nat := n * 2 ^ 24 / max 1 (d.rd .ANG_PERIOD_CYCLES)

/-- The tick at which the first usable index of slot `n` stands in the LEAD frame. -/
def Job.slotAngle (j : Job) (wedges n : Nat) : Nat :=
  ((gridOf (j.windows wedges) (n * j.l)) * rev + (j.spr - 1)) / max 1 j.spr % rev

/-- The slot of a job's first entry. -/
def Job.firstSlot (j : Job) : Nat := (j.entries.head?.map Entry.slot).getD 0

/-- Ticks until a head's LEAD-frame angle, `s` ticks from now, next has the fraction `t`. -/
def Dev.waitFor (d : Dev) (h s t : Nat) : Nat := subMod 24 t ((d.frameAngle 1 h + s) % rev)

/-- The starting instant of an arrival, ticks from now (R480). -/
def Dev.arriveFrom (d : Dev) (h t : Nat) : Nat :=
  let settle := d.rd .SCH_TIMING_SETTLE * rev / d.wedges
  if d.fits h t then settle
  else
    let a := actOfHead h
    let busy := if d.actIdle a then 0 else Config.busyEnd a d.now
    busy + d.cycleTicks (1250 * d.seekTime (d.stray h t / 256)) + settle

/-- The arrival of a job on actuator `a`, ticks from now (R480). -/
def Dev.arrival (d : Dev) (x : SJob) (a : Nat) : Nat :=
  let h := 32 * a + x.job.surf
  let s := d.arriveFrom h x.job.track
  s + d.waitFor h s (x.job.slotAngle d.wedges x.job.firstSlot)

/-- The actuator a job picks: the eligible one with the earliest arrival, the lowest index on ties (R480). -/
def Dev.pickOf (d : Dev) (x : SJob) : Option Nat :=
  bestOf (fun a b => decide (d.arrival x a < d.arrival x b)) ((List.range 4).filter (d.eligible x))

/-! ### The order of jobs (R491) -/

/-- The arrival of a job where it has picked. -/
def Dev.pickArrival (d : Dev) (x : SJob) : Nat := match x.pick with | some a => d.arrival x a | none => 0

/-- An URGENT job that has been ready for URGSTRICT goes ahead of those ready after it (R491). -/
def Dev.strictBefore (d : Dev) (x y : SJob) : Bool :=
  match x.ready, y.ready with
  | some r, some q => decide (r + d.rd .SCH_AGE_URGSTRICT * 1250000 ≤ d.now) && decide (r < q)
  | _, _ => false

/-- Job `x` goes before job `y` (R491). -/
def Dev.jobBefore (d : Dev) (x y : SJob) : Bool :=
  let r := d.jobRank x
  if r != d.jobRank y then decide (r < d.jobRank y)
  else if r == 0 && d.strictBefore x y then true
  else if r == 0 && d.strictBefore y x then false
  else
    let p := d.pickArrival x
    let q := d.pickArrival y
    if p != q then decide (p < q)
    else if x.job.fseq != y.job.fseq then earlier x.job.fseq y.job.fseq
    else decide (x.job.order < y.job.order)

/-- Jobs that hold their lock and have picked actuator `a`. -/
def Dev.pickedFor (d : Dev) (a : Nat) : List SJob := d.sch.jobs.filter fun x => x.ready.isSome && x.pick == some a

/-- The ready job that has waited longest within the highest rank (R482). -/
def Dev.topRanked (d : Dev) : Option SJob :=
  bestOf (fun x y => decide (d.jobRank x < d.jobRank y) || (d.jobRank x == d.jobRank y && decide (x.ready.getD 0 < y.ready.getD 0)))
    (d.sch.jobs.filter fun x => x.ready.isSome)

/-! ### Dispatch (R483-R488, R491, R492) -/

/-- Actuators other than `a` that need a guide lane and have none (R484). -/
def Dev.guidesOwed (d : Dev) (a : Nat) : Nat := ((List.range 4).filter fun b => b != a && d.needsGuide b).length

/-- Both lanes of a guide's pair can be granted. -/
def Dev.guideUsable (d : Dev) (m : Nat) : Bool :=
  let ok (l : Nat) : Bool := d.rd .LANE_STAT_STATE l == unitServ && !d.on .LANE_STAT_HELD l && !d.on .LANE_STAT_RECALPEND l
  ok (2 * m) && ok (2 * m + 1)

/-- The pair a job of head `h` on actuator `a` receives: the guide's, else the lowest free one that leaves a guide lane for every other
actuator that needs one (R484, R485). The head's inputs must be on no other pair (R109). -/
def Dev.pairFor (d : Dev) (a h : Nat) : Option Nat :=
  let own := ((d.act a).guidePair.filter fun m => d.guideUsable m && d.inputsFree h m)
  match own with
  | some m => some m
  | none =>
    let free := (List.range 32).filter d.pairFree
    if free.length ≤ d.guidesOwed a then none else free.find? (d.inputsFree h)

/-- The lowest IDLE sequencer of an actuator that may run (R243, R483); none while the actuator's control store is to be opened or is
open (R276). -/
def Dev.slotFor (d : Dev) (a : Nat) : Option Nat :=
  if d.on .FSQ_CSSTAT_DRAINING a || d.on .FSQ_CSSTAT_OPENED a then none
  else ((List.range 8).map (8 * a + ·)).find? fun s => d.rd .FSQ_STAT_STATE s == 1 && d.on .FSQ_CTL_ENABLE s

/-- The acorn limit of R488: 256 × E × GFRAC ÷ 16. -/
def Dev.acornLimit (d : Dev) : Nat :=
  256 * d.rd .ITB_STAT_ESERV * max 1 (min 16 (d.rd .SCH_ACORN_GFRAC)) / 16

/-- The guarantee load of a waiting job: 0 for a write. -/
def Dev.loadOf (d : Dev) (x : SJob) : Option Nat := if x.job.kind = 1 then some 0 else d.guaranteeLoad x.job.slots

/-- A read or calibration job is within the acorn limit (R488). -/
def Dev.acornsAllow (d : Dev) (x : SJob) : Bool :=
  x.job.kind == 1 || (match d.loadOf x with | some g => decide (d.rd .SCH_ACORN_LOAD + g ≤ d.acornLimit) | none => false)

/-- The ledger's charge for a job's write heat (R495, R496). -/
def Dev.jobHeat (d : Dev) (x : SJob) (a : Nat) : Nat :=
  if x.job.kind = 1 then heatUnits (d.heaterCode { x.job with head := 32 * a + x.job.surf } true) else 0

/-- The ledger has room for a job's write heat (R496). -/
def Dev.heatAllows (d : Dev) (x : SJob) (a : Nat) : Bool := decide (d.ledgerPower + d.jobHeat x a ≤ d.rd .SCH_PWRBUD_BUDGET)

/-- A ready job waits for power: for its write heat, or for its seek (R496). -/
def Dev.wantsPower (d : Dev) (x : SJob) : Bool :=
  match x.pick with
  | none => false
  | some a => x.ready.isSome &&
    if d.fits (32 * a + x.job.surf) x.job.track then !d.heatAllows x a else d.actIdle a && !d.movePower

/-- No higher-ranked request waits for power (R496). -/
def Dev.powerTurn (d : Dev) (x : SJob) : Bool := d.sch.jobs.all fun y => !d.wantsPower y || decide (d.jobRank x ≤ d.jobRank y)

/-- An actuator takes jobs: no seek keeps it for another job, and no forced take shuts it (R481, R499). -/
def Dev.joins (d : Dev) (x : SJob) (a : Nat) : Bool :=
  (match Tab.look d.sch.seekFor a with | some k => k == x.job.order | none => true) &&
    ((Tab.look d.sch.forced a).isNone || (d.sch.revOn.contains a && d.jobRank x == 3))

/-- A higher-ranked job stands in the way (R492, R498): an URGENT job that waits for this actuator, or for a lane pair; for a
CALIB job any higher-ranked job that waits for the actuator. -/
def Dev.barred (d : Dev) (x : SJob) (a : Nat) : Bool :=
  let r := d.jobRank x
  (d.sch.jobs.any fun y => y.ready.isSome && d.jobRank y == 0 && r != 0 &&
      (y.pick == some a || (match y.pick with | some b => (d.slotFor b).isSome && (d.pairFor b (32 * b + y.job.surf)).isNone | none => false))) ||
    (r == 3 && (d.pickedFor a).any fun y => decide (d.jobRank y < 3))

/-- A job can be dispatched on the actuator it has picked: the slot and pair it gets. -/
def Dev.grantFor (d : Dev) (x : SJob) : Option (Nat × Nat × Nat) :=
  match x.pick with
  | none => none
  | some a =>
    let ok := x.ready.isSome && d.canServe x a && d.fits (32 * a + x.job.surf) x.job.track && d.joins x a && !d.barred x a &&
      d.acornsAllow x && d.heatAllows x a && (d.jobHeat x a == 0 || d.powerTurn x)
    if !ok then none
    else match d.slotFor a, d.pairFor a (32 * a + x.job.surf) with
      | some s, some m => some (a, s, m)
      | _, _ => none

/-- During a quiesce only rewrites of members of started atomic units are dispatched (R666). -/
def Dev.quiesceAllows (d : Dev) (j : Job) : Bool :=
  d.cfg.kind == 0 || (!d.cfg.quiet && j.kind == 1 &&
    d.cfg.units.any fun x => x.2.fseq == j.fseq && psaSurf x.2.psa == j.surf % 64 && psaTrack x.2.psa == j.track &&
      j.entries.all fun e => x.2.members.contains e.slot)

/-- The jobs that can be dispatched on actuator `a`, and the one that goes first. -/
def Dev.dispatchOn (d : Dev) (a : Nat) : Option (SJob × Nat × Nat × Nat) :=
  match bestOf d.jobBefore ((d.pickedFor a).filter fun x => d.quiesceAllows x.job && (d.grantFor x).isSome) with
  | some x => (d.grantFor x).map fun g => (x, g)
  | none => none

/-- The next dispatch: the actuators are served in turn (R469). -/
def Dev.nextDispatch (d : Dev) : Option (SJob × Nat × Nat × Nat) :=
  if !d.schRuns then none
  else ((List.range 4).map fun (k : Nat) => (d.sch.turn + 1 + k) % 4).findSome? d.dispatchOn

/-- Remove a waiting job, with what was set for it. -/
def Dev.dropJob (d : Dev) (x : SJob) : Dev :=
  let k := x.job.order
  { d with sch := { d.sch with
      jobs := d.sch.jobs.filter (fun y => y.job.order != k), seekFor := d.sch.seekFor.filter (fun e => e.2 != k),
      drainFor := d.sch.drainFor.filter (fun e => e.2 != k) } }

/-- The start angle (R487): LEAD ticks before the arrival. -/
def Dev.startAngle (d : Dev) (x : SJob) (a : Nat) : Nat :=
  mod48 (d.frameAngle 1 (32 * a + x.job.surf) + d.arrival x a + 2 ^ 48 - d.rd .SCH_TIMING_LEAD)

/-- The grant path writes the track target of a head (R486, R401 TARGET). -/
def Dev.grantTarget (d : Dev) (h t : Nat) (jobw : Bool) : Dev :=
  (d.headTarget h t jobw).trigger (actOfHead h) tTarget 0 h t 0 0

/-- The grant path writes the pair's routes and clocks (R111, R197, R486): a calibration job routes lane 2m only. -/
def Dev.grantLanes (d : Dev) (s h m kind spr : Nat) : Dev :=
  let d := d.grantRoute (2 * m) (2 * h)
  let d := if kind != 2 && d.on .RDI_CTL_DECL (2 * h + 1) then d.grantRoute (2 * m + 1) (2 * h + 1) else d
  let d := (d.wr .LANE_STAT_HELD (2 * m) 1).wr .LANE_STAT_HELD (2 * m + 1) 1
  let w := BitVec.ofNat 32 (2 ^ 31 + spr)
  (((d.buffer .ANG_SCKRATE m w).buffer .ANG_SCKPHASE m 0).buffer .ANG_WCKRATE s w).buffer .ANG_WCKPHASE s 0

/-- The registers of a sequencer that show its job (R486). -/
def Dev.loadSeq (d : Dev) (s : Nat) (j : Job) : Dev :=
  let d := ((d.wr .FSQ_JOB_ENTRYW s j.entryw).wr .FSQ_JOB_KIND s j.kind).wrb .FSQ_JOB_URG s j.urg
  let d := (d.wr .FSQ_JOB_PAIR s j.pair).wr .FSQ_JOB_HEAD s j.head
  let d := (d.wr .FSQ_JSTARTLO_ANG s j.start).wr .FSQ_JSTARTHI_ANG s (j.start / 2 ^ 32)
  let d := ((d.wr .FSQ_ZGEOM_ZONE s j.zone).wr .FSQ_ZGEOM_L s j.l).wr .FSQ_ZU_U s j.u
  let d := ((d.resetReg .FSQ_ENTRY s).wr .FSQ_PC_PC s j.entryw).wr .FSQ_STAT_STATE s 2
  d.setSeq s { Seq.init with job := some j, stamp := (d.seq s).stamp, stampPos := (d.seq s).stampPos }

/-- The longest dispatch wait of an URGENT job, in 0.1 ms (R493). -/
def Dev.noteWait (d : Dev) (x : SJob) : Dev :=
  if d.jobRank x != 0 then d
  else
    let n := (d.now - x.ready.getD d.now) / 125000
    d.wr .SCH_DLAT_MAXWAIT 0 (min 65535 (max n (d.rd .SCH_DLAT_MAXWAIT)))

/-- SCH dispatches a job on slot `s` with pair `m` (R483-R488). -/
def Dev.dispatch (d : Dev) (x : SJob) (a s m : Nat) : Dev :=
  let h := 32 * a + x.job.surf
  let gl := (d.loadOf x).getD 0
  let k := match d.zoneOf x.job.surf x.job.track with
    | some z => d.withZone x.job z
    | none => x.job
  let j : Job := { k with head := h, pair := m, start := d.startAngle x a, urg := d.jobRank x == 0, gl := gl }
  let d := ((d.noteWait x).dropJob x).recovTake x.job
  let d := { d with sch := { d.sch with turn := a }, hlt := { d.hlt with jobFirst := d.hlt.jobFirst.filter (· != j.desc) } }
  let d := (d.grantLanes s h m j.kind j.spr).grantTarget h j.track (j.kind == 1)
  let d := (d.setAct a { d.act a with ref := none }).wr .SRV_HSTAT_BOUND h 1
  let d := ((d.armSelect s x.job.surf (j.kind == 1)).wr .SCH_ACORN_LOAD 0 (d.rd .SCH_ACORN_LOAD + gl)).wrBit .SCH_ASTAT_BUSY a (s % 8) true
  d.loadSeq s j

/-! ### Seeks (R481, R482) -/

/-- The grant path writes an actuator's VCM target: a distance beyond the stroke starts a seek (R323, R481). -/
def Dev.vcmTarget (d : Dev) (a t : Nat) : Dev :=
  let far := decide (256 * d.rd .SRV_MACFG_STROKE a < (Int.ofNat (256 * t) - Int.ofNat (d.rd .SRV_VPOS_POS a)).natAbs)
  let d := (d.wr .SRV_VTGT_TRACK a t).trigger a tTarget 0 (2 ^ 31) t 0 0
  let d := if d.rd .SRV_STAT_MODE a == 3 then d.setAct a { d.act a with modeAng := d.ang.val } else d
  if d.rd .SRV_STAT_MODE a == 2 && far then d.setMode a 3 0 else d

/-- The job that seeks next on actuator `a`: the first that has picked it, does not fit, and is not kept out. -/
def Dev.seekJob (d : Dev) (a : Nat) : Option SJob :=
  let waits (x : SJob) : Bool := d.joins x a && d.canServe x a &&
    decide (256 * d.rd .SRV_MACFG_STROKE a < d.stray (32 * a + x.job.surf) x.job.track)
  match Tab.look d.sch.drainFor a with
  | some k => (d.pickedFor a).find? fun x => x.job.order == k && waits x
  | none => bestOf d.jobBefore ((d.pickedFor a).filter waits)

/-- SCH starts a seek on actuator `a` (R481): with no slot busy, a token free and power for it. A job it cannot serve yet keeps
the actuator. -/
def Dev.seekGrant (d : Dev) (a : Nat) : Dev :=
  if !d.schRuns || !d.actIdle a || d.rd .SRV_STAT_MODE a != 2 then d
  else
    match d.seekJob a with
    | none => d
    | some x =>
      let h := 32 * a + x.job.surf
      let k := x.job.order
      let d := { d with sch := { d.sch with seekFor := Tab.put d.sch.seekFor a k } }
      if !d.movePower || !d.powerTurn x then d
      else
        let d := { d with sch := { d.sch with drainFor := Tab.del d.sch.drainFor a } }
        let d := d.setAct a { d.act a with ref := some h }
        (d.vcmTarget a x.job.track).grantTarget h x.job.track (x.job.kind == 1)

/-! ### Track locks (R476, R477, R576, R585) -/

/-- The data members of the boundary stripe below the first data member of a job (R585). -/
def Dev.heldMembers (d : Dev) (z : Zone) (j : Job) (b : Nat) : List Nat :=
  let ms := (j.entries.filter fun e => e.role == 2).filterMap fun e =>
    match d.roleOf z j.surf j.track e.slot with
    | .data i => some i
    | _ => none
  let first := ms.foldl min (ms.headD 0)
  (List.range (stripeData (d.dataOf z) z.ds b)).filter fun i => decide (b * z.ds + i < first)

/-- The working-set entry that goes with a write command's lock (R576, R585): none where every entry is held. -/
def Dev.lockEntry (d : Dev) (j : Job) : Option Dev :=
  let k := lockKey j.surf j.track
  match d.wsAllocate k, d.zoneOf j.surf j.track with
  | some d, some z =>
    let e := d.wsGet k
    some { d with hlt := { d.hlt with ws := Tab.put d.hlt.ws k { e with locks := e.locks + 1, passed := d.heldMembers z j e.bound } } }
  | _, _ => none

/-- A job has its lock: it is ready from now. -/
def Dev.makeReady (d : Dev) (j : Job) : Dev :=
  let mark (x : SJob) : SJob := if x.job.order == j.order then { x with ready := some d.now } else x
  { d with sch := { d.sch with jobs := d.sch.jobs.map mark } }

/-- The jobs that wait for a track's lock are served by rank, then by fetch sequence (R477). -/
def Dev.lockBefore (d : Dev) (x y : SJob) : Bool :=
  let r := d.jobRank x
  if r != d.jobRank y then decide (r < d.jobRank y)
  else if x.job.fseq != y.job.fseq then earlier x.job.fseq y.job.fseq
  else decide (x.job.order < y.job.order)

/-- All the data of a job's command is in the buffer (R28); a job of no host command has no host data. -/
def Dev.dataReady (d : Dev) (j : Job) : Bool := (d.hif.cmds.filter fun c => c.fseq == j.fseq).all d.dataHere

/-- A job's buffer lies in the pool that SCH reserves from (R471). -/
def Dev.inPool (d : Dev) (j : Job) : Bool :=
  let pool := d.rd .SCH_BUFLO_ADDR + d.rd .SCH_BUFHI_ADDR * 2 ^ 16
  decide (pool ≤ j.buf / 65536) && decide (j.buf / 65536 < pool + d.rd .SCH_BUFCFG_SIZE)

/-- A job holds what comes before a track lock in the order of R468: its command has cleared overlap, and a buffer of the pool is
reserved for it. -/
def Dev.lockable (d : Dev) (j : Job) : Bool :=
  let host := (d.ovlOf j.fseq).isSome
  (!host || d.clears j.fseq) &&
    (!d.inPool j || (d.resvOf j).any fun r => if host then !r.internal && r.fseq == j.fseq else r.internal)

/-- Grant a track's lock (R468, R476, R477); a write command gets none before its data is in the buffer (R28), or before the restore ends
(R669). -/
def Dev.lockGrant (d : Dev) (surf track : Nat) : Dev :=
  let k := lockKey surf track
  let l := d.sch.jobs.filter fun x => x.ready.isNone && x.job.surf == surf && x.job.track == track &&
    d.lockable x.job && (x.job.kind != 1 || (d.on .CFG_STAT_RESTORED && d.dataReady x.job))
  if !d.schGrants || (Tab.look d.sch.locks k).isSome then d
  else
    match bestOf d.lockBefore l with
    | none => d
    | some x =>
      let give (d : Dev) : Dev :=
        ({ d with sch := { d.sch with locks := Tab.put d.sch.locks k (d.lockBy x.job) } }).makeReady x.job
      if x.job.kind != 1 then give d
      else match d.lockEntry x.job with
        | some d => give d
        | none => d.stick .HLT_STAT_WSFULL

/-! ### Emitted jobs (R416) -/

/-- The members that a write job of a host command names; one written again is to pass verify again (R29). -/
def Dev.noteNamed (d : Dev) (j : Job) : Dev :=
  if j.kind != 1 || (d.ovlOf j.fseq).isNone then d
  else
    let w := d.writeLog j.fseq
    let l := j.entries.map fun e => d.memberKey j.surf j.track e.slot
    let w := { w with named := w.named ++ l.filter (fun k => !w.named.contains k),
                      passed := w.passed.filter fun k => !l.contains k }
    { d with sch := { d.sch with writes := Tab.put d.sch.writes j.fseq w } }

/-- An EMIT takes effect: the descriptor is checked, refused with BADJOB, or becomes a waiting job (R416, R477). -/
def Dev.emitJob (d : Dev) (owner ofs : Nat) : Dev :=
  let j := d.descJob owner ofs
  let mask := bits (d.ld32 (tableSram + ofs)) 24 4
  if d.badJob ofs mask j then d.ceTrigger owner tRet 0 ofs 15 j.entries.length 0
  else
    match d.zoneOf j.surf j.track with
    | none => d
    | some z =>
      let x : SJob := { job := d.withZone j z, mask := mask, ready := none, pick := none }
      let d := { d with sch := { d.sch with jobs := d.sch.jobs ++ [x], order := d.sch.order + 1 } }
      let d := d.noteNamed j
      if d.holdsLock j then d.makeReady j else d

/-- A waiting job goes back to its owner with every entry (R478, R455). -/
def Dev.returnJob (d : Dev) (x : SJob) : Dev :=
  let d := (d.dropJob x).unlockWrite (lockKey x.job.surf x.job.track) (.job x.job.order)
  d.ceTrigger x.job.owner tRet 0 x.job.desc 1 x.job.entries.length 0

/-! ### Calibration windows (R498-R500) -/

/-- HLT submits its next request, in the order drift, temperature, period (R498, R600). -/
def Dev.calSubmit (d : Dev) : Dev :=
  let l := d.hlt.calReq.filter fun c => !(d.sch.cal.any fun r => r.head == c.1)
  match bestOf (fun (x y : Nat × Nat) => decide (calRank x.2 < calRank y.2)) l with
  | none => d
  | some c => { d with sch := { d.sch with cal := d.sch.cal ++ [{ head := c.1, cause := c.2, waited := 0, granted := false }] } }

/-- SCH grants a request its window: HLT queues its CALIB item (R600). -/
def Dev.calGrant (d : Dev) (r : CalReq) : Dev :=
  let cal := d.sch.cal.map fun (q : CalReq) => if q.head == r.head then { q with granted := true } else q
  ({ d with sch := { d.sch with cal := cal } }).workItem opCalib (surfOfHead r.head) 0 r.head r.cause (d.rd .HLT_CAL_REVS) true

/-- A request's resources are idle: its actuator follows, is not kept, drained or forced, has a slot and a pair, and no
higher-ranked job waits for it (R498). -/
def Dev.calFree (d : Dev) (r : CalReq) : Bool :=
  let a := actOfHead r.head
  !r.granted && d.rd .SRV_STAT_SVC a == unitServ && d.rd .SRV_HSTAT_STATE r.head == unitServ && d.rd .SRV_STAT_MODE a == 2 &&
    (d.slotOfHead r.head).isNone && (d.slotFor a).isSome && (d.pairFor a r.head).isSome && (Tab.look d.sch.seekFor a).isNone &&
    (Tab.look d.sch.drainFor a).isNone && (Tab.look d.sch.forced a).isNone && (d.pickedFor a).all fun x => d.jobRank x == 3

/-- Busy slots of an actuator. -/
def Dev.busySlots (d : Dev) (a : Nat) : List Nat := ((List.range 8).map (8 * a + ·)).filter d.seqBusy

/-- An actuator may be forced for a request (R499). -/
def Dev.forceable (d : Dev) (r : CalReq) : Bool :=
  let a := actOfHead r.head
  !r.granted && decide (max 1 (d.rd .SCH_CAL_STARVE) ≤ r.waited) && (Tab.look d.sch.forced a).isNone &&
    d.rd .SRV_STAT_SVC a == unitServ && d.rd .SRV_HSTAT_STATE r.head == unitServ &&
    ((Tab.look d.sch.forceAt a).isNone || decide (d.rd .SCH_CAL_MINGAP ≤ d.lastForce a)) &&
    (d.busySlots a).all (fun s => !((d.seq s).job.map Job.urg).getD false) &&
    (d.pickedFor a).all fun x => d.jobRank x != 0

/-- Every request that waits counts a reference index (R498). -/
def Dev.countIndex (d : Dev) : Dev :=
  let one (r : CalReq) : CalReq := if r.granted then r else { r with waited := r.waited + 1 }
  { d with sch := { d.sch with cal := d.sch.cal.map one } }

/-- The starved request that takes its actuator by force: fewest busy slots first, then the lower actuator (R499). -/
def Dev.forcePick (d : Dev) : Option CalReq :=
  let n (r : CalReq) : Nat := (d.busySlots (actOfHead r.head)).length
  let before (x y : CalReq) : Bool :=
    decide (n x < n y) || (n x == n y && decide (actOfHead x.head < actOfHead y.head))
  if d.on .SCH_CTL_NOFORCE || !d.schRuns then none else bestOf before (d.sch.cal.filter d.forceable)

/-- SCH at a reference index: the requests that wait count it, and a starved one may force its actuator (R498, R499). -/
def Dev.forcedTake (d : Dev) : Dev :=
  if !d.indexSince (d.waitFrom .take) then d
  else
    let d := (d.beginWait .take).countIndex
    match d.forcePick with
    | none => d
    | some r => { d with sch := { d.sch with forced := Tab.put d.sch.forced (actOfHead r.head) r.head } }

/-- Device cycle in which the drain of a forced actuator was over; the present one where that has not been. -/
def Dev.drainedAt (d : Dev) (a : Nat) : Nat := if d.timers.any fun x => x.1 == .drained a then d.waitFrom (.drained a) else d.now

/-- The drain of a forced actuator ends as its last busy slot does (R499). -/
def Dev.drainOver (d : Dev) (a : Nat) : Dev :=
  let rests := !d.sch.revOn.contains a && d.actIdle a
  let runs := d.timers.any fun x => x.1 == .drained a
  if (Tab.look d.sch.forced a).isNone then d
  else if rests && !runs then d.beginWait (.drained a) else if !rests && runs then d.endWait (.drained a) else d

/-- The first reference index after the drain: the request gets the actuator's slots for one revolution (R499). -/
def Dev.forcedStart (d : Dev) (a : Nat) : Dev :=
  match Tab.look d.sch.forced a with
  | none => d
  | some h =>
    if !d.indexSince (d.drainedAt a) || !d.actIdle a || d.sch.revOn.contains a then d
    else
      let d := (d.endWait (.drained a)).beginWait (.forced a)
      let d := ({ d with sch := { d.sch with revOn := d.sch.revOn ++ [a] } }).count .SCH_CNT_FORCED
      match d.sch.cal.find? fun r => r.head == h with
      | some r => d.calGrant r
      | none => d

/-- The revolution ends (R499): calibration jobs still busy are abandoned with STOP, FORCE clears, LASTFORCE restarts. -/
def Dev.forcedEnd (d : Dev) (a : Nat) : Dev :=
  if !d.sch.revOn.contains a then d
  else
    let cal (s : Nat) : Bool := ((d.seq s).job.map fun j => j.kind == 2).getD false
    let d := ((d.busySlots a).filter cal).foldl (fun d s => d.abandon s 1) d
    { d with sch := { d.sch with forced := Tab.del d.sch.forced a, revOn := d.sch.revOn.filter (· != a),
                                 forceAt := Tab.put d.sch.forceAt a d.now } }

/-- The reference index that ends a forced revolution. -/
def Dev.forcedOver (d : Dev) (a : Nat) : Dev := if d.indexSince (d.waitFrom (.forced a)) then d.forcedEnd a else d

/-- An URGENT job cancels the forced take of the actuator it has picked, before its revolution (R500). -/
def Dev.cancelForce (d : Dev) (x : SJob) : Dev :=
  match x.pick with
  | none => d
  | some a =>
    if d.jobRank x != 0 || (Tab.look d.sch.forced a).isNone || d.sch.revOn.contains a then d
    else (({ d with sch := { d.sch with forced := Tab.del d.sch.forced a } }).endWait (.drained a)).count .SCH_CNT_CANCELLED

/-- An actuator whose forced revolution stands in the way of an URGENT job that can use no other (R500). -/
def Dev.urgentShut (d : Dev) (x : SJob) : Option Nat :=
  if d.jobRank x != 0 || x.ready.isNone then none
  else if ((List.range 4).filter (d.eligible x)).all d.sch.revOn.contains then x.pick else none

/-! ### What SCH does by itself -/

/-- A ready job picks, or picks again once a unit it had picked has left (R480, R504). -/
def Dev.repick (d : Dev) (x : SJob) : Dev :=
  let stale := match x.pick with | some a => !d.canServe x a | none => true
  if x.ready.isNone || !stale || !(d.schState == 3 || d.schState == 4) then d
  else
    let y := { x with pick := d.pickOf x }
    let jobs := d.sch.jobs.map fun (z : SJob) => if z.job.order == x.job.order then y else z
    ({ d with sch := { d.sch with jobs := jobs } }).cancelForce y

/-- DRAIN is set for the highest-ranked job where it waits for an actuator it does not fit, and clears with its job (R482). -/
def Dev.drains (d : Dev) : Dev :=
  let keep := d.sch.drainFor.filter fun e => (d.pickedFor e.1).any fun x => x.job.order == e.2
  let d := { d with sch := { d.sch with drainFor := keep } }
  match d.topRanked with
  | none => d
  | some x =>
    match x.pick with
    | none => d
    | some a =>
      if d.actIdle a || d.fits (32 * a + x.job.surf) x.job.track || d.jobRank x == 3 || (Tab.look d.sch.drainFor a).isSome then d
      else { d with sch := { d.sch with drainFor := Tab.put d.sch.drainFor a x.job.order } }

/-- A withdrawn command has units of writing left. -/
def Dev.stillWrites (d : Dev) (fseq : Nat) : Bool :=
  (List.range 32).any fun s =>
    ((d.seq s).job.map fun j => j.fseq == fseq).getD false || (d.wslot s).emits.any fun e => e.job.fseq == fseq

/-- The entries of withdrawn commands go once every unit they started has ended, with their locks (R475). -/
def Dev.dropWithdrawn (d : Dev) : Dev :=
  (d.sch.ovl.filter fun o => o.withdrawn && !d.stillWrites o.fseq).foldl (fun d o => d.schComplete o.fseq) d

/-- Every declared actuator has left CALIBRATING (R501). -/
def Dev.allCalibrated (d : Dev) : Bool := (List.range 4).all fun a => !d.actDeclared a || d.rd .SRV_STAT_SVC a != unitCal

/-- A ready job waits for acorns, or a job or seek for power (SCH_STAT). -/
def Dev.waitFlags (d : Dev) : Dev :=
  let l := d.sch.jobs.filter fun x => x.ready.isSome && x.pick.isSome
  let ac := d.schRuns && l.any fun x => !d.acornsAllow x
  let pw := d.schRuns && l.any d.wantsPower
  (d.wrb .SCH_STAT_ACWAIT 0 ac).wrb .SCH_STAT_PWRWAIT 0 (pw || (d.mayLoad && !d.sch.loads.isEmpty && !d.movePower))

/-- What follows in SCH from every command: picks, DRAIN, the end of withdrawn entries, READY after LOADING, and the ends of the
spin-up charge and of forced drains. -/
def Dev.schUpdate (d : Dev) : Dev :=
  let d := d.moveWaiting
  let d := d.sch.jobs.foldl Dev.repick d
  let d := d.drains.dropWithdrawn
  let d := if d.schState == 3 && d.allCalibrated && d.sch.loads.isEmpty then d.toSch 4 else d
  let d := if d.sch.charge && d.on .SPN_STAT_ATSPEED then { d with sch := { d.sch with charge := false } } else d
  ((List.range 4).foldl Dev.drainOver d).waitFlags

/-- STOPPED leaves for TOKEN (R501); a spindle that turns in its range needs no token, and one that still coasts is braked to a
stop first (R668). -/
def Dev.schStart (d : Dev) : Dev :=
  if d.on .SPN_STAT_INRANGE then d.toSch 1
  else if 90000 ≤ d.rd .SPN_MEAS_SPEED then (if d.rd .SPN_STAT_STATE == 6 then d else d.spnBrake)
  else (d.toSch 1).askToken

/-- One fabric cycle's transition of the drive state at the start of a command (R501, R668). -/
def Dev.schBegin (d : Dev) : Dev :=
  match d.schState with
  | 0 => if d.on .SCH_CTL_ENABLE then d.schStart else d
  | 1 => if d.on .SPN_STAT_INRANGE && !d.rck.want && !d.rck.hold && !d.rck.delay && !d.sch.spin then d.toSch 2 else d
  | 2 =>
    if d.on .SPN_STAT_INRANGE && !d.sch.spin then
      (List.range 4).foldl Dev.askLoad ((d.spnGrant (d.rd .SCH_SPNGRANT_RUNMA)).toSch 3)
    else d
  | _ => d

/-- SCH's own actions in a cycle without a command of its own: jobs that no actuator can serve go back (R478), an URGENT job
ends a forced revolution that bars it (R500), loads are granted (R496), a parked drive goes on unloading (R502), and a free
calibration window is granted (R498). -/
def Dev.schAct (d : Dev) : Dev :=
  let lost := if d.schState == 4 then d.sch.jobs.filter fun x => x.ready.isSome && x.pick.isNone else []
  let d := lost.foldl (fun d x => (d.returnJob x).recovLost x.job) d
  let d := match d.sch.jobs.findSome? d.urgentShut with | some a => d.forcedEnd a | none => d
  let d := d.sch.loads.foldl Dev.tryLoad d
  let d := if d.schState == 5 then (List.range 4).foldl Dev.unloadHeads d else d
  match if d.schRuns then d.sch.cal.find? d.calFree else none with
  | some r => d.calGrant r
  | none => d

/-- SCH dispatches the next job (R469, R486). -/
def Dev.jobDispatch (d : Dev) : Dev :=
  match d.nextDispatch with
  | some (x, a, s, m) => d.dispatch x a s m
  | none => d.schAct

/-! ### Spin-up and Cicada idle (R497, R501-R503) -/

/-- SCH_CTL.ENABLE is written. -/
def Dev.schEnable (d : Dev) (b : Bool) : Dev :=
  let d := d.wrb .SCH_CTL_ENABLE 0 b
  if b && d.schState == 0 then d.schStart else d

/-- SCH_CTL.RESTART is written 1 (R501). -/
def Dev.schRestart (d : Dev) : Dev := if d.schState == 8 then d.toSch 0 else d

/-- A write of SCH_CTL. -/
def Dev.schCtl (d : Dev) (w : Nat) : Dev :=
  let d := (d.wrb .SCH_CTL_NOFORCE 0 (bit w 2)).wrb .SCH_CTL_HOLD 0 (bit w 1)
  let d := if bit w 3 then d.schRestart else d
  if bit w 0 == d.on .SCH_CTL_ENABLE then d else d.schEnable (bit w 0)

/-- The token is granted or the solo delay has ended: the target and the grant are written and the spindle starts (R497). -/
def Dev.tokenObtained (d : Dev) : Dev :=
  if !(d.schState == 1 || d.schState == 7) || !(d.rck.hold || d.rck.freed) || d.sch.spin then d
  else
    let ma := if d.rck.hold then d.rd .SCH_SPNGRANT_SPINMA else d.rd .SCH_SOLO_SOLOMA
    let d := { d with sch := { d.sch with spin := true, charge := true }, rck := { d.rck with alone := !d.rck.hold } }
    let d := ((d.speedTarget (d.rd .SCH_SPIN_TARGET)).spnGrant ma).beginWait .spinup
    if d.schState == 1 then d.toSch 2 else d

/-- Every OFF unit returns to CALIBRATING or IDLE (R503, R665): lanes, decode engines, sequencers, and declared vertical
engines, heads and actuators. -/
def Dev.unitsOn (d : Dev) : Dev :=
  let d := (List.range 64).foldl (fun d l => if d.rd .LANE_STAT_STATE l == unitOff then d.laneState l unitCal else d) d
  let d := (List.range 48).foldl
    (fun d e => if d.rd .ITB_ENGSTAT_STATE e == unitOff then d.wr .ITB_ENGSTAT_STATE e unitCal else d) d
  let d := (List.range 32).foldl (fun d s => if d.rd .FSQ_STAT_STATE s == 0 then d.wr .FSQ_STAT_STATE s 1 else d) d
  let d := (List.range 12).foldl Dev.veOn d
  let d := (List.range 128).foldl
    (fun d h => if d.rd .SRV_HSTAT_STATE h == unitOff && d.declared h then d.wr .SRV_HSTAT_STATE h unitCal else d) d
  (List.range 4).foldl (fun d a => if d.rd .SRV_STAT_SVC a == unitOff && d.actDeclared a then d.actCalibrate a else d) d

/-- Exit from Cicada idle (R503, R625): every OFF unit returns, and the watchdogs of cores 1 to 7 restart their counts. -/
def Dev.cicadaExit (d : Dev) : Dev :=
  let at' := (List.range 7).foldl (fun t c => Tab.put t (c + 1) d.now) d.flt.wdAt
  ({ d with sch := { d.sch with wake := false }, flt := { d.flt with wdHold := none, wdAt := at' } }).unitsOn

/-- INRANGE is reached (R497, R501, R503): the token returns, and the actuators load. -/
def Dev.spindleInRange (d : Dev) : Dev :=
  if !d.sch.spin || !d.on .SPN_STAT_INRANGE then d
  else
    let waking := d.flt.wdHold.isSome
    let d := (({ d with sch := { d.sch with spin := false } }).releaseToken).spnGrant (d.rd .SCH_SPNGRANT_RUNMA)
    let d := d.toSch 3
    let d := if waking then d.cicadaExit else d
    (List.range 4).foldl Dev.askLoad d

/-- INRANGE is not reached within SPINTO seconds (R497). -/
def Dev.spinupTimeout (d : Dev) : Dev :=
  if !d.sch.spin || d.on .SPN_STAT_INRANGE || !d.waited .spinup (d.rd .SCH_SOLO_SPINTO * 1250000000) then d
  else
    let d := ({ d with sch := { d.sch with spin := false, charge := false } }).raise 24 0 (d.word .SPN_MEAS)
    ((d.spnGrant 0).releaseToken).toSch 0

/-- Every actuator is PARKED or OUT. -/
def Dev.allParked (d : Dev) : Bool :=
  (List.range 4).all fun a => d.rd .SRV_STAT_MODE a == 0 || d.rd .SRV_STAT_SVC a == unitOut

/-- All OFF for Cicada idle (R134, R187, R243, R331, R411, R502): what is OUT stays OUT. -/
def Dev.unitsOff (d : Dev) : Dev :=
  let off (f : Fld) (d : Dev) (i : Nat) : Dev := if d.rd f i == unitOut then d else d.wr f i unitOff
  let d := (List.range 64).foldl (fun d l => if d.rd .LANE_STAT_STATE l == unitOut then d else d.laneState l unitOff) d
  let d := (List.range 48).foldl (off .ITB_ENGSTAT_STATE) d
  let d := (List.range 32).foldl (fun d s => if d.rd .FSQ_STAT_STATE s == 1 then d.wr .FSQ_STAT_STATE s 0 else d) d
  let d := (List.range 12).foldl Dev.veOff d
  (List.range 4).foldl (off .SRV_STAT_SVC) ((List.range 128).foldl (off .SRV_HSTAT_STATE) d)

/-- IDLING ends (R501, R502). -/
def Dev.cicadaReached (d : Dev) : Dev :=
  if d.schState != 5 || d.sch.wake || !d.allParked || !d.itb.ctx.isEmpty then d
  else
    let d := { d with flt := { d.flt with wdHold := some d.now } }
    (d.unitsOff.speedTarget 180000).toSch 6

/-- A wake cause acts (R501, R503). -/
def Dev.cicadaWake (d : Dev) : Dev :=
  if !d.sch.wake then d
  else if d.schState == 6 then (d.toSch 7).askToken
  else if d.schState == 5 && d.allParked then
    (List.range 4).foldl Dev.askLoad (({ d with sch := { d.sch with wake := false } }).toSch 3)
  else d

/-- A wake cause stands (R503). -/
def Dev.wakeUp (d : Dev) : Dev :=
  if 5 ≤ d.schState ∧ d.schState ≤ 7 then { d with sch := { d.sch with wake := true } } else d

/-- HLT's wake request (R595). -/
def Dev.hltWake (d : Dev) : Dev := if d.schState == 6 && d.wantsWake then d.wakeUp else d

/-! ### Ageing (R490) -/

/-- A HOST command becomes URGENT once LIMIT × 10 ms have passed since its fetch. -/
def Dev.promote (d : Dev) (fseq : Nat) : Dev :=
  match d.ovlOf fseq with
  | none => d
  | some o =>
    if o.rank = 0 ∨ d.now < o.time + d.rd .SCH_AGE_LIMIT * 12500000 then d
    else
      let ovl := d.sch.ovl.map fun (e : Ovl) => if e.fseq == fseq then { e with promoted := true } else e
      ({ d with sch := { d.sch with ovl := ovl } }).count .SCH_CNT_PROMOTED

/-- An INTERNAL job ages to HOST once INTAGE seconds have passed since its reservation. -/
def Dev.ageInternal (d : Dev) (handle : Nat) : Dev :=
  if !d.waited (.resv handle) (d.rd .SCH_AGE_INTAGE * 1250000000) then d
  else
  let mark (r : Resv) : Resv := if r.internal && r.handle == handle then { r with aged := true } else r
  { d with sch := { d.sch with resv := d.sch.resv.map mark } }

/-! ### Joining (R506) -/

/-- At the next reference index after it has passed, a unit in JOINING enters SERVICE; strobes come only while the angle base is valid
(R92). -/
def Dev.unitJoins (d : Dev) (u : Unit4) : Dev :=
  let (f, i) : Fld × Nat := match u with
    | .lane n => (.LANE_STAT_STATE, n.val)
    | .engine n => (.ITB_ENGSTAT_STATE, n.val)
    | .head n => (.SRV_HSTAT_STATE, n.val)
    | .actuator n => (.SRV_STAT_SVC, n.val)
  if !d.indexSince (d.waitFrom (.joining u)) || d.rd f i != unitJoin then d
  else
    let d := d.endWait (.joining u)
    match u with
    | .lane n => d.laneState n.val unitServ
    | _ => d.wr f i unitServ

/-- The Cicada condition (R502): the controllers rest, no command is in flight, and no internal job runs. -/
def Dev.cicadaHolds (d : Dev) (resting : Bool) : Bool :=
  resting && d.hif.cmds.isEmpty && d.sch.jobs.isEmpty && !((List.range 32).any d.seqBusy)

/-- READY leaves for IDLING (R501, R502): every actuator unloads. -/
def Dev.cicadaEntry (d : Dev) (resting : Bool) : Dev :=
  if d.schState == 4 && d.cicadaHolds resting then (List.range 4).foldl Dev.unloadHeads (d.toSch 5) else d

end Sys2Proof.Machine
end

