-- ==== Sys2Proof/Machine/Recorder.lean ====
section
/-! DEFINITION. Fault collection and the event recorder as software, time and the NOR drive them (17_fault_collection):
acknowledgement, forcing, the hold, the configuration lock, watchdogs, rate buckets, pages and the NOR log. -/

namespace Sys2Proof.Machine

/-! ### Faults (R612-R623) -/

/-- The FLT interrupt: a fault of DEGRADE or above is pending (R613). -/
def Dev.fltIrq (d : Dev) : Bool := d.pendingSources.any fun n => decide (1 ≤ d.rd .FLT_SRCSTAT_EFFSEV n)

/-- The recovery timer of a source runs out (R620): CONTAIN, the hold, and a record with ESC and the data of the latest raise that
advances no count. -/
def Dev.recoveryTimeout (d : Dev) (n : Nat) : Dev :=
  let ms := d.rd .FLT_CFG_RECTMO
  if !d.flt.timers.contains n || ms == 0 || !d.waited (.recov n) (ms * 1250000) then d
  else
    let d := { d with flt := { d.flt with timers := d.flt.timers.filter (· != n), expired := d.flt.expired ++ [n] } }
    if 3 ≤ d.rd .FLT_SRCSTAT_EFFSEV n then d
    else
      let d := d.wr .FLT_SRCSTAT_EFFSEV n 3
      let (d0, d1, d2) := Tab.getD d.flt.lastData n (0, 0, 0)
      (d.record n (d.rd .FLT_SRCSTAT_INST n) 0 3 false true true d0 d1 d2).react n 3

/-- Sources whose bit is set in a word of FLT_PEND or FLT_FORCE, in ascending order; 41 to 63 do not exist. -/
def sourcesOf (hi : Bool) (w : Nat) : List Nat :=
  ((List.range 32).filter fun k => bit w k && decide (bnat hi * 32 + k < 41)).map (bnat hi * 32 + ·)

/-- A write of FLT_PEND0 or FLT_PEND1 (R621). -/
def Dev.ackWrite (d : Dev) (m : Nat) (hi : Bool) (w : Nat) : Dev := (sourcesOf hi w).foldl (fun d n => d.acknowledge n m) d

/-- A write of FLT_FORCE0 or FLT_FORCE1 (R622). -/
def Dev.forceWrite (d : Dev) (hi : Bool) (w : Nat) : Dev :=
  (sourcesOf hi w).foldl (fun d n => d.raiseMany n 0xFF 1 0 0 0 true) d

/-- FLT_CTL.RELEASE is written 1 (R614). -/
def Dev.holdRelease (d : Dev) : Dev :=
  if 3 ≤ d.topSev then d.stick .FLT_STAT_RELREF
  else if d.on .FLT_STAT_HOLD then (d.wr .FLT_STAT_HOLD 0 0).event 0x512 0 0 0 0
  else d

/-- A write of FLT_CTL: LOCK only sets (R623). -/
def Dev.fltCtl (d : Dev) (w : Nat) : Dev :=
  let d := if bit w 2 then d.wr .FLT_CTL_LOCK 0 1 else d
  if bit w 1 then d.holdRelease else d

/-- The registers that LOCK protects. -/
def Dev.fltConfig (d : Dev) (r : FltReg) (w : Nat) : Dev :=
  if d.on .FLT_CTL_LOCK then d.stick .FLT_STAT_LOCKREF
  else
    match r with
    | .cfg => ((d.wr .FLT_CFG_CRKSEV 0 (bits w 24 3)).wr .FLT_CFG_RECTMO 0 (bits w 16 8)).wr .FLT_CFG_RLREFILL 0 (bits w 0 16)
    | .temp => (d.wr .FLT_TEMP_CRIT 0 (bits w 8 8)).wr .FLT_TEMP_HOT 0 (bits w 0 8)
    | .src n =>
      let held := d.tokensOf n.val
      let d := ((d.wr .FLT_SRCCFG_BURST n.val (bits w 12 4)).wr .FLT_SRCCFG_NOESC n.val (bits w 8 1)).wr .FLT_SRCCFG_SEV n.val
        (bits w 0 3)
      d.setTokens n.val (min held (bits w 12 4))

/-- FLT_STAT.SAFE sets (R616). -/
def Dev.safeReached (d : Dev) : Dev :=
  let st := d.rd .SPN_STAT_STATE
  if d.on .FLT_STAT_SAFEACT && d.allParked && (st == 0 || st == 1 || st == 5 || st == 6) then d.wr .FLT_STAT_SAFE 0 1 else d

/-- The status field of a clock, in the order of SYS_CLKSTAT. -/
def clockFld : Nat → Fld
  | 0 => .SYS_CLKSTAT_XTAL_OK | 1 => .SYS_CLKSTAT_FAB_LOCK | 2 => .SYS_CLKSTAT_MC_LOCK
  | 3 => .SYS_CLKSTAT_VE_LOCK | 4 => .SYS_CLKSTAT_DRAM_LOCK | _ => .SYS_CLKSTAT_SLOW_OK

/-- A clock loses lock or oscillation. -/
def Dev.clockLoss (d : Dev) (k : Nat) : Dev :=
  let d := (d.wr (clockFld k) 0 0).wrBit .SYS_CLKSTAT_LOSS 0 k true
  d.raise 34 0 (d.word .SYS_CLKSTAT)

/-! ### Watchdogs (R625, R626) -/

/-- The count of core `c` restarts. -/
def Dev.wdRestart (d : Dev) (c : Nat) : Dev := { d with flt := { d.flt with wdAt := Tab.put d.flt.wdAt c d.now } }

/-- A write of FLT_WDCTL: PERIOD and ACT hold while the watchdog runs, and EN only sets. -/
def Dev.wdCtl (d : Dev) (c w : Nat) : Dev :=
  if d.on .FLT_WDCTL_EN c then d
  else
    let d := (d.wr .FLT_WDCTL_ACT c (bits w 8 1)).wr .FLT_WDCTL_PERIOD c (bits w 0 7)
    if bit w 31 then
      ({ d with flt := { d.flt with wdStreak := Tab.del d.flt.wdStreak c } }.wr .FLT_WDCTL_EN c 1).wdRestart c
    else d

/-- A write of FLT_WDKICK by master `m`. -/
def Dev.wdKick (d : Dev) (m c key : Nat) : Dev :=
  if m != 2 + c then d.stick .FLT_WDSTAT_WRONG c
  else if key % 256 != 0xA5 then d
  else ({ d with flt := { d.flt with wdStreak := Tab.del d.flt.wdStreak c } }).wdRestart c

/-- A watchdog expires: WDOG is raised and the count restarts (R626). -/
def Dev.wdExpire (d : Dev) (c : Nat) : Dev :=
  let n := Tab.getD d.flt.wdStreak c 0 + 1
  let d := { d with flt := { d.flt with wdStreak := Tab.put d.flt.wdStreak c n } }
  let d := ((d.stick .FLT_WDSTAT_EXPIRED c).count .FLT_WDSTAT_EXPIRIES c).wdRestart c
  d.raise 33 c (d.word .FLT_WDSTAT c)

/-! ### The event recorder (R630-R644) -/

/-- The next queued record is stored, suppressed or discarded; with none queued an owed LOST record is stored (R635, R636). -/
def Dev.eventStore (d : Dev) : Dev :=
  match d.evt.queue with
  | [] => d.storeLost
  | e :: q => (({ d with evt := { d.evt with queue := q } }).storeOne e).checkSaved

/-- The refill interval of a bucket in ms (R633); 0 applies as 1. -/
def Dev.refillOf (d : Dev) (b : Nat) : Nat :=
  max 1 (if b < 64 then d.rd .FLT_CFG_RLREFILL else if b = 64 then d.rd .EVT_RLDEF_REFILL else d.rd .EVT_RLLIM_REFILL (b - 128))

/-- A bucket gains a token every REFILL ms, up to BURST (R633). -/
def Dev.tokenRefill (d : Dev) (b : Nat) : Dev :=
  d.periodic (.bucket b) (d.refillOf b * 1250000) fun d => d.setTokens b (min (d.burstOf b) (d.tokensOf b + 1))

/-- PAGETMO seconds have passed since the open page's first record (R638); 0 applies as 1. -/
def Dev.pageTimeout (d : Dev) : Dev :=
  if d.waited .page (max 1 (d.rd .EVT_CFG_PAGETMO) * 1250000000) then d.closePage else d

/-- The bytes of the log area, and the NOR address of an offset in it. -/
def Dev.logSize (d : Dev) : Nat := d.rd .EVT_NORSIZE_VALUE * 4096
def Dev.logAddr (d : Dev) (o : Nat) : Nat := d.rd .EVT_NORBASE_VALUE * 4096 + (if d.logSize = 0 then 0 else o % d.logSize)

/-- The words of a stored record. -/
def EvtRec.words (r : EvtRec) : List Nat := [r.w0, r.w1, r.w2, r.w3, r.w4, r.w5, r.w6, r.w7]

/-- The records at buffer indices, as words. -/
def Dev.pageWords (d : Dev) (p : List Nat) : List Nat :=
  p.flatMap fun i => ((Tab.look d.evt.buf i).map EvtRec.words).getD []

/-- A page of the log has been used, whether its program succeeded or not. -/
def Dev.logStep (d : Dev) : Dev :=
  let n := d.rd .EVT_NORWP_OFFSET + 256
  (d.wr .EVT_NORWP_OFFSET 0 (if d.logSize = 0 then 0 else n % d.logSize)).wr .EVT_NORERASED_BYTES 0 (d.rd .EVT_NORERASED_BYTES - 256)

/-- The page at the head of the closed pages is programmed; one whose program fails goes to the next page (R637). -/
def Dev.programPage (d : Dev) (ok : Bool) : Dev :=
  match d.evt.closed with
  | [] => d
  | p :: ps =>
    let d := (d.emit (.norProgram (d.logAddr (d.rd .EVT_NORWP_OFFSET)) (d.pageWords p))).logStep
    if ok then ({ d with evt := { d.evt with closed := ps } }).checkSaved else d.stick .EVT_STAT_NORERR

/-- Pages are programmed after handover only, while NORLOG is 1, into an erased page (R635, R637, R639). -/
def Dev.pageProgram (d : Dev) (ok : Bool) : Dev :=
  if !d.handed || !d.on .EVT_CTL_NORLOG || decide (d.rd .EVT_NORERASED_BYTES < 256) || d.spn.running then d
  else d.programPage ok

/-- EVT erases the next sector ahead of the write pointer (R639). -/
def Dev.sectorErase (d : Dev) (ok : Bool) : Dev :=
  if !d.handed || !d.on .EVT_CTL_NORLOG || d.spn.running ||
      decide (d.logSize < d.rd .EVT_NORERASED_BYTES + 4096) then d
  else
    let d := d.emit (.norErase (d.logAddr (d.rd .EVT_NORWP_OFFSET + d.rd .EVT_NORERASED_BYTES)) 4096)
    if ok then d.wr .EVT_NORERASED_BYTES 0 (d.rd .EVT_NORERASED_BYTES + 4096) else d.stick .EVT_STAT_NORERR

/-- Every unflushed record counts as flushed (R635). -/
def Dev.dropUnflushed (d : Dev) : Dev := ({ d with evt := { d.evt with page := [], closed := [] } }).checkSaved

/-- EVT_CTL.NORLOG is written. -/
def Dev.norLog (d : Dev) (b : Bool) : Dev :=
  let d := d.wrb .EVT_CTL_NORLOG 0 b
  if !b && d.handed then d.dropUnflushed else d

/-- A write of EVT_CTL. -/
def Dev.evtCtl (d : Dev) (w : Nat) : Dev :=
  let d := if bit w 1 == d.on .EVT_CTL_NORLOG then d else d.norLog (bit w 1)
  if bit w 2 then d.closePage else d

/-- A write of EVT_SWCODE commits the data words its master has buffered and stores a firmware record (R58, R643). -/
def Dev.swCode (d : Dev) (m w : Nat) : Dev :=
  let x0 := d.loHalf m .EVT_SWDATA0 0
  let x1 := d.loHalf m .EVT_SWDATA1 0
  let x2 := d.loHalf m .EVT_SWDATA2 0
  let d := ((d.dropLo m .EVT_SWDATA0 0).dropLo m .EVT_SWDATA1 0).dropLo m .EVT_SWDATA2 0
  if w % 65536 < 0xC000 then d.stick .EVT_STAT_BADCODE
  else
    let d := ((d.wr .EVT_SWDATA0_DATA 0 x0).wr .EVT_SWDATA1_DATA 0 x1).wr .EVT_SWDATA2_DATA 0 x2
    let d := (d.wr .EVT_SWCODE_INST 0 (bits w 24 8)).wr .EVT_SWCODE_CODE 0 (w % 65536)
    d.record (w % 65536) (bits w 24 8) m 7 false false false x0 x1 x2

/-- POST code 1 stores a microcode record from its operand (R644). -/
def Dev.ucodeRecord (d : Dev) (m a : Nat) : Dev :=
  let w := d.ld32 a
  let c := w % 65536
  if c < 0x8000 ∨ 0xC000 ≤ c then d.stick .EVT_STAT_BADCODE
  else d.record c (bits w 24 8) m 7 false false false (d.ld32 (a + 4)) (d.ld32 (a + 8)) (d.ld32 (a + 12))

/-- A write of a rate slot's limit: its bucket fills when EN rises, and a lower BURST cuts the tokens held (R633). -/
def Dev.rateLimit (d : Dev) (i w : Nat) : Dev :=
  let was := d.on .EVT_RLLIM_EN i
  let b := bits w 16 6
  let t := if bit w 31 && !was then b else min b (d.rd .EVT_RLLIM_TOKENS i)
  (((d.wr .EVT_RLLIM_EN i (bits w 31 1)).wr .EVT_RLLIM_BURST i b).wr .EVT_RLLIM_REFILL i (bits w 0 16)).wr .EVT_RLLIM_TOKENS i t

/-- A write of the default bucket's limit. -/
def Dev.rateDefault (d : Dev) (w : Nat) : Dev :=
  let held := d.tokensOf 64
  ((d.wr .EVT_RLDEF_BURST 0 (bits w 16 6)).wr .EVT_RLDEF_REFILL 0 (bits w 0 16)).setTokens 64 (min held (bits w 16 6))

/-- CRICKET changes level every 0.5 ms while it runs (R628). -/
def Dev.cricket (d : Dev) : Dev :=
  d.periodic .cricket 625000 fun d => if d.crkRuns then { d with flt := { d.flt with crk := !d.flt.crk } } else d

end Sys2Proof.Machine
end

