-- ==== Sys2Proof/Machine/RackLink.lean ====
section
/-! DEFINITION. The rack link's node (19): sending and its errors (R688, R691, R695-R697), what arrives (R690-R694), the steward
(R693, R694), RACK_ALERT (R698, R699) and the phase beacon (R700, R701). -/

namespace Sys2Proof.Machine

/-- One second in fabric cycles. -/
def second : Nat := 1250000000

/-- The node runs: enabled and not bus-off. -/
def Dev.rckRuns (d : Dev) : Bool := d.on .RCK_CTL_ENABLE && !d.on .RCK_STAT_BUSOFF

/-- Keep the start of this node's stewardship (R694). -/
def Dev.stewardTime (d : Dev) : Dev :=
  if !d.isSteward then { d with rck := { d.rck with stewardAt := none } }
  else if d.rck.stewardAt.isSome then d
  else { d with rck := { d.rck with stewardAt := some d.now } }

/-- A write of RCK_CTL. -/
def Dev.rckCtl (d : Dev) (w : Nat) : Dev :=
  let d := ((d.wr .RCK_CTL_MANREC 0 (bits w 1 1)).wr .RCK_CTL_ENABLE 0 (bits w 0 1)).stewardTime
  if bit w 2 && d.on .RCK_STAT_BUSOFF && d.on .RCK_CTL_MANREC then { d with rck := { d.rck with restart := true } } else d

/-- Bus-off recovery completes (R697). -/
def Dev.busoffEnd (d : Dev) : Dev :=
  if !d.on .RCK_STAT_BUSOFF || (d.on .RCK_CTL_MANREC && !d.rck.restart) then d
  else ({ d with rck := { d.rck with txerr := 0, rxerr := 0, restart := false } }).wr .RCK_STAT_BUSOFF 0 0

/-! ### Sending -/

/-- A HELLO of this node (R690, R692). -/
def Dev.sendHello (d : Dev) : Dev :=
  let flags := bnat (d.on .SPN_STAT_ATSPEED) + 2 * bnat d.angValid + 4 * d.rd .SPN_PHLOCK_EN + 8 * d.rd .RCK_STAT_SOLO +
    16 * bnat (d.rck.hold || d.rck.ann)
  d.rackSend fHello 0
    ([flags, d.rd .SPN_PHLOCK_SLOT, d.rd .SPN_PHLOCK_SLOTS, d.schState] ++ leBytes (d.word .SPN_MEAS) 4)

/-- TOKHOLD: the sequence of the token held, or 0xFFFF for an announced solo spin-up (R693, R696). -/
def Dev.sendHold (d : Dev) : Dev :=
  if d.rck.hold then (d.beginWait .tokHold).rackSend fTokHold 0 (leBytes d.rck.seq 2 ++ [0, 0])
  else if d.rck.ann then (d.beginWait .tokHold).rackSend fTokHold 0 [0xFF, 0xFF, 0, 0]
  else d

/-- The target fraction of this node's slot (R380). -/
def Dev.phaseTarget (d : Dev) : Nat :=
  let n := d.phaseSlots
  let k := d.rd .SPN_PHLOCK_SLOT % n
  (n - k) % n * rev / n

/-- The ABS fraction less this node's target fraction, as a beacon carries it (R700). -/
def Dev.beaconD (d : Dev) : Nat := subMod 24 (d.ang.val % rev) d.phaseTarget

/-- The first frame of the queue has been acknowledged: a node alone returns to the others (R696). -/
def Dev.soloOver (d : Dev) : Dev :=
  if !d.on .RCK_STAT_SOLO then d
  else
    let d := d.wr .RCK_STAT_SOLO 0 0
    if d.rck.delay then ({ d with rck := { d.rck with delay := false } }).askToken
    else if d.rck.alone && d.sch.spin then ({ d with rck := { d.rck with ann := true } }).sendHold
    else d

/-- SOLO sets (R695): the request is withdrawn, queued requests and releases are discarded, and a SCH that waits for a token
waits out the solo delay. -/
def Dev.goSolo (d : Dev) : Dev :=
  let out (f : RackFrame) : Bool := f.type == fTokReq || f.type == fTokRel
  let n := (d.rck.queue.filter out).length
  let waits := d.rck.want
  let d := { d with rck := { d.rck with queue := d.rck.queue.filter fun f => !out f, want := false,
                                        reqs := d.rck.reqs.filter fun r => r.1 != d.node } }
  let d := ((d.wr .RCK_STAT_SOLO 0 1).count .RCK_CNT_TXDROP 0 n)
  let d := d.raise 40 0 (d.word .RCK_STAT)
  if waits then d.soloDelay else d

/-- The transmit error counter rises; past 255 the node goes bus-off (R697). -/
def Dev.txError (d : Dev) : Dev :=
  let n := d.rck.txerr + 8
  let d := { d with rck := { d.rck with txerr := n } }
  if n ≤ 255 then d
  else
    let d := (d.wr .RCK_STAT_BUSOFF 0 1).count .RCK_ERR_BUSOFFS
    d.raise 40 0 (d.word .RCK_STAT)

/-- The frame at the head of the queue leaves it. -/
def Dev.dropFrame (d : Dev) : Dev := { d with rck := { d.rck with queue := d.rck.queue.tail } }

/-- An acknowledged frame: the error counter falls, and a beacon's phase is captured for the next (R700). -/
def Dev.rackSent (d : Dev) (f : RackFrame) (frac : Nat) : Dev :=
  let d := ({ d.dropFrame with rck := { d.dropFrame.rck with txerr := d.rck.txerr - 1 } }).emit
    (.rackFrame f.type d.node f.dst f.bytes)
  let d := if f.type = fBeacon then ({ d with rck := { d.rck with mine := some frac } }).count .RCK_CNT_BEACONS else d
  d.soloOver

/-- A frame that no node acknowledged (R695, R696): while error-passive the counter stays, and the sixteenth retransmission in
vain makes the node solo; alone, a frame is sent once. -/
def Dev.frameUnacked (d : Dev) (f : RackFrame) : Dev :=
  if d.on .RCK_STAT_SOLO then d.dropFrame
  else if d.rck.txerr < 128 then d.txError
  else if f.tries + 1 < 16 then
    { d with rck := { d.rck with queue := { f with tries := f.tries + 1 } :: d.rck.queue.tail } }
  else (d.dropFrame.count .RCK_CNT_TXDROP).goSolo

/-- The first queued frame wins arbitration and is sent (R691). -/
def Dev.frameTransmit (d : Dev) (r : TxResult) : Dev :=
  if !d.rckRuns then d
  else
    match d.rck.queue with
    | [] => d
    | f :: _ =>
      match r with
      | .acked => d.rackSent f d.beaconD
      | .unacked => d.frameUnacked f
      | .error => if d.on .RCK_STAT_SOLO then d.dropFrame.txError else d.txError

/-! ### Receiving -/

/-- A valid frame of node `src` has arrived (R688, R692, R696): the receive error counter falls, an own node ID is a duplicate,
and a node alone answers with HELLO. -/
def Dev.frameHeard (d : Dev) (src : Nat) : Dev :=
  let d := { d with rck := { d.rck with rxerr := min 127 (d.rck.rxerr - 1) } }
  if src = d.node then d.stick .RCK_STAT_DUPID
  else if d.on .RCK_STAT_SOLO then d.sendHello
  else d

/-- A frame of another node acts with `f`. -/
def Dev.received (d : Dev) (src : Nat) (f : Dev → Dev) : Dev :=
  if !d.rckRuns then d else if src = d.node then d.frameHeard src else f (d.frameHeard src)

/-- The node's view of the steward has changed: a waiting request is repeated at once (R693). -/
def Dev.stewardMoved (d : Dev) (was : Nat) : Dev :=
  let d := d.stewardTime
  if d.steward != was && d.rck.want && !d.on .RCK_STAT_SOLO then d.sendTokReq else d

/-- HELLO from another node (R692). -/
def Dev.helloFrom (d : Dev) (src flags : Nat) : Dev :=
  let was := d.steward
  (({ d with rck := { d.rck with heard := Tab.put d.rck.heard src flags } }).beginWait (.heard src)).stewardMoved was

/-- A node has sent no HELLO for 2 s (R692, R693). -/
def Dev.nodeLost (d : Dev) (n : Nat) : Dev :=
  let was := d.steward
  if !d.waited (.heard n) (2 * second) then d
  else (({ d with rck := { d.rck with heard := Tab.del d.rck.heard n } }).endWait (.heard n)).stewardMoved was

/-- This node's request is granted: its token counts from now on (R693). -/
def Dev.tokTake (d : Dev) : Dev :=
  if d.rck.want then ({ d with rck := { d.rck with hold := true, want := false } }).beginWait .tokHold else d

/-- TOKGRANT from the steward for this node's request (R693). -/
def Dev.tokGrant (d : Dev) (src dst seq : Nat) : Dev :=
  if dst = d.node ∧ src = d.steward ∧ seq = d.rck.seq then d.tokTake else d

/-- TOKREQ: a steward queues it (R694). -/
def Dev.tokReq (d : Dev) (src seq : Nat) : Dev := if d.isSteward then d.stewardQueue src seq else d

/-- TOKHOLD: the token of its sender counts as held (R694). -/
def Dev.tokHold (d : Dev) (src : Nat) : Dev :=
  let d := d.beginWait (.holder src)
  if d.rck.holds.contains src then d else { d with rck := { d.rck with holds := d.rck.holds ++ [src] } }

/-- TOKREL, or a second without a TOKHOLD: the token is free (R693, R694). -/
def Dev.tokFree (d : Dev) (src : Nat) : Dev :=
  ({ d with rck := { d.rck with holds := d.rck.holds.filter (· != src) } }).endWait (.holder src)

/-- A second without a TOKHOLD of a holder has passed (R694). -/
def Dev.holdExpiry (d : Dev) (n : Nat) : Dev := if d.waited (.holder n) second then d.tokFree n else d

/-- Every second the node sends HELLO (R692). -/
def Dev.helloDue (d : Dev) : Dev := d.periodic .hello second fun d => if d.on .RCK_CTL_ENABLE then d.sendHello else d

/-- A request that has not been granted for a second is repeated (R693). -/
def Dev.tokReqDue (d : Dev) : Dev :=
  if d.on .RCK_CTL_ENABLE && d.rck.want && !d.on .RCK_STAT_SOLO && d.waited .tokReq second then d.sendTokReq else d

/-- A holder broadcasts TOKHOLD every 250 ms (R693, R696). -/
def Dev.tokHoldDue (d : Dev) : Dev := if d.on .RCK_CTL_ENABLE && d.waited .tokHold 312500000 then d.sendHold else d

/-- Grants pause for a second (R694, R699). -/
def Dev.alerted (d : Dev) : Dev := { d with rck := { d.rck with alertAt := some d.now } }

/-- The steward may grant now: the pool, no alert within a second, and two seconds of stewardship (R694). -/
def Dev.mayGrant (d : Dev) : Bool :=
  d.rckRuns && decide (d.rck.holds.length + bnat (d.rck.hold || d.rck.ann) < max 1 (d.rd .RCK_TOK_POOL)) &&
    (match d.rck.alertAt with | some t => decide (t + second ≤ d.now) | none => true) &&
    (match d.rck.stewardAt with | some t => decide (t + 2 * second ≤ d.now) | none => false)

/-- The steward grants the request that arrived first; to itself without a frame (R694). -/
def Dev.stewardGrant (d : Dev) : Dev :=
  match d.rck.reqs with
  | [] => d
  | (n, q) :: rs =>
    if !d.mayGrant then d
    else
      let d := { d with rck := { d.rck with reqs := rs } }
      if n = d.node then d.tokTake else d.rackSend fTokGrant n (leBytes q 2 ++ [0, 0])

/-- The solo delay ends (R695). -/
def Dev.delayEnd (d : Dev) : Dev :=
  if d.rck.delay && decide (d.rck.endAt ≤ d.now) then
    ({ d with rck := { d.rck with delay := false, freed := true } }).tokenObtained
  else d

/-! ### RACK_ALERT (R698, R699) -/

/-- A foreign low level. -/
def Dev.alertSense (d : Dev) : Dev := if d.on .RCK_STAT_ALERTOUT then d else (d.stick .RCK_STAT_ALERTIN).alerted

/-- The drive lets go of the line, after its time and not before the power-fail sequence ends. -/
def Dev.alertRelease (d : Dev) : Dev :=
  if d.spn.running || decide (d.now < d.rck.alertTill) then d else d.wr .RCK_STAT_ALERTOUT 0 0

/-! ### The phase beacon (R700, R701) -/

/-- A node that may be beacon master: ATSPEED, LOCKED and phase-lock enabled. -/
def beaconFit (flags : Nat) : Bool := flags % 8 == 7

/-- This node's own flags as far as the choice of a master needs them. -/
def Dev.ownFit (d : Dev) : Bool := d.on .SPN_STAT_ATSPEED && d.angValid && d.on .SPN_PHLOCK_EN

/-- The lowest-numbered node that may be master. -/
def Dev.beaconChoice (d : Dev) : Option Nat :=
  let l := ((d.rck.heard.filter fun e => beaconFit e.2).map Prod.fst) ++ (if d.ownFit then [d.node] else [])
  bestOf (fun a b => decide (a < b)) l

/-- The choice is watched: how long it has been stable counts from its last change (R700). -/
def Dev.rackUpdate (d : Dev) : Dev :=
  let m := d.beaconChoice
  if m == d.rck.choice then d else ({ d with rck := { d.rck with choice := m } }).beginWait .choice

/-- The choice has been stable for 2 s. -/
def Dev.masterChange (d : Dev) : Dev :=
  let m := d.rck.choice
  if !d.rckRuns || m == d.rck.master || !d.waited .choice (2 * second) then d
  else { d with rck := { d.rck with master := m, taken := none, mine := none } }

/-- The beacon master queues a BEACON with D of its previous one once in each revolution, when its own ABS fraction reaches the target
of its slot; the D of a first beacon is a free value (log 3). -/
def Dev.beaconSend (d : Dev) : Dev :=
  if !d.rckRuns || d.rck.master != some d.node || !d.fellSince d.phaseTarget (d.waitFrom .beacon + 1024) then d
  else
    let x := d.rck.mine.getD (d.fresh % rev)
    let d := if d.rck.mine.isSome then d else d.used
    let n := d.rck.bnum
    (({ d with rck := { d.rck with bnum := (n + 1) % 256 } }).beginWait .beacon).rackSend fBeacon 0 (leBytes x 3 ++ [n])

/-- A BEACON from the master (R701): the marker it gives stands for the beacon before. -/
def Dev.beaconTake (d : Dev) (src x num : Nat) : Dev :=
  if d.rck.master != some src then d
  else
    let now : Beacon := { num := num, frac := d.ang.val % rev, cycle := d.now, prev := none }
    match d.rck.taken with
    | none => { d with rck := { d.rck with taken := some now } }
    | some t =>
      if (t.num + 1) % 256 != num then { d with rck := { d.rck with taken := some now } }
      else
        let d := { d with rck := { d.rck with taken := some { now with prev := some t.cycle } } }
        (d.count .RCK_CNT_MARKERS).phaseMarker (subMod 24 t.frac x) (t.prev.map fun p => t.cycle - p)

end Sys2Proof.Machine
end

