-- ==== Sys2Proof/Machine/Units.lean ====
section
/-! DEFINITION. Atomic units of writing (R209, R377, R451): which 256 KiB unit the write job of a head slot has started, and how
a power failure, a quiesce and a controller reset stop jobs at their units. -/

namespace Sys2Proof.Machine

/-- The data member of an entry of a write job, if it is one. -/
def Dev.entryData (d : Dev) (j : Job) (e : Entry) : Option Nat :=
  let z := d.jobZone j
  match d.roleOf z j.surf j.track e.slot with
  | .data i => some i
  | _ => none

/-- The stripe of an entry. -/
def Dev.entryStripe (d : Dev) (j : Job) (e : Entry) : Option Nat :=
  d.memberStripe (d.jobZone j) j.surf j.track e.slot

/-- List positions of a slot's job whose write gate has opened (R377). -/
def Dev.startedAt (d : Dev) (s : Nat) : List Nat :=
  (d.seq s).committed ++ (((d.wslot s).emits.filter fun e => (d.seq s).job == some e.job).map Emit.entry)

/-- List positions of the data entries of unit `u`, and of the parity entries that cover them. -/
def Dev.unitData (d : Dev) (j : Job) (u : Nat) : List Nat :=
  (List.range j.entries.length).filter fun p => ((j.entries[p]?).bind (d.entryData j)).any fun i => i / 64 == u
def Dev.unitParity (d : Dev) (j : Job) (u : Nat) : List Nat :=
  let stripes := (d.unitData j u).filterMap fun p => (j.entries[p]?).bind (d.entryStripe j)
  (List.range j.entries.length).filter fun p =>
    (j.entries[p]?).any fun e => e.role == 3 && ((d.entryStripe j e).any fun k => stripes.contains k)

/-- The units of which a slot's write job has started a member. -/
def Dev.startedUnits (d : Dev) (s : Nat) (j : Job) : List Nat :=
  ((d.startedAt s).filterMap fun p => ((j.entries[p]?).bind (d.entryData j)).map (· / 64)).eraseDups

/-- What a unit of a slot's write job is recorded as (R377, R632): its members by slot index. -/
def Dev.unitOf (d : Dev) (s : Nat) (j : Job) (u : Nat) : PfUnit :=
  let slots (l : List Nat) : List Nat := l.filterMap fun p => (j.entries[p]?).map Entry.slot
  let data := slots (d.unitData j u)
  { slot := s, psa := mkPsa j.surf j.track (data.headD 0) j.gen, fseq := j.fseq,
    members := data ++ slots (d.unitParity j u), data := data, passed := slots (d.seq s).passed }

/-- Every member has a PASS record. -/
def PfUnit.whole (u : PfUnit) : Bool := u.members.all u.passed.contains

/-- The unit in progress on slot `s`: the last one started, where it has not passed in full. -/
def Dev.currentUnit (d : Dev) (s : Nat) : Option PfUnit :=
  match (d.seq s).job with
  | none => none
  | some j =>
    if j.kind != 1 || !d.seqBusy s then none
    else (((d.startedUnits s j).map (d.unitOf s j)).filter fun u => !u.whole).getLast?

/-- The job of slot `s` ends with the units it has started: the entries behind the last of their members are dropped. -/
def Dev.cutJob (d : Dev) (s : Nat) : Dev :=
  let q := d.seq s
  match q.job with
  | none => d
  | some j =>
    let last := ((d.startedUnits s j).flatMap fun u => d.unitData j u ++ d.unitParity j u).foldl max 0
    let k := { j with entries := j.entries.take (last + 1) }
    let w := d.wslot s
    let emits := w.emits.map fun e => if e.job == j then { e with job := k } else e
    (d.setSeq s { q with job := some k }).setWslot s { w with emits := emits }

/-- The jobs of the slots that `f` names go no further than the units they have started: the others are abandoned with cause
STOP (R377, R455, R457, R666). -/
def Dev.stopAtUnits (d : Dev) (f : Job → Bool) : Dev :=
  (List.range 32).foldl (fun d s =>
    match (d.seq s).job with
    | none => d
    | some j => if !f j then d else if (d.currentUnit s).isSome then d.cutJob s else d.abandon s 1) d

/-- The waiting jobs that `f` names go back to their owners. -/
def Dev.returnJobs (d : Dev) (f : Job → Bool) : Dev := (d.sch.jobs.filter fun x => f x.job).foldl Dev.returnJob d

/-- The units in progress, by slot. -/
def Dev.unitsNow (d : Dev) : Tab PfUnit :=
  (List.range 32).filterMap fun s => (d.currentUnit s).map fun u => (s, u)

/-- The PFUNIT record of an actuator from its units (R632): PASSED only where every one has passed in full. -/
def Dev.unitRecord (d : Dev) (a : Nat) (us : List PfUnit) (pass : Bool) : Dev :=
  match us with
  | [] => d
  | u :: _ =>
    let n := ((us.map fun u => (u.data.filter u.passed.contains).length).sum) % 256
    d.event 0x501 a u.psa (u.psa / 2 ^ 32 % 2 ^ 16 + n * 2 ^ 16 + bnat (pass && us.all PfUnit.whole) * 2 ^ 24) u.fseq

/-- The units of one actuator. -/
def unitsOfAct (t : Tab PfUnit) (a : Nat) : List PfUnit := (t.filter fun e => actOfSlot e.1 == a).map Prod.snd

end Sys2Proof.Machine
end

