-- ==== Sys2Proof/Machine/Host.lean ====
section
/-! DEFINITION. HIF's queues and commands (12_host_interface): completions and interrupts, asynchronous events, arbitration and
fetch, the hand-over of I/O commands to command engines, the transfers microcode asks for, and controller resets. -/

namespace Sys2Proof.Machine

/-! ### Ports -/

def Dev.port (d : Dev) (p : Nat) : Port := Tab.getD d.hif.ports p {}
def Dev.setPort (d : Dev) (p : Nat) (x : Port) : Dev := { d with hif := { d.hif with ports := Tab.put d.hif.ports p x } }

/-- The ports that exist. -/
def Dev.portList (d : Dev) : List Nat := (List.range 2).filter d.portExists

/-- A controller-scoped feature value (R434): 0 where it has not been set, but for the over-temperature threshold. -/
def Port.feat (x : Port) (fid : Nat) : Nat := Tab.getD x.feats fid (if fid = 4 then 0xFFFF else 0)

/-- The namespace-scoped value that applies to a command (R435): the last change fetched before it. -/
def Dev.nsFeat (d : Dev) (ns fid fseq : Nat) : Nat :=
  let l := d.hif.feats.filter fun e => (e.ns == ns || e.ns == 2 ^ 32 - 1) && e.fid == fid && earlier e.fseq fseq
  (l.getLast?.map NsFeat.val).getD 0

/-! ### MSI-X (R422) -/

/-- Configuration-space dword of the MSI-X capability's Message Control (PRESUMED, log 21). -/
def msixCap : Nat := 0x14

/-- Word `k` of a vector's table entry; a vector is masked after reset. -/
def Port.msixWord (x : Port) (v k : Nat) : Nat := Tab.getD x.msix (4 * v + k) (if k = 3 then 1 else 0)

/-- Request an interrupt on vector `v`: sent, or left pending while it is masked; nothing while MSI-X is off. -/
def Dev.interrupt (d : Dev) (p v : Nat) : Dev :=
  let x := d.port p
  let ctl := Tab.getD x.cfg msixCap 0 / 65536
  if !bit ctl 15 then d
  else if bit ctl 14 || bit (x.msixWord v 3) 0 then
    if x.pba.contains v then d else d.setPort p { x with pba := x.pba ++ [v] }
  else d.emit (.msix p v (x.msixWord v 0 + x.msixWord v 1 * 2 ^ 32) (x.msixWord v 2))

/-- Pending interrupts whose mask has gone are sent. -/
def Dev.interruptsNow (d : Dev) (p : Nat) : Dev :=
  let l := (d.port p).pba
  let d := d.setPort p { d.port p with pba := [] }
  l.foldl (fun d v => d.interrupt p v) d

/-! ### Completion queues (R424, R434) -/

/-- A completion queue with no free entry. -/
def Cq.full (q : Cq) : Bool := (q.tail + 1) % max 1 q.size == q.head

/-- Entries posted to a completion queue are aggregated (R434): an I/O queue whose vector does not disable coalescing, with
both thresholds set, below the threshold. -/
def Port.aggregates (x : Port) (cq : Nat) (q : Cq) : Bool :=
  let f := x.feat 8
  cq != 0 && !bit (x.feat (256 * q.vec + 9)) 16 && f % 256 != 0 && f / 256 % 256 != 0 && decide (q.agg + 1 ≤ f % 256)

/-- Write an entry into a completion queue that has room, and signal it (R434). -/
def Dev.putCqe (d : Dev) (p cqid : Nat) (q : Cq) (c : Cqe) : Dev :=
  let x := d.port p
  let head := ((Tab.look x.sqs c.sq).map Sq.head).getD 0
  let last := q.tail + 1 == q.size
  let agg := q.ien && x.aggregates cqid q
  let q' : Cq := { q with tail := if last then 0 else q.tail + 1, phase := if last then !q.phase else q.phase,
                          agg := if agg then q.agg + 1 else 0 }
  let d := d.setPort p { x with cqs := Tab.put x.cqs cqid q' }
  let dws := [c.dw0 % 2 ^ 32, c.dw1 % 2 ^ 32, head + c.sq * 65536, c.cid + bnat q.phase * 65536 + c.status % 2 ^ 15 * 2 ^ 17]
  let d := d.emit (.cqe p cqid dws)
  let first := agg && !(x.cqs.any fun e => e.2.vec == q.vec && e.2.agg != 0)
  let d := if first then d.beginWait (.coalesce p q.vec) else d
  if q.ien && !agg then d.interrupt p q.vec else d

/-- The completion queue of a submission queue, where it exists and has room. -/
def Port.room (x : Port) (sq : Nat) : Option (Nat × Cq) :=
  match Tab.look x.sqs sq with
  | none => none
  | some s => match Tab.look x.cqs s.cq with
    | some q => if q.full then none else some (s.cq, q)
    | none => none

/-- Post the completion of an admin command; without room it waits. -/
def Dev.postAdmin (d : Dev) (p : Nat) (c : Cqe) : Dev :=
  let x := d.port p
  match if x.wait.isEmpty then x.room 0 else none with
  | some (i, q) => d.putCqe p i q c
  | none => d.setPort p { x with wait := x.wait ++ [c] }

/-- Waiting admin completions are posted as room appears. -/
def Dev.drainAdmin (d : Dev) (p : Nat) : Dev :=
  let l := (d.port p).wait
  let d := d.setPort p { d.port p with wait := [] }
  l.foldl (fun d c => d.postAdmin p c) d

/-- An admin command ends with a status: it leaves, and its completion is posted. -/
def Dev.endAdmin (d : Dev) (a : Adm) (st dw0 dw1 : Nat) : Dev :=
  let d := { d with hif := { d.hif with adm := d.hif.adm.filter fun b => b.fseq != a.fseq } }
  d.postAdmin a.port { sq := 0, cid := a.cid, dw0 := dw0, dw1 := dw1, status := st }

/-! ### Asynchronous events (R432, R434, R439, R449) -/

/-- An event of a type (0 error, 1 health, 2 notice) for a controller: it completes a waiting request and masks its type until
the log page is read, or waits for a request. -/
def Dev.asyncEvent (d : Dev) (p type info lid dw1 : Nat) : Dev :=
  let x := d.port p
  let dw0 := type + info * 256 + lid * 65536
  if x.masked.contains type || !d.ctrlReady p then d
  else match x.aers with
    | [] => if x.aes.any fun e => e.1 % 8 == type then d else d.setPort p { x with aes := x.aes ++ [(dw0, dw1)] }
    | f :: rest =>
      let d := d.setPort p { x with aers := rest, masked := x.masked ++ [type] }
      match d.hif.adm.find? fun a => a.fseq == f with
      | some a => d.endAdmin a 0 dw0 dw1
      | none => d

/-- The zone of `ns` that begins at `lba` enters each controller's Changed Zone List (R438), and Zone Descriptor Changed follows where
bit 27 enables it (R449). -/
def Dev.zoneNotice (d : Dev) (ns lba : Nat) : Dev :=
  d.portList.foldl (fun d p =>
    let x := d.port p
    let d := if x.changed.contains (ns, lba) then d else d.setPort p { x with changed := x.changed ++ [(ns, lba)] }
    if bit (x.feat 0xB) 27 then d.asyncEvent p 2 0xEF 0xBF ns else d) d

/-- No head in SERVICE on an actuator in SERVICE reaches a declared surface (R439). -/
def Dev.noWriter (d : Dev) : Bool :=
  !((List.range 128).any fun h =>
    d.declared h && d.rd .SRV_HSTAT_STATE h == unitServ && d.rd .SRV_STAT_SVC (actOfHead h) == unitServ)

/-- Composite temperature in kelvin: the highest die sensor (R607). -/
def Dev.kelvin (d : Dev) : Nat := (273 + signed 8 (d.rd .HLT_TEMP_MAX)).toNat

/-- The critical-warning bits as a controller sees them (R439). -/
def Dev.critical (d : Dev) (x : Port) : Nat :=
  let hot := decide (x.feat 4 < d.kelvin) || decide (d.kelvin < x.feat 0x104)
  maskOf [decide (d.rd .HLT_REPL_AVAIL < d.rd .HLT_PLAN_SPARETH), hot, d.on .HLT_REPL_REPLACE, d.noWriter]

/-- The kind of health event a warning bit raises. -/
def warnInfo (b : Nat) : Nat := if b = 0 then 2 else if b = 1 then 1 else 0

/-- A change of a warning bit that a controller has enabled raises an event (R439). -/
def Dev.warnings (d : Dev) (p : Nat) : Dev :=
  let x := d.port p
  let w := d.critical x
  let news := (List.range 4).filter fun b => bit w b != bit x.warn b
  if !d.ctrlReady p || news.isEmpty then d
  else
    let d := d.setPort p { x with warn := w }
    news.foldl (fun d b => if bit (x.feat 0xB) b then d.asyncEvent p 1 (warnInfo b) 2 0 else d) d

/-! ### Ends of I/O commands (R26, R427, R454, R456, R459) -/

def Dev.cmdOf (d : Dev) (fseq : Nat) : Option Cmd := d.hif.cmds.find? fun c => c.fseq == fseq
def Dev.setCmd (d : Dev) (c : Cmd) : Dev :=
  { d with hif := { d.hif with cmds := d.hif.cmds.map fun x => if x.fseq == c.fseq then c else x } }

/-- A deletion of a submission queue completes once none of its commands is left (R456). -/
def Dev.deletions (d : Dev) (p : Nat) : Dev :=
  let x := d.port p
  let ended := x.dels.filter fun e => !(d.hif.cmds.any fun c => c.port == p && c.sq == e.1)
  ended.foldl (fun d e =>
    let x := d.port p
    let gone := x.sqs.filter fun s => s.1 != e.1
    let d := d.setPort p { x with sqs := gone, dels := x.dels.erase e, marks := x.marks.filter fun m => m.1 != e.1 }
    match d.hif.adm.find? fun a => a.fseq == e.2 with
    | some a => d.endAdmin a 0 0 0
    | none => d) d

/-- Where a block's sector lies now, its PSA without the generation. -/
def Dev.blockPsa (d : Dev) (n : Ns) (lba : Nat) : Option Nat :=
  (d.blockPlace n lba).bind fun (s, t, i) => (d.zoneOf s t).map fun z =>
    let (u, k) := d.heldIn s t (slotOfData z.ds z.ps i)
    mkPsa s u k 0

/-- Block `k` of a command is one that its failure status names (R438, R454): unwritten, not read, not verified, or the first of a check. -/
def Dev.failedBlock (d : Dev) (c : Cmd) (n : Ns) (code k : Nat) : Bool :=
  let lba := sqeLba c.sqe + k
  match code with
  | 0x80 => ((d.blockPlace n lba).map fun p => (d.provenWith false p).any fun m => !(d.writeLog c.fseq).passed.contains m).getD false
  | 0x81 => ((d.blockPsa n lba).map fun p => c.unread.any fun u => u.1 == p).getD false
  | 0x87 => d.unwritten n lba
  | _ => k == c.piAt

/-- The first failing LBA of a command that ends with a status of type 2h; its first block where none is told apart. -/
def Dev.failingLba (d : Dev) (c : Cmd) (st : Nat) : Nat :=
  let n := d.nsEntry (sqeNs c.sqe)
  sqeLba c.sqe + ((List.range (sqeBlocks c.sqe)).find? (d.failedBlock c n (st % 256))).getD 0

/-- A completion of status type 2h is counted and enters the Error Information log, of 64 entries (R438, R439). -/
def Dev.logError (d : Dev) (c : Cmd) (st : Nat) : Dev :=
  if bits st 8 3 ≠ 2 then d
  else
    let l := d.hif.log
    let e : LogErr := { num := l.media + 1, port := c.port, sq := c.sq, cid := c.cid, status := st, lba := d.failingLba c st,
                        ns := sqeNs c.sqe }
    { d with hif := { d.hif with log := { l with errs := (e :: l.errs).take 64, media := l.media + 1 } } }

/-- A completion is posted: the logs and the zone table follow it (R446), the overlap entry goes (R475), and the command is no more in
flight (R427). -/
def Dev.finishIo (d : Dev) (c : Cmd) (e : Cqe) (cq : Nat) (q : Cq) : Dev :=
  let x := d.port c.port
  let d := d.logError c e.status
  let d := match d.nsActive x (sqeNs c.sqe) with
    | some n =>
      let short := (d.writeLog c.fseq).noSpare
      let d := d.zoneCompletion n c.sqe short e.status e.dw0 e.dw1
      let bad := n.csi == 2 && writesMedia (sqeOp c.sqe) && (e.status % 2048 == 0x081 || (e.status % 2048 == 0x280 && short))
      if bad then d.zoneNotice (sqeNs c.sqe) (n.zone (sqeLba c.sqe) * n.zsze) else d
    | none => d
  let d := d.putCqe c.port cq q e
  let x := d.port c.port
  let sqs := x.sqs.map fun s => if s.1 = c.sq then (s.1, { s.2 with inflight := s.2.inflight - 1 }) else s
  let d := d.setPort c.port { x with sqs := sqs }
  let d := { d with hif := { d.hif with cmds := d.hif.cmds.filter fun y => y.fseq != c.fseq,
                                        again := d.hif.again.filter fun r => r.idx != c.idx } }
  (d.schComplete c.fseq).deletions c.port

/-- Where a command's blocks lie: an append's where its completion says (R450). -/
def Cmd.lbaFor (c : Cmd) (e : Cqe) : Nat := if sqeOp c.sqe = opZoneAppend then e.dw0 + e.dw1 * 2 ^ 32 else sqeLba c.sqe

/-- A completion may be posted: the command's transfers to the host have ended (R26, R459), and a success waits for those that are to be
repeated (R528), and of a write until every sector of it and its track parity have passed verify (R29). -/
def Dev.mayEnd (d : Dev) (c : Cmd) (e : Cqe) : Bool :=
  c.moving == 0 && (e.status != 0 || (d.provenAt c (c.lbaFor e) && !d.hif.again.any fun r => r.idx == c.idx))

/-- The track locks of a write command return when it fails or everything it wrote is proven (R311), its completion posted or not. -/
def Dev.freeWrite (d : Dev) (c : Cmd) (e : Cqe) : Dev :=
  if e.status != 0 || d.provenAt c (c.lbaFor e) then d.unlockAll (.host c.fseq) else d

/-- Complete an I/O command: it waits for its transfers, for the proof of what it has written, and for room in its queue. -/
def Dev.complete (d : Dev) (c : Cmd) (st dw0 dw1 : Nat) : Dev :=
  if c.ending.isSome then d
  else
    let e : Cqe := { sq := c.sq, cid := c.cid, dw0 := dw0, dw1 := dw1, status := st }
    match if d.mayEnd c e then (d.port c.port).room c.sq else none with
    | some (i, q) => d.finishIo c e i q
    | none => (d.setCmd { c with ending := some e }).freeWrite c e

/-- Post the completions of a port that can be posted now, oldest first. -/
def Dev.retryIo (d : Dev) (p : Nat) : Dev :=
  (d.hif.cmds.filter fun c => c.port == p).foldl (fun d c =>
    match c.ending with
    | none => d
    | some e => match if d.mayEnd c e then (d.port p).room c.sq else none with
      | some (i, q) => d.finishIo c e i q
      | none => d.freeWrite c e) d

/-- A member has passed verify: a write whose blocks' place is known returns its locks once all it wrote is proven (R311), and the
completions that waited for the proof are posted (R29). -/
def Dev.writesProven (d : Dev) : Dev :=
  let early (c : Cmd) : Bool := c.ending.isNone && writesMedia (sqeOp c.sqe) && sqeOp c.sqe != opZoneAppend &&
    ((d.blockMsn (d.nsEntry (sqeNs c.sqe)) (sqeLba c.sqe)).isSome) && d.provenAt c (sqeLba c.sqe)
  let d := (d.hif.cmds.filter early).foldl (fun d c => d.unlockAll (.host c.fseq)) d
  d.portList.foldl Dev.retryIo d

/-! ### Doorbells -/

/-- Invalid Doorbell Register (0) or Write Value (1), an error event. -/
def Dev.badDoorbell (d : Dev) (p k : Nat) : Dev := d.asyncEvent p 0 k 1 0

/-- A doorbell of BAR0 is written. -/
def Dev.doorbell (d : Dev) (p q : Nat) (isCq : Bool) (v : Nat) : Dev :=
  let x := d.port p
  if !d.ctrlReady p then d
  else if isCq then
    match Tab.look x.cqs q with
    | none => d.badDoorbell p 0
    | some c =>
      if c.size ≤ v then d.badDoorbell p 1
      else (((d.setPort p { x with cqs := Tab.put x.cqs q { c with head := v } }).drainAdmin p).retryIo p).drainAdmin p
  else
    match Tab.look x.sqs q with
    | none => d.badDoorbell p 0
    | some c => if c.size ≤ v then d.badDoorbell p 1 else d.setPort p { x with sqs := Tab.put x.sqs q { c with tail := v } }

/-- The aggregation time of a vector passes (R434): what its queues have gathered is signalled. -/
def Dev.coalesceTimeout (d : Dev) (p v : Nat) : Dev :=
  let x := d.port p
  let time := x.feat 8 / 256 % 256 * 125000
  if !(x.cqs.any fun e => e.2.vec == v && e.2.agg != 0) || !d.waited (.coalesce p v) time then d
  else
    let cqs := x.cqs.map fun e => if e.2.vec = v then (e.1, { e.2 with agg := 0 }) else e
    (d.setPort p { x with cqs := cqs }).interrupt p v

/-! ### Hand-over to a command engine (R412, R458) -/

/-- Offset of a command record in table SRAM. -/
def Dev.recordOfs (d : Dev) (i : Nat) : Nat := d.rd .HIF_CMDBASE_BASE * 65536 + 64 * i

/-- Offer a command to the engine with the fewest queued CMD triggers; while no engine can take it, HIF holds it (R413). -/
def Dev.offer (d : Dev) (c : Cmd) : Dev :=
  match d.fewest fun t => t.type == tCmd with
  | none => d.setCmd { c with phase := .held }
  | some k =>
    let d := d.setCmd { c with phase := .offered, owner := d.ownerId k }
    d.trigger (4 + k) tCmd 0 (d.recordOfs c.idx) c.fseq (c.cid + (c.sq - 1) * 65536 + c.port * 2 ^ 24) 0

/-- Offer a command again once its write data is in the buffer (R458); `pi`: the first check that failed, if any. -/
def Dev.offerData (d : Dev) (c : Cmd) (pi : Nat) : Dev :=
  let d := d.setCmd { c with ask := none }
  d.ceTrigger c.owner tCmd 0 (d.recordOfs c.idx) c.fseq (c.cid + (c.sq - 1) * 65536 + c.port * 2 ^ 24)
    (1 + (if pi = 0 then 0 else 2 + 4 * pi))

/-- A command of opcode `op`, and for Zone Management Send of action `zsa`, that has been fetched is checked and handed over;
HIF ends a Flush itself (R433, R452). -/
def Dev.ioCommand (d : Dev) (fseq op : Nat) (zsa : Option Nat) : Dev :=
  match d.cmdOf fseq with
  | none => d
  | some c =>
    if c.phase != .fetched || sqeOp c.sqe != op || !(zsa.all fun a => sqeZsa c.sqe == a) then d
    else match d.ioRefusal (d.port c.port) c.sqe with
      | some st => d.complete c st 0 0
      | none => if op = opFlush then d.complete c 0 0 0 else d.offer c

/-! ### Fetch and arbitration (R426-R431) -/

/-- A queue has commands to fetch. -/
def Sq.waits (s : Sq) : Bool := s.head != s.tail && !s.stop

/-- The class a queue is served in: one class under round robin. -/
def Port.classOf (x : Port) (s : Sq) : Nat := if x.ams = 0 then 0 else s.prio

/-- I/O queues of a class that wait. -/
def Port.waiting (x : Port) (c : Nat) : List Nat :=
  (x.sqs.filter fun e => e.1 != 0 && e.2.waits && x.classOf e.2 == c).map Prod.fst

/-- The weight of a class under the Arbitration feature: HPW, MPW or LPW plus 1. -/
def Port.weight (x : Port) (c : Nat) : Nat := x.feat 1 / 2 ^ (32 - 8 * c) % 256 + 1

/-- The class served next, with the credits that are left (R429): urgent first, then the highest class with credit; all
classes are given their credits anew when none that waits has any. -/
def Port.pickClass (x : Port) : Option (Nat × Port) :=
  if !(x.waiting 0).isEmpty then some (0, x)
  else
    let cs := [1, 2, 3].filter fun c => !(x.waiting c).isEmpty
    let credit (x : Port) (c : Nat) : Nat := Tab.getD x.credit c 0
    let x := if cs.any fun c => 0 < credit x c then x
      else { x with credit := [(1, x.weight 1), (2, x.weight 2), (3, x.weight 3)] }
    (cs.find? fun c => 0 < credit x c).map fun c => (c, { x with credit := Tab.put x.credit c (credit x c - 1) })

/-- The queue served next within a class: the one whose burst runs, else the next in turn. -/
def Port.pickQueue (x : Port) (c : Nat) : Option (Nat × Port) :=
  let l := x.waiting c
  let ab := x.feat 1 % 8
  match x.burst with
  | some (q, n + 1) =>
    if l.contains q then some (q, { x with burst := some (q, if ab = 7 then n + 1 else n) }) else next l ab
  | _ => next l ab
where
  next (l : List Nat) (ab : Nat) : Option (Nat × Port) :=
    let t := Tab.getD x.turn c 0
    let q := match l.find? fun k => decide (t < k) with | some k => some k | none => l.head?
    q.map fun k => (k, { x with turn := Tab.put x.turn c k, burst := some (k, if ab = 7 then 1 else 2 ^ ab - 1) })

/-- The I/O queue that arbitration selects. -/
def Port.pick (x : Port) : Option (Nat × Port) := x.pickClass.bind fun e => e.2.pickQueue e.1

/-- HIF fetches from a controller at all. -/
def Dev.fetches (d : Dev) (p : Nat) : Bool :=
  d.ctrlReady p && d.on .HIF_CTL_ENABLE && !d.on .HIF_CTL_PAUSE && d.cfg.kind == 0 && !(d.port p).quiet &&
    d.on .HIF_LNKSTAT_UP p && Tab.getD (d.port p).cfg 17 0 % 4 == 0

/-- An admin command can be fetched: the ring has room for it behind those still to be entered (R427). -/
def Dev.admRoom (d : Dev) : Bool := decide (d.admRing + (d.hif.adm.filter fun a => a.ring.isNone).length < 1023)

/-- I/O commands are fetched: no hold, no safe state, fewer than 65,536 in flight (R427, R614, R615). -/
def Dev.ioOpen (d : Dev) : Bool :=
  !d.on .FLT_STAT_HOLD && !d.on .FLT_STAT_SAFEACT && decide (d.hif.cmds.length < 65536)

/-- The media is not ready (R426, R669): the drive is starting, SCH is READY with no actuator in SERVICE, or DONE is owed. -/
def Dev.mediaNotReady (d : Dev) : Bool :=
  !d.sch.up || (d.schState == 4 && !((List.range 4).any fun a => d.rd .SRV_STAT_SVC a == unitServ)) || !d.on .CFG_STAT_RESTORED

/-- The overlap entry of a fetched command (R470). -/
def Dev.ovlFor (d : Dev) (x : Port) (e : List Nat) (fseq port : Nat) (urgent : Bool) : Ovl :=
  let op := sqeOp e
  let n := d.nsActive x (sqeNs e)
  let zsze := (n.map fun n => max 1 n.zsze).getD 1
  let z := sqeLba e / zsze
  let (lo, hi) : Nat × Nat :=
    if op = opZoneSend ∧ sqeAll e then (0, (n.map Ns.nsze).getD 0)
    else if op = opZoneAppend ∨ op = opZoneAttribute ∨ op = opZoneSend then (z * zsze, (z + 1) * zsze)
    else (sqeLba e, sqeLba e + sqeBlocks e)
  { fseq := fseq, ns := sqeNs e, lo := lo, hi := hi, time := d.now, port := port,
    ordered := !(op == opFlush || op == opZoneReceive), reads := op == opRead || op == opVerify, append := op == opZoneAppend,
    urgent := urgent, promoted := false, withdrawn := false }

/-- The lowest free command record. -/
def Dev.freeRecord (d : Dev) : Nat :=
  ((List.range (d.hif.cmds.length + 1)).find? fun i => !(d.hif.cmds.any fun c => c.idx == i)).getD 0

/-- The next fetch sequence. -/
def Dev.nextFseq (d : Dev) : Nat × Dev := (d.rd .HIF_FSEQ_NEXT, d.tally .HIF_FSEQ_NEXT)

/-- A command's dwords as bytes. -/
def dwBytes (l : List Nat) : List Byte := l.flatMap fun w => (List.range 4).map fun k => BitVec.ofNat 8 (w / 256 ^ k)

/-- A row of the table takes the command further (R432, R433). -/
def ioRow (e : List Nat) : Bool :=
  let op := sqeOp e
  opValid 2 op && (op != opZoneSend || (1 ≤ sqeZsa e && sqeZsa e ≤ 5))

/-- Fetch one I/O command: its number, its record and its overlap entry; a marked command, and any while the media is not
ready, ends at once, as does one that no command of the table names. -/
def Dev.fetchIo (d : Dev) (p q : Nat) (x : Port) (e : List Nat) : Dev :=
  match Tab.look x.sqs q with
  | none => d
  | some s =>
    let s' : Sq := { s with head := (s.head + 1) % max 1 s.size, inflight := s.inflight + 1 }
    let (fseq, d) := d.nextFseq
    let feats := if x.feat 2 % 32 = 0 then x.feats else Tab.put x.feats 2 (x.feat 2 / 32 * 32)
    let d := d.setPort p { x with sqs := Tab.put x.sqs q s', feats := feats }
    let urgent := x.ams == 1 && s.prio == 0
    let c : Cmd := { fseq := fseq, port := p, sq := q, cid := sqeCid e, idx := d.freeRecord, time := d.now, owner := 0, sqe := e,
                     urgent := urgent, phase := .fetched, moving := 0, ending := none, piErr := 0, limit := false, begun := false,
                     got := [], comp := [], ask := none }
    let d := d.putBytes (tableSram + d.recordOfs c.idx) (dwBytes e)
    let d := { d with hif := { d.hif with cmds := d.hif.cmds ++ [c] } }
    let d := d.wr .HIF_PEAK_PEAK 0 (max (d.rd .HIF_PEAK_PEAK) d.hif.cmds.length)
    let d := (d.ovlEnter (d.ovlFor x e fseq p urgent)).wakeUp
    if x.marks.contains (q, c.cid) then (d.complete c 0x07 0 0).count .HIF_ABCNT_ABORTED p
    else if d.mediaNotReady then d.complete c notReady 0 0
    else if ioRow e then d
    else d.complete c ((d.ioRefusal x e).getD (status 0 0x01 true)) 0 0

/-- Fetch one admin command. -/
def Dev.fetchAdmin (d : Dev) (p : Nat) (s : Sq) (e : List Nat) : Dev :=
  let x := d.port p
  let (fseq, d) := d.nextFseq
  let d := d.setPort p { x with sqs := Tab.put x.sqs 0 { s with head := (s.head + 1) % max 1 s.size } }
  { d with hif := { d.hif with adm := d.hif.adm ++ [{ fseq := fseq, port := p, cid := sqeCid e, sqe := e, ring := none }] } }

/-- One controller's part of a fetch cycle: the admin queue first (R429); `e` is the entry its arbitration finds. -/
def Dev.fetchPort (d : Dev) (p : Nat) (e : List Nat) : Dev :=
  let x := d.port p
  if !d.fetches p then d
  else match (Tab.look x.sqs 0).filter Sq.waits with
    | some s => if d.admRoom then d.fetchAdmin p s e else d
    | none =>
      if !d.ioOpen then d
      else match x.pick with
        | some (q, y) => d.fetchIo p q y e
        | none => d

/-! ### What a fetch cycle makes of two Set Features (R436) -/

def invalidField : Nat := status 0 0x02 true
def invalidNs : Nat := status 0 0x0B true

/-- The features served. -/
def featIds : List Nat := [0x01, 0x02, 0x04, 0x05, 0x07, 0x08, 0x09, 0x0A, 0x0B]

/-- The status of a Set Features (R434, R435). -/
def Dev.setRefusal (d : Dev) (x : Port) (e : List Nat) : Nat :=
  let fid := sqeDw e 10 % 256
  let v := sqeDw e 11
  let ns := sqeNs e
  if !featIds.contains fid then invalidField
  else if bit (sqeDw e 10) 31 then status 1 0x0D true
  else match fid with
    | 0x02 => if 1 < v % 32 ∨ bits v 5 3 ≠ 0 then invalidField else 0
    | 0x04 => if bits v 16 4 ≠ 0 ∨ 1 < bits v 20 2 then invalidField else 0
    | 0x05 => if ns = 2 ^ 32 - 1 ∨ (d.nsActive x ns).isSome then 0 else invalidNs
    | 0x07 => if x.nqSet then status 0 0x0C true else if 255 < v % 65536 ∨ 255 < v / 65536 then invalidField else 0
    | 0x09 => if 256 < v % 65536 then invalidField else 0
    | _ => 0

/-- The two admin commands that one fetch cycle took, where both succeed and both change the namespace-scoped value of one namespace (R436). -/
def Dev.clash (d : Dev) (a b : Adm) : Option Nat :=
  let set (x : Adm) : Bool := sqeOp x.sqe == 0x09 && sqeDw x.sqe 10 % 256 == 5 && d.setRefusal (d.port x.port) x.sqe == 0
  let all := 2 ^ 32 - 1
  let m := sqeNs a.sqe
  let n := sqeNs b.sqe
  if set a && set b && (m == n || m == all || n == all) then some (if m = all then n else m) else none

/-- Fabric cycles to the start of the next fetch cycle: one every 8 (R430). -/
def Dev.toFetch (d : Dev) : Nat := (8 - d.now % 8) % 8

/-- A fetch cycle (R430, R431, R436). -/
def Dev.fetchCycle (d : Dev) (e0 e1 : List Nat) : Dev :=
  let was := d.hif.adm.length
  let d := (d.fetchPort 0 e0)
  let d := if d.portExists 1 then d.fetchPort 1 e1 else d
  match d.hif.adm.drop was with
  | [a, b] => match d.clash a b with
    | some n => ((d.count .HIF_DPCNT_COUNT).stick .HIF_STAT_DPCONF).event 0x303 n 5 a.fseq b.fseq
    | none => d
  | _ => d

/-! ### Transfers that microcode asks for (R459) -/

/-- The HIF request at table-SRAM offset `o`. -/
def Dev.hifReq (d : Dev) (o : Nat) : HifReq :=
  let w (k : Nat) : Nat := d.ld32 (tableSram + o + 4 * k)
  { op := bits (w 0) 28 4, status := bits (w 0) 1 15, dw0 := w 1, dw1 := w 2, first := bits (w 3) 16 16,
    count := bits (w 3) 0 16, buf := w 4 + bits (w 5) 0 8 * 2 ^ 32, rtlba := w 6 + bits (w 7) 0 16 * 2 ^ 32,
    idx := bits (w 7) 16 16 }

/-- The command a record belongs to. -/
def Dev.cmdAt (d : Dev) (i : Nat) : Option Cmd := d.hif.cmds.find? fun c => c.idx == i

/-- The namespace of a command, as its blocks are laid out; a command without one moves plain 4 KiB blocks. -/
def Dev.cmdNs (d : Dev) (c : Cmd) : Option Ns :=
  if namesBlocks (sqeOp c.sqe) then d.nsActive (d.port c.port) (sqeNs c.sqe) else none

/-- Block `i` of a transfer, in the buffer: its data and its metadata. -/
def Dev.bufBlock (d : Dev) (n : Option Ns) (buf i : Nat) : List Byte × List Byte :=
  match n with
  | some n => (d.ldBytes (buf + i * n.stride) 4096, d.ldBytes (buf + i * n.stride + 4096) n.meta)
  | none => (d.ldBytes (buf + i * 4096) 4096, [])

/-- Block `i` of a transfer to the host: a Read gets an unwritten block as R444 states, whatever the buffer holds. -/
def Dev.hostBlock (d : Dev) (c : Cmd) (r : HifReq) (i : Nat) : List Byte × List Byte :=
  match d.cmdNs c with
  | some n => if sqeOp c.sqe = opRead ∧ d.unwritten n (sqeLba c.sqe + r.first + i) then n.zeroBlock else d.bufBlock (some n) r.buf i
  | none => d.bufBlock none r.buf i

/-- Bytes between blocks of a transfer, and of one block. -/
def Dev.cmdStride (d : Dev) (c : Cmd) : Nat := ((d.cmdNs c).map Ns.stride).getD 4096
def Dev.cmdUnit (d : Dev) (c : Cmd) : Nat := 4096 + ((d.cmdNs c).map Ns.meta).getD 0

/-- The blocks of a transfer lie in buffer memory that exists (R37). -/
def Dev.bufferHere (d : Dev) (c : Cmd) (buf count : Nat) : Bool :=
  (List.range count).all fun i => d.rangeExists (buf + i * d.cmdStride c) (d.cmdUnit c)

/-- Move blocks to the host, checking protection information as they leave (R442); the first check that fails is kept. -/
def Dev.toHost (d : Dev) (c : Cmd) (r : HifReq) : Dev :=
  let n := d.cmdNs c
  let bs := (List.range (min 256 r.count)).map fun i => d.hostBlock c r i
  let chk (i : Nat) (b : List Byte × List Byte) : Nat := match n with
    | some n => n.piFails (sqePrchk c.sqe) (sqeApp c.sqe) (sqeMask c.sqe) (n.refOf c.sqe (r.first + i)) b.1 b.2
    | none => 0
  let (bad, at') := ((bs.zipIdx.map fun e => (chk e.2 e.1, r.first + e.2)).find? fun k => k.1 != 0).getD (0, 0)
  let md := bs.map fun b => match n with | some n => n.blockOut c.sqe b.2 | none => []
  let d := d.setCmd { c with moving := c.moving + 1, piErr := if c.piErr = 0 then bad else c.piErr,
                               piAt := if c.piErr = 0 then at' else c.piAt }
  d.emit (.hostBlocks c.port c.fseq r.first (bs.map Prod.fst) md)

/-- A Read or Verify covers an unwritten block while DULBE applies to it (R444). -/
def Dev.dulbeMet (d : Dev) (c : Cmd) : Bool :=
  let e := c.sqe
  (sqeOp e == opRead || sqeOp e == opVerify) && bit (d.nsFeat (sqeNs e) 5 c.fseq) 16 &&
    ((d.cmdNs c).map fun n => (List.range (sqeBlocks e)).any fun k => d.unwritten n (sqeLba e + k)).getD false

/-- The status a command ends with: what stands for the success that microcode reports (R310, R433, R444, R454, R463, R528, R562). -/
def Dev.endStatus (d : Dev) (c : Cmd) (st : Nat) : Nat :=
  if st ≠ 0 then st
  else if (d.writeLog c.fseq).noSpare then status 2 0x80 true
  else if !c.unread.isEmpty then status 2 0x81 (c.unread.all Prod.snd)
  else if (d.writeLog c.fseq).lost then status 0 0x04 false
  else if c.piErr ≠ 0 then status 2 (0x81 + c.piErr) true
  else if d.dulbeMet c then status 2 0x87 true
  else ((d.nsActive (d.port c.port) (sqeNs c.sqe)).bind fun n => d.zoneRefusal n c.fseq c.sqe).getD 0

/-- Microcode completes a command. -/
def Dev.completeReq (d : Dev) (r : HifReq) : Dev :=
  match d.cmdAt r.idx with
  | some c => d.complete c (d.endStatus c r.status) r.dw0 r.dw1
  | none => d

/-- A block of a transfer to the host is taken from the buffer: every one but an unwritten block of a Read (R444). -/
def Dev.fromBuffer (d : Dev) (c : Cmd) (r : HifReq) (i : Nat) : Bool :=
  ((d.cmdNs c).map fun n => sqeOp c.sqe != opRead || !d.unwritten n (sqeLba c.sqe + r.first + i)).getD true

/-- Which of the blocks `l` of a transfer to the host cannot be read, once what the reads find has been handled (R37, R526-R528). -/
def Dev.readBlocks (d : Dev) (c : Cmd) (r : HifReq) : List Nat → Dev × List Nat
  | [] => (d, [])
  | i :: l =>
    let x := if d.fromBuffer c r i then d.readCheck reqHif (r.buf + i * d.cmdStride c) (d.cmdUnit c) else (d, true)
    let y := x.1.readBlocks c r l
    (y.1, if x.2 then y.2 else i :: y.2)

/-- The sector of a block that a Read could not take from the buffer is to be read again from the media, from recovery level 1 on
(R184, R528). -/
def Dev.readAgain (d : Dev) (c : Cmd) (k : Nat) : Dev :=
  match (d.cmdNs c).bind fun n => d.blockPlace n (sqeLba c.sqe + k) with
  | none => d
  | some (s, t, i) =>
    match d.zoneOf s t with
    | none => d
    | some z =>
      let (u, n) := d.heldIn s t (slotOfData z.ds z.ps i)
      let psa := mkPsa s u n (d.wsGet (ledgerIndex s t)).gen
      let x : Recov := { owner := c.owner, fseq := c.fseq, psa := psa, level := 0, checked := false, heads := [] }
      if (d.recovOf c.fseq psa).isSome then d else { d with sch := { d.sch with recov := d.sch.recov ++ [x] } }

/-- Blocks move to the host, and with op 1 the command completes. -/
def Dev.sendBlocks (d : Dev) (c : Cmd) (r : HifReq) : Dev :=
  let d := d.toHost c r
  if r.op = 1 then d.completeReq r else d

/-- A transfer to the host; where blocks of it cannot be read it ends in a bus error, their sectors are read again, and the transfer
waits to be repeated (R37, R528). -/
def Dev.transfer (d : Dev) (c : Cmd) (r : HifReq) : Dev :=
  let (d, bad) := d.readBlocks c r (List.range (min 256 r.count))
  if bad.isEmpty then d.sendBlocks c r
  else
    let d := (bad.foldl (fun d i => d.readAgain c (r.first + i)) d).emit (.busError reqHif)
    { d with hif := { d.hif with again := d.hif.again ++ [r] } }

/-- The transfers that waited and can be read now are repeated (R528). -/
def Dev.transferAgain (d : Dev) : Dev :=
  (d.hif.again.filterMap fun r => (d.cmdAt r.idx).map fun c => (c, r)).foldl (fun d x =>
    if (d.readBlocks x.1 x.2 (List.range (min 256 x.2.count))).2.isEmpty then
      let d := { d with hif := { d.hif with again := d.hif.again.erase x.2 } }
      match d.cmdAt x.2.idx with
      | some c => d.sendBlocks c x.2
      | none => d
    else d) d

/-- A HIF request acts (POST code 0). -/
def Dev.hifPost (d : Dev) (o : Nat) : Dev :=
  let r := d.hifReq o
  match d.cmdAt r.idx with
  | none => d
  | some c =>
    match r.op with
    | 0 => d.completeReq r
    | 1 => d.transfer c r
    | 2 => (d.setCmd { c with ask := some (r.first, min 256 r.count, r.buf, r.rtlba) }).emit
        (.hostAsk c.port c.fseq r.first (min 256 r.count))
    | 3 => d.transfer c r
    | _ => d

/-- The data asked of the host arrives and is checked, remapped and stored (R442, R443); where the buffer does not exist it is dropped
with a bus error (R37). -/
def Dev.dataIn (d : Dev) (fseq : Nat) (data md : List (List Byte)) : Dev :=
  match d.cmdOf fseq with
  | none => d
  | some c =>
    match c.ask with
    | none => d
    | some (first, count, buf, rtlba) =>
      if !d.bufferHere c buf count then d.emit (.busError reqHif) else
      let n := d.cmdNs c
      let c := { c with got := c.got ++ (List.range count).map (first + ·) }
      let one (i : Nat) : List Byte × List Byte :=
        let fill (l : List Byte) (k : Nat) : List Byte := (l ++ List.replicate k 0).take k
        (fill (data.getD i []) 4096, fill (md.getD i []) ((n.map Ns.meta).getD 0))
      let step (e : Dev × Nat × Nat) (i : Nat) : Dev × Nat × Nat :=
        let b := one i
        match n with
        | none => (e.1.mputBytes (buf + i * 4096) b.1, e.2)
        | some n =>
          let k := if sqePract c.sqe then 0
            else n.piFails (sqePrchk c.sqe) (sqeApp c.sqe) (sqeMask c.sqe) (n.refOf c.sqe (first + i)) b.1 b.2
          let out := b.1 ++ n.blockIn c.sqe (first + i) rtlba b.1 b.2
          (e.1.mputBytes (buf + i * n.stride) out, if e.2.1 = 0 then (k, first + i) else e.2)
      let (d, bad, at') := (List.range count).foldl step (d, 0, 0)
      d.offerData (if bad = 0 then c else { c with piAt := at' }) bad

/-- The last byte of a transfer has been accepted by the link (R26, R459). -/
def Dev.transferDone (d : Dev) (fseq : Nat) : Dev :=
  match d.cmdOf fseq with
  | some c => if c.moving = 0 then d else (d.setCmd { c with moving := c.moving - 1 }).retryIo c.port
  | none => d

/-! ### Abort (R455, R456) -/

/-- A command in flight is stopped and completes with a status. -/
def Dev.stopCmd (d : Dev) (c : Cmd) (st : Nat) : Dev :=
  let mine (j : Job) : Bool := j.fseq == c.fseq && (d.ovlOf j.fseq).isSome
  let d := d.returnJobs mine
  let d := (List.range 32).foldl (fun d s => if ((d.seq s).job.map mine).getD false then d.abandon s 1 else d) d
  match d.cmdOf c.fseq with
  | some c => d.complete c st 0 0
  | none => d

/-- A command in flight is to be aborted: its engine is told, and it is stopped unless a gate of its writes has opened. The
flag says whether it runs to its end. -/
def Dev.abortCmd (d : Dev) (c : Cmd) (by' st : Nat) : Dev × Bool :=
  let tell := c.phase == .offered
  let d := if tell then d.ceTrigger c.owner tAbort 0 (c.cid + (c.sq - 1) * 65536 + c.port * 2 ^ 24) c.fseq by' 0 else d
  if c.ending.isSome || (c.begun && writesMedia (sqeOp c.sqe)) then (d, true) else (d.stopCmd c st, false)

/-! ### Resets (R423, R457, R461) -/

/-- The BAR2 window of a port locks; a window that was unlocked is recorded with a cause (R69, R632). -/
def Dev.lockBar2 (d : Dev) (p cause : Nat) : Dev :=
  if (Tab.look d.bus.unlock p).isNone then d
  else ({ d with bus := { d.bus with unlock := Tab.del d.bus.unlock p } }).event 0x301 p cause 0 0

/-- The duration of an unlocked window, in seconds, has passed (R69, R461). -/
def Dev.windowExpiry (d : Dev) (p : Nat) : Dev :=
  if d.waited (.bar2 p) (Tab.getD d.bus.unlock p 0 * 1250000000) then d.lockBar2 p 0 else d

/-- A controller reset (R457): its commands are withdrawn, writes go no further than the units they have started, its admin
entries are void, and its queues and features are as after reset; configuration space stays. -/
def Dev.controllerReset (d : Dev) (p cause : Nat) : Dev :=
  let x := d.port p
  let fs := (d.hif.cmds.filter fun c => c.port == p).map Cmd.fseq
  let mine (j : Job) : Bool := fs.contains j.fseq && (d.ovlOf j.fseq).isSome
  let d := (d.returnJobs mine).stopAtUnits mine
  let ovl := d.sch.ovl.map fun o => if fs.contains o.fseq then { o with withdrawn := true } else o
  let d := { d with sch := { d.sch with ovl := ovl } }
  let hif := { d.hif with cmds := d.hif.cmds.filter fun c => c.port != p, adm := d.hif.adm.filter fun a => a.port != p }
  let d := ({ d with hif := hif }).setPort p { cfg := x.cfg, msix := x.msix }
  let d := ((d.wr .HIF_NVMSTAT_CFS p 0).wr .HIF_NVMSTAT_SHST p 0).lockBar2 p cause
  if x.feat 2 % 32 = 1 then d.wakeUp else d

/-- The Data Link Layer of a port goes inactive (R423). -/
def Dev.linkDown (d : Dev) (p : Nat) : Dev :=
  let d := d.wr .HIF_LNKSTAT_UP p 0
  (d.wr .HIF_LNKSTAT_SPEED p 0).wr .HIF_LNKSTAT_WIDTH p 0

/-- Configuration space and the MSI-X table return to their reset values. -/
def Dev.configReset (d : Dev) (p : Nat) : Dev := d.setPort p { d.port p with cfg := [], msix := [], pba := [] }

/-- Enable a controller (R425, R426): the admin queues begin empty. -/
def Dev.controllerEnable (d : Dev) (p cc aqa asq acq : Nat) : Dev :=
  let x := d.port p
  if !d.portExists p || bit x.cc 0 || !bit cc 0 then d
  else
    let sq : Sq := { base := asq / 4096 * 4096, size := bits aqa 0 12 + 1, head := 0, tail := 0, cq := 0, prio := 0, inflight := 0,
                     stop := false }
    let cq : Cq := { base := acq / 4096 * 4096, size := bits aqa 16 12 + 1, head := 0, tail := 0, vec := 0, agg := 0,
                     phase := true, ien := true }
    let x := { x with cc := cc, aqa := aqa, asq := asq, acq := acq, sqs := [(0, sq)], cqs := [(0, cq)] }
    let d := d.setPort p { x with warn := d.critical x }
    if goodCc cc then d else d.wr .HIF_NVMSTAT_CFS p 1

/-! ### Shutdown (R428) -/

/-- Normal shutdown: fetching stops, and the saves follow once nothing is in flight. -/
def Dev.normalShutdown (d : Dev) (p : Nat) : Dev :=
  let x := d.port p
  if !d.portExists p || !bit x.cc 0 || x.quiet then d
  else (d.setPort p { x with quiet := true, cc := x.cc / 2 ^ 16 * 2 ^ 16 + x.cc % 2 ^ 14 + 2 ^ 14 }).wr .HIF_NVMSTAT_SHST p 1

/-- The saves begin: HLT's (R608), and EVT's with its SHUTDOWN record (R642). -/
def Dev.saveState (d : Dev) : Dev :=
  let d := (d.hltSave.wr .EVT_STAT_SAVED 0 0).event 0xF01 0 (d.word .EVT_STAT) 0 0
  { d with evt := { d.evt with saving := true } }

/-- The progress of a port's normal shutdown. -/
def Dev.shutdownStep (d : Dev) (p : Nat) : Dev :=
  let x := d.port p
  if d.rd .HIF_NVMSTAT_SHST p != 1 then d
  else if x.saving then
    if d.on .HLT_STAT_SAVED && d.on .EVT_STAT_SAVED then (d.setPort p { x with saving := false }).wr .HIF_NVMSTAT_SHST p 2 else d
  else if x.quiet && !(d.hif.cmds.any fun c => c.port == p) then d.saveState.setPort p { d.port p with saving := true }
  else d

/-- Abrupt shutdown: as a controller reset, and SHST (R428). -/
def Dev.abruptShutdown (d : Dev) (p : Nat) : Dev :=
  if !d.portExists p || !bit (d.port p).cc 0 then d else (d.controllerReset p 2).wr .HIF_NVMSTAT_SHST p 2

/-- Every existing controller has completed shutdown or is in power state 1 (R428, R437). -/
def Dev.hostRests (d : Dev) : Bool := d.portList.all fun p => d.rd .HIF_NVMSTAT_SHST p == 2 || (d.port p).feat 2 % 32 == 1

/-! ### What follows by itself -/

/-- Held commands find an engine (R413), warnings are told (R439), and shutdowns go on (R428). -/
def Dev.hifUpdate (d : Dev) : Dev :=
  let held := if d.anyCe then d.hif.cmds.filter fun c => c.phase == .held && c.ending.isNone else []
  let d := (held.foldl Dev.offer d).transferAgain
  d.portList.foldl (fun d p => (d.warnings p).shutdownStep p) d

end Sys2Proof.Machine
end

