-- ==== Sys2Proof/Machine/HostAdmin.lean ====
section
/-! DEFINITION. Admin commands (R432-R439, R455, R456, R460-R462): the admin ring, queue creation and deletion, Abort, features,
Identify, and the log pages and ledger records that firmware returns. -/

namespace Sys2Proof.Machine

/-! ### The admin ring (R460) -/

/-- Address of ring entry `i`. -/
def Dev.admAddr (d : Dev) (i : Nat) : Nat := tableSram + d.rd .HIF_ADMRBASE_BASE * 131072 + 128 * i

/-- The oldest admin command that has no ring entry yet. -/
def Dev.admFront (d : Dev) : Option Adm := d.hif.adm.find? fun a => a.ring.isNone

/-- Write a command into the next ring entry. -/
def Dev.ringAdm (d : Dev) (a : Adm) : Dev :=
  let i := d.rd .HIF_ADMRPTR_TAIL
  let ad := d.admAddr i
  let d := d.putBytes ad (dwBytes ((List.range 16).map (sqeDw a.sqe)) ++ List.replicate 64 0)
  let d := (d.st32 (ad + 64) a.fseq).st32 (ad + 68) a.port
  let d := d.wr .HIF_ADMRPTR_TAIL 0 (i + 1)
  { d with hif := { d.hif with adm := d.hif.adm.map fun b => if b.fseq == a.fseq then { b with ring := some i } else b } }

/-- Completion dwords 0, 1 and 3 of a ring entry; HIF's own commands are marked done by them (log 22). -/
def Dev.markAdm (d : Dev) (i st dw0 dw1 : Nat) : Dev :=
  ((d.st32 (d.admAddr i + 80) dw0).st32 (d.admAddr i + 84) dw1).st32 (d.admAddr i + 88) (st * 2 ^ 17)

/-- HIF ends an admin command of its own: its entry is marked and its completion posted. -/
def Dev.endOwn (d : Dev) (a : Adm) (st dw0 dw1 : Nat) : Dev :=
  let d := match (d.hif.adm.find? fun b => b.fseq == a.fseq).bind Adm.ring with
    | some i => d.markAdm i st dw0 dw1
    | none => d
  d.endAdmin a st dw0 dw1

/-- Opcodes of R432. -/
def adminOps : List Nat := [0x00, 0x01, 0x02, 0x04, 0x05, 0x06, 0x08, 0x09, 0x0A, 0x0C, 0x10, 0x11, 0xC2, 0xC4, 0xC6]

/-- The next admin command, where its opcode is `op`, enters the ring and is executed. -/
def Dev.adminRow (d : Dev) (op : Nat) (f : Dev → Adm → Dev) : Dev :=
  match d.admFront with
  | some a => if sqeOp a.sqe = op then f (d.ringAdm a) a else d
  | none => d

/-- Commands that no row names end with Invalid Command Opcode as they come to the front (R432). -/
def Dev.dropUnknown (d : Dev) : Nat → Dev
  | 0 => d
  | n + 1 => match d.admFront with
    | some a => if adminOps.contains (sqeOp a.sqe) then d else ((d.ringAdm a).endOwn a (status 0 0x01 true) 0 0).dropUnknown n
    | none => d

/-! ### Queues (R425, R432, R456) -/

/-- The highest queue identifier a controller has: 256, or what Number of Queues has allotted. -/
def Port.maxSq (x : Port) : Nat := if x.nqSet then x.feat 7 % 65536 + 1 else 256
def Port.maxCq (x : Port) : Nat := if x.nqSet then x.feat 7 / 65536 + 1 else 256

/-- An I/O queue that exists. -/
def isIoQueue {α : Type} (t : Tab α) (q : Nat) : Bool := q != 0 && (Tab.look t q).isSome

/-- Create I/O Completion Queue. -/
def Dev.createCq (d : Dev) (a : Adm) : Dev :=
  let x := d.port a.port
  let q := sqeDw a.sqe 10 % 65536
  let n := sqeDw a.sqe 10 / 65536
  let w := sqeDw a.sqe 11
  let st := if q = 0 ∨ x.maxCq < q ∨ isIoQueue x.cqs q then status 1 0x01 true
    else if n = 0 ∨ 1023 < n then status 1 0x02 true
    else if !bit w 0 then invalidField
    else if sqeDw a.sqe 6 % 4096 ≠ 0 then status 0 0x13 true
    else if 256 < w / 65536 then status 1 0x08 true
    else 0
  let c : Cq := { base := sqeDw a.sqe 6 + sqeDw a.sqe 7 * 2 ^ 32, size := n + 1, head := 0, tail := 0, vec := w / 65536, agg := 0,
                  phase := true, ien := bit w 1 }
  (if st = 0 then d.setPort a.port { x with cqs := Tab.put x.cqs q c } else d).endOwn a st 0 0

/-- Create I/O Submission Queue. -/
def Dev.createSq (d : Dev) (a : Adm) : Dev :=
  let x := d.port a.port
  let q := sqeDw a.sqe 10 % 65536
  let n := sqeDw a.sqe 10 / 65536
  let w := sqeDw a.sqe 11
  let st := if q = 0 ∨ x.maxSq < q ∨ isIoQueue x.sqs q then status 1 0x01 true
    else if n = 0 ∨ 1023 < n then status 1 0x02 true
    else if !bit w 0 then invalidField
    else if sqeDw a.sqe 6 % 4096 ≠ 0 then status 0 0x13 true
    else if !isIoQueue x.cqs (w / 65536) then status 1 0x00 true
    else 0
  let s : Sq := { base := sqeDw a.sqe 6 + sqeDw a.sqe 7 * 2 ^ 32, size := n + 1, head := 0, tail := 0, cq := w / 65536,
                  prio := bits w 1 2, inflight := 0, stop := false }
  (if st = 0 then d.setPort a.port { x with sqs := Tab.put x.sqs q s } else d).endOwn a st 0 0

/-- Delete I/O Completion Queue: refused while a submission queue maps to it. -/
def Dev.deleteCq (d : Dev) (a : Adm) : Dev :=
  let x := d.port a.port
  let q := sqeDw a.sqe 10 % 65536
  let st := if !isIoQueue x.cqs q then status 1 0x01 true
    else if x.sqs.any fun s => s.2.cq == q then status 1 0x0C true else 0
  (if st = 0 then d.setPort a.port { x with cqs := Tab.del x.cqs q } else d).endOwn a st 0 0

/-- Delete I/O Submission Queue: the queue stops, its commands in flight are treated as by an Abort with status 08h, and the
deletion completes after them (R456). -/
def Dev.deleteSq (d : Dev) (a : Adm) : Dev :=
  let x := d.port a.port
  let q := sqeDw a.sqe 10 % 65536
  match if q = 0 then none else Tab.look x.sqs q with
  | none => d.endOwn a (status 1 0x01 true) 0 0
  | some s =>
    let x := { x with sqs := Tab.put x.sqs q { s with stop := true }, dels := x.dels ++ [(q, a.fseq)] }
    let d := match (d.hif.adm.find? fun b => b.fseq == a.fseq).bind Adm.ring with
      | some i => d.markAdm i 0 0 0
      | none => d
    let l := d.hif.cmds.filter fun c => c.port == a.port && c.sq == q
    let d := d.setPort a.port x
    (l.foldl (fun d c => (d.abortCmd c a.fseq (status 0 0x08 false)).1) d).deletions a.port

/-! ### Abort (R455) -/

/-- Abort of an admin command: an Asynchronous Event Request ends with status 07h; firmware's commands run on. -/
def Dev.abortAdmin (d : Dev) (a : Adm) (cid : Nat) : Dev :=
  let x := d.port a.port
  match d.hif.adm.find? fun b => b.port == a.port && b.cid == cid && b.fseq != a.fseq && b.ring.isSome with
  | some b =>
    if x.aers.contains b.fseq then
      let d := d.setPort a.port { x with aers := x.aers.filter fun f => f != b.fseq }
      (((d.endAdmin b (status 0 0x07 false) 0 0).count .HIF_ABCNT_ABORTED a.port).endOwn a 0 0 0)
    else (d.endOwn a 0 1 0).count .HIF_ABCNT_NOTABORTED a.port
  | none => (d.setPort a.port { x with marks := x.marks ++ [(0, cid)] }).endOwn a 0 0 0

/-- Abort. -/
def Dev.abort (d : Dev) (a : Adm) : Dev :=
  let x := d.port a.port
  let q := sqeDw a.sqe 10 % 65536
  let cid := sqeDw a.sqe 10 / 65536
  if (Tab.look x.sqs q).isNone then d.endOwn a invalidField 0 0
  else if q = 0 then d.abortAdmin a cid
  else match d.hif.cmds.find? fun c => c.port == a.port && c.sq == q && c.cid == cid with
    | some c =>
      let (d, runs) := d.abortCmd c a.fseq (status 0 0x07 false)
      if runs then (d.endOwn a 0 1 0).count .HIF_ABCNT_NOTABORTED a.port
      else (d.endOwn a 0 0 0).count .HIF_ABCNT_ABORTED a.port
    | none => (d.setPort a.port { x with marks := x.marks ++ [(q, cid)] }).endOwn a 0 0 0

/-- Asynchronous Event Request: four may wait. -/
def Dev.eventRequest (d : Dev) (a : Adm) : Dev :=
  let x := d.port a.port
  if 4 ≤ x.aers.length then d.endOwn a (status 1 0x05 true) 0 0
  else match x.aes with
    | e :: rest =>
      (d.setPort a.port { x with aes := rest, masked := x.masked ++ [e.1 % 8] }).endOwn a 0 e.1 e.2
    | [] => d.setPort a.port { x with aers := x.aers ++ [a.fseq] }

/-! ### Features (R434-R437) -/

/-- The key a controller-scoped value is kept under: temperature thresholds by kind, vector configurations by vector. -/
def featKey (fid v : Nat) : Nat :=
  if fid = 4 then (if bits v 20 2 = 1 then 0x104 else 4) else if fid = 9 then 256 * (v % 65536) + 9 else fid

/-- The bits of a value that are kept. -/
def featMask (fid v : Nat) : Nat :=
  match fid with
  | 0x01 => v / 256 * 256 + v % 8
  | 0x04 => v % 65536
  | 0x05 => v % 2 ^ 17
  | 0x07 => v
  | 0x08 => v % 65536
  | 0x09 => v % 2 ^ 17
  | 0x0A => v % 2
  | 0x0B => v % 256 + bnat (bit v 9) * 512 + bnat (bit v 27) * 2 ^ 27
  | _ => v % 256

/-- Set Features. -/
def Dev.setFeatures (d : Dev) (a : Adm) : Dev :=
  let x := d.port a.port
  let fid := sqeDw a.sqe 10 % 256
  let v := sqeDw a.sqe 11
  let st := d.setRefusal x a.sqe
  if st ≠ 0 then d.endOwn a st 0 0
  else if fid = 0x05 then
    let e : NsFeat := { ns := sqeNs a.sqe, fid := fid, fseq := a.fseq, val := featMask fid v }
    ({ d with hif := { d.hif with feats := d.hif.feats ++ [e] } }).endOwn a 0 0 0
  else
    let x := { x with feats := Tab.put x.feats (featKey fid v) (featMask fid v), nqSet := x.nqSet || fid == 0x07 }
    let wakes := fid == 0x02 && v % 32 == 0 && (d.port a.port).feat 2 % 32 == 1
    let d := (d.setPort a.port x).endOwn a 0 (if fid = 0x07 then v else 0) 0
    if wakes then d.wakeUp else d

/-- The present value of a feature. -/
def Dev.featNow (d : Dev) (x : Port) (e : List Nat) (fseq : Nat) : Nat :=
  let fid := sqeDw e 10 % 256
  let v := sqeDw e 11
  if fid = 0x05 then d.nsFeat (sqeNs e) fid fseq
  else if fid = 0x07 then (if x.nqSet then x.feat 7 else 255 + 255 * 65536)
  else if fid = 0x09 then bnat (bit (x.feat (featKey 9 v)) 16) * 65536 + v % 65536
  else if fid = 0x04 then x.feat (featKey 4 v)
  else x.feat fid

/-- Its value after a controller reset. -/
def featDefault (e : List Nat) : Nat :=
  match sqeDw e 10 % 256 with
  | 0x07 => 255 + 255 * 65536
  | 0x09 => sqeDw e 11 % 65536
  | 0x04 => if bits (sqeDw e 11) 20 2 = 1 then 0 else 0xFFFF
  | _ => 0

/-- Get Features: the current value, the default, or the capabilities (changeable, never saveable, bit 1 for namespace scope). -/
def Dev.getFeatures (d : Dev) (a : Adm) : Dev :=
  let x := d.port a.port
  let fid := sqeDw a.sqe 10 % 256
  let sel := bits (sqeDw a.sqe 10) 8 3
  let v := sqeDw a.sqe 11
  if !featIds.contains fid || !(sel == 0 || sel == 1 || sel == 3) then d.endOwn a invalidField 0 0
  else if fid = 0x05 ∧ (d.nsActive x (sqeNs a.sqe)).isNone then d.endOwn a invalidNs 0 0
  else if fid = 0x04 ∧ (bits v 16 4 ≠ 0 ∨ 1 < bits v 20 2) ∨ fid = 0x09 ∧ 256 < v % 65536 then d.endOwn a invalidField 0 0
  else
    let out := if sel = 0 then d.featNow x a.sqe a.fseq else if sel = 1 then featDefault a.sqe
      else 4 + (if fid = 0x05 then 2 else 0)
    d.endOwn a 0 out 0

/-! ### Identify (R424, R432, R437, R440, R441, R447) -/

/-- Fields of Identify Controller, as (offset, bytes, value), at the offsets of NVMe Base 2.0 (PRESUMED, log 23); the power state
descriptors are the image's (R437, log 98). -/
def Dev.identController (d : Dev) (p : Nat) : List (Nat × Nat × Nat) :=
  let id (k : Nat) : Nat := d.cfg.ident.getD k 0
  let dual := d.on .HIF_PORTCFG_MODE
  [(0, 2, id 0 % 65536), (2, 2, id 1 % 65536), (4, 20, d.cfg.serial), (76, 1, if dual then 3 else 0), (77, 1, 8), (78, 2, p + 1),
   (80, 4, 0x20000), (84, 4, 30000000), (88, 4, 20000000), (92, 4, 2 ^ 9 + 2 ^ 27), (128, 2, 10), (256, 2, 4), (258, 1, 3),
   (259, 1, 3), (260, 1, 4), (261, 1, 6), (262, 1, 63), (263, 1, 1), (319, 1, 1), (512, 1, 0x66), (513, 1, 0x44), (516, 4, 16),
   (520, 2, 0x88), (526, 2, 63), (528, 2, 63), (2048, 32, (Config.powerState 0).toNat), (2080, 32, (Config.powerState 1).toNat)]

/-- Blocks of a namespace in use: below the write pointers of a zoned one; all of an NVM one (log 24). -/
def Dev.nuse (d : Dev) (n : Ns) : Nat :=
  if n.csi = 2 then ((List.range n.zones).map fun k =>
    let z := d.hzone (n.firstz + k)
    if z.state = zFull then z.zcap else z.wp).sum
  else n.nsze

/-- Fields of Identify Namespace. -/
def Dev.identNs (d : Dev) (n : Ns) : List (Nat × Nat × Nat) :=
  let lbaf (k : Nat) : Nat × Nat × Nat := (128 + 4 * k, 4, 12 * 65536 + metaSize k)
  [(0, 8, n.nsze), (8, 8, n.nsze), (16, 8, d.nuse n), (25, 1, 3), (26, 1, n.lbaf + bnat n.ext * 16), (27, 1, 3), (28, 1, 0x1F),
   (29, 1, n.pit + bnat n.piFirst * 8), (30, 1, 1), (33, 1, 1), (34, 2, 63), (36, 2, 63), (40, 2, 63), (44, 2, 63), lbaf 0, lbaf 1,
   lbaf 2, lbaf 3]

/-- Fields of the zoned command set's namespace data: ZOC, OZCS, MAR, MOR and the zone size of each format. -/
def identZoned (n : Ns) : List (Nat × Nat × Nat) :=
  [(0, 2, 1), (2, 2, 1), (4, 4, 4095), (8, 4, 4095)] ++ (List.range 4).map fun k => (2816 + 16 * k, 8, n.zsze)

/-- The protection information formats of the NVM command set's namespace data: formats 2 and 3 have a 64b guard. -/
def identNvm : List (Nat × Nat × Nat) := [(20, 4, 2 * 128), (24, 4, 2 * 128)]

/-- A list of namespace identifiers above `from'` as data. -/
def Dev.nsList (d : Dev) (x : Port) (from' : Nat) (f : Ns → Bool) : List (Nat × Nat × Nat) :=
  let l := (List.range 17).filter fun n => decide (from' < n) && ((d.nsActive x n).map f).getD false
  l.zipIdx.map fun e => (4 * e.2, 4, e.1)

/-- What Identify answers: a status, or the fields of its 4 KiB. -/
def Dev.identData (d : Dev) (a : Adm) : Nat × List (Nat × Nat × Nat) :=
  let x := d.port a.port
  let ns := sqeNs a.sqe
  let csi := sqeDw a.sqe 11 / 2 ^ 24
  let n := d.nsActive x ns
  let known := decide (1 ≤ ns) && decide (ns ≤ 16)
  match sqeDw a.sqe 10 % 256 with
  | 0x00 => if !known then (invalidNs, []) else (0, (n.map d.identNs).getD [])
  | 0x01 => (0, d.identController a.port)
  | 0x02 => if 2 ^ 32 - 2 ≤ ns then (invalidNs, []) else (0, d.nsList x ns fun _ => true)
  | 0x03 => match n with
    | some n => (0, [(0, 1, 4), (1, 1, 1), (4, 1, n.csi)])
    | none => (invalidNs, [])
  | 0x05 => if !known then (invalidNs, [])
    else if csi = 2 then (0, (n.map fun n => if n.csi = 2 then identZoned n else []).getD [])
    else if csi = 0 then (0, if n.isSome then identNvm else []) else (invalidField, [])
  | 0x06 => if csi = 2 then (0, [(0, 1, 6)]) else if csi = 0 then (0, []) else (invalidField, [])
  | 0x07 => if 2 ^ 32 - 2 ≤ ns then (invalidNs, []) else if csi = 0 ∨ csi = 2 then (0, d.nsList x ns fun n => n.csi == csi)
    else (invalidField, [])
  | 0x1C => (0, [(0, 8, 5)])
  | _ => (invalidField, [])

/-- Identify. -/
def Dev.identify (d : Dev) (a : Adm) : Dev :=
  let (st, fs) := d.identData a
  (if st = 0 then d.emit (.hostData a.port a.fseq 4096 fs) else d).endOwn a st 0 0

/-! ### Firmware's commands (R438, R439, R460, R462) -/

/-- Firmware fills in a ring entry: completion dwords, the buffer base and the byte count. -/
def Dev.firmwareEntry (d : Dev) (i st base count : Nat) : Dev :=
  let a := d.admAddr i
  (((d.markAdm i st 0 0).st32 (a + 96) (base % 2 ^ 32)).st32 (a + 100) (base / 2 ^ 32)).st32 (a + 104) count

/-- Spare slots that are free over the accepted zones. -/
def Dev.sparesLeft (d : Dev) : Nat := (d.tpe.zones.map fun i => (d.spareCount (d.zoneEnt i)).2).sum

/-- The actuators that are lost: declared and OUT. -/
def Dev.lostActs (d : Dev) : Nat := maskOf ((List.range 4).map fun a => d.on .SRV_CTL_ENABLE a && d.rd .SRV_STAT_SVC a == unitOut)

/-- Log page C0h (R439). -/
def Dev.logReplace (d : Dev) : List Byte :=
  let le (v n : Nat) : List Byte := (leBytes v n).map (BitVec.ofNat 8)
  le (d.rd .HLT_REPL_REPLACE) 1 ++ le (d.rd .HLT_REPL_TRIG) 1 ++ le (d.lostActs + d.usableMask * 16) 2 ++ le 0 4 ++
    le (d.rd .HLT_PROJ_HOURS) 8 ++ le d.sparesLeft 8 ++ List.replicate 488 0

/-- Log page C3h: one bit a zone, set for packed (R438). -/
def Dev.logPacked (d : Dev) (n : Ns) : List Byte :=
  (List.range ((n.zones + 7) / 8)).map fun k =>
    BitVec.ofNat 8 (maskOf ((List.range 8).map fun b => decide (8 * k + b < n.zones) && (d.hzone (n.firstz + 8 * k + b)).packed))

/-- A page with fields (offset, bytes, value) written over it, `n` bytes of it. -/
def overlay (n : Nat) (page : List Byte) (fs : List (Nat × Nat × Nat)) : List Byte :=
  fs.foldl (fun l f => l.take f.1 ++ (leBytes f.2.2 f.2.1).map (BitVec.ofNat 8) ++ l.drop (f.1 + f.2.1))
    ((page ++ List.replicate n 0).take n)

/-- An entry of log page 01h, 64 bytes at the offsets of NVMe Base 2.0 (log 23). -/
def LogErr.bytes (e : LogErr) : List Byte :=
  overlay 64 [] [(0, 8, e.num), (8, 2, e.sq), (10, 2, e.cid), (12, 2, 2 * e.status), (14, 2, 0xFFFF), (16, 8, e.lba), (24, 4, e.ns)]

/-- Log page 01h: the errors kept, newest first (R438). -/
def Dev.logErrors (d : Dev) : List Byte := overlay 4096 (d.hif.log.errs.flatMap LogErr.bytes) []

/-- Log page 02h: the values that R439 and R607 state, over what firmware has of the others. -/
def Dev.logHealth (d : Dev) (x : Port) (page : List Byte) : List Byte :=
  overlay 512 page [(0, 1, d.critical x), (1, 2, d.kelvin), (3, 1, d.rd .HLT_REPL_AVAIL), (4, 1, d.rd .HLT_PLAN_SPARETH),
    (5, 1, d.rd .HLT_REPL_PCTUSED), (144, 16, d.hif.log.pfails), (160, 16, d.hif.log.media), (176, 16, d.hif.log.media)]

/-- Log page 05h: what is listed are the commands of R432 and of R433 for a command set; firmware has their effects. -/
def logEffects (csi : Nat) (page : List Byte) : List Byte :=
  let full := (page ++ List.replicate 4096 0).take 4096
  (List.range 512).flatMap fun k =>
    let known := if k < 256 then adminOps.contains k else opValid csi (k - 256)
    let e := (full.drop (4 * k)).take 4
    if known then (e.head?.map fun b => b ||| 1).toList ++ e.tail else List.replicate 4 0

/-- Log page BFh: the zones of a namespace that have changed, by their start LBA, with how many they are. -/
def Port.logChanged (x : Port) (ns : Nat) : List Byte :=
  let l := (x.changed.filter fun e => e.1 == ns).map Prod.snd
  if 511 < l.length then overlay 4096 [] [(0, 2, 0xFFFF)]
  else overlay 4096 [] ((0, 2, l.length) :: l.zipIdx.map fun e => (8 + 8 * e.2, 8, e.1))

/-- The bytes of a log page: what the device state gives, and in page 02h, 03h and 05h what firmware has beside it (R438, R439). -/
def Dev.logPage (d : Dev) (x : Port) (e : List Nat) (page : List Byte) : List Byte :=
  match sqeDw e 10 % 256 with
  | 0x01 => d.logErrors
  | 0x02 => d.logHealth x page
  | 0x05 => logEffects (sqeDw e 14 / 2 ^ 24) page
  | 0xBF => x.logChanged (sqeNs e)
  | 0xC0 => d.logReplace
  | 0xC3 => ((d.nsActive x (sqeNs e)).map d.logPacked).getD page
  | _ => page

/-- Log pages served (R438). -/
def logPages : List Nat := [0x01, 0x02, 0x03, 0x05, 0xBF, 0xC0, 0xC3]

/-- Get Log Page: firmware puts the data it names at `base`, from the log page offset on. Unless the command retains the event, the
read clears its type, and the changed zones of the namespace. -/
def Dev.getLogPage (d : Dev) (a : Adm) (i base : Nat) (page : List Byte) : Dev :=
  let e := a.sqe
  let lid := sqeDw e 10 % 256
  let count := 4 * (sqeDw e 10 / 65536 + sqeDw e 11 % 65536 * 65536 + 1)
  let ofs := sqeDw e 12 + sqeDw e 13 * 2 ^ 32
  let n := d.nsActive (d.port a.port) (sqeNs e)
  let scope := (lid = 0xBF ∨ lid = 0xC3) ∧ ((n.map Ns.csi).getD 0 ≠ 2)
  if !logPages.contains lid then d.firmwareEntry i (status 1 0x09 true) base 0
  else if 2 ^ 20 < count ∨ scope ∨ (lid = 0x02 ∧ sqeNs e ≠ 0 ∧ sqeNs e ≠ 2 ^ 32 - 1) then d.firmwareEntry i invalidField base 0
  else
    let x := d.port a.port
    let part := ((d.logPage x e page).drop ofs ++ List.replicate count 0).take count
    let type := if lid = 1 then 0 else if lid = 2 then 1 else 2
    let keep := bit (sqeDw e 10) 15 || !(lid == 1 || lid == 2 || lid == 0xBF)
    let d := if keep then d else d.setPort a.port { x with masked := x.masked.filter (· != type),
                                                              changed := if lid = 0xBF then x.changed.filter (·.1 != sqeNs e) else x.changed }
    (d.putBytes base part).firmwareEntry i 0 base part.length

/-- Ledger Read: firmware puts the records at `base` (R462). -/
def Dev.ledgerRead (d : Dev) (a : Adm) (i base : Nat) : Dev :=
  let surf := sqeDw a.sqe 10 % 64
  let first := sqeDw a.sqe 11 % 2 ^ 20
  let n := sqeDw a.sqe 12 % 65536 + 1
  let last := (d.tpe.zones.map d.zoneEnt).foldl (fun m z => if z.surf = surf then max m (z.last + 1) else m) 0
  if last < first + n then d.firmwareEntry i invalidField base 0
  else
    let recs := (List.range n).map fun k => d.wsGet (ledgerIndex surf (first + k))
    let d := d.putBytes base (recs.flatMap fun r => dwBytes [r.w0, r.w1, r.w2, r.w3])
    d.firmwareEntry i 0 base (16 * n)

/-- A firmware command: it enters the ring, and `f` is what firmware does with its entry. -/
def Dev.firmwareRow (d : Dev) (op : Nat) (f : Dev → Adm → Nat → Dev) : Dev :=
  d.adminRow op fun d a => match (d.hif.adm.find? fun b => b.fseq == a.fseq).bind Adm.ring with
    | some i => f d a i
    | none => d

/-- HIF_ADMDONE is written: HIF moves the entry's data and posts its completion (R460); a void entry's is discarded (R457). -/
def Dev.adminDone (d : Dev) (i : Nat) (data : List Byte) : Dev :=
  match d.hif.adm.find? fun a => a.ring == some i && [0x02, 0x10, 0x11, 0xC6].contains (sqeOp a.sqe) with
  | none => d
  | some a =>
    let w (k : Nat) : Nat := d.ld32 (d.admAddr i + k)
    let base := w 96 + w 100 * 2 ^ 32
    let count := w 104
    let d := if count = 0 ∨ sqeOp a.sqe = 0x10 then d
      else if sqeOp a.sqe = 0x11 then d.putBytes base (data.take count)
      else d.emit (.hostBytes a.port a.fseq (d.ldBytes base count))
    d.endAdmin a (w 88 / 2 ^ 17) (w 80) (w 84)

/-! ### Diagnostic Window Unlock (R461) -/

/-- Diagnostic Window Unlock. -/
def Dev.windowUnlock (d : Dev) (a : Adm) : Dev :=
  let s := sqeDw a.sqe 10 % 4096
  if 3600 < s then d.endOwn a invalidField 0 0
  else if s = 0 then (d.lockBar2 a.port 5).endOwn a 0 0 0
  else if d.on .SYS_BAR2CTL_DISABLE then d.endOwn a (status 0 0x15 true) 0 0
  else
    let d := ({ d with bus := { d.bus with unlock := Tab.put d.bus.unlock a.port s } }).event 0x300 a.port s 0 0
    (d.endOwn a 0 0 0).beginWait (.bar2 a.port)

/-! ### Configuration space (R421, R422) -/

/-- Reset value of a configuration dword: a Type 0 header with the BARs of R422, power management at 0x40, MSI-X at 0x50 and
PCI Express at 0x70 (PRESUMED, log 21). -/
def Dev.configInit (d : Dev) (k : Nat) : Nat :=
  match k with
  | 0 => d.cfg.ident.getD 0 0
  | 1 => 0x00100000
  | 2 => 0x01080200 + d.cfg.ident.getD 2 0 % 256
  | 4 | 8 => 4
  | 11 => d.cfg.ident.getD 1 0
  | 13 => 0x40
  | 16 => 0x00035001
  | 17 => 8
  | 20 => 0x01007011
  | 21 => 4
  | 22 => 0x2004
  | 28 => 0x00020010
  | 29 => 0x10008002
  | _ => 0

/-- Bits of a configuration dword that a write changes. -/
def configMask (k : Nat) : Nat :=
  match k with
  | 1 => 0x0546
  | 4 | 8 => 0xFFFFC000
  | 5 | 9 => 0xFFFFFFFF
  | 6 => 0xFF000000
  | 15 => 0xFF
  | 17 => 0x0103
  | 20 => 0xC0000000
  | 30 => 0x7FFF
  | 32 => 0x01FB
  | _ => 0

/-- The function's power state: 0 D0, 3 D3hot. -/
def Dev.powerState (d : Dev) (p : Nat) : Nat := Tab.getD (d.port p).cfg 17 0 % 4

/-- An access to configuration space or to the MSI-X table; a vector whose mask goes sends what is pending. -/
def Dev.configAccess (d : Dev) (p : Nat) (a : ConfigAccess) : Dev :=
  let x := d.port p
  if !d.portExists p || !d.on .HIF_LNKSTAT_UP p then d
  else match a with
    | .read k => d.emit (.data (22 + p) (Tab.getD x.cfg k (d.configInit k)))
    | .write k v =>
      let m := configMask k
      let old := Tab.getD x.cfg k (d.configInit k)
      (d.setPort p { x with cfg := Tab.put x.cfg k ((old &&& (2 ^ 32 - 1 - m)) ||| (v.toNat &&& m)) }).interruptsNow p
    | .tableRead k => d.emit (.data (22 + p) (x.msixWord (k / 4) (k % 4)))
    | .tableWrite k v => (d.setPort p { x with msix := Tab.put x.msix k v.toNat }).interruptsNow p

/-! ### Recovery limit (R453) -/

/-- TLER × 100 ms have passed since a read's fetch: its sectors are recovered no further. -/
def Dev.tlerPasses (d : Dev) (fseq : Nat) : Dev :=
  match d.cmdOf fseq with
  | none => d
  | some c =>
    let reads := sqeOp c.sqe == opRead || sqeOp c.sqe == opVerify
    let tler := d.nsFeat (sqeNs c.sqe) 5 fseq % 65536
    if reads && tler != 0 then d.setCmd { c with limit := true } else d

/-- HIF's own progress, with the admin commands no row names. -/
def Dev.hostUpdate (d : Dev) : Dev := (d.dropUnknown d.hif.adm.length).hifUpdate

end Sys2Proof.Machine
end

