-- ==== Sys2Proof/Machine/Inflate.lean ====
section
/-! DEFINITION. RFC 1951 decompression (R557): stored, fixed and dynamic blocks, by structural recursion. -/

namespace Sys2Proof.Machine

/-- The bits of a byte string in stream order: least significant bit of each byte first. -/
def streamBits (l : List Byte) : List Bool := l.flatMap fun b => (List.range 8).map fun k => b.toNat.testBit k

/-- `n` bits as a number, least significant first. -/
def takeBits : Nat → List Bool → Option (Nat × List Bool)
  | 0, l => some (0, l)
  | _ + 1, [] => none
  | n + 1, b :: l => (takeBits n l).map fun e => (bnat b + 2 * e.1, e.2)

/-- Codes of a length, and the k-th symbol of a length. -/
def lenCount (lens : List Nat) (n : Nat) : Nat := (lens.filter (· == n)).length
def lenSymbol (lens : List Nat) (n k : Nat) : Option Nat := ((lens.zipIdx.filter fun e => e.1 == n)[k]?).map Prod.snd

/-- A code is usable: not over-subscribed, and complete unless it has at most one symbol. -/
def codeValid (lens : List Nat) : Bool :=
  let s := (lens.map fun n => if n = 0 then 0 else 2 ^ (15 - n)).sum
  decide (s ≤ 2 ^ 15) && (s == 2 ^ 15 || decide ((lens.filter (· != 0)).length ≤ 1))

/-- The next symbol of a canonical code: `code` is what `n - 1` bits have given, `first` the first code of length `n`. -/
def nextSymbol (lens : List Nat) : Nat → Nat → Nat → Nat → List Bool → Option (Nat × List Bool)
  | 0, _, _, _, _ => none
  | _ + 1, _, _, _, [] => none
  | f + 1, n, code, first, b :: l =>
    let c := 2 * code + bnat b
    let k := lenCount lens n
    if first ≤ c ∧ c < first + k then (lenSymbol lens n (c - first)).map fun s => (s, l)
    else nextSymbol lens f (n + 1) c (2 * (first + k)) l

def huffSymbol (lens : List Nat) (l : List Bool) : Option (Nat × List Bool) := nextSymbol lens 15 1 0 0 l

/-- Base and extra bits of length symbol 257 + k, and of distance symbol k. -/
def lengthBase (k : Nat) : Nat × Nat :=
  if k < 8 then (3 + k, 0) else if k = 28 then (258, 0) else
    let e := (k - 4) / 4
    (3 + (4 + k % 4) * 2 ^ e, e)
def distBase (k : Nat) : Nat × Nat :=
  if k < 4 then (1 + k, 0) else
    let e := (k - 2) / 2
    (1 + (2 + k % 2) * 2 ^ e, e)

/-- How a decompression ends: with its output, a stream that is not valid, or output past the limit. -/
inductive Inflated where
  | ok (out : List Byte)
  | format
  | long
  deriving DecidableEq, Repr

/-- The state of a decompression: bits left, output so far with its newest byte first, its length. -/
structure Infl where
  rest : List Bool
  out  : List Byte
  len  : Nat

/-- Copy `n` bytes from `dist` back. -/
def copyBack (dist : Nat) : Nat → List Byte → List Byte
  | 0, out => out
  | n + 1, out => copyBack dist n (out.getD (dist - 1) 0 :: out)

/-- The length and distance of a copy, from length symbol 257 + k on. -/
def copyArgs (dist : List Nat) (k : Nat) (l : List Bool) : Option (Nat × Nat × List Bool) :=
  if 28 < k then none
  else do
    let (base, ext) := lengthBase k
    let (x, l) ← takeBits ext l
    let (s, l) ← huffSymbol dist l
    if 29 < s then none
    else do
      let (dbase, dext) := distBase s
      let (y, l) ← takeBits dext l
      some (base + x, dbase + y, l)

/-- The symbols of a compressed block up to its end; each uses at least a bit, so `fuel` counts bits. -/
def inflCodes (lit dist : List Nat) (limit : Nat) : Nat → Infl → Except Inflated Infl
  | 0, _ => .error .format
  | f + 1, s =>
    match huffSymbol lit s.rest with
    | none => .error .format
    | some (256, l) => .ok { s with rest := l }
    | some (k, l) =>
      if k < 256 then
        if limit ≤ s.len then .error .long
        else inflCodes lit dist limit f { rest := l, out := BitVec.ofNat 8 k :: s.out, len := s.len + 1 }
      else match copyArgs dist (k - 257) l with
        | none => .error .format
        | some (n, d, l) =>
          if s.len < d then .error .format
          else if limit < s.len + n then .error .long
          else inflCodes lit dist limit f { rest := l, out := copyBack d n s.out, len := s.len + n }

/-- Bytes of a stored block. -/
def storedBytes : Nat → List Bool → Option (List Byte × List Bool)
  | 0, l => some ([], l)
  | n + 1, l => match takeBits 8 l with
    | some (v, l) => (storedBytes n l).map fun e => (BitVec.ofNat 8 v :: e.1, e.2)
    | none => none

/-- A stored block: it begins at a byte boundary. -/
def inflStored (limit : Nat) (s : Infl) : Except Inflated Infl :=
  let l := s.rest.drop (s.rest.length % 8)
  match takeBits 16 l with
  | none => .error .format
  | some (n, l) => match takeBits 16 l with
    | none => .error .format
    | some (m, l) =>
      if n + m ≠ 65535 then .error .format
      else match storedBytes n l with
        | none => .error .format
        | some (bs, l) => if limit < s.len + n then .error .long else .ok { rest := l, out := bs.reverse ++ s.out, len := s.len + n }

/-- The fixed codes. -/
def fixedLit : List Nat := List.replicate 144 8 ++ List.replicate 112 9 ++ List.replicate 24 7 ++ List.replicate 8 8
def fixedDist : List Nat := List.replicate 30 5

/-- The order of the code-length code's lengths. -/
def lengthOrder : List Nat := [16, 17, 18, 0, 8, 7, 9, 6, 10, 5, 11, 4, 12, 3, 13, 2, 14, 1, 15]

/-- The code lengths of a dynamic block, `left` of them still to come. -/
def readLens (code : List Nat) : Nat → Nat → List Nat → List Bool → Option (List Nat × List Bool)
  | _, 0, acc, l => some (acc, l)
  | 0, _ + 1, _, _ => none
  | f + 1, left, acc, l =>
    match huffSymbol code l with
    | none => none
    | some (s, l) =>
      let (base, ext, v) : Nat × Nat × Option Nat :=
        if s < 16 then (1, 0, some s) else if s = 16 then (3, 2, acc.getLast?) else if s = 17 then (3, 3, some 0) else (11, 7, some 0)
      match takeBits ext l, v with
      | some (x, l), some v =>
        if left < base + x then none else readLens code f (left - (base + x)) (acc ++ List.replicate (base + x) v) l
      | _, _ => none

/-- The code-length code: `n` three-bit lengths in their order. -/
def readOrder : List Nat → Nat → List Bool → Option (List (Nat × Nat) × List Bool)
  | k :: ks, n + 1, l => match takeBits 3 l with
    | some (v, l) => (readOrder ks n l).map fun e => ((k, v) :: e.1, e.2)
    | none => none
  | _, _, l => some ([], l)

/-- The codes of a dynamic block. -/
def dynamicCodes (l : List Bool) : Option (List Nat × List Nat × List Bool) := do
  let (hlit, l) ← takeBits 5 l
  let (hdist, l) ← takeBits 5 l
  let (hclen, l) ← takeBits 4 l
  if 29 < hlit ∨ 29 < hdist then none
  else do
    let (ord, l) ← readOrder lengthOrder (hclen + 4) l
    let code := (List.range 19).map fun k => ((ord.find? fun e => e.1 == k).map Prod.snd).getD 0
    if !codeValid code then none
    else do
      let n := hlit + 257
      let (lens, l) ← readLens code 320 (n + hdist + 1) [] l
      let lit := lens.take n
      let dist := lens.drop n
      if codeValid lit && codeValid dist && lit.getD 256 0 != 0 then some (lit, dist, l) else none

/-- The blocks of a stream. -/
def inflBlocks (limit : Nat) : Nat → Infl → Inflated
  | 0, _ => .format
  | f + 1, s =>
    match takeBits 3 s.rest with
    | none => .format
    | some (h, l) =>
      let s := { s with rest := l }
      let r : Except Inflated Infl := match h / 2 with
        | 0 => inflStored limit s
        | 1 => inflCodes fixedLit fixedDist limit l.length s
        | 2 => match dynamicCodes l with
          | some (lit, dist, l) => inflCodes lit dist limit l.length { s with rest := l }
          | none => .error .format
        | _ => .error .format
      match r with
      | .error e => e
      | .ok s => if h % 2 = 1 then .ok s.out.reverse else inflBlocks limit f s

/-- Decompress a stream with at most `limit` bytes of output; bytes behind its last block are not read (log 25). -/
def inflate (input : List Byte) (limit : Nat) : Inflated :=
  let l := streamBits input
  inflBlocks limit (l.length + 1) { rest := l, out := [], len := 0 }

end Sys2Proof.Machine
end

