-- ==== Sys2Proof/Machine/Compress.lean ====
section
/-! DEFINITION. The software check context (R554-R556) and the compression engine (R557-R564). -/

namespace Sys2Proof.Machine

/-! ### The software context (R554-R556) -/

/-- Master `m` owns the context. -/
def Dev.owns (d : Dev) (m : Nat) : Bool := d.on .CHK_SWOWN_OWNED && d.rd .CHK_SWOWN_OWNER == m

/-- CHK_SWOWN.CLAIM is written 1. -/
def Dev.chkClaim (d : Dev) (m : Nat) : Dev :=
  if d.on .CHK_SWOWN_OWNED then (if d.owns m then d else d.stick .CHK_STAT_CLAIMREF)
  else (d.wr .CHK_SWOWN_OWNED 0 1).wr .CHK_SWOWN_OWNER 0 m

/-- CHK_SWOWN.CLAIM is written 0: by the owner, the safety path or the service port. -/
def Dev.chkRelease (d : Dev) (m : Nat) : Dev :=
  if !d.on .CHK_SWOWN_OWNED then d
  else if d.owns m || m == 0 || m == 1 then (d.wr .CHK_SWOWN_OWNED 0 0).wr .CHK_SWOWN_OWNER 0 0
  else d.stick .CHK_STAT_CLAIMREF

/-- What a computation takes from the registers (R555). -/
def Dev.chkArgs (d : Dev) : ChkRun :=
  { alg := d.rd .CHK_SWCTL_ALG, src := d.rd .CHK_SWSRCLO_SRC + d.rd .CHK_SWSRCHI_SRC * 2 ^ 32, len := d.rd .CHK_SWLEN_LEN,
    seed := d.rd .CHK_SWSEEDLO_SEED + d.rd .CHK_SWSEEDHI_SEED * 2 ^ 32, fold := d.rd .CHK_SWSEEDHI_FOLD }

/-- CHK_SWCTL is written; GO starts a computation unless one runs, with its registers as they stand (DESIGN CHOICE, log 99). -/
def Dev.chkCompute (d : Dev) (m w : Nat) : Dev :=
  if !d.owns m then d.stick .CHK_STAT_CLAIMREF
  else if d.on .CHK_SWSTAT_BUSY then d
  else
    let d := d.wr .CHK_SWCTL_ALG 0 w
    if bit w 31 then { d.wr .CHK_SWSTAT_BUSY 0 1 with chk := { d.chk with run := some d.chkArgs } } else d

/-- The value an algorithm gives for a seed and F. -/
def chkValue (alg seed f : Nat) (m : List Byte) : Nat :=
  match alg with
  | 1 => guard16 m
  | 2 => guard64 m
  | _ => checkValue seed f m

/-- The computation ends (R555, R556): after a bus error the result is undefined, a free value. -/
def Dev.chkEnd (d : Dev) : Dev :=
  if !d.on .CHK_SWSTAT_BUSY then d
  else
    let x := d.chk.run.getD d.chkArgs
    let d := { d.wr .CHK_SWSTAT_BUSY 0 0 with chk := { d.chk with run := none } }
    let (d, ok) := d.readCheck reqMedia x.src x.len
    if ok && arrayOf x.src != 1 then
      let v := chkValue x.alg x.seed x.fold (d.ldBytes x.src x.len)
      ((d.wr .CHK_SWRESLO_RES 0 v).wr .CHK_SWRESHI_RES 0 (v / 2 ^ 32)).wr .CHK_SWSTAT_DONE 0 1
    else
      let d := ((d.wr .CHK_SWRESLO_RES 0 d.fresh).wr .CHK_SWRESHI_RES 0 (d.fresh / 2 ^ 32)).used
      (d.wr .CHK_SWSTAT_ERR 0 1).stick .CHK_STAT_SWERR

/-! ### Compression jobs (R558-R560) -/

/-- A job descriptor. -/
structure CmpDesc where
  (op meta' tag blocks word1 group src dst limit : Nat)
  bad : Bool               -- a reserved field is set, or a range is broken
  deriving DecidableEq, Repr

/-- Groups of a PACK job. -/
def CmpDesc.groups (c : CmpDesc) : Nat := (c.blocks + 15) / 16

/-- The descriptor at an address. -/
def Dev.cmpDesc (d : Dev) (a : Nat) : CmpDesc :=
  let w (k : Nat) : Nat := d.ld32 (a + 4 * k)
  let op := bits (w 0) 28 4
  let n := bits (w 0) 0 12
  let g := bits (w 2) 0 12
  let range := match op with
    | 0 => n == 0 || decide (256 < n) || decide (4096 < g + (n + 15) / 16)
    | 1 => n == 0 || decide (16 < n)
    | 2 | 3 => w 1 == 0 || decide (2 ^ 24 ≤ w 1)
    | _ => true
  { op := op, meta' := bits (w 0) 26 2, tag := bits (w 0) 16 8, blocks := n, word1 := w 1, group := g,
    src := w 3 + bits (w 4) 0 8 * 2 ^ 32, dst := w 5 + bits (w 4) 8 8 * 2 ^ 32, limit := w 6,
    bad := range || bits (w 0) 24 2 != 0 || bits (w 0) 12 4 != 0 || bits (w 2) 12 20 != 0 || bits (w 4) 16 16 != 0 ||
      bits (w 7) 24 4 != 0 }

/-- Bytes a block contributes, and blocks' distance in the buffer. -/
def CmpDesc.unit (c : CmpDesc) : Nat := 4096 + metaSize c.meta'
def CmpDesc.stride (c : CmpDesc) : Nat := if c.meta' = 0 then 4096 else 4224

/-- What a job yields: a status, its output by address, the bytes it counts, and the records stored raw. -/
structure CmpResult where
  status : Nat
  out    : List (Nat × List Byte) := []
  len    : Nat := 0
  raw    : Nat := 0
  deriving DecidableEq, Repr

/-- A payload is a DEFLATE stream of `m`. -/
def deflates (payload m : List Byte) : Bool := inflate payload m.length == .ok m

/-- Bytes of a number, least significant first. -/
def leb (v n : Nat) : List Byte := (leBytes v n).map (BitVec.ofNat 8)

/-- The header of a record (R563). -/
def recordHeader (form count meta' unitend zone group plen : Nat) : List Byte :=
  let h := leb 0x504B4331 4 ++ leb form 1 ++ leb (count - 1 + meta' * 16) 1 ++ leb unitend 1 ++ leb 0 1 ++ leb zone 4 ++
    leb group 2 ++ leb 0 2 ++ leb plen 4 ++ List.replicate 36 0
  h ++ leb (guard64 h) 8

/-- The record of one group (R563, R564): raw where the payload is longer than its input. -/
def packRecord (c : CmpDesc) (k : Nat) (input payload : List Byte) : Bool × List Byte :=
  let g := c.group + k
  let n := input.length / c.unit
  let raw := decide (input.length < payload.length)
  let body := if raw then input else payload
  let last := g % 4 == 3 || k + 1 == c.groups
  (raw, recordHeader (if raw then 0 else 1) n c.meta' (bnat last) c.word1 g body.length ++ body ++
    List.replicate ((8 - body.length % 8) % 8) 0)

/-- The input of group `k` of a PACK job. -/
def Dev.groupInput (d : Dev) (c : CmpDesc) (k : Nat) : List Byte :=
  (List.range (min 16 (c.blocks - 16 * k))).flatMap fun i => d.ldBytes (c.src + (16 * k + i) * c.stride) c.unit

/-- PACK: one record a group, from payloads that deflate to the groups; none where a payload does not. -/
def Dev.packJob (d : Dev) (c : CmpDesc) (outs : List (List Byte)) : Option CmpResult :=
  let ins := (List.range c.groups).map (d.groupInput c)
  let recs := ins.zipIdx.map fun e => packRecord c e.2 e.1 (outs.getD e.2 [])
  let all := recs.flatMap Prod.snd
  if !(ins.zipIdx.all fun e => deflates (outs.getD e.2 []) e.1) then none
  else if c.limit < all.length then some { status := 1 }
  else some { status := 0, out := [(c.dst, all)], len := all.length, raw := (recs.filter Prod.fst).length }

/-- Blocks of an expanded record at the buffer stride. -/
def CmpDesc.place (c : CmpDesc) (m : List Byte) : List (Nat × List Byte) :=
  (List.range c.blocks).map fun i => (c.dst + i * c.stride, (m.drop (i * c.unit)).take c.unit)

/-- UNPACK (R559, R560, R568). -/
def Dev.unpackJob (d : Dev) (c : CmpDesc) : CmpResult :=
  let h := d.ldBytes c.src 64
  let le (o n : Nat) : Nat := ofBytesBE ((h.drop o).take n).reverse
  let want := c.blocks * c.unit
  if le 56 8 ≠ guard64 (h.take 56) ∨ le 0 4 ≠ 0x504B4331 ∨ le 8 4 ≠ c.word1 ∨ le 12 2 ≠ c.group then { status := 5 }
  else
    let body := d.ldBytes (c.src + 64) (le 16 4)
    let room := decide ((c.blocks - 1) * c.stride + c.unit ≤ c.limit)
    let out : Inflated := match le 4 1 with
      | 0 => if want < body.length then .long else .ok body
      | 1 => inflate body want
      | _ => .format
    match out with
    | .format => { status := 2 }
    | .long => { status := 4 }
    | .ok m =>
      if m.length < want then { status := 3 } else if !room then { status := 4 }
      else { status := 0, out := c.place m, len := m.length }

/-- What a job yields; DEFL's stream is the engine's own choice among those that inflate to the input. -/
def Dev.cmpRun (d : Dev) (c : CmpDesc) (outs : List (List Byte)) : Option CmpResult :=
  match c.op with
  | 0 => d.packJob c outs
  | 1 => some (d.unpackJob c)
  | 2 =>
    let s := outs.getD 0 []
    if !deflates s (d.ldBytes c.src c.word1) then none
    else if c.limit < s.length then some { status := 1 }
    else some { status := 0, out := [(c.dst, s)], len := s.length }
  | _ => match inflate (d.ldBytes c.src c.word1) c.limit with
    | .ok m => some { status := 0, out := [(c.dst, m)], len := m.length }
    | .format => some { status := 2 }
    | .long => some { status := 4 }

/-- The source ranges a job reads. -/
def Dev.cmpReads (d : Dev) (c : CmpDesc) : List (Nat × Nat) :=
  match c.op with
  | 0 => (List.range c.blocks).map fun i => (c.src + i * c.stride, c.unit)
  | 1 =>
    let plen := d.ld32 (c.src + 16)
    [(c.src, 64)] ++ (if guard64 (d.ldBytes c.src 56) = ofBytesBE (d.ldBytes (c.src + 56) 8).reverse then [(c.src + 64, plen)] else [])
  | _ => [(c.src, c.word1)]

/-- The destination of a job that failed is undefined up to LIMIT: free values where memory exists (R560). -/
def Dev.cmpSpoil (d : Dev) (c : CmpDesc) : Dev :=
  let e := (List.range c.limit).foldl (fun (e : Dev) k =>
    if d.memExists (c.dst + k) && !d.closed (c.dst + k) then e.st8 (c.dst + k) (BitVec.ofNat 8 (Config.freeValue (d.free + k))) else e) d
  { e with free := d.free + c.limit }

/-- Completion is signalled to the submitter (R558). -/
def Dev.cmpSignal (d : Dev) (j : CmpJob) (tag st : Nat) : Dev :=
  match engineOf j.master with
  | some e => d.trigger e tMsg 0 (j.desc - tableSram) (tag * 2 ^ 24 + bnat (st != 0) * 2 ^ 23 + st * 2 ^ 16) 0 0
  | none => if 2 ≤ j.master ∧ j.master < 10 then (d.stick .CMP_DONE_DONE).emit (.irq .CMP 0) else d

/-- A job ends with a result (R559, R560). -/
def Dev.cmpFinish (d : Dev) (j : CmpJob) (c : CmpDesc) (r : CmpResult) : Dev :=
  let d := if r.status = 0 then r.out.foldl (fun d e => d.mputBytes e.1 e.2) d else d.cmpSpoil c
  let d := d.st32 (j.desc + 28) (r.status * 2 ^ 28 + r.len % 2 ^ 24)
  let d := (d.count .CMP_CNT_JOBS).count .CMP_CNT_RAW 0 r.raw
  let d := match r.status with
    | 1 => d.count .CMP_FAILCNT_OUTFULL
    | 2 => d.count .CMP_FAILCNT_FORMAT
    | 3 | 4 => d.count .CMP_FAILCNT_LENGTH
    | 5 => d.count .CMP_FAILCNT_HEADER
    | 6 => d.stick .CMP_STAT_MEMERR
    | _ => d
  let d := if c.op = 0 ∧ r.status = 0 then d.notePacked c.src c.word1 (16 * c.group) c.blocks else d
  d.cmpSignal j c.tag r.status

/-- Every access of the job ends without a bus error. -/
def Dev.cmpAccess (d : Dev) (c : CmpDesc) : Dev × Bool :=
  (d.cmpReads c).foldl (fun e r => if e.2 then e.1.readCheck reqCmp r.1 r.2 else e) (d, true)

/-- A job ends; where the payloads given are not the engine's, nothing happens. -/
def Dev.cmpJobEnd (d : Dev) (j : CmpJob) (outs : List (List Byte)) : Option Dev :=
  let c := d.cmpDesc j.desc
  if c.bad then some (d.cmpFinish j c { status := 7 })
  else
    let (d', ok) := d.cmpAccess c
    if !ok then some (d'.cmpFinish j c { status := 6 })
    else match d'.cmpRun c outs with
      | none => none
      | some r =>
        let fits := r.out.all fun e => d'.rangeExists e.1 e.2.length
        some (d'.cmpFinish j c (if fits then r else { status := 6 }))

/-- A submission commits (R558). -/
def Dev.cmpSubmit (d : Dev) (m desc : Nat) : Dev :=
  if !d.on .CMP_CTL_ENABLE || decide (64 ≤ d.cmp.queue.length) then d.stick .CMP_STAT_QFULL
  else { d with cmp := { d.cmp with queue := d.cmp.queue ++ [{ desc := desc, master := m }] } }

/-- The first queued job starts, where it is of operation `op` and fewer than four run (R557, R558). -/
def Dev.cmpStart (d : Dev) (op : Nat) : Dev :=
  match d.cmp.queue with
  | [] => d
  | j :: rest =>
    if decide (4 ≤ d.cmp.running.length) || bits (d.ld32 j.desc) 28 4 != op then d
    else { d with cmp := { queue := rest, running := d.cmp.running ++ [j] } }

/-- A running job ends; a first queued job whose operation is reserved ends as soon as it is met. -/
def Dev.cmpEnd (d : Dev) (k : Nat) (outs : List (List Byte)) : Dev :=
  match d.cmp.running[k]? with
  | some j => (({ d with cmp := { d.cmp with running := d.cmp.running.eraseIdx k } }).cmpJobEnd j outs).getD d
  | none => match d.cmp.queue with
    | j :: rest =>
      if 3 < bits (d.ld32 j.desc) 28 4 then (({ d with cmp := { d.cmp with queue := rest } }).cmpJobEnd j outs).getD d else d
    | [] => d

end Sys2Proof.Machine
end

