-- ==== Sys2Proof/Machine/Reset.lean ====
section
/-! DEFINITION. Resets (18_startup_and_recovery): the request, the quiesce of R666, and what a warm reset, a full reset and
power-on reset leave of every block (R649-R651, R667, R673 and the reset rule of each chapter). -/

namespace Sys2Proof.Machine

/-! ### The quiesce (R666) -/

/-- The quiesce ends: a PFUNIT record for each actuator that had a started unit, with PASSED where it passed in full. What
still runs is abandoned with cause STOP, the flush of R640 begins, and a full reset retracts what is not PARKED (R651). -/
def Dev.quiesceEnd (d : Dev) (pass : Bool) : Dev :=
  let d := (List.range 4).foldl (fun d a => d.unitRecord a (unitsOfAct d.cfg.units a) pass) d
  let d := ({ d with cfg := { d.cfg with quiet := true, units := [] } }.abandonAll 1).closePage
  let d := d.beginWait .flush
  if d.cfg.kind != 2 then d
  else (List.range 4).foldl (fun d a => if d.rd .SRV_STAT_MODE a == 0 then d else d.retract a) d

/-- A reset of kind 1 (warm) or 2 (full) is requested; `cause` is its bit of SYS_RSTCAUSE. A full reset takes the place of a
warm one that waits. The quiesce begins; in the safe state, or while the angle base is invalid, it ends at once, and a full
reset in the safe state runs none (R651, R666). -/
def Dev.resetRequest (d : Dev) (kind cause : Nat) : Dev :=
  if kind ≤ d.cfg.kind then d
  else
    let safe := d.on .FLT_STAT_SAFE
    let units := if kind = 2 ∧ safe then [] else if d.cfg.kind = 0 then d.unitsNow else d.cfg.units
    let was := d.cfg.quiet
    let d := { d with cfg := { d.cfg with kind := kind, cause := cause, quiet := false, units := units } }
    let d := (d.beginWait .quiesce).stopAtUnits fun _ => true
    if was || safe || !d.angValid then d.quiesceEnd false else d

/-- A write of SYS_RSTCTL (R64). -/
def Dev.rstCtl (d : Dev) (w : Nat) : Dev :=
  if bits w 8 8 != 0x5A then d
  else if bit w 1 then (d.wr .SYS_RSTCTL_FULL 0 1).resetRequest 2 4
  else if bit w 0 then (d.wr .SYS_RSTCTL_WARM 0 1).resetRequest 1 1
  else d

/-- Every started unit has passed in full (R666). -/
def Dev.unitsPassed (d : Dev) : Bool := d.cfg.units.all fun e => e.2.whole

/-- The quiesce ends once every started unit has passed, or 100 ms have passed. -/
def Dev.quiesceDone (d : Dev) : Dev :=
  if d.cfg.kind == 0 || d.cfg.quiet || !(d.waited .quiesce 125000000 || d.unitsPassed) then d else d.quiesceEnd true

/-- Every record is programmed (R640). -/
def Dev.flushed (d : Dev) : Bool := d.evt.queue.isEmpty && d.unflushed == 0

/-- The reset of a kind may act: the quiesce and the retracts are over, and the flush, or its 10 ms, which run from the end of the
quiesce, or of the last retract of a full reset (R640, R651, R667). -/
def Dev.resetDue (d : Dev) (kind : Nat) : Bool :=
  d.cfg.kind == kind && d.cfg.quiet && !(kind == 2 && (List.range 4).any fun a => (d.act a).retract) && (d.waited .flush 12500000 || d.flushed)

/-- The causes that the next start reads (R64, R616). -/
def Dev.nextCause (d : Dev) : Nat :=
  setBits (setBit (d.word .SYS_RSTCAUSE) d.cfg.cause) 5 1 (if d.on .FLT_STAT_SAFEACT ∨ bit (d.word .SYS_RSTCAUSE) 5 then 1 else 0)

/-- SYS_RSTCAUSE from a word. -/
def Dev.setCause (d : Dev) (w : Nat) : Dev :=
  Reg.SYS_RSTCAUSE.info.flds.foldl (fun d f => d.wr f 0 (f.slice w)) d

/-! ### Warm reset, block by block -/

/-- A unit that was calibrating, joining or serving calibrates again; one that is OUT stays OUT (R141, R191, R331, R321). -/
def warmUnit (st : Nat) : Nat := if st = unitJoin ∨ st = unitServ then unitCal else st

/-- Return every register of a block whose fields `keep` does not name. -/
def Dev.resetBlocks (d : Dev) (bs : List Block) (keep : Fld → Bool) : Dev := bs.foldl (fun d b => d.resetBlock b keep) d

/-- The registers that a warm reset keeps in a block it resets (R104, R312, R386, R609, R646, R667, R704). -/
def warmKeeps (f : Fld) : Bool :=
  let r := f.info.reg
  r == .SYS_RSTCAUSE || r == .SYS_CLKSTAT || f == .LANE_STAT_STATE || f == .ITB_ENGSTAT_STATE

/-- Lanes, decode engines, sequencers and the write path (R141, R191, R245, R312, R727). -/
def Dev.warmChannel (d : Dev) : Dev :=
  let d := { d with lnx := { d.lnx with delay := [] }, lanes := [], itb := {}, fsq := {}, tpe := { d.tpe with enc := [], recon := [], queue := [], moves := [] } }
  let st (s : Nat) : Nat := d.rd .FSQ_STAT_STATE s
  let d := d.resetBlocks [.LNX, .LANE, .RDI, .ITB, .FSQ] warmKeeps
  let d := (List.range 64).foldl (fun d n => d.wr .LANE_STAT_STATE n (warmUnit (d.rd .LANE_STAT_STATE n))) d
  let d := (List.range 48).foldl (fun d n => d.wr .ITB_ENGSTAT_STATE n (warmUnit (d.rd .ITB_ENGSTAT_STATE n))) d
  let d := (List.range 32).foldl (fun d s => if st s = 0 then d else d.wr .FSQ_STAT_STATE s 1) d
  let d := { d with wrf := { d.wrf with slots := [] } }
  let cleared (f : Fld) : Bool := f.info.acc == .ro || f.info.acc == .rc || f.info.acc == .w1c || f.info.acc == .snap
  let d := d.resetBlock .WRF fun f => !cleared f
  (List.range 32).foldl (fun d s => ((d.wr .ANG_WCKSTAT_UNOWNED s 1).wr .ANG_WCKSTAT_OWNER s 0).wr .ANG_WCKSTAT_RUN s 0) d

/-- Actuators and heads: registers, loading and SERVICE or OUT stay; bindings and guides end with the jobs (R321, R331). -/
def Dev.warmServo (d : Dev) : Dev :=
  let d := (List.range 128).foldl (fun d h =>
    let d := d.wr .SRV_HSTAT_STATE h (warmUnit (d.rd .SRV_HSTAT_STATE h))
    (d.wr .SRV_HSTAT_BOUND h 0).wr .SRV_HSTAT_FOLLOW h 0) d
  (List.range 4).foldl (fun d a =>
    let d := if d.rd .SRV_STAT_SVC a == unitJoin then d.wr .SRV_STAT_SVC a unitCal else d
    d.setAct a { d.act a with guide := none, guidePair := none, ref := none }) d

/-- Vertical engines: every engine to OFF, its queues and its store window gone (R411). -/
def Dev.warmEngines (d : Dev) : Dev :=
  let d := { d with ve := {} }
  let d := (List.range 12).foldl Dev.veOff d
  d.resetBlock .VE fun _ => false

/-- HIF, SCH, CHK, CMP and DMA: commands are lost, links go down and every register returns (R541, R554, R561, R673). -/
def Dev.warmHost (d : Dev) : Dev :=
  let d := [0, 1].foldl (fun d p => d.lockBar2 p 4) d
  let d := { d with hif := { finished := d.hif.finished, log := d.hif.log }, sch := {}, chk := {}, cmp := {}, dma := {} }
  d.resetBlocks [.HIF, .SCH, .CHK, .CMP, .DMA] fun _ => false

/-- Memory keeps everything but MEM_L1CTL and the L1 caches (R512, R542); DRAM is in self-refresh only while the reset lasts. -/
def Dev.warmMemory (d : Dev) : Dev :=
  let d := (List.range 8).foldl (fun d c => d.resetReg .MEM_L1CTL c) d
  { d with memx := { d.memx with icache := [] } }

/-- Health keeps its working set, its ledger and every register but HLT_STAT and HLT_CNT; items not acknowledged queue again
with new sequence numbers, and waiting rewrite requests are dropped (R609). -/
def Dev.warmHealth (d : Dev) : Dev :=
  let items := d.hlt.work ++ d.hlt.held
  let hlt := { d.hlt with work := [], held := [], reqs := [], jobFirst := [], calReq := [], avsBusy := false, saveSeq := none,
                          waiting := false, ws := d.hlt.ws.map fun e => (e.1, { e.2 with locks := 0 }) }
  let d := ((({ d with hlt := hlt }).resetReg .HLT_STAT 0).resetReg .HLT_CNT 0).wr .HLT_WQPTR_HEAD 0 (d.rd .HLT_WQPTR_TAIL)
  items.foldl (fun d w =>
    let d := { d with hlt := { d.hlt with seq := d.hlt.seq + 1 } }
    d.queueWork { w with seq := d.hlt.seq - 1 }) d

/-- FLT: pending faults and the hold end, watchdogs stop; configuration, counts and the event buffer stay (R646). -/
def Dev.warmFaults (d : Dev) : Dev :=
  let flt := { d.flt with timers := [], expired := [], deferred := [], wdStreak := [], wdAt := [], wdHold := none, crkOn := false }
  let d := { d with flt := flt }
  let d := (((d.wr .FLT_PEND0_PEND 0 0).wr .FLT_PEND1_PEND 0 0).wr .FLT_STAT_HOLD 0 0).wr .FLT_STAT_SAFE 0 0
  let d := d.wr .FLT_STAT_SAFEACT 0 0
  let d := (List.range 41).foldl (fun d n => d.wr .FLT_SRCSTAT_EFFSEV n 0) d
  (List.range 8).foldl (fun d c => d.wr .FLT_WDCTL_EN c 0) d

/-- The service port disconnects for 10 ms (R685, R704). -/
def Dev.warmService (d : Dev) : Dev :=
  (d.resetReg .SVC_STAT 0).resetReg .SVC_CNT 0 |> fun d => { d with svc := { vbus := d.svc.vbus, offTill := d.now + 12500000 } }

/-- Register space: masters start afresh, and CFG is the only one admitted (R63). -/
def Dev.warmBus (d : Dev) : Dev :=
  let keep := d.bus.pend.filter fun p => [Block.ANG, .SRV, .ARM, .SPN, .MAC, .TPE, .WRF].contains p.reg.info.block
  ({ d with bus := { pend := keep } }).resetBlock .SYS warmKeeps

/-- The warm reset of every block, before CFG re-applies its REGWRITE copy (R667): SPN, MAC, ANG, ARM, RCK and TPE registers,
memory and the event buffer are kept (R104, R386, R542, R646, R704, R727). -/
def Dev.warmBlocks (d : Dev) : Dev :=
  let cause := d.nextCause
  let d := d.warmHost.warmChannel.warmServo.warmEngines.warmMemory.warmHealth
  let d := (d.warmFaults.warmService.warmBus.setCause cause).wr .CFG_STAT_STATE 0 5
  let d := d.wr .CFG_STAT_RESTORED 0 0
  { d with cfg := { d.cfg with kind := 0, cause := 0, quiet := false, units := [], cores := false, began := d.now } }

/-! ### Full reset and power-on reset -/

/-- The device after power-on reset: every register at its reset value, memory and buffers empty (R649, R650). The fuses hold
what has been programmed, the counts of the health logs go on (log 96), and the state of the service port's cable is not the device's. -/
def Dev.powerOn (d : Dev) : Dev :=
  let fuses := d.cfg.blown
  let n : Dev := { free := d.free, out := d.out, cfg := { fuses := fuses, blown := fuses }, svc := { vbus := d.svc.vbus },
                   hif := { log := d.hif.log } }
  (n.wr .SVC_USBID_PID 0 (fuses.usbId / 65536)).wr .SVC_USBID_VID 0 fuses.usbId

/-- What a full reset keeps: SYS_RSTCAUSE, SPN_PFSTAT and the replacement triggers (R64, R386, R609, R673). -/
def Dev.fullReset (d : Dev) : Dev :=
  let cause := d.nextCause
  let n := d.powerOn
  let kept := Reg.SPN_PFSTAT.info.flds ++ Reg.HLT_REPL.info.flds
  let n := (kept.foldl (fun n f => n.wr f 0 (d.rd f 0)) n).setCause cause
  { n with hlt := { n.hlt with trig := d.hlt.trig }, svc := { n.svc with offTill := 12500000 } }

/-- The full reset acts once it is due (R651). -/
def Dev.fullResetNow (d : Dev) : Dev := if d.resetDue 2 then d.fullReset else d

/-- A watchdog expires once its count is over; the second expiry in a row takes its action (R626). -/
def Dev.watchdogExpiry (d : Dev) (c : Nat) : Dev :=
  if !d.on .FLT_WDCTL_EN c || d.wdRemain c != 0 then d
  else
    let d := d.wdExpire c
    if 2 ≤ Tab.getD d.flt.wdStreak c 0 ∧ d.on .FLT_WDCTL_ACT c then d.resetRequest 1 3 else d

end Sys2Proof.Machine
end

