-- ==== Sys2Proof/Machine/PowerFail.lean ====
section
/-! DEFINITION. The power-fail sequence (R375-R378, R617, R641): the jobs that go on to the end of their atomic units, the
retracts, the flush of the event recorder, and the end of the sequence. -/

namespace Sys2Proof.Machine

/-! ### The flush (R641) -/

/-- Lists of at most eight. -/
def chunks8 : Nat → List Nat → List (List Nat)
  | 0, _ => []
  | _, [] => []
  | n + 1, l => l.take 8 :: chunks8 n (l.drop 8)

/-- More than 23 unflushed records: the newest 23 stay, and one LOST record takes the place of the rest. -/
def Dev.flushTrim (d : Dev) : Dev :=
  let all := d.evt.closed.flatten
  let n := all.length - 23
  if n = 0 then d
  else
    let i := d.evt.wr
    let d := ({ d with evt := { d.evt with page := [], closed := [], lost := d.evt.lost + n } }.storeLost).count .EVT_CNT_LOST 0 n
    { d with evt := { d.evt with page := [], closed := chunks8 8 (i :: all.drop n) } }

/-- Pages are programmed, one for each attempt and its result, where the log is on (R635). -/
def Dev.flushPages (d : Dev) (oks : List Bool) : Dev :=
  if !d.handed || !d.on .EVT_CTL_NORLOG then d else oks.foldl Dev.programPage d

/-! ### Entry (R375, R377) -/

/-- The actuators with a started unit. -/
def unitActs (t : Tab PfUnit) : List Nat := (List.range 4).filter fun a => !(unitsOfAct t a).isEmpty

/-- Power failure is detected, on the pin or on the bus samples. -/
def Dev.powerFail (d : Dev) (pin : Bool) (oks : List Bool) : Dev :=
  if d.rd .SPN_STAT_STATE == 0 || d.spn.running || !(pin || decide (2 ≤ d.spn.pfLow)) then d
  else
    let units := d.unitsNow
    let acts := unitActs units
    let spn := { d.spn with running := true, pfAt := d.now, pfUnits := units, pfBusy := acts, pfVmin := false, pfRecs := false }
    let d := { d with hif := { d.hif with log := { d.hif.log with pfails := d.hif.log.pfails + 1 } } }
    let d := (({ d with spn := spn }.spnState 7).stick .SPN_STAT_PFAIL).resetReg .SPN_PFSTAT 0
    let d := (((d.wr .SPN_PFSTAT_UNIT 0 (maskOf ((List.range 4).map acts.contains))).raise 23 0 (d.word .SPN_STAT)).rackAlert 1).schHalt
    let d := d.stopAtUnits fun _ => true
    let idle := (List.range 4).filter fun a => d.actDeclared a && !acts.contains a
    let d := idle.foldl (fun d a => (d.retract a).wrBit .SPN_PFSTAT_DONE 0 a true) d
    let d := (d.closePage.flushTrim).wr .EVT_STAT_PFFLUSH 0 1
    ({ d with evt := { d.evt with pfStep := 1 } }).flushPages oks

/-! ### Steps 3 and 4 -/

/-- Step 3 of an actuator ends: its job ends, and the retract starts. -/
def Dev.pfStepEnd (d : Dev) (a : Nat) : Dev :=
  let slots := ((d.spn.pfUnits.filter fun e => actOfSlot e.1 == a).map Prod.fst)
  let d := { d with spn := { d.spn with pfBusy := d.spn.pfBusy.filter (· != a) } }
  let d := slots.foldl (fun d s => d.abandon s 1) d
  (d.wrBit .SPN_PFSTAT_DONE 0 a true).retract a

/-- A unit has had its last verify record: it has passed in full, or its job has ended and no record is to come. -/
def Dev.pfUnitOver (d : Dev) (u : PfUnit) : Bool :=
  u.whole || (!d.seqBusy u.slot && !((d.wslot u.slot).emits.any fun e => e.job.fseq == u.fseq))

/-- The actuators whose units are over end step 3. -/
def Dev.pfUpdate (d : Dev) : Dev :=
  if !d.spn.running || d.spn.pfVmin then d
  else (d.spn.pfBusy.filter fun a => (unitsOfAct d.spn.pfUnits a).all d.pfUnitOver).foldl Dev.pfStepEnd d

/-- HOLD ms, at least 2, have passed since the entry (R377). -/
def Dev.holdOver (d : Dev) : Bool := decide (d.spn.pfAt + max 2 (d.rd .SPN_PFCFG_HOLD) * 1250000 ≤ d.now)

def Dev.holdEnd (d : Dev) : Dev := if !d.spn.running || d.spn.pfVmin || !d.holdOver then d else d.spn.pfBusy.foldl Dev.pfStepEnd d

/-- The next record of the input queue, as often as the queue is long. -/
def Dev.storeAll (d : Dev) : Dev := (List.range d.evt.queue.length).foldl (fun d _ => d.eventStore) d

/-- PFUNIT and PFSUM are formed and their page is programmed, once every step 2 or 3 has ended or 6 ms have passed. -/
def Dev.unitRecords (d : Dev) (oks : List Bool) : Dev :=
  if !d.spn.running || d.spn.pfRecs || d.spn.pfVmin || !(decide (d.spn.pfAt + 7500000 ≤ d.now) || d.spn.pfBusy.isEmpty) then d
  else
    let d := (List.range 4).foldl (fun d a => d.unitRecord a (unitsOfAct d.spn.pfUnits a) true) d
    let d := (d.event 0x500 0 (d.word .SPN_PFSTAT) 0 0).storeAll.closePage
    let d := { d with spn := { d.spn with pfRecs := true }, evt := { d.evt with pfStep := 2 } }
    (d.flushPages oks).wr .EVT_STAT_PFFLUSH 0 0

/-! ### The bus below VMIN, and the end -/

/-- A retract stops where it is: the VCM is no longer driven. -/
def Dev.stopRetract (d : Dev) (a : Nat) : Dev :=
  if !(d.act a).retract then d else (d.setAct a { d.act a with retract := false }).wr .SRV_VCMOUT_DAC a 0

/-- The latest valid sample of the bus voltage lies below VMIN. -/
def Dev.busLow (d : Dev) : Bool :=
  let c := d.rd .SPN_MOTOR_VBUS
  d.on .MAC_CHDATA_VALID c && decide (signed 16 (d.rd .MAC_CHDATA_DATA c) < (d.rd .SPN_PFAIL_VMIN : Int))

/-- The bus falls below VMIN: every writer goes idle and every unfinished step stops (R378). -/
def Dev.belowVmin (d : Dev) : Dev :=
  if !d.spn.running || d.spn.pfVmin || !d.busLow then d
  else
    let d := (List.range 32).foldl (fun d s => (d.goIdle s).idleWriter s) d
    let d := { d with spn := { d.spn with pfVmin := true, pfBusy := [] } }
    (((List.range 4).foldl Dev.stopRetract (d.abandonAll 1))).wr .EVT_STAT_PFFLUSH 0 0

/-- Every step has ended. -/
def Dev.pfOver (d : Dev) : Bool :=
  d.spn.running && d.spn.pfBusy.isEmpty && (d.spn.pfVmin || d.spn.pfRecs) && !((List.range 4).any fun a => (d.act a).retract)

/-- The sequence ends: the time it took, the brake or the coast, and the reactions that waited, in raise order (R377, R617). -/
def Dev.pfEnd (d : Dev) : Dev :=
  if !d.pfOver then d
  else
    let d := d.wr .SPN_PFSTAT_ELAPSED 0 (min 65535 ((d.now - d.spn.pfAt) / 12500))
    let d := if d.spn.pfRecs then d else d.event 0x500 0 (d.word .SPN_PFSTAT) 0 0
    let late := d.flt.deferred
    let d := { d with spn := { d.spn with running := false, pfLow := 0, pfUnits := [] }, flt := { d.flt with deferred := [] } }
    let d := { d with evt := { d.evt with pfStep := 0 } }
    let d := d.spnState (if d.on .SPN_PFCFG_BRAKE then 6 else 5)
    late.foldl (fun d e => d.react e.1 e.2) d

end Sys2Proof.Machine
end

