-- ==== Sys2Proof/Machine/Digest.lean ====
section
/-! DEFINITION. The State Digest (R464, R465), its fault and health summaries (R611, R645), and its short form (R674). -/

namespace Sys2Proof.Machine

/-- One value of a section: its offset in the digest, its bytes, and what counts towards GEN, which device times and measured
values do not (R465). -/
structure DigItem where
  (off n v : Nat)
  key : Option Nat

/-- Fields that hold a device time or a measured value. -/
def measuredFld (f : Fld) : Bool :=
  [Fld.SPN_MEAS_SPEED, .SRV_VPOS_POS, .ARM_STAT_TEMP, .HLT_TEMP_MAX, .HLT_TEMP_MIN, .HLT_AVSSTAT_WSLACK, .HLT_POH_HOURS,
   .FLT_WDSTAT_REMAIN].contains f

/-- A register's word, of which the measured fields do not count. -/
def Dev.digReg (d : Dev) (off : Nat) (r : Reg) (i : Nat) : DigItem :=
  { off := off, n := 4, v := d.word r i, key := some (composeWord (r.info.flds.filter fun f => !measuredFld f) fun f => d.fldNow f i) }

/-- A value that counts, and one that does not. -/
def digVal (off n v : Nat) : DigItem := { off := off, n := n, v := v, key := some v }
def digMeas (off n v : Nat) : DigItem := { off := off, n := n, v := v, key := none }

/-- Registers side by side, four bytes each. -/
def Dev.digRow (d : Dev) (off : Nat) (rs : List Reg) (i : Nat) : List DigItem :=
  rs.zipIdx.map fun p => d.digReg (off + 4 * p.2) p.1 i

/-! ### The sections -/

def Dev.digDevice (d : Dev) : List DigItem :=
  d.digRow 0x100 [.SYS_STAT, .ANG_STAT, .ANG_REFSTAT, .SPN_STAT, .SPN_MEAS, .SPN_PFSTAT] 0 ++
    ((d.logReplace.take 24).zipIdx.map fun p => digVal (0x118 + p.2) 1 p.1.toNat)

def Dev.digActs (d : Dev) : List DigItem :=
  (List.range 4).flatMap fun a => d.digRow (0x200 + 64 * a) [.SRV_STAT, .SRV_VPOS, .SRV_VTGT, .ARM_STAT, .WRF_GSTAT] a

def Dev.digHeads (d : Dev) : List DigItem := (List.range 128).map fun h => d.digReg (0x300 + 4 * h) .SRV_HSTAT h

def Dev.digLanes (d : Dev) : List DigItem := (List.range 64).map fun n => d.digReg (0x500 + 4 * n) .LANE_STAT n

def Dev.digBank (d : Dev) : List DigItem :=
  d.digRow 0x600 [.ITB_STAT, .ITB_POOLLVL, .ITB_FAILCNT, .ITB_FAILCNT2] 0 ++
    (List.range 48).map fun e => d.digReg (0x640 + 4 * e) .ITB_ENGSTAT e

def Dev.digSeqs (d : Dev) : List DigItem := (List.range 32).flatMap fun s => d.digRow (0x700 + 8 * s) [.FSQ_STAT, .FSQ_ENTRY] s

def Dev.digEngines (d : Dev) : List DigItem :=
  (List.range 12).flatMap fun e => d.digRow (0x800 + 16 * e) [.VE_ESTAT, .VE_EPC, .VE_ETRIG, .VE_EQSTAT] e

/-- CSTS of a port, as the host reads it. -/
def Dev.csts (d : Dev) (p : Nat) : Nat :=
  d.fldNow .HIF_NVMSTAT_RDY p + 2 * d.fldNow .HIF_NVMSTAT_CFS p + 4 * d.fldNow .HIF_NVMSTAT_SHST p

/-- The entry of queue pair `q`: head, tail, commands in flight, existence, priority and phase. -/
def Port.digQueue (x : Port) (q : Nat) : Nat :=
  let s := Tab.look x.sqs q
  let c := Tab.look x.cqs q
  ((s.map Sq.head).getD 0) % 65536 + ((c.map Cq.tail).getD 0) % 65536 * 2 ^ 16 + ((s.map Sq.inflight).getD 0) % 65536 * 2 ^ 32 +
    bnat s.isSome * 2 ^ 48 + bnat c.isSome * 2 ^ 49 + ((s.map Sq.prio).getD 0) % 4 * 2 ^ 50 + bnat ((c.map Cq.phase).getD false) * 2 ^ 52

def Dev.digHost (d : Dev) : List DigItem :=
  [0, 1].flatMap fun p =>
    let x := d.port p
    let o := 0x900 + 2304 * p
    [digVal o 4 x.cc, digVal (o + 4) 4 (d.csts p), digVal (o + 8) 4 x.aqa, digVal (o + 12) 4 x.sqs.length,
     digVal (o + 16) 4 x.cqs.length, digVal (o + 20) 4 (d.hif.cmds.filter fun c => c.port == p).length] ++
      (List.range 257).map fun q => digVal (o + 64 + 8 * q) 8 (x.digQueue q)

def Dev.digNs (d : Dev) : List DigItem :=
  (List.range 16).flatMap fun k =>
    let n := d.nsEntry (k + 1)
    if !n.valid then []
    else
      let st := if n.csi = 2 then (List.range n.zones).map fun z => (d.hzone (n.firstz + z)).state else []
      let o := 0x1B00 + 32 * k
      [digVal o 8 n.nsze, digVal (o + 8) 8 (d.nuse n), digVal (o + 16) 4 (st.filter zoneOpen).length,
       digVal (o + 20) 4 (st.filter zoneActive).length, digVal (o + 24) 4 (st.filter (· == zReadOnly)).length]

def Dev.digFaults (d : Dev) : List DigItem :=
  d.digRow 0x1D00 [.FLT_STAT, .FLT_CFG, .FLT_PEND0, .FLT_PEND1, .FLT_LAST, .FLT_RAISES, .EVT_STAT, .EVT_SEQ, .EVT_CNT, .EVT_NORWP] 0 ++
    ((List.range 41).flatMap fun n =>
      let cfg := d.word .FLT_SRCCFG n % 2 ^ 16
      let st := d.word .FLT_SRCSTAT n % 2 ^ 16
      [digVal (0x1D40 + 8 * n) 2 cfg, digVal (0x1D42 + 8 * n) 2 st,
       digMeas (0x1D44 + 8 * n) 4 (Tab.getD d.flt.lastAt n 0)]) ++
    (List.range 8).flatMap fun c => d.digRow (0x1F40 + 8 * c) [.FLT_WDCTL, .FLT_WDSTAT] c

/-- The summary of a surface's written tracks (R611). -/
def Dev.digSurface (d : Dev) (ts : List (Nat × WsEntry)) (s : Nat) : List DigItem :=
  let l := (ts.filter fun p => p.1 / 1048576 == s).map Prod.snd
  let below (m : Nat) : Nat := (l.filter fun e => decide (e.margin < m)).length
  let zones := (d.tpe.zones.map d.zoneEnt).filter fun z => z.surf == s
  let o := 0x2040 + 32 * s
  [digVal o 4 l.length, digMeas (o + 4) 4 ((l.map WsEntry.margin).sum / max 1 l.length), digVal (o + 8) 4 (below (d.rd .HLT_MLIM_PATROL)),
   digVal (o + 12) 4 (below (d.rd .HLT_MLIM_REFRESH)), digVal (o + 16) 4 (l.filter WsEntry.refresh).length,
   digVal (o + 20) 4 (l.filter WsEntry.scrub).length, digVal (o + 24) 4 ((zones.map fun z => (d.spareCount z).2).sum)]

/-- The summary of a head (R611). -/
def Dev.digHead (d : Dev) (h : Nat) : List DigItem :=
  let o := 0x2440 + 16 * h
  [digMeas o 2 (Tab.getD d.hlt.margin h 0), digMeas (o + 2) 2 (Tab.getD d.hlt.magMean h 0),
   digMeas (o + 4) 4 ((Tab.look d.hlt.lastCal h).map Prod.fst |>.getD 0), digVal (o + 8) 4 (Tab.getD d.hlt.contacts h 0),
   digVal (o + 12) 4 (bnat (d.hlt.wctrim.contains h))]

def Dev.digHealth (d : Dev) : List DigItem :=
  let ts := (d.knownRecords.map fun i => (i, d.wsGet i)).filter fun p => p.2.written
  let last := (ts.map fun p => p.2.lastv).foldl (fun (m : Option Nat) v => some (min (m.getD v) v)) none
  d.digRow 0x2000 [.HLT_POH, .HLT_STAT, .HLT_AVSSTAT, .HLT_TEMP, .HLT_PROJ, .HLT_REPL] 0 ++
    [digMeas 0x2018 4 (last.getD 0), digVal 0x201C 4 (d.hlt.work.length + d.hlt.held.length), digVal 0x2020 4 d.hlt.intents.length,
     digVal 0x2024 4 d.hlt.ckpt] ++
    (List.range 32).flatMap (d.digSurface ts) ++ (List.range 128).flatMap d.digHead ++
    ((List.range 32).map fun k => digMeas (0x2C40 + 4 * k) 4 (Tab.getD d.hlt.slack k 0)) ++
    (d.hlt.history.take 16).zipIdx.flatMap fun e =>
      let o := 0x2CC0 + 8 * e.2
      [digMeas o 4 e.1.1, digMeas (o + 4) 2 e.1.2.1, digVal (o + 6) 2 e.1.2.2]

/-- Buffer indices of the newest `n` records, newest first. -/
def Dev.newest (d : Dev) (n : Nat) : List Nat :=
  (List.range (min n (d.rd .EVT_NEWEST_VALID))).map fun k => (d.rd .EVT_NEWEST_INDEX + 1024 - k) % 1024

/-- Recent events: a record counts once, by its SEQ. -/
def Dev.digEvents (d : Dev) : List DigItem :=
  (d.newest 128).zipIdx.flatMap fun p =>
    match Tab.look d.evt.buf p.1 with
    | none => []
    | some r => r.words.zipIdx.map fun w =>
      { off := 0x3000 + 32 * p.2 + 4 * w.2, n := 4, v := w.1, key := if w.2 = 1 then some w.1 else none }

/-- Section `k` of 1 to 12. -/
def Dev.section (d : Dev) (k : Nat) : List DigItem :=
  match k with
  | 1 => d.digDevice | 2 => d.digActs | 3 => d.digHeads | 4 => d.digLanes | 5 => d.digBank | 6 => d.digSeqs
  | 7 => d.digEngines | 8 => d.digHost | 9 => d.digNs | 10 => d.digFaults | 11 => d.digHealth | 12 => d.digEvents
  | _ => []

/-! ### GEN (R465) -/

/-- What counts of a section. -/
def Dev.keys (d : Dev) (k : Nat) : List Nat := (d.section k).filterMap DigItem.key

/-- The changes of a section since the previous digest: records that are new, or listed values that differ. -/
def changes (k : Nat) (was now : List Nat) : Nat :=
  if k = 12 then (now.filter fun v => !was.contains v).length
  else ((was.zip now).filter fun p => p.1 != p.2).length + (max was.length now.length - min was.length now.length)

/-- GEN of section `k` as a digest taken now reports it; the first digest finds no change. -/
def Dev.genNow (d : Dev) (k : Nat) : Nat :=
  let g := Tab.getD d.dig.gens k 0
  match Tab.look d.dig.prev k with
  | none => g
  | some was => (g + changes k was (d.keys k)) % 2 ^ 32

/-- The sections' numbers. -/
def sections : List Nat := (List.range 12).map (· + 1)

/-! ### The two forms -/

/-- The values of a full digest, as (offset, bytes, value). -/
def Dev.digest (d : Dev) : List (Nat × Nat × Nat) :=
  [(0, 4, 0x00010000), (4, 4, d.dig.count + 1), (8, 8, d.time), (16, 8, d.ang.val), (24, 4, d.rd .ANG_STAT_EPOCH),
   (28, 4, d.rd .HIF_FSEQ_NEXT), (32, 4, d.word .SYS_ID), (36, 4, d.word .SYS_STEP)] ++
    sections.flatMap (fun k => [(0x40 + 16 * (k - 1), 4, d.genNow k), (0x44 + 16 * (k - 1), 8, d.time)]) ++
    sections.flatMap fun k => (d.section k).map fun i => (i.off, i.n, i.v)

/-- A full digest is taken: DGEN and every GEN advance, and what it showed is kept for the next. -/
def Dev.digTaken (d : Dev) : Dev :=
  let gens := sections.map fun k => (k, d.genNow k)
  let prev := sections.map fun k => (k, d.keys k)
  { d with dig := { count := d.dig.count + 1, gens := gens, prev := prev } }

/-- The vendor command State Digest. -/
def Dev.stateDigest (d : Dev) : Dev :=
  d.adminRow 0xC2 fun d a => ((d.emit (.hostData a.port a.fseq 16384 d.digest)).digTaken.count .HIF_DIGCNT_DIGESTS).endOwn a 0 0 0

/-- Little-endian bytes. -/
def byteList (v n : Nat) : List Nat := leBytes v n

/-- The short form, 64 bytes (R674): it changes nothing. -/
def Dev.shortDigest (d : Dev) : List Nat :=
  byteList 0x00020000 4 ++ byteList d.dig.count 4 ++ byteList d.time 8 ++ (sections.flatMap fun k => byteList (d.genNow k % 65536) 2) ++
    byteList (d.word .FLT_STAT) 4 ++ byteList (d.word .HLT_REPL) 4 ++ byteList (d.word .SPN_MEAS) 4 ++
    byteList (d.word .HIF_INFLIGHT) 4 ++ [d.rd .SCH_STAT_STATE, d.rd .ANG_STAT_EPOCH % 256, d.rd .CFG_STAT_STATE, 0, 0, 0, 0, 0]

end Sys2Proof.Machine
end

