-- ==== Sys2Proof/Machine/Nor.lean ====
section
/-! DEFINITION. CFG's registers after handover: the NOR access registers (R676) and the end of the restore (R669-R671); and how
a write of DMA_CCTL starts, stops and resumes a channel (R537, R539). -/

namespace Sys2Proof.Machine

/-! ### NOR access (R676) -/

/-- The bytes a command covers: an erase acts on the whole sector or block that holds its address. -/
def norSpan (op addr len : Nat) : Nat × Nat :=
  if op = 2 then (addr / 4096 * 4096, 4096) else if op = 3 then (addr / 65536 * 65536, 65536) else (addr, len)

/-- After handover the log area is refused. -/
def Dev.norBarred (d : Dev) (a n : Nat) : Bool :=
  let base := d.rd .EVT_NORBASE_VALUE * 4096
  d.handed && decide (a < base + d.logSize) && decide (base < a + n)

/-- The buffer of a command lies in DRAM or table SRAM. -/
def Dev.norBuffer (d : Dev) (a n : Nat) : Bool := d.rangeExists a n && (arrayOf a == 0 || arrayOf a == 5)

/-- What a command sends to the NOR as it starts. -/
def Dev.norSend (d : Dev) (op a n buf : Nat) : Dev :=
  match op with
  | 1 => d.emit (.norWrite a (d.ldBytes buf n))
  | 2 => d.emit (.norErase a n)
  | 3 => d.emit (.norErase a n)
  | _ => d

/-- A write of CFG_NORCMD. A write while a command runs is ignored; without GO it only changes OP and LEN. -/
def Dev.norCommand (d : Dev) (w : Nat) : Dev :=
  if d.cfg.nor.isSome then d
  else
    let d := (d.wr .CFG_NORCMD_OP 0 (bits w 28 3)).wr .CFG_NORCMD_LEN 0 (bits w 0 24)
    if !bit w 31 then d
    else
      let op := bits w 28 3
      let (a, n) := norSpan op (d.rd .CFG_NORADDR_ADDR) (bits w 0 24)
      let buf := d.rd .CFG_NORBUFLO_ADDR + d.rd .CFG_NORBUFHI_ADDR * 2 ^ 32
      if 4 ≤ op then d.stick .CFG_NORSTAT_ERR
      else if d.norBarred a n then d.stick .CFG_NORSTAT_PROT
      else if op < 2 ∧ !d.norBuffer buf n then d.stick .CFG_NORSTAT_ERR
      else { (d.norSend op a n buf) with cfg := { d.cfg with nor := some { op := op, addr := a, buf := buf, len := n } } }

/-- The command ends: READ has brought `data` from the NOR; a failure sets ERR. -/
def Dev.norEnd (d : Dev) (ok : Bool) (data : List Byte) : Dev :=
  match d.cfg.nor with
  | none => d
  | some c =>
    let d := { d with cfg := { d.cfg with nor := none } }
    if !ok then d.stick .CFG_NORSTAT_ERR
    else (if c.op = 0 then d.mputBytes c.buf (data.take c.len) else d).stick .CFG_NORSTAT_DONE

/-! ### The restore (R671) -/

/-- Sources strictly rising: sorted, none repeated (R234). -/
def mapSorted : List MapEntry → Bool
  | e :: f :: l => decide (e.key < f.key) && mapSorted (f :: l)
  | _ => true

/-- Tracks whose bit is set in the defect bitmap, from the bytes of table SRAM that are not 0 (R235). -/
def Dev.bitmapTracks (d : Dev) : List Nat :=
  let a := tableSram + d.rd .TPE_DEFBMP_BASE * 2 ^ 16
  (d.mem.filter fun c => decide (a ≤ c.1) && decide (c.1 < a + 2 ^ 22)).flatMap fun c =>
    ((List.range 8).filter fun k => c.2.toNat.testBit k).map fun k => (c.1 - a) * 8 + k

/-- The bitmap has exactly the tracks of the map's sources. -/
def Dev.bitmapAgrees (d : Dev) (l : List MapEntry) : Bool :=
  let set := d.bitmapTracks
  let src := l.map fun e => ledgerIndex e.surf e.track
  set.all src.contains && src.all set.contains

/-- CFG_RESTORE.DONE is written 1, after handover. -/
def Dev.restoreDone (d : Dev) : Dev :=
  if !d.handed then d
  else
    let l := d.defectMap
    if mapSorted l && d.bitmapAgrees l then (d.wr .CFG_STAT_RESTORED 0 1).wr .HLT_STAT_READY 0 1
    else (d.stick .CFG_STAT_RESTERR).stick .TPE_STAT_MAPERR

/-! ### DMA channel control (R537, R539) -/

def Dev.dmaCh (d : Dev) (c : Nat) : DmaCh := Tab.getD d.dma.chans c {}
def Dev.setDmaCh (d : Dev) (c : Nat) (x : DmaCh) : Dev := { d with dma := { d.dma with chans := Tab.put d.dma.chans c x } }
def Dev.dmaState (d : Dev) (c : Nat) : Nat := d.rd .DMA_CSTAT_STATE c

/-- A channel whose pace source names nothing receives no pace event (R537). -/
def Dev.dmaUnpaced (d : Dev) (c : Nat) : Bool :=
  let p := d.rd .DMA_CCFG_PACE c
  let s := d.rd .DMA_CCFG_PSEL c
  (p == 1 && decide (24 ≤ s)) || (p == 2 && decide (16 ≤ s))

/-- STOP. -/
def Dev.dmaStop (d : Dev) (c : Nat) : Dev :=
  let st := d.dmaState c
  if st = 3 ∨ (st = 1 ∧ d.dmaUnpaced c ∧ (d.dmaCh c).moved = 0) then (d.wr .DMA_CSTAT_STATE c 0).stick .DMA_CSTAT_STOPPED c
  else if st = 1 then d.wr .DMA_CSTAT_STATE c 2
  else d.stick .DMA_CSTAT_CFGIGN c

/-- START by master `m`. -/
def Dev.dmaStart (d : Dev) (m c : Nat) : Dev :=
  if d.dmaState c = 0 ∧ !d.on .DMA_STAT_BERR ∧ d.on .DMA_CTL_ENABLE then
    let a := d.rd .DMA_CDESCLO_ADDR c * 32 + d.rd .DMA_CDESCHI_ADDR c * 2 ^ 32
    (d.setDmaCh c { desc := a, master := m }).wr .DMA_CSTAT_STATE c 1
  else d.stick .DMA_CSTAT_CFGIGN c

/-- RESUME: the channel goes on from the first byte not written (R540). -/
def Dev.dmaResume (d : Dev) (c : Nat) : Dev :=
  if d.dmaState c = 3 ∧ !d.on .DMA_STAT_BERR then d.wr .DMA_CSTAT_STATE c 1 else d.stick .DMA_CSTAT_CFGIGN c

/-- A write of DMA_CCTL: STOP acts alone. -/
def Dev.dmaCtl (d : Dev) (m c w : Nat) : Dev :=
  if bit w 1 then d.dmaStop c
  else
    let d := if bit w 0 then d.dmaStart m c else d
    if bit w 2 then d.dmaResume c else d

end Sys2Proof.Machine
end

