-- ==== Sys2Proof/Machine/Bus.lean ====
section
/-! DEFINITION. Writes of register space (02_register_conventions): the plain rules of the access codes (R14, R43, R44, R58), the
registers whose write acts, same-cycle writes (R60-R65), the masters admitted (R63, R664) and the host windows (R66-R71). -/

namespace Sys2Proof.Machine

/-! ### Plain writes -/

/-- The part of a written word that field `f` receives is not 0. -/
def Fld.got (f : Fld) (w : Nat) : Bool := f.slice w != 0

/-- A field of an IMMEDIATE register is written: RW takes the value, W1C clears the bits written 1, others ignore it (R14). -/
def Dev.fieldWrite (d : Dev) (i w : Nat) (f : Fld) : Dev :=
  match f.info.acc with
  | .rw => d.wr f i (f.slice w)
  | .w1c => d.wr f i (Nat.xor (d.rd f i) (Nat.land (d.rd f i) (f.slice w)))
  | _ => d

/-- A write of an IMMEDIATE register. -/
def Dev.plainWrite (d : Dev) (r : Reg) (i w : Nat) : Dev := r.info.flds.foldl (fun d f => d.fieldWrite i w f) d

/-- The buffered word of a WD register, or its applied value (R44, R45). -/
def Dev.wdBase (d : Dev) (r : Reg) (i : Nat) : Nat :=
  match d.bus.pend.find? fun p => p.reg == r && p.idx == i with
  | some p => p.word.toNat
  | none => d.word r i

/-- A write of a WD register is buffered; of one that is also RWM, only the bits whose mask bit is 1, and a write with an all-zero
mask changes nothing (R43, R44). -/
def Dev.wdWrite (d : Dev) (r : Reg) (i w : Nat) : Dev :=
  if r.info.flds.any fun f => f.info.acc == .rwmWd then
    let m := w / 65536 % 65536
    if m = 0 then d else
    let old := d.wdBase r i % 65536
    d.buffer r i (BitVec.ofNat 32 (Nat.land w m ||| (Nat.xor old (Nat.land old m))))
  else d.buffer r i (BitVec.ofNat 32 w)

/-- The LO half that register `r` commits (R58). -/
def Reg.loOf (r : Reg) : Option Reg :=
  [Reg.ANG_CMPTGTLO, .VE_MBOXLO, .VE_GLO, .HIF_HZTLO, .SCH_RQLO, .SCH_BUFLO, .MEM_FLIPADDRLO, .DMA_CDESCLO, .CHK_SWSRCLO,
   .CHK_SWSEEDLO, .CMP_SUBLO, .CMP_DIRLO, .CMP_MAPLO, .HLT_LEDGERLO, .HLT_RWLO, .CFG_NORBUFLO, .SVC_MADDRLO, .TPE_DEFLO].find?
    fun l => l.hiOf == some r

/-- A HI half is written: it commits the LO half its master has buffered (R58). -/
def Dev.commitHalves (d : Dev) (m : Nat) (lo hi : Reg) (i w : Nat) : Dev :=
  let v := d.loHalf m lo i
  ((d.dropLo m lo i).plainWrite lo i v).plainWrite hi i w

/-! ### Registers whose write acts -/

/-- The registers of the format that handover closes (R196). -/
def formatRegs : List Reg :=
  [.TPE_ZONEBASE, .TPE_ZONECNT, .TPE_LAYBASE, .TPE_LAYCNT, .TPE_DEFBMP, .TPE_DEFLO, .TPE_DEFHI, .TPE_DEFMAX]

/-- The other registers that are writable before handover only (R420, R511, R542, R571, R572, R610, R703 and their tables). -/
def imageRegs : List Reg :=
  [.HIF_PORTCFG, .HIF_CMDBASE, .HIF_NSTBASE, .HIF_HZTLO, .HIF_HZTHI, .HIF_ADMRBASE, .SCH_BUFLO, .SCH_BUFHI, .SCH_BUFCFG,
   .SCH_BUFINT, .MEM_DRCFG, .CHK_STBASE, .CMP_DIRLO, .CMP_DIRHI, .CMP_DIRCNT, .CMP_MAPLO, .CMP_MAPHI, .CMP_SLOTS, .HLT_LEDGERLO,
   .HLT_LEDGERHI, .HLT_WSBASE, .HLT_MIRROR, .HLT_WQBASE, .HLT_POH, .HLT_PLAN, .HLT_AVSSTAT, .EVT_SEQ, .EVT_NORBASE, .EVT_NORSIZE,
   .EVT_NORWP, .SVC_USBID, .RCK_CFG, .RCK_TOK]

/-- Registers of the software context that only its owner writes (R554). -/
def chkRegs : List Reg := [.CHK_SWCTL, .CHK_SWSRCLO, .CHK_SWSRCHI, .CHK_SWLEN, .CHK_SWSEEDLO, .CHK_SWSEEDHI]

/-- The configuration of a DMA channel, written in IDLE only (R539). -/
def dmaRegs : List Reg := [.DMA_CCFG, .DMA_CDESCLO, .DMA_CDESCHI]

/-- A write of SYS_BAR2CTL. -/
def Dev.bar2Ctl (d : Dev) (w : Nat) : Dev :=
  let d := (d.plainWrite .SYS_BAR2CTL 0 w)
  let d := if bit w 16 then d.lockBar2 0 1 else d
  if bit w 17 then d.lockBar2 1 1 else d

/-- A write of SYS_CONFLICT: VALID clears with COUNT. -/
def Dev.conflictClear (d : Dev) (w : Nat) : Dev :=
  if bit w 31 then (d.wr .SYS_CONFLICT_VALID 0 0).wr .SYS_CONFLICT_COUNT 0 0 else d

/-- A write of ANG_CTL (R84). -/
def Dev.angCtl (d : Dev) (w : Nat) : Dev :=
  let d := d.wrb .ANG_CTL_AUTO 0 (bit w 1)
  let d := if bit w 0 == d.on .ANG_CTL_ENABLE then d else d.abuEnable (bit w 0)
  if bit w 2 then d.abuReacquire else d

/-- A write of TPE_CTL: what waited for ENABLE goes on (R238). -/
def Dev.tpeCtl (d : Dev) (w : Nat) : Dev :=
  let d := (d.wrb .TPE_CTL_RECON 0 (bit w 1)).wrb .TPE_CTL_ENABLE 0 (bit w 0)
  d.reconFeed d.tpe.queue.length

/-- A write of VE_ECTL (R391, R408). -/
def Dev.veCtl (d : Dev) (e w : Nat) : Dev :=
  let d := d.wrb .VE_ECTL_ENABLE e (bit w 0)
  let d := if bit w 1 then d.veHalt e else d
  let d := if bit w 2 then d.veResume e else d
  if bit w 3 then d.veClrMchk e else d

/-- A write of MEM_L2MAINT: the line that a set and way hold is the cache's own (a free value, log 3). -/
def Dev.l2MaintWrite (d : Dev) (w : Nat) : Dev :=
  if !bit w 31 || bits w 29 2 == 0 then
    ((d.wr .MEM_L2MAINT_OP 0 (bits w 29 2)).wrb .MEM_L2MAINT_ALL 0 (bit w 28)).wr .MEM_L2MAINT_SET 0 (bits w 0 15)
      |>.wr .MEM_L2MAINT_WAY 0 (bits w 20 4)
  else
    let line := (d.fresh * 32768 + bits w 0 15) * 128 % 2 ^ 40
    d.used.l2Maint (bits w 29 2) (bit w 28) (bits w 0 15) (bits w 20 4) (some line)

/-- A write of MEM_L1CTL (R520). -/
def Dev.l1Ctl (d : Dev) (c w : Nat) : Dev :=
  let d := d.l1Enable c (bit w 0) (bit w 1)
  if bit w 4 then d.l1Invalidate c else d

/-- A write of MEM_DRCFG (R514). -/
def Dev.drCfg (d : Dev) (w : Nat) : Dev :=
  if bit w 16 then d.dramInit (bits w 8 5) (bits w 0 2) else (d.wr .MEM_DRCFG_RAW 0 (bits w 8 5)).wr .MEM_DRCFG_RATE 0 (bits w 0 2)

/-- A write of HIF_ADMDONE through the bus; the bytes of an image download are the host's (free values, log 3). -/
def Dev.admDoneWrite (d : Dev) (i : Nat) : Dev :=
  let n := d.ld32 (d.admAddr i + 104)
  let data := (List.range n).map fun k => BitVec.ofNat 8 (Config.freeValue (d.free + k))
  { d with free := d.free + n }.adminDone i data

/-- The service port's transfer is abandoned, its staged data with it (R684). -/
def Dev.svcAbandon (d : Dev) : Dev :=
  if d.svc.staged.isSome then ({ d with svc := { d.svc with staged := none } }).count .SVC_CNT_ABANDON else d

/-- The port is detached or loses VBUS: no address and no configuration, and state `st`. -/
def Dev.svcDown (d : Dev) (st : Nat) : Dev :=
  let d := d.svcAbandon
  let svc := { d.svc with addr := 0, conf := 0, back := 0, test := false, halts := [], told := none }
  ({ d with svc := svc }).wr .SVC_STAT_STATE 0 st

/-- The pull-up follows SVC_VBUS and SVC_CFG.MODE (R677): disconnected in mode 0, Attached as it connects; a reset holds it
disconnected for 10 ms (R685). -/
def Dev.svcConnect (d : Dev) : Dev :=
  if d.rd .SVC_STAT_STATE == 0 then
    if d.rd .SVC_CFG_MODE != 0 && d.svc.vbus && decide (d.svc.offTill ≤ d.now) then d.wr .SVC_STAT_STATE 0 1 else d
  else if d.rd .SVC_CFG_MODE == 0 then d.svcDown 0
  else d

/-- A write of register `r`, instance `i`, that is neither refused nor buffered. -/
def Dev.regEffect (d : Dev) (m : Nat) (r : Reg) (i w : Nat) : Dev :=
  match r with
  | .SYS_RSTCTL => d.rstCtl w
  | .SYS_CONFLICT => d.conflictClear w
  | .SYS_BAR2CTL => d.bar2Ctl w
  | .ANG_CTL => d.angCtl w
  | .ANG_REFCTL => d.refCtl w
  | .ANG_CMPCTL => d.compareArm i w
  | .LANE_CTL => d.laneCtl i w
  | .RDI_CTL => d.rdiCtl i w
  | .ITB_CTL => (d.wrb .ITB_CTL_NOBORROW 0 (bit w 1)).itbEnable (bit w 0)
  | .ITB_ENGCTL => d.engCtl i w
  | .TPE_CTL => d.tpeCtl w
  | .FSQ_CTL => d.fsqCtl i w
  | .FSQ_CSCTL => d.storeOpen i (bit w 0)
  | .VE_ETIMER => (d.plainWrite r i w).beginWait (.veTimer i)
  | .WRF_CTL => (d.plainWrite r i w).checkFences
  | .WRF_HWEN => (d.plainWrite r i w).checkFences
  | .SRV_CTL => d.servoCtl i w
  | .SRV_VCMCMD => d.vcmCommand i w
  | .SRV_MA => d.maWrite i w
  | .SRV_HCTL => d.headCtl i w
  | .ARM_CTL => d.armCtl i w
  | .ARM_REGCMD => d.afeAccess i w
  | .SPN_CTL => d.spnCtl w
  | .SPN_SPEED => d.speedTarget w
  | .SPN_MOTOR => d.motorConfig w
  | .MAC_CHCFG => d.macConfig i w
  | .VE_ECTL => d.veCtl i w
  | .VE_CSCTL => d.veStoreOpen i (bit w 0)
  | .HIF_ADMDONE => d.admDoneWrite (Fld.HIF_ADMDONE_INDEX.slice w)
  | .SCH_CTL => d.schCtl w
  | .MEM_L2CTL => if bit w 0 then d.l2Enable else d.l2Disable
  | .MEM_L2MAINT => d.l2MaintWrite w
  | .MEM_FLIPCTL => d.flipCtl w
  | .MEM_DRCFG => d.drCfg w
  | .MEM_L1CTL => d.l1Ctl i w
  | .DMA_CCTL => d.dmaCtl m i w
  | .CHK_SWOWN => if bit w 31 then d.chkClaim m else d.chkRelease m
  | .CHK_SWCTL => d.chkCompute m w
  | .HLT_WSCFG => if d.handed then d.wr .HLT_WSCFG_FLUSH 0 (Fld.HLT_WSCFG_FLUSH.slice w) else d.plainWrite r i w
  | .HLT_WQPTR => (d.plainWrite r i w).ringDrain d.hlt.held.length
  | .HLT_WQACK => d.workAck w
  | .FLT_CTL => d.fltCtl w
  | .FLT_CFG => d.fltConfig .cfg w
  | .FLT_TEMP => d.fltConfig .temp w
  | .FLT_SRCCFG => if h : i < 41 then d.fltConfig (.src ⟨i, h⟩) w else d
  | .FLT_PEND0 => d.ackWrite m false w
  | .FLT_PEND1 => d.ackWrite m true w
  | .FLT_FORCE0 => d.forceWrite false w
  | .FLT_FORCE1 => d.forceWrite true w
  | .FLT_WDCTL => d.wdCtl i w
  | .FLT_WDKICK => d.wdKick m i w
  | .EVT_CTL => d.evtCtl w
  | .EVT_SWCODE => d.swCode m w
  | .EVT_RLLIM => d.rateLimit i w
  | .EVT_RLDEF => d.rateDefault w
  | .CFG_RESTORE => if bit w 0 then d.restoreDone else d
  | .CFG_NORCMD => d.norCommand w
  | .SVC_CFG => (d.plainWrite r i w).svcConnect
  | .RCK_CTL => d.rckCtl w
  | _ => d.plainWrite r i w

/-- A HI half commits its quantity, or what the quantity starts (R58). -/
def Dev.hiWrite (d : Dev) (m : Nat) (lo hi : Reg) (i w : Nat) : Dev :=
  let v := d.loHalf m lo i
  match hi with
  | .VE_MBOXHI => (d.dropLo m lo i).mailbox i v w
  | .VE_GHI =>
    let v := Tab.getD d.bus.loBuf (holdKey m lo i) (((d.eng (i / 32)).reg (i % 32)) % 2 ^ 32)
    (d.dropLo m lo i).veRegWrite (i / 32) (i % 32) v w
  | .SCH_RQHI => (d.commitHalves m lo hi i w).resRequest m v w
  | .HLT_RWHI => (d.commitHalves m lo hi i w).rewriteRequest m v w
  | .CMP_SUBHI => (d.commitHalves m lo hi i w).cmpSubmit m (v / 32 * 32 + w % 256 * 2 ^ 32)
  | _ => d.commitHalves m lo hi i w

/-- A master's write of a register. -/
def Dev.regWrite (d : Dev) (m : Nat) (r : Reg) (i w : Nat) : Dev :=
  if formatRegs.contains r && d.handed then d.stick .TPE_STAT_WIGN
  else if imageRegs.contains r && d.handed then d
  else if chkRegs.contains r && !d.owns m then d.stick .CHK_STAT_CLAIMREF
  else if dmaRegs.contains r && d.dmaState i != 0 then d.stick .DMA_CSTAT_CFGIGN i
  else if r.hiOf.isSome || [Reg.EVT_SWDATA0, .EVT_SWDATA1, .EVT_SWDATA2].contains r then d.putLo m r i w
  else if r == .LNX_ROUTE then d.routeWrite i w false
  else if r == .ANG_GEOM && !(4 ≤ w % 32 && w % 32 ≤ 16) then d.stick .ANG_STAT_BADCFG
  else if r.info.app != .immediate then d.wdWrite r i w
  else match r.loOf with
    | some lo => d.hiWrite m lo r i w
    | none => d.regEffect m r i w

/-! ### Accesses -/

/-- Master `m` is admitted to register space: CFG alone before handover, every other after it; in NOIMAGE and DRAMFAIL the
service port (R63, R664, R665). -/
def Dev.admits (d : Dev) (m : Nat) : Bool :=
  if m = 24 then !d.handed && d.rd .CFG_STAT_STATE < 6
  else if d.handed then true
  else m == 1 && decide (6 ≤ d.rd .CFG_STAT_STATE)

/-- Register space of 16 MiB (R35). -/
def inRegs (a : Nat) : Bool := decide (regBase ≤ a) && decide (a < regBase + 2 ^ 24)

/-- A register access is 32 bits wide and aligned (R39). -/
def regAligned (a size : Nat) : Bool := size == 4 && a % 4 == 0

/-- A write to offset `o` of register space, by an admitted master. -/
def Dev.offsetWrite (d : Dev) (m o w : Nat) : Dev :=
  match targetOf m o with
  | .busError => d.emit (.busError m)
  | .reg r i => d.regWrite m r i w
  | _ => d

/-- An access that register space refuses: by its address, its size, its master, or an unassigned range (R39, R50, R63). -/
def Dev.busRefuses (d : Dev) (m a size : Nat) : Bool :=
  !inRegs a || !regAligned a size || !d.admits m || targetOf m (regOffset a) == .busError

/-- One master's write. -/
def Dev.busWrite (d : Dev) (m a size w : Nat) : Dev :=
  if d.busRefuses m a size then d.emit (.busError m) else d.offsetWrite m (regOffset a) (w % 2 ^ 32)

/-- One master's read. -/
def Dev.busRead (d : Dev) (m a size : Nat) : Dev :=
  if d.busRefuses m a size then d.emit (.busError m) else d.regRead m (regOffset a) true

/-! ### Same-cycle writes (R60, R61, R65) -/

/-- The register a write reaches; 32-bit locations only (R60). -/
def writeTarget (x : RegWrite) : Target := targetOf x.master.id (regOffset x.addr)

/-- Where an access stands among those of its master ID: the core's own first, then the channels it started, ascending (R40). -/
def accessTurn (x : RegWrite) : Nat := match x.chan with
  | none => 0
  | some c => c.val + 1

/-- Put an access into the first cycle that holds none of its master ID (R40). -/
def placeAccess : List (List RegWrite) → RegWrite → List (List RegWrite)
  | [], x => [[x]]
  | l :: ls, x => if l.any fun y => y.master == x.master then l :: placeAccess ls x else (l ++ [x]) :: ls

/-- The cycles that the accesses of one cycle take: at most one of each master ID in each (R40). -/
def busCycles (l : List RegWrite) : List (List RegWrite) :=
  (l.mergeSort fun x y => decide (accessTurn x ≤ accessTurn y)).foldl placeAccess []

/-- The banked registers are one location for every master. -/
def Target.location : Target → Target
  | .reg r i => .reg r (if banked.contains r then 0 else i)
  | t => t

/-- Another write of the same register outranks `x`: the lower master ID has the higher priority (R59). -/
def beatenBy (l : List RegWrite) (x : RegWrite) : Option RegWrite :=
  let rivals := l.filter fun y => (writeTarget y).location == (writeTarget x).location && y.master.id < x.master.id
  match writeTarget x with
  | .reg _ _ => rivals.foldl (fun b y => match b with
    | some z => if y.master.id < z.master.id then some y else some z
    | none => some y) none
  | _ => none

/-- The record of the dropped writes: the lowest-priority loser, and all of them in COUNT (R61, R65); one raise for the cycle, whose
instance is the lowest loser (R618). -/
def Dev.conflict (d : Dev) (lost : List (RegWrite × RegWrite)) : Dev :=
  match lost.foldl (fun (b : Option (RegWrite × RegWrite)) p => match b with
    | some q => if q.1.master.id < p.1.master.id then some p else some q
    | none => some p) none with
  | none => d
  | some (x, y) =>
    let d := ((d.wr .SYS_CONFLICT_VALID 0 1).wr .SYS_CONFLICT_LOSER 0 x.master.id).wr .SYS_CONFLICT_WINNER 0 y.master.id
    let d := (d.count .SYS_CONFLICT_COUNT 0 lost.length).wr .SYS_CONFLICT_ADDR_OFFSET 0 (regOffset x.addr)
    let first := (lost.map fun p => p.1.master.id).foldl min x.master.id
    d.raiseMany 32 first lost.length (d.word .SYS_CONFLICT) (d.word .SYS_CONFLICT_ADDR) 0 false

/-- The W1C fields of the registers that writes of one cycle reach. -/
def w1cFields (l : List RegWrite) : List (Fld × Nat) :=
  l.flatMap fun x => match writeTarget x with
    | .reg r i => (r.info.flds.filter fun f => f.info.acc == .w1c).map fun f => (f, i)
    | _ => []

/-- A bit that another write's effect sets in the cycle in which a write clears it ends set (R14). -/
def Dev.keepSets (d : Dev) (sets : List (Fld × Nat × Nat)) : Dev :=
  sets.foldl (fun d e => d.wr e.1 e.2.1 (d.rd e.1 e.2.1 ||| e.2.2)) d

/-- The writes that take effect in one cycle. -/
def Dev.takeWrites (d : Dev) (l : List RegWrite) : Dev :=
  let one (d : Dev) (x : RegWrite) : Dev := d.offsetWrite x.master.id (regOffset x.addr) x.data.toNat
  if l.length ≤ 1 then l.foldl one d
  else
    let fs := w1cFields l
    let step (p : Dev × List (Fld × Nat × Nat)) (x : RegWrite) : Dev × List (Fld × Nat × Nat) :=
      let e := one p.1 x
      (e, p.2 ++ fs.map fun f => (f.1, f.2, Nat.xor (e.rd f.1 f.2) (Nat.land (e.rd f.1 f.2) (p.1.rd f.1 f.2))))
    let r := l.foldl step (d, [])
    r.1.keepSets r.2

/-- The writes that reach register space in one cycle, one of each master ID: refused ones end in a bus error, and of those to one
register the highest-priority one takes effect. -/
def Dev.busCycle (d : Dev) (l : List RegWrite) : Dev :=
  let bad := l.filter fun x => d.busRefuses x.master.id x.addr 4
  let good := l.filter fun x => !d.busRefuses x.master.id x.addr 4
  let lost := good.filterMap fun x => (beatenBy good x).map fun y => (x, y)
  let won := (good.filter fun x => (beatenBy good x).isNone).mergeSort fun x y => decide (x.master.id ≤ y.master.id)
  let d := bad.foldl (fun d x => d.emit (.busError x.master.id)) d
  (d.takeWrites won).conflict lost

/-- The writes that would reach register space in one cycle: those of one master ID are taken one per cycle (R40). -/
def Dev.busWrites (d : Dev) (l : List RegWrite) : Dev :=
  match busCycles l with
  | [] => d
  | c :: cs => cs.foldl (fun d l => (d.elapse 1).busCycle l) (d.busCycle c)

/-- Reads and writes of one cycle: a read returns the value from before the write (R62). -/
def Dev.busAccesses (d : Dev) (l : List RegWrite) (reads : List RegRead) : Dev :=
  (reads.foldl (fun d x => d.busRead x.master.id x.addr 4) d).busWrites l

/-- The same, for the routes of LNX_ROUTE: a write of a lane that an SCH grant addresses in this cycle is refused, and the writes
take effect in the order of their lanes, so that of two which route one input the lower lane's stands (R111, R112). -/
def Dev.routeWrites (d : Dev) (l : List RouteWrite) (granted : List (Fin 64)) : Dev :=
  let ws := l.map fun x => ({ master := x.master, addr := regBase + 0x110100 + 4 * x.lane.val, data := x.data } : RegWrite)
  let lane (x : RegWrite) : Nat := regOffset x.addr % 0x100 / 4
  let cycle (d : Dev) (ws : List RegWrite) : Dev :=
    let ok := ws.filter fun x => d.admits x.master.id
    let lost := ok.filterMap fun x => (beatenBy ok x).map fun y => (x, y)
    let won := (ok.filter fun x => (beatenBy ok x).isNone).mergeSort fun x y => decide (lane x ≤ lane y)
    let d := (ws.filter fun x => !d.admits x.master.id).foldl (fun d x => d.emit (.busError x.master.id)) d
    (won.foldl (fun d x => d.routeWrite (lane x) x.data.toNat ((granted.map Fin.val).contains (lane x))) d).conflict lost
  match busCycles ws with
  | [] => d
  | c :: cs => cs.foldl (fun d l => cycle (d.elapse 1) l) (cycle d c)

/-! ### Slow-domain writes (R55) -/

/-- The slow-domain write in transit takes effect. -/
def Dev.slowCommit (d : Dev) : Dev :=
  match d.bus.slow with
  | none => d
  | some p => ({ d with bus := { d.bus with slow := none } }).plainWrite p.reg p.idx p.word.toNat

/-! ### The host windows (R66-R71) -/

/-- The sticky bit of a port's discarded writes. -/
def wdropFld (p : Nat) : Fld := if p = 0 then .SYS_BAR2CTL_WDROP0 else .SYS_BAR2CTL_WDROP1

/-- The windows that BAR2 never writes (R70). -/
def bar2Barred (o : Nat) : Bool := decide (o < 0x30000)

/-- A BAR2 write is discarded: while locked, to SYS, CFG or FLT, in another size, or to an unassigned range. -/
def Dev.bar2Discards (d : Dev) (p o size : Nat) : Bool :=
  !d.portExists p || (Tab.look d.bus.unlock p).isNone || bar2Barred o || !regAligned o size || !d.admits (22 + p) ||
    decide (2 ^ 24 ≤ o) || targetOf (22 + p) o == .busError

/-- A BAR2 write of a port, with what other masters write in the same cycle: WDROP of a discarded one ends set, whatever they clear
(R14). -/
def Dev.bar2Write (d : Dev) (p : Fin 2) (o size : Nat) (w : Word) (others : List RegWrite) : Dev :=
  if d.bar2Discards p.val o size then ((d.busWrites others).stick (wdropFld p.val)).event 0x302 p.val o w.toNat 0
  else d.busWrites ({ master := .bar2 p, addr := regBase + o, data := w } :: others)

/-- A BAR2 read: without side effects while the window is locked (R67, R68); one that is not a single aligned DWORD completes with
Unsupported Request, one of an unassigned range with Completer Abort (R71), as does one that comes before handover, when no master
but CFG is admitted (R63; the completion is DESIGN CHOICE, log 62). -/
def Dev.bar2Read (d : Dev) (p : Fin 2) (o size : Nat) : Dev :=
  let m := 22 + p.val
  if !d.portExists p.val || !regAligned o size || decide (2 ^ 24 ≤ o) then d.emit (.unsupported p.val)
  else if !d.admits m || targetOf m o == .busError then d.emit (.completerAbort p.val)
  else d.regRead m o (Tab.look d.bus.unlock p.val).isSome

end Sys2Proof.Machine
end

