-- ==== Sys2Proof/Machine/Micro.lean ====
section
/-! DEFINITION. The micro-ops of the vertical engines (11_vertical_engines): their fields (R394), the legality of a step (R393),
their arithmetic (R396, R397), memory windows (R399), the commit buffer (R404, R405), dispatch (R400, R402) and load returns.
A micro-op's command acts on the micro-op that the engine's control store holds at its place in the present step. -/

namespace Sys2Proof.Machine

/-! ### Fields (R394) -/

def uEnd (w : Nat) : Bool := bit w 31
def uOpc (w : Nat) : Nat := bits w 26 5
def uD (w : Nat) : Nat := bits w 21 5
def uA (w : Nat) : Nat := bits w 16 5
def uB (w : Nat) : Nat := bits w 11 5
def uFn (w : Nat) : Nat := bits w 6 5
def uSh (w : Nat) : Nat := bits w 0 6
def uImm (w : Nat) : Nat := bits w 0 16
def uCond (w : Nat) : Nat := bits w 18 3
def uTgt (w : Nat) : Nat := bits w 0 15

/-- The field A of the BR format, where the other formats have D. -/
def uBrA (w : Nat) : Nat := bits w 21 5

/-- IMM16 sign-extended to 48 bits. -/
def uSext (w : Nat) : Nat := unsigned 48 (signed 16 (uImm w))

/-! ### Legality (R393) -/

/-- A micro-op taken alone: no reserved opcode, FN or COND code, and no reserved field that is not 0. -/
def uLegal (w : Nat) : Bool :=
  match uOpc w with
  | 0x00 => bits w 0 26 == 0
  | 0x01 => decide (uFn w ≤ 18)
  | 0x0C => decide (uFn w ≤ 2)
  | 0x0D => uCond w != 7 && bits w 15 3 == 0
  | 0x0E => uCond w != 7 && bits w 15 3 == 0
  | 0x0F => uCond w != 7 && bits w 15 3 == 0 && uTgt w == 0
  | 0x10 => uD w == 0 && uImm w == 0
  | 0x11 => decide (uImm w ≤ 1)
  | 0x13 => decide (uImm w % 16 ≤ 3)
  | k => decide (k < 0x16)

/-- The register a micro-op writes. -/
def uWrites (w : Nat) : Option Nat :=
  let k := uOpc w
  if (1 ≤ k ∧ k ≤ 9) ∨ k = 0x0C ∨ k = 0x11 then some (uD w) else none

/-- The registers a micro-op reads. -/
def uReads (w : Nat) : List Nat :=
  match uOpc w with
  | 0x00 => []
  | 0x01 => if 8 ≤ uFn w ∧ uFn w ≤ 10 ∨ 17 ≤ uFn w then [uA w] else [uA w, uB w]
  | 0x0A => [uA w, uD w]
  | 0x0B => [uA w, uD w]
  | 0x0C => if uFn w = 2 then [uA w, uB w, uD w] else [uA w, uB w]
  | 0x0D => [uBrA w]
  | 0x0E => [uBrA w]
  | 0x0F => [uBrA w]
  | 0x11 => []
  | 0x14 => []
  | 0x15 => []
  | _ => [uA w]

/-- A memory micro-op, a load among them, one of EMIT, POST and COMMIT, and a control micro-op. -/
def uMem (w : Nat) : Bool := decide (8 ≤ uOpc w) && decide (uOpc w ≤ 0x0C)
def uLoad (w : Nat) : Bool := uOpc w == 8 || uOpc w == 9
def uRelease (w : Nat) : Bool := decide (0x12 ≤ uOpc w) && decide (uOpc w ≤ 0x14)
def uControl (w : Nat) : Bool := (decide (0x0D ≤ uOpc w) && decide (uOpc w ≤ 0x10)) || uOpc w == 0x15

/-- The micro-ops from word `pc` up to the first with END, at most `n`. -/
def Dev.stepWords (d : Dev) (e pc : Nat) : Nat → List Nat
  | 0 => []
  | n + 1 =>
    let w := d.ld32 (uopAddr e pc)
    if uEnd w then [w] else w :: d.stepWords e (pc + 1) n

/-- The step that begins at word `pc`. -/
def Dev.stepAt (d : Dev) (e pc : Nat) : List Nat := d.stepWords e pc 4

/-- A step is legal as it stands in the store. -/
def stepLegal (ws : List Nat) : Bool :=
  ws.all uLegal && (match ws.getLast? with | some w => uEnd w | none => false) && decide (ws.filterMap uWrites).Nodup &&
    decide ((ws.filter uMem).length ≤ 1) && decide ((ws.filter uRelease).length ≤ 1) && !(ws.dropLast.any uControl)

/-- COND for a 48-bit value (R397). -/
def condHolds (c v : Nat) : Bool :=
  let i := signed 48 v
  match c with
  | 0 => true
  | 1 => decide (i = 0)
  | 2 => decide (i ≠ 0)
  | 3 => decide (i < 0)
  | 4 => decide (0 ≤ i)
  | 5 => decide (0 < i)
  | _ => decide (i ≤ 0)

/-- A CALL that holds meets a full stack, or a RET that holds an empty one. -/
def Eng.stackBad (x : Eng) (w : Nat) : Bool :=
  condHolds (uCond w) (x.reg (uBrA w)) && ((uOpc w == 0x0E && decide (8 ≤ x.stack.length)) || (uOpc w == 0x0F && x.stack.isEmpty))

/-- A step waits: it reads a register whose load is outstanding, or would hold a fifth load outstanding (R392). -/
def Eng.stalls (x : Eng) (ws : List Nat) : Bool :=
  ((ws.flatMap uReads).any fun r => x.loads.any fun l => l.reg == r) || (ws.any uLoad && decide (4 ≤ x.loads.length))

/-! ### Running a micro-op (R392) -/

/-- A micro-op of engine `e` that `mine` recognises acts by `f`. As a step begins, its legality stands or ends the routine. -/
def Dev.uop (d : Dev) (e : Nat) (mine : Dev → Nat → Bool) (f : Dev → Nat → Dev) : Dev :=
  let x := d.eng e
  if d.veState e != 2 || x.run.isNone then d
  else
    let ws := d.stepAt e (d.rd .VE_EPC_PC e)
    if x.pos = 0 ∧ !stepLegal ws then d.veEnd e 7
    else if x.pos = 0 ∧ x.stalls ws then d
    else if x.pos = 0 ∧ ws.any x.stackBad then d.veEnd e 7
    else
      match ws[x.pos]? with
      | none => d
      | some w => if mine d w then f d w else d

/-- A register result of the present step. -/
def Dev.uResult (d : Dev) (e r v : Nat) : Dev :=
  let x := d.eng e
  d.setEng e { x with res := x.res ++ [(r, v % 2 ^ 48)] }

/-- The micro-op `w` has acted: at END the results take effect and the next step begins at `target`, or after this one. -/
def Dev.uNext (d : Dev) (e w : Nat) (target : Option Nat) : Dev :=
  let x := d.eng e
  if d.veState e != 2 || x.run.isNone then d
  else if !uEnd w then d.setEng e { x with pos := x.pos + 1 }
  else
    let x := x.res.foldl (fun (x : Eng) r => x.put r.1 r.2) x
    let pc := target.getD (d.rd .VE_EPC_PC e + x.pos + 1)
    (d.setEng e { x with pos := 0, res := [] }).wr .VE_EPC_PC e pc

/-- A micro-op whose whole effect is a register result, computed from the registers before the step. -/
def Dev.uCompute (d : Dev) (e w : Nat) (g : Eng → Nat) : Dev := (d.uResult e (uD w) (g (d.eng e))).uNext e w none

/-! ### Arithmetic (R396) -/

/-- Arithmetic right shift of a 48-bit value. -/
def sra48 (a n : Nat) : Nat := unsigned 48 (signed 48 a / (2 ^ n : Nat))

/-! A op B under each FN, 48 bits; the arguments are SH, A and B. -/

def fnAdd (_ a b : Nat) : Nat := (a + b) % 2 ^ 48
def fnSub (_ a b : Nat) : Nat := subMod 48 a b
def fnAnd (_ a b : Nat) : Nat := Nat.land a b
def fnOr (_ a b : Nat) : Nat := Nat.lor a b
def fnXor (_ a b : Nat) : Nat := Nat.xor a b
def fnShl (_ a b : Nat) : Nat := a * 2 ^ (b % 64) % 2 ^ 48
def fnShr (_ a b : Nat) : Nat := a / 2 ^ (b % 64)
def fnSra (_ a b : Nat) : Nat := sra48 a (b % 64)
def fnShli (sh a _ : Nat) : Nat := a * 2 ^ sh % 2 ^ 48
def fnShri (sh a _ : Nat) : Nat := a / 2 ^ sh
def fnSrai (sh a _ : Nat) : Nat := sra48 a sh
def fnSlt (_ a b : Nat) : Nat := bnat (decide (signed 48 a < signed 48 b))
def fnSltu (_ a b : Nat) : Nat := bnat (decide (a < b))
def fnMin (_ a b : Nat) : Nat := if signed 48 a ≤ signed 48 b then a else b
def fnMax (_ a b : Nat) : Nat := if signed 48 a ≤ signed 48 b then b else a
def fnMul (_ a b : Nat) : Nat := a * b % 2 ^ 48
def fnMulh (_ a b : Nat) : Nat := unsigned 48 (signed 48 a * signed 48 b / (2 ^ 48 : Nat))
def fnClz (_ a _ : Nat) : Nat := if a = 0 then 48 else 47 - Nat.log2 a
def fnPopc (_ a _ : Nat) : Nat := popcount a

/-- An ALU micro-op with FN `fn` (R395, R396). -/
def Dev.uAlu (d : Dev) (e fn : Nat) (g : Nat → Nat → Nat → Nat) : Dev :=
  d.uop e (fun _ w => uOpc w == 1 && uFn w == fn) fun d w =>
    d.uCompute e w fun x => g (uSh w) (x.reg (uA w)) (x.reg (uB w))

/-- An immediate micro-op: D from A and IMM16 (R395). -/
def Dev.uImmOp (d : Dev) (e opc : Nat) (g : Nat → Nat → Nat) : Dev :=
  d.uop e (fun _ w => uOpc w == opc) fun d w => d.uCompute e w fun x => g (x.reg (uA w)) w

def immAdd (a w : Nat) : Nat := (a + uSext w) % 2 ^ 48
def immAnd (a w : Nat) : Nat := Nat.land a (uImm w)
def immOr (a w : Nat) : Nat := Nat.lor a (uImm w)
def immXor (a w : Nat) : Nat := Nat.xor a (uImm w)
def immX (a w : Nat) : Nat := Nat.lor (a * 2 ^ 16 % 2 ^ 48) (uImm w)
def immSlt (a w : Nat) : Nat := bnat (decide (signed 48 a < signed 16 (uImm w)))

/-- NOP. -/
def Dev.uNop (d : Dev) (e : Nat) : Dev := d.uop e (fun _ w => uOpc w == 0) fun d w => d.uNext e w none

/-- ANGR: ANG, or device time (R395). -/
def Dev.uAngr (d : Dev) (e k : Nat) : Dev :=
  d.uop e (fun _ w => uOpc w == 0x11 && uImm w == k) fun d w =>
    d.uCompute e w fun _ => if k = 0 then d.ang.val else d.time

/-! ### Memory (R395, R399, R404) -/

/-- The internal address A + sext(IMM16), where bits [47:40] of the sum are 0. -/
def Eng.effective (x : Eng) (w : Nat) : Option Nat :=
  let a := immAdd (x.reg (uA w)) w
  if a < 2 ^ 40 then some a else none

/-- The window of an access of `n` bytes: 1 table SRAM, 2 DRAM, 3 register space; none outside them, misaligned, or of a size
the window does not take. -/
def Dev.veWindow (d : Dev) (a n : Nat) : Option Nat :=
  if a % n ≠ 0 then none
  else if arrayOf a = 5 then some 1
  else if arrayOf a = 0 ∧ d.memExists a then some 2
  else if inRegs a ∧ n = 4 then some 3
  else none

/-- The master ID of engine `e` (R59). -/
def veMaster (e : Nat) : Nat := 10 + e

/-- Memory overlaid with the routine's own buffered stores (R404). -/
def Dev.overlay (d : Dev) (l : List Buffered) : Dev :=
  l.foldl (fun (d : Dev) b => match b with | .store a v n => d.stN a v n | _ => d) d

/-- A load has been issued: its value is under way. -/
def Dev.uIssue (d : Dev) (e : Nat) (l : Load) : Dev :=
  let x := d.eng e
  d.setEng e { x with loads := x.loads ++ [l] }

/-- LDW and LDD: `n` bytes at the effective address. -/
def Dev.uLoadOp (d : Dev) (e opc n : Nat) : Dev :=
  d.uop e (fun _ w => uOpc w == opc) fun d w =>
    let x := d.eng e
    match x.effective w with
    | none => d.veEnd e 4
    | some a =>
      match d.veWindow a n with
      | none => d.veEnd e 4
      | some 3 =>
        if d.busRefuses (veMaster e) a 4 then d.veEnd e 5
        else
          let v := (d.readValue (veMaster e) (regOffset a)).getD 0
          ((d.readEffect (veMaster e) (regOffset a) true).uIssue e { reg := uD w, val := v, addr := 0, size := 0 }).uNext e w none
      | some _ =>
        let v := (d.overlay x.buffer).ldN a n % 2 ^ 48
        (d.uIssue e { reg := uD w, val := v, addr := a, size := n }).uNext e w none

/-- An effect of the commit buffer acts (R405); the flag tells of a bus error. -/
def Dev.veEffect (d : Dev) (e : Nat) (b : Buffered) : Dev × Bool :=
  match b with
  | .store a v n =>
    if inRegs a then
      if d.busRefuses (veMaster e) a n then (d, true) else (d.offsetWrite (veMaster e) (regOffset a) (v % 2 ^ 32), false)
    else (d.mstN a v n, false)
  | .emit o => (if 4 ≤ e then d.emitJob (d.ownerId (e - 4)) o else d, false)
  | .post 0 o => (d.hifPost o, false)
  | .post 1 o => (d.ucodeRecord (veMaster e) (tableSram + o), false)
  | .post 2 _ => (d.emit (.irq .VE e), false)
  | .post _ o => (d.resRelease (bits (d.ld32 (tableSram + o)) 0 17), false)

/-- The buffer is released in program order, and the routine is committed; a bus error then ends it (R405, R399). -/
def Dev.veCommit (d : Dev) (e : Nat) : Dev :=
  if d.on .VE_ESTAT_COMMITTED e then d
  else
    let x := d.eng e
    let d := (d.setEng e { x with buffer := [] }).wr .VE_ESTAT_COMMITTED e 1
    let r := x.buffer.foldl (fun (r : Dev × Bool) b => let q := r.1.veEffect e b; (q.1, r.2 || q.2)) (d, false)
    if r.2 then r.1.veEnd e 5 else r.1

/-- A store, EMIT or POST: buffered before COMMIT, and acting at once after it (R404, R405). -/
def Dev.veDo (d : Dev) (e : Nat) (b : Buffered) : Dev :=
  if d.on .VE_ESTAT_COMMITTED e then
    let r := d.veEffect e b
    if r.2 then r.1.veEnd e 5 else r.1
  else
    let x := d.eng e
    if 64 ≤ x.buffer.length then d.veEnd e 8 else d.setEng e { x with buffer := x.buffer ++ [b] }

/-- A register as a 64-bit word, bits [63:48] copies of bit 47. -/
def wide (v : Nat) : Nat := unsigned 64 (signed 48 v)

/-- STW and STD: `n` bytes of D at the effective address. -/
def Dev.uStoreOp (d : Dev) (e opc n : Nat) : Dev :=
  d.uop e (fun _ w => uOpc w == opc) fun d w =>
    let x := d.eng e
    match x.effective w with
    | none => d.veEnd e 4
    | some a =>
      match d.veWindow a n with
      | none => d.veEnd e 4
      | some _ => (d.veDo e (.store a (wide (x.reg (uD w)) % 2 ^ (8 * n)) n)).uNext e w none

/-- What an AMO makes of the old word `o`: 0 SWAP, 1 ADD, 2 CAS against the old D (R405). -/
def amoNew (fn o b dOld : Nat) : Nat :=
  match fn with
  | 0 => b
  | 1 => (o + b) % 2 ^ 64
  | _ => if o = dOld then b else o

/-- AMO: the routine commits, and the word of table SRAM at A is read and replaced (R395, R399, R405). -/
def Dev.uAmo (d : Dev) (e fn : Nat) : Dev :=
  d.uop e (fun _ w => uOpc w == 0x0C && uFn w == fn) fun d w =>
    let x := d.eng e
    let a := x.reg (uA w)
    let d := d.veCommit e
    if d.veState e != 2 then d
    else if a % 8 ≠ 0 ∨ arrayOf a ≠ 5 then d.veEnd e 4
    else
      let r := d.readCheck (veMaster e) a 8
      if !r.2 then r.1.veEnd e 2
      else
        let o := r.1.ldN a 8
        let n := amoNew fn o (wide (x.reg (uB w))) (wide (x.reg (uD w)))
        ((r.1.mstN a n 8).uResult e (uD w) (o % 2 ^ 48)).uNext e w none

/-- The data of the `i`th outstanding load returns; an error of its memory ends the routine (R392, R406, R528). -/
def Dev.loadReturn (d : Dev) (e i : Nat) (err : Option MemErr) : Dev :=
  let x := d.eng e
  match x.loads[i]? with
  | none => d
  | some l =>
    let d := d.setEng e { x with loads := x.loads.eraseIdx i }
    let r := if l.size = 0 then (d, true) else d.readMem (veMaster e) l.addr l.size err
    if r.2 then r.1.setEng e ((r.1.eng e).put l.reg l.val) else r.1.veEnd e 2

/-! ### Control (R395, R397) -/

/-- BR. -/
def Dev.uBranch (d : Dev) (e : Nat) : Dev :=
  d.uop e (fun _ w => uOpc w == 0x0D) fun d w =>
    d.uNext e w (if condHolds (uCond w) ((d.eng e).reg (uBrA w)) then some (uTgt w) else none)

/-- CALL: the next step's address is pushed. -/
def Dev.uCall (d : Dev) (e : Nat) : Dev :=
  d.uop e (fun _ w => uOpc w == 0x0E) fun d w =>
    let x := d.eng e
    if !condHolds (uCond w) (x.reg (uBrA w)) then d.uNext e w none
    else (d.setEng e { x with stack := (d.rd .VE_EPC_PC e + x.pos + 1) % 32768 :: x.stack }).uNext e w (some (uTgt w))

/-- RET. -/
def Dev.uReturn (d : Dev) (e : Nat) : Dev :=
  d.uop e (fun _ w => uOpc w == 0x0F) fun d w =>
    let x := d.eng e
    if !condHolds (uCond w) (x.reg (uBrA w)) then d.uNext e w none
    else (d.setEng e { x with stack := x.stack.tail }).uNext e w x.stack.head?

/-- JR. -/
def Dev.uJump (d : Dev) (e : Nat) : Dev :=
  d.uop e (fun _ w => uOpc w == 0x10) fun d w => d.uNext e w (some ((d.eng e).reg (uA w) % 32768))

/-! ### EMIT, POST, COMMIT and DONE -/

/-- EMIT. -/
def Dev.uEmit (d : Dev) (e : Nat) : Dev :=
  d.uop e (fun _ w => uOpc w == 0x12) fun d w => (d.veDo e (.emit ((d.eng e).reg (uA w)))).uNext e w none

/-- POST with the codes that `mine` takes. -/
def Dev.uPost (d : Dev) (e : Nat) (mine : Dev → Nat → Bool) : Dev :=
  d.uop e (fun d w => uOpc w == 0x13 && mine d w) fun d w =>
    (d.veDo e (.post (uImm w % 16) ((d.eng e).reg (uA w)))).uNext e w none

/-- A POST of a code other than 0. -/
def postIs (k : Nat) (_ : Dev) (w : Nat) : Bool := uImm w % 16 == k

/-- The OP of a POST to HIF, as the operand will stand when it acts (R459). -/
def Dev.postOp (d : Dev) (e w : Nat) : Nat :=
  bits ((d.overlay (d.eng e).buffer).ld32 (tableSram + (d.eng e).reg (uA w))) 28 4

/-- A POST to HIF whose OP `f` takes. -/
def hifIs (e : Nat) (f : Nat → Bool) (d : Dev) (w : Nat) : Bool := uImm w % 16 == 0 && f (d.postOp e w)

/-- COMMIT. -/
def Dev.uCommit (d : Dev) (e : Nat) : Dev :=
  d.uop e (fun _ w => uOpc w == 0x14) fun d w => (d.veCommit e).uNext e w none

/-- DONE: the routine ends, and a halt written after its COMMIT takes effect (R408). -/
def Dev.uDone (d : Dev) (e : Nat) : Dev :=
  d.uop e (fun _ w => uOpc w == 0x15) fun d _ =>
    let d := d.veCommit e
    if d.veState e != 2 then d
    else
      let x := d.eng e
      let y := x.res.foldl (fun (x : Eng) r => x.put r.1 r.2) x
      let y := { y with run := none, stack := [], pos := 0, res := [], noPre := false, halting := false }
      let d := (((d.setEng e y).wr .VE_ESTAT_COMMITTED e 0).count .VE_ECNT_ROUTINES e).wr .VE_ESTAT_STATE e (if x.halting then 3 else 1)
      if x.halting && decide (4 ≤ e) then (d.adoptWith (e - 4) none).checkCeAll else d

/-! ### Dispatch and parity -/

/-- The trigger that engine `e` dispatches next (R402, R418). -/
def Dev.nextTrigger (d : Dev) (e : Nat) : Option Trig :=
  let q := d.trigQueue e
  let ref := if (d.eng e).refNext then q.find? fun t => t.type == tRefsmp else none
  match ref with
  | some t => some t
  | none => [3, 2, 1, 0].findSome? fun p => q.find? fun t => t.prio == p

/-- What a dispatch loads into G27 to G31 (R400). -/
def Eng.loadTrigger (x : Eng) (t : Trig) : Eng :=
  let g27 := t.type % 32 + t.prio % 4 * 2 ^ 8 + t.src % 256 * 2 ^ 16 + t.restarts % 256 * 2 ^ 24
  ((((x.put 27 g27).put 28 (t.a0 % 2 ^ 32)).put 29 (t.a1 % 2 ^ 32)).put 30 (t.a2 % 2 ^ 32)).put 31 (t.a3 % 2 ^ 32)

/-- Dispatch of a trigger (R400, R402, R407). -/
def Dev.dispatchTrigger (d : Dev) (e : Nat) : Dev :=
  if d.veState e != 1 then d
  else
    match d.nextTrigger e with
    | none => d
    | some t =>
      let x := d.eng e
      let y := { x with queues := x.queues.erase t, run := some t, stack := [], pos := 0, res := [], buffer := [], refNext := false,
                        noPre := decide (d.rd .VE_ECFG_MAXRST e ≤ t.restarts) }.loadTrigger t
      let d := (d.setEng e { y with g0 := y.g }).wr .VE_ESTAT_STATE e 2
      ((d.wr .VE_ESTAT_COMMITTED e 0).wr .VE_EPC_PC e (t.type % 32 * 8)).beginWait (.routine e)

/-- A parity error on the fetch of micro-op `k` of the present step (R409). -/
def Dev.uopParity (d : Dev) (e k : Nat) : Dev :=
  if d.veState e != 2 then d
  else
    let a := (d.rd .VE_EPC_PC e + k) % 32768
    ((d.wr .VE_EPC_MCADDR e a).wr .VE_CSSTAT_BADADDR e a).veEnd e 9

end Sys2Proof.Machine
end

