-- ==== Sys2Proof/Machine/Dma.lean ====
section
/-! DEFINITION. What DMA channels move (R533-R540): descriptors and their check, blocks and pace events, the end of a
descriptor or pass, and the halt on a bus error; and the management cores' accesses to memory (R518-R522, R528). Data is read
and written in one command, so nothing is staged between commands. -/

namespace Sys2Proof.Machine

/-! ### Descriptors (R533, R534) -/

def DmaCh.word (x : DmaCh) (k : Nat) : Nat := x.words.getD k 0
def DmaCh.src (x : DmaCh) : Nat := x.word 0 + bits (x.word 1) 0 8 * 2 ^ 32
def DmaCh.dst (x : DmaCh) : Nat := x.word 2 + bits (x.word 3) 0 8 * 2 ^ 32
def DmaCh.fill (x : DmaCh) : Bool := bit (x.word 1) 9
def DmaCh.sfix (x : DmaCh) : Bool := bit (x.word 1) 8
def DmaCh.dfix (x : DmaCh) : Bool := bit (x.word 3) 8
def DmaCh.irq (x : DmaCh) : Bool := bit (x.word 4) 31
def DmaCh.last (x : DmaCh) : Bool := bit (x.word 4) 30
def DmaCh.next (x : DmaCh) : Nat := bits (x.word 5) 5 27 * 32 + bits (x.word 6) 0 8 * 2 ^ 32

/-- An address a descriptor may name: DRAM, table SRAM, core-local memory or register space. -/
def dmaReaches (a : Nat) : Bool := arrayOf a == 0 || arrayOf a == 5 || arrayOf a == 6 || inRegs a

/-- A side moves whole words: a fixed address, or register space. -/
def wordSide (fixed : Bool) (a : Nat) : Bool := fixed || inRegs a

/-- The descriptor fails its check (R534). -/
def DmaCh.bad (x : DmaCh) : Bool :=
  let n := x.len
  let unfit (fixed : Bool) (a : Nat) : Bool := wordSide fixed a && (a % 4 != 0 || n % 4 != 0)
  n == 0 || bits (x.word 1) 10 22 != 0 || bits (x.word 3) 9 23 != 0 || bits (x.word 4) 24 6 != 0 ||
    bits (x.word 5) 0 5 != 0 || bits (x.word 6) 8 24 != 0 || (!x.fill && !dmaReaches x.src) || !dmaReaches x.dst ||
    (x.fill && x.sfix) || (!x.fill && unfit x.sfix x.src) || unfit x.dfix x.dst

/-! ### Flags -/

/-- A status bit sets, and the DMA interrupt with its enable (R539). -/
def Dev.dmaFlag (d : Dev) (c : Nat) (f ie : Fld) : Dev :=
  let d := d.stick f c
  if d.on ie c then d.emit (.irq .DMA c) else d

/-- A bus error of channel `c`, at an address of its write or read side (R540): the first is recorded, and reads stop. -/
def Dev.dmaBusError (d : Dev) (c a : Nat) (write : Bool) : Dev :=
  let d := d.dmaFlag c .DMA_CSTAT_ERR .DMA_CCFG_IEERR
  if d.dma.failed then d
  else
    let d := { d with dma := { d.dma with failed := true } }
    let d := if d.on .DMA_STAT_BERR then d
      else
        let d := ((d.wr .DMA_STAT_BERR 0 1).wr .DMA_STAT_CHAN 0 c).wr .DMA_BERRLO_ADDR 0 a
        (d.wr .DMA_BERRHI_ADDR 0 (a / 2 ^ 32)).wrb .DMA_BERRHI_SIDE 0 write
    d.raiseMany 31 c 1 (d.word .DMA_BERRLO) (d.word .DMA_BERRHI) 0 false

/-- A channel in RUN or STOPPING while the engine runs and no bus error has stopped it. -/
def Dev.dmaRuns (d : Dev) (c : Nat) : Bool :=
  (d.dmaState c == 1 || d.dmaState c == 2) && !d.dma.failed && d.on .DMA_CTL_ENABLE

/-- A channel fetches its descriptor (R533, R534). -/
def Dev.dmaFetch (d : Dev) (c : Nat) : Dev :=
  let x := d.dmaCh c
  if !d.dmaRuns c || !x.words.isEmpty then d
  else if arrayOf x.desc ≠ 0 ∧ arrayOf x.desc ≠ 5 then d.dmaBusError c x.desc false
  else
    let r := d.readCheck reqDma x.desc 32
    if !r.2 then r.1.dmaBusError c x.desc false
    else
      let y : DmaCh := { x with words := (List.range 8).map fun (k : Nat) => r.1.ld32 (x.desc + 4 * k), moved := 0 }
      if y.bad then
        let d := ((r.1.stick .DMA_CSTAT_DESCERR c).dmaFlag c .DMA_CSTAT_ERR .DMA_CCFG_IEERR).wr .DMA_CSTAT_STATE c 0
        d.setDmaCh c { y with words := [] }
      else r.1.setDmaCh c y

/-! ### Moving data (R535-R537) -/

/-- CIRC mode. -/
def Dev.dmaCirc (d : Dev) (c : Nat) : Bool := d.rd .DMA_CCFG_MODE c == 1

/-- HALF or FULL falls: while the bit is still set it is an overrun (R538). -/
def Dev.dmaMark (d : Dev) (c : Nat) (f ie : Fld) : Dev :=
  if d.on f c then d.stick .DMA_CSTAT_OVERRUN c else d.dmaFlag c f ie

/-- Register space has taken an access: it takes one a cycle (R40, R535). -/
def Dev.accessCycle (d : Dev) : Dev := d.elapse 1

/-- A word of the source, or up to four bytes of it. -/
def Dev.dmaRead (d : Dev) (x : DmaCh) (n : Nat) : Dev × Option Nat :=
  if x.fill then (d, some (x.word 0))
  else
    let a := if x.sfix then x.src else x.src + x.moved
    if inRegs a then
      if d.busRefuses x.master a 4 then (d, none)
      else ((d.readEffect x.master (regOffset a) true).accessCycle, d.readValue x.master (regOffset a))
    else
      let r := d.readCheck reqDma a n
      (r.1, if r.2 then some (r.1.ldN a n) else none)

/-- The same bytes go to the destination; false: a bus error. -/
def Dev.dmaWrite (d : Dev) (x : DmaCh) (v n : Nat) : Dev × Bool :=
  let a := if x.dfix then x.dst else x.dst + x.moved
  if inRegs a then
    if d.busRefuses x.master a 4 then (d, false) else ((d.offsetWrite x.master (regOffset a) (v % 2 ^ 32)).accessCycle, true)
  else if d.rangeExists a n then (d.mstN a v n, true)
  else (d, false)

/-- Up to four bytes of the descriptor move. -/
def Dev.dmaUnit (d : Dev) (c : Nat) : Dev :=
  let x := d.dmaCh c
  if !d.dmaRuns c || x.words.isEmpty || x.left == 0 then d
  else
    let n := min 4 x.left
    match d.dmaRead x n with
    | (d, none) => d.dmaBusError c (if x.sfix then x.src else x.src + x.moved) false
    | (d, some v) =>
      match d.dmaWrite x v n with
      | (d, false) => d.dmaBusError c (if x.dfix then x.dst else x.dst + x.moved) true
      | (d, true) =>
        let y := { d.dmaCh c with moved := x.moved + n }
        let d := d.setDmaCh c y
        let half := x.len / 2
        if d.dmaCirc c && decide (x.moved < max 1 half) && decide (max 1 half ≤ y.moved) then
          d.dmaMark c .DMA_CSTAT_HALF .DMA_CCFG_IEHALF
        else d

/-- `n` units. -/
def Dev.dmaUnits (d : Dev) (c : Nat) : Nat → Dev
  | 0 => d
  | n + 1 => (d.dmaUnit c).dmaUnits c n

/-- `n` bytes of the descriptor move, or the rest of it; whole lines of DRAM lose their poison (R527). -/
def Dev.dmaMove (d : Dev) (c n : Nat) : Dev :=
  let x := d.dmaCh c
  let d := d.dmaUnits c ((n + 3) / 4)
  let y := d.dmaCh c
  let a := x.dst + x.moved
  let e := x.dst + y.moved
  if x.dfix then d
  else { d with memx := { d.memx with poison := d.memx.poison.filter fun l => !(decide (a ≤ l) && decide (l + 128 ≤ e)) } }

/-- One block: BLK words (R537). -/
def Dev.dmaBlock (d : Dev) (c : Nat) : Dev := d.dmaMove c (4 * max 1 (d.rd .DMA_CCFG_BLK c))

/-- A pace event of a channel has just fallen, after the latest it took (R537): an output of its MAC channel, the firing of its compare
unit, or a reference wedge strobe. -/
def Dev.dmaPaced (d : Dev) (c : Nat) : Bool :=
  let k := d.rd .DMA_CCFG_PSEL c
  let t := d.waitFrom (.pace c)
  match d.rd .DMA_CCFG_PACE c with
  | 1 => d.lately (d.chan k).outAt t
  | 2 => d.lately (Tab.look d.ang.cmpAt k) t
  | _ => d.strobeSince t

/-- A pace event of a channel that takes one: it moves a block, or waits behind a block in progress, or is dropped; or the
waiting one is served as that block ends (R537). -/
def Dev.dmaPace (d : Dev) (c : Nat) (when : PaceAt) : Dev :=
  let x := d.dmaCh c
  if !d.dmaRuns c || d.rd .DMA_CCFG_PACE c == 0 || d.dmaUnpaced c || (when != .served && !d.dmaPaced c) then d
  else
    match when with
    | .idle => (d.beginWait (.pace c)).dmaBlock c
    | .busy =>
      let d := d.beginWait (.pace c)
      if x.wait then d.stick .DMA_CSTAT_PACEOVR c else d.setDmaCh c { x with wait := true }
    | .served => if x.wait then (d.setDmaCh c { x with wait := false }).dmaBlock c else d

/-- A descriptor's bytes are all written: STATUS, DONE, and what comes next (R533, R538, R539). -/
def Dev.dmaFinish (d : Dev) (c : Nat) : Dev :=
  let x := d.dmaCh c
  let stopping := d.dmaState c == 2
  let d := d.mstN (x.desc + 28) 0x80000000 4
  let circ := d.dmaCirc c
  let d := if x.irq || (x.last && !circ) then d.dmaFlag c .DMA_CSTAT_DONE .DMA_CCFG_IEDONE else d
  let d := if circ then d.dmaMark c .DMA_CSTAT_FULL .DMA_CCFG_IEFULL else d
  if stopping then (d.stick .DMA_CSTAT_STOPPED c).wr .DMA_CSTAT_STATE c 0
  else if circ then d.setDmaCh c { x with moved := 0 }
  else if x.last then d.wr .DMA_CSTAT_STATE c 0
  else d.setDmaCh c { x with desc := x.next, words := [], moved := 0 }

/-- A descriptor or pass ends: a channel that is not paced moves the rest of it first (R538). -/
def Dev.dmaEnd (d : Dev) (c : Nat) : Dev :=
  if !d.dmaRuns c || (d.dmaCh c).words.isEmpty then d
  else
    let d := if d.rd .DMA_CCFG_PACE c = 0 then d.dmaMove c (d.dmaCh c).left else d
    if d.dmaRuns c && (d.dmaCh c).left == 0 then d.dmaFinish c else d

/-- An access of channel `c` ends in a bus error after `n` more bytes (R540). -/
def Dev.dmaFault (d : Dev) (c n : Nat) (write : Bool) : Dev :=
  if !d.dmaRuns c then d
  else
    let d := d.dmaMove c (min n (d.dmaCh c).left)
    let x := d.dmaCh c
    if !d.dmaRuns c then d
    else if x.words.isEmpty then d.dmaBusError c x.desc false
    else if write then d.dmaBusError c (if x.dfix then x.dst else x.dst + x.moved) true
    else d.dmaBusError c (if x.sfix then x.src else x.src + x.moved) false

/-- The halt completes (R540): what each channel had staged is written, and running channels halt. -/
def Dev.dmaHalt (d : Dev) (staged : List (Nat × Nat)) : Dev :=
  if !d.dma.failed then d
  else
    let one (d : Dev) (s : Nat × Nat) : Dev :=
      if d.dmaState s.1 = 1 ∨ d.dmaState s.1 = 2 then
        let was := d.on .DMA_CTL_ENABLE
        let d := ({ d with dma := { d.dma with failed := false } }).wr .DMA_CTL_ENABLE 0 1
        let d := d.dmaMove s.1 (min s.2 (d.dmaCh s.1).left)
        ({ d with dma := { d.dma with failed := true } }).wrb .DMA_CTL_ENABLE 0 was
      else d
    let d := staged.foldl one d
    let stop (d : Dev) (c : Nat) : Dev := if d.dmaState c = 1 ∨ d.dmaState c = 2 then d.wr .DMA_CSTAT_STATE c 3 else d
    let d := (List.range 64).foldl stop d
    { d with dma := { d.dma with failed := false } }

/-! ### The management cores (R519, R520, R528) -/

/-- The master ID of core `c`. -/
def coreMaster (c : Fin 8) : Nat := (Master.mc c).id

/-- A line of the core's L1 I cache, filled where it is not held. -/
def Dev.fetchLine (d : Dev) (c : Fin 8) (l : Nat) (err : Option MemErr) : Dev × Option (List Byte) :=
  let k := c.val * 2 ^ 40 + l
  let cached := d.on .MEM_L1CTL_IEN c.val && (arrayOf l == 0 || arrayOf l == 5)
  match if cached then Tab.look d.memx.icache k else none with
  | some bs => (d, some bs)
  | none =>
    let r := d.readMem (coreMaster c) l 64 err
    if !r.2 then (r.1, none)
    else
      let bs := r.1.ldBytes l 64
      (if cached then { r.1 with memx := { r.1.memx with icache := Tab.put r.1.memx.icache k bs } } else r.1, some bs)

/-- An instruction fetch of `n` bytes within a line; one from elsewhere than memory is an access fault. -/
def Dev.coreFetch (d : Dev) (c : Fin 8) (a n : Nat) (err : Option MemErr) : Dev :=
  if !d.memExists (l1Line a) then d.emit (.coreFault c.val 1)
  else
    match d.fetchLine c (l1Line a) err with
    | (d, none) => d.emit (.coreFault c.val 1)
    | (d, some bs) => d.emit (.data (coreMaster c) ((bs.drop (a % 64)).take n |>.foldr (fun b v => b.toNat + 256 * v) 0))

/-- The control store that holds an address: an actuator's or an engine's, by base and stride (R35). -/
def inStores (a : Nat) : Bool := decide (fsqStore ≤ a) && decide (a < 0x0006200000)

/-- An access outside memory, as it ends on the bus. -/
def Dev.coreWindow (d : Dev) (c : Fin 8) (a n : Nat) (w : Option Nat) : Dev :=
  let m : Master := .mc c
  if inStores a then
    if a < veStore then
      let k := (a - fsqStore) / 0x20000
      let o := (a - fsqStore) % 0x20000
      match w with | some v => d.fsqStoreWrite m k o n v | none => d.fsqStoreRead m k o n false
    else
      let k := (a - veStore) / 0x20000
      let o := (a - veStore) % 0x20000
      match w with | some v => d.veStoreWrite m k o n v | none => d.veStoreRead m k o n false
  else match w with
    | some v => d.busWrite m.id a n v
    | none => d.busRead m.id a n

/-- The access ended in a bus error. -/
def Dev.refused (d : Dev) (c : Fin 8) : Bool := d.out.contains (.busError (coreMaster c))

/-- A load of `n` bytes (R528). -/
def Dev.coreLoad (d : Dev) (c : Fin 8) (a n : Nat) (err : Option MemErr) : Dev :=
  if arrayOf a = 7 then
    let e := d.coreWindow c a n none
    if e.refused c then e.emit (.coreFault c.val 5) else e
  else
    let r := d.readMem (coreMaster c) a n err
    if r.2 then r.1.emit (.data (coreMaster c) (r.1.ldN a n)) else r.1.emit (.coreFault c.val 5)

/-- A store that ended in a bus error: MEM_BERR and local interrupt 16 (R528). -/
def Dev.coreStoreError (d : Dev) (c : Fin 8) (a : Nat) : Dev :=
  let d := ((d.stick .MEM_STAT_BERR).wr .MEM_BERRLO_ADDR 0 a).wr .MEM_BERRHI_ADDR 0 (a / 2 ^ 32)
  (d.wr .MEM_BERRHI_MASTER 0 (coreMaster c)).emit (.coreIrq c.val 16)

/-- A store of `n` bytes (R528). -/
def Dev.coreStore (d : Dev) (c : Fin 8) (a n v : Nat) : Dev :=
  if arrayOf a = 7 then
    let e := d.coreWindow c a n (some v)
    if e.refused c then e.coreStoreError c a else e
  else if d.rangeExists a n then d.mstN a v n
  else d.coreStoreError c a

/-- What an atomic memory operation of `n` bytes makes of the old value (the RISC-V A extension, PRESUMED, log 6). -/
def amoResult (op : CoreAmo) (n o v : Nat) : Nat :=
  let w := 8 * n
  match op with
  | .swap => v
  | .add => (o + v) % 2 ^ w
  | .xor => Nat.xor o v
  | .and => Nat.land o v
  | .or => Nat.lor o v
  | .min => if signed w o ≤ signed w v then o else v
  | .max => if signed w o ≤ signed w v then v else o
  | .minu => min o v
  | .maxu => max o v

/-- An atomic memory operation: one on no memory, or that meets a bus error, faults (R528). -/
def Dev.coreAmo (d : Dev) (c : Fin 8) (op : CoreAmo) (a n v : Nat) (err : Option MemErr) : Dev :=
  if arrayOf a = 7 then d.emit (.coreFault c.val 7)
  else
    let r := d.readMem (coreMaster c) a n err
    if !r.2 then r.1.emit (.coreFault c.val 7)
    else
      let o := r.1.ldN a n
      (r.1.mstN a (amoResult op n o (v % 2 ^ (8 * n))) n).emit (.data (coreMaster c) o)

/-- An access of core `c` to `2 ^ size` bytes. -/
def Dev.coreAccess (d : Dev) (c : Fin 8) (k : CoreAccess) (a size v : Nat) (err : Option MemErr) : Dev :=
  let n := 2 ^ size
  match k with
  | .fetch => d.coreFetch c a n err
  | .load => d.coreLoad c a n err
  | .store => d.coreStore c a n v
  | .amo op => d.coreAmo c op a n v err

end Sys2Proof.Machine
end

