-- ==== Sys2Proof/Machine/Startup.lean ====
section
/-! DEFINITION. Start-up (18_startup_and_recovery): the NOR directory and slot choice (R656, R657), the image's header and
sections (R658-R662), the checks (R663), the event-log scan, handover (R665), and the warm path (R667). -/

namespace Sys2Proof.Machine

/-! ### The NOR -/

/-- A byte of the NOR; what no run lists is erased. -/
def norByte (n : NorImage) (a : Nat) : Byte :=
  match n.runs.find? fun r => decide (r.1 ≤ a) && decide (a < r.1 + r.2.length) with
  | some r => r.2.getD (a - r.1) 0xFF
  | none => 0xFF

/-- `k` bytes of the NOR from `a`. -/
def norRead (n : NorImage) (a k : Nat) : List Byte :=
  match n.runs.find? fun r => decide (r.1 ≤ a) && decide (a + k ≤ r.1 + r.2.length) with
  | some r => (r.2.drop (a - r.1)).take k
  | none => (List.range k).map fun i => norByte n (a + i)

/-- A little-endian number. -/
def ofBytesLE (l : List Byte) : Nat := l.foldr (fun b v => b.toNat + 256 * v) 0

/-- The `k`-byte field at offset `o` of a structure. -/
def fieldLE (l : List Byte) (o k : Nat) : Nat := ofBytesLE ((l.drop o).take k)

/-! ### Slot choice (R656, R657) -/

/-- A candidate slot: its number, its place, and whether it was PENDING. -/
structure Slot where
  (num base size : Nat)
  trial : Bool
  deriving DecidableEq, Repr

/-- The directory's MAGIC, FORMAT and DCHK hold. -/
def dirValid (b : List Byte) : Bool :=
  fieldLE b 0 4 == 0x43484E44 && fieldLE b 4 4 == 0x00010000 &&
    fieldLE b 62 2 == guard16 (b.take 26 ++ (b.drop 27).take 35)

/-- The slot PENDING names, where it is to be tried. -/
def dirPending (b : List Byte) : Option Nat :=
  let p := fieldLE b 25 1
  if (p = 1 ∨ p = 2) ∧ p ≠ fieldLE b 24 1 ∧ fieldLE b 26 1 ≠ 0 then some p else none

/-- The candidates in the order of R657. -/
def candidates (b : List Byte) (density : Nat) : List Slot :=
  if dirValid b then
    let slot (t : Bool) (k : Nat) : Slot := { num := k, base := fieldLE b (8 * k) 4, size := fieldLE b (8 * k + 4) 4, trial := t }
    let p := dirPending b
    let rest := ([fieldLE b 24 1, 1, 2].eraseDups).filter fun k => (k == 1 || k == 2) && some k != p
    (p.toList.map (slot true)) ++ rest.map (slot false)
  else
    let f := 2 ^ 23 * 2 ^ density
    [{ num := 1, base := 0x10000, size := f, trial := false }, { num := 2, base := 0x10000 + f, size := f, trial := false }]

/-- Record the first failure in CFG_ERR (R663). -/
def Dev.cfgErr (d : Dev) (cause slot sect : Nat) : Dev :=
  if d.on .CFG_ERR_CAUSE then d
  else ((d.wr .CFG_ERR_CAUSE 0 cause).wr .CFG_ERR_SLOT 0 slot).wr .CFG_ERR_SECTION 0 sect

/-! ### The header (R658, R659) -/

/-- The first check of R659 that a header fails, if any. -/
def Dev.headerCause (d : Dev) (h : List Byte) : Option Nat :=
  let key := (h.drop 64).take 97
  let sel := fieldLE h 13 1
  let want := if sel = 0 then d.cfg.fuses.hash0 else d.cfg.fuses.hash1
  let num (o : Nat) : Nat := ofBytesBE ((h.drop o).take 48)
  if fieldLE h 0 4 ≠ 0x4353544E ∨ fieldLE h 4 4 ≠ 0x00010000 then some 2
  else if 1 < sel ∨ sha384 key ≠ want ∨ (sel = 0 ∧ d.cfg.fuses.revoke0) then some 3
  else if fieldLE h 64 1 ≠ 4 ∨ !ecdsaVerify (num 65) (num 113) (num 176) (num 224) (sha384 (h.take 176 ++ h.drop 512)) then some 4
  else if fieldLE h 12 1 < d.cfg.fuses.minSvn then some 5
  else none

/-- An authenticated header's identity applies (R652). -/
def Dev.applyHeader (d : Dev) (h : List Byte) : Dev :=
  let id := (List.range 4).map fun (k : Nat) => fieldLE h (32 + 4 * k) 4
  let cfg := { d.cfg with ident := id, serial := fieldLE h 48 8, entry := fieldLE h 24 5, l2off := bit (fieldLE h 56 4) 0,
                          hold := bit (fieldLE h 56 4) 1, copy := [] }
  ({ d with cfg := cfg }).wr .CFG_NORINFO_DIV 0 (fieldLE h 60 4)

/-! ### Sections (R660, R661) -/

/-- A section table entry. -/
structure Sect where
  (num type index target off len digest : Nat)
  deriving DecidableEq, Repr

/-- Entry `i` of the header's section table. -/
def sectAt (h : List Byte) (i : Nat) : Sect :=
  let b := (h.drop (512 + 64 * i)).take 64
  { num := i, type := fieldLE b 0 1, index := fieldLE b 1 1, target := fieldLE b 12 4 + fieldLE b 2 1 * 2 ^ 32,
    off := fieldLE b 4 4, len := fieldLE b 8 4, digest := ofBytesBE (b.drop 16) }

/-- Bytes of a control store (R240, R390). -/
def storeSize : Nat := 0x20000

/-- Records of the ledger array (R573). -/
def Dev.ledgerRecords (d : Dev) : Nat := (d.rd .HLT_LEDGERHI_NSURF + 1) * 1048576

/-- A section's type is known, and its target lies in its array. -/
def Dev.sectFits (d : Dev) (x : Sect) (size : Nat) : Bool :=
  1 ≤ x.len && decide (x.off + x.len ≤ size) &&
  match x.type with
  | 1 => x.len % 8 == 0
  | 2 => arrayOf x.target == 5 && arrayOf (x.target + x.len - 1) == 5
  | 3 => decide (x.index < 4) && decide (x.len ≤ storeSize)
  | 4 => decide (x.index < 12) && decide (x.len ≤ storeSize)
  | 5 => decide (x.index < 8) && decide (x.target % 2 ^ 32 + x.len ≤ 0xC0000)
  | 6 => arrayOf x.target == 0 && d.rangeExists x.target x.len
  | 7 => x.len % 24 == 0 && d.rangeExists (d.ledgerAddr 0) (16 * d.ledgerRecords)
  | 8 => x.len % 16 == 0 && decide (x.len / 16 ≤ d.rd .TPE_DEFMAX_MAX) && d.rangeExists d.defAddr x.len
  | _ => false

/-- The pairs of a REGWRITE section. -/
def regPairs (b : List Byte) : List (Nat × Nat) :=
  (List.range (b.length / 8)).map fun (k : Nat) => (fieldLE b (8 * k) 4, fieldLE b (8 * k + 4) 4)

/-- A REGWRITE offset that is neither unassigned nor reserved, and does not name SYS_RSTCTL. -/
def regOffsetFits (o : Nat) : Bool :=
  o < 2 ^ 24 && o % 4 == 0 && match targetOf 24 o with
    | .reg r _ => r != .SYS_RSTCTL
    | .evtWord _ => true
    | _ => false

/-- A REGWRITE section is carried out, as far as its first bad offset. -/
def Dev.loadRegs (d : Dev) : List (Nat × Nat) → Dev × Bool
  | [] => (d, true)
  | (o, v) :: l =>
    if !regOffsetFits o then (d, false)
    else
      let d := d.offsetWrite 24 o v
      ({ d with cfg := { d.cfg with copy := d.cfg.copy ++ [(o, v)] } }).loadRegs l

/-- A control store is loaded from word 0; the reserved bytes of a microword are not stored (R240). -/
def Dev.loadStore (d : Dev) (fsq : Bool) (i : Nat) (b : List Byte) : Dev :=
  if !fsq then d.stBytes (veStore + i * storeSize) b
  else (List.range b.length).foldl (fun (d : Dev) k => if k % 32 < 22 then d.st8 (fsqStore + i * storeSize + k) (b.getD k 0) else d) d

/-- The runs of a LEDGER section; records in no run are written as 0. -/
def Dev.loadLedger (d : Dev) (b : List Byte) : Dev × Bool :=
  let a := d.ledgerAddr 0
  let n := d.ledgerRecords
  let d := d.dropMem fun x => decide (a ≤ x) && decide (x < a + 16 * n)
  (List.range (b.length / 24)).foldl (fun (r : Dev × Bool) k =>
    let first := fieldLE b (24 * k) 4
    let count := fieldLE b (24 * k + 4) 4
    if !r.2 || decide (n < first + count) then (r.1, false)
    else ((List.range count).foldl (fun (d : Dev) i => d.stBytes (a + 16 * (first + i)) ((b.drop (24 * k + 8)).take 16)) r.1, true))
    (d, true)

/-- A section's data goes where its type says; false: the data itself is refused. -/
def Dev.loadSect (d : Dev) (x : Sect) (b : List Byte) : Dev × Bool :=
  match x.type with
  | 1 => d.loadRegs (regPairs b)
  | 2 => (d.putBytes x.target b, true)
  | 3 => (d.loadStore true x.index b, true)
  | 4 => (d.loadStore false x.index b, true)
  | 5 => (d.stBytes (coreLocal + x.index * 0x100000 + x.target % 2 ^ 32) b, true)
  | 6 => (d.putBytes x.target b, true)
  | 7 => d.loadLedger b
  | _ => ((d.putBytes d.defAddr b).wr .TPE_DEFCNT_COUNT 0 (b.length / 16), true)

/-- The sections of one pass, in table order; the first refusal is its cause and section (R661). -/
def Dev.loadPass (d : Dev) (n : NorImage) (s : Slot) : List Sect → Dev × Option (Nat × Nat)
  | [] => (d, none)
  | x :: l =>
    if !d.sectFits x s.size then (d, some (7, x.num))
    else
      let b := norRead n (s.base + x.off) x.len
      if sha384 b ≠ x.digest then (d, some (6, x.num))
      else
        let r := d.loadSect x b
        if r.2 then r.1.loadPass n s l else (r.1, some (7, x.num))

/-- DRAM training, with a retrain at the next lower RATE after each failure (R514, R663). -/
def Dev.trainDram (d : Dev) : List Bool → Dev × Bool
  | [] => (d.dramReady true, true)
  | ok :: l =>
    if ok then (d.dramReady true, true)
    else
      let rate := d.rd .MEM_DRCFG_RATE % 3
      let d := d.dramReady false
      if rate = 0 then (d, false) else (d.dramInit (d.rd .MEM_DRCFG_RAW) (rate - 1)).trainDram l

/-! ### Checks (R663) -/

/-- How many of `n` MSNs from `m` a run holds. -/
def LRun.share (r : LRun) (m n : Nat) : Nat := min (r.base + r.msns) (m + n) - max r.base m

/-- `n` MSNs from `m` lie in runs of zones whose metadata is `lbaf`'s (R441). -/
def laidOut (l : List LRun) (lbaf m n : Nat) : Bool :=
  let used := l.filter fun r => 0 < r.share m n
  (used.map fun r => r.share m n).sum == n && used.all fun r => r.metaSel == lbaf

/-- A namespace satisfies R440 and R441 and lies in the layout (check 10). -/
def Dev.nsFits (d : Dev) (l : List LRun) (e : Ns) : Bool :=
  decide (e.pit ≤ 3) && (e.lbaf != 0 || e.pit == 0) &&
  if e.csi = 0 then e.nsbase % 64 == 0 && laidOut l e.lbaf e.nsbase e.nsze
  else e.csi == 2 && (List.range e.zones).all fun k => laidOut l e.lbaf (d.hzone (e.firstz + k)).msn 1

/-- The servo format of an actuator satisfies R315 (check 11). -/
def Dev.servoFits (d : Dev) (a : Nat) : Bool :=
  let cell := 4 * d.rd .SRV_SFMT_CELL a
  let len := (d.rd .SRV_SFMT_PRE a + 2 * d.rd .SRV_SFMT_BURST a + 100) * cell
  decide (len ≤ 1800) && (d.tpe.zones.map d.zoneEnt).all fun z =>
    !d.declared (32 * a + z.surf) || (decide (len ≤ z.svt) && decide (2 * 2 ^ 24 ≤ z.spr * cell))

/-- The mirror zone holds the pages and the journal (R579, check 15). -/
def Dev.mirrorFits (d : Dev) : Bool :=
  let i := d.rd .HLT_MIRROR_ZONE
  let z := d.zoneEnt i
  d.tpe.zones.contains i &&
    decide ((d.rd .HLT_LEDGERHI_NSURF + 1) * 4096 + d.rd .HLT_MIRROR_JSECT ≤ (z.last + 1 - z.first - z.sptrk) * d.dataOf z)

/-- The defect bitmap, rebuilt from the map (check 14). -/
def Dev.rebuildBitmap (d : Dev) (l : List MapEntry) : Dev :=
  let a := tableSram + d.rd .TPE_DEFBMP_BASE * 2 ^ 16
  let d := d.dropMem fun x => decide (a ≤ x) && decide (x < a + 2 ^ 22)
  l.foldl (fun (d : Dev) e => d.bitmapSet e.surf e.track) d

/-- Checks 8 to 12 and 14, whose failures go on; each fails with its sticky bit. -/
def Dev.softChecks (d : Dev) (s : Slot) : Dev :=
  let zones := d.judgeZones.map Zone.index
  let d := { d with tpe := { d.tpe with zones := zones } }
  let bad8 := (List.range (min 1024 (d.rd .TPE_ZONECNT_COUNT))).any fun i => (d.zoneEnt i).valid && !zones.contains i
  let d := if bad8 then (d.stick .CFG_STAT_ZONEERR).cfgErr 8 s.num 0 else d
  let runs : List LRun := d.layoutRuns
  let d := if runs.length < d.rd .TPE_LAYCNT_COUNT then (d.stick .CFG_STAT_LAYERR).cfgErr 9 s.num 0 else d
  let bad := (List.range 16).filter fun k => (d.nsEntry (k + 1)).valid && !d.nsFits runs (d.nsEntry (k + 1))
  let d := { d with cfg := { d.cfg with badNs := bad.map (· + 1) } }
  let d := if bad.isEmpty then d else (d.stick .CFG_STAT_NSERR).cfgErr 10 s.num 0
  let srv := (List.range 4).filter fun a => d.actDeclared a && !d.servoFits a
  let d := { d with cfg := { d.cfg with badSrv := srv } }
  if srv.isEmpty then d else (d.stick .CFG_STAT_SRVERR).cfgErr 11 s.num 0

/-- Check 14: the bitmap agrees with the map, or is rebuilt. -/
def Dev.bitmapCheck (d : Dev) (s : Slot) : Dev :=
  if d.bitmapAgrees d.defectMap then d
  else (((d.rebuildBitmap d.defectMap).stick .TPE_STAT_MAPERR).stick .CFG_STAT_MAPFIX).cfgErr 14 s.num 0

/-! ### One slot -/

/-- What became of a slot. -/
inductive SlotEnd where
  | booted
  | rejected (cause sect : Nat)           -- rejected after its identity applied (R662)
  | dramFail
  deriving DecidableEq, Repr

/-- The three passes and the checks of an authenticated slot (R661, R663). -/
def Dev.loadSlot (d : Dev) (n : NorImage) (s : Slot) (h : List Byte) : Dev × SlotEnd :=
  let count := fieldLE h 14 2
  let all := (List.range (min 56 count)).map (sectAt h)
  let total := ((all.filter fun x => x.type == 1).map Sect.len).sum
  match all.find? fun x => x.type == 0 || decide (8 < x.type) with
  | some x => (d, .rejected 7 x.num)
  | none =>
    if count = 0 ∨ 56 < count ∨ 0x40000 < total then (d, .rejected 7 0)
    else
      match d.loadPass n s (all.filter fun x => x.type == 1) with
      | (d, some (c, k)) => (d, .rejected c k)
      | (d, none) =>
        if !d.memx.training && !d.on .MEM_DRSTAT_READY then (d, .rejected 7 0)
        else
          match d.loadPass n s (all.filter fun x => decide (2 ≤ x.type) && decide (x.type ≤ 5)) with
          | (d, some (c, k)) => (d, .rejected c k)
          | (d, none) =>
            match d.trainDram n.train with
            | (d, false) => (d.cfgErr 16 s.num 0, .dramFail)
            | (d, true) =>
              let d := if d.cfg.l2off then d else (d.wr .MEM_L2CTL_INVALID 0 1).l2Enable
              match d.loadPass n s (all.filter fun x => decide (6 ≤ x.type)) with
              | (d, some (c, k)) => (d, .rejected c k)
              | (d, none) =>
                let d := d.softChecks s
                if !mapSorted d.defectMap then (d, .rejected 13 (((all.find? fun x => x.type == 8).map Sect.num).getD 0))
                else
                  let d := d.bitmapCheck s
                  if d.mirrorFits then (d, .booted) else (d, .rejected 15 0)

/-- The internal reset of R662: every block but CFG and the clocks, and what a full reset keeps, returns to reset. -/
def Dev.internalReset (d : Dev) (mapBad : Bool) : Dev :=
  let cause := d.word .SYS_RSTCAUSE
  let kept := (Block.CFG.regs ++ [Reg.SYS_CLKSTAT, .SPN_PFSTAT, .HLT_REPL]).flatMap fun (r : Reg) => r.info.flds
  let n := kept.foldl (fun (n : Dev) f => n.wr f 0 (d.rd f 0)) d.powerOn
  let n := n.setCause cause
  let n := { n with now := d.now, cfg := { d.cfg with copy := [], badNs := [], badSrv := [] }, hlt := { n.hlt with trig := d.hlt.trig } }
  if mapBad then n.stick .TPE_STAT_MAPERR else n

/-- The slots are tried in turn (R657, R662); with none left CFG enters NOIMAGE. -/
def Dev.trySlots (d : Dev) (n : NorImage) (trial : Nat) : List Slot → Dev
  | [] => d.wr .CFG_STAT_STATE 0 6
  | s :: l =>
    let d := if s.trial then d.emit (.norWrite 26 [BitVec.ofNat 8 (Nat.land trial (trial - 1))]) else d
    let d := (d.count .CFG_SLOT_ATTEMPTS).wr .CFG_STAT_STATE 0 1
    let h := norRead n s.base 4096
    match d.headerCause h with
    | some c => (d.cfgErr c s.num 0).trySlots n trial l
    | none =>
      match ((d.applyHeader h).wr .CFG_STAT_STATE 0 2).loadSlot n s h with
      | (d, .booted) =>
        let d := ((d.wr .CFG_SLOT_BOOTED 0 s.num).wr .CFG_SLOT_SVN 0 (fieldLE h 12 1)).wrb .CFG_STAT_TRIAL 0 s.trial
        d.wr .CFG_STAT_STATE 0 3
      | (d, .dramFail) => d.wr .CFG_STAT_STATE 0 7
      | (d, .rejected c k) => ((d.cfgErr c s.num k).internalReset (c == 13)).trySlots n trial l

/-! ### The event log (R637, R646) -/

/-- A log record is erased. -/
def erasedLE (b : List Byte) : Bool := b.all fun x => x == 0xFF

/-- The log record with the highest SEQ among the first `k`: its SEQ and its index in the log area. -/
def lastRecord (n : NorImage) (base : Nat) : Nat → Option (Nat × Nat)
  | 0 => none
  | k + 1 =>
    let b := norRead n (base + 32 * k) 32
    let r := lastRecord n base k
    if erasedLE b then r
    else
      let q := fieldLE b 4 4
      match r with
      | some (m, i) => if m ≤ q then some (q, k) else some (m, i)
      | none => some (q, k)

/-- Erased pages from offset `o` of the log area, at most `k`. -/
def erasedPages (n : NorImage) (base size o : Nat) : Nat → Nat
  | 0 => 0
  | k + 1 => if erasedLE (norRead n (base + o % size) 256) then erasedPages n base size (o + 256) k + 1 else 0

/-- CFG sets EVT_SEQ and EVT_NORWP from the log (R646). -/
def Dev.logScan (d : Dev) (n : NorImage) : Dev :=
  let base := d.rd .EVT_NORBASE_VALUE * 4096
  let size := d.logSize
  if size = 0 then d
  else
    let d := match lastRecord n base (size / 32) with
      | none => d.wr .EVT_NORWP_OFFSET 0 0
      | some (q, i) => (d.wr .EVT_SEQ_NEXT 0 (q + 1)).wr .EVT_NORWP_OFFSET 0 ((i / 8 + 1) * 256 % size)
    d.wr .EVT_NORERASED_BYTES 0 (256 * erasedPages n base size (d.rd .EVT_NORWP_OFFSET) (size / 256))

/-! ### The full path (R652) and handover (R665) -/

/-- The clocks lock. -/
def Dev.clocksLock (d : Dev) : Dev :=
  ((d.wr .SYS_CLKSTAT_XTAL_OK 0 1).wr .SYS_CLKSTAT_FAB_LOCK 0 1 |>.wr .SYS_CLKSTAT_MC_LOCK 0 1).wr .SYS_CLKSTAT_VE_LOCK 0 1

/-- CFG waits in RESET: no handover, and no path run since the reset. -/
def Dev.cfgIdle (d : Dev) : Bool := !d.handed && d.rd .CFG_STAT_STATE == 0

/-- The clocks have not locked within 10 ms (R653). -/
def Dev.clockTimeout (d : Dev) : Dev :=
  if d.cfgIdle && decide (d.cfg.began + 12500000 ≤ d.now) then (d.wr .CFG_STAT_STATE 0 6).cfgErr 12 0 0 else d

/-- The full path up to handover, `after` cycles long. -/
def Dev.imageLoad (d : Dev) (n : NorImage) (after : Nat) : Dev :=
  if !d.cfgIdle then d
  else
    let d := (d.elapse after).clocksLock
    let d := (d.wr .CFG_NORINFO_DENSITY 0 n.density.val).wrb .CFG_NORINFO_SUSP 0 n.fit
    if !n.fit then (d.wr .CFG_STAT_STATE 0 6).cfgErr 12 0 0
    else
      let d := (d.wr .CFG_NORINFO_QUAD 0 1).wr .CFG_NORINFO_DIV 0 24
      let b := norRead n 0 64
      let d := if dirValid b then d.wr .CFG_SLOT_ACTIVE 0 (fieldLE b 24 1) else d.cfgErr 1 0 0
      let d := d.trySlots n (fieldLE b 26 1) (candidates b n.density.val)
      if d.rd .CFG_STAT_STATE = 3 then d.logScan n else d

/-- The handover cycle. HLT evaluates the triggers of R605 again: margin and spares here, an actuator as it enters OUT; the reference
readers are judged as they fail, and the angle base locks with no fewer than two (R84, R88). -/
def Dev.handover (d : Dev) : Dev :=
  let d := (d.wr .SYS_STAT_HANDOVER 0 1).wr .CFG_STAT_STATE 0 4
  let d := (d.wr .CFG_LOADTIME_US 0 ((d.now - d.cfg.began) / 1250)).itbEnable true
  let d := (((d.wr .TPE_CTL_ENABLE 0 1).wr .WRF_CTL_ENABLE 0 1).wr .HIF_CTL_ENABLE 0 1).wr .CHK_CTL_ENABLE 0 1
  let d := (d.wr .CMP_CTL_ENABLE 0 1).wr .HLT_CTL_ENABLE 0 1
  let d := (List.range 32).foldl (fun (d : Dev) s => d.wr .FSQ_CTL_ENABLE s 1) d
  let d := d.unitsOn
  let d := d.cfg.badSrv.foldl Dev.actOut d
  let d := { d with cfg := { d.cfg with cores := true, badSrv := [] }, flt := { d.flt with crkOn := true } }.beginWait .cricket
  let d := if d.on .EVT_CTL_NORLOG then d else d.dropUnflushed
  let d := d.checkFences.checkTriggers
  if d.cfg.hold then d else d.schEnable true

/-- Handover at the end of the full path. -/
def Dev.handoverNow (d : Dev) : Dev := if !d.handed && d.rd .CFG_STAT_STATE == 3 then d.handover else d

/-! ### The warm path (R667) -/

/-- The warm reset returned a register to its reset value. -/
def warmReturned (r : Reg) : Bool :=
  ([Block.LNX, .LANE, .RDI, .ITB, .FSQ, .VE, .HIF, .SCH, .CHK, .CMP, .DMA, .SYS].contains r.info.block &&
      !([Reg.SYS_RSTCAUSE, .SYS_CLKSTAT].contains r)) || r == .MEM_L1CTL

/-- CFG re-applies the entries of its REGWRITE copy whose register was returned. -/
def Dev.reapply (d : Dev) : Dev :=
  d.cfg.copy.foldl (fun (d : Dev) e =>
    match targetOf 24 e.1 with
    | .reg r i => if warmReturned r then d.regWrite 24 r i e.2 else d
    | _ => d) d

/-- The warm reset acts once it is due, and CFG hands over. -/
def Dev.warmReset (d : Dev) : Dev := if d.resetDue 1 then d.warmBlocks.reapply.handover else d

end Sys2Proof.Machine
end

