-- ==== Sys2Proof/Machine/Svc.lean ====
section
/-! DEFINITION. The service port (19_service_port_and_rack_link): its connection, standard requests (R678), vendor requests and
their refusals (R679-R682), the commit of an OUT request (R683), the streams of EP1 and EP2 (R686, R687); and the rack link's
answer to DIGREQ (R702). A request's data stage is part of its command. -/

namespace Sys2Proof.Machine

/-! ### Connection (R677, R684) -/

def Dev.svcState (d : Dev) : Nat := d.rd .SVC_STAT_STATE

/-- SVC_VBUS changes. -/
def Dev.vbusChange (d : Dev) (v : Bool) : Dev :=
  let d := { d with svc := { d.svc with vbus := v } }
  if v then d.svcConnect else if d.svcState = 0 then d else d.svcDown 1

/-- A bus reset: Default, address 0, no configuration; `hs`: the high-speed chirp has succeeded. -/
def Dev.usbReset (d : Dev) (hs : Bool) : Dev :=
  if d.svcState = 0 ∨ !d.svc.vbus then d else ((d.svcDown 2).wrb .SVC_STAT_HS 0 hs).count .SVC_CNT_RESETS

/-- Suspend and resume change the state only. -/
def Dev.usbSuspend (d : Dev) (on : Bool) : Dev :=
  let st := d.svcState
  if on then
    if 1 ≤ st ∧ st ≤ 4 then { d with svc := { d.svc with back := st } }.wr .SVC_STAT_STATE 0 5 else d
  else if st = 5 then d.wr .SVC_STAT_STATE 0 d.svc.back
  else d

/-! ### Transfers -/

/-- The port takes SETUP packets. -/
def Dev.usbTalks (d : Dev) : Bool := decide (2 ≤ d.svcState) && decide (d.svcState ≤ 4)

/-- A refusal (R682): STALL on EP0 with its cause in LASTERR. -/
def Dev.svcRefuse (d : Dev) (cause : Nat) : Dev := ((d.wr .SVC_STAT_LASTERR 0 cause).count .SVC_CNT_STALLS).emit (.usbStall 0)

/-- A SETUP packet begins a transfer, and abandons the one before it (R684). -/
def Dev.svcSetup (d : Dev) (f : Dev → Dev) : Dev := if d.usbTalks then f d.svcAbandon else d

/-- The data of an IN request. -/
def Dev.svcIn (d : Dev) (bytes : List Nat) : Dev := d.emit (.usb 0 bytes)

/-! ### Descriptors (R678) -/

/-- 16 bits, low byte first. -/
def le16 (v : Nat) : List Nat := [v % 256, v / 256 % 256]

def Dev.deviceDesc (d : Dev) : List Nat :=
  [18, 1, 0x00, 0x02, 0xFF, 0, 0, 64] ++ le16 (d.rd .SVC_USBID_VID) ++ le16 (d.rd .SVC_USBID_PID) ++ le16 (d.word .SYS_STEP) ++
    [1, 2, 3, 1]

/-- The configuration with its interface and endpoints, for high or full speed; `type` 2, or 7 for the other speed. -/
def configDesc (type : Nat) (hs : Bool) : List Nat :=
  [9, type, 32, 0, 1, 1, 0, 0xC0, 0] ++ [9, 4, 0, 0, 2, 0xFF, 0, 0, 0] ++
    [7, 5, 0x81, 2] ++ le16 (if hs then 512 else 64) ++ [0] ++ [7, 5, 0x82, 3, 64, 0, if hs then 4 else 1]

/-- A string descriptor, in UTF-16. -/
def stringDesc (s : List Nat) : List Nat := [2 + 2 * s.length, 3] ++ s.flatMap fun c => [c, 0]

/-- A hexadecimal digit. -/
def hexDigit (k : Nat) : Nat := if k < 10 then 48 + k else 55 + k

def vendorName : List Nat := [0x4D, 0x62, 0x6F, 0x76, 0x6F, 0x6E]
def productName : List Nat := [0x5A, 0x44, 0x2D, 0x39, 0x34, 0x30]

/-- The serial number in 16 digits, "0" before handover. -/
def Dev.serialName (d : Dev) : List Nat :=
  if d.handed then (List.range 16).map fun (k : Nat) => hexDigit (d.cfg.serial / 16 ^ (15 - k) % 16) else [48]

/-- The descriptor of a type and index, where the port has it. -/
def Dev.descriptor (d : Dev) (type index : Nat) : Option (List Nat) :=
  let hs := d.on .SVC_STAT_HS
  match type, index with
  | 1, 0 => some d.deviceDesc
  | 2, 0 => some (configDesc 2 hs)
  | 3, 1 => some (stringDesc vendorName)
  | 3, 2 => some (stringDesc productName)
  | 3, 3 => some (stringDesc d.serialName)
  | 6, 0 => some [10, 6, 0x00, 0x02, 0xFF, 0, 0, 64, 1, 0]
  | 7, 0 => some (configDesc 7 !hs)
  | _, _ => none

/-! ### Standard requests (USB 2.0 chapter 9) -/

/-- An endpoint the port has in its present state. -/
def Dev.endpoint (d : Dev) (e : Nat) : Bool := e % 128 == 0 || (d.svcState == 4 && (e == 0x81 || e == 0x82))

/-- Data of a GET_STATUS. -/
def Dev.usbStatus (d : Dev) (type index : Nat) : Option (List Nat) :=
  if type = 0x80 then some [1, 0]
  else if type = 0x81 ∧ d.svcState = 4 ∧ index = 0 then some [0, 0]
  else if type = 0x82 ∧ d.endpoint index then some [bnat (d.svc.halts.contains index), 0]
  else none

/-- An endpoint halts, or its halt is cleared. -/
def Dev.usbHalt (d : Dev) (e : Nat) (on : Bool) : Dev :=
  let l := d.svc.halts.filter (· != e)
  { d with svc := { d.svc with halts := if on then l ++ [e] else l } }

/-- The SEQ of the oldest record held, or of the next one. -/
def Dev.oldestSeq (d : Dev) : Nat :=
  match ((d.newest 1024).reverse.filterMap fun i => Tab.look d.evt.buf i).head? with
  | some r => r.w1
  | none => d.rd .EVT_SEQ_NEXT

/-- SET_CONFIGURATION: the streams begin (R686, R687). -/
def Dev.usbConfigure (d : Dev) (v : Nat) : Dev :=
  { d with svc := { d.svc with conf := v, halts := [], told := none, stream := d.oldestSeq } }.wr .SVC_STAT_STATE 0 (if v = 0 then 3 else 4)

/-- A standard request; every other SETUP packet is an unknown one. -/
def Dev.standardRequest (d : Dev) (x : Setup) : Dev :=
  d.svcSetup fun d =>
    let t := x.type.toNat
    let v := x.value.toNat
    let i := x.index.toNat
    let send (b : Option (List Nat)) : Dev := match b with
      | some l => d.svcIn (l.take x.length.toNat)
      | none => d.svcRefuse 1
    let st := d.svcState
    match x.request.toNat with
    | 0 => send (d.usbStatus t i)
    | 1 => if t = 2 ∧ v = 0 ∧ d.endpoint i then d.usbHalt i false else d.svcRefuse 1
    | 3 =>
      if t = 2 ∧ v = 0 ∧ d.endpoint i then d.usbHalt i true
      else if t = 0 ∧ v = 2 ∧ i % 256 = 0 ∧ 1 ≤ i / 256 ∧ i / 256 ≤ 5 then { d with svc := { d.svc with test := true } }
      else d.svcRefuse 1
    | 5 =>
      if t = 0 ∧ v < 128 ∧ st < 4 then { d with svc := { d.svc with addr := v } }.wr .SVC_STAT_STATE 0 (if v = 0 then 2 else 3)
      else d.svcRefuse 1
    | 6 => send (if t = 0x80 then d.descriptor (v / 256) (v % 256) else none)
    | 8 => send (if t = 0x80 ∧ 3 ≤ st then some [d.svc.conf] else none)
    | 9 => if t = 0 ∧ 3 ≤ st ∧ v ≤ 1 then d.usbConfigure v else d.svcRefuse 1
    | 10 => send (if t = 0x81 ∧ st = 4 ∧ i = 0 then some [0] else none)
    | 11 => if t = 1 ∧ st = 4 ∧ i = 0 ∧ v = 0 then { d with svc := { d.svc with halts := [] } } else d.svcRefuse 1
    | _ => d.svcRefuse 1

/-! ### Vendor requests (R679-R682) -/

/-- MODE and the state of CFG admit the request (R680). -/
def Dev.svcAdmits (d : Dev) (digest out : Bool) : Bool :=
  (digest || d.handed || decide (6 ≤ d.rd .CFG_STAT_STATE)) && (d.rd .SVC_CFG_MODE == 2 || !out)

/-- `n` registers from offset `o`: none of them unassigned. -/
def regsAssigned (o n : Nat) : Bool :=
  (List.range n).all fun (k : Nat) => decide (o + 4 * k < 2 ^ 24) && targetOf 1 (o + 4 * k) != .busError

/-- Why a register request of `len` bytes is refused, if it is. -/
def Dev.regRefusal (d : Dev) (out : Bool) (o len : Nat) : Option Nat :=
  if !d.svcAdmits false out then some 2
  else if len < 4 ∨ 1024 < len ∨ len % 4 ≠ 0 then some 3
  else if !regsAssigned o (len / 4) then some 4
  else if o % 4 ≠ 0 ∨ !d.admits 1 then some 5
  else none

/-- The registers of a REGRD, read in ascending order. -/
def Dev.regsRead (d : Dev) (o : Nat) : Nat → Dev × List Nat
  | 0 => (d, [])
  | n + 1 =>
    let v := (d.readValue 1 o).getD 0
    let r := (d.readEffect 1 o true).regsRead (o + 4) n
    (r.1, leBytes v 4 ++ r.2)

/-- REGRD. -/
def Dev.svcRegrd (d : Dev) (o len : Nat) : Dev :=
  d.svcSetup fun d => match d.regRefusal false o len with
    | some c => d.svcRefuse c
    | none => let r := d.regsRead o (len / 4); r.1.svcIn r.2

/-- An OUT request's data is staged (R683). -/
def Dev.stage (d : Dev) (x : Staged) : Dev := { d with svc := { d.svc with staged := some x } }

/-- REGWR. -/
def Dev.svcRegwr (d : Dev) (o : Nat) (words : List Nat) : Dev :=
  d.svcSetup fun d => match d.regRefusal true o (4 * words.length) with
    | some c => d.svcRefuse c
    | none => d.stage (.regwr o words)

/-- DIGEST. -/
def Dev.svcDigest (d : Dev) (len : Nat) : Dev :=
  d.svcSetup fun d => if len ≠ 64 then d.svcRefuse 3 else d.svcIn d.shortDigest

/-- SVC_MADDR, and its advance. -/
def Dev.maddr (d : Dev) : Nat := d.rd .SVC_MADDRLO_ADDR + d.rd .SVC_MADDRHI_ADDR * 2 ^ 32
def Dev.setMaddr (d : Dev) (a : Nat) : Dev := (d.wr .SVC_MADDRLO_ADDR 0 a).wr .SVC_MADDRHI_ADDR 0 (a / 2 ^ 32)

/-- Memory the port reaches: DRAM, table SRAM and core-local memory, as far as it exists. -/
def Dev.svcReaches (d : Dev) (a n : Nat) : Bool :=
  (arrayOf a == 0 || arrayOf a == 5 || arrayOf a == 6) && d.rangeExists a n

/-- Why a memory request is refused before any access, if it is. -/
def Dev.memRefusal (d : Dev) (out : Bool) (len : Nat) : Option Nat :=
  if !d.svcAdmits false out then some 2
  else if len < 1 ∨ 4096 < len then some 3
  else if !d.svcReaches d.maddr len then some 4
  else none

/-- MEMRD; `err`: the memory error the read meets, if any. -/
def Dev.svcMemrd (d : Dev) (len : Nat) (err : Option MemErr) : Dev :=
  d.svcSetup fun d => match d.memRefusal false len with
    | some c => d.svcRefuse c
    | none =>
      let a := d.maddr
      let r := d.readMem 1 a len err
      if r.2 then (r.1.setMaddr (a + len)).svcIn ((r.1.ldBytes a len).map BitVec.toNat) else r.1.svcRefuse 5

/-- MEMWR. -/
def Dev.svcMemwr (d : Dev) (bytes : List Byte) : Dev :=
  d.svcSetup fun d => match d.memRefusal true bytes.length with
    | some c => d.svcRefuse c
    | none => d.stage (.memwr bytes)

/-- RESET. -/
def Dev.svcReset (d : Dev) (kind len : Nat) : Dev :=
  d.svcSetup fun d =>
    if kind ≠ 1 ∧ kind ≠ 2 then d.svcRefuse 1
    else if !d.svcAdmits false true then d.svcRefuse 2
    else if len ≠ 0 then d.svcRefuse 3
    else d.stage (.reset (kind == 2))

/-- The fuses accept a value (R681). -/
def Dev.fuseAccepts (d : Dev) (sel val : Nat) : Bool :=
  match sel with
  | 0 => d.cfg.blown.hash0 == 0
  | 1 => d.cfg.blown.hash1 == 0
  | 2 => decide (d.cfg.blown.minSvn < val)
  | _ => val == 1

/-- FUSE; a key hash is its number, most significant byte first. -/
def Dev.svcFuse (d : Dev) (sel : Nat) (bytes : List Byte) : Dev :=
  d.svcSetup fun d =>
    let val := ofBytesBE bytes
    if 3 < sel then d.svcRefuse 1
    else if !d.svcAdmits false true || !(d.rd .CFG_STAT_STATE == 6 || d.on .SVC_CFG_FUSE) then d.svcRefuse 2
    else if bytes.length ≠ (if sel < 2 then 48 else 1) then d.svcRefuse 3
    else if !d.fuseAccepts sel val then d.svcRefuse 2
    else d.stage (.fuse sel val)

/-- Only bits that are still 0 are programmed; the value holds from the next full reset (R681). -/
def Dev.fuseProgram (d : Dev) (sel val : Nat) : Dev :=
  let b := d.cfg.blown
  let n : Fuses := match sel with
    | 0 => { b with hash0 := Nat.lor b.hash0 val }
    | 1 => { b with hash1 := Nat.lor b.hash1 val }
    | 2 => { b with minSvn := Nat.lor b.minSvn val }
    | _ => { b with revoke0 := true }
  { d with cfg := { d.cfg with blown := n } }

/-- Words to consecutive registers, one a cycle, each beside the other masters' writes of its cycle: a word that loses under
R60 is dropped and the rest of the request proceeds (R683). -/
def Dev.regsWrite (d : Dev) (o : Nat) (rivals : List (List RegWrite)) : List Nat → Dev
  | [] => d
  | w :: l =>
    let mine : RegWrite := { master := .svc, addr := regBase + o, data := BitVec.ofNat 32 w }
    ((d.busCycle (mine :: rivals.headD [])).elapse 1).regsWrite (o + 4) rivals.tail l

/-- The staged request commits (R683). -/
def Dev.outCommit (d : Dev) (rivals : List (List RegWrite)) : Dev :=
  match d.svc.staged with
  | none => d
  | some x =>
    let d := ({ d with svc := { d.svc with staged := none } }).count .SVC_CNT_COMMITS
    match x with
    | .regwr o l => d.regsWrite o rivals l
    | .memwr b => if d.svcReaches d.maddr b.length then (d.mputBytes d.maddr b).setMaddr (d.maddr + b.length) else d
    | .reset full => if full then d.resetRequest 2 4 else d.resetRequest 1 2
    | .fuse s v => if d.fuseAccepts s v then d.fuseProgram s v else d

/-! ### Streams (R686, R687) -/

/-- The records held that the stream has not sent: from its SEQ on, or from the oldest where that one is gone. -/
def Dev.unsent (d : Dev) : List EvtRec :=
  let l := (d.newest 1024).reverse.filterMap fun i => Tab.look d.evt.buf i
  if d.svc.stream = d.rd .EVT_SEQ_NEXT then []
  else if l.any fun r => r.w1 == d.svc.stream then l.dropWhile fun r => r.w1 != d.svc.stream
  else l

/-- EP1 IN: at most four records in one transfer unit. -/
def Dev.eventStream (d : Dev) : Dev :=
  if d.svcState != 4 || d.svc.halts.contains 0x81 then d
  else
    let l := d.unsent.take 4
    match l.getLast? with
    | none => d
    | some r =>
      let d := d.emit (.usb 1 (l.flatMap fun r => r.words.flatMap fun w => leBytes w 4))
      { d with svc := { d.svc with stream := (r.w1 + 1) % 2 ^ 32 } }

/-- What EP2 watches. -/
def Dev.watched (d : Dev) : List Nat := (sections.map d.genNow) ++ [d.word .FLT_STAT, d.word .HLT_REPL, d.rd .SCH_STAT_STATE]

/-- EP2 IN: the short digest, where what it watches has changed since the last one. -/
def Dev.digestInterrupt (d : Dev) : Dev :=
  if d.svcState != 4 || d.svc.halts.contains 0x82 || d.svc.told == some d.watched then d
  else { d.emit (.usb 2 d.shortDigest) with svc := { d.svc with told := some d.watched } }

/-! ### DIGREQ (R702) -/

/-- 100 ms in fabric cycles (R6). -/
def digestGap : Nat := 125000000

/-- The reply is queued. -/
def Dev.digReply (d : Dev) (src : Nat) : Dev :=
  let d := d.rackSend fDigest src d.shortDigest
  { d with rck := { d.rck with replied := Tab.put d.rck.replied src d.now } }

/-- A DIGREQ from node `src` is answered, at most once in any 100 ms. -/
def Dev.digReq (d : Dev) (src : Nat) : Dev :=
  match Tab.look d.rck.replied src with
  | some t => if d.now < t + digestGap then d else d.digReply src
  | none => d.digReply src

end Sys2Proof.Machine
end

