-- ==== Sys2Proof/Machine/Run.lean ====
section
/-! DEFINITION. The frame every command's meaning is run in: the device as the command meets it, the command's own effect, and what
the fabric cycle it takes brings with it in every block (log 2). -/

namespace Sys2Proof.Machine

/-- The device as a command meets it: outputs are the command's own, and SCH's drive state has moved (R501). -/
def Dev.met (d : Dev) : Dev := ({ d with out := [] }).schBegin

/-- One fabric cycle passes, and what follows from the device's new state happens: preemption, the steps of the power-fail sequence,
SCH, HIF, the writers' fences (R290), the rack link, the service port's connection (R677), and what holds combinationally. -/
def Dev.leave (d : Dev) : Dev := (d.advance 1).preemptAll.pfUpdate.schUpdate.hostUpdate.checkFences.rackUpdate.svcConnect.settle

/-- The state that a command's own effect on the device leads to. With TEST_MODE high the device enters no functional state and every
output keeps its reset state (R706): nothing a command would do happens. -/
def State.after (s : State) (d : Dev) : State :=
  if s.test then { s with dev := { s.dev with out := [] } } else { s with dev := d.leave }

/-- One command: its effect on everything but the queue. -/
def State.run (s : State) (f : Dev → Dev) : Host.Outcome State Fault Refusal := .next (s.after (f s.dev.met))

/-- The idle cycle of an empty queue (log 2): time passes, and SCH acts for itself. -/
def State.idle (s : State) : State := s.after s.dev.met.schAct

end Sys2Proof.Machine
end

