-- ==== Sys2Proof/Machine/CmdAngle.lean ====
section
/-! DEFINITION. The commands of the angle base (03). -/

namespace Sys2Proof.Machine

/-- One frame slot of the reference track is read and judged (R72-R78, R85-R88). -/
def execReferenceFrame (x : RefFrame) (s : State) : Host.Outcome State Fault Refusal :=
  s.run fun d => d.referenceFrame x

/-- The index at which the angle base enters LOCKED (R80, R84). -/
def execAngleLock (s : State) : Host.Outcome State Fault Refusal :=
  s.run fun d => d.lockIndex

/-- ANG_CTL.ENABLE is written 1 (R84). -/
def execAbuEnable (s : State) : Host.Outcome State Fault Refusal :=
  s.run fun d => d.abuEnable true

/-- ANG_CTL.ENABLE is written 0 (R84). -/
def execAbuDisable (s : State) : Host.Outcome State Fault Refusal :=
  s.run fun d => d.abuEnable false

/-- ANG_CTL.REACQ is written 1 (R84). -/
def execAbuReacquire (s : State) : Host.Outcome State Fault Refusal :=
  s.run fun d => d.abuReacquire

/-- LOST returns to ACQUIRE with AUTO set and the redundancy rule met (R84). -/
def execAutoReacquire (s : State) : Host.Outcome State Fault Refusal :=
  s.run fun d => d.autoReacquire

/-- ANG_REFCTL.USE of a reader is set or cleared (R77). -/
def execReaderUse (r : Fin 4) (use : Bool) (s : State) : Host.Outcome State Fault Refusal :=
  s.run fun d => d.readerUse r.val use

/-- ANG_REFCTL.FORCEOUT of a reader (R77, R88). -/
def execReaderForceout (r : Fin 4) (s : State) : Host.Outcome State Fault Refusal :=
  s.run fun d => d.readerForceout r.val

/-- ANG_REFCTL.READMIT of a reader (R77). -/
def execReaderReadmit (r : Fin 4) (s : State) : Host.Outcome State Fault Refusal :=
  s.run fun d => d.readerReadmit r.val

/-- A calibrating reader's revolution ends with a measured offset and runout table (R77, R78). -/
def execReaderCalibrationEnd (r : Fin 4) (off : Nat) (corr : List Int) (after : Nat) (s : State) :
    Host.Outcome State Fault Refusal :=
  s.run fun d => (d.advance after).readerCalEnd r.val off corr

/-- ANG advances to its wrap (R81). -/
def execAngleWrap (s : State) : Host.Outcome State Fault Refusal :=
  s.run fun d => d.toWrap

/-- A write of ANG_CMPCTL (R95). -/
def execAngleCompareArm (u : Fin 16) (w : Word) (s : State) : Host.Outcome State Fault Refusal :=
  s.run fun d => d.compareArm u.val w.toNat

/-- `after` cycles later an armed compare unit of the angle base or of a sequencer fires (R95, R97, R259). -/
def execAngleCompareFire (u : CmpUnit) (after : Nat) (s : State) : Host.Outcome State Fault Refusal :=
  s.run fun d =>
    let d := d.advance after
    match u with
    | .ang u => d.compareFire u.val
    | .fsq q b => d.seqCompareFire q.val b

/-- The output frequency of a synthesiser leaves 0.50-3.78 GHz (R101); k is a pair, or 32 + a writer slot. -/
def execSynthOutOfRange (k : Fin 64) (s : State) : Host.Outcome State Fault Refusal :=
  s.run fun d => d.checkRange k.val

/-- The frequency returns within range (R101). -/
def execSynthRangeReturn (k : Fin 64) (s : State) : Host.Outcome State Fault Refusal :=
  s.run fun d => d.checkRange k.val

end Sys2Proof.Machine
end

