-- ==== Sys2Proof/Machine/CmdBus.lean ====
section
/-! DEFINITION. The commands of register space and of the host windows. -/

namespace Sys2Proof.Machine

/-- The writes and the reads that reach register space in one cycle (R40, R41, R60, R62). -/
def execRegisterWrite (l : List RegWrite) (reads : List RegRead) (s : State) : Host.Outcome State Fault Refusal :=
  s.run fun d => d.busAccesses l reads

/-- A master reads the LO half of a quantity, or any register (R39, R56, R57). -/
def execSnapshotRead (m : Master) (a : BitVec 40) (size : Nat) (s : State) : Host.Outcome State Fault Refusal :=
  s.run fun d => d.busRead m.id a.toNat size

/-- A master reads a register; its RC fields clear (R14, R39). -/
def execClearOnRead (m : Master) (a : BitVec 40) (size : Nat) (s : State) : Host.Outcome State Fault Refusal :=
  s.run fun d => d.busRead m.id a.toNat size

/-- The slow-domain write in transit takes effect (R55). No register of this spec lies in the slow domain. -/
def execSlowWriteCommit (s : State) : Host.Outcome State Fault Refusal :=
  s.run fun d => d.slowCommit

/-- A write through a port's BAR2, with what other masters write in the same cycle (R66-R71). -/
def execBar2Write (p : Fin 2) (off size : Nat) (w : Word) (others : List RegWrite) (s : State) : Host.Outcome State Fault Refusal :=
  s.run fun d => d.bar2Write p off size w others

/-- A read through a port's BAR2 (R66, R68, R71). -/
def execBar2Read (p : Fin 2) (off size : Nat) (s : State) : Host.Outcome State Fault Refusal :=
  s.run fun d => d.bar2Read p off size

/-- SYS_BAR2CTL.RELOCK of a port is written 1 (R69). -/
def execBar2Relock (p : Fin 2) (s : State) : Host.Outcome State Fault Refusal :=
  s.run fun d => d.lockBar2 p.val 1

/-- `after` cycles later the duration of an unlocked window has ended (R69). -/
def execBar2WindowExpiry (p : Fin 2) (after : Nat) (s : State) : Host.Outcome State Fault Refusal :=
  s.run fun d => (d.advance after).windowExpiry p.val

/-- A write of ANG_CMPTGTHI commits the target with the LO half the master has buffered (R58). -/
def execCompareTargetWrite (m : Master) (u : Fin 16) (w : Word) (s : State) : Host.Outcome State Fault Refusal :=
  s.run fun d => d.regWrite m.id .ANG_CMPTGTHI u.val w.toNat

/-- The writes of LNX_ROUTE in one cycle; `granted` lanes are addressed by an SCH grant in it (R111, R112). -/
def execLaneRouteWrite (l : List RouteWrite) (granted : List (Fin 64)) (s : State) : Host.Outcome State Fault Refusal :=
  s.run fun d => d.routeWrites l granted

/-- A write of a format register, ignored after handover (R196). -/
def execTpeLockedWrite (m : Master) (k : Fin 8) (w : Word) (s : State) : Host.Outcome State Fault Refusal :=
  s.run fun d => d.regWrite m.id (formatRegs.getD k.val .TPE_ZONEBASE) 0 w.toNat

end Sys2Proof.Machine
end

