-- ==== Sys2Proof/Machine/CmdCheck.lean ====
section
/-! DEFINITION. The commands of the software check context and of the compression engine (15). -/

namespace Sys2Proof.Machine

/-- CHK_SWOWN.CLAIM is written 1 (R554). -/
def execCheckClaim (m : Master) (s : State) : Host.Outcome State Fault Refusal :=
  s.run fun d => d.chkClaim m.id

/-- CHK_SWOWN.CLAIM is written 0 (R554). -/
def execCheckRelease (m : Master) (s : State) : Host.Outcome State Fault Refusal :=
  s.run fun d => d.chkRelease m.id

/-- CHK_SWCTL is written (R554, R555). -/
def execCheckCompute (m : Master) (w : Word) (s : State) : Host.Outcome State Fault Refusal :=
  s.run fun d => d.chkCompute m.id w.toNat

/-- The computation ends (R555, R556). -/
def execCheckComputeEnd (s : State) : Host.Outcome State Fault Refusal :=
  s.run fun d => d.chkEnd

/-- CMP_SUBHI is written, with the LO half the master has buffered (R58, R558). -/
def execCompressionSubmit (m : Master) (w : Word) (s : State) : Host.Outcome State Fault Refusal :=
  s.run fun d =>
    let lo := d.loHalf m.id .CMP_SUBLO 0 / 32 * 32
    ((d.dropLo m.id .CMP_SUBLO 0).wr .CMP_SUBLO_ADDR 0 (lo / 32)).wr .CMP_SUBHI_ADDR 0 w.toNat
      |>.cmpSubmit m.id (lo + w.toNat % 256 * 2 ^ 32)

/-- The first queued job is a PACK job and starts (R558, R564). -/
def execPack (s : State) : Host.Outcome State Fault Refusal :=
  s.run fun d => d.cmpStart 0

/-- The first queued job is an UNPACK job and starts (R558, R559). -/
def execUnpack (s : State) : Host.Outcome State Fault Refusal :=
  s.run fun d => d.cmpStart 1

/-- The first queued job is a DEFL job and starts (R557, R558). -/
def execDeflate (s : State) : Host.Outcome State Fault Refusal :=
  s.run fun d => d.cmpStart 2

/-- The first queued job is an INFL job and starts (R557, R558). -/
def execInflate (s : State) : Host.Outcome State Fault Refusal :=
  s.run fun d => d.cmpStart 3

/-- A running job ends (R559, R560, R563, R564); `outs` are the DEFLATE streams the engine has produced, one a group for PACK. -/
def execCompressionEnd (k : Fin 5) (outs : List (List Byte)) (s : State) : Host.Outcome State Fault Refusal :=
  s.run fun d => d.cmpEnd k.val outs

end Sys2Proof.Machine
end

