-- ==== Sys2Proof/Machine/CmdDecode.lean ====
section
/-! DEFINITION. The commands of sync, the iteration bank and the track-parity engine (05, 06), and the check of a decoded sector (15). -/

namespace Sys2Proof.Machine

/-- `after` cycles later a lane declares the result of its active search (R217-R220). -/
def execSyncDeclare (l : Fin 64) (codes : Codes) (after : Nat) (s : State) : Host.Outcome State Fault Refusal :=
  s.run fun d => (d.advance after).syncDeclare l.val codes

/-- `after` cycles later the combined value of a codeword's last position is formed from what its lanes sampled (R155, R162). -/
def execSectorCapture (c : Fin 128) (lead trail : Codes) (parity : Bool) (after : Nat) (s : State) : Host.Outcome State Fault Refusal :=
  s.run fun d => (d.advance after).sectorCapture c.val lead trail parity

/-- A period boundary of the bank (R171-R176). -/
def execAcornPeriod (s : State) : Host.Outcome State Fault Refusal :=
  s.run fun d => d.acornPeriod

/-- A decode engine finishes the local iteration it runs (R165-R167, R172). -/
def execLocalIterationEnd (e : Fin 48) (s : State) : Host.Outcome State Fault Refusal :=
  s.run fun d => d.iterationEnd e.val

/-- A re-detection path finishes (R150, R151, R154). -/
def execRedetectionEnd (p : Fin 32) (s : State) : Host.Outcome State Fault Refusal :=
  s.run fun d => d.redetectionEnd p.val

/-- A parity error is read from the context store (R182). -/
def execContextParityError (c : Fin 128) (s : State) : Host.Outcome State Fault Refusal :=
  s.run fun d => d.ctxParity c.val

/-- ITB_CTL.ENABLE is written (R169). -/
def execItbEnable (on : Bool) (s : State) : Host.Outcome State Fault Refusal :=
  s.run fun d => d.itbEnable on

/-- ITB_CTL.NOBORROW is written (R177). -/
def execItbNoborrow (on : Bool) (s : State) : Host.Outcome State Fault Refusal :=
  s.run fun d => d.wrb .ITB_CTL_NOBORROW 0 on

/-- ITB_ENGCTL.FORCEOUT is written 1 (R187). -/
def execDecodeEngineForceout (e : Fin 48) (s : State) : Host.Outcome State Fault Refusal :=
  s.run fun d => d.engineForceout e.val

/-- ITB_ENGCTL.READMIT is written 1 (R187). -/
def execDecodeEngineReadmit (e : Fin 48) (s : State) : Host.Outcome State Fault Refusal :=
  s.run fun d => d.engineReadmit e.val

/-- A decode engine meets a parity error or overruns its period (R189). -/
def execDecodeEngineFault (e : Fin 48) (k : EngineFault) (s : State) : Host.Outcome State Fault Refusal :=
  s.run fun d => d.engineFault e.val k

/-- The self-test of a decode engine ends (R187, R190). -/
def execEngineSelftestEnd (e : Fin 48) (pass : Bool) (s : State) : Host.Outcome State Fault Refusal :=
  s.run fun d => d.selftestEnd e pass

/-- CHK judges the decoded sector that has waited longest (R546-R551). -/
def execSectorCheck (s : State) : Host.Outcome State Fault Refusal :=
  s.run fun d => d.sectorCheck

/-- TPE_CTL.ENABLE is written (R238). -/
def execTpeEnable (on : Bool) (s : State) : Host.Outcome State Fault Refusal :=
  s.run fun d =>
    let d := d.wrb .TPE_CTL_ENABLE 0 on
    d.reconFeed d.tpe.queue.length

/-- TPE_CTL.RECON is written (R228). -/
def execTpeReconPermit (on : Bool) (s : State) : Host.Outcome State Fault Refusal :=
  s.run fun d => d.wrb .TPE_CTL_RECON 0 on

/-- A level-2 reconstruction request reaches the TPE (R227, R228, R230). -/
def execReconstructionRequest (r : ReconReq) (s : State) : Host.Outcome State Fault Refusal :=
  s.run fun d => d.reconRequest r

/-- The k-th running reconstruction ends (R229, R230). -/
def execReconstructionEnd (k : Fin 4) (s : State) : Host.Outcome State Fault Refusal :=
  s.run fun d => d.reconEnd k.val

/-- A parity error in an encode context, or in a reconstruction context (R612). -/
def execTpeContextParityError (slot : Fin 32) (k : Option (Fin 4)) (s : State) : Host.Outcome State Fault Refusal :=
  s.run fun d => d.tpeParity slot.val (k.map Fin.val)

/-- HLT, or the write command `cmd`, orders a member moved to a spare slot (R231-R233): the target is chosen and its write begins under
the track locks; its verify record inserts the map entry or tries the next target. -/
def execReallocation (surf : Fin 64) (track : Fin 1048576) (slot : Fin 1024) (gen : Fin 4096) (cmd : Option Word) (s : State) : Host.Outcome State Fault Refusal :=
  s.run fun d => d.reallocate surf.val track.val slot.val gen.val (cmd.map BitVec.toNat)

/-- A defect map entry and its bitmap bit are inserted, or refused at DEFMAX (R236, R237). -/
def execDefectMapInsert (surf : Fin 64) (track : Fin 1048576) (slot : Fin 1024) (kind : Fin 4) (tsurf : Fin 64) (ttrack : Fin 1048576) (tslot : Fin 1024) (s : State) : Host.Outcome State Fault Refusal :=
  s.run fun d => d.defectInsert ⟨surf.val, track.val, slot.val, kind.val, tsurf.val, ttrack.val, tslot.val⟩

end Sys2Proof.Machine
end

