-- ==== Sys2Proof/Machine/CmdDma.lean ====
section
/-! DEFINITION. The commands of the DMA channels and of the management cores' accesses. -/

namespace Sys2Proof.Machine

/-- DMA_CCTL.START is written 1 by master `m` (R535, R539). -/
def execDmaStart (m : Master) (c : Fin 64) (s : State) : Host.Outcome State Fault Refusal :=
  s.run fun d => d.dmaStart m.id c.val

/-- DMA_CCTL.STOP is written 1 (R537, R539). -/
def execDmaStop (c : Fin 64) (s : State) : Host.Outcome State Fault Refusal :=
  s.run fun d => d.dmaStop c.val

/-- DMA_CCTL.RESUME is written 1 (R539, R540). -/
def execDmaResume (c : Fin 64) (s : State) : Host.Outcome State Fault Refusal :=
  s.run fun d => d.dmaResume c.val

/-- A channel fetches and checks its descriptor (R533, R534). -/
def execDescriptorFetch (c : Fin 64) (s : State) : Host.Outcome State Fault Refusal :=
  s.run fun d => d.dmaFetch c.val

/-- `after` cycles later a pace event of channel `c` (R537). -/
def execPaceEvent (c : Fin 64) (p : PaceAt) (after : Nat) (s : State) : Host.Outcome State Fault Refusal :=
  s.run fun d => (d.advance after).dmaPace c.val p

/-- A descriptor or pass of channel `c` ends (R538). -/
def execDescriptorEnd (c : Fin 64) (s : State) : Host.Outcome State Fault Refusal :=
  s.run fun d => d.dmaEnd c.val

/-- An access of channel `c` ends in a bus error after `n` more bytes, on its write or read side (R540). -/
def execDmaBusError (c : Fin 64) (n : Nat) (write : Bool) (s : State) : Host.Outcome State Fault Refusal :=
  s.run fun d => d.dmaFault c.val n write

/-- The halt completes: the bytes each channel had staged are written first (R540). -/
def execDmaHalt (staged : List (Fin 64 × Nat)) (s : State) : Host.Outcome State Fault Refusal :=
  s.run fun d => d.dmaHalt (staged.map fun x => (x.1.val, x.2))

/-- Core `c` accesses `2 ^ size` bytes at `a`; `err`: the memory error the access meets (R518-R522, R526-R528). -/
def execCoreMemoryAccess (c : Fin 8) (k : CoreAccess) (a : BitVec 40) (size : Fin 4) (v : BitVec 64) (err : Option MemErr) (s : State) : Host.Outcome State Fault Refusal :=
  s.run fun d => d.coreAccess c k a.toNat size.val v.toNat err

end Sys2Proof.Machine
end

