-- ==== Sys2Proof/Machine/CmdEngine.lean ====
section
/-! DEFINITION. The commands of the vertical engines but for their micro-ops. -/

namespace Sys2Proof.Machine

/-- `after` cycles later engine `e`'s timer period has passed (R403). -/
def execVeTimerExpiry (e : Fin 12) (after : Nat) (s : State) : Host.Outcome State Fault Refusal :=
  s.run fun d => (d.advance after).veTimer e.val

/-- A write of VE_MBOXHI commits the mailbox with the LO half the master has buffered (R58, R403). -/
def execMailboxWrite (m : Master) (e : Fin 12) (w : Word) (s : State) : Host.Outcome State Fault Refusal :=
  s.run fun d =>
    let lo := d.loHalf m.id .VE_MBOXLO e.val
    (d.dropLo m.id .VE_MBOXLO e.val).mailbox e.val lo w.toNat

/-- VE_ECTL.HALT is written 1 (R408, R410, R413). -/
def execEngineHalt (e : Fin 12) (s : State) : Host.Outcome State Fault Refusal :=
  s.run fun d => d.veHalt e.val

/-- VE_ECTL.RESUME is written 1 (R391, R408). -/
def execEngineResume (e : Fin 12) (s : State) : Host.Outcome State Fault Refusal :=
  s.run fun d => d.veResume e.val

/-- VE_ECTL.CLRMCHK is written 1 (R391, R408). -/
def execEngineClrmchk (e : Fin 12) (s : State) : Host.Outcome State Fault Refusal :=
  s.run fun d => d.veClrMchk e.val

/-- VE_CSCTL.OPEN is written (R391). -/
def execVeStoreOpen (e : Fin 12) (on : Bool) (s : State) : Host.Outcome State Fault Refusal :=
  s.run fun d => d.veStoreOpen e.val on

/-- A master writes `size` bytes at offset `off` of an engine's control store (R391). -/
def execVeStoreWrite (m : Master) (e : Fin 12) (off size : Nat) (v : BitVec 64) (s : State) : Host.Outcome State Fault Refusal :=
  s.run fun d => d.veStoreWrite m e.val off size v.toNat

/-- A master reads an engine's control store; `bad`: the read finds a parity error (R391). -/
def execVeStoreRead (m : Master) (e : Fin 12) (off size : Nat) (bad : Bool) (s : State) : Host.Outcome State Fault Refusal :=
  s.run fun d => d.veStoreRead m e.val off size bad

/-- A write of VE_GHI commits a general register with the LO half the master has buffered (R419). -/
def execGeneralRegisterWrite (m : Master) (e : Fin 12) (g : Fin 32) (w : Word) (s : State) : Host.Outcome State Fault Refusal :=
  s.run fun d =>
    let lo := Tab.getD d.bus.loBuf (holdKey m.id .VE_GLO (32 * e.val + g.val)) (((d.eng e.val).reg g.val) % 2 ^ 32)
    (d.dropLo m.id .VE_GLO (32 * e.val + g.val)).veRegWrite e.val g.val lo w.toNat

/-- `after` cycles later the routine of engine `e` has run its limit (R406). -/
def execRoutineTimeout (e : Fin 12) (after : Nat) (s : State) : Host.Outcome State Fault Refusal :=
  s.run fun d => (d.advance after).routineTimeout e.val

end Sys2Proof.Machine
end

