-- ==== Sys2Proof/Machine/CmdFsq.lean ====
section
/-! DEFINITION. The commands of the format sequencers (07). A microword field acts on the word that the sequencer is issuing, which it reads from the control store: the operand names only the sequencer. -/

namespace Sys2Proof.Machine

/-- SEQ CONT: the next word (R256). -/
def execSeqCont (q : Fin 32) (s : State) : Host.Outcome State Fault Refusal :=
  s.run fun d => d.seqCont q.val

/-- SEQ BR: to TGT where the condition holds (R256). -/
def execSeqBr (q : Fin 32) (s : State) : Host.Outcome State Fault Refusal :=
  s.run fun d => d.seqBr q.val

/-- SEQ WAIT: on to the next word once the condition holds (R256). -/
def execSeqWait (q : Fin 32) (s : State) : Host.Outcome State Fault Refusal :=
  s.run fun d => d.seqWait q.val

/-- SEQ CALL (R256). -/
def execSeqCall (q : Fin 32) (s : State) : Host.Outcome State Fault Refusal :=
  s.run fun d => d.seqCall q.val

/-- SEQ RET (R256). -/
def execSeqRet (q : Fin 32) (s : State) : Host.Outcome State Fault Refusal :=
  s.run fun d => d.seqRet q.val

/-- SEQ DISP: to TGT with the role of the current entry (R256). -/
def execSeqDisp (q : Fin 32) (s : State) : Host.Outcome State Fault Refusal :=
  s.run fun d => d.seqDisp q.val

/-- SEQ END: DRAIN (R256). -/
def execSeqEnd (q : Fin 32) (s : State) : Host.Outcome State Fault Refusal :=
  s.run fun d => d.seqEnd q.val

/-- SEQ ABANDON: cause SOFT (R256, R271). -/
def execSeqAbandon (q : Fin 32) (s : State) : Host.Outcome State Fault Refusal :=
  s.run fun d => d.seqAbandon q.val

/-- RG OPEN at once or at a position compare (R262-R264). -/
def execRgOpen (q : Fin 32) (s : State) : Host.Outcome State Fault Refusal :=
  s.run fun d => d.rgAction q.val true [1, 4, 6]

/-- RG CLOSE (R262-R264). -/
def execRgClose (q : Fin 32) (s : State) : Host.Outcome State Fault Refusal :=
  s.run fun d => d.rgAction q.val false [2, 5, 7]

/-- WG OPEN of the next prepared slot, or an FMTERR (R263, R265). -/
def execWgOpen (q : Fin 32) (s : State) : Host.Outcome State Fault Refusal :=
  s.run fun d => d.wgOpen q.val

/-- WG CLOSE (R262, R265). -/
def execWgClose (q : Fin 32) (s : State) : Host.Outcome State Fault Refusal :=
  s.run fun d => d.wgClose q.val

/-- VG OPEN (R262-R264). -/
def execVgOpen (q : Fin 32) (s : State) : Host.Outcome State Fault Refusal :=
  s.run fun d => d.vgAction q.val true [1, 4, 6]

/-- VG CLOSE (R262-R264). -/
def execVgClose (q : Fin 32) (s : State) : Host.Outcome State Fault Refusal :=
  s.run fun d => d.vgAction q.val false [2, 5, 7]

/-- `after` cycles later the action at the head of a gate's queue acts on its edge (R253, R262, R265). -/
def execGateActionAct (q : Fin 32) (g : GateName) (after : Nat) (s : State) : Host.Outcome State Fault Refusal :=
  s.run fun d => (d.advance after).gateAct q.val g

/-- SVG on (R254). -/
def execSvgOn (q : Fin 32) (s : State) : Host.Outcome State Fault Refusal :=
  s.run fun d => d.svgOn q.val

/-- SVG off in a calibration job; ignored in another (R264). -/
def execSvgOff (q : Fin 32) (s : State) : Host.Outcome State Fault Refusal :=
  s.run fun d => d.svgOff q.val

/-- RTE ROUTE: both lanes of the pair (R258). -/
def execRteRoute (q : Fin 32) (s : State) : Host.Outcome State Fault Refusal :=
  s.run fun d => d.rteRoute q.val 1

/-- RTE ROUTELEAD: the lead lane only (R258). -/
def execRteRoutelead (q : Fin 32) (s : State) : Host.Outcome State Fault Refusal :=
  s.run fun d => d.rteRoute q.val 2

/-- RTE RELEASE (R258). -/
def execRteRelease (q : Fin 32) (s : State) : Host.Outcome State Fault Refusal :=
  s.run fun d => d.rteRelease q.val

/-- SYN ARM (R267). -/
def execSynArm (q : Fin 32) (s : State) : Host.Outcome State Fault Refusal :=
  s.run fun d => d.synArm q.val

/-- SYN ARMLEAD (R258). -/
def execSynArmlead (q : Fin 32) (s : State) : Host.Outcome State Fault Refusal :=
  s.run fun d => d.synArmLead q.val

/-- SYN RESTART (R268). -/
def execSynRestart (q : Fin 32) (s : State) : Host.Outcome State Fault Refusal :=
  s.run fun d => d.synRestart q.val

/-- SYN CANCEL (R268). -/
def execSynCancel (q : Fin 32) (s : State) : Host.Outcome State Fault Refusal :=
  s.run fun d => d.synCancel q.val

/-- JOP FETCH (R248). -/
def execJopFetch (q : Fin 32) (s : State) : Host.Outcome State Fault Refusal :=
  s.run fun d => d.jopFetch q.val

/-- JOP DONE (R249). -/
def execJopDone (q : Fin 32) (s : State) : Host.Outcome State Fault Refusal :=
  s.run fun d => d.jopDone q.val

/-- JOP RETURN (R258). -/
def execJopReturn (q : Fin 32) (s : State) : Host.Outcome State Fault Refusal :=
  s.run fun d => d.jopReturn q.val

/-- WDS PREP (R226, R284). `attempt`: writes of the member in the command before this one (R304); `stored`: the stripe's stored
parity where a new encode context starts from it. -/
def execWdsPrep (q : Fin 32) (attempt : Nat) (stored : Option StoredParity) (s : State) : Host.Outcome State Fault Refusal :=
  s.run fun d => d.wdsPrep q.val attempt stored

/-- WDS CANCEL (R258). -/
def execWdsCancel (q : Fin 32) (s : State) : Host.Outcome State Fault Refusal :=
  s.run fun d => d.wdsCancel q.val

/-- LFZ freeze (R264). -/
def execLfzFreeze (q : Fin 32) (s : State) : Host.Outcome State Fault Refusal :=
  s.run fun d => d.lfz q.val 1 true

/-- LFZ release (R264). -/
def execLfzRelease (q : Fin 32) (s : State) : Host.Outcome State Fault Refusal :=
  s.run fun d => d.lfz q.val 2 false

/-- HTR write heat (R270, R337). -/
def execHtrWriteHeat (q : Fin 32) (s : State) : Host.Outcome State Fault Refusal :=
  s.run fun d => d.htr q.val 1

/-- HTR read heat (R270, R337). -/
def execHtrReadHeat (q : Fin 32) (s : State) : Host.Outcome State Fault Refusal :=
  s.run fun d => d.htr q.val 2

/-- POST STATUS (R258, R279). -/
def execFsqPostStatus (q : Fin 32) (s : State) : Host.Outcome State Fault Refusal :=
  s.run fun d => d.fsqPost q.val 1 true false false

/-- POST IRQ (R258). -/
def execFsqPostIrq (q : Fin 32) (s : State) : Host.Outcome State Fault Refusal :=
  s.run fun d => d.fsqPost q.val 2 false true false

/-- POST EVENT (R258, R279). -/
def execFsqPostEvent (q : Fin 32) (s : State) : Host.Outcome State Fault Refusal :=
  s.run fun d => d.fsqPost q.val 3 false false true

/-- POST STATUS and IRQ (R258). -/
def execFsqPostStatusIrq (q : Fin 32) (s : State) : Host.Outcome State Fault Refusal :=
  s.run fun d => d.fsqPost q.val 4 true true false

/-- STAMP (R255). -/
def execStamp (q : Fin 32) (s : State) : Host.Outcome State Fault Refusal :=
  s.run fun d => d.stampNow q.val

/-- ACOP LDS: JSTART + IMMA (R258). -/
def execAcopLds (q : Fin 32) (s : State) : Host.Outcome State Fault Refusal :=
  s.run fun d => d.acLoad q.val 1 fun d _ w => d.jstart q.val + mImmA w

/-- ACOP LDR: old target + IMMA (R258). -/
def execAcopLdr (q : Fin 32) (s : State) : Host.Outcome State Fault Refusal :=
  s.run fun d => d.acLoad q.val 2 fun _ x w => x.target + mImmA w

/-- ACOP LDN: present angle of frame ACFR + IMMA (R258). -/
def execAcopLdn (q : Fin 32) (s : State) : Host.Outcome State Fault Refusal :=
  s.run fun d => d.acLoad q.val 3 fun d _ w => d.frameAngle (bits w 118 2) (d.jobHead q.val) + mImmA w

/-- ACOP LDI: IMMA (R258). -/
def execAcopLdi (q : Fin 32) (s : State) : Host.Outcome State Fault Refusal :=
  s.run fun d => d.acLoad q.val 4 fun _ _ w => mImmA w

/-- ACOP DISARM (R258). -/
def execAcopDisarm (q : Fin 32) (s : State) : Host.Outcome State Fault Refusal :=
  s.run fun d => d.acDisarm q.val

/-- PCOP LDS: SLOT x L + IMMP (R258). -/
def execPcopLds (q : Fin 32) (s : State) : Host.Outcome State Fault Refusal :=
  s.run fun d => d.pcLoad q.val 1 fun d j _ => d.rd .FSQ_ENTRY_SLOT q.val * j.l

/-- PCOP LDE: (SLOT + 1) x L + IMMP (R258). -/
def execPcopLde (q : Fin 32) (s : State) : Host.Outcome State Fault Refusal :=
  s.run fun d => d.pcLoad q.val 2 fun d j _ => (d.rd .FSQ_ENTRY_SLOT q.val + 1) * j.l

/-- PCOP LDA: IMMP (R258). -/
def execPcopLda (q : Fin 32) (s : State) : Host.Outcome State Fault Refusal :=
  s.run fun d => d.pcLoad q.val 3 fun _ _ _ => 0

/-- PCOP ADD: old target + IMMP (R258). -/
def execPcopAdd (q : Fin 32) (s : State) : Host.Outcome State Fault Refusal :=
  s.run fun d => d.pcLoad q.val 4 fun _ _ x => x.target

/-- PCOP DISARM (R258). -/
def execPcopDisarm (q : Fin 32) (s : State) : Host.Outcome State Fault Refusal :=
  s.run fun d => d.pcDisarm q.val

/-- `after` cycles later the counter of a position compare reaches its target (R259); `b`: PCB. -/
def execPositionCompareMeet (q : Fin 32) (b : Bool) (after : Nat) (s : State) : Host.Outcome State Fault Refusal :=
  s.run fun d => (d.advance after).pcMeet q.val b

/-- Load IMMC into CNT0 or CNT1 (R258). -/
def execCounterLoad (q : Fin 32) (c1 : Bool) (s : State) : Host.Outcome State Fault Refusal :=
  s.run fun d => d.cntOp q.val c1 1 fun _ i => i

/-- Decrement CNT0 or CNT1, holding at 0 (R258). -/
def execCounterDecrement (q : Fin 32) (c1 : Bool) (s : State) : Host.Outcome State Fault Refusal :=
  s.run fun d => d.cntOp q.val c1 2 fun n _ => n - 1

/-- Increment CNT0 or CNT1, wrapping at 65,535 (R258). -/
def execCounterIncrement (q : Fin 32) (c1 : Bool) (s : State) : Host.Outcome State Fault Refusal :=
  s.run fun d => d.cntOp q.val c1 3 fun n _ => n + 1

/-- A word with BRK is fetched (R243). -/
def execFsqBreakpoint (q : Fin 32) (s : State) : Host.Outcome State Fault Refusal :=
  s.run fun d => d.fsqBreak q.val

/-- A microword fetch finds a parity error (R275). -/
def execMicrowordParityError (q : Fin 32) (s : State) : Host.Outcome State Fault Refusal :=
  s.run fun d => d.fetchParity q.val

/-- A job has been busy for JOBREV reference indices (R271). -/
def execJobWatchdog (q : Fin 32) (s : State) : Host.Outcome State Fault Refusal :=
  s.run fun d => d.jobWatchdog q.val

/-- DRAIN ends: the sequencer is IDLE (R243). -/
def execDrainEnd (q : Fin 32) (s : State) : Host.Outcome State Fault Refusal :=
  s.run fun d => d.drainEnd q.val

/-- FSQ_CTL.ENABLE is written (R243). -/
def execFsqEnable (q : Fin 32) (on : Bool) (s : State) : Host.Outcome State Fault Refusal :=
  s.run fun d => d.wrb .FSQ_CTL_ENABLE q.val on

/-- FSQ_CTL.STOP is written 1 (R271). -/
def execFsqStop (q : Fin 32) (s : State) : Host.Outcome State Fault Refusal :=
  s.run fun d => d.abandon q.val 1

/-- FSQ_CTL.CLRMCHK is written 1 (R243). -/
def execFsqClrmchk (q : Fin 32) (s : State) : Host.Outcome State Fault Refusal :=
  s.run fun d => d.clrMchk q.val

/-- FSQ_CTL.STEP is written 1 (R243). -/
def execFsqStep (q : Fin 32) (s : State) : Host.Outcome State Fault Refusal :=
  s.run fun d => d.fsqStep q.val

/-- FSQ_CTL.RESUME is written 1 (R243). -/
def execFsqResume (q : Fin 32) (s : State) : Host.Outcome State Fault Refusal :=
  s.run fun d => d.fsqResume q.val

/-- FSQ_CSCTL.OPEN is written (R276). -/
def execFsqStoreOpen (a : Fin 4) (on : Bool) (s : State) : Host.Outcome State Fault Refusal :=
  s.run fun d => d.storeOpen a.val on

/-- All eight sequencers of an actuator are quiet (R276). -/
def execFsqStoreOpened (a : Fin 4) (s : State) : Host.Outcome State Fault Refusal :=
  s.run fun d => d.storeOpened a.val

/-- A master writes `size` bytes at offset `off` of an actuator's control store (R276). -/
def execFsqStoreWrite (m : Master) (a : Fin 4) (off size : Nat) (v : BitVec 64) (s : State) : Host.Outcome State Fault Refusal :=
  s.run fun d => d.fsqStoreWrite m a.val off size v.toNat

/-- A master reads the control store; `bad`: the read finds a parity error (R277). -/
def execFsqStoreRead (m : Master) (a : Fin 4) (off size : Nat) (bad : Bool) (s : State) : Host.Outcome State Fault Refusal :=
  s.run fun d => d.fsqStoreRead m a.val off size bad

end Sys2Proof.Machine
end

