-- ==== Sys2Proof/Machine/CmdHealth.lean ====
section
/-! DEFINITION. The commands of health, ageing and re-planning, and the verify record. -/

namespace Sys2Proof.Machine

/-- The verify of slot `n` written by head slot `q` is judged and its record posted; `stream` is what the trail lane read (R299-R307,
R585-R589, R599). -/
def execVerifyRecord (q : Fin 32) (n : Fin 1024) (stream : Option Codes) (s : State) : Host.Outcome State Fault Refusal :=
  s.run fun d => (d.verifyRecord q.val n.val stream).writesProven

/-- A write of HLT_RWHI commits a rewrite request with the LO half the master has buffered (R582). -/
def execRewriteRequest (m : Master) (w : Word) (s : State) : Host.Outcome State Fault Refusal :=
  s.run fun d =>
    let lo := d.loHalf m.id .HLT_RWLO 0
    (d.dropLo m.id .HLT_RWLO 0).rewriteRequest m.id lo w.toNat

/-- HLT serves its first waiting request (R583, R584). -/
def execRewriteServe (s : State) : Host.Outcome State Fault Refusal :=
  s.run fun d => d.rewriteServe

/-- HLT chooses the next track for patrol, refresh or scrub (R593). -/
def execPatrolSelect (s : State) : Host.Outcome State Fault Refusal :=
  s.run fun d => d.patrolSelect

/-- A write of HLT_WQACK (R594, R596). -/
def execWorkAck (w : Word) (s : State) : Host.Outcome State Fault Refusal :=
  s.run fun d => d.workAck w.toNat

/-- `after` cycles later the JOURNAL or CHECKPOINT item of sequence `n` has waited TMO seconds (R596). -/
def execWorkTimeout (n : Fin 65536) (after : Nat) (s : State) : Host.Outcome State Fault Refusal :=
  s.run fun d => (d.advance after).workTimeout n.val

/-- `after` cycles later an hour has passed since the first failed patrol or scrub (R594). -/
def execWorkRetry (after : Nat) (s : State) : Host.Outcome State Fault Refusal :=
  s.run fun d => (d.advance after).workRetry

/-- `after` cycles later CKPT minutes of powered time have passed (R580). -/
def execCheckpointTimer (after : Nat) (s : State) : Host.Outcome State Fault Refusal :=
  s.run fun d => (d.advance after).checkpointDue

/-- Statistic changes reach the DRAM records (R577). -/
def execStatisticFlush (s : State) : Host.Outcome State Fault Refusal :=
  s.run fun d => d.statFlush

/-- `after` cycles later the 32 delay monitors are read, in picoseconds, once a second (R601-R603). -/
def execSlackReading (sl : List Int) (after : Nat) (s : State) : Host.Outcome State Fault Refusal :=
  s.run fun d => (d.advance after).periodic .slack 1250000000 fun d => d.slackReading sl

/-- `after` cycles later a regulator has not acknowledged within 1 ms (R603). -/
def execAvsTimeout (after : Nat) (s : State) : Host.Outcome State Fault Refusal :=
  s.run fun d => (d.advance after).avsTimeout

/-- The core regulator acknowledges (R602). -/
def execAvsAcknowledge (s : State) : Host.Outcome State Fault Refusal :=
  s.run fun d => d.avsAck

/-- `after` cycles later the eight die sensors are read, in degrees Celsius, every 100 ms (R601, R627). -/
def execTemperatureReading (ts : List Int) (after : Nat) (s : State) : Host.Outcome State Fault Refusal :=
  s.run fun d => (d.advance after).periodic .dieTemp 125000000 fun d => d.temperature ts

/-- 168 powered hours have passed (R604, R605, R607). -/
def execWeeklyProjection (s : State) : Host.Outcome State Fault Refusal :=
  s.run fun d => d.weekly

/-- HLT looks at whether a head is due for calibration (R600). -/
def execCalibrationPlan (h : Fin 128) (s : State) : Host.Outcome State Fault Refusal :=
  s.run fun d => d.calPlan h.val

/-- `after` cycles later a powered hour has passed (HLT_POH). -/
def execPoweredHour (after : Nat) (s : State) : Host.Outcome State Fault Refusal :=
  s.run fun d => (d.advance after).periodic .hour (3600 * 1250000000) Dev.poweredHour

end Sys2Proof.Machine
end

