-- ==== Sys2Proof/Machine/CmdHost.lean ====
section
/-! DEFINITION. The commands of the host interface (12). -/

namespace Sys2Proof.Machine

/-- The Data Link Layer of a port goes inactive: a controller reset (R423, R69). -/
def execLinkDown (p : Fin 2) (s : State) : Host.Outcome State Fault Refusal :=
  s.run fun d =>
    if !d.portExists p.val || !d.on .HIF_LNKSTAT_UP p.val then d
    else ((d.controllerReset p.val 3).linkDown p.val).count .HIF_PERR_LINKDOWN p.val

/-- A Function Level Reset: a controller reset, and the function's configuration space is as after reset (R423). -/
def execFunctionLevelReset (p : Fin 2) (s : State) : Host.Outcome State Fault Refusal :=
  s.run fun d => if d.portExists p.val then (d.controllerReset p.val 2).configReset p.val else d

/-- CC.EN goes from 0 to 1, with the CC, AQA, ASQ and ACQ the host has written (R425, R426). -/
def execControllerEnable (p : Fin 2) (cc aqa : Word) (asq acq : BitVec 64) (s : State) : Host.Outcome State Fault Refusal :=
  s.run fun d => d.controllerEnable p.val cc.toNat aqa.toNat asq.toNat acq.toNat

/-- CC.EN goes from 1 to 0 (R457). -/
def execControllerReset (p : Fin 2) (s : State) : Host.Outcome State Fault Refusal :=
  s.run fun d => if bit (d.port p.val).cc 0 then d.controllerReset p.val 2 else d

/-- Both controllers are reset, their links retrain, and namespace-scoped features are as after reset (R457, R673). -/
def execNvmSubsystemReset (s : State) : Host.Outcome State Fault Refusal :=
  s.run fun d =>
    let d := d.portList.foldl (fun d p => ((d.controllerReset p 2).configReset p).linkDown p) d
    { d with hif := { d.hif with feats := [] } }

/-- CC.SHN is 0b01: fetching stops, and SHST sets after the commands in flight and the saves (R428). -/
def execNormalShutdown (p : Fin 2) (s : State) : Host.Outcome State Fault Refusal :=
  s.run fun d => d.normalShutdown p.val

/-- CC.SHN is 0b10 (R428). -/
def execAbruptShutdown (p : Fin 2) (s : State) : Host.Outcome State Fault Refusal :=
  s.run fun d => d.abruptShutdown p.val

/-- A fetch cycle: the entries that the arbitration of port 0 and of port 1 finds at the head of the queue it selects, 16 dwords
each (R429-R431, R470). -/
def execCommandFetch (e0 e1 : List Word) (s : State) : Host.Outcome State Fault Refusal :=
  s.run fun d => (d.advance d.toFetch).fetchCycle (e0.map BitVec.toNat) (e1.map BitVec.toNat)

/-- The next admin command is Delete I/O Submission Queue (R456). -/
def execDeleteIoSq (s : State) : Host.Outcome State Fault Refusal :=
  s.run fun d => d.adminRow 0x00 Dev.deleteSq

/-- The next admin command is Create I/O Submission Queue (R432). -/
def execCreateIoSq (s : State) : Host.Outcome State Fault Refusal :=
  s.run fun d => d.adminRow 0x01 Dev.createSq

/-- The next admin command is Delete I/O Completion Queue (R432). -/
def execDeleteIoCq (s : State) : Host.Outcome State Fault Refusal :=
  s.run fun d => d.adminRow 0x04 Dev.deleteCq

/-- The next admin command is Create I/O Completion Queue (R432). -/
def execCreateIoCq (s : State) : Host.Outcome State Fault Refusal :=
  s.run fun d => d.adminRow 0x05 Dev.createCq

/-- The next admin command is Get Log Page: it enters the ring, and firmware puts the page at `base` (R438, R439, R460). -/
def execGetLogPage (base : BitVec 40) (page : List Byte) (s : State) : Host.Outcome State Fault Refusal :=
  s.run fun d => d.firmwareRow 0x02 fun d a i => d.getLogPage a i base.toNat page

/-- The next admin command is Identify (R432, R441, R447). -/
def execIdentify (s : State) : Host.Outcome State Fault Refusal :=
  s.run fun d => d.adminRow 0x06 Dev.identify

/-- The next admin command is Abort (R455). -/
def execAbort (s : State) : Host.Outcome State Fault Refusal :=
  s.run fun d => d.adminRow 0x08 Dev.abort

/-- The next admin command is Set Features (R434-R436). -/
def execSetFeatures (s : State) : Host.Outcome State Fault Refusal :=
  s.run fun d => d.adminRow 0x09 Dev.setFeatures

/-- The next admin command is Get Features (R434). -/
def execGetFeatures (s : State) : Host.Outcome State Fault Refusal :=
  s.run fun d => d.adminRow 0x0A Dev.getFeatures

/-- The next admin command is Asynchronous Event Request (R432). -/
def execAsyncEventRequest (s : State) : Host.Outcome State Fault Refusal :=
  s.run fun d => d.adminRow 0x0C Dev.eventRequest

/-- The next admin command is Firmware Commit: it enters the ring for firmware (R432, R460). -/
def execFirmwareCommit (s : State) : Host.Outcome State Fault Refusal :=
  s.run fun d => d.firmwareRow 0x10 fun d _ _ => d

/-- The next admin command is Firmware Image Download: it enters the ring for firmware (R432, R460). -/
def execFirmwareImageDownload (s : State) : Host.Outcome State Fault Refusal :=
  s.run fun d => d.firmwareRow 0x11 fun d _ _ => d

/-- The next admin command is Diagnostic Window Unlock (R461). -/
def execDiagnosticWindowUnlock (s : State) : Host.Outcome State Fault Refusal :=
  s.run fun d => d.adminRow 0xC4 Dev.windowUnlock

/-- The next admin command is Ledger Read: it enters the ring, and firmware puts the records at `base` (R462). -/
def execLedgerRead (base : BitVec 40) (s : State) : Host.Outcome State Fault Refusal :=
  s.run fun d => d.firmwareRow 0xC6 fun d a i => d.ledgerRead a i base.toNat

/-- HIF_ADMDONE is written; `data` is what HIF then moves from the host for an image download (R460). -/
def execAdminDone (k : Fin 1024) (data : List Byte) (s : State) : Host.Outcome State Fault Refusal :=
  s.run fun d => d.adminDone k.val data

/-- HIF_CTL.PAUSE is written (R466). -/
def execHifPause (on : Bool) (s : State) : Host.Outcome State Fault Refusal :=
  s.run fun d => d.wrb .HIF_CTL_PAUSE 0 on

/-- Flush ends at once with success (R452). -/
def execFlush (fseq : BitVec 32) (s : State) : Host.Outcome State Fault Refusal :=
  s.run fun d => d.ioCommand fseq.toNat opFlush none

/-- Write is checked and handed to a command engine (R27, R412, R433). -/
def execWrite (fseq : BitVec 32) (s : State) : Host.Outcome State Fault Refusal :=
  s.run fun d => d.ioCommand fseq.toNat opWrite none

/-- Read is checked and handed to a command engine (R23, R412, R433). -/
def execRead (fseq : BitVec 32) (s : State) : Host.Outcome State Fault Refusal :=
  s.run fun d => d.ioCommand fseq.toNat opRead none

/-- Write Zeroes is checked and handed to a command engine (R433). -/
def execWriteZeroes (fseq : BitVec 32) (s : State) : Host.Outcome State Fault Refusal :=
  s.run fun d => d.ioCommand fseq.toNat opWriteZeroes none

/-- Verify is checked and handed to a command engine (R433). -/
def execVerify (fseq : BitVec 32) (s : State) : Host.Outcome State Fault Refusal :=
  s.run fun d => d.ioCommand fseq.toNat opVerify none

/-- Zone Management Send, Open (R433). -/
def execZoneOpen (fseq : BitVec 32) (s : State) : Host.Outcome State Fault Refusal :=
  s.run fun d => d.ioCommand fseq.toNat opZoneSend (some 3)

/-- Zone Management Send, Close (R433). -/
def execZoneClose (fseq : BitVec 32) (s : State) : Host.Outcome State Fault Refusal :=
  s.run fun d => d.ioCommand fseq.toNat opZoneSend (some 1)

/-- Zone Management Send, Finish (R448). -/
def execZoneFinish (fseq : BitVec 32) (s : State) : Host.Outcome State Fault Refusal :=
  s.run fun d => d.ioCommand fseq.toNat opZoneSend (some 2)

/-- Zone Management Send, Reset (R448). -/
def execZoneReset (fseq : BitVec 32) (s : State) : Host.Outcome State Fault Refusal :=
  s.run fun d => d.ioCommand fseq.toNat opZoneSend (some 4)

/-- Zone Management Send, Offline (R448). -/
def execZoneOffline (fseq : BitVec 32) (s : State) : Host.Outcome State Fault Refusal :=
  s.run fun d => d.ioCommand fseq.toNat opZoneSend (some 5)

/-- Zone Management Receive, Report Zones (R433). -/
def execZoneManagementReceive (fseq : BitVec 32) (s : State) : Host.Outcome State Fault Refusal :=
  s.run fun d => d.ioCommand fseq.toNat opZoneReceive none

/-- Zone Append is checked and handed to a command engine (R433, R450). -/
def execZoneAppend (fseq : BitVec 32) (s : State) : Host.Outcome State Fault Refusal :=
  s.run fun d => d.ioCommand fseq.toNat opZoneAppend none

/-- Zone Attribute is checked and handed to a command engine (R463, R562). -/
def execZoneAttribute (fseq : BitVec 32) (s : State) : Host.Outcome State Fault Refusal :=
  s.run fun d => d.ioCommand fseq.toNat opZoneAttribute none

/-- The blocks asked of the host arrive, data and metadata apart; the command is offered again with DATAIN (R442, R443, R458). -/
def execWriteDataIn (fseq : BitVec 32) (data md : List (List Byte)) (s : State) : Host.Outcome State Fault Refusal :=
  s.run fun d => d.dataIn fseq.toNat data md

/-- A submission-queue tail or completion-queue head doorbell is written (R422, R424). -/
def execDoorbellWrite (p : Fin 2) (q : Fin 257) (cq : Bool) (v : BitVec 16) (s : State) : Host.Outcome State Fault Refusal :=
  s.run fun d => d.doorbell p.val q.val cq v.toNat

/-- `after` cycles later the aggregation time of a vector has passed (R434). -/
def execInterruptCoalescingTimeout (p : Fin 2) (v : Fin 257) (after : Nat) (s : State) : Host.Outcome State Fault Refusal :=
  s.run fun d => (d.advance after).coalesceTimeout p.val v.val

/-- A port's link trains (R420, R421). -/
def execPcieLinkUp (p : Fin 2) (speed : Fin 6) (width : Fin 5) (s : State) : Host.Outcome State Fault Refusal :=
  s.run fun d =>
    if !d.portExists p.val || d.on .HIF_LNKSTAT_UP p.val then d
    else ((d.wr .HIF_LNKSTAT_UP p.val 1).wr .HIF_LNKSTAT_SPEED p.val speed.val).wr .HIF_LNKSTAT_WIDTH p.val width.val

/-- AER logs an error (R422). -/
def execPcieError (p : Fin 2) (uncorrectable : Bool) (s : State) : Host.Outcome State Fault Refusal :=
  s.run fun d =>
    if !d.portExists p.val then d
    else if uncorrectable then d.count .HIF_PERR_UNCOR p.val else d.count .HIF_PERR_CORR p.val

/-- The host reads or writes a dword of configuration space, or a word of the MSI-X table in BAR4 (R421, R422). -/
def execPcieConfigAccess (p : Fin 2) (a : ConfigAccess) (s : State) : Host.Outcome State Fault Refusal :=
  s.run fun d => d.configAccess p.val a

/-- TLER x 100 ms have passed since a command's fetch: recovery of its sectors stops (R453). -/
def execRecoveryTimeLimit (fseq : BitVec 32) (s : State) : Host.Outcome State Fault Refusal :=
  s.run fun d => d.tlerPasses fseq.toNat

/-- The link accepts the last byte of a transfer of a command (R26, R459). -/
def execHostTransferDone (fseq : BitVec 32) (s : State) : Host.Outcome State Fault Refusal :=
  s.run fun d => d.transferDone fseq.toNat

/-- PERSTp_N is low: the link goes down and the controller is reset (R722). -/
def execFundamentalReset (p : Fin 2) (s : State) : Host.Outcome State Fault Refusal :=
  s.run fun d =>
    if !d.portExists p.val then d
    else
      let d := if d.on .HIF_LNKSTAT_UP p.val then d.count .HIF_PERR_LINKDOWN p.val else d
      ((d.controllerReset p.val 3).configReset p.val).linkDown p.val

/-- The Cicada condition holds (R437, R502). -/
def execCicadaEntry (s : State) : Host.Outcome State Fault Refusal :=
  s.run fun d => d.cicadaEntry d.hostRests

end Sys2Proof.Machine
end

