-- ==== Sys2Proof/Machine/CmdLanes.lean ====
section
/-! DEFINITION. The commands of the reader inputs, the crossbar and the lanes (04), and the strobes (02, 03). -/

namespace Sys2Proof.Machine

/-- `after` cycles later strobes fall, and every buffered value due at them applies (R45, R46, R89-R91). -/
def execDeferredApply (after : Nat) (s : State) : Host.Outcome State Fault Refusal :=
  s.run fun d => (d.advance after).strobesNow

/-- `after` cycles later the strobe of a route falls; what else is due at it applies in the same cycle (R46, R110, R113). -/
def execRouteApply (after : Nat) (s : State) : Host.Outcome State Fault Refusal :=
  s.run fun d => (d.advance after).strobesNow

/-- A write of RDI_CTL (R142). -/
def execRdiCtlWrite (n : Fin 256) (w : Word) (s : State) : Host.Outcome State Fault Refusal :=
  s.run fun d => d.rdiCtl n.val w.toNat

/-- An input's common mode has stayed open, or shorted, for 1 us (R108). -/
def execReaderInputFault (n : Fin 256) (isOpen : Bool) (s : State) : Host.Outcome State Fault Refusal :=
  s.run fun d => d.inputFault n.val isOpen

/-- The open, or short, condition of an input ends (R108). -/
def execReaderInputFaultClear (n : Fin 256) (isOpen : Bool) (s : State) : Host.Outcome State Fault Refusal :=
  s.run fun d => d.inputClear n.val isOpen

/-- A lane has just taken a run of overrange samples, grid indices `first` to `last` (R126, R127). -/
def execOverrange (l : Fin 64) (first last : Nat) (s : State) : Host.Outcome State Fault Refusal :=
  s.run fun d => d.overrange l.val first last

/-- LANE_CTL.FORCEOUT is written 1 (R135). -/
def execLaneForceout (n : Fin 64) (s : State) : Host.Outcome State Fault Refusal :=
  s.run fun d => d.laneForceout n.val

/-- LANE_CTL.READMIT is written 1 (R135). -/
def execLaneReadmit (n : Fin 64) (s : State) : Host.Outcome State Fault Refusal :=
  s.run fun d => d.laneReadmit n.val

/-- LANE_CTL.RECAL is written 1 (R135). -/
def execLaneRecal (n : Fin 64) (s : State) : Host.Outcome State Fault Refusal :=
  s.run fun d => d.laneRecal n.val

/-- A RECAL that waited for its lane acts (R135). -/
def execDeferredRecal (n : Fin 64) (s : State) : Host.Outcome State Fault Refusal :=
  s.run fun d => d.deferredRecal n.val

/-- A lane fault is detected (R136). -/
def execLaneFault (n : Fin 64) (k : LaneFault) (s : State) : Host.Outcome State Fault Refusal :=
  s.run fun d => d.laneFault n.val k

/-- The calibration sequence of a lane ends (R137, R139). -/
def execLaneCalibrationEnd (n : Fin 64) (c : LaneCal) (s : State) : Host.Outcome State Fault Refusal :=
  s.run fun d => d.laneCalEnd n c

/-- The servo gate of an even lane opens at P(w) - SPG (R120, R254). -/
def execServoGateOpen (l : Fin 64) (s : State) : Host.Outcome State Fault Refusal :=
  s.run fun d => d.servoGateOpen l.val

/-- The servo gate closes at P(w) + SVT (R120, R123). -/
def execServoGateClose (l : Fin 64) (s : State) : Host.Outcome State Fault Refusal :=
  s.run fun d => d.servoGateClose l.val

end Sys2Proof.Machine
end

