-- ==== Sys2Proof/Machine/CmdMemory.lean ====
section
/-! DEFINITION. The commands of the memory system (14), but for core accesses. -/

namespace Sys2Proof.Machine

/-- MEM_DRCFG is written with INIT 1 (R514). -/
def execDramInit (raw : BitVec 5) (rate : BitVec 2) (s : State) : Host.Outcome State Fault Refusal :=
  s.run fun d => d.dramInit raw.toNat rate.toNat

/-- Training ends (R514, R515). -/
def execDramInitEnd (ok : Bool) (s : State) : Host.Outcome State Fault Refusal :=
  s.run fun d => d.dramReady ok

/-- The controller refreshes the devices: no content and no state changes (R516). -/
def execDramRefresh (s : State) : Host.Outcome State Fault Refusal :=
  s.run fun d => d

/-- MEM_L1CTL.INV is written 1 (R520). -/
def execL1Invalidate (c : Fin 8) (s : State) : Host.Outcome State Fault Refusal :=
  s.run fun d => d.l1Invalidate c.val

/-- MEM_L1CTL.IEN and DEN are written (R520). -/
def execL1Enable (c : Fin 8) (ien den : Bool) (s : State) : Host.Outcome State Fault Refusal :=
  s.run fun d => d.l1Enable c.val ien den

/-- MEM_L2CTL.ENABLE is written 1 (R520). -/
def execL2Enable (s : State) : Host.Outcome State Fault Refusal :=
  s.run fun d => d.l2Enable

/-- MEM_L2CTL.ENABLE is written 0 (R524). -/
def execL2Disable (s : State) : Host.Outcome State Fault Refusal :=
  s.run fun d => d.l2Disable

/-- Every line is clean and invalid, and the L2 disables (R524). -/
def execL2DisableEnd (s : State) : Host.Outcome State Fault Refusal :=
  s.run fun d => d.l2Disabled

/-- MEM_L2MAINT: CLEAN of one line, `line` where the way holds one, or of all (R523). -/
def execL2Clean (all : Bool) (set : Fin 32768) (way : Fin 16) (line : Option (BitVec 40)) (s : State) : Host.Outcome State Fault Refusal :=
  s.run fun d => d.l2Maint 1 all set.val way.val (line.map BitVec.toNat)

/-- MEM_L2MAINT: INVAL, which acts as CLEANINV while the L2 is enabled (R523). -/
def execL2Inval (all : Bool) (set : Fin 32768) (way : Fin 16) (line : Option (BitVec 40)) (s : State) : Host.Outcome State Fault Refusal :=
  s.run fun d => d.l2Maint 2 all set.val way.val (line.map BitVec.toNat)

/-- MEM_L2MAINT: CLEANINV (R523). -/
def execL2Cleaninv (all : Bool) (set : Fin 32768) (way : Fin 16) (line : Option (BitVec 40)) (s : State) : Host.Outcome State Fault Refusal :=
  s.run fun d => d.l2Maint 3 all set.val way.val (line.map BitVec.toNat)

/-- The maintenance operation completes (R523). -/
def execL2MaintEnd (s : State) : Host.Outcome State Fault Refusal :=
  s.run fun d => d.l2MaintEnd

/-- cbo.clean on core `c`: the caches are shared, so whose it is does not show (R525). -/
def execCboClean (c : Fin 8) (a : BitVec 40) (s : State) : Host.Outcome State Fault Refusal :=
  s.run fun d =>
    let _ := c
    d.cboClean a.toNat

/-- cbo.flush: as cbo.clean, and the line leaves the caches (R525). -/
def execCboFlush (c : Fin 8) (a : BitVec 40) (s : State) : Host.Outcome State Fault Refusal :=
  s.run fun d =>
    let _ := c
    d.cboClean a.toNat

/-- cbo.inval acts as cbo.flush (R525). -/
def execCboInval (c : Fin 8) (a : BitVec 40) (s : State) : Host.Outcome State Fault Refusal :=
  s.run fun d =>
    let _ := c
    d.cboClean a.toNat

/-- cbo.zero (R525). -/
def execCboZero (c : Fin 8) (a : BitVec 40) (s : State) : Host.Outcome State Fault Refusal :=
  s.run fun d => d.cboZero c.val a.toNat

/-- `after` cycles later a leak period may have passed: every MEM_LEAK.PERIOD seconds each bucket loses one (R530). -/
def execBucketLeak (after : Nat) (s : State) : Host.Outcome State Fault Refusal :=
  s.run fun d => (d.advance after).leakDue

/-- A write of MEM_FLIPCTL (R531). -/
def execFlipArm (w : Word) (s : State) : Host.Outcome State Fault Refusal :=
  s.run fun d => d.flipCtl w.toNat

/-- The scrubber reads the next words and finds errors (R526, R532). -/
def execScrubRead (words : Nat) (errs : List MemErr) (s : State) : Host.Outcome State Fault Refusal :=
  s.run fun d => d.scrubRead words (errs.map fun e => (e.array.val, e.addr.toNat, e.hard))

/-- A core executes fence.i (R519). -/
def execFenceI (c : Fin 8) (s : State) : Host.Outcome State Fault Refusal :=
  s.run fun d => d.fenceI c.val

end Sys2Proof.Machine
end

