-- ==== Sys2Proof/Machine/CmdMicro.lean ====
section
/-! DEFINITION. The commands of the vertical engines' dispatch and micro-ops. -/

namespace Sys2Proof.Machine

/-- Engine `e` dispatches its next trigger (R400, R402). -/
def execTriggerDispatch (e : Fin 12) (s : State) : Host.Outcome State Fault Refusal :=
  s.run fun d => d.dispatchTrigger e.val

/-- NOP (R395). -/
def execNop (e : Fin 12) (s : State) : Host.Outcome State Fault Refusal :=
  s.run fun d => d.uNop e.val

/-- ALU ADD (R396). -/
def execAluAdd (e : Fin 12) (s : State) : Host.Outcome State Fault Refusal :=
  s.run fun d => d.uAlu e.val 0 fnAdd

/-- ALU SUB (R396). -/
def execAluSub (e : Fin 12) (s : State) : Host.Outcome State Fault Refusal :=
  s.run fun d => d.uAlu e.val 1 fnSub

/-- ALU AND (R396). -/
def execAluAnd (e : Fin 12) (s : State) : Host.Outcome State Fault Refusal :=
  s.run fun d => d.uAlu e.val 2 fnAnd

/-- ALU OR (R396). -/
def execAluOr (e : Fin 12) (s : State) : Host.Outcome State Fault Refusal :=
  s.run fun d => d.uAlu e.val 3 fnOr

/-- ALU XOR (R396). -/
def execAluXor (e : Fin 12) (s : State) : Host.Outcome State Fault Refusal :=
  s.run fun d => d.uAlu e.val 4 fnXor

/-- ALU SHL (R396). -/
def execAluShl (e : Fin 12) (s : State) : Host.Outcome State Fault Refusal :=
  s.run fun d => d.uAlu e.val 5 fnShl

/-- ALU SHR (R396). -/
def execAluShr (e : Fin 12) (s : State) : Host.Outcome State Fault Refusal :=
  s.run fun d => d.uAlu e.val 6 fnShr

/-- ALU SRA (R396). -/
def execAluSra (e : Fin 12) (s : State) : Host.Outcome State Fault Refusal :=
  s.run fun d => d.uAlu e.val 7 fnSra

/-- ALU SHLI (R396). -/
def execAluShli (e : Fin 12) (s : State) : Host.Outcome State Fault Refusal :=
  s.run fun d => d.uAlu e.val 8 fnShli

/-- ALU SHRI (R396). -/
def execAluShri (e : Fin 12) (s : State) : Host.Outcome State Fault Refusal :=
  s.run fun d => d.uAlu e.val 9 fnShri

/-- ALU SRAI (R396). -/
def execAluSrai (e : Fin 12) (s : State) : Host.Outcome State Fault Refusal :=
  s.run fun d => d.uAlu e.val 10 fnSrai

/-- ALU SLT (R396). -/
def execAluSlt (e : Fin 12) (s : State) : Host.Outcome State Fault Refusal :=
  s.run fun d => d.uAlu e.val 11 fnSlt

/-- ALU SLTU (R396). -/
def execAluSltu (e : Fin 12) (s : State) : Host.Outcome State Fault Refusal :=
  s.run fun d => d.uAlu e.val 12 fnSltu

/-- ALU MIN (R396). -/
def execAluMin (e : Fin 12) (s : State) : Host.Outcome State Fault Refusal :=
  s.run fun d => d.uAlu e.val 13 fnMin

/-- ALU MAX (R396). -/
def execAluMax (e : Fin 12) (s : State) : Host.Outcome State Fault Refusal :=
  s.run fun d => d.uAlu e.val 14 fnMax

/-- ALU MUL (R396). -/
def execAluMul (e : Fin 12) (s : State) : Host.Outcome State Fault Refusal :=
  s.run fun d => d.uAlu e.val 15 fnMul

/-- ALU MULH (R396). -/
def execAluMulh (e : Fin 12) (s : State) : Host.Outcome State Fault Refusal :=
  s.run fun d => d.uAlu e.val 16 fnMulh

/-- ALU CLZ (R396). -/
def execAluClz (e : Fin 12) (s : State) : Host.Outcome State Fault Refusal :=
  s.run fun d => d.uAlu e.val 17 fnClz

/-- ALU POPC (R396). -/
def execAluPopc (e : Fin 12) (s : State) : Host.Outcome State Fault Refusal :=
  s.run fun d => d.uAlu e.val 18 fnPopc

/-- ADDI (R395). -/
def execAddi (e : Fin 12) (s : State) : Host.Outcome State Fault Refusal :=
  s.run fun d => d.uImmOp e.val 2 immAdd

/-- ANDI (R395). -/
def execAndi (e : Fin 12) (s : State) : Host.Outcome State Fault Refusal :=
  s.run fun d => d.uImmOp e.val 3 immAnd

/-- ORI (R395). -/
def execOri (e : Fin 12) (s : State) : Host.Outcome State Fault Refusal :=
  s.run fun d => d.uImmOp e.val 4 immOr

/-- XORI (R395). -/
def execXori (e : Fin 12) (s : State) : Host.Outcome State Fault Refusal :=
  s.run fun d => d.uImmOp e.val 5 immXor

/-- IMMX (R395). -/
def execImmx (e : Fin 12) (s : State) : Host.Outcome State Fault Refusal :=
  s.run fun d => d.uImmOp e.val 6 immX

/-- SLTI (R395). -/
def execSlti (e : Fin 12) (s : State) : Host.Outcome State Fault Refusal :=
  s.run fun d => d.uImmOp e.val 7 immSlt

/-- LDW: a 32-bit load (R395, R399). -/
def execLdw (e : Fin 12) (s : State) : Host.Outcome State Fault Refusal :=
  s.run fun d => d.uLoadOp e.val 8 4

/-- LDD: a 64-bit load (R395, R399). -/
def execLdd (e : Fin 12) (s : State) : Host.Outcome State Fault Refusal :=
  s.run fun d => d.uLoadOp e.val 9 8

/-- The data of the `k`th outstanding load returns; `err`: the memory error its read meets (R392, R406). -/
def execLoadReturn (e : Fin 12) (k : Fin 4) (err : Option MemErr) (s : State) : Host.Outcome State Fault Refusal :=
  s.run fun d => d.loadReturn e.val k.val err

/-- STW: a 32-bit store (R395, R404). -/
def execStw (e : Fin 12) (s : State) : Host.Outcome State Fault Refusal :=
  s.run fun d => d.uStoreOp e.val 10 4

/-- STD: a 64-bit store (R395, R404). -/
def execStd (e : Fin 12) (s : State) : Host.Outcome State Fault Refusal :=
  s.run fun d => d.uStoreOp e.val 11 8

/-- AMO SWAP (R405). -/
def execAmoSwap (e : Fin 12) (s : State) : Host.Outcome State Fault Refusal :=
  s.run fun d => d.uAmo e.val 0

/-- AMO ADD (R405). -/
def execAmoAdd (e : Fin 12) (s : State) : Host.Outcome State Fault Refusal :=
  s.run fun d => d.uAmo e.val 1

/-- AMO CAS (R405). -/
def execAmoCas (e : Fin 12) (s : State) : Host.Outcome State Fault Refusal :=
  s.run fun d => d.uAmo e.val 2

/-- BR (R395, R397). -/
def execBr (e : Fin 12) (s : State) : Host.Outcome State Fault Refusal :=
  s.run fun d => d.uBranch e.val

/-- CALL (R395). -/
def execCall (e : Fin 12) (s : State) : Host.Outcome State Fault Refusal :=
  s.run fun d => d.uCall e.val

/-- RET (R395). -/
def execRet (e : Fin 12) (s : State) : Host.Outcome State Fault Refusal :=
  s.run fun d => d.uReturn e.val

/-- JR (R395). -/
def execJr (e : Fin 12) (s : State) : Host.Outcome State Fault Refusal :=
  s.run fun d => d.uJump e.val

/-- ANGR 0: ANG (R395). -/
def execAngrAngle (e : Fin 12) (s : State) : Host.Outcome State Fault Refusal :=
  s.run fun d => d.uAngr e.val 0

/-- ANGR 1: device time (R395). -/
def execAngrTime (e : Fin 12) (s : State) : Host.Outcome State Fault Refusal :=
  s.run fun d => d.uAngr e.val 1

/-- EMIT (R395, R416). -/
def execEmit (e : Fin 12) (s : State) : Host.Outcome State Fault Refusal :=
  s.run fun d => d.uEmit e.val

/-- POST 0 with OP 0: a completion (R459); an OP the spec does not list does nothing. -/
def execHifComplete (e : Fin 12) (s : State) : Host.Outcome State Fault Refusal :=
  s.run fun d => d.uPost e.val (hifIs e.val fun k => k == 0 || decide (3 < k))

/-- POST 0 with OP 1: data to the host, then the completion (R459). -/
def execHifToHostComplete (e : Fin 12) (s : State) : Host.Outcome State Fault Refusal :=
  s.run fun d => d.uPost e.val (hifIs e.val fun k => k == 1)

/-- POST 0 with OP 2: data from the host (R459). -/
def execHifFromHost (e : Fin 12) (s : State) : Host.Outcome State Fault Refusal :=
  s.run fun d => d.uPost e.val (hifIs e.val fun k => k == 2)

/-- POST 0 with OP 3: data to the host (R459). -/
def execHifToHost (e : Fin 12) (s : State) : Host.Outcome State Fault Refusal :=
  s.run fun d => d.uPost e.val (hifIs e.val fun k => k == 3)

/-- POST 1: an event record (R395, R644). -/
def execPostEvent (e : Fin 12) (s : State) : Host.Outcome State Fault Refusal :=
  s.run fun d => d.uPost e.val (postIs 1)

/-- POST 2: an interrupt to the management cluster (R395). -/
def execPostInterrupt (e : Fin 12) (s : State) : Host.Outcome State Fault Refusal :=
  s.run fun d => d.uPost e.val (postIs 2)

/-- POST 3: a command's slot and buffer return to SCH (R395, R467). -/
def execPostRelease (e : Fin 12) (s : State) : Host.Outcome State Fault Refusal :=
  s.run fun d => d.uPost e.val (postIs 3)

/-- COMMIT (R404, R405). -/
def execCommit (e : Fin 12) (s : State) : Host.Outcome State Fault Refusal :=
  s.run fun d => d.uCommit e.val

/-- DONE (R395, R408). -/
def execDone (e : Fin 12) (s : State) : Host.Outcome State Fault Refusal :=
  s.run fun d => d.uDone e.val

/-- A parity error on the fetch of micro-op `k` of the present step (R409). -/
def execMicroopParityError (e : Fin 12) (k : Fin 4) (s : State) : Host.Outcome State Fault Refusal :=
  s.run fun d => d.uopParity e.val k.val

end Sys2Proof.Machine
end

