-- ==== Sys2Proof/Machine/CmdRack.lean ====
section
/-! DEFINITION. The commands of the rack link (19), but for the digest. -/

namespace Sys2Proof.Machine

/-- The first frame of the queue wins arbitration and is sent (R691, R695-R697, R700). -/
def execFrameTransmit (r : TxResult) (s : State) : Host.Outcome State Fault Refusal :=
  s.run fun d => d.frameTransmit r

/-- Bus-off recovery completes (R697). -/
def execBusoffRecovery (s : State) : Host.Outcome State Fault Refusal :=
  s.run fun d => d.busoffEnd

/-- RCK_CTL.RESTART is written 1: under MANREC, bus-off recovery starts (R697). -/
def execBusoffRestart (s : State) : Host.Outcome State Fault Refusal :=
  s.run fun d =>
    if d.on .RCK_STAT_BUSOFF && d.on .RCK_CTL_MANREC then { d with rck := { d.rck with restart := true } } else d

/-- The solo delay ends and SCH spins up alone (R695, R497). -/
def execSoloDelayEnd (after : Nat) (s : State) : Host.Outcome State Fault Refusal :=
  s.run fun d => (d.advance after).delayEnd

/-- Every second the node sends HELLO (R692). -/
def execHelloTimer (after : Nat) (s : State) : Host.Outcome State Fault Refusal :=
  s.run fun d => (d.advance after).helloDue

/-- Every second an ungranted request is repeated (R693). -/
def execTokreqTimer (after : Nat) (s : State) : Host.Outcome State Fault Refusal :=
  s.run fun d => (d.advance after).tokReqDue

/-- Every 250 ms a holder broadcasts TOKHOLD (R693, R696). -/
def execTokholdTimer (after : Nat) (s : State) : Host.Outcome State Fault Refusal :=
  s.run fun d => (d.advance after).tokHoldDue

/-- An ALERT frame: grants pause (R694). -/
def execAlertReceive (src : Fin 512) (s : State) : Host.Outcome State Fault Refusal :=
  s.run fun d => d.received src.val Dev.alerted

/-- A BEACON with D of the one before and its sequence (R701). -/
def execBeaconReceive (src : Fin 512) (x : BitVec 24) (num : Byte) (s : State) : Host.Outcome State Fault Refusal :=
  s.run fun d => d.received src.val fun d => d.beaconTake src.val x.toNat num.toNat

/-- A TOKGRANT (R693). -/
def execTokgrantReceive (src dst : Fin 512) (seq : BitVec 16) (s : State) : Host.Outcome State Fault Refusal :=
  s.run fun d => d.received src.val fun d => d.tokGrant src.val dst.val seq.toNat

/-- A TOKREQ (R694). -/
def execTokreqReceive (src : Fin 512) (seq : BitVec 16) (s : State) : Host.Outcome State Fault Refusal :=
  s.run fun d => d.received src.val fun d => d.tokReq src.val seq.toNat

/-- A TOKHOLD (R694). -/
def execTokholdReceive (src : Fin 512) (s : State) : Host.Outcome State Fault Refusal :=
  s.run fun d => d.received src.val fun d => d.tokHold src.val

/-- A TOKREL (R693). -/
def execTokrelReceive (src : Fin 512) (s : State) : Host.Outcome State Fault Refusal :=
  s.run fun d => d.received src.val fun d => d.tokFree src.val

/-- A HELLO with its flags byte (R690, R692). -/
def execHelloReceive (src : Fin 512) (flags : Byte) (s : State) : Host.Outcome State Fault Refusal :=
  s.run fun d => d.received src.val fun d => d.helloFrom src.val flags.toNat

/-- A DIGEST, which is for whoever asked: the drive takes nothing from it (R690). -/
def execDigestReceive (src : Fin 512) (s : State) : Host.Outcome State Fault Refusal :=
  s.run fun d => d.received src.val fun d => d

/-- A node has sent no HELLO for 2 s and is heard no more (R692, R693). -/
def execStewardChange (n : Fin 512) (after : Nat) (s : State) : Host.Outcome State Fault Refusal :=
  s.run fun d => (d.advance after).nodeLost n.val

/-- After so many cycles the steward grants the next request, if its conditions hold (R694). -/
def execTokenGrant (after : Nat) (s : State) : Host.Outcome State Fault Refusal :=
  s.run fun d => (d.advance after).stewardGrant

/-- No TOKHOLD of a holder for a second (R694). -/
def execTokenHoldExpiry (n : Fin 512) (after : Nat) (s : State) : Host.Outcome State Fault Refusal :=
  s.run fun d => (d.advance after).holdExpiry n.val

/-- The choice of the beacon master has been stable for 2 s (R700). -/
def execBeaconMasterChange (after : Nat) (s : State) : Host.Outcome State Fault Refusal :=
  s.run fun d => (d.advance after).masterChange

/-- The beacon master's own slot phase (R700). -/
def execBeaconSend (after : Nat) (s : State) : Host.Outcome State Fault Refusal :=
  s.run fun d => (d.advance after).beaconSend

/-- A foreign low level on RACK_ALERT (R699). -/
def execRackAlertSense (s : State) : Host.Outcome State Fault Refusal :=
  s.run fun d => d.alertSense

/-- The least time of RACK_ALERT has passed (R698). -/
def execRackAlertRelease (after : Nat) (s : State) : Host.Outcome State Fault Refusal :=
  s.run fun d => (d.advance after).alertRelease

/-- A classical, base-identifier or unknown frame is acknowledged and counted (R688, R690). -/
def execForeignFrameReceive (s : State) : Host.Outcome State Fault Refusal :=
  s.run fun d => if d.rckRuns then d.count .RCK_CNT_FOREIGN else d

/-- A receive error: 1, or 8 where the standard says so (R688). -/
def execCanReceiveError (major : Bool) (s : State) : Host.Outcome State Fault Refusal :=
  s.run fun d =>
    if d.rckRuns then { d with rck := { d.rck with rxerr := d.rck.rxerr + (if major then 8 else 1) } } else d

end Sys2Proof.Machine
end

