-- ==== Sys2Proof/Machine/CmdRecorder.lean ====
section
/-! DEFINITION. The commands of fault collection and of the event recorder (17). -/

namespace Sys2Proof.Machine

/-- Every actuator is PARKED or OUT and the spindle unpowered after a safe-state reaction (R616). -/
def execSafeReached (s : State) : Host.Outcome State Fault Refusal :=
  s.run fun d => d.safeReached

/-- A fault of RECOVER has been pending for RECTMO (R620). -/
def execRecoveryTimeout (n : Fin 41) (after : Nat) (s : State) : Host.Outcome State Fault Refusal :=
  s.run fun d => (d.advance after).recoveryTimeout n.val

/-- A write of FLT_PEND0, or FLT_PEND1 where `hi` (R621). -/
def execFaultAcknowledge (m : Master) (hi : Bool) (w : Word) (s : State) : Host.Outcome State Fault Refusal :=
  s.run fun d => d.ackWrite m.id hi w.toNat

/-- A write of FLT_FORCE0, or FLT_FORCE1 where `hi` (R622). -/
def execFaultForce (hi : Bool) (w : Word) (s : State) : Host.Outcome State Fault Refusal :=
  s.run fun d => d.forceWrite hi w.toNat

/-- FLT_CTL.RELEASE is written 1 (R614). -/
def execHoldRelease (s : State) : Host.Outcome State Fault Refusal :=
  s.run fun d => d.holdRelease

/-- FLT_CTL.LOCK is written 1 (R623). -/
def execFaultLock (s : State) : Host.Outcome State Fault Refusal :=
  s.run fun d => d.wr .FLT_CTL_LOCK 0 1

/-- A write of FLT_SRCCFG, FLT_CFG or FLT_TEMP (R623). -/
def execFaultConfigWrite (r : FltReg) (w : Word) (s : State) : Host.Outcome State Fault Refusal :=
  s.run fun d => d.fltConfig r w.toNat

/-- A clock loses lock or oscillation, in the order of SYS_CLKSTAT (R612). -/
def execClockLoss (k : Fin 6) (s : State) : Host.Outcome State Fault Refusal :=
  s.run fun d => d.clockLoss k.val

/-- A clock regains lock or oscillation; its LOSS bit stays (R612). -/
def execClockRelock (k : Fin 6) (s : State) : Host.Outcome State Fault Refusal :=
  s.run fun d => d.wr (clockFld k.val) 0 1

/-- A write of FLT_WDCTL (R625). -/
def execWatchdogEnable (c : Fin 8) (w : Word) (s : State) : Host.Outcome State Fault Refusal :=
  s.run fun d => d.wdCtl c.val w.toNat

/-- A write of FLT_WDKICK (R625). -/
def execWatchdogKick (m : Master) (c : Fin 8) (key : Byte) (s : State) : Host.Outcome State Fault Refusal :=
  s.run fun d => d.wdKick m.id c.val key.toNat

/-- EVT takes the next record of its input queue (R631, R633-R636). -/
def execEventStore (s : State) : Host.Outcome State Fault Refusal :=
  s.run fun d => d.eventStore

/-- A rate bucket's refill interval passes (R633). -/
def execTokenRefill (b : Bucket) (after : Nat) (s : State) : Host.Outcome State Fault Refusal :=
  s.run fun d =>
    (d.advance after).tokenRefill (match b with
      | .src n => n.val
      | .slot i => 128 + i.val
      | .default => 64)

/-- PAGETMO seconds have passed since the open page's first record (R638). -/
def execPageTimeout (after : Nat) (s : State) : Host.Outcome State Fault Refusal :=
  s.run fun d => (d.advance after).pageTimeout

/-- EVT programs the oldest closed page; `ok`: the NOR reports success (R637). -/
def execPageProgram (ok : Bool) (s : State) : Host.Outcome State Fault Refusal :=
  s.run fun d => d.pageProgram ok

/-- EVT erases the next 4 KiB sector ahead of its write pointer; `ok`: the NOR reports success (R639). -/
def execSectorErase (ok : Bool) (s : State) : Host.Outcome State Fault Refusal :=
  s.run fun d => d.sectorErase ok

/-- EVT_CTL.FLUSH is written 1 (R638). -/
def execEventFlush (s : State) : Host.Outcome State Fault Refusal :=
  s.run fun d => d.closePage

/-- EVT_CTL.NORLOG is written (R635). -/
def execNorLogEnable (on : Bool) (s : State) : Host.Outcome State Fault Refusal :=
  s.run fun d => d.norLog on

/-- A write of EVT_SWCODE (R643). -/
def execFirmwareRecord (m : Master) (w : Word) (s : State) : Host.Outcome State Fault Refusal :=
  s.run fun d => d.swCode m.id w.toNat

/-- The 0.5 ms point of CRICKET (R628). -/
def execCricketToggle (after : Nat) (s : State) : Host.Outcome State Fault Refusal :=
  s.run fun d => (d.advance after).cricket

end Sys2Proof.Machine
end

