-- ==== Sys2Proof/Machine/CmdReset.lean ====
section
/-! DEFINITION. The commands of resets and of the power-fail sequence. -/

namespace Sys2Proof.Machine

/-- A write of SYS_RSTCTL with WARM = 1 (R64, R666). -/
def execWarmResetRequest (key : BitVec 8) (s : State) : Host.Outcome State Fault Refusal :=
  s.run fun d => d.rstCtl (key.toNat * 256 + 1)

/-- `after` cycles later every started unit has passed, or 100 ms have passed (R666). -/
def execQuiesceEnd (after : Nat) (s : State) : Host.Outcome State Fault Refusal :=
  s.run fun d => (d.advance after).quiesceDone

/-- A write of SYS_RSTCTL with FULL = 1 (R64, R651). -/
def execFullResetRequest (key : BitVec 8) (s : State) : Host.Outcome State Fault Refusal :=
  s.run fun d => d.rstCtl (key.toNat * 256 + 2)

/-- `after` cycles later the full reset acts, once the quiesce, the retracts and the flush are over (R651). -/
def execFullReset (after : Nat) (s : State) : Host.Outcome State Fault Refusal :=
  s.run fun d => (d.advance after).fullResetNow

/-- RESET_N or a supply monitor holds power-on reset; it ends 1 ms after both are clear (R649, R650). -/
def execPowerOnReset (testMode : Bool) (s : State) : Host.Outcome State Fault Refusal :=
  .next { State.after { s with test := false } s.dev.met.powerOn with test := testMode }

/-- A rail falls below its threshold, which is a power-on reset (R650, R711). -/
def execSupplyMonitorTrip (s : State) : Host.Outcome State Fault Refusal :=
  s.run fun d => d.powerOn

/-- Power failure is detected on the pin or, where `pin` is false, on the bus samples (R375); `oks` tells how each page program of
the flush ends (R641). -/
def execPowerFail (pin : Bool) (oks : List Bool) (s : State) : Host.Outcome State Fault Refusal :=
  s.run fun d => d.powerFail pin oks

/-- `after` cycles later every step 2 or 3 has ended, or 6 ms have passed (R641). -/
def execPowerFailUnitRecord (oks : List Bool) (after : Nat) (s : State) : Host.Outcome State Fault Refusal :=
  s.run fun d => (d.advance after).unitRecords oks

/-- `after` cycles later SPN_PFCFG.HOLD has passed since the entry (R377). -/
def execPowerFailHoldEnd (after : Nat) (s : State) : Host.Outcome State Fault Refusal :=
  s.run fun d => (d.advance after).holdEnd

/-- The bus falls below SPN_PFAIL.VMIN (R378). -/
def execBusBelowVmin (s : State) : Host.Outcome State Fault Refusal :=
  s.run fun d => d.belowVmin

/-- Every retract and the flush have ended (R377). -/
def execPowerFailSequenceEnd (s : State) : Host.Outcome State Fault Refusal :=
  s.run fun d => d.pfEnd

/-- The watchdog of a core expires (R626). -/
def execWatchdogExpiry (c : Fin 8) (after : Nat) (s : State) : Host.Outcome State Fault Refusal :=
  s.run fun d => (d.advance after).watchdogExpiry c.val

/-- The vendor admin command C2h at the front of its port (R464). -/
def execStateDigest (s : State) : Host.Outcome State Fault Refusal :=
  s.run fun d => d.stateDigest

end Sys2Proof.Machine
end

