-- ==== Sys2Proof/Machine/CmdScheduler.lean ====
section
/-! DEFINITION. The commands of command scheduling (13). -/

namespace Sys2Proof.Machine

/-- A write of SCH_RQHI commits a request with the LO half the master has buffered (R58, R471). -/
def execReservationRequest (m : Master) (w : Word) (s : State) : Host.Outcome State Fault Refusal :=
  s.run fun d =>
    let lo := d.loHalf m.id .SCH_RQLO 0
    (d.dropLo m.id .SCH_RQLO 0).resRequest m.id lo w.toNat

/-- A host command clears overlap (R473). -/
def execOverlapClear (fseq : BitVec 32) (s : State) : Host.Outcome State Fault Refusal :=
  s.run fun d => d.overlapClear fseq.toNat

/-- SCH grants its first cleared request (R474). -/
def execReservationGrant (s : State) : Host.Outcome State Fault Refusal :=
  s.run fun d => d.resGrant

/-- SCH grants a track's lock (R476, R477). -/
def execTrackLockGrant (surf : Fin 32) (track : Fin 1048576) (s : State) : Host.Outcome State Fault Refusal :=
  s.run fun d => d.lockGrant surf.val track.val

/-- SCH dispatches the next job, or acts for itself where none can be dispatched (R469, R483-R488). -/
def execJobDispatch (s : State) : Host.Outcome State Fault Refusal :=
  s.run fun d => d.jobDispatch

/-- SCH starts a seek on an actuator (R481, R496). -/
def execSeekGrant (a : Fin 4) (s : State) : Host.Outcome State Fault Refusal :=
  s.run fun d => d.seekGrant a.val

/-- `after` cycles later a HOST command or an INTERNAL job ages (R490). -/
def execAgePromotion (u : Aged) (after : Nat) (s : State) : Host.Outcome State Fault Refusal :=
  s.run fun d =>
    match u with
    | .host f => (d.advance after).promote f.toNat
    | .internal h => (d.advance after).ageInternal h

/-- A write of SCH_CTL.ENABLE (R501). -/
def execSchEnable (on : Bool) (s : State) : Host.Outcome State Fault Refusal :=
  s.run fun d => d.schEnable on

/-- A write of SCH_CTL.HOLD. -/
def execSchHold (on : Bool) (s : State) : Host.Outcome State Fault Refusal :=
  s.run fun d => d.wrb .SCH_CTL_HOLD 0 on

/-- SCH_CTL.RESTART is written 1 (R501). -/
def execSchRestart (s : State) : Host.Outcome State Fault Refusal :=
  s.run fun d => d.schRestart

/-- The rack token is granted, or the solo delay has ended (R497). -/
def execTokenObtained (s : State) : Host.Outcome State Fault Refusal :=
  s.run fun d => d.tokenObtained

/-- SPN reaches INRANGE after a spin-up (R497, R501). -/
def execSpindleInrange (s : State) : Host.Outcome State Fault Refusal :=
  s.run fun d => d.spindleInRange

/-- `after` cycles later SPINTO seconds have passed without INRANGE (R497). -/
def execSpinupTimeout (after : Nat) (s : State) : Host.Outcome State Fault Refusal :=
  s.run fun d => (d.advance after).spinupTimeout

/-- Every actuator is PARKED or OUT and no context is in use (R501, R502). -/
def execCicadaReached (s : State) : Host.Outcome State Fault Refusal :=
  s.run fun d => d.cicadaReached

/-- A wake cause acts (R503). -/
def execCicadaWake (s : State) : Host.Outcome State Fault Refusal :=
  s.run fun d => d.cicadaWake

/-- HLT raises its wake request (R595). -/
def execHltWake (s : State) : Host.Outcome State Fault Refusal :=
  s.run fun d => d.hltWake

/-- HLT submits its next calibration request (R498, R600). -/
def execCalibrationRequest (s : State) : Host.Outcome State Fault Refusal :=
  s.run fun d => d.calSubmit

/-- A reference index as SCH takes it: requests count it, and a starved one may force an actuator (R498, R499). -/
def execForcedTake (after : Nat) (s : State) : Host.Outcome State Fault Refusal :=
  s.run fun d => (d.advance after).forcedTake

/-- The first reference index after the drain of a forced actuator (R499). -/
def execForcedRevolutionStart (a : Fin 4) (after : Nat) (s : State) : Host.Outcome State Fault Refusal :=
  s.run fun d => (d.advance after).forcedStart a.val

/-- The reference index that ends a forced revolution (R499). -/
def execForcedRevolutionEnd (a : Fin 4) (after : Nat) (s : State) : Host.Outcome State Fault Refusal :=
  s.run fun d => (d.advance after).forcedOver a.val

/-- A reference index at which a unit in JOINING enters SERVICE (R506). -/
def execUnitJoin (u : Unit4) (after : Nat) (s : State) : Host.Outcome State Fault Refusal :=
  s.run fun d => (d.advance after).unitJoins u

end Sys2Proof.Machine
end

