-- ==== Sys2Proof/Machine/CmdServo.lean ====
section
/-! DEFINITION. The commands of servo, actuators and arm links (09). -/

namespace Sys2Proof.Machine

/-- `after` cycles later a head's servo field has been demodulated and its record is delivered (R316-R319). -/
def execServoSampleRecord (h : Fin 128) (x : ServoObs) (after : Nat) (s : State) : Host.Outcome State Fault Refusal :=
  s.run fun d => (d.advance after).servoSample h.val x

/-- `after` cycles later no valid record of a head has come 1.5 us after its strobe (R293). -/
def execSampleMissTimeout (h : Fin 128) (after : Nat) (s : State) : Host.Outcome State Fault Refusal :=
  s.run fun d => (d.advance after).sampleMiss h.val

/-- `after` cycles later a runaway condition has lasted its time (R329). -/
def execActuatorRunaway (a : Fin 4) (k : Runaway) (after : Nat) (s : State) : Host.Outcome State Fault Refusal :=
  s.run fun d => (d.advance after).runaway a.val k

/-- `after` cycles later no valid sample of an actuator has come for two wedges plus 1.5 us (R330). -/
def execServoLoss (a : Fin 4) (after : Nat) (s : State) : Host.Outcome State Fault Refusal :=
  s.run fun d => (d.advance after).servoLoss a.val

/-- `after` cycles later: the VCM update point of an actuator (R325-R327). -/
def execVcmUpdate (a : Fin 4) (after : Nat) (s : State) : Host.Outcome State Fault Refusal :=
  s.run fun d => (d.advance after).vcmPoint a.val

/-- A write of SRV_VCMCMD (R326, R328). -/
def execVcmCommandWrite (a : Fin 4) (w : Word) (s : State) : Host.Outcome State Fault Refusal :=
  s.run fun d => d.vcmCommand a.val w.toNat

/-- A write of SRV_MA (R335). -/
def execMaWrite (h : Fin 128) (w : Word) (s : State) : Host.Outcome State Fault Refusal :=
  s.run fun d => d.maWrite h.val w.toNat

/-- `after` cycles later: the microactuator send point of a head (R335). -/
def execMaSend (h : Fin 128) (after : Nat) (s : State) : Host.Outcome State Fault Refusal :=
  s.run fun d => (d.advance after).maPoint h.val

/-- `after` cycles later SEEKTO reference wedges have passed without DONE (R323, R324). -/
def execSeekTimeout (a : Fin 4) (after : Nat) (s : State) : Host.Outcome State Fault Refusal :=
  s.run fun d => (d.advance after).seekTimeout a.val

/-- `after` cycles later LOADTO has elapsed (R322, R323). -/
def execLoadTimeout (a : Fin 4) (after : Nat) (s : State) : Host.Outcome State Fault Refusal :=
  s.run fun d => (d.advance after).loadTimeout a.val

/-- `after` cycles later the time of the hardware retract has passed (R328). -/
def execRetractEnd (a : Fin 4) (after : Nat) (s : State) : Host.Outcome State Fault Refusal :=
  s.run fun d => (d.advance after).retractEnd a.val

/-- SRV_CTL.DONE is written 1 (R322, R323). -/
def execServoDone (a : Fin 4) (s : State) : Host.Outcome State Fault Refusal :=
  s.run fun d => d.servoDone a.val

/-- SRV_CTL.LOAD is written 1 (R323). -/
def execServoLoad (a : Fin 4) (s : State) : Host.Outcome State Fault Refusal :=
  s.run fun d => d.loadHeads a.val

/-- SRV_CTL.UNLOAD is written 1 (R323). -/
def execServoUnload (a : Fin 4) (s : State) : Host.Outcome State Fault Refusal :=
  s.run fun d => d.unloadHeads a.val

/-- SRV_CTL.FORCEOUT is written 1 (R320, R321). -/
def execActuatorForceout (a : Fin 4) (s : State) : Host.Outcome State Fault Refusal :=
  s.run fun d => d.actOut a.val

/-- SRV_CTL.READMIT is written 1 (R320). -/
def execActuatorReadmit (a : Fin 4) (s : State) : Host.Outcome State Fault Refusal :=
  s.run fun d => d.actReadmit a.val

/-- SRV_HCTL.FORCEOUT is written 1 (R331). -/
def execHeadForceout (h : Fin 128) (s : State) : Host.Outcome State Fault Refusal :=
  s.run fun d => d.headForce h.val

/-- SRV_HCTL.READMIT is written 1 (R331). -/
def execHeadReadmit (h : Fin 128) (s : State) : Host.Outcome State Fault Refusal :=
  s.run fun d => d.headReadmit h.val

/-- The frame first in the downlink queue, SAFE, goes out (R337, R342). -/
def execSafeFrame (a : Fin 4) (s : State) : Host.Outcome State Fault Refusal :=
  s.run fun d => d.sendFrame a.val 8

/-- The frame first in the downlink queue, ACK, goes out (R342). -/
def execAckFrame (a : Fin 4) (s : State) : Host.Outcome State Fault Refusal :=
  s.run fun d => d.sendFrame a.val 7

/-- The frame first in the downlink queue, SELECT, goes out (R343). -/
def execSelectFrame (a : Fin 4) (s : State) : Host.Outcome State Fault Refusal :=
  s.run fun d => d.sendFrame a.val 1

/-- The frame first in the downlink queue, MA, goes out (R335, R342). -/
def execMaFrame (a : Fin 4) (s : State) : Host.Outcome State Fault Refusal :=
  s.run fun d => d.sendFrame a.val 4

/-- The frame first in the downlink queue, HEATER, goes out (R337, R342). -/
def execHeaterFrame (a : Fin 4) (s : State) : Host.Outcome State Fault Refusal :=
  s.run fun d => d.sendFrame a.val 3

/-- The frame first in the downlink queue, BIAS, goes out (R338). -/
def execBiasFrame (a : Fin 4) (s : State) : Host.Outcome State Fault Refusal :=
  s.run fun d => d.sendFrame a.val 2

/-- The frame first in the downlink queue, REGWR, goes out (R350). -/
def execRegwrFrame (a : Fin 4) (s : State) : Host.Outcome State Fault Refusal :=
  s.run fun d => d.sendFrame a.val 5

/-- The frame first in the downlink queue, REGRD, goes out (R350). -/
def execRegrdFrame (a : Fin 4) (s : State) : Host.Outcome State Fault Refusal :=
  s.run fun d => d.sendFrame a.val 6

/-- An uplink STAT frame, its 50 bits as they come (R346). -/
def execStatFrame (a : Fin 4) (v : BitVec 50) (s : State) : Host.Outcome State Fault Refusal :=
  s.run fun d => d.statFrame a.val v.toNat

/-- An uplink FAULT frame, its 50 bits as they come (R297, R346). -/
def execFaultFrame (a : Fin 4) (v : BitVec 50) (s : State) : Host.Outcome State Fault Refusal :=
  s.run fun d => d.faultFrame a.val v.toNat

/-- An uplink NAK frame, its 50 bits as they come (R347). -/
def execNakFrame (a : Fin 4) (v : BitVec 50) (s : State) : Host.Outcome State Fault Refusal :=
  s.run fun d => d.nakFrame a.val v.toNat

/-- An uplink REGDATA frame, its 50 bits as they come (R350). -/
def execRegdataFrame (a : Fin 4) (v : BitVec 50) (s : State) : Host.Outcome State Fault Refusal :=
  s.run fun d => d.regdataFrame a.val v.toNat

/-- An uplink CONTACT frame, its 50 bits as they come (R339, R340). -/
def execContactFrame (a : Fin 4) (v : BitVec 50) (s : State) : Host.Outcome State Fault Refusal :=
  s.run fun d => d.contactFrame a.val v.toNat

/-- An uplink MAFAULT frame, its 50 bits as they come (R331). -/
def execMafaultFrame (a : Fin 4) (v : BitVec 50) (s : State) : Host.Outcome State Fault Refusal :=
  s.run fun d => d.mafaultFrame a.val v.toNat

/-- ARM_CTL.ENABLE is written (R348). -/
def execArmEnable (a : Fin 4) (on : Bool) (s : State) : Host.Outcome State Fault Refusal :=
  s.run fun d => d.armEnable a.val on

/-- ARM_CTL.RETRAIN is written 1 (R348). -/
def execArmRetrain (a : Fin 4) (s : State) : Host.Outcome State Fault Refusal :=
  s.run fun d => d.armRetrain a.val

/-- ARM_CTL.SAFE is written 1 (R342). -/
def execArmSafeRequest (a : Fin 4) (s : State) : Host.Outcome State Fault Refusal :=
  s.run fun d => d.armSend a.val 8 0 0x5AFE

/-- 64 valid training frames in each direction (R348, R349). -/
def execLinkTrained (a : Fin 4) (s : State) : Host.Outcome State Fault Refusal :=
  s.run fun d => d.linkTrained a.val

/-- `after` cycles later: 20 us of training without success (R348, R349). -/
def execTrainTimeout (a : Fin 4) (after : Nat) (s : State) : Host.Outcome State Fault Refusal :=
  s.run fun d => (d.advance after).trainTimeout a.val

/-- Eight consecutive invalid uplink frames (R348, R349). -/
def execArmLinkLoss (a : Fin 4) (s : State) : Host.Outcome State Fault Refusal :=
  s.run fun d => if 8 ≤ (d.link a.val).bad then d.linkLoss a.val false else d

/-- A write of ARM_REGCMD (R350). -/
def execAfeRegisterAccess (a : Fin 4) (w : Word) (s : State) : Host.Outcome State Fault Refusal :=
  s.run fun d => d.afeAccess a.val w.toNat

/-- `after` cycles later 2 us have passed with no REGDATA (R350). -/
def execAfeAccessTimeout (a : Fin 4) (after : Nat) (s : State) : Host.Outcome State Fault Refusal :=
  s.run fun d => (d.advance after).afeTimeout a.val

/-- An uplink frame, its 50 bits in `v`, fails its delimiter or its CRC (R347). -/
def execBadUplinkFrame (a : Fin 4) (v : Nat) (s : State) : Host.Outcome State Fault Refusal :=
  s.run fun d => d.badUplink a.val v

end Sys2Proof.Machine
end

