-- ==== Sys2Proof/Machine/CmdSpindle.lean ====
section
/-! DEFINITION. The commands of the spindle and of the measurement channels. -/

namespace Sys2Proof.Machine

/-- A write of SPN_CTL.ENABLE (R359, R374). -/
def execSpindleEnable (on : Bool) (s : State) : Host.Outcome State Fault Refusal :=
  s.run fun d => d.spnEnable on

/-- A write of SPN_CTL.RUN (R359, R368). -/
def execSpindleRun (on : Bool) (s : State) : Host.Outcome State Fault Refusal :=
  s.run fun d => d.spnRun on

/-- A write of 1 to SPN_CTL.BRAKE (R373). -/
def execSpindleBrake (s : State) : Host.Outcome State Fault Refusal :=
  s.run fun d => d.spnBrake

/-- A write of SPN_SPEED (R370). -/
def execSpeedTargetWrite (w : Nat) (s : State) : Host.Outcome State Fault Refusal :=
  s.run fun d => d.speedTarget w

/-- A write of SPN_MOTOR (R355). -/
def execMotorConfigWrite (w : Nat) (s : State) : Host.Outcome State Fault Refusal :=
  s.run fun d => d.motorConfig w

/-- SPN_FAULT_N has been low for 200 ns (R356, R374). -/
def execPowerStageFault (s : State) : Host.Outcome State Fault Refusal :=
  s.run fun d => d.powerStage

/-- SPN_FAULT_N returns high; the gates stay off until RUN is written (R356). -/
def execPowerStageFaultClear (s : State) : Host.Outcome State Fault Refusal :=
  s.run fun d => d.powerStageClear

/-- A new PWM period starts (R355, R357, R358). -/
def execPwmPeriod (s : State) : Host.Outcome State Fault Refusal :=
  s.run fun d => d.pwmPeriod

/-- `after` cycles later 10 ms have passed since a failed detection attempt (R363). -/
def execDetectRetry (after : Nat) (s : State) : Host.Outcome State Fault Refusal :=
  s.run fun d => (d.advance after).detectRetry

/-- A detection attempt ends with the measured readings `p` and `q` (R361-R363). -/
def execDetectAttemptEnd (p q : Nat) (s : State) : Host.Outcome State Fault Refusal :=
  s.run fun d => d.detectEnd p q

/-- The injection stage hands the rotor over to back-EMF (R364, R365). -/
def execInjectHandover (s : State) : Host.Outcome State Fault Refusal :=
  s.run fun d => d.handoverBemf

/-- `after` cycles later the comparator of a phase sees a back-EMF zero crossing, upwards or downwards (R353, R365, R376). -/
def execZeroCrossing (phase : Fin 3) (up : Bool) (after : Nat) (s : State) : Host.Outcome State Fault Refusal :=
  s.run fun d => (d.advance after).zeroCrossing phase.val up

/-- `after` cycles later the commutation point is reached (R366). -/
def execCommutation (after : Nat) (s : State) : Host.Outcome State Fault Refusal :=
  s.run fun d => (d.advance after).commutate

/-- `after` cycles later no crossing has been seen for 2 s (R359). -/
def execCoastTimeout (after : Nat) (s : State) : Host.Outcome State Fault Refusal :=
  s.run fun d => (d.advance after).coastTimeout

/-- The measured speed updates from its source, of which `v` is the injection estimate, 0.01 rpm; `revEnd` at the end of a revolution
(R369-R371). -/
def execSpeedMeasurement (v : Nat) (revEnd : Bool) (s : State) : Host.Outcome State Fault Refusal :=
  s.run fun d => d.measureSpeed v revEnd

/-- The speed regulator updates, `ms` milliseconds after its last update (R372). -/
def execRegulatorUpdate (ms : Nat) (s : State) : Host.Outcome State Fault Refusal :=
  s.run fun d => d.regulate ms

/-- A phase current of `ma` milliamperes is sampled (R357, R373). -/
def execPhaseCurrentLimit (ma : Nat) (s : State) : Host.Outcome State Fault Refusal :=
  s.run fun d => d.phaseCurrent ma

/-- `after` cycles later a braking window reads a back-EMF amplitude of `mv` millivolts (R373). -/
def execBrakeSense (mv after : Nat) (s : State) : Host.Outcome State Fault Refusal :=
  s.run fun d => (d.advance after).brakeSense mv

/-- `after` cycles later eight marker periods have passed without a usable marker (R381). -/
def execPhaseLockTimeout (after : Nat) (s : State) : Host.Outcome State Fault Refusal :=
  s.run fun d => (d.advance after).phaseTimeout

/-- `after` cycles later channel `c` delivers the output `x` of its filter (R382-R384). -/
def execMacSample (c : Fin 32) (x : Int) (after : Nat) (s : State) : Host.Outcome State Fault Refusal :=
  s.run fun d => (d.advance after).macSample c x

/-- Channel `c`'s filter is reset (R384). -/
def execMacFilterReset (c : Fin 32) (s : State) : Host.Outcome State Fault Refusal :=
  s.run fun d => d.macReset c

/-- The synchronising event of channel `c` (R385). -/
def execMacSyncReset (c : Fin 32) (s : State) : Host.Outcome State Fault Refusal :=
  s.run fun d => d.macSync c

end Sys2Proof.Machine
end

