-- ==== Sys2Proof/Machine/CmdStartup.lean ====
section
/-! DEFINITION. The commands of start-up, of the warm path and of the NOR access registers. -/

namespace Sys2Proof.Machine

/-- `after` cycles later the warm reset acts, once the quiesce and the flush are over, and CFG hands over again (R667). -/
def execWarmReset (after : Nat) (s : State) : Host.Outcome State Fault Refusal :=
  s.run fun d => (d.advance after).warmReset

/-- CFG's full path from the end of the reset to the checks, `after` cycles long (R652-R663). -/
def execImageLoad (n : NorImage) (after : Nat) (s : State) : Host.Outcome State Fault Refusal :=
  s.run fun d => d.imageLoad n after

/-- The clocks have not locked within 10 ms (R653). -/
def execClockLockTimeout (after : Nat) (s : State) : Host.Outcome State Fault Refusal :=
  s.run fun d => (d.advance after).clockTimeout

/-- CFG hands over at the end of the full path (R665). -/
def execHandover (s : State) : Host.Outcome State Fault Refusal :=
  s.run fun d => d.handoverNow

/-- CFG_RESTORE.DONE is written 1 (R669, R671). -/
def execRestoreDone (s : State) : Host.Outcome State Fault Refusal :=
  s.run fun d => d.restoreDone

/-- CFG_NORCMD is written with GO and READ (R676). -/
def execNorRead (len : BitVec 24) (s : State) : Host.Outcome State Fault Refusal :=
  s.run fun d => d.norCommand (2 ^ 31 + len.toNat)

/-- CFG_NORCMD is written with GO and PROGRAM (R676). -/
def execNorProgram (len : BitVec 24) (s : State) : Host.Outcome State Fault Refusal :=
  s.run fun d => d.norCommand (2 ^ 31 + 2 ^ 28 + len.toNat)

/-- CFG_NORCMD is written with GO and ERASE4K (R676). -/
def execNorErase4k (s : State) : Host.Outcome State Fault Refusal :=
  s.run fun d => d.norCommand (2 ^ 31 + 2 * 2 ^ 28)

/-- CFG_NORCMD is written with GO and ERASE64K (R676). -/
def execNorErase64k (s : State) : Host.Outcome State Fault Refusal :=
  s.run fun d => d.norCommand (2 ^ 31 + 3 * 2 ^ 28)

/-- The NOR command ends; `data` is what READ has brought (R676). -/
def execNorCommandEnd (ok : Bool) (data : List Byte) (s : State) : Host.Outcome State Fault Refusal :=
  s.run fun d => d.norEnd ok data

end Sys2Proof.Machine
end

