-- ==== Sys2Proof/Machine/CmdSvc.lean ====
section
/-! DEFINITION. The commands of the service port, and the rack link's DIGREQ. -/

namespace Sys2Proof.Machine

/-- SVC_VBUS changes (R677, R684). -/
def execVbusChange (v : Bool) (s : State) : Host.Outcome State Fault Refusal :=
  s.run fun d => d.vbusChange v

/-- A bus reset; `hs`: the high-speed chirp succeeds (R677, R684). -/
def execUsbBusReset (hs : Bool) (s : State) : Host.Outcome State Fault Refusal :=
  s.run fun d => d.usbReset hs

/-- The bus suspends, or resumes (R684). -/
def execUsbSuspend (on : Bool) (s : State) : Host.Outcome State Fault Refusal :=
  s.run fun d => d.usbSuspend on

/-- A standard request on EP0; any other SETUP packet is an unknown request (R678, R682). -/
def execStandardRequest (x : Setup) (s : State) : Host.Outcome State Fault Refusal :=
  s.run fun d => d.standardRequest x

/-- REGRD (R679, R682). -/
def execSvcRegrd (off : Word) (len : BitVec 16) (s : State) : Host.Outcome State Fault Refusal :=
  s.run fun d => d.svcRegrd off.toNat len.toNat

/-- REGWR with its data (R679, R683). -/
def execSvcRegwr (off : Word) (words : List Word) (s : State) : Host.Outcome State Fault Refusal :=
  s.run fun d => d.svcRegwr off.toNat (words.map BitVec.toNat)

/-- DIGEST (R674, R679). -/
def execSvcDigest (len : BitVec 16) (s : State) : Host.Outcome State Fault Refusal :=
  s.run fun d => d.svcDigest len.toNat

/-- MEMRD; `err`: the memory error the read meets (R679, R682). -/
def execSvcMemrd (len : BitVec 16) (err : Option MemErr) (s : State) : Host.Outcome State Fault Refusal :=
  s.run fun d => d.svcMemrd len.toNat err

/-- MEMWR with its data (R679, R683). -/
def execSvcMemwr (bytes : List Byte) (s : State) : Host.Outcome State Fault Refusal :=
  s.run fun d => d.svcMemwr bytes

/-- RESET of a kind: 1 warm, 2 full (R679, R683). -/
def execSvcReset (kind len : BitVec 16) (s : State) : Host.Outcome State Fault Refusal :=
  s.run fun d => d.svcReset kind.toNat len.toNat

/-- FUSE with its data (R679, R681). -/
def execSvcFuse (sel : BitVec 16) (bytes : List Byte) (s : State) : Host.Outcome State Fault Refusal :=
  s.run fun d => d.svcFuse sel.toNat bytes

/-- The host acknowledges the status stage of an OUT request; `rivals` are the writes of the other masters in each cycle that
follows (R60, R683). -/
def execOutCommit (rivals : List (List RegWrite)) (s : State) : Host.Outcome State Fault Refusal :=
  s.run fun d => d.outCommit rivals

/-- EP1 IN is polled (R686). -/
def execEventStream (s : State) : Host.Outcome State Fault Refusal :=
  s.run fun d => d.eventStream

/-- EP2 IN is polled at its service interval (R687). -/
def execDigestInterrupt (s : State) : Host.Outcome State Fault Refusal :=
  s.run fun d => d.digestInterrupt

/-- A DIGREQ from a node (R702). -/
def execDigreqReceive (src : Fin 512) (s : State) : Host.Outcome State Fault Refusal :=
  s.run fun d => d.received src.val fun d => d.digReq src.val

end Sys2Proof.Machine
end

