-- ==== Sys2Proof/Machine/CmdWrite.lean ====
section
/-! DEFINITION. The commands of the write path (08); the verify record is judged and passed on to HLT (16). -/

namespace Sys2Proof.Machine

/-- The encoding of a slot's oldest prepared sector completes (R286, R287). -/
def execPrepReady (q : Fin 32) (s : State) : Host.Outcome State Fault Refusal :=
  s.run fun d => d.prepReady q.val

/-- A parity error in the codeword being emitted (R289). -/
def execPreparedParityError (q : Fin 32) (s : State) : Host.Outcome State Fault Refusal :=
  s.run fun d => d.prepParity q.val

/-- `after` cycles later a fence condition of a slot is found to fail (R290, R291). -/
def execWriterFence (q : Fin 32) (after : Nat) (s : State) : Host.Outcome State Fault Refusal :=
  s.run fun d => (d.advance after).checkFence q.val

/-- WRF_CTL.ENABLE is written (R290). -/
def execWrfEnable (on : Bool) (s : State) : Host.Outcome State Fault Refusal :=
  s.run fun d => (d.wrb .WRF_CTL_ENABLE 0 on).checkFences

/-- WRF_CTL.WEN is written (R290). -/
def execWrfWen (on : Bool) (s : State) : Host.Outcome State Fault Refusal :=
  s.run fun d => (d.wrb .WRF_CTL_WEN 0 on).checkFences

/-- HOLD + 1 trip-free reference strobes have passed (R296). -/
def execGuardRelease (a : Fin 4) (s : State) : Host.Outcome State Fault Refusal :=
  s.run fun d => d.guardRelease a.val

end Sys2Proof.Machine
end

