-- ==== Sys2Proof/Machine/Dispatch.lean ====
section
/-! DEFINITION. The meaning of each command, one arm each. -/

namespace Sys2Proof.Machine

def exec (i : Instr) (s : State) : Host.Outcome State Fault Refusal :=
  match i with
  | .registerWrite l reads => Sys2Proof.Machine.execRegisterWrite l reads s
  | .snapshotRead m a size => Sys2Proof.Machine.execSnapshotRead m a size s
  | .clearOnRead m a size => Sys2Proof.Machine.execClearOnRead m a size s
  | .deferredApply after => Sys2Proof.Machine.execDeferredApply after s
  | .slowWriteCommit => Sys2Proof.Machine.execSlowWriteCommit s
  | .bar2Write p off size w others => Sys2Proof.Machine.execBar2Write p off size w others s
  | .bar2Read p off size => Sys2Proof.Machine.execBar2Read p off size s
  | .bar2Relock p => Sys2Proof.Machine.execBar2Relock p s
  | .bar2WindowExpiry p after => Sys2Proof.Machine.execBar2WindowExpiry p after s
  | .warmResetRequest key => Sys2Proof.Machine.execWarmResetRequest key s
  | .quiesceEnd after => Sys2Proof.Machine.execQuiesceEnd after s
  | .warmReset after => Sys2Proof.Machine.execWarmReset after s
  | .fullResetRequest key => Sys2Proof.Machine.execFullResetRequest key s
  | .fullReset after => Sys2Proof.Machine.execFullReset after s
  | .powerOnReset testMode => Sys2Proof.Machine.execPowerOnReset testMode s
  | .supplyMonitorTrip => Sys2Proof.Machine.execSupplyMonitorTrip s
  | .fundamentalReset p => Sys2Proof.Machine.execFundamentalReset p s
  | .referenceFrame x => Sys2Proof.Machine.execReferenceFrame x s
  | .angleLock => Sys2Proof.Machine.execAngleLock s
  | .abuEnable => Sys2Proof.Machine.execAbuEnable s
  | .abuDisable => Sys2Proof.Machine.execAbuDisable s
  | .abuReacquire => Sys2Proof.Machine.execAbuReacquire s
  | .autoReacquire => Sys2Proof.Machine.execAutoReacquire s
  | .readerUse r use => Sys2Proof.Machine.execReaderUse r use s
  | .readerForceout r => Sys2Proof.Machine.execReaderForceout r s
  | .readerReadmit r => Sys2Proof.Machine.execReaderReadmit r s
  | .readerCalibrationEnd r off corr after => Sys2Proof.Machine.execReaderCalibrationEnd r off corr after s
  | .angleWrap => Sys2Proof.Machine.execAngleWrap s
  | .angleCompareArm u w => Sys2Proof.Machine.execAngleCompareArm u w s
  | .compareTargetWrite m u w => Sys2Proof.Machine.execCompareTargetWrite m u w s
  | .angleCompareFire u after => Sys2Proof.Machine.execAngleCompareFire u after s
  | .synthOutOfRange k => Sys2Proof.Machine.execSynthOutOfRange k s
  | .laneRouteWrite l granted => Sys2Proof.Machine.execLaneRouteWrite l granted s
  | .routeApply after => Sys2Proof.Machine.execRouteApply after s
  | .rdiCtlWrite n w => Sys2Proof.Machine.execRdiCtlWrite n w s
  | .readerInputFault n isOpen => Sys2Proof.Machine.execReaderInputFault n isOpen s
  | .overrange l first last => Sys2Proof.Machine.execOverrange l first last s
  | .laneForceout n => Sys2Proof.Machine.execLaneForceout n s
  | .laneReadmit n => Sys2Proof.Machine.execLaneReadmit n s
  | .laneRecal n => Sys2Proof.Machine.execLaneRecal n s
  | .deferredRecal n => Sys2Proof.Machine.execDeferredRecal n s
  | .laneFault n k => Sys2Proof.Machine.execLaneFault n k s
  | .laneCalibrationEnd n c => Sys2Proof.Machine.execLaneCalibrationEnd n c s
  | .unitJoin u after => Sys2Proof.Machine.execUnitJoin u after s
  | .syncDeclare l codes after => Sys2Proof.Machine.execSyncDeclare l codes after s
  | .sectorCapture c lead trail parity after => Sys2Proof.Machine.execSectorCapture c lead trail parity after s
  | .acornPeriod => Sys2Proof.Machine.execAcornPeriod s
  | .localIterationEnd e => Sys2Proof.Machine.execLocalIterationEnd e s
  | .redetectionEnd p => Sys2Proof.Machine.execRedetectionEnd p s
  | .contextParityError c => Sys2Proof.Machine.execContextParityError c s
  | .itbEnable on => Sys2Proof.Machine.execItbEnable on s
  | .itbNoborrow on => Sys2Proof.Machine.execItbNoborrow on s
  | .decodeEngineForceout e => Sys2Proof.Machine.execDecodeEngineForceout e s
  | .decodeEngineReadmit e => Sys2Proof.Machine.execDecodeEngineReadmit e s
  | .decodeEngineFault e k => Sys2Proof.Machine.execDecodeEngineFault e k s
  | .engineSelftestEnd e pass => Sys2Proof.Machine.execEngineSelftestEnd e pass s
  | .tpeEnable on => Sys2Proof.Machine.execTpeEnable on s
  | .tpeReconPermit on => Sys2Proof.Machine.execTpeReconPermit on s
  | .tpeLockedWrite m k w => Sys2Proof.Machine.execTpeLockedWrite m k w s
  | .reconstructionRequest r => Sys2Proof.Machine.execReconstructionRequest r s
  | .reconstructionEnd k => Sys2Proof.Machine.execReconstructionEnd k s
  | .reallocation surf track slot gen cmd => Sys2Proof.Machine.execReallocation surf track slot gen cmd s
  | .defectMapInsert surf track slot kind tsurf ttrack tslot => Sys2Proof.Machine.execDefectMapInsert surf track slot kind tsurf ttrack tslot s
  | .jobDispatch => Sys2Proof.Machine.execJobDispatch s
  | .seqCont q => Sys2Proof.Machine.execSeqCont q s
  | .seqBr q => Sys2Proof.Machine.execSeqBr q s
  | .seqWait q => Sys2Proof.Machine.execSeqWait q s
  | .seqCall q => Sys2Proof.Machine.execSeqCall q s
  | .seqRet q => Sys2Proof.Machine.execSeqRet q s
  | .seqDisp q => Sys2Proof.Machine.execSeqDisp q s
  | .seqEnd q => Sys2Proof.Machine.execSeqEnd q s
  | .seqAbandon q => Sys2Proof.Machine.execSeqAbandon q s
  | .rgOpen q => Sys2Proof.Machine.execRgOpen q s
  | .rgClose q => Sys2Proof.Machine.execRgClose q s
  | .wgOpen q => Sys2Proof.Machine.execWgOpen q s
  | .wgClose q => Sys2Proof.Machine.execWgClose q s
  | .vgOpen q => Sys2Proof.Machine.execVgOpen q s
  | .vgClose q => Sys2Proof.Machine.execVgClose q s
  | .gateActionAct q g after => Sys2Proof.Machine.execGateActionAct q g after s
  | .svgOn q => Sys2Proof.Machine.execSvgOn q s
  | .svgOff q => Sys2Proof.Machine.execSvgOff q s
  | .rteRoute q => Sys2Proof.Machine.execRteRoute q s
  | .rteRoutelead q => Sys2Proof.Machine.execRteRoutelead q s
  | .rteRelease q => Sys2Proof.Machine.execRteRelease q s
  | .synArm q => Sys2Proof.Machine.execSynArm q s
  | .synArmlead q => Sys2Proof.Machine.execSynArmlead q s
  | .synRestart q => Sys2Proof.Machine.execSynRestart q s
  | .synCancel q => Sys2Proof.Machine.execSynCancel q s
  | .jopFetch q => Sys2Proof.Machine.execJopFetch q s
  | .jopDone q => Sys2Proof.Machine.execJopDone q s
  | .jopReturn q => Sys2Proof.Machine.execJopReturn q s
  | .wdsPrep q attempt stored => Sys2Proof.Machine.execWdsPrep q attempt stored s
  | .wdsCancel q => Sys2Proof.Machine.execWdsCancel q s
  | .lfzFreeze q => Sys2Proof.Machine.execLfzFreeze q s
  | .lfzRelease q => Sys2Proof.Machine.execLfzRelease q s
  | .htrWriteHeat q => Sys2Proof.Machine.execHtrWriteHeat q s
  | .htrReadHeat q => Sys2Proof.Machine.execHtrReadHeat q s
  | .fsqPostStatus q => Sys2Proof.Machine.execFsqPostStatus q s
  | .fsqPostIrq q => Sys2Proof.Machine.execFsqPostIrq q s
  | .fsqPostEvent q => Sys2Proof.Machine.execFsqPostEvent q s
  | .fsqPostStatusIrq q => Sys2Proof.Machine.execFsqPostStatusIrq q s
  | .stamp q => Sys2Proof.Machine.execStamp q s
  | .acopLds q => Sys2Proof.Machine.execAcopLds q s
  | .acopLdr q => Sys2Proof.Machine.execAcopLdr q s
  | .acopLdn q => Sys2Proof.Machine.execAcopLdn q s
  | .acopLdi q => Sys2Proof.Machine.execAcopLdi q s
  | .acopDisarm q => Sys2Proof.Machine.execAcopDisarm q s
  | .pcopLds q => Sys2Proof.Machine.execPcopLds q s
  | .pcopLde q => Sys2Proof.Machine.execPcopLde q s
  | .pcopLda q => Sys2Proof.Machine.execPcopLda q s
  | .pcopAdd q => Sys2Proof.Machine.execPcopAdd q s
  | .pcopDisarm q => Sys2Proof.Machine.execPcopDisarm q s
  | .positionCompareMeet q b after => Sys2Proof.Machine.execPositionCompareMeet q b after s
  | .counterLoad q c1 => Sys2Proof.Machine.execCounterLoad q c1 s
  | .counterDecrement q c1 => Sys2Proof.Machine.execCounterDecrement q c1 s
  | .counterIncrement q c1 => Sys2Proof.Machine.execCounterIncrement q c1 s
  | .fsqBreakpoint q => Sys2Proof.Machine.execFsqBreakpoint q s
  | .microwordParityError q => Sys2Proof.Machine.execMicrowordParityError q s
  | .jobWatchdog q => Sys2Proof.Machine.execJobWatchdog q s
  | .drainEnd q => Sys2Proof.Machine.execDrainEnd q s
  | .fsqEnable q on => Sys2Proof.Machine.execFsqEnable q on s
  | .fsqStop q => Sys2Proof.Machine.execFsqStop q s
  | .fsqClrmchk q => Sys2Proof.Machine.execFsqClrmchk q s
  | .fsqStep q => Sys2Proof.Machine.execFsqStep q s
  | .fsqResume q => Sys2Proof.Machine.execFsqResume q s
  | .fsqStoreOpen a on => Sys2Proof.Machine.execFsqStoreOpen a on s
  | .fsqStoreOpened a => Sys2Proof.Machine.execFsqStoreOpened a s
  | .fsqStoreWrite m a off size v => Sys2Proof.Machine.execFsqStoreWrite m a off size v s
  | .fsqStoreRead m a off size bad => Sys2Proof.Machine.execFsqStoreRead m a off size bad s
  | .prepReady q => Sys2Proof.Machine.execPrepReady q s
  | .preparedParityError q => Sys2Proof.Machine.execPreparedParityError q s
  | .writerFence q after => Sys2Proof.Machine.execWriterFence q after s
  | .wrfEnable on => Sys2Proof.Machine.execWrfEnable on s
  | .wrfWen on => Sys2Proof.Machine.execWrfWen on s
  | .verifyRecord q n stream => Sys2Proof.Machine.execVerifyRecord q n stream s
  | .servoSampleRecord h x after => Sys2Proof.Machine.execServoSampleRecord h x after s
  | .sampleMissTimeout h after => Sys2Proof.Machine.execSampleMissTimeout h after s
  | .guardRelease a => Sys2Proof.Machine.execGuardRelease a s
  | .actuatorRunaway a k after => Sys2Proof.Machine.execActuatorRunaway a k after s
  | .servoLoss a after => Sys2Proof.Machine.execServoLoss a after s
  | .vcmUpdate a after => Sys2Proof.Machine.execVcmUpdate a after s
  | .vcmCommandWrite a w => Sys2Proof.Machine.execVcmCommandWrite a w s
  | .maWrite h w => Sys2Proof.Machine.execMaWrite h w s
  | .maSend h after => Sys2Proof.Machine.execMaSend h after s
  | .seekGrant a => Sys2Proof.Machine.execSeekGrant a s
  | .seekTimeout a after => Sys2Proof.Machine.execSeekTimeout a after s
  | .loadTimeout a after => Sys2Proof.Machine.execLoadTimeout a after s
  | .retractEnd a after => Sys2Proof.Machine.execRetractEnd a after s
  | .servoDone a => Sys2Proof.Machine.execServoDone a s
  | .servoLoad a => Sys2Proof.Machine.execServoLoad a s
  | .servoUnload a => Sys2Proof.Machine.execServoUnload a s
  | .actuatorForceout a => Sys2Proof.Machine.execActuatorForceout a s
  | .actuatorReadmit a => Sys2Proof.Machine.execActuatorReadmit a s
  | .headForceout h => Sys2Proof.Machine.execHeadForceout h s
  | .headReadmit h => Sys2Proof.Machine.execHeadReadmit h s
  | .safeFrame a => Sys2Proof.Machine.execSafeFrame a s
  | .ackFrame a => Sys2Proof.Machine.execAckFrame a s
  | .selectFrame a => Sys2Proof.Machine.execSelectFrame a s
  | .maFrame a => Sys2Proof.Machine.execMaFrame a s
  | .heaterFrame a => Sys2Proof.Machine.execHeaterFrame a s
  | .biasFrame a => Sys2Proof.Machine.execBiasFrame a s
  | .regwrFrame a => Sys2Proof.Machine.execRegwrFrame a s
  | .regrdFrame a => Sys2Proof.Machine.execRegrdFrame a s
  | .statFrame a v => Sys2Proof.Machine.execStatFrame a v s
  | .faultFrame a v => Sys2Proof.Machine.execFaultFrame a v s
  | .nakFrame a v => Sys2Proof.Machine.execNakFrame a v s
  | .regdataFrame a v => Sys2Proof.Machine.execRegdataFrame a v s
  | .contactFrame a v => Sys2Proof.Machine.execContactFrame a v s
  | .mafaultFrame a v => Sys2Proof.Machine.execMafaultFrame a v s
  | .armEnable a on => Sys2Proof.Machine.execArmEnable a on s
  | .armRetrain a => Sys2Proof.Machine.execArmRetrain a s
  | .armSafeRequest a => Sys2Proof.Machine.execArmSafeRequest a s
  | .linkTrained a => Sys2Proof.Machine.execLinkTrained a s
  | .trainTimeout a after => Sys2Proof.Machine.execTrainTimeout a after s
  | .armLinkLoss a => Sys2Proof.Machine.execArmLinkLoss a s
  | .afeRegisterAccess a w => Sys2Proof.Machine.execAfeRegisterAccess a w s
  | .afeAccessTimeout a after => Sys2Proof.Machine.execAfeAccessTimeout a after s
  | .spindleEnable on => Sys2Proof.Machine.execSpindleEnable on s
  | .spindleRun on => Sys2Proof.Machine.execSpindleRun on s
  | .spindleBrake => Sys2Proof.Machine.execSpindleBrake s
  | .speedTargetWrite w => Sys2Proof.Machine.execSpeedTargetWrite w s
  | .motorConfigWrite w => Sys2Proof.Machine.execMotorConfigWrite w s
  | .powerStageFault => Sys2Proof.Machine.execPowerStageFault s
  | .detectAttemptEnd p q => Sys2Proof.Machine.execDetectAttemptEnd p q s
  | .injectHandover => Sys2Proof.Machine.execInjectHandover s
  | .zeroCrossing phase up after => Sys2Proof.Machine.execZeroCrossing phase up after s
  | .commutation after => Sys2Proof.Machine.execCommutation after s
  | .coastTimeout after => Sys2Proof.Machine.execCoastTimeout after s
  | .speedMeasurement v revEnd => Sys2Proof.Machine.execSpeedMeasurement v revEnd s
  | .regulatorUpdate ms => Sys2Proof.Machine.execRegulatorUpdate ms s
  | .phaseCurrentLimit ma => Sys2Proof.Machine.execPhaseCurrentLimit ma s
  | .brakeSense mv after => Sys2Proof.Machine.execBrakeSense mv after s
  | .powerFail pin oks => Sys2Proof.Machine.execPowerFail pin oks s
  | .powerFailUnitRecord oks after => Sys2Proof.Machine.execPowerFailUnitRecord oks after s
  | .powerFailHoldEnd after => Sys2Proof.Machine.execPowerFailHoldEnd after s
  | .busBelowVmin => Sys2Proof.Machine.execBusBelowVmin s
  | .powerFailSequenceEnd => Sys2Proof.Machine.execPowerFailSequenceEnd s
  | .phaseLockTimeout after => Sys2Proof.Machine.execPhaseLockTimeout after s
  | .macSample c x after => Sys2Proof.Machine.execMacSample c x after s
  | .macFilterReset c => Sys2Proof.Machine.execMacFilterReset c s
  | .macSyncReset c => Sys2Proof.Machine.execMacSyncReset c s
  | .triggerDispatch e => Sys2Proof.Machine.execTriggerDispatch e s
  | .nop e => Sys2Proof.Machine.execNop e s
  | .aluAdd e => Sys2Proof.Machine.execAluAdd e s
  | .aluSub e => Sys2Proof.Machine.execAluSub e s
  | .aluAnd e => Sys2Proof.Machine.execAluAnd e s
  | .aluOr e => Sys2Proof.Machine.execAluOr e s
  | .aluXor e => Sys2Proof.Machine.execAluXor e s
  | .aluShl e => Sys2Proof.Machine.execAluShl e s
  | .aluShr e => Sys2Proof.Machine.execAluShr e s
  | .aluSra e => Sys2Proof.Machine.execAluSra e s
  | .aluShli e => Sys2Proof.Machine.execAluShli e s
  | .aluShri e => Sys2Proof.Machine.execAluShri e s
  | .aluSrai e => Sys2Proof.Machine.execAluSrai e s
  | .aluSlt e => Sys2Proof.Machine.execAluSlt e s
  | .aluSltu e => Sys2Proof.Machine.execAluSltu e s
  | .aluMin e => Sys2Proof.Machine.execAluMin e s
  | .aluMax e => Sys2Proof.Machine.execAluMax e s
  | .aluMul e => Sys2Proof.Machine.execAluMul e s
  | .aluMulh e => Sys2Proof.Machine.execAluMulh e s
  | .aluClz e => Sys2Proof.Machine.execAluClz e s
  | .aluPopc e => Sys2Proof.Machine.execAluPopc e s
  | .addi e => Sys2Proof.Machine.execAddi e s
  | .andi e => Sys2Proof.Machine.execAndi e s
  | .ori e => Sys2Proof.Machine.execOri e s
  | .xori e => Sys2Proof.Machine.execXori e s
  | .immx e => Sys2Proof.Machine.execImmx e s
  | .slti e => Sys2Proof.Machine.execSlti e s
  | .ldw e => Sys2Proof.Machine.execLdw e s
  | .ldd e => Sys2Proof.Machine.execLdd e s
  | .loadReturn e k err => Sys2Proof.Machine.execLoadReturn e k err s
  | .stw e => Sys2Proof.Machine.execStw e s
  | .std e => Sys2Proof.Machine.execStd e s
  | .amoSwap e => Sys2Proof.Machine.execAmoSwap e s
  | .amoAdd e => Sys2Proof.Machine.execAmoAdd e s
  | .amoCas e => Sys2Proof.Machine.execAmoCas e s
  | .br e => Sys2Proof.Machine.execBr e s
  | .call e => Sys2Proof.Machine.execCall e s
  | .ret e => Sys2Proof.Machine.execRet e s
  | .jr e => Sys2Proof.Machine.execJr e s
  | .angrAngle e => Sys2Proof.Machine.execAngrAngle e s
  | .angrTime e => Sys2Proof.Machine.execAngrTime e s
  | .emit e => Sys2Proof.Machine.execEmit e s
  | .hifComplete e => Sys2Proof.Machine.execHifComplete e s
  | .hifToHostComplete e => Sys2Proof.Machine.execHifToHostComplete e s
  | .hifFromHost e => Sys2Proof.Machine.execHifFromHost e s
  | .hifToHost e => Sys2Proof.Machine.execHifToHost e s
  | .postEvent e => Sys2Proof.Machine.execPostEvent e s
  | .postInterrupt e => Sys2Proof.Machine.execPostInterrupt e s
  | .postRelease e => Sys2Proof.Machine.execPostRelease e s
  | .commit e => Sys2Proof.Machine.execCommit e s
  | .done e => Sys2Proof.Machine.execDone e s
  | .routineTimeout e after => Sys2Proof.Machine.execRoutineTimeout e after s
  | .microopParityError e k => Sys2Proof.Machine.execMicroopParityError e k s
  | .veTimerExpiry e after => Sys2Proof.Machine.execVeTimerExpiry e after s
  | .mailboxWrite m e w => Sys2Proof.Machine.execMailboxWrite m e w s
  | .engineHalt e => Sys2Proof.Machine.execEngineHalt e s
  | .engineResume e => Sys2Proof.Machine.execEngineResume e s
  | .engineClrmchk e => Sys2Proof.Machine.execEngineClrmchk e s
  | .veStoreOpen e on => Sys2Proof.Machine.execVeStoreOpen e on s
  | .veStoreWrite m e off size v => Sys2Proof.Machine.execVeStoreWrite m e off size v s
  | .veStoreRead m e off size bad => Sys2Proof.Machine.execVeStoreRead m e off size bad s
  | .generalRegisterWrite m e g w => Sys2Proof.Machine.execGeneralRegisterWrite m e g w s
  | .linkDown p => Sys2Proof.Machine.execLinkDown p s
  | .functionLevelReset p => Sys2Proof.Machine.execFunctionLevelReset p s
  | .controllerEnable p cc aqa asq acq => Sys2Proof.Machine.execControllerEnable p cc aqa asq acq s
  | .controllerReset p => Sys2Proof.Machine.execControllerReset p s
  | .nvmSubsystemReset => Sys2Proof.Machine.execNvmSubsystemReset s
  | .normalShutdown p => Sys2Proof.Machine.execNormalShutdown p s
  | .abruptShutdown p => Sys2Proof.Machine.execAbruptShutdown p s
  | .commandFetch e0 e1 => Sys2Proof.Machine.execCommandFetch e0 e1 s
  | .deleteIoSq => Sys2Proof.Machine.execDeleteIoSq s
  | .createIoSq => Sys2Proof.Machine.execCreateIoSq s
  | .deleteIoCq => Sys2Proof.Machine.execDeleteIoCq s
  | .createIoCq => Sys2Proof.Machine.execCreateIoCq s
  | .getLogPage base page => Sys2Proof.Machine.execGetLogPage base page s
  | .identify => Sys2Proof.Machine.execIdentify s
  | .abort => Sys2Proof.Machine.execAbort s
  | .setFeatures => Sys2Proof.Machine.execSetFeatures s
  | .getFeatures => Sys2Proof.Machine.execGetFeatures s
  | .asyncEventRequest => Sys2Proof.Machine.execAsyncEventRequest s
  | .firmwareCommit => Sys2Proof.Machine.execFirmwareCommit s
  | .firmwareImageDownload => Sys2Proof.Machine.execFirmwareImageDownload s
  | .stateDigest => Sys2Proof.Machine.execStateDigest s
  | .diagnosticWindowUnlock => Sys2Proof.Machine.execDiagnosticWindowUnlock s
  | .ledgerRead base => Sys2Proof.Machine.execLedgerRead base s
  | .adminDone k data => Sys2Proof.Machine.execAdminDone k data s
  | .hifPause on => Sys2Proof.Machine.execHifPause on s
  | .flush fseq => Sys2Proof.Machine.execFlush fseq s
  | .write fseq => Sys2Proof.Machine.execWrite fseq s
  | .read fseq => Sys2Proof.Machine.execRead fseq s
  | .writeZeroes fseq => Sys2Proof.Machine.execWriteZeroes fseq s
  | .verify fseq => Sys2Proof.Machine.execVerify fseq s
  | .zoneOpen fseq => Sys2Proof.Machine.execZoneOpen fseq s
  | .zoneClose fseq => Sys2Proof.Machine.execZoneClose fseq s
  | .zoneFinish fseq => Sys2Proof.Machine.execZoneFinish fseq s
  | .zoneReset fseq => Sys2Proof.Machine.execZoneReset fseq s
  | .zoneOffline fseq => Sys2Proof.Machine.execZoneOffline fseq s
  | .zoneManagementReceive fseq => Sys2Proof.Machine.execZoneManagementReceive fseq s
  | .zoneAppend fseq => Sys2Proof.Machine.execZoneAppend fseq s
  | .zoneAttribute fseq => Sys2Proof.Machine.execZoneAttribute fseq s
  | .writeDataIn fseq data md => Sys2Proof.Machine.execWriteDataIn fseq data md s
  | .reservationRequest m w => Sys2Proof.Machine.execReservationRequest m w s
  | .overlapClear fseq => Sys2Proof.Machine.execOverlapClear fseq s
  | .reservationGrant => Sys2Proof.Machine.execReservationGrant s
  | .trackLockGrant surf track => Sys2Proof.Machine.execTrackLockGrant surf track s
  | .agePromotion u after => Sys2Proof.Machine.execAgePromotion u after s
  | .schEnable on => Sys2Proof.Machine.execSchEnable on s
  | .schHold on => Sys2Proof.Machine.execSchHold on s
  | .schRestart => Sys2Proof.Machine.execSchRestart s
  | .tokenObtained => Sys2Proof.Machine.execTokenObtained s
  | .spindleInrange => Sys2Proof.Machine.execSpindleInrange s
  | .spinupTimeout after => Sys2Proof.Machine.execSpinupTimeout after s
  | .cicadaEntry => Sys2Proof.Machine.execCicadaEntry s
  | .cicadaReached => Sys2Proof.Machine.execCicadaReached s
  | .cicadaWake => Sys2Proof.Machine.execCicadaWake s
  | .calibrationRequest => Sys2Proof.Machine.execCalibrationRequest s
  | .forcedTake after => Sys2Proof.Machine.execForcedTake after s
  | .forcedRevolutionStart a after => Sys2Proof.Machine.execForcedRevolutionStart a after s
  | .forcedRevolutionEnd a after => Sys2Proof.Machine.execForcedRevolutionEnd a after s
  | .dramInit raw rate => Sys2Proof.Machine.execDramInit raw rate s
  | .dramInitEnd ok => Sys2Proof.Machine.execDramInitEnd ok s
  | .dramRefresh => Sys2Proof.Machine.execDramRefresh s
  | .l1Invalidate c => Sys2Proof.Machine.execL1Invalidate c s
  | .l1Enable c ien den => Sys2Proof.Machine.execL1Enable c ien den s
  | .l2Enable => Sys2Proof.Machine.execL2Enable s
  | .l2Disable => Sys2Proof.Machine.execL2Disable s
  | .l2DisableEnd => Sys2Proof.Machine.execL2DisableEnd s
  | .l2Clean all set way line => Sys2Proof.Machine.execL2Clean all set way line s
  | .l2Inval all set way line => Sys2Proof.Machine.execL2Inval all set way line s
  | .l2Cleaninv all set way line => Sys2Proof.Machine.execL2Cleaninv all set way line s
  | .l2MaintEnd => Sys2Proof.Machine.execL2MaintEnd s
  | .cboClean c a => Sys2Proof.Machine.execCboClean c a s
  | .cboFlush c a => Sys2Proof.Machine.execCboFlush c a s
  | .cboInval c a => Sys2Proof.Machine.execCboInval c a s
  | .cboZero c a => Sys2Proof.Machine.execCboZero c a s
  | .bucketLeak after => Sys2Proof.Machine.execBucketLeak after s
  | .flipArm w => Sys2Proof.Machine.execFlipArm w s
  | .scrubRead words errs => Sys2Proof.Machine.execScrubRead words errs s
  | .dmaStart m c => Sys2Proof.Machine.execDmaStart m c s
  | .dmaStop c => Sys2Proof.Machine.execDmaStop c s
  | .dmaResume c => Sys2Proof.Machine.execDmaResume c s
  | .descriptorFetch c => Sys2Proof.Machine.execDescriptorFetch c s
  | .paceEvent c p after => Sys2Proof.Machine.execPaceEvent c p after s
  | .descriptorEnd c => Sys2Proof.Machine.execDescriptorEnd c s
  | .dmaBusError c n write => Sys2Proof.Machine.execDmaBusError c n write s
  | .dmaHalt staged => Sys2Proof.Machine.execDmaHalt staged s
  | .sectorCheck => Sys2Proof.Machine.execSectorCheck s
  | .checkClaim m => Sys2Proof.Machine.execCheckClaim m s
  | .checkRelease m => Sys2Proof.Machine.execCheckRelease m s
  | .checkCompute m w => Sys2Proof.Machine.execCheckCompute m w s
  | .checkComputeEnd => Sys2Proof.Machine.execCheckComputeEnd s
  | .compressionSubmit m w => Sys2Proof.Machine.execCompressionSubmit m w s
  | .pack => Sys2Proof.Machine.execPack s
  | .unpack => Sys2Proof.Machine.execUnpack s
  | .deflate => Sys2Proof.Machine.execDeflate s
  | .inflate => Sys2Proof.Machine.execInflate s
  | .compressionEnd k outs => Sys2Proof.Machine.execCompressionEnd k outs s
  | .rewriteRequest m w => Sys2Proof.Machine.execRewriteRequest m w s
  | .rewriteServe => Sys2Proof.Machine.execRewriteServe s
  | .patrolSelect => Sys2Proof.Machine.execPatrolSelect s
  | .workAck w => Sys2Proof.Machine.execWorkAck w s
  | .workTimeout n after => Sys2Proof.Machine.execWorkTimeout n after s
  | .workRetry after => Sys2Proof.Machine.execWorkRetry after s
  | .checkpointTimer after => Sys2Proof.Machine.execCheckpointTimer after s
  | .statisticFlush => Sys2Proof.Machine.execStatisticFlush s
  | .slackReading sl after => Sys2Proof.Machine.execSlackReading sl after s
  | .avsTimeout after => Sys2Proof.Machine.execAvsTimeout after s
  | .temperatureReading ts after => Sys2Proof.Machine.execTemperatureReading ts after s
  | .weeklyProjection => Sys2Proof.Machine.execWeeklyProjection s
  | .calibrationPlan h => Sys2Proof.Machine.execCalibrationPlan h s
  | .hltWake => Sys2Proof.Machine.execHltWake s
  | .safeReached => Sys2Proof.Machine.execSafeReached s
  | .recoveryTimeout n after => Sys2Proof.Machine.execRecoveryTimeout n after s
  | .faultAcknowledge m hi w => Sys2Proof.Machine.execFaultAcknowledge m hi w s
  | .faultForce hi w => Sys2Proof.Machine.execFaultForce hi w s
  | .holdRelease => Sys2Proof.Machine.execHoldRelease s
  | .faultLock => Sys2Proof.Machine.execFaultLock s
  | .faultConfigWrite r w => Sys2Proof.Machine.execFaultConfigWrite r w s
  | .clockLoss k => Sys2Proof.Machine.execClockLoss k s
  | .watchdogEnable c w => Sys2Proof.Machine.execWatchdogEnable c w s
  | .watchdogKick m c key => Sys2Proof.Machine.execWatchdogKick m c key s
  | .watchdogExpiry c after => Sys2Proof.Machine.execWatchdogExpiry c after s
  | .eventStore => Sys2Proof.Machine.execEventStore s
  | .tokenRefill b after => Sys2Proof.Machine.execTokenRefill b after s
  | .pageTimeout after => Sys2Proof.Machine.execPageTimeout after s
  | .pageProgram ok => Sys2Proof.Machine.execPageProgram ok s
  | .sectorErase ok => Sys2Proof.Machine.execSectorErase ok s
  | .eventFlush => Sys2Proof.Machine.execEventFlush s
  | .norLogEnable on => Sys2Proof.Machine.execNorLogEnable on s
  | .firmwareRecord m w => Sys2Proof.Machine.execFirmwareRecord m w s
  | .imageLoad n after => Sys2Proof.Machine.execImageLoad n after s
  | .clockLockTimeout after => Sys2Proof.Machine.execClockLockTimeout after s
  | .handover => Sys2Proof.Machine.execHandover s
  | .restoreDone => Sys2Proof.Machine.execRestoreDone s
  | .norRead len => Sys2Proof.Machine.execNorRead len s
  | .norProgram len => Sys2Proof.Machine.execNorProgram len s
  | .norErase4k => Sys2Proof.Machine.execNorErase4k s
  | .norErase64k => Sys2Proof.Machine.execNorErase64k s
  | .norCommandEnd ok data => Sys2Proof.Machine.execNorCommandEnd ok data s
  | .vbusChange v => Sys2Proof.Machine.execVbusChange v s
  | .usbBusReset hs => Sys2Proof.Machine.execUsbBusReset hs s
  | .usbSuspend on => Sys2Proof.Machine.execUsbSuspend on s
  | .standardRequest x => Sys2Proof.Machine.execStandardRequest x s
  | .svcRegrd off len => Sys2Proof.Machine.execSvcRegrd off len s
  | .svcRegwr off words => Sys2Proof.Machine.execSvcRegwr off words s
  | .svcDigest len => Sys2Proof.Machine.execSvcDigest len s
  | .svcMemrd len err => Sys2Proof.Machine.execSvcMemrd len err s
  | .svcMemwr bytes => Sys2Proof.Machine.execSvcMemwr bytes s
  | .svcReset kind len => Sys2Proof.Machine.execSvcReset kind len s
  | .svcFuse sel bytes => Sys2Proof.Machine.execSvcFuse sel bytes s
  | .outCommit rivals => Sys2Proof.Machine.execOutCommit rivals s
  | .eventStream => Sys2Proof.Machine.execEventStream s
  | .digestInterrupt => Sys2Proof.Machine.execDigestInterrupt s
  | .frameTransmit r => Sys2Proof.Machine.execFrameTransmit r s
  | .busoffRecovery => Sys2Proof.Machine.execBusoffRecovery s
  | .busoffRestart => Sys2Proof.Machine.execBusoffRestart s
  | .soloDelayEnd after => Sys2Proof.Machine.execSoloDelayEnd after s
  | .helloTimer after => Sys2Proof.Machine.execHelloTimer after s
  | .tokreqTimer after => Sys2Proof.Machine.execTokreqTimer after s
  | .tokholdTimer after => Sys2Proof.Machine.execTokholdTimer after s
  | .alertReceive src => Sys2Proof.Machine.execAlertReceive src s
  | .beaconReceive src x num => Sys2Proof.Machine.execBeaconReceive src x num s
  | .tokgrantReceive src dst seq => Sys2Proof.Machine.execTokgrantReceive src dst seq s
  | .tokreqReceive src seq => Sys2Proof.Machine.execTokreqReceive src seq s
  | .tokholdReceive src => Sys2Proof.Machine.execTokholdReceive src s
  | .tokrelReceive src => Sys2Proof.Machine.execTokrelReceive src s
  | .helloReceive src flags => Sys2Proof.Machine.execHelloReceive src flags s
  | .digreqReceive src => Sys2Proof.Machine.execDigreqReceive src s
  | .digestReceive src => Sys2Proof.Machine.execDigestReceive src s
  | .stewardChange n after => Sys2Proof.Machine.execStewardChange n after s
  | .tokenGrant after => Sys2Proof.Machine.execTokenGrant after s
  | .beaconMasterChange after => Sys2Proof.Machine.execBeaconMasterChange after s
  | .beaconSend after => Sys2Proof.Machine.execBeaconSend after s
  | .rackAlertSense => Sys2Proof.Machine.execRackAlertSense s
  | .rackAlertRelease after => Sys2Proof.Machine.execRackAlertRelease after s
  | .tpeContextParityError slot k => Sys2Proof.Machine.execTpeContextParityError slot k s
  | .synthRangeReturn k => Sys2Proof.Machine.execSynthRangeReturn k s
  | .readerInputFaultClear n isOpen => Sys2Proof.Machine.execReaderInputFaultClear n isOpen s
  | .powerStageFaultClear => Sys2Proof.Machine.execPowerStageFaultClear s
  | .pwmPeriod => Sys2Proof.Machine.execPwmPeriod s
  | .detectRetry after => Sys2Proof.Machine.execDetectRetry after s
  | .badUplinkFrame a v => Sys2Proof.Machine.execBadUplinkFrame a v s
  | .servoGateOpen l => Sys2Proof.Machine.execServoGateOpen l s
  | .servoGateClose l => Sys2Proof.Machine.execServoGateClose l s
  | .doorbellWrite p q cq v => Sys2Proof.Machine.execDoorbellWrite p q cq v s
  | .pcieConfigAccess p a => Sys2Proof.Machine.execPcieConfigAccess p a s
  | .pcieLinkUp p speed width => Sys2Proof.Machine.execPcieLinkUp p speed width s
  | .pcieError p uncorrectable => Sys2Proof.Machine.execPcieError p uncorrectable s
  | .interruptCoalescingTimeout p v after => Sys2Proof.Machine.execInterruptCoalescingTimeout p v after s
  | .recoveryTimeLimit fseq => Sys2Proof.Machine.execRecoveryTimeLimit fseq s
  | .hostTransferDone fseq => Sys2Proof.Machine.execHostTransferDone fseq s
  | .coreMemoryAccess c k a size v err => Sys2Proof.Machine.execCoreMemoryAccess c k a size v err s
  | .fenceI c => Sys2Proof.Machine.execFenceI c s
  | .poweredHour after => Sys2Proof.Machine.execPoweredHour after s
  | .cricketToggle after => Sys2Proof.Machine.execCricketToggle after s
  | .tokenHoldExpiry n after => Sys2Proof.Machine.execTokenHoldExpiry n after s
  | .foreignFrameReceive => Sys2Proof.Machine.execForeignFrameReceive s
  | .canReceiveError major => Sys2Proof.Machine.execCanReceiveError major s
  | .clockRelock k => Sys2Proof.Machine.execClockRelock k s
  | .avsAcknowledge => Sys2Proof.Machine.execAvsAcknowledge s

end Sys2Proof.Machine
end

