-- ==== Sys2Proof/WellFormed.lean ====
section
/-! DEFINITION. Which commands are well formed: the operands that the types leave wider than the hardware lie in their ranges. A
command that is not has a meaning all the same, but nothing outside can send it. -/

namespace Sys2Proof

/-- An access size of a bus. -/
def accessSize (n : Nat) : Bool := n == 1 || n == 2 || n == 4 || n == 8

/-- A signed byte. -/
def byteFits (x : Int) : Bool := decide (-128 ≤ x) && decide (x ≤ 127)

/-- The writes of one cycle: 40-bit addresses, at most one of each master and channel (R40). -/
def writesFit (l : List RegWrite) : Bool :=
  l.all (fun x => decide (x.addr < 2 ^ 40)) && decide (l.map fun x => (x.master, x.chan)).Nodup

/-- One frame slot as four readers show it (R72, R73): frame f of 16,384, and a rate of at most 2 ticks a cycle (R79). -/
def frameFits (x : RefFrame) : Bool :=
  x.obs.length == 4 && decide (x.f < 16384) && decide (x.pred < 2 ^ 24) && decide (x.rate ≤ 131072)

/-- A submission queue entry of 64 bytes, or none (R425). -/
def entryFits (l : List Word) : Bool := l.isEmpty || l.length == 16

/-- An offset in a control store of 128 KiB. -/
def storeOffset (o : Nat) : Bool := decide (o < 0x20000)

/-- The command's operands lie in their ranges. -/
def Instr.wellFormed : Instr → Bool
  | .registerWrite l reads => writesFit l && reads.all fun x => decide (x.addr < 2 ^ 40)
  | .snapshotRead _ _ n => accessSize n
  | .clearOnRead _ _ n => accessSize n
  | .bar2Write _ off n _ others => decide (off < 2 ^ 24) && accessSize n && writesFit others
  | .bar2Read _ off n => decide (off < 2 ^ 24) && accessSize n
  | .laneRouteWrite l _ => decide (l.map RouteWrite.master).Nodup
  | .outCommit l => l.all writesFit
  | .referenceFrame x => frameFits x
  | .readerCalibrationEnd _ off corr _ => decide (off < 2 ^ 24) && corr.length == 64
  | .laneCalibrationEnd _ c => byteFits c.offset && byteFits c.tone && decide (c.dnl < 256)
  | .fsqStoreWrite _ _ off n _ => storeOffset off && accessSize n
  | .fsqStoreRead _ _ off n _ => storeOffset off && accessSize n
  | .veStoreWrite _ _ off n _ => storeOffset off && accessSize n
  | .veStoreRead _ _ off n _ => storeOffset off && accessSize n
  | .overrange _ first last => decide (first < 2 ^ 26) && decide (last < 2 ^ 26)
  | .reconstructionRequest r => decide (r.surf < 64) && decide (r.track < 2 ^ 20)
  | .commandFetch e0 e1 => entryFits e0 && entryFits e1
  | .dmaHalt l => decide (l.map Prod.fst).Nodup
  | .imageLoad n _ => decide (n.runs.Pairwise fun a b => a.1 + a.2.length ≤ b.1)
  | .svcRegwr _ l => decide (l.length < 16384)
  | .svcMemwr l => decide (l.length < 65536)
  | .svcFuse _ l => decide (l.length < 65536)
  | _ => true

end Sys2Proof
end

