-- ==== Sys2Proof/Safety.lean ====
section
/-! DEFINITION. What makes a state safe for the disks (R21, R87): while the angle base is not valid no gate is open and no writer
drives; and the form of memory that every operation keeps. -/

namespace Sys2Proof.Machine

/-- Every gate of a sequencer is closed. -/
def Seq.closed (q : Seq) : Bool := !q.rgLead && !q.rgTrail && !q.wg && !q.vg

/-- Neither a read, a verify nor a servo gate is open on a lane. -/
def Lane.closed (x : Lane) : Bool := x.gateAt.isNone && x.servoAt.isNone

/-- No sequencer's gate and no lane's gate is open, and no writer output drives (R87). -/
def Dev.quietDisk (d : Dev) : Bool :=
  (d.fsq.seqs.all fun e => e.2.closed) && (d.lanes.all fun e => (d.lane e.1).closed) &&
    (List.range 32).all fun s => d.rd .WRF_SSTAT_DRIVING s == 0

/-- The angle base is valid, or the disks are left alone (R21, R87). -/
def Dev.gatesSafe (d : Dev) : Bool := d.angValid || d.quietDisk

/-- The angle base is valid, or every gate of every sequencer and every read, verify and servo gate of every lane is closed and no
writer output drives (R21, R87). -/
def State.Safe (s : State) : Prop :=
  let d := s.dev
  d.angValid = true ∨
    ((∀ q x, (q, x) ∈ d.fsq.seqs → x.rgLead = false ∧ x.rgTrail = false ∧ x.wg = false ∧ x.vg = false) ∧
      (∀ l, (d.lane l).gateAt = none ∧ (d.lane l).servoAt = none) ∧
      ∀ h, h < 32 → d.rd .WRF_SSTAT_DRIVING h = 0)

/-- FLT_STAT.CRKRUN is 1 exactly where a handover has started CRICKET and no hold, no safe state and no pending source of an effective
severity of at least CRKSEV stops it, and is else 0 (R614, R628). -/
def State.CricketShown (s : State) : Prop :=
  let d := s.dev
  (d.rd .FLT_STAT_CRKRUN = 1 ↔
    d.flt.crkOn = true ∧ d.rd .FLT_STAT_HOLD = 0 ∧ d.rd .FLT_STAT_SAFEACT = 0 ∧
      ∀ n ∈ d.pendingSources, d.rd .FLT_SRCSTAT_EFFSEV n < min 4 (d.rd .FLT_CFG_CRKSEV)) ∧
  (d.rd .FLT_STAT_CRKRUN = 0 ∨ d.rd .FLT_STAT_CRKRUN = 1)

/-- Field `f` of the word that sequencer `q` issues can act with one of `codes`: the sequencer issues, the word stops at no
breakpoint, the turn of the field has come, and a word of which nothing has acted is neither illegal nor stalled (R243, R260,
R261). -/
def Dev.fieldReady (d : Dev) (q : Nat) (f : MField) (codes : List Nat) : Bool :=
  let w := d.mword q
  let x := d.seq q
  d.issuing q && codes.contains (f.code w) && !d.breakDue q w && x.turn w f &&
    (!x.acted.isEmpty || (!d.illegal q w && !d.stalls q w))

/-- Field `f` of the present word is marked as done, and the word's condition is fixed (R256, R261). -/
def Dev.acting (d : Dev) (q : Nat) (f : MField) : Dev :=
  let x := d.seq q
  d.setSeq q { x with acted := x.acted ++ [f.num], cond := some (x.cond.getD (d.wordCond q (d.mword q))) }

/-- Engine `e` can act with micro-op `w`: it runs, its store holds `w` at its place in the present step, and a step of which nothing
has acted is legal, waits for no load, and neither overflows nor underflows the call stack (R392, R393). -/
def Dev.microReady (d : Dev) (e w : Nat) : Bool :=
  let x := d.eng e
  let ws := d.stepAt e (d.rd .VE_EPC_PC e)
  d.veState e == 2 && x.run.isSome && ws[x.pos]? == some w &&
    (x.pos != 0 || (stepLegal ws && !x.stalls ws && !ws.any x.stackBad))

/-- The service port neither connects nor disconnects. -/
def Dev.svcStays (d : Dev) : Bool :=
  if d.rd .SVC_STAT_STATE == 0 then d.rd .SVC_CFG_MODE == 0 || !d.svc.vbus else d.rd .SVC_CFG_MODE != 0

/-- In the cycle that a command takes nothing happens of itself: ANG does not move, no trigger preempts, no power-fail sequence
runs, no writer holds a job or drives, no reallocation waits, SCH holds no job, load or withdrawn entry and goes through no LOADING, HIF holds
no command, no controller is ready or shuts down, the choice of a beacon master stands, the service port stays as it is, and the
gates are safe. -/
def Dev.atRest (d : Dev) : Bool :=
  d.ang.rate.isNone && d.wrf.slots.isEmpty && d.tpe.moves.isEmpty && d.beaconChoice == d.rck.choice && d.svcStays &&
    ((List.range 12).all fun e => !d.preempts e) && !d.spn.running && d.sch.jobs.isEmpty && d.sch.drainFor.isEmpty &&
    d.sch.forced.isEmpty && d.sch.loads.isEmpty && (d.sch.ovl.all fun o => !o.withdrawn) && d.schState != 3 && !d.sch.charge &&
    d.hif.adm.isEmpty && d.hif.cmds.isEmpty &&
    (d.portList.all fun p => !d.ctrlReady p && d.rd .HIF_NVMSTAT_SHST p != 1) &&
    ((List.range 32).all fun s => d.rd .WRF_SSTAT_DRIVING s == 0) && d.gatesSafe

/-- `e` differs from `d` in the register fields that `l` lists, each with its instance, at most: every other field, every byte of
memory and every other piece of state is the same. -/
def Dev.onlyRegs (d e : Dev) (l : List (Fld × Nat)) : Prop :=
  e = { d with regs := e.regs } ∧ ∀ (f : Fld) (i : Nat), (f, i) ∉ l → e.rd f i = d.rd f i

end Sys2Proof.Machine
end

