-- ==== Sys2Proof/Certificates/Slice0/Obligations.lean ====
section
/-! DEFINITION. The statements about the model for the provers: what each command does, by family, what it leaves unchanged, and what
every step keeps. `s.dev.met` is the device as a command meets it, and `s.after d` the state its own effect `d` leads to. -/

section

open Sys2Proof Sys2Proof.Machine

/-- The commands of the angle base's state and of its readers. ABU_ENABLE takes IDLE to ACQUIRE, ABU_DISABLE leaves to IDLE with
what R87 does where the base was valid, REACQ and AUTO leave LOST for ACQUIRE, a reader's USE, FORCEOUT, READMIT and calibration
end set the state R77 gives, and the checks of R76 and R88 follow. Where the spec leaves a point open the clause follows the
model's choice, log 18, 29, 69, 70. (03_angle_base R77, 03_angle_base R84, 03_angle_base R87, 03_angle_base R88) -/
def Obligations.AngleBaseStates : Prop :=
  (∀ (s : State) (d : Dev), s.dev.met = d →
    d.rd .ANG_STAT_STATE = 0 →
    exec .abuEnable s = .next (s.after ({ (d.wr .ANG_CTL_ENABLE 0 1).wr .ANG_STAT_STATE 0 1 with ang := { d.ang with agree := 0 } }))) ∧
  (∀ (s : State) (d : Dev), s.dev.met = d →
    d.rd .ANG_STAT_STATE ≠ 0 →
    exec .abuEnable s = .next (s.after (d.wr .ANG_CTL_ENABLE 0 1))) ∧
  (∀ (s : State) (d : Dev), s.dev.met = d →
    d.rd .ANG_STAT_STATE = 2 →
    exec .abuDisable s = .next (s.after ((d.wr .ANG_CTL_ENABLE 0 0).angDrop 0))) ∧
  (∀ (s : State) (d : Dev), s.dev.met = d →
    d.rd .ANG_STAT_STATE ≠ 2 →
    exec .abuDisable s = .next (s.after ((d.wr .ANG_CTL_ENABLE 0 0).wr .ANG_STAT_STATE 0 0))) ∧
  (∀ (s : State) (d : Dev), s.dev.met = d →
    d.rd .ANG_STAT_STATE = 3 →
    exec .abuReacquire s = .next (s.after (({ d with ang := { d.ang with agree := 0 } }).wr .ANG_STAT_STATE 0 1))) ∧
  (∀ (s : State) (d : Dev), s.dev.met = d →
    d.rd .ANG_STAT_STATE ≠ 3 →
    exec .abuReacquire s = .next (s.after (d))) ∧
  (∀ (s : State) (d : Dev), s.dev.met = d →
    d.rd .ANG_STAT_STATE = 3 →
    d.rd .ANG_CTL_AUTO ≠ 0 →
    2 ≤ d.usableDeclared →
    exec .autoReacquire s = .next (s.after (({ d with ang := { d.ang with agree := 0 } }).wr .ANG_STAT_STATE 0 1))) ∧
  (∀ (s : State) (d : Dev) (r : Fin 4), s.dev.met = d →
    bit (d.rd .ANG_REFCTL_USE) r.val = true →
    exec (.readerUse r false) s = .next (s.after (
      let d1 := d.wrBit .ANG_REFCTL_USE 0 r.val false
      ((({ d1 with ang := { d1.ang with readers := Tab.put d1.ang.readers r.val {} } }).wr (readerFld r.val) 0 0).refReplace d.usableDeclared).checkFewref))) ∧
  (∀ (s : State) (d : Dev) (r : Fin 4), s.dev.met = d →
    bit (d.rd .ANG_REFCTL_USE) r.val = false →
    exec (.readerUse r true) s = .next (s.after (
      let d1 := d.wrBit .ANG_REFCTL_USE 0 r.val true
      ((({ d1 with ang := { d1.ang with readers := Tab.put d1.ang.readers r.val {} } }).wr (readerFld r.val) 0
        (if d1.rd .ANG_STAT_STATE = 2 then 5 else 1)).refReplace d.usableDeclared).checkFewref))) ∧
  (∀ (s : State) (d : Dev) (r : Fin 4), s.dev.met = d →
    d.rd (readerFld r.val) ≠ 0 →
    d.rd (readerFld r.val) ≠ 4 →
    exec (.readerForceout r) s = .next (s.after ((((d.wr (readerFld r.val) 0 4).reffail [r.val]).refReplace d.usableDeclared).checkFewref))) ∧
  (∀ (s : State) (d : Dev) (r : Fin 4), s.dev.met = d →
    d.rd (readerFld r.val) = 4 →
    exec (.readerReadmit r) s = .next (s.after (d.wr (readerFld r.val) 0 5))) ∧
  (∀ (s : State) (d : Dev) (r : Fin 4), s.dev.met = d →
    d.rd (readerFld r.val) ≠ 4 →
    exec (.readerReadmit r) s = .next (s.after (d))) ∧
  (∀ (s : State) (d : Dev) (r : Fin 4) (off : Nat) (corr : List Int) (after : Nat), s.dev.met.advance after = d →
    d.rd (readerFld r.val) = 5 →
    d.indexNow = true →
    1 ≤ d.trackers →
    apart (signed 24 (subMod 24 off (d.rd .ANG_REFOFF_OFF r.val))) 0 (d.rd .ANG_TOL_DIS) = false →
    exec (.readerCalibrationEnd r off corr after) s = .next (s.after (
      let d1 := (d.wr .ANG_REFOFF_OFF r.val off).wr (readerFld r.val) 0 2
      let d1 := (List.range 64).foldl (fun x e => x.wr .ANG_RRO_CORR (r.val * 64 + e) (unsigned 16 (corr.getD e 0))) d1
      { d1 with ang := { d1.ang with readers := Tab.put d1.ang.readers r.val {} } }))) ∧
  (∀ (s : State) (d : Dev) (r : Fin 4) (off : Nat) (corr : List Int) (after : Nat), s.dev.met.advance after = d →
    d.rd (readerFld r.val) = 5 →
    d.trackers = 0 →
    exec (.readerCalibrationEnd r off corr after) s = .next (s.after ((d.wr (readerFld r.val) 0 4).reffail [r.val])))

/-- The lock, the wrap, the compare units and the synthesisers. ANGLE_LOCK rounds ANG up to a whole revolution and enters
LOCKED, ANGLE_WRAP passes the cycles to the wrap, arming a compare unit copies its control word, firing sets FIRED and disarms
it or moves its target one revolution on, and a synthesiser that leaves its range stops. (03_angle_base R79, 03_angle_base R80,
03_angle_base R81, 03_angle_base R95, 03_angle_base R97, 03_angle_base R98, 03_angle_base R101) -/
def Obligations.AngleAndCompares : Prop :=
  (∀ (s : State) (d : Dev), s.dev.met = d →
    d.rd .ANG_STAT_STATE = 1 →
    2 ≤ d.trackers →
    16 ≤ d.ang.agree →
    d.rd .ANG_STAT_SPEED ≠ 0 →
    2 ≤ d.usableDeclared →
    (d.ang.val + 0xFFFFFF) / 0x1000000 * 0x1000000 < 2 ^ 48 →
    exec .angleLock s = .next (s.after (
      let v := (d.ang.val + 0xFFFFFF) / 0x1000000 * 0x1000000
      let d1 := (({ d with ang := { d.ang with val := v, prev := v, sub := 0, nolook := 0, split := 0 } }).wr .ANG_STAT_STATE 0 2).tally .ANG_STAT_EPOCH
      (d1.event 0x201 0 (d1.word .ANG_STAT) 0 0).strobeAll { owner := .ref, index := true }))) ∧
  (∀ (s : State) (d : Dev) (r : Nat), s.dev.met = d →
    d.ang.rate = some r →
    0 < r →
    d.ang.val < 2 ^ 48 →
    d.ang.sub < 65536 →
    exec .angleWrap s = .next (s.after (
      let n := (2 ^ 64 - (d.ang.val * 65536 + d.ang.sub) + (r - 1)) / r
      let t := d.ang.val * 65536 + d.ang.sub + r * n
      ({ d with now := d.now + n, ang := { d.ang with val := mod48 (t / 65536), sub := t % 65536, prev := mod48 ((t - r) / 65536) } }).wrapped))) ∧
  (∀ (s : State) (d : Dev) (u : Fin 16) (w : Word), s.dev.met = d →
    exec (.angleCompareArm u w) s = .next (s.after (
      let v := w.toNat
      let d1 := ((d.wr .ANG_CMPCTL_ARM u.val (bnat (bit v 31))).wr .ANG_CMPCTL_PERIODIC u.val (bnat (bit v 30))).wr .ANG_CMPCTL_IRQ u.val (bnat (bit v 29))
      let d1 := (d1.wr .ANG_CMPCTL_FRAME u.val (bits v 24 2)).wr .ANG_CMPCTL_HEAD u.val (bits v 0 7)
      { d1 with ang := { d1.ang with cmpHit := Tab.put d1.ang.cmpHit u.val (bit v 31 && d1.unitMet u.val) } }))) ∧
  (∀ (s : State) (d : Dev) (u : Fin 16) (after : Nat), s.dev.met.advance after = d →
    d.rd .ANG_CMPCTL_ARM u.val ≠ 0 →
    d.rd .ANG_CMPCTL_PERIODIC u.val = 0 →
    d.rd .ANG_CMPCTL_IRQ u.val = 0 →
    d.rd .ANG_STAT_STATE = 2 →
    d.unitMet u.val = true →
    Tab.getD d.ang.cmpHit u.val false = false →
    exec (.angleCompareFire (.ang u) after) s = .next (s.after (
      let d1 := d.wr .ANG_CMPSTAT_FIRED u.val 1
      ({ d1 with ang := { d1.ang with cmpHit := Tab.put d1.ang.cmpHit u.val false, cmpAt := Tab.put d1.ang.cmpAt u.val d1.now } }).wr .ANG_CMPCTL_ARM u.val 0))) ∧
  (∀ (s : State) (d : Dev) (u : Fin 16) (after : Nat), s.dev.met.advance after = d →
    d.rd .ANG_CMPCTL_ARM u.val ≠ 0 →
    d.rd .ANG_CMPCTL_PERIODIC u.val ≠ 0 →
    d.rd .ANG_CMPCTL_IRQ u.val ≠ 0 →
    d.rd .ANG_STAT_STATE = 2 →
    d.unitMet u.val = true →
    Tab.getD d.ang.cmpHit u.val false = true →
    exec (.angleCompareFire (.ang u) after) s = .next (s.after (
      let d1 := (d.wr .ANG_CMPSTAT_FIRED u.val 1).wr .ANG_CMPSTAT_LATE u.val 1
      let d1 := { d1 with ang := { d1.ang with cmpHit := Tab.put d1.ang.cmpHit u.val false, cmpAt := Tab.put d1.ang.cmpAt u.val d1.now } }
      (d1.setCmpTarget u.val (mod48 (d1.cmpTarget u.val + rev))).emit (.irq .ANG u.val)))) ∧
  (∀ (s : State) (d : Dev) (q : Fin 32) (b : Bool) (after : Nat), s.dev.met.advance after = d →
    ((d.seq q.val).ac b).armed = true →
    ((d.seq q.val).ac b).late = false →
    d.rd .ANG_STAT_STATE = 2 →
    d.cmpMet ((d.seq q.val).ac b).frame (d.jobHead q.val) ((d.seq q.val).ac b).target = true →
    d.boundTo q.val ((d.seq q.val).ac b).frame = none →
    exec (.angleCompareFire (.fsq q b) after) s = .next (s.after (
      let x := d.seq q.val
      (d.setSeq q.val (x.setAc b { x.ac b with armed := false })).wr (if b then .FSQ_CMPSTAT_ACBF else .FSQ_CMPSTAT_ACAF) q.val 1))) ∧
  (∀ (s : State) (d : Dev) (k : Fin 64), s.dev.met = d →
    d.rd (synEnable k.val).1 (synEnable k.val).2 ≠ 0 →
    d.inRange k.val = false →
    d.ang.ranged.contains k.val = false →
    exec (.synthOutOfRange k) s = .next (s.after (({ d with ang := { d.ang with ranged := d.ang.ranged ++ [k.val] } }).wr (synRange k.val).1 (synRange k.val).2 1))) ∧
  (∀ (s : State) (d : Dev) (k : Fin 64), s.dev.met = d →
    d.inRange k.val = true →
    d.ang.ranged.contains k.val = false →
    exec (.synthOutOfRange k) s = .next (s.after (d))) ∧
  (∀ (s : State) (d : Dev) (k : Fin 64), s.dev.met = d →
    d.inRange k.val = true →
    d.ang.ranged.contains k.val = true →
    exec (.synthRangeReturn k) s = .next (s.after ({ d with ang := { d.ang with ranged := d.ang.ranged.filter (· != k.val) } })))

/-- A frame slot that two readers in TRACK pass and agree on. With two readers in TRACK, two out of use, both frames passing the
tests of R74 and readings that agree, the readers stay in TRACK, the combined angle is the predicted one plus the mean of the
two readings' offsets, rounded down (the rounding is the model's choice, log 10), and what remains of loss is checked. Where the
spec leaves a point open the clause follows the model's choice, log 10, 18, 71. (03_angle_base R73, 03_angle_base R74,
03_angle_base R75, 03_angle_base R77, 03_angle_base R85) -/
def Obligations.ReferenceFrames : Prop :=
  (∀ (s : State) (d : Dev) (x : RefFrame) (o0 o1 : ReaderObs), s.dev.met = d →
    d.rd .ANG_REFSTAT_REFA = 2 →
    d.rd .ANG_REFSTAT_REFB = 2 →
    d.rd .ANG_REFSTAT_REFC = 0 →
    d.rd .ANG_REFSTAT_REFD = 0 →
    x.f ≠ 0 →
    x.obs[0]? = some o0 →
    x.obs[1]? = some o1 →
    framePlain o0 x.f = true →
    framePlain o1 x.f = true →
    d.readingOff 0 x.f o0.phase x.pred - d.readingOff 1 x.f o1.phase x.pred ≤ d.rd .ANG_TOL_DIS →
    d.readingOff 1 x.f o1.phase x.pred - d.readingOff 0 x.f o0.phase x.pred ≤ d.rd .ANG_TOL_DIS →
    exec (.referenceFrame x) s = .next (s.after (
      let slot := d.ang.slots + 1
      let kept (r : Nat) : Reader := { Tab.getD d.ang.readers r {} with badAt := (Tab.getD d.ang.readers r {}).badAt.filter fun k => slot < k + 16384 }
      let d1 := { d with ang := { d.ang with slots := slot } }
      let d1 := ({ d1 with ang := { d1.ang with readers := Tab.put d1.ang.readers 0 (kept 0) } }).wr .ANG_REFSTAT_REFA 0 2
      let d1 := ({ d1 with ang := { d1.ang with readers := Tab.put d1.ang.readers 1 (kept 1) } }).wr .ANG_REFSTAT_REFB 0 2
      let mean := (d.readingOff 0 x.f o0.phase x.pred + d.readingOff 1 x.f o1.phase x.pred) / 2
      let d1 := { d1 with ang := { d1.ang with comb := some (unsigned 24 ((x.pred : Int) + mean)), agree := d.ang.agree + 1, nolook := 0, split := 0 } }
      let d1 := d1.takeRate x.rate
      let inRange := decide (1600 ≤ x.rpm) && decide (x.rpm ≤ 8000)
      let d1 := d1.wr .ANG_STAT_SPEED 0 (if inRange then 1 else 0)
      let late := decide (d1.rd .ANG_TOL_PERR * 16 < x.phaseErr)
      (d1.refReplace d.usableDeclared).angLoss (bnat (!d1.redundancy) + 8 * bnat late + 16 * bnat (!inRange)))))

/-- The strobes, the reader inputs and the lanes. A strobe applies every buffered value due at it in one step and none while the
angle base is not valid; a reader input's control word is written unless a route holds the input, its fault puts the head out; a
lane's FORCEOUT, READMIT, RECAL, faults, calibration end, overrange and servo gate do what their rules say. Where the spec
leaves a point open the clause follows the model's choice, log 19, 29, 72, 73, 74, 75, 76, 92. (02_register_conventions R46,
02_register_conventions R47, 04_reader_lanes R108, 04_reader_lanes R120, 04_reader_lanes R126, 04_reader_lanes R135,
04_reader_lanes R136, 04_reader_lanes R137, 04_reader_lanes R142, 16_health_and_ageing R588) -/
def Obligations.LanesAndReaderInputs : Prop :=
  (∀ (s : State) (d : Dev) (x : Strobe) (h : Fin 128) (after : Nat), s.dev.met.advance after = d →
    allOwners.filterMap (fun o => (d.strobeNow o).map fun w => ({ owner := o, index := w == 0 } : Strobe)) = [x] →
    x.owner = .head h →
    d.rd .ANG_STAT_STATE = 2 →
    d.slotOfHead h.val = none →
    (∀ p ∈ d.bus.pend, p.reg ≠ .LNX_ROUTE) →
    exec (.deferredApply after) s = .next (s.after (
      let now := d.bus.pend.filter (d.due x)
      now.foldl (fun y p => y.applyOne now p) { d with bus := { d.bus with pend := d.bus.pend.filter fun p => !now.contains p } }))) ∧
  (∀ (s : State) (d : Dev) (after : Nat), s.dev.met.advance after = d →
    d.rd .ANG_STAT_STATE ≠ 2 →
    exec (.deferredApply after) s = .next (s.after (d))) ∧
  (∀ (s : State) (d : Dev) (x : Strobe) (h : Fin 128) (after : Nat), s.dev.met.advance after = d →
    allOwners.filterMap (fun o => (d.strobeNow o).map fun w => ({ owner := o, index := w == 0 } : Strobe)) = [x] →
    x.owner = .head h →
    d.rd .ANG_STAT_STATE = 2 →
    d.slotOfHead h.val = none →
    exec (.routeApply after) s = .next (s.after (
      let now := routesFirst (d.bus.pend.filter (d.due x))
      let d2 := now.foldl (fun y p => y.applyOne now p) { d with bus := { d.bus with pend := d.bus.pend.filter fun p => !now.contains p } }
      ((now.filter fun p => p.reg == .LNX_ROUTE).map fun p => p.idx / 2).foldl (fun y m => (y.evalDual m).guideTaken m) d2))) ∧
  (∀ (s : State) (d : Dev) (n : Fin 256) (w : Word), s.dev.met = d →
    (List.range 64).any (fun l => d.holdsInput l n.val) = false →
    exec (.rdiCtlWrite n w) s = .next (s.after (((d.wr .RDI_CTL_DECL n.val (bnat (bit w.toNat 0))).wr .RDI_CTL_TERM n.val (bnat (bit w.toNat 1))).wr .RDI_CTL_INVERT n.val (bnat (bit w.toNat 2))))) ∧
  (∀ (s : State) (d : Dev) (n : Fin 256) (w : Word), s.dev.met = d →
    (List.range 64).any (fun l => d.holdsInput l n.val) = true →
    exec (.rdiCtlWrite n w) s = .next (s.after (d.wr .RDI_STAT_WIGN n.val 1))) ∧
  (∀ (s : State) (d : Dev) (n : Fin 256), s.dev.met = d →
    exec (.readerInputFault n true) s = .next (s.after (
      let d0 := { d with lnx := { d.lnx with openNow := (d.lnx.openNow.filter (· != n.val)) ++ [n.val] } }
      let d1 := ((d0.lanesOf n.val).foldl Dev.faultFrom d0).wr .RDI_STAT_OPEN n.val 1
      ((d1.event 0x211 n.val (d1.word .RDI_STAT n.val) 0 0).wr .SRV_HSTAT_RDOUT (n.val / 2) 1).headOut (n.val / 2)))) ∧
  (∀ (s : State) (d : Dev) (n : Fin 256), s.dev.met = d →
    exec (.readerInputFault n false) s = .next (s.after (
      let d0 := { d with lnx := { d.lnx with shortNow := (d.lnx.shortNow.filter (· != n.val)) ++ [n.val] } }
      let d1 := ((d0.lanesOf n.val).foldl Dev.faultFrom d0).wr .RDI_STAT_SHORT n.val 1
      ((d1.event 0x211 n.val (d1.word .RDI_STAT n.val) 0 0).wr .SRV_HSTAT_RDOUT (n.val / 2) 1).headOut (n.val / 2)))) ∧
  (∀ (s : State) (d : Dev) (n : Fin 256) (isOpen : Bool), s.dev.met = d →
    exec (.readerInputFaultClear n isOpen) s = .next (s.after (
      let d1 := { d with lnx := if isOpen then { d.lnx with openNow := d.lnx.openNow.filter (· != n.val) } else { d.lnx with shortNow := d.lnx.shortNow.filter (· != n.val) } }
      if d1.lnx.openNow.contains n.val || d1.lnx.shortNow.contains n.val then d1 else (d1.lanesOf n.val).foldl Dev.faultEnds d1))) ∧
  (∀ (s : State) (d : Dev) (l : Fin 64) (first last : Nat), s.dev.met = d →
    d.sampling l.val = true →
    (d.lane l.val).ovrEnd = none →
    exec (.overrange l first last) s = .next (s.after (
      let spr := max 1 (d.spr (l.val / 2))
      let y := d.edgeAt l.val last
      let x := y - (last % spr + spr - first % spr) % spr
      let d1 := d.setLane l.val { d.lane l.val with ovrEnd := some y, overs := runsKept spr x (d.lane l.val).overs ++ [{ first := x, last := y }] }
      let d1 := ((d1.wr .LANE_STAT_OVR l.val 1).flagRun l.val x (y + 24)).count .LANE_OVRCNT_EVENTS l.val
      (d1.ledgerOverrange l.val).disturb l.val x y))) ∧
  (∀ (s : State) (d : Dev) (l : Fin 64) (first last prev : Nat), s.dev.met = d →
    d.sampling l.val = true →
    (d.lane l.val).ovrEnd = some prev →
    d.edgeAt l.val last - (last % max 1 (d.spr (l.val / 2)) + max 1 (d.spr (l.val / 2)) - first % max 1 (d.spr (l.val / 2))) % max 1 (d.spr (l.val / 2)) ≤ prev + 24 →
    exec (.overrange l first last) s = .next (s.after (
      let spr := max 1 (d.spr (l.val / 2))
      let y := d.edgeAt l.val last
      let x := y - (last % spr + spr - first % spr) % spr
      let d1 := d.setLane l.val { d.lane l.val with ovrEnd := some y, overs := runsKept spr x (d.lane l.val).overs ++ [{ first := x, last := y }] }
      (((d1.wr .LANE_STAT_OVR l.val 1).flagRun l.val x (y + 24))).disturb l.val x y))) ∧
  (∀ (s : State) (d : Dev) (l : Fin 64) (first last : Nat), s.dev.met = d →
    d.sampling l.val = false →
    exec (.overrange l first last) s = .next (s.after (d))) ∧
  (∀ (s : State) (d : Dev) (n : Fin 64), s.dev.met = d →
    d.rd .LANE_STAT_STATE n.val ≠ 0 →
    d.rd .LANE_STAT_STATE n.val ≠ 4 →
    exec (.laneForceout n) s = .next (s.after (d.laneOut n.val))) ∧
  (∀ (s : State) (d : Dev) (n : Fin 64), s.dev.met = d →
    d.rd .LANE_STAT_STATE n.val = 4 →
    exec (.laneReadmit n) s = .next (s.after (((d.wr .LANE_STAT_STATE n.val 1).wr .LANE_STAT_HELD n.val 0).evalDual (n.val / 2)))) ∧
  (∀ (s : State) (d : Dev) (n : Fin 64), s.dev.met = d →
    d.rd .LANE_STAT_STATE n.val = 3 →
    d.rd .LANE_STAT_HELD n.val = 0 →
    exec (.laneRecal n) s = .next (s.after (((d.wr .LANE_STAT_STATE n.val 1).wr .LANE_STAT_HELD n.val 0).evalDual (n.val / 2)))) ∧
  (∀ (s : State) (d : Dev) (n : Fin 64), s.dev.met = d →
    d.rd .LANE_STAT_STATE n.val = 3 →
    d.rd .LANE_STAT_HELD n.val ≠ 0 →
    exec (.laneRecal n) s = .next (s.after (d.wr .LANE_STAT_RECALPEND n.val 1))) ∧
  (∀ (s : State) (d : Dev) (n : Fin 64), s.dev.met = d →
    d.rd .LANE_STAT_STATE n.val = 3 →
    d.rd .LANE_STAT_HELD n.val = 0 →
    d.rd .LANE_STAT_RECALPEND n.val ≠ 0 →
    exec (.deferredRecal n) s = .next (s.after ((((d.wr .LANE_STAT_RECALPEND n.val 0).wr .LANE_STAT_STATE n.val 1).wr .LANE_STAT_HELD n.val 0).evalDual (n.val / 2)))) ∧
  (∀ (s : State) (d : Dev) (n : Fin 64) (g : Nat), s.dev.met = d →
    d.rd .LANE_STAT_STATE n.val = 3 →
    (d.lane n.val).gateAt = some g →
    g + 1023 ≤ d.laneEdge n.val →
    exec (.laneFault n .stuck) s = .next (s.after (
      let d1 := (d.wr .LANE_STAT_STUCK n.val 1).laneOut n.val
      d1.raise 2 n.val (d1.word .LANE_STAT n.val)))) ∧
  (∀ (s : State) (d : Dev) (n : Fin 64) (g : Nat), s.dev.met = d →
    d.rd .LANE_STAT_STATE n.val = 3 →
    (d.lane n.val).gateAt = some g →
    d.synRuns (n.val / 2) = true →
    exec (.laneFault n .noclk) s = .next (s.after (
      let d1 := (d.wr .LANE_STAT_NOCLK n.val 1).laneOut n.val
      d1.raise 2 n.val (d1.word .LANE_STAT n.val)))) ∧
  (∀ (s : State) (d : Dev) (n : Fin 64) (l : Nat) (rest : List Nat), s.dev.met = d →
    (bankLanes (n.val / 4)).filter (fun k => d.rd .LANE_STAT_STATE k != 0 && d.rd .LANE_STAT_STATE k != 4) = l :: rest →
    exec (.laneFault n .bankflt) s = .next (s.after (
      let d1 := (l :: rest).foldl (fun y k => (y.wr .LANE_STAT_BANKFLT k 1).laneOut k) d
      d1.raiseMany 2 l (rest.length + 1) (d1.word .LANE_STAT l) 0 0 false))) ∧
  (∀ (s : State) (d : Dev) (n : Fin 64) (m : LaneCal), s.dev.met = d →
    d.rd .LANE_STAT_STATE n.val = 1 →
    d.bankQuiet n.val = true →
    (m.offset.natAbs ≤ 8 ∧ m.tone.natAbs ≤ 10 ∧ m.dnl ≤ 32 ∧ m.corner = true ∧ m.reference = true) →
    exec (.laneCalibrationEnd n m) s = .next (s.after (
      let d1 := ((d.wr .LANE_CAL_PASS n.val 15).wr .LANE_CAL_DNL n.val m.dnl).wr .LANE_CAL_TONE n.val (unsigned 8 m.tone)
      (((d1.wr .LANE_CAL_OFFSET n.val (unsigned 8 m.offset)).removeRoute n.val).laneState n.val 2).beginWait (.joining (.lane n))))) ∧
  (∀ (s : State) (d : Dev) (n : Fin 64) (m : LaneCal), s.dev.met = d →
    d.rd .LANE_STAT_STATE n.val = 1 →
    8 < m.offset.natAbs →
    exec (.laneCalibrationEnd n m) s = .next (s.after (
      let d1 := ((d.wr .LANE_CAL_PASS n.val 0).wr .LANE_CAL_DNL n.val m.dnl).wr .LANE_CAL_TONE n.val (unsigned 8 m.tone)
      let d1 := ((d1.wr .LANE_CAL_OFFSET n.val (unsigned 8 m.offset)).wr .LANE_STAT_CALFAIL n.val 1).laneOut n.val
      d1.raise 2 n.val (d1.word .LANE_STAT n.val)))) ∧
  (∀ (s : State) (d : Dev) (l : Fin 64), s.dev.met = d →
    l.val % 2 = 0 →
    d.rd .ANG_STAT_STATE = 2 →
    d.rd .LNX_ROUTE_EN l.val ≠ 0 →
    (d.lane l.val).servoAt = none →
    d.servoDue l.val (fun j => rev - j.spg) = true →
    exec (.servoGateOpen l) s = .next (s.after (
      let d1 := d.loopsRun l.val none
      (d1.setLane l.val { d1.lane l.val with servoAt := some (d1.laneEdge l.val) }).showFilter l.val))) ∧
  (∀ (s : State) (d : Dev) (l : Fin 64), s.dev.met = d →
    d.rd .ANG_STAT_STATE ≠ 2 →
    exec (.servoGateOpen l) s = .next (s.after (d))) ∧
  (∀ (s : State) (d : Dev) (l : Fin 64) (g : Nat), s.dev.met = d →
    (d.lane l.val).servoAt = some g →
    d.servoDue l.val Job.svt = true →
    exec (.servoGateClose l) s = .next (s.after ((d.setLane l.val { (d.lane l.val).closeServo (d.laneEdge l.val) with loopAt := d.laneEdge l.val }).showFilter l.val)))

/-- Sync results, the iteration bank, the check of a sector, and the track parity engine. A sync result reaches its job, a
capture whose table cannot be read ends TBLERR, a period boundary moves the pool's acorns, an iteration that satisfies every
check sends its codeword to CHK, the decode engines change state as R187 says, a sector that passes its check goes to its
buffer, and reconstructions run, wait or are refused. Where the spec leaves a point open the clause follows the model's choice,
log 3, 12, 26, 45, 64, 77, 78, 79, 80, 82, 83, 84, 87, 88. (05_detection_and_decoding R164, 05_detection_and_decoding R169,
05_detection_and_decoding R173, 05_detection_and_decoding R175, 05_detection_and_decoding R177, 05_detection_and_decoding R182,
05_detection_and_decoding R187, 05_detection_and_decoding R189, 06_media_format R219, 06_media_format R228, 06_media_format
R230, 15_check_values_and_compression R549) -/
def Obligations.DecodeAndTrackParity : Prop :=
  (∀ (s : State) (d : Dev) (l : Fin 64) (cs : Codes) (q : Nat) (j : Job) (x : Search) (rest : List Search) (after : Nat), s.dev.met.advance after = d →
    l.val % 2 = 1 →
    d.slotOfPair (l.val / 2) = some q →
    (d.seq q).job = some j →
    (d.seq q).srchTrail = x :: rest →
    j.kind = 1 →
    (d.window j x).last + 40 ≤ d.laneEdge l.val →
    exec (.syncDeclare l cs after) s = .next (s.after (
      let r := d.searchResult l.val j x cs
      let d1 := (({ d with free := d.free + 16 * cs.length }).loopsRun l.val (d.meanCode l.val ((d.window j x).e - 15) cs)).countSync j r.res
      let q1 := d1.seq q
      d1.setSeq q { q1 with srchTrail := q1.srchTrail.drop 1, foundT := r.res != 3, trailRes := Tab.put q1.trailRes x.slot r }))) ∧
  (∀ (s : State) (d : Dev) (l : Fin 64) (cs : Codes) (q : Nat) (j : Job) (x : Search) (rest : List Search) (after : Nat), s.dev.met.advance after = d →
    l.val % 2 = 0 →
    d.slotOfPair (l.val / 2) = some q →
    (d.seq q).job = some j →
    (d.seq q).srchLead = x :: rest →
    j.kind ≠ 1 →
    (d.window j x).last + 40 ≤ d.laneEdge l.val →
    exec (.syncDeclare l cs after) s = .next (s.after (
      let r := d.searchResult l.val j x cs
      let d1 := (({ d with free := d.free + 16 * cs.length }).loopsRun l.val (d.meanCode l.val ((d.window j x).e - 15) cs)).countSync j r.res
      let q1 := d1.seq q
      let d2 := d1.setSeq q { q1 with srchLead := q1.srchLead.drop 1, foundL := r.res != 3, leadRes := Tab.put q1.leadRes x.slot r }
      d2.leadDeclared q j x.slot r (q1.srchTrail.any fun y => y.slot == x.slot)))) ∧
  (∀ (s : State) (d : Dev) (k : Fin 128) (lead trail : Codes) (x : Ctx) (j : Job) (after : Nat), s.dev.met.advance after = d →
    d.ctx? k.val = some x →
    x.phase = .filling →
    (d.seq x.fsq).job = some j →
    exec (.sectorCapture k lead trail true after) s = .next (s.after (((d.endCtx k.val x 7).itbTable x.prof).entryMet x.fsq (psaSlot x.psa)))) ∧
  (∀ (s : State) (d : Dev) (k : Fin 128) (lead trail : Codes) (x : Ctx) (j : Job) (after : Nat), s.dev.met.advance after = d →
    d.ctx? k.val = some x →
    x.phase = .filling →
    (d.seq x.fsq).job = some j →
    d.codeOf x.prof x.metaBytes = none →
    exec (.sectorCapture k lead trail false after) s = .next (s.after (((d.endCtx k.val x 7).itbTable x.prof).entryMet x.fsq (psaSlot x.psa)))) ∧
  (∀ (s : State) (d : Dev) (k : Fin 128) (lead trail : Codes) (x : Ctx) (j : Job) (after : Nat), s.dev.met.advance after = d →
    d.ctx? k.val = some x →
    x.phase = .filling →
    (d.seq x.fsq).job = some j →
    ∀ (pr : Profile) (code : Code), d.codeOf x.prof x.metaBytes = some (pr, code) →
      let x1 := { x with dual := x.dual && !x.trailOnly && d.on .LANE_STAT_DUAL (2 * x.pair) }
      let el := j.edges (d.spr x.pair) x.u0 x.k0 (codeBits code pr.short)
      let et := j.edges (d.spr x.pair) x.u0 x.k0T (codeBits code pr.short)
      (d.formed x1 el et = false → exec (.sectorCapture k lead trail false after) s = .next (s.after d)) ∧
      (d.formed x1 el et = true → ∃ (y : Ctx) (mean meanT : Option Nat) (soft : List (Nat × Soft)),
        y.phase = .ready ∧ y.guar = 4 ∧ y.grant = x.grant ∧ y.profile = pr ∧ y.code = code ∧ y.seq = d.itb.capSeq + 1 ∧ y.dual = x1.dual ∧
        y.first = channelVars code pr.short y.chan ∧ y.post = y.first ∧ y.msgs = [] ∧
        exec (.sectorCapture k lead trail false after) s = .next (s.after (
          let d1 := d.used
          let d2 := { d1 with free := d1.free + 16 * (lead.length + trail.length), itb := { d1.itb with capSeq := d1.itb.capSeq + 1 } }
          let d3 := (d2.loopsRun (2 * x.pair) mean).loopsRun (2 * x.pair + 1) meanT
          let d4 := if x.trailOnly then d3 else d3.delayed x.pair soft
          (d4.setCtx k.val y).entryMet x.fsq (psaSlot x.psa))))) ∧
  (∀ (s : State) (d : Dev), s.dev.met = d →
    d.itb.started = true →
    d.itb.ctx = [] →
    d.itb.queue = [] →
    d.itb.waitq = [] →
    exec .acornPeriod s = .next (s.after (
      let used := d.rd .ITB_STAT_ESERV
      let back := min d.itb.cap (d.rd .ITB_POOLLVL_LEVEL + d.itb.ret)
      let inflow := min d.itb.cap (back + (used - d.itb.guarRun))
      let cap := d.pcap d.servingEngines.length
      let d1 := ({ d with itb := { d.itb with ctx := [], ret := 0, guarRun := 0, cap := cap } }).wr .ITB_STAT_ESERV 0 d.servingEngines.length
      d1.wr .ITB_POOLLVL_LEVEL 0 (min inflow cap)))) ∧
  (∀ (s : State) (d : Dev) (e : Fin 48) (k : Nat) (x : Ctx), s.dev.met = d →
    d.ctxInEngine e.val = some (k, x) →
    exec (.localIterationEnd e) s = .next (s.after (
      let r := minSum x.code x.profile.ofs (x.post.toArray, (x.msgs ++ List.replicate (256 * x.code.circs.length - x.msgs.length) 0).toArray)
      let usc := syndrome x.code r.1
      let c := (d.count .ITB_ENGSTAT_ITERS e.val).chargeIteration x
      let y := { c.2 with post := r.1.toList, msgs := r.2.toList, usc := usc, phase := .ready }
      if usc = 0 then (c.1.converge k y).feedPaths 32 else c.1.afterIteration k y))) ∧
  (∀ (s : State) (d : Dev) (p : Fin 32) (k : Nat) (x : Ctx), s.dev.met = d →
    d.itb.ctx.find? (fun y => y.2.phase == .redetect p.val) = some (k, x) →
    exec (.redetectionEnd p) s = .next (s.after (
      let la := x.extrinsic
      let looks := x.detectLooks la la
      let chan := x.combined (lookExtrinsic looks.1 la) (lookExtrinsic looks.2 la)
      let post := posterior x.code (channelVars x.code x.profile.short chan) x.msgs.toArray
      (({ d with itb := { d.itb with paths := d.itb.paths.filter (· != p.val) } }).setCtx k
        { x with phase := .redone, globs := x.globs + 1, chan := chan, post := post.toList }).feedPaths 32))) ∧
  (∀ (s : State) (d : Dev) (k : Fin 128) (x : Ctx), s.dev.met = d →
    d.ctx? k.val = some x →
    exec (.contextParityError k) s = .next (s.after (
      let d1 := d.endCtx k.val x 6
      (d1.raise 5 x.pair (d1.word .ITB_STAT)).feedPaths 32))) ∧
  (∀ (s : State) (d : Dev) (on : Bool), s.dev.met = d →
    exec (.itbEnable on) s = .next (s.after (
      let d1 := d.wr .ITB_CTL_ENABLE 0 (bnat on)
      if on then { d1 with itb := { d1.itb with started := true } } else d1))) ∧
  (∀ (s : State) (d : Dev) (on : Bool), s.dev.met = d →
    exec (.itbNoborrow on) s = .next (s.after (d.wr .ITB_CTL_NOBORROW 0 (bnat on)))) ∧
  (∀ (s : State) (d : Dev) (e : Fin 48), s.dev.met = d →
    d.rd .ITB_ENGSTAT_STATE e.val ≠ 0 →
    d.ctxInEngine e.val = none →
    exec (.decodeEngineForceout e) s = .next (s.after (d.wr .ITB_ENGSTAT_STATE e.val 4))) ∧
  (∀ (s : State) (d : Dev) (e : Fin 48) (k : Nat) (x : Ctx), s.dev.met = d →
    d.rd .ITB_ENGSTAT_STATE e.val ≠ 0 →
    d.ctxInEngine e.val = some (k, x) →
    exec (.decodeEngineForceout e) s = .next (s.after ((d.setCtx k { x with phase := .ready }).wr .ITB_ENGSTAT_STATE e.val 4))) ∧
  (∀ (s : State) (d : Dev) (e : Fin 48), s.dev.met = d →
    d.rd .ITB_ENGSTAT_STATE e.val = 4 →
    exec (.decodeEngineReadmit e) s = .next (s.after (d.wr .ITB_ENGSTAT_STATE e.val 1))) ∧
  (∀ (s : State) (d : Dev) (e : Fin 48), s.dev.met = d →
    d.rd .ITB_ENGSTAT_STATE e.val = 3 →
    exec (.decodeEngineFault e .parerr) s = .next (s.after (
      let d1 := (d.wr .ITB_ENGSTAT_PARERR e.val 1).engineOut e.val
      d1.raise 6 e.val (d1.word .ITB_ENGSTAT e.val)))) ∧
  (∀ (s : State) (d : Dev) (e : Fin 48), s.dev.met = d →
    d.rd .ITB_ENGSTAT_STATE e.val = 3 →
    exec (.decodeEngineFault e .timeout) s = .next (s.after (
      let d1 := (d.wr .ITB_ENGSTAT_TIMEOUT e.val 1).engineOut e.val
      d1.raise 6 e.val (d1.word .ITB_ENGSTAT e.val)))) ∧
  (∀ (s : State) (d : Dev) (e : Fin 48), s.dev.met = d →
    d.rd .ITB_ENGSTAT_STATE e.val = 1 →
    exec (.engineSelftestEnd e true) s = .next (s.after ((d.wr .ITB_ENGSTAT_STATE e.val 2).beginWait (.joining (.engine e))))) ∧
  (∀ (s : State) (d : Dev) (e : Fin 48), s.dev.met = d →
    d.rd .ITB_ENGSTAT_STATE e.val = 1 →
    exec (.engineSelftestEnd e false) s = .next (s.after ((d.wr .ITB_ENGSTAT_CALFAIL e.val 1).wr .ITB_ENGSTAT_STATE e.val 4))) ∧
  (∀ (s : State) (d : Dev) (z : Decoded) (rest : List Decoded) (fill : Nat), s.dev.met = d →
    d.chk.queue = z :: rest →
    d.rd .CHK_CTL_ENABLE ≠ 0 →
    z.judge = (0, psaGen z.psa, fill) →
    exec .sectorCheck s = .next (s.after (
      let d1 := ({ d with chk := { d.chk with queue := rest } }).mediaBytes z.buf (z.bytes.take (z.bytes.length - 6))
      let d2 := (d1.putStatus z.buf 0 0 fill z.psa).postDrec z.owner z.drec z.head z.cal
      if z.cal then d2 else d2.sectorGood z.fseq z.psa))) ∧
  (∀ (s : State) (d : Dev) (z : Decoded) (rest : List Decoded), s.dev.met = d →
    d.chk.queue = z :: rest →
    d.rd .CHK_CTL_ENABLE ≠ 0 →
    z.judge = (1, 0, 0) →
    exec .sectorCheck s = .next (s.after (
      let first := withGen z.psa (z.gens.headD (psaGen z.psa))
      let d1 := (({ d with chk := { d.chk with queue := rest } }).count .CHK_CNT_FAIL).wr .CHK_STAT_FAIL 0 1
      let d2 := (((d1.wr .CHK_FAILLO_PSA 0 first).wr .CHK_FAILHI_PSA 0 (first / 2 ^ 32)).putStatus z.buf 1 0 0 z.psa).postDrec z.owner z.drec z.head z.cal
      if z.cal then d2 else d2.sectorFailed z.owner z.fseq z.psa z.head (some (bits (z.drec.getD 1 0) 16 16)) true))) ∧
  (∀ (s : State) (d : Dev) (on : Bool), s.dev.met = d →
    exec (.tpeEnable on) s = .next (s.after ((d.wr .TPE_CTL_ENABLE 0 (bnat on)).reconFeed d.tpe.queue.length))) ∧
  (∀ (s : State) (d : Dev) (on : Bool), s.dev.met = d →
    exec (.tpeReconPermit on) s = .next (s.after (d.wr .TPE_CTL_RECON 0 (bnat on)))) ∧
  (∀ (s : State) (d : Dev) (r : ReconReq), s.dev.met = d →
    exec (.reconstructionRequest r) s = .next (s.after (
      let r1 := { r with owner := d.ownerId r.owner }
      let d1 : Dev := { d with tpe := { d.tpe with queue := d.tpe.queue ++ [r1] } }
      let d2 := d1.recovAsk r1.owner ((erasedOf r).map Member.psa)
      d2.reconFeed d2.tpe.queue.length))) ∧
  (∀ (s : State) (d : Dev) (k : Fin 4) (r : ReconReq) (z : Zone), s.dev.met = d →
    d.tpe.recon[k.val]? = some r →
    ({ d with tpe := { d.tpe with recon := d.tpe.recon.eraseIdx k.val } } : Dev).reconZone r = some z →
    exec (.reconstructionEnd k) s = .next (s.after (
      let d1 : Dev := { d with tpe := { d.tpe with recon := d.tpe.recon.eraseIdx k.val } }
      let read := d1.readMembers (4096 + metaSize z.metaSel) r.members
      let away := erasedOf { r with members := read.2 }
      let found := read.1.recover z { r with members := read.2 }
      let d2 := if found.2 && decide (away.length < z.ps) then
          let put := (away.zip found.1).foldl (fun y x => (y.mediaBytes x.1.buf (symbolBytes x.2)).putStatus x.1.buf 3 0 0 x.1.psa) read.1
          (put.recovDone r.owner (away.map Member.psa)).count .TPE_RECON_OK 0 away.length
        else (read.1.recovVain r.owner (away.map Member.psa)).count .TPE_RECON_FAIL
      (d2.reconReport r.owner).reconFeed d2.tpe.queue.length))) ∧
  (∀ (s : State) (d : Dev) (q : Fin 32), s.dev.met = d →
    exec (.tpeContextParityError q none) s = .next (s.after (
      let d1 := (({ (d.wr .TPE_STAT_ACCPAR 0 1) with tpe := { d.tpe with enc := Tab.del d.tpe.enc q.val } }) : Dev).abandon q.val 1
      let d2 := d1.raise 7 q.val (d1.word .TPE_STAT)
      d2.reconFeed d2.tpe.queue.length))) ∧
  (∀ (s : State) (d : Dev) (q : Fin 32) (k : Fin 4) (r : ReconReq), s.dev.met = d →
    d.tpe.recon[k.val]? = some r →
    exec (.tpeContextParityError q (some k)) s = .next (s.after (
      let d1 := { (d.wr .TPE_STAT_ACCPAR 0 1) with tpe := { d.tpe with recon := d.tpe.recon.eraseIdx k.val, queue := d.tpe.queue ++ [r] } }
      let d2 := d1.raise 7 q.val (d1.word .TPE_STAT)
      d2.reconFeed d2.tpe.queue.length))) ∧
  (∀ (s : State) (d : Dev) (surf : Fin 64) (track : Fin 1048576) (slot : Fin 1024) (gen : Fin 4096) (cmd : Option Word) (z : Zone), s.dev.met = d →
    d.rd .CFG_STAT_RESTORED ≠ 0 →
    d.zoneOf surf.val track.val = some z →
    (z.spareTrack track.val = false ∧ d.roleOf z surf.val track.val slot.val ≠ .spare) →
    d.tpe.moves.any (fun x => x.member == mkPsa surf.val track.val slot.val 0) = false →
    exec (.reallocation surf track slot gen cmd) s = .next (s.after (
      let m : Move := { surf := surf.val, track := track.val, slot := slot.val, gen := gen.val, cmd := cmd.map BitVec.toNat, tgt := none }
      let d1 : Dev := { d with
        tpe := { d.tpe with moves := d.tpe.moves ++ [m] },
        hlt := { d.hlt with cands := d.hlt.cands.filter fun p => p / 4096 != m.source / 4096 } }
      d1.moveStart m))) ∧
  (∀ (s : State) (d : Dev) (surf : Fin 64) (track : Fin 1048576) (slot : Fin 1024) (gen : Fin 4096) (cmd : Option Word) (z : Zone) (m : Move) (d1 : Dev) (t n : Nat), s.dev.met = d →
    d.rd .CFG_STAT_RESTORED ≠ 0 →
    d.zoneOf surf.val track.val = some z →
    (z.spareTrack track.val = false ∧ d.roleOf z surf.val track.val slot.val ≠ .spare) →
    d.tpe.moves.any (fun x => x.member == mkPsa surf.val track.val slot.val 0) = false →
    m = { surf := surf.val, track := track.val, slot := slot.val, gen := gen.val, cmd := cmd.map BitVec.toNat, tgt := none } →
    d1 = { d with tpe := { d.tpe with moves := d.tpe.moves ++ [m] }, hlt := { d.hlt with cands := d.hlt.cands.filter fun p => p / 4096 != m.source / 4096 } } →
    d1.spareTarget z track.val = some (t, n) →
    (d1.mayLock m track.val = true ∧ d1.mayLock m t = true) →
    exec (.reallocation surf track slot gen cmd) s = .next (s.after (((d1.lockFor m track.val).lockFor m t).setMove { m with tgt := some (t, n) }))) ∧
  (∀ (s : State) (d : Dev) (surf : Fin 64) (track : Fin 1048576) (slot : Fin 1024) (gen : Fin 4096) (cmd : Option Word) (z : Zone) (m : Move) (d1 : Dev), s.dev.met = d →
    d.rd .CFG_STAT_RESTORED ≠ 0 →
    d.zoneOf surf.val track.val = some z →
    (z.spareTrack track.val = false ∧ d.roleOf z surf.val track.val slot.val ≠ .spare) →
    d.tpe.moves.any (fun x => x.member == mkPsa surf.val track.val slot.val 0) = false →
    m = { surf := surf.val, track := track.val, slot := slot.val, gen := gen.val, cmd := cmd.map BitVec.toNat, tgt := none } →
    d1 = { d with tpe := { d.tpe with moves := d.tpe.moves ++ [m] }, hlt := { d.hlt with cands := d.hlt.cands.filter fun p => p / 4096 != m.source / 4096 } } →
    d1.spareTarget z track.val = none →
    exec (.reallocation surf track slot gen cmd) s = .next (s.after ((((d1.endMove m).noteNoSpare m).event 0x401 surf.val m.source (m.source / 2 ^ 32) 0).replace 1))) ∧
  (∀ (s : State) (d : Dev) (surf : Fin 64) (track : Fin 1048576) (slot : Fin 1024) (kind : Fin 4) (tsurf : Fin 64) (ttrack : Fin 1048576) (tslot : Fin 1024), s.dev.met = d →
    d.rd .CFG_STAT_RESTORED ≠ 0 →
    (kind = 0 ∨ kind = 2) →
    (insertEntry ⟨surf.val, track.val, slot.val, kind.val, tsurf.val, ttrack.val, tslot.val⟩ d.defectMap).length ≤ d.rd .TPE_DEFMAX_MAX →
    exec (.defectMapInsert surf track slot kind tsurf ttrack tslot) s = .next (s.after (((d.putMap (insertEntry ⟨surf.val, track.val, slot.val, kind.val, tsurf.val, ttrack.val, tslot.val⟩ d.defectMap)).bitmapSet surf.val track.val).checkSpares))) ∧
  (∀ (s : State) (d : Dev) (surf : Fin 64) (track : Fin 1048576) (slot : Fin 1024) (kind : Fin 4) (tsurf : Fin 64) (ttrack : Fin 1048576) (tslot : Fin 1024), s.dev.met = d →
    d.rd .CFG_STAT_RESTORED = 0 →
    exec (.defectMapInsert surf track slot kind tsurf ttrack tslot) s = .next (s.after (d))) ∧
  (∀ (s : State) (d : Dev) (surf : Fin 64) (track : Fin 1048576) (slot : Fin 1024) (kind : Fin 4) (tsurf : Fin 64) (ttrack : Fin 1048576) (tslot : Fin 1024), s.dev.met = d →
    d.rd .CFG_STAT_RESTORED ≠ 0 →
    (kind = 0 ∨ kind = 2) →
    d.rd .TPE_DEFMAX_MAX < (insertEntry ⟨surf.val, track.val, slot.val, kind.val, tsurf.val, ttrack.val, tslot.val⟩ d.defectMap).length →
    exec (.defectMapInsert surf track slot kind tsurf ttrack tslot) s = .next (s.after (
      let m := mkPsa surf.val track.val slot.val 0
      let d1 := d.wr .TPE_STAT_DEFFULL 0 1
      { d1 with hlt := { d1.hlt with unmoved := if d1.hlt.unmoved.contains m then d1.hlt.unmoved else d1.hlt.unmoved ++ [m] } })))

/-- The SEQ field, illegal and stalled words, and the states of a sequencer. A SEQ field whose turn has come goes to the next
word, branches, waits, calls, returns, dispatches on the role, ends or abandons; an illegal word is abandoned and raises FSQILL,
a stalled one sets QSTALL; breakpoints, STEP, RESUME, STOP, CLRMCHK, the watchdog, a parity error and the end of DRAIN change
the state as R243 says. Where the spec leaves a point open the clause follows the model's choice, log 27, 35.
(07_format_sequencers R243, 07_format_sequencers R256, 07_format_sequencers R260, 07_format_sequencers R261,
07_format_sequencers R275) -/
def Obligations.SequencerFlow : Prop :=
  (∀ (s : State) (d : Dev) (q : Fin 32), s.dev.met = d →
    d.fieldReady q.val .seq [0] = true →
    exec (.seqCont q) s = .next (s.after ((d.acting q.val .seq).nextWord q.val ((d.rd .FSQ_PC_PC q.val + 1) % 4096)))) ∧
  (∀ (s : State) (d : Dev) (q : Fin 32), s.dev.met = d →
    d.fieldReady q.val .seq [1] = true →
    exec (.seqBr q) s = .next (s.after ((d.acting q.val .seq).nextWord q.val (if (d.seq q.val).cond.getD (d.wordCond q.val (d.mword q.val)) then mTgt (d.mword q.val) else (d.rd .FSQ_PC_PC q.val + 1) % 4096)))) ∧
  (∀ (s : State) (d : Dev) (q : Fin 32), s.dev.met = d →
    d.fieldReady q.val .seq [2] = true →
    (d.acting q.val .seq).wordCond q.val (d.mword q.val) = true →
    exec (.seqWait q) s = .next (s.after ((d.acting q.val .seq).nextWord q.val ((d.rd .FSQ_PC_PC q.val + 1) % 4096)))) ∧
  (∀ (s : State) (d : Dev) (q : Fin 32), s.dev.met = d →
    d.fieldReady q.val .seq [2] = true →
    (d.acting q.val .seq).wordCond q.val (d.mword q.val) = false →
    exec (.seqWait q) s = .next (s.after (
      let x := (d.acting q.val .seq).seq q.val
      (d.acting q.val .seq).setSeq q.val { x with acted := x.acted.filter (· != MField.seq.num) }))) ∧
  (∀ (s : State) (d : Dev) (q : Fin 32), s.dev.met = d →
    d.fieldReady q.val .seq [3] = true →
    (d.seq q.val).cond.getD (d.wordCond q.val (d.mword q.val)) = true →
    exec (.seqCall q) s = .next (s.after (
      let x := (d.acting q.val .seq).seq q.val
      ((d.acting q.val .seq).setSeq q.val { x with stack := ((d.rd .FSQ_PC_PC q.val + 1) % 4096) :: x.stack }).nextWord q.val (mTgt (d.mword q.val))))) ∧
  (∀ (s : State) (d : Dev) (q : Fin 32), s.dev.met = d →
    d.fieldReady q.val .seq [3] = true →
    (d.seq q.val).cond.getD (d.wordCond q.val (d.mword q.val)) = false →
    exec (.seqCall q) s = .next (s.after ((d.acting q.val .seq).nextWord q.val ((d.rd .FSQ_PC_PC q.val + 1) % 4096)))) ∧
  (∀ (s : State) (d : Dev) (q : Fin 32) (p : Nat) (rest : List Nat), s.dev.met = d →
    d.fieldReady q.val .seq [4] = true →
    (d.seq q.val).stack = p :: rest →
    (d.seq q.val).cond.getD (d.wordCond q.val (d.mword q.val)) = true →
    exec (.seqRet q) s = .next (s.after (
      let x := (d.acting q.val .seq).seq q.val
      ((d.acting q.val .seq).setSeq q.val { x with stack := rest }).nextWord q.val p))) ∧
  (∀ (s : State) (d : Dev) (q : Fin 32), s.dev.met = d →
    d.fieldReady q.val .seq [5] = true →
    exec (.seqDisp q) s = .next (s.after ((d.acting q.val .seq).nextWord q.val (mTgt (d.mword q.val) / 4 * 4 + d.rd .FSQ_ENTRY_ROLE q.val)))) ∧
  (∀ (s : State) (d : Dev) (q : Fin 32), s.dev.met = d →
    d.fieldReady q.val .seq [6] = true →
    exec (.seqEnd q) s = .next (s.after (
      let d1 := (d.acting q.val .seq).nextWord q.val (d.rd .FSQ_PC_PC q.val)
      (d1.setSeq q.val { d1.seq q.val with freeze := false }).wr .FSQ_STAT_STATE q.val 3))) ∧
  (∀ (s : State) (d : Dev) (q : Fin 32), s.dev.met = d →
    d.fieldReady q.val .seq [7] = true →
    exec (.seqAbandon q) s = .next (s.after ((d.acting q.val .seq).abandon q.val 0))) ∧
  (∀ (s : State) (d : Dev) (q : Fin 32), s.dev.met = d →
    d.issuing q.val = true →
    MField.seq.code (d.mword q.val) = 0 →
    d.breakDue q.val (d.mword q.val) = false →
    (d.seq q.val).turn (d.mword q.val) .seq = true →
    (d.seq q.val).acted = [] →
    d.illegal q.val (d.mword q.val) = true →
    exec (.seqCont q) s = .next (s.after ((d.raise 9 q.val (d.word .FSQ_PC q.val)).abandon q.val 4))) ∧
  (∀ (s : State) (d : Dev) (q : Fin 32), s.dev.met = d →
    d.issuing q.val = true →
    MField.wg.code (d.mword q.val) = 2 →
    d.breakDue q.val (d.mword q.val) = false →
    (d.seq q.val).turn (d.mword q.val) .wg = true →
    (d.seq q.val).acted = [] →
    d.illegal q.val (d.mword q.val) = false →
    d.stalls q.val (d.mword q.val) = true →
    exec (.wgClose q) s = .next (s.after (d.wr .FSQ_STAT_QSTALL q.val 1))) ∧
  (∀ (s : State) (d : Dev) (q : Fin 32), s.dev.met = d →
    d.breakDue q.val (d.mword q.val) = true →
    exec (.fsqBreakpoint q) s = .next (s.after ((d.setSeq q.val { d.seq q.val with brk := true }).wr .FSQ_STAT_STATE q.val 6))) ∧
  (∀ (s : State) (d : Dev) (q : Fin 32), s.dev.met = d →
    d.issuing q.val = true →
    exec (.microwordParityError q) s = .next (s.after (
      let d1 := (d.wr .FSQ_PC_MCADDR q.val (d.rd .FSQ_PC_PC q.val)).wr .FSQ_CSSTAT_BADADDR (actOfSlot q.val) (d.rd .FSQ_PC_PC q.val)
      (d1.raise 8 q.val (d1.word .FSQ_PC q.val)).abandon q.val 5))) ∧
  (∀ (s : State) (d : Dev) (q : Fin 32), s.dev.met = d →
    max 1 (d.rd .FSQ_CFG_JOBREV q.val) ≤ (d.seq q.val).revs →
    exec (.jobWatchdog q) s = .next (s.after (d.abandon q.val 2))) ∧
  (∀ (s : State) (d : Dev) (q : Fin 32) (j : Job), s.dev.met = d →
    d.drained q.val = true →
    (d.seq q.val).job = some j →
    exec (.drainEnd q) s = .next (s.after (if j.kind = 2 then (d.jobEnd q.val 1).headCalEnd j.head else d.jobEnd q.val 1))) ∧
  (∀ (s : State) (d : Dev) (q : Fin 32), s.dev.met = d →
    d.drained q.val = false →
    exec (.drainEnd q) s = .next (s.after (d))) ∧
  (∀ (s : State) (d : Dev) (q : Fin 32) (on : Bool), s.dev.met = d →
    exec (.fsqEnable q on) s = .next (s.after (d.wr .FSQ_CTL_ENABLE q.val (bnat on)))) ∧
  (∀ (s : State) (d : Dev) (q : Fin 32), s.dev.met = d →
    exec (.fsqStop q) s = .next (s.after (d.abandon q.val 1))) ∧
  (∀ (s : State) (d : Dev) (q : Fin 32), s.dev.met = d →
    d.rd .FSQ_STAT_STATE q.val = 5 →
    exec (.fsqClrmchk q) s = .next (s.after (d.wr .FSQ_STAT_STATE q.val 1))) ∧
  (∀ (s : State) (d : Dev) (q : Fin 32), s.dev.met = d →
    d.rd .FSQ_STAT_STATE q.val = 6 →
    exec (.fsqStep q) s = .next (s.after (d.setSeq q.val { d.seq q.val with step := true }))) ∧
  (∀ (s : State) (d : Dev) (q : Fin 32), s.dev.met = d →
    d.rd .FSQ_STAT_STATE q.val = 6 →
    exec (.fsqResume q) s = .next (s.after (d.wr .FSQ_STAT_STATE q.val 2))) ∧
  (∀ (s : State) (d : Dev) (a : Fin 4) (on : Bool), s.dev.met = d →
    (on = false ∨ d.rd .FSQ_CSSTAT_OPENED a.val = 0) →
    exec (.fsqStoreOpen a on) s = .next (s.after (
      let d1 := d.wr .FSQ_CSCTL_OPEN a.val (bnat on)
      if on then d1.wr .FSQ_CSSTAT_DRAINING a.val 1 else (d1.wr .FSQ_CSSTAT_OPENED a.val 0).wr .FSQ_CSSTAT_DRAINING a.val 0))) ∧
  (∀ (s : State) (d : Dev) (a : Fin 4), s.dev.met = d →
    d.rd .FSQ_CSSTAT_DRAINING a.val ≠ 0 →
    (∀ k < 8, d.rd .FSQ_STAT_STATE (8 * a.val + k) = 0 ∨ d.rd .FSQ_STAT_STATE (8 * a.val + k) = 1 ∨ d.rd .FSQ_STAT_STATE (8 * a.val + k) = 5) →
    exec (.fsqStoreOpened a) s = .next (s.after ((d.wr .FSQ_CSSTAT_OPENED a.val 1).wr .FSQ_CSSTAT_DRAINING a.val 0))) ∧
  (∀ (s : State) (d : Dev) (k : Fin 8) (a : Fin 4) (off size : Nat) (v : BitVec 64), s.dev.met = d →
    storeAccess off size = true →
    d.rd .FSQ_CSSTAT_OPENED a.val ≠ 0 →
    exec (.fsqStoreWrite (.mc k) a off size v) s = .next (s.after (d.storeBytes (storeAddr a.val 0) (off % 0x20000) v.toNat 22 size))) ∧
  (∀ (s : State) (d : Dev) (k : Fin 8) (a : Fin 4) (off size : Nat) (v : BitVec 64), s.dev.met = d →
    storeAccess off size = true →
    d.rd .FSQ_CSSTAT_OPENED a.val = 0 →
    exec (.fsqStoreWrite (.mc k) a off size v) s = .next (s.after (d.wr .FSQ_CSSTAT_WDROP a.val 1))) ∧
  (∀ (s : State) (d : Dev) (k : Fin 8) (a : Fin 4) (off size : Nat) (bad : Bool), s.dev.met = d →
    storeAccess off size = true →
    exec (.fsqStoreRead (.mc k) a off size bad) s = .next (s.after (
      let d1 := if bad then d.wr .FSQ_CSSTAT_RPERR a.val 1 else d
      d1.emit (.data (2 + k.val) (d1.ldN (storeAddr a.val 0 + off % 0x20000) size))))) ∧
  (∀ (s : State) (d : Dev) (a : Fin 4) (off size : Nat) (bad : Bool), s.dev.met = d →
    exec (.fsqStoreRead (.svc) a off size bad) s = .next (s.after (d.emit (.busError 1))))

/-- Gates, servo gating, routes, sync searches, freeze and heaters. A gate action enters its queue or is ignored with its sticky
bit, a write gate that does not match the next prepared slot is an FMTERR, the head of a queue acts on its edge while the angle
base is valid, and SVG, RTE, SYN, LFZ and HTR do what R258 gives them. Where the spec leaves a point open the clause follows the
model's choice, log 27. (07_format_sequencers R249, 07_format_sequencers R254, 07_format_sequencers R258, 07_format_sequencers
R262, 07_format_sequencers R263, 07_format_sequencers R264, 07_format_sequencers R265, 07_format_sequencers R267,
07_format_sequencers R268, 09_servo_and_actuators R337) -/
def Obligations.SequencerGates : Prop :=
  (∀ (s : State) (d : Dev) (q : Fin 32) (j : Job), s.dev.met = d →
    d.fieldReady q.val .rg [1, 4, 6] = true →
    (d.seq q.val).job = some j →
    rgIgnored j.kind (MField.rg.code (d.mword q.val)) = false →
    exec (.rgOpen q) s = .next (s.after (
      let x := (d.acting q.val .rg).seq q.val
      (d.acting q.val .rg).setSeq q.val { x with rgq := x.rgq ++ [mkAct true (x.gateTarget (MField.rg.code (d.mword q.val))) none] }))) ∧
  (∀ (s : State) (d : Dev) (q : Fin 32) (j : Job), s.dev.met = d →
    d.fieldReady q.val .rg [1, 4, 6] = true →
    (d.seq q.val).job = some j →
    rgIgnored j.kind (MField.rg.code (d.mword q.val)) = true →
    exec (.rgOpen q) s = .next (s.after ((d.acting q.val .rg).wr .FSQ_STAT_RGIGN q.val 1))) ∧
  (∀ (s : State) (d : Dev) (q : Fin 32) (j : Job), s.dev.met = d →
    d.fieldReady q.val .rg [2, 5, 7] = true →
    (d.seq q.val).job = some j →
    rgIgnored j.kind (MField.rg.code (d.mword q.val)) = false →
    exec (.rgClose q) s = .next (s.after (
      let x := (d.acting q.val .rg).seq q.val
      (d.acting q.val .rg).setSeq q.val { x with rgq := x.rgq ++ [mkAct false (x.gateTarget (MField.rg.code (d.mword q.val))) none] }))) ∧
  (∀ (s : State) (d : Dev) (q : Fin 32) (j : Job), s.dev.met = d →
    d.fieldReady q.val .rg [2, 5, 7] = true →
    (d.seq q.val).job = some j →
    rgIgnored j.kind (MField.rg.code (d.mword q.val)) = true →
    exec (.rgClose q) s = .next (s.after ((d.acting q.val .rg).wr .FSQ_STAT_RGIGN q.val 1))) ∧
  (∀ (s : State) (d : Dev) (q : Fin 32) (j : Job), s.dev.met = d →
    d.fieldReady q.val .vg [1, 4, 6] = true →
    (d.seq q.val).job = some j →
    vgIgnored j.kind (MField.vg.code (d.mword q.val)) = false →
    exec (.vgOpen q) s = .next (s.after (
      let x := (d.acting q.val .vg).seq q.val
      (d.acting q.val .vg).setSeq q.val { x with vgq := x.vgq ++ [mkAct true (x.gateTarget (MField.vg.code (d.mword q.val))) none] }))) ∧
  (∀ (s : State) (d : Dev) (q : Fin 32) (j : Job), s.dev.met = d →
    d.fieldReady q.val .vg [1, 4, 6] = true →
    (d.seq q.val).job = some j →
    vgIgnored j.kind (MField.vg.code (d.mword q.val)) = true →
    exec (.vgOpen q) s = .next (s.after ((d.acting q.val .vg).wr .FSQ_STAT_VGIGN q.val 1))) ∧
  (∀ (s : State) (d : Dev) (q : Fin 32) (j : Job), s.dev.met = d →
    d.fieldReady q.val .vg [2, 5, 7] = true →
    (d.seq q.val).job = some j →
    vgIgnored j.kind (MField.vg.code (d.mword q.val)) = false →
    exec (.vgClose q) s = .next (s.after (
      let x := (d.acting q.val .vg).seq q.val
      (d.acting q.val .vg).setSeq q.val { x with vgq := x.vgq ++ [mkAct false (x.gateTarget (MField.vg.code (d.mword q.val))) none] }))) ∧
  (∀ (s : State) (d : Dev) (q : Fin 32) (j : Job), s.dev.met = d →
    d.fieldReady q.val .vg [2, 5, 7] = true →
    (d.seq q.val).job = some j →
    vgIgnored j.kind (MField.vg.code (d.mword q.val)) = true →
    exec (.vgClose q) s = .next (s.after ((d.acting q.val .vg).wr .FSQ_STAT_VGIGN q.val 1))) ∧
  (∀ (s : State) (d : Dev) (q : Fin 32) (j : Job) (n : Nat), s.dev.met = d →
    d.fieldReady q.val .wg [1, 4, 6] = true →
    (d.seq q.val).job = some j →
    (d.seq q.val).gateTarget (MField.wg.code (d.mword q.val)) = some (n * j.l) →
    (d.acting q.val .wg).unnamed q.val = some n →
    exec (.wgOpen q) s = .next (s.after (
      let x := (d.acting q.val .wg).seq q.val
      (d.acting q.val .wg).setSeq q.val { x with wgq := x.wgq ++ [mkAct true (some (n * j.l)) (some n)] }))) ∧
  (∀ (s : State) (d : Dev) (q : Fin 32) (j : Job), s.dev.met = d →
    d.fieldReady q.val .wg [1, 4, 6] = true →
    (d.seq q.val).job = some j →
    (d.acting q.val .wg).unnamed q.val = none →
    exec (.wgOpen q) s = .next (s.after ((d.acting q.val .wg).abandon q.val 3))) ∧
  (∀ (s : State) (d : Dev) (q : Fin 32), s.dev.met = d →
    d.fieldReady q.val .wg [2, 5, 7] = true →
    exec (.wgClose q) s = .next (s.after (
      let x := (d.acting q.val .wg).seq q.val
      (d.acting q.val .wg).setSeq q.val { x with wgq := x.wgq ++ [mkAct false (x.gateTarget (MField.wg.code (d.mword q.val))) none] }))) ∧
  (∀ (s : State) (d : Dev) (q : Fin 32) (g : GateName) (j : Job) (after : Nat), s.dev.met.advance after = d →
    d.seqBusy q.val = true →
    d.rd .ANG_STAT_STATE = 2 →
    (d.seq q.val).job = some j →
    exec (.gateActionAct q g after) s = .next (s.after (
      match g with
      | .rgLead => d.rgAct q.val j true
      | .rgTrail => d.rgAct q.val j false
      | .wg => d.wgAct q.val j
      | .vg => d.vgAct q.val j))) ∧
  (∀ (s : State) (d : Dev) (q : Fin 32) (j : Job) (a : GateAct) (rest : List GateAct) (u k : Nat) (after : Nat), s.dev.met.advance after = d →
    (d.seqBusy q.val = true ∧ d.rd .ANG_STAT_STATE = 2) →
    (d.seq q.val).job = some j →
    takeRg true ((d.seq q.val).routes == 2) (d.seq q.val).rgq = some (a, rest) →
    a.opens = true →
    d.actsAt q.val 0 a = some (u, k) →
    exec (.gateActionAct q .rgLead after) s = .next (s.after (
      let x := d.seq q.val
      (d.setSeq q.val { x with rgq := rest, rgLead := true, fromLead := u / max 1 j.l }).openGate (2 * j.pair) k))) ∧
  (∀ (s : State) (d : Dev) (q : Fin 32) (g : GateName) (after : Nat), s.dev.met.advance after = d →
    d.rd .ANG_STAT_STATE ≠ 2 →
    exec (.gateActionAct q g after) s = .next (s.after (d))) ∧
  (∀ (s : State) (d : Dev) (q : Fin 32), s.dev.met = d →
    d.fieldReady q.val .svg [1] = true →
    exec (.svgOn q) s = .next (s.after ((d.acting q.val .svg).setSeq q.val { (d.acting q.val .svg).seq q.val with svgOn := true }))) ∧
  (∀ (s : State) (d : Dev) (q : Fin 32) (j : Job), s.dev.met = d →
    d.fieldReady q.val .svg [2] = true →
    (d.seq q.val).job = some j →
    j.kind = 2 →
    exec (.svgOff q) s = .next (s.after ((d.acting q.val .svg).setSeq q.val { (d.acting q.val .svg).seq q.val with svgOn := false }))) ∧
  (∀ (s : State) (d : Dev) (q : Fin 32) (j : Job), s.dev.met = d →
    d.fieldReady q.val .svg [2] = true →
    (d.seq q.val).job = some j →
    j.kind ≠ 2 →
    exec (.svgOff q) s = .next (s.after ((d.acting q.val .svg).wr .FSQ_STAT_SVIGN q.val 1))) ∧
  (∀ (s : State) (d : Dev) (q : Fin 32) (j : Job), s.dev.met = d →
    d.fieldReady q.val .rte [1] = true →
    (d.seq q.val).job = some j →
    exec (.rteRoute q) s = .next (s.after (
      let d1 := (d.acting q.val .rte).setSeq q.val { (d.acting q.val .rte).seq q.val with routes := 1 }
      (d1.askRoute (2 * j.pair) (2 * j.head)).askRoute (2 * j.pair + 1) (2 * j.head + 1)))) ∧
  (∀ (s : State) (d : Dev) (q : Fin 32) (j : Job), s.dev.met = d →
    d.fieldReady q.val .rte [2] = true →
    (d.seq q.val).job = some j →
    exec (.rteRoutelead q) s = .next (s.after (((d.acting q.val .rte).setSeq q.val { (d.acting q.val .rte).seq q.val with routes := 2 }).askRoute (2 * j.pair) (2 * j.head)))) ∧
  (∀ (s : State) (d : Dev) (q : Fin 32) (j : Job), s.dev.met = d →
    d.fieldReady q.val .rte [3] = true →
    (d.seq q.val).job = some j →
    exec (.rteRelease q) s = .next (s.after (((d.acting q.val .rte).unroute (2 * j.pair)).unroute (2 * j.pair + 1)))) ∧
  (∀ (s : State) (d : Dev) (q : Fin 32) (j : Job), s.dev.met = d →
    d.fieldReady q.val .syn [1] = true →
    (d.seq q.val).job = some j →
    exec (.synArm q) s = .next (s.after (
      let x := (d.acting q.val .syn).seq q.val
      let y (l : Nat) : Search := { slot := d.rd .FSQ_ENTRY_SLOT q.val, arm := (d.acting q.val .syn).laneEdge l, since := 0 }
      (d.acting q.val .syn).setSeq q.val { x with
        srchLead := if j.kind = 1 then x.srchLead else x.srchLead ++ [y (2 * j.pair)], srchTrail := x.srchTrail ++ [y (2 * j.pair + 1)] }))) ∧
  (∀ (s : State) (d : Dev) (q : Fin 32) (j : Job), s.dev.met = d →
    d.fieldReady q.val .syn [4] = true →
    (d.seq q.val).job = some j →
    j.kind ≠ 1 →
    exec (.synArmlead q) s = .next (s.after (
      let x := (d.acting q.val .syn).seq q.val
      let y : Search := { slot := d.rd .FSQ_ENTRY_SLOT q.val, arm := (d.acting q.val .syn).laneEdge (2 * j.pair), since := 0 }
      (d.acting q.val .syn).setSeq q.val { x with srchLead := x.srchLead ++ [y] }))) ∧
  (∀ (s : State) (d : Dev) (q : Fin 32) (j : Job), s.dev.met = d →
    d.fieldReady q.val .syn [2] = true →
    (d.seq q.val).job = some j →
    exec (.synRestart q) s = .next (s.after (
      let d1 := ((d.acting q.val .syn).eqRestart (2 * j.pair)).eqRestart (2 * j.pair + 1)
      (d1.restartSearch q.val j true).restartSearch q.val j false))) ∧
  (∀ (s : State) (d : Dev) (q : Fin 32), s.dev.met = d →
    d.fieldReady q.val .syn [3] = true →
    exec (.synCancel q) s = .next (s.after ((d.acting q.val .syn).setSeq q.val { (d.acting q.val .syn).seq q.val with srchLead := [], srchTrail := [] }))) ∧
  (∀ (s : State) (d : Dev) (q : Fin 32) (j : Job), s.dev.met = d →
    d.fieldReady q.val .lfz [1] = true →
    (d.seq q.val).job = some j →
    exec (.lfzFreeze q) s = .next (s.after (
      let d1 := ((d.acting q.val .lfz).loopsRun (2 * j.pair) none).loopsRun (2 * j.pair + 1) none
      d1.setSeq q.val { d1.seq q.val with freeze := true }))) ∧
  (∀ (s : State) (d : Dev) (q : Fin 32) (j : Job), s.dev.met = d →
    d.fieldReady q.val .lfz [2] = true →
    (d.seq q.val).job = some j →
    exec (.lfzRelease q) s = .next (s.after (
      let d1 := ((d.acting q.val .lfz).loopsRun (2 * j.pair) none).loopsRun (2 * j.pair + 1) none
      d1.setSeq q.val { d1.seq q.val with freeze := false }))) ∧
  (∀ (s : State) (d : Dev) (q : Fin 32) (j : Job), s.dev.met = d →
    d.fieldReady q.val .htr [1] = true →
    (d.seq q.val).job = some j →
    exec (.htrWriteHeat q) s = .next (s.after (
      let d1 := d.acting q.val .htr
      (d1.setSeq q.val { d1.seq q.val with heat := 1 }).armHeater (j.head / 32) (j.head % 32) (d1.heaterCode j true)))) ∧
  (∀ (s : State) (d : Dev) (q : Fin 32) (j : Job), s.dev.met = d →
    d.fieldReady q.val .htr [2] = true →
    (d.seq q.val).job = some j →
    exec (.htrReadHeat q) s = .next (s.after (
      let d1 := d.acting q.val .htr
      (d1.setSeq q.val { d1.seq q.val with heat := 2 }).armHeater (j.head / 32) (j.head % 32) (d1.heaterCode j false))))

/-- The entry list, prepared sectors, POST and STAMP, compares, counters and the write path's own events. JOP fetches, commits
and returns entries, WDS prepares and cancels sectors, POST tells the owner, the core or the recorder, STAMP stores ANG, compare
units load, disarm and meet, counters load and count, a prepared sector becomes ready, and the fence and the guard idle and
release the writers. Where the spec leaves a point open the clause follows the model's choice, log 13, 27, 45, 85, 89.
(07_format_sequencers R248, 07_format_sequencers R249, 07_format_sequencers R258, 07_format_sequencers R259,
07_format_sequencers R279, 08_write_and_verify R284, 08_write_and_verify R286, 08_write_and_verify R289, 08_write_and_verify
R290, 08_write_and_verify R296) -/
def Obligations.SequencerEntries : Prop :=
  (∀ (s : State) (d : Dev) (q : Fin 32) (j : Job) (e : Entry), s.dev.met = d →
    d.fieldReady q.val .jop [1] = true →
    (d.seq q.val).job = some j →
    j.entries[(d.seq q.val).next]? = some e →
    exec (.jopFetch q) s = .next (s.after (
      let d1 := (d.acting q.val .jop).setSeq q.val { (d.acting q.val .jop).seq q.val with next := (d.seq q.val).next + 1 }
      (((d1.wr .FSQ_ENTRY_VALID q.val 1).wr .FSQ_ENTRY_INDEX q.val (d.seq q.val).next).wr .FSQ_ENTRY_ROLE q.val e.role).wr .FSQ_ENTRY_SLOT q.val e.slot))) ∧
  (∀ (s : State) (d : Dev) (q : Fin 32) (j : Job), s.dev.met = d →
    d.fieldReady q.val .jop [1] = true →
    (d.seq q.val).job = some j →
    j.entries[(d.seq q.val).next]? = none →
    exec (.jopFetch q) s = .next (s.after ((d.acting q.val .jop).wr .FSQ_ENTRY_LISTEND q.val 1))) ∧
  (∀ (s : State) (d : Dev) (q : Fin 32), s.dev.met = d →
    d.fieldReady q.val .jop [2] = true →
    d.rd .FSQ_ENTRY_VALID q.val ≠ 0 →
    (d.seq q.val).done.contains (d.rd .FSQ_ENTRY_INDEX q.val) = false →
    exec (.jopDone q) s = .next (s.after (
      let x := (d.acting q.val .jop).seq q.val
      let i := d.rd .FSQ_ENTRY_INDEX q.val
      (d.acting q.val .jop).setSeq q.val { x with done := x.done ++ [i], committed := if x.met.contains i then x.committed ++ [i] else x.committed }))) ∧
  (∀ (s : State) (d : Dev) (q : Fin 32) (j : Job), s.dev.met = d →
    d.fieldReady q.val .jop [3] = true →
    (d.seq q.val).job = some j →
    d.rd .FSQ_ENTRY_VALID q.val ≠ 0 →
    (d.seq q.val).returned.contains (d.rd .FSQ_ENTRY_INDEX q.val) = false →
    exec (.jopReturn q) s = .next (s.after (
      let x := (d.acting q.val .jop).seq q.val
      let i := d.rd .FSQ_ENTRY_INDEX q.val
      let d1 := (d.acting q.val .jop).setSeq q.val { x with returned := x.returned ++ [i] }
      ({ d1 with sch := { d1.sch with returned := Tab.put d1.sch.returned q.val [i] } }).ceTrigger j.owner 4 0 j.desc 0 1 x.committed.length))) ∧
  (∀ (s : State) (d : Dev) (q : Fin 32) (attempt : Nat) (stored : Option StoredParity) (j : Job) (e : Entry), s.dev.met = d →
    d.fieldReady q.val .wds [1] = true →
    (d.seq q.val).job = some j →
    j.kind = 1 →
    j.entries[d.rd .FSQ_ENTRY_INDEX q.val]? = some e →
    d.rd .FSQ_ENTRY_VALID q.val ≠ 0 →
    exec (.wdsPrep q attempt stored) s = .next (s.after ((d.acting q.val .wds).prepEntry q.val j e (d.rd .FSQ_ENTRY_INDEX q.val) attempt stored))) ∧
  (∀ (s : State) (d : Dev) (q : Fin 32) (attempt : Nat) (stored : Option StoredParity) (j : Job), s.dev.met = d →
    d.fieldReady q.val .wds [1] = true →
    (d.seq q.val).job = some j →
    j.kind ≠ 1 →
    exec (.wdsPrep q attempt stored) s = .next (s.after ((d.acting q.val .wds).abandon q.val 3))) ∧
  (∀ (s : State) (d : Dev) (q : Fin 32), s.dev.met = d →
    d.fieldReady q.val .wds [2] = true →
    exec (.wdsCancel q) s = .next (s.after ((d.acting q.val .wds).setWslot q.val { d.wslot q.val with prep := dropUnstarted (d.wslot q.val).prep }))) ∧
  (∀ (s : State) (d : Dev) (q : Fin 32) (j : Job), s.dev.met = d →
    d.fieldReady q.val .post [1] = true →
    (d.seq q.val).job = some j →
    exec (.fsqPostStatus q) s = .next (s.after ((d.acting q.val .post).ceTrigger j.owner 7 q.val (d.postWord q.val) 0 0 0))) ∧
  (∀ (s : State) (d : Dev) (q : Fin 32), s.dev.met = d →
    d.fieldReady q.val .post [2] = true →
    exec (.fsqPostIrq q) s = .next (s.after (((d.acting q.val .post).wr .FSQ_STAT_IRQ q.val 1).emit (.irq .FSQ q.val)))) ∧
  (∀ (s : State) (d : Dev) (q : Fin 32), s.dev.met = d →
    d.fieldReady q.val .post [3] = true →
    exec (.fsqPostEvent q) s = .next (s.after ((d.acting q.val .post).event 0x230 q.val (d.postWord q.val) 0 0))) ∧
  (∀ (s : State) (d : Dev) (q : Fin 32) (j : Job), s.dev.met = d →
    d.fieldReady q.val .post [4] = true →
    (d.seq q.val).job = some j →
    exec (.fsqPostStatusIrq q) s = .next (s.after ((((d.acting q.val .post).ceTrigger j.owner 7 q.val (d.postWord q.val) 0 0 0).wr .FSQ_STAT_IRQ q.val 1).emit (.irq .FSQ q.val)))) ∧
  (∀ (s : State) (d : Dev) (q : Fin 32), s.dev.met = d →
    d.fieldReady q.val .stamp [1] = true →
    exec (.stamp q) s = .next (s.after ((d.acting q.val .stamp).setSeq q.val { (d.acting q.val .stamp).seq q.val with stamp := d.ang.val, stampPos := ((d.acting q.val .stamp).counterAt q.val 0).1 }))) ∧
  (∀ (s : State) (d : Dev) (q : Fin 32), s.dev.met = d →
    d.fieldReady q.val .ac [1] = true →
    exec (.acopLds q) s = .next (s.after (
      let d1 := d.acting q.val .ac
      let b := bit (d.mword q.val) 123
      let frame := bits (d.mword q.val) 118 2
      let t := (d.rd .FSQ_JSTARTLO_ANG q.val + d.rd .FSQ_JSTARTHI_ANG q.val * 2 ^ 32 + mImmA (d.mword q.val)) % 2 ^ 48
      let x : AngCmp := { target := t, frame := frame, armed := true, late := d1.cmpMet frame (d1.jobHead q.val) t }
      (((d1.setSeq q.val (if b then { d1.seq q.val with acb := x } else { d1.seq q.val with aca := x })).wr (acFlds b).1 q.val 0).wr (acFlds b).2.1 q.val 0).wr (acFlds b).2.2 q.val 0))) ∧
  (∀ (s : State) (d : Dev) (q : Fin 32), s.dev.met = d →
    d.fieldReady q.val .ac [2] = true →
    exec (.acopLdr q) s = .next (s.after (
      let d1 := d.acting q.val .ac
      let b := bit (d.mword q.val) 123
      let frame := bits (d.mword q.val) 118 2
      let t := ((if bit (d.mword q.val) 123 then (d.seq q.val).acb else (d.seq q.val).aca).target + mImmA (d.mword q.val)) % 2 ^ 48
      let x : AngCmp := { target := t, frame := frame, armed := true, late := d1.cmpMet frame (d1.jobHead q.val) t }
      (((d1.setSeq q.val (if b then { d1.seq q.val with acb := x } else { d1.seq q.val with aca := x })).wr (acFlds b).1 q.val 0).wr (acFlds b).2.1 q.val 0).wr (acFlds b).2.2 q.val 0))) ∧
  (∀ (s : State) (d : Dev) (q : Fin 32), s.dev.met = d →
    d.fieldReady q.val .ac [3] = true →
    exec (.acopLdn q) s = .next (s.after (
      let d1 := d.acting q.val .ac
      let b := bit (d.mword q.val) 123
      let frame := bits (d.mword q.val) 118 2
      let t := (d.frameAngle (bits (d.mword q.val) 118 2) (d.jobHead q.val) + mImmA (d.mword q.val)) % 2 ^ 48
      let x : AngCmp := { target := t, frame := frame, armed := true, late := d1.cmpMet frame (d1.jobHead q.val) t }
      (((d1.setSeq q.val (if b then { d1.seq q.val with acb := x } else { d1.seq q.val with aca := x })).wr (acFlds b).1 q.val 0).wr (acFlds b).2.1 q.val 0).wr (acFlds b).2.2 q.val 0))) ∧
  (∀ (s : State) (d : Dev) (q : Fin 32), s.dev.met = d →
    d.fieldReady q.val .ac [4] = true →
    exec (.acopLdi q) s = .next (s.after (
      let d1 := d.acting q.val .ac
      let b := bit (d.mword q.val) 123
      let frame := bits (d.mword q.val) 118 2
      let t := (mImmA (d.mword q.val)) % 2 ^ 48
      let x : AngCmp := { target := t, frame := frame, armed := true, late := d1.cmpMet frame (d1.jobHead q.val) t }
      (((d1.setSeq q.val (if b then { d1.seq q.val with acb := x } else { d1.seq q.val with aca := x })).wr (acFlds b).1 q.val 0).wr (acFlds b).2.1 q.val 0).wr (acFlds b).2.2 q.val 0))) ∧
  (∀ (s : State) (d : Dev) (q : Fin 32), s.dev.met = d →
    d.fieldReady q.val .ac [5] = true →
    exec (.acopDisarm q) s = .next (s.after (
      let d1 := d.acting q.val .ac
      let x := d1.seq q.val
      d1.setSeq q.val (if bit (d.mword q.val) 123 then { x with acb := { x.acb with armed := false } } else { x with aca := { x.aca with armed := false } })))) ∧
  (∀ (s : State) (d : Dev) (q : Fin 32) (j : Job), s.dev.met = d →
    d.fieldReady q.val .pc [1] = true →
    (d.seq q.val).job = some j →
    exec (.pcopLds q) s = .next (s.after (
      let d1 := d.acting q.val .pc
      let b := bit (d.mword q.val) 69
      let t := ((((d.rd .FSQ_ENTRY_SLOT q.val * j.l : Nat) : Int) + mImmP (d.mword q.val)) % (max 1 j.u : Nat)).toNat
      let x : PosCmp := { target := t, ctr := bits (d.mword q.val) 64 2, armed := true }
      (d1.setSeq q.val (if b then { d1.seq q.val with pcb := x } else { d1.seq q.val with pca := x })).wr (if b then .FSQ_CMPSTAT_PCBF else .FSQ_CMPSTAT_PCAF) q.val 0))) ∧
  (∀ (s : State) (d : Dev) (q : Fin 32) (j : Job), s.dev.met = d →
    d.fieldReady q.val .pc [2] = true →
    (d.seq q.val).job = some j →
    exec (.pcopLde q) s = .next (s.after (
      let d1 := d.acting q.val .pc
      let b := bit (d.mword q.val) 69
      let t := (((((d.rd .FSQ_ENTRY_SLOT q.val + 1) * j.l : Nat) : Int) + mImmP (d.mword q.val)) % (max 1 j.u : Nat)).toNat
      let x : PosCmp := { target := t, ctr := bits (d.mword q.val) 64 2, armed := true }
      (d1.setSeq q.val (if b then { d1.seq q.val with pcb := x } else { d1.seq q.val with pca := x })).wr (if b then .FSQ_CMPSTAT_PCBF else .FSQ_CMPSTAT_PCAF) q.val 0))) ∧
  (∀ (s : State) (d : Dev) (q : Fin 32) (j : Job), s.dev.met = d →
    d.fieldReady q.val .pc [3] = true →
    (d.seq q.val).job = some j →
    exec (.pcopLda q) s = .next (s.after (
      let d1 := d.acting q.val .pc
      let b := bit (d.mword q.val) 69
      let t := (((0 : Int) + mImmP (d.mword q.val)) % (max 1 j.u : Nat)).toNat
      let x : PosCmp := { target := t, ctr := bits (d.mword q.val) 64 2, armed := true }
      (d1.setSeq q.val (if b then { d1.seq q.val with pcb := x } else { d1.seq q.val with pca := x })).wr (if b then .FSQ_CMPSTAT_PCBF else .FSQ_CMPSTAT_PCAF) q.val 0))) ∧
  (∀ (s : State) (d : Dev) (q : Fin 32) (j : Job), s.dev.met = d →
    d.fieldReady q.val .pc [4] = true →
    (d.seq q.val).job = some j →
    exec (.pcopAdd q) s = .next (s.after (
      let d1 := d.acting q.val .pc
      let b := bit (d.mword q.val) 69
      let t := ((((if bit (d.mword q.val) 69 then (d.seq q.val).pcb else (d.seq q.val).pca).target : Int) + mImmP (d.mword q.val)) % (max 1 j.u : Nat)).toNat
      let x : PosCmp := { target := t, ctr := bits (d.mword q.val) 64 2, armed := true }
      (d1.setSeq q.val (if b then { d1.seq q.val with pcb := x } else { d1.seq q.val with pca := x })).wr (if b then .FSQ_CMPSTAT_PCBF else .FSQ_CMPSTAT_PCAF) q.val 0))) ∧
  (∀ (s : State) (d : Dev) (q : Fin 32), s.dev.met = d →
    d.fieldReady q.val .pc [5] = true →
    exec (.pcopDisarm q) s = .next (s.after (
      let d1 := d.acting q.val .pc
      let x := d1.seq q.val
      d1.setSeq q.val (if bit (d.mword q.val) 69 then { x with pcb := { x.pcb with armed := false } } else { x with pca := { x.pca with armed := false } })))) ∧
  (∀ (s : State) (d : Dev) (q : Fin 32) (b : Bool) (after : Nat), s.dev.met.advance after = d →
    d.seqBusy q.val = true →
    (if b then (d.seq q.val).pcb else (d.seq q.val).pca).armed = true →
    d.meets q.val (if b then (d.seq q.val).pcb else (d.seq q.val).pca).ctr (if b then (d.seq q.val).pcb else (d.seq q.val).pca).target = true →
    exec (.positionCompareMeet q b after) s = .next (s.after (d.wr (if b then .FSQ_CMPSTAT_PCBF else .FSQ_CMPSTAT_PCAF) q.val 1))) ∧
  (∀ (s : State) (d : Dev) (q : Fin 32), s.dev.met = d →
    d.fieldReady q.val .c0 [1] = true →
    exec (.counterLoad q false) s = .next (s.after ((d.acting q.val .c0).wr .FSQ_CNT_CNT0 q.val (mImmC (d.mword q.val))))) ∧
  (∀ (s : State) (d : Dev) (q : Fin 32), s.dev.met = d →
    d.fieldReady q.val .c1 [1] = true →
    exec (.counterLoad q true) s = .next (s.after ((d.acting q.val .c1).wr .FSQ_CNT_CNT1 q.val (mImmC (d.mword q.val))))) ∧
  (∀ (s : State) (d : Dev) (q : Fin 32), s.dev.met = d →
    d.fieldReady q.val .c0 [2] = true →
    exec (.counterDecrement q false) s = .next (s.after ((d.acting q.val .c0).wr .FSQ_CNT_CNT0 q.val (d.rd .FSQ_CNT_CNT0 q.val - 1)))) ∧
  (∀ (s : State) (d : Dev) (q : Fin 32), s.dev.met = d →
    d.fieldReady q.val .c1 [2] = true →
    exec (.counterDecrement q true) s = .next (s.after ((d.acting q.val .c1).wr .FSQ_CNT_CNT1 q.val (d.rd .FSQ_CNT_CNT1 q.val - 1)))) ∧
  (∀ (s : State) (d : Dev) (q : Fin 32), s.dev.met = d →
    d.fieldReady q.val .c0 [3] = true →
    exec (.counterIncrement q false) s = .next (s.after ((d.acting q.val .c0).wr .FSQ_CNT_CNT0 q.val (d.rd .FSQ_CNT_CNT0 q.val + 1)))) ∧
  (∀ (s : State) (d : Dev) (q : Fin 32), s.dev.met = d →
    d.fieldReady q.val .c1 [3] = true →
    exec (.counterIncrement q true) s = .next (s.after ((d.acting q.val .c1).wr .FSQ_CNT_CNT1 q.val (d.rd .FSQ_CNT_CNT1 q.val + 1)))) ∧
  (∀ (s : State) (d : Dev) (q : Fin 32), s.dev.met = d →
    exec (.prepReady q) s = .next (s.after (d.setWslot q.val { d.wslot q.val with prep := markReady (d.wslot q.val).prep }))) ∧
  (∀ (s : State) (d : Dev) (q : Fin 32) (n : Nat), s.dev.met = d →
    (d.wslot q.val).cur = some n →
    (d.wslot q.val).emits.any (fun e => e.slot == n && e.driven) = true →
    exec (.preparedParityError q) s = .next (s.after (
      let d1 := d.setWslot q.val { ((d.wslot q.val).onEmit n fun e => { e with written := false }) with idleSlot := true }
      let d2 := (d1.idleOutput q.val).wr .WRF_STAT_WRFPAR 0 1
      d2.raise 13 q.val (d2.word .WRF_SSTAT q.val)))) ∧
  (∀ (s : State) (d : Dev) (q : Fin 32) (j : Job) (n : Nat) (after : Nat), s.dev.met.advance after = d →
    (d.seq q.val).job = some j →
    d.fence q.val j = false →
    ((d.idleOutput q.val).seq q.val).job = some j →
    ((d.idleOutput q.val).wslot q.val).cur = some n →
    (d.idleOutput q.val).pastCode q.val j n = false →
    exec (.writerFence q after) s = .next (s.after (
      let d1 := d.idleOutput q.val
      d1.setWslot q.val { ((d1.wslot q.val).onEmit n fun e => { e with written := false }) with idleSlot := true }))) ∧
  (∀ (s : State) (d : Dev) (on : Bool), s.dev.met = d →
    exec (.wrfEnable on) s = .next (s.after ((d.wr .WRF_CTL_ENABLE 0 (bnat on)).checkFences))) ∧
  (∀ (s : State) (d : Dev) (on : Bool), s.dev.met = d →
    exec (.wrfWen on) s = .next (s.after ((d.wr .WRF_CTL_WEN 0 (bnat on)).checkFences))) ∧
  (∀ (s : State) (d : Dev) (a : Fin 4), s.dev.met = d →
    d.rd .WRF_GUARD_HOLD a.val < Tab.getD d.wrf.clean a.val 0 →
    exec (.guardRelease a) s = .next (s.after (d.wr .WRF_GSTAT_INHIBIT a.val 0)))

/-- Sample records, the voice-coil and microactuator outputs, and the losses of servo. A valid servo field gives a record with
the nearest track and a trigger, moves the follow state and may show contact; an invalid one counts a miss; the update point
sets the output within the limit; a retract holds it; microactuator words are clamped and sent; runaway and servo loss put the
heads LOST. Where the spec leaves a point open the clause follows the model's choice, log 3, 14, 28, 34, 90.
(08_write_and_verify R293, 09_servo_and_actuators R318, 09_servo_and_actuators R326, 09_servo_and_actuators R328,
09_servo_and_actuators R330, 09_servo_and_actuators R332, 09_servo_and_actuators R335, 09_servo_and_actuators R339) -/
def Obligations.ServoSamplesAndDrive : Prop :=
  (∀ (s : State) (d : Dev) (h : Fin 128) (x : ServoObs) (after : Nat), s.dev.met.advance after = d →
    d.fieldRead h.val = true →
    (d.demod h.val x).valid = true →
    exec (.servoSampleRecord h x after) s = .next (s.after (
      let a := actOfHead h.val
      let m := d.demod h.val x
      let d1 := d.guideSample h.val true
      let pes := pesRaw x.n.toInt x.q.toInt d1.fresh + m.rro
      let d2 := d1.used.sampleCounts h.val
      let t := resolveTrack m.track pes (d2.rd .SRV_HPRED_POS h.val)
      let e : Int := 256 * (t : Int) + pes - 256 * (d2.rd .SRV_HTGT_TRACK h.val : Int)
      let y := d2.head h.val
      let d3 := (d2.putRecord h.val m t pes x).setHead h.val { y with amps := (m.amp :: y.amps).take 16, last := some (m.wedge, t) }
      let d4 := ((if d3.delivered h.val then d3.sampleTrigger h.val else d3).wrfSample h.val t e).follow h.val t e
      let d5 := if d4.on .SRV_CONTACT_EN a && ampContact (d4.rd .SRV_CONTACT_AMPDEV a) m.amp y.amps then d4.contact h.val t else d4
      if d5.runsAway h.val m.wedge t y.last then d5.runaways a else d5))) ∧
  (∀ (s : State) (d : Dev) (h : Fin 128) (x : ServoObs) (after : Nat), s.dev.met.advance after = d →
    d.fieldRead h.val = true →
    (d.demod h.val x).valid = false →
    exec (.servoSampleRecord h x after) s = .next (s.after (
      let m := d.demod h.val x
      let d1 := d.guideSample h.val false
      let f := d1.fresh
      let d2 := (d1.used.putRecord h.val m (f % 2 ^ 20) (signed 16 (f / 2 ^ 20)) x).count .SRV_CNT_MISSED (actOfHead h.val)
      (if d2.delivered h.val then d2.sampleTrigger h.val else d2).followMiss h.val))) ∧
  (∀ (s : State) (d : Dev) (h : Fin 128) (q r : Nat) (after : Nat), s.dev.met.advance after = d →
    d.rd .ANG_STAT_STATE = 2 →
    d.ang.rate = some r →
    1875 * r ≤ (d.wedgeOf h.val).2 * 65536 →
    (d.head h.val).last.map Prod.fst ≠ some (d.wedgeOf h.val).1 →
    (d.head h.val).missed ≠ some (d.frameAngle 1 h.val / rev * d.wedges + (d.wedgeOf h.val).1) →
    d.slotOfHead h.val = some q →
    exec (.sampleMissTimeout h after) s = .next (s.after ((d.setHead h.val { d.head h.val with missed := some (d.frameAngle 1 h.val / rev * d.wedges + (d.wedgeOf h.val).1) }).offTrack h.val q))) ∧
  (∀ (s : State) (d : Dev) (a : Fin 4) (k : Runaway) (after : Nat), s.dev.met.advance after = d →
    d.runawayStands a.val k = true →
    exec (.actuatorRunaway a k after) s = .next (s.after (
      let d1 := (((d.noteRunaway a.val k).wr .SRV_STAT_RUNAWAY a.val 1).loseHeads a.val).retract a.val
      d1.raise 15 a.val (d1.word .SRV_STAT a.val)))) ∧
  (∀ (s : State) (d : Dev) (a : Fin 4) (k : Runaway) (after : Nat), s.dev.met.advance after = d →
    d.runawayStands a.val k = false →
    exec (.actuatorRunaway a k after) s = .next (s.after (d))) ∧
  (∀ (s : State) (d : Dev) (a : Fin 4) (after : Nat), s.dev.met.advance after = d →
    (d.rd .SRV_STAT_MODE a.val = 1 ∨ d.rd .SRV_STAT_MODE a.val = 2 ∨ d.rd .SRV_STAT_MODE a.val = 3) →
    (d.act a.val).validAt + 1875 < d.now →
    d.ticksPass (2 * rev) ((d.now - (d.act a.val).validAt - 1875) * d.wedges) = true →
    (d.act a.val).lossFor ≠ some (d.act a.val).validAt →
    exec (.servoLoss a after) s = .next (s.after (
      let d1 := (d.setAct a.val { d.act a.val with lossFor := some (d.act a.val).validAt }).wr .SRV_STAT_SRVLOSS a.val 1
      (d1.raise 17 a.val (d1.word .SRV_STAT a.val)).loseHeads a.val))) ∧
  (∀ (s : State) (d : Dev) (a : Fin 4) (after : Nat), s.dev.met.advance after = d →
    d.updateDue a.val = true →
    (d.act a.val).retract = false →
    d.rd .SRV_RVFF_EN a.val = 0 →
    exec (.vcmUpdate a after) s = .next (s.after (
      let x := d.act a.val
      let want := signed 16 (d.rd .SRV_VCMCMD_CMD a.val)
      let out := holdWithin (d.rd .SRV_VCMLIM_LIM a.val) want
      let d1 := ((d.wr .SRV_VCMOUT_DAC a.val (unsigned 16 out)).wr .SRV_VCMOUT_CLAMP a.val (bnat (out != want))).watchVcm a.val
      let y := { d1.act a.val with updAt := d1.ang.val }
      if y.cmdNew then d1.setAct a.val { y with cmdNew := false, late := 0, hist := x.hist }
      else
        let d2 := ((d1.setAct a.val { y with late := if y.late + 1 = 3 then 0 else y.late + 1, hist := x.hist }).count .SRV_CNT_LATE a.val).wr .SRV_STAT_LATE a.val 1
        if y.late + 1 = 3 then d2.raise 16 a.val (d2.word .SRV_CNT a.val) else d2))) ∧
  (∀ (s : State) (d : Dev) (a : Fin 4) (after : Nat), s.dev.met.advance after = d →
    ((d.act a.val).retract = true ∨ d.updateDue a.val = false) →
    exec (.vcmUpdate a after) s = .next (s.after (d))) ∧
  (∀ (s : State) (d : Dev) (a : Fin 4) (w : Word), s.dev.met = d →
    (d.act a.val).retract = false →
    exec (.vcmCommandWrite a w) s = .next (s.after ((d.setAct a.val { d.act a.val with cmdNew := true }).wr .SRV_VCMCMD_CMD a.val w.toNat))) ∧
  (∀ (s : State) (d : Dev) (a : Fin 4) (w : Word), s.dev.met = d →
    (d.act a.val).retract = true →
    exec (.vcmCommandWrite a w) s = .next (s.after (d))) ∧
  (∀ (s : State) (d : Dev) (h : Fin 128) (w : Word), s.dev.met = d →
    (d.act (actOfHead h.val)).guide ≠ some h.val →
    exec (.maWrite h w) s = .next (s.after (
      let v := signed 12 w.toNat
      let k := holdWithin (d.rd .SRV_MACFG_MALIM (actOfHead h.val)) v
      let d1 := (d.setHead h.val { d.head h.val with clamped := k != v }).wr .SRV_MA_CODE h.val (unsigned 12 k)
      if d1.maLate h.val then (d1.count .SRV_CNT_MALATE (actOfHead h.val)).maSendNow h.val else d1))) ∧
  (∀ (s : State) (d : Dev) (h : Fin 128) (after : Nat), s.dev.met.advance after = d →
    d.rd .ANG_STAT_STATE = 2 →
    (d.wedgeNow (d.frameOff 1 h.val + d.rd .SRV_TIMING_MDLY (actOfHead h.val))).isSome = true →
    (d.head h.val).sentMa ≠ some (d.rd .SRV_MA_CODE h.val) →
    (d.head h.val).clamped = false →
    exec (.maSend h after) s = .next (s.after (
      let k := d.rd .SRV_MA_CODE h.val
      (d.armSend (h.val / 32) 4 (h.val % 32) (h.val % 32 * 2 ^ 27 + k)).setHead h.val { d.head h.val with sentMa := some k, out := 0 }))) ∧
  (∀ (s : State) (d : Dev) (h : Fin 128) (after : Nat), s.dev.met.advance after = d →
    (d.head h.val).sentMa = some (d.rd .SRV_MA_CODE h.val) →
    exec (.maSend h after) s = .next (s.after (d)))

/-- The service states and the motion modes of actuators and heads. DONE ends loading, seeking, unloading and calibration, LOAD
and UNLOAD start them, timeouts and FORCEOUT take the actuator OUT or park it, and a head's FORCEOUT and READMIT set its state.
Where the spec leaves a point open the clause follows the model's choice, log 29, 91. (09_servo_and_actuators R320,
09_servo_and_actuators R321, 09_servo_and_actuators R322, 09_servo_and_actuators R323, 09_servo_and_actuators R324,
09_servo_and_actuators R328, 09_servo_and_actuators R331, 13_scheduler R496) -/
def Obligations.ActuatorsAndHeads : Prop :=
  (∀ (s : State) (d : Dev) (a : Fin 4) (after : Nat), s.dev.met.advance after = d →
    d.rd .SRV_STAT_MODE a.val = 3 →
    d.seekOver a.val = true →
    (d.act a.val).seekTo < 2 →
    exec (.seekTimeout a after) s = .next (s.after (((d.setAct a.val { d.act a.val with seekTo := (d.act a.val).seekTo + 1 }).setMode a.val 2 1).wr .SRV_STAT_SEEKTO a.val 1))) ∧
  (∀ (s : State) (d : Dev) (a : Fin 4) (after : Nat), s.dev.met.advance after = d →
    d.rd .SRV_STAT_MODE a.val = 3 →
    d.seekOver a.val = true →
    (d.act a.val).seekTo = 2 →
    exec (.seekTimeout a after) s = .next (s.after ((((d.setAct a.val { d.act a.val with seekTo := 3 }).setMode a.val 2 1).wr .SRV_STAT_SEEKTO a.val 1).actOut a.val))) ∧
  (∀ (s : State) (d : Dev) (a : Fin 4) (after : Nat), s.dev.met.advance after = d →
    d.loadOver a.val = true →
    d.rd .SRV_STAT_MODE a.val = 1 →
    d.rd .SRV_STAT_SVC a.val = 1 →
    exec (.loadTimeout a after) s = .next (s.after (d.actOut a.val))) ∧
  (∀ (s : State) (d : Dev) (a : Fin 4) (after : Nat), s.dev.met.advance after = d →
    d.loadOver a.val = true →
    d.rd .SRV_STAT_MODE a.val = 1 →
    d.rd .SRV_STAT_SVC a.val ≠ 1 →
    exec (.loadTimeout a after) s = .next (s.after (d.retract a.val))) ∧
  (∀ (s : State) (d : Dev) (a : Fin 4) (after : Nat), s.dev.met.advance after = d →
    d.loadOver a.val = true →
    d.rd .SRV_STAT_MODE a.val = 4 →
    exec (.loadTimeout a after) s = .next (s.after (d.setMode a.val 0 0))) ∧
  (∀ (s : State) (d : Dev) (a : Fin 4) (after : Nat), s.dev.met.advance after = d →
    (d.act a.val).retract = true →
    (d.act a.val).modeAt + d.rd .SRV_RETRACT_TIME a.val * 12500 ≤ d.now →
    exec (.retractEnd a after) s = .next (s.after (
      let d1 := d.setAct a.val { d.act a.val with retract := false, cmdNew := false }
      let d2 := if d1.cfg.kind == 2 && d1.cfg.quiet then d1.beginWait .flush else d1
      let d3 := if d2.spn.running then d2.wrBit .SPN_PFSTAT_RETRACTED 0 a.val true else d2
      (d3.wr .SRV_VCMOUT_DAC a.val 0).setMode a.val 0 0))) ∧
  (∀ (s : State) (d : Dev) (a : Fin 4) (after : Nat), s.dev.met.advance after = d →
    (d.act a.val).retract = false →
    exec (.retractEnd a after) s = .next (s.after (d))) ∧
  (∀ (s : State) (d : Dev) (a : Fin 4), s.dev.met = d →
    d.rd .SRV_STAT_MODE a.val = 1 →
    3 ≤ (d.act a.val).guideOk →
    exec (.servoDone a) s = .next (s.after (
      let d1 := (List.range 32).foldl (fun d s => d.setHead (32 * a.val + s) { d.head (32 * a.val + s) with calOk := 0 }) d
      d1.setMode a.val 2 0))) ∧
  (∀ (s : State) (d : Dev) (a : Fin 4), s.dev.met = d →
    d.rd .SRV_STAT_MODE a.val = 3 →
    exec (.servoDone a) s = .next (s.after ((d.setAct a.val { d.act a.val with seekTo := 0 }).setMode a.val 2 0))) ∧
  (∀ (s : State) (d : Dev) (a : Fin 4), s.dev.met = d →
    d.rd .SRV_STAT_MODE a.val = 4 →
    exec (.servoDone a) s = .next (s.after (d.setMode a.val 0 0))) ∧
  (∀ (s : State) (d : Dev) (a : Fin 4), s.dev.met = d →
    d.rd .SRV_STAT_MODE a.val = 2 →
    d.rd .SRV_STAT_SVC a.val = 1 →
    d.rd .SRV_CAL_PASS a.val ≠ 0 →
    d.headsPass a.val = true →
    exec (.servoDone a) s = .next (s.after ((d.wr .SRV_STAT_SVC a.val 2).beginWait (.joining (.actuator (Fin.ofNat 4 a.val)))))) ∧
  (∀ (s : State) (d : Dev) (a : Fin 4), s.dev.met = d →
    d.rd .SRV_STAT_MODE a.val = 2 →
    d.rd .SRV_STAT_SVC a.val = 1 →
    d.rd .SRV_CAL_PASS a.val = 0 →
    exec (.servoDone a) s = .next (s.after (d.actOut a.val))) ∧
  (∀ (s : State) (d : Dev) (a : Fin 4), s.dev.met = d →
    d.rd .SPN_STAT_INRANGE ≠ 0 →
    d.rd .ANG_STAT_STATE = 2 →
    d.parkedUnit a.val = true →
    a.val ∉ d.sch.loads →
    exec (.servoLoad a) s = .next (s.after (({ d with sch := { d.sch with loads := d.sch.loads ++ [a.val] } }).tryLoad a.val))) ∧
  (∀ (s : State) (d : Dev) (a : Fin 4), s.dev.met = d →
    d.rd .SPN_STAT_INRANGE = 0 →
    exec (.servoLoad a) s = .next (s.after (d))) ∧
  (∀ (s : State) (d : Dev) (a : Fin 4), s.dev.met = d →
    d.rd .SRV_STAT_MODE a.val = 2 →
    exec (.servoUnload a) s = .next (s.after ((d.setMode a.val 4 0).endGuide a.val false))) ∧
  (∀ (s : State) (d : Dev) (a : Fin 4), s.dev.met = d →
    d.rd .SRV_STAT_MODE a.val ≠ 2 →
    exec (.servoUnload a) s = .next (s.after (d))) ∧
  (∀ (s : State) (d : Dev) (a : Fin 4), s.dev.met = d →
    d.rd .SRV_STAT_SVC a.val ≠ 0 →
    d.rd .SRV_STAT_SVC a.val ≠ 4 →
    exec (.actuatorForceout a) s = .next (s.after (
      let d1 := (((d.wr .SRV_STAT_SVC a.val 4).loseHeads a.val).retract a.val).endGuide a.val false
      (d1.raise 14 a.val ((((d.wr .SRV_STAT_SVC a.val 4).loseHeads a.val).retract a.val).word .SRV_STAT a.val)).replace 3))) ∧
  (∀ (s : State) (d : Dev) (a : Fin 4), s.dev.met = d →
    d.rd .SRV_STAT_SVC a.val = 4 →
    exec (.actuatorForceout a) s = .next (s.after (d))) ∧
  (∀ (s : State) (d : Dev) (a : Fin 4), s.dev.met = d →
    d.rd .SRV_STAT_SVC a.val = 4 →
    exec (.actuatorReadmit a) s = .next (s.after ((d.wr .SRV_STAT_SVC a.val 1).askLoad a.val))) ∧
  (∀ (s : State) (d : Dev) (h : Fin 128), s.dev.met = d →
    d.rd .SRV_HSTAT_STATE h.val ≠ 0 →
    d.rd .SRV_HSTAT_STATE h.val ≠ 4 →
    exec (.headForceout h) s = .next (s.after (d.headGoesOut h.val))) ∧
  (∀ (s : State) (d : Dev) (h : Fin 128), s.dev.met = d →
    d.rd .SRV_HSTAT_STATE h.val = 4 →
    exec (.headReadmit h) s = .next (s.after (((d.wr .SRV_HSTAT_RDOUT h.val 0).wr .SRV_HSTAT_WROUT h.val 0).wr .SRV_HSTAT_STATE h.val 1))) ∧
  (∀ (s : State) (d : Dev) (h : Fin 128), s.dev.met = d →
    d.rd .SRV_HSTAT_STATE h.val ≠ 4 →
    exec (.headReadmit h) s = .next (s.after (d)))

/-- The frames of the arm links and the states of a link. The frame first in the downlink queue goes out under the next tag and
is kept for a resend; a good uplink frame has the effect of its type, a bad one is counted; training, RETRAIN, loss and timeout
change the link's state; an AFE access waits for its answer. Where the spec leaves a point open the clause follows the model's
choice, log 30. (09_servo_and_actuators R341, 09_servo_and_actuators R342, 09_servo_and_actuators R343, 09_servo_and_actuators
R346, 09_servo_and_actuators R347, 09_servo_and_actuators R348, 09_servo_and_actuators R349, 09_servo_and_actuators R350,
09_servo_and_actuators R337, 09_servo_and_actuators R340, 08_write_and_verify R297) -/
def Obligations.ArmLinks : Prop :=
  (∀ (s : State) (d : Dev) (a : Fin 4) (f : ArmFrame) (rest : List ArmFrame), s.dev.met = d →
    (d.link a.val).down = f :: rest →
    f.type = 8 →
    d.rd .ARM_STAT_LSTATE a.val = 2 →
    exec (.safeFrame a) s = .next (s.after (
      let l := d.link a.val
      let d1 := (d.emit (.armFrame a.val (armWord 8 l.tag f.payload))).setLink a.val
        { l with down := rest, resend := (l.resend.filter fun p => p.1 != l.tag) ++ [(l.tag, f)], tag := (l.tag + 1) % 16 }
      d1.heatersOff a.val))) ∧
  (∀ (s : State) (d : Dev) (a : Fin 4) (f : ArmFrame) (rest : List ArmFrame), s.dev.met = d →
    (d.link a.val).down = f :: rest →
    f.type = 7 →
    d.rd .ARM_STAT_LSTATE a.val = 2 →
    exec (.ackFrame a) s = .next (s.after (
      let l := d.link a.val
      let d1 := (d.emit (.armFrame a.val (armWord 7 l.tag f.payload))).setLink a.val
        { l with down := rest, resend := (l.resend.filter fun p => p.1 != l.tag) ++ [(l.tag, f)], tag := (l.tag + 1) % 16 }
      d1))) ∧
  (∀ (s : State) (d : Dev) (a : Fin 4) (f : ArmFrame) (rest : List ArmFrame), s.dev.met = d →
    (d.link a.val).down = f :: rest →
    f.type = 1 →
    d.rd .ARM_STAT_LSTATE a.val = 2 →
    exec (.selectFrame a) s = .next (s.after (
      let l := d.link a.val
      let d1 := (d.emit (.armFrame a.val (armWord 1 l.tag f.payload))).setLink a.val
        { l with down := rest, resend := (l.resend.filter fun p => p.1 != l.tag) ++ [(l.tag, f)], tag := (l.tag + 1) % 16 }
      d1))) ∧
  (∀ (s : State) (d : Dev) (a : Fin 4) (f : ArmFrame) (rest : List ArmFrame), s.dev.met = d →
    (d.link a.val).down = f :: rest →
    f.type = 4 →
    d.rd .ARM_STAT_LSTATE a.val = 2 →
    exec (.maFrame a) s = .next (s.after (
      let l := d.link a.val
      let d1 := (d.emit (.armFrame a.val (armWord 4 l.tag f.payload))).setLink a.val
        { l with down := rest, resend := (l.resend.filter fun p => p.1 != l.tag) ++ [(l.tag, f)], tag := (l.tag + 1) % 16 }
      d1))) ∧
  (∀ (s : State) (d : Dev) (a : Fin 4) (f : ArmFrame) (rest : List ArmFrame), s.dev.met = d →
    (d.link a.val).down = f :: rest →
    f.type = 3 →
    d.rd .ARM_STAT_LSTATE a.val = 2 →
    exec (.heaterFrame a) s = .next (s.after (
      let l := d.link a.val
      let d1 := (d.emit (.armFrame a.val (armWord 3 l.tag f.payload))).setLink a.val
        { l with down := rest, resend := (l.resend.filter fun p => p.1 != l.tag) ++ [(l.tag, f)], tag := (l.tag + 1) % 16 }
      d1))) ∧
  (∀ (s : State) (d : Dev) (a : Fin 4) (f : ArmFrame) (rest : List ArmFrame), s.dev.met = d →
    (d.link a.val).down = f :: rest →
    f.type = 2 →
    d.rd .ARM_STAT_LSTATE a.val = 2 →
    exec (.biasFrame a) s = .next (s.after (
      let l := d.link a.val
      let d1 := (d.emit (.armFrame a.val (armWord 2 l.tag f.payload))).setLink a.val
        { l with down := rest, resend := (l.resend.filter fun p => p.1 != l.tag) ++ [(l.tag, f)], tag := (l.tag + 1) % 16 }
      d1))) ∧
  (∀ (s : State) (d : Dev) (a : Fin 4) (f : ArmFrame) (rest : List ArmFrame), s.dev.met = d →
    (d.link a.val).down = f :: rest →
    f.type = 5 →
    d.rd .ARM_STAT_LSTATE a.val = 2 →
    (d.link a.val).access = some f →
    exec (.regwrFrame a) s = .next (s.after (
      let l := d.link a.val
      let d1 := (d.emit (.armFrame a.val (armWord 5 l.tag f.payload))).setLink a.val
        { l with down := rest, resend := (l.resend.filter fun p => p.1 != l.tag) ++ [(l.tag, f)], tag := (l.tag + 1) % 16 }
      ((d1.setLink a.val { d1.link a.val with access := none }).wr .ARM_REGCMD_GO a.val 0).wr .ARM_REGRSP_DONE a.val 1))) ∧
  (∀ (s : State) (d : Dev) (a : Fin 4) (f : ArmFrame) (rest : List ArmFrame), s.dev.met = d →
    (d.link a.val).down = f :: rest →
    f.type = 6 →
    d.rd .ARM_STAT_LSTATE a.val = 2 →
    exec (.regrdFrame a) s = .next (s.after (
      let l := d.link a.val
      let d1 := (d.emit (.armFrame a.val (armWord 6 l.tag f.payload))).setLink a.val
        { l with down := rest, resend := (l.resend.filter fun p => p.1 != l.tag) ++ [(l.tag, f)], tag := (l.tag + 1) % 16 }
      d1))) ∧
  (∀ (s : State) (d : Dev) (a : Fin 4) (v : BitVec 50), s.dev.met = d →
    d.rd .ARM_STAT_LSTATE a.val = 2 →
    bits v.toNat 48 2 = 2 →
    bits v.toNat 0 8 = armCrc v.toNat →
    bits v.toNat 44 4 = 1 →
    exec (.statFrame a v) s = .next (s.after (
      let d0 := d.setLink a.val { d.link a.val with bad := 0 }
      d0.channelReport a.val (bits v.toNat 8 32)))) ∧
  (∀ (s : State) (d : Dev) (a : Fin 4) (v : BitVec 50), s.dev.met = d →
    d.rd .ARM_STAT_LSTATE a.val = 2 →
    bits v.toNat 48 2 = 2 →
    bits v.toNat 0 8 = armCrc v.toNat →
    bits v.toNat 44 4 = 2 →
    exec (.faultFrame a v) s = .next (s.after (
      let d0 := d.setLink a.val { d.link a.val with bad := 0 }
      let p := bits v.toNat 8 32
      let q := 8 * a.val + bits p 29 3
      let d1 := (d0.armAck a.val (bits v.toNat 40 4)).channelReport a.val p
      let d2 := if bits p 19 4 = 0 then d1 else d1.wrBit .ARM_WSTAT_FAULT a.val (bits p 29 3) true
      if (d2.wslot q).feFault then d2.writeFault q else d2))) ∧
  (∀ (s : State) (d : Dev) (a : Fin 4) (v : BitVec 50) (x : Nat × ArmFrame), s.dev.met = d →
    d.rd .ARM_STAT_LSTATE a.val = 2 →
    bits v.toNat 48 2 = 2 →
    bits v.toNat 0 8 = armCrc v.toNat →
    bits v.toNat 44 4 = 3 →
    (d.link a.val).resend.find? (fun y => y.1 == bits v.toNat 8 32 % 16) = some x →
    exec (.nakFrame a v) s = .next (s.after (
      let d0 := d.setLink a.val { d.link a.val with bad := 0 }
      ((d0.count .ARM_ERR_NAK a.val).setLink a.val { d0.link a.val with down := resendInsert (d0.link a.val).down x.2 }).count .ARM_ERR_RESEND a.val))) ∧
  (∀ (s : State) (d : Dev) (a : Fin 4) (v : BitVec 50) (f : ArmFrame), s.dev.met = d →
    d.rd .ARM_STAT_LSTATE a.val = 2 →
    bits v.toNat 48 2 = 2 →
    bits v.toNat 0 8 = armCrc v.toNat →
    bits v.toNat 44 4 = 4 →
    (d.link a.val).access = some f →
    f.type = 6 →
    f.target = bits v.toNat 32 8 →
    exec (.regdataFrame a v) s = .next (s.after (
      let d0 := d.setLink a.val { d.link a.val with bad := 0 }
      (((d0.setLink a.val { d0.link a.val with access := none }).wr .ARM_REGCMD_GO a.val 0).wr .ARM_REGRSP_DATA a.val (bits v.toNat 8 16)).wr .ARM_REGRSP_DONE a.val 1))) ∧
  (∀ (s : State) (d : Dev) (a : Fin 4) (v : BitVec 50), s.dev.met = d →
    d.rd .ARM_STAT_LSTATE a.val = 2 →
    bits v.toNat 48 2 = 2 →
    bits v.toNat 0 8 = armCrc v.toNat →
    bits v.toNat 44 4 = 5 →
    d.rd .SRV_HSTAT_STATE (32 * a.val + bits (bits v.toNat 8 32) 27 5) ≠ 4 →
    exec (.contactFrame a v) s = .next (s.after (
      let d0 := d.setLink a.val { d.link a.val with bad := 0 }
      let p := bits v.toNat 8 32
      let h := 32 * a.val + bits p 27 5
      let d1 := ((d0.armAck a.val (bits v.toNat 40 4)).wr .ARM_CONTACT_VALID a.val 1).wr .ARM_CONTACT_SURF a.val (bits p 27 5)
      let d2 := d1.wr .ARM_CONTACT_METRIC a.val (bits p 0 10)
      d2.contact h (((d2.head h).last.map Prod.snd).getD (d2.rd .SRV_HTGT_TRACK h))))) ∧
  (∀ (s : State) (d : Dev) (a : Fin 4) (v : BitVec 50), s.dev.met = d →
    d.rd .ARM_STAT_LSTATE a.val = 2 →
    bits v.toNat 48 2 = 2 →
    bits v.toNat 0 8 = armCrc v.toNat →
    bits v.toNat 44 4 = 6 →
    exec (.mafaultFrame a v) s = .next (s.after (
      let d0 := d.setLink a.val { d.link a.val with bad := 0 }
      let h := 32 * a.val + bits (bits v.toNat 8 32) 27 5
      ((d0.armAck a.val (bits v.toNat 40 4)).wr .SRV_HSTAT_MAFAULT h 1).headOut h))) ∧
  (∀ (s : State) (d : Dev) (a : Fin 4) (v : Nat), s.dev.met = d →
    d.rd .ARM_STAT_LSTATE a.val = 2 →
    bits v 48 2 ≠ 2 →
    exec (.badUplinkFrame a v) s = .next (s.after ((d.setLink a.val { d.link a.val with bad := (d.link a.val).bad + 1 }).count .ARM_ERR_DELIM a.val))) ∧
  (∀ (s : State) (d : Dev) (a : Fin 4) (v : Nat), s.dev.met = d →
    d.rd .ARM_STAT_LSTATE a.val = 2 →
    bits v 48 2 = 2 →
    bits v 0 8 ≠ armCrc v →
    exec (.badUplinkFrame a v) s = .next (s.after ((d.setLink a.val { d.link a.val with bad := (d.link a.val).bad + 1 }).count .ARM_ERR_UPCRC a.val))) ∧
  (∀ (s : State) (d : Dev) (a : Fin 4) (on : Bool), s.dev.met = d →
    (on = false ∨ d.rd .ARM_STAT_LSTATE a.val ≠ 0) →
    exec (.armEnable a on) s = .next (s.after (d.wr .ARM_CTL_ENABLE a.val (bnat on)))) ∧
  (∀ (s : State) (d : Dev) (a : Fin 4), s.dev.met = d →
    d.rd .ARM_STAT_LSTATE a.val = 0 →
    exec (.armEnable a true) s = .next (s.after (((d.wr .ARM_CTL_ENABLE a.val 1).wr .ARM_STAT_LSTATE a.val 1).beginWait (.train a.val)))) ∧
  (∀ (s : State) (d : Dev) (a : Fin 4), s.dev.met = d →
    d.rd .ARM_STAT_LSTATE a.val = 3 →
    exec (.armRetrain a) s = .next (s.after ((d.wr .ARM_STAT_LSTATE a.val 1).beginWait (.train a.val)))) ∧
  (∀ (s : State) (d : Dev) (a : Fin 4), s.dev.met = d →
    d.rd .ARM_STAT_LSTATE a.val = 2 →
    exec (.armRetrain a) s = .next (s.after (d.linkLoss a.val true))) ∧
  (∀ (s : State) (d : Dev) (a : Fin 4), s.dev.met = d →
    exec (.armSafeRequest a) s = .next (s.after (d.armQueue a.val { type := 8, target := 0, payload := 0x5AFE, urgent := false }))) ∧
  (∀ (s : State) (d : Dev) (a : Fin 4), s.dev.met = d →
    d.rd .ARM_STAT_LSTATE a.val = 1 →
    (∀ k < 8, (d.seq (8 * a.val + k)).job = none) →
    (∀ k < 32, (d.head (32 * a.val + k)).htr = 0 ∧ (d.head (32 * a.val + k)).sentMa = none) →
    exec (.linkTrained a) s = .next (s.after ((d.wr .ARM_STAT_LSTATE a.val 2).armBias a.val (d.link a.val).bias))) ∧
  (∀ (s : State) (d : Dev) (a : Fin 4) (after : Nat), s.dev.met.advance after = d →
    d.rd .ARM_STAT_LSTATE a.val = 1 →
    d.waited (.train a.val) 25000 = true →
    exec (.trainTimeout a after) s = .next (s.after (
      let d1 := d.wr .ARM_STAT_LSTATE a.val 3
      (d1.raise 19 a.val (d1.word .ARM_STAT a.val)).actOut a.val))) ∧
  (∀ (s : State) (d : Dev) (a : Fin 4), s.dev.met = d →
    d.rd .ARM_STAT_LSTATE a.val = 2 →
    8 ≤ (d.link a.val).bad →
    (d.link a.val).lossAt = [] →
    exec (.armLinkLoss a) s = .next (s.after (
      let d1 := d.setLink a.val { d.link a.val with lossAt := [d.now], bad := 0 }
      let d2 := (if d.on .ARM_CTL_AUTORT a.val then (d1.wr .ARM_STAT_LSTATE a.val 1).beginWait (.train a.val) else d1.wr .ARM_STAT_LSTATE a.val 0).count .ARM_STAT_LOSSES a.val
      let drop (y : Dev) (j : Nat) : Dev := (y.setWslot (8 * a.val + j) { y.wslot (8 * a.val + j) with selHead := none }).checkFence (8 * a.val + j)
      let d3 := ((List.range 8).foldl drop (d2.wr .ARM_STAT_DOWN a.val 1)).loseHeads a.val
      d3.event 0x221 a.val (d3.word .ARM_STAT a.val) (d3.word .ARM_ERR a.val) 0))) ∧
  (∀ (s : State) (d : Dev) (a : Fin 4), s.dev.met = d →
    (d.link a.val).bad < 8 →
    exec (.armLinkLoss a) s = .next (s.after (d))) ∧
  (∀ (s : State) (d : Dev) (a : Fin 4) (w : Word), s.dev.met = d →
    (d.link a.val).access = none →
    bit w.toNat 31 = true →
    exec (.afeRegisterAccess a w) s = .next (s.after (
      let r := bits w.toNat 16 8
      let f : ArmFrame := if bit w.toNat 30 then { type := 5, target := r, payload := r * 2 ^ 24 + bits w.toNat 0 16, urgent := false } else { type := 6, target := r, payload := r * 2 ^ 24, urgent := false }
      let d1 := ((d.wr .ARM_REGCMD_WR a.val (bnat (bit w.toNat 30))).wr .ARM_REGCMD_ADDR a.val r).wr .ARM_REGCMD_DATA a.val (bits w.toNat 0 16)
      (((d1.setLink a.val { d.link a.val with access := some f }).beginWait (.afe a.val)).wr .ARM_REGCMD_GO a.val 1).armQueue a.val f))) ∧
  (∀ (s : State) (d : Dev) (a : Fin 4) (w : Word), s.dev.met = d →
    (d.link a.val).access.isSome = true →
    exec (.afeRegisterAccess a w) s = .next (s.after (d.wr .ARM_REGRSP_BUSY a.val 1))) ∧
  (∀ (s : State) (d : Dev) (a : Fin 4) (f : ArmFrame) (after : Nat), s.dev.met.advance after = d →
    (d.link a.val).access = some f →
    f.type = 6 →
    d.waited (.afe a.val) 2500 = true →
    exec (.afeAccessTimeout a after) s = .next (s.after (((d.setLink a.val { d.link a.val with access := none }).wr .ARM_REGCMD_GO a.val 0).wr .ARM_REGRSP_TIMEOUT a.val 1)))

/-- The spindle controller and the measurement channels. ENABLE, RUN, BRAKE, detection, handover, commutation, coasting and the
power stage move SPN's state as R359 says, the speed and its regulator update, limits cut the PWM period, and a measurement
channel delivers, clips, resets and synchronises its filter. Where the spec leaves a point open the clause follows the model's
choice, log 3, 31, 32, 33, 34, 94. (10_spindle R356, 10_spindle R359, 10_spindle R361, 10_spindle R363, 10_spindle R366,
10_spindle R369, 10_spindle R371, 10_spindle R372, 10_spindle R373, 10_spindle R381, 10_spindle R384, 10_spindle R385) -/
def Obligations.SpindleAndChannels : Prop :=
  (∀ (s : State) (d : Dev), s.dev.met = d →
    d.rd .SPN_STAT_STATE = 0 →
    exec (.spindleEnable true) s = .next (s.after (((d.wr .SPN_CTL_ENABLE 0 1).spnState 1).spnStart))) ∧
  (∀ (s : State) (d : Dev), s.dev.met = d →
    d.rd .SPN_STAT_STATE ≠ 7 →
    exec (.spindleEnable false) s = .next (s.after ((d.wr .SPN_CTL_ENABLE 0 0).spnState 0))) ∧
  (∀ (s : State) (d : Dev), s.dev.met = d →
    exec (.spindleRun true) s = .next (s.after (
      let d1 := d.wr .SPN_CTL_RUN 0 1
      ({ d1 with spn := { d1.spn with held := false } }).spnStart.spnBySpeed.showGates))) ∧
  (∀ (s : State) (d : Dev), s.dev.met = d →
    (d.rd .SPN_STAT_STATE = 2 ∨ d.rd .SPN_STAT_STATE = 3 ∨ d.rd .SPN_STAT_STATE = 4) →
    exec (.spindleRun false) s = .next (s.after ((d.wr .SPN_CTL_RUN 0 0).spnState 5))) ∧
  (∀ (s : State) (d : Dev), s.dev.met = d →
    d.rd .SPN_STAT_STATE ≠ 0 →
    d.rd .SPN_STAT_STATE ≠ 7 →
    exec .spindleBrake s = .next (s.after (d.spnState 6))) ∧
  (∀ (s : State) (d : Dev) (w : Nat), s.dev.met = d →
    180000 ≤ w →
    w ≤ 720000 →
    w ≠ d.rd .SPN_SPEED_TARGET →
    exec (.speedTargetWrite w) s = .next (s.after (((({ d with spn := { d.spn with inTol := 0 } }).wr .SPN_SPEED_TARGET 0 w).wr .SPN_STAT_ATSPEED 0 0).setInRange.setOvsRef))) ∧
  (∀ (s : State) (d : Dev) (w : Nat), s.dev.met = d →
    (w % 2 ^ 20 < 180000 ∨ 720000 < w % 2 ^ 20) →
    exec (.speedTargetWrite w) s = .next (s.after (d.wr .SPN_STAT_BADCFG 0 1))) ∧
  (∀ (s : State) (d : Dev) (w : Nat), s.dev.met = d →
    (d.rd .SPN_STAT_STATE = 0 ∨ d.rd .SPN_STAT_STATE = 1) →
    (bits w 24 5 ≤ 23 ∧ bits w 16 5 ≤ 23 ∧ bits w 8 5 ≤ 23) →
    (2 ≤ bits w 0 4 ∧ bits w 0 4 ≤ 8) →
    exec (.motorConfigWrite w) s = .next (s.after (d.putFields .SPN_MOTOR 0 w))) ∧
  (∀ (s : State) (d : Dev) (w : Nat), s.dev.met = d →
    (d.rd .SPN_STAT_STATE ≠ 0 ∧ d.rd .SPN_STAT_STATE ≠ 1) →
    exec (.motorConfigWrite w) s = .next (s.after (d.wr .SPN_STAT_BADCFG 0 1))) ∧
  (∀ (s : State) (d : Dev), s.dev.met = d →
    exec .powerStageFault s = .next (s.after (
      let d1 := (({ d with spn := { d.spn with drvLow := true, held := true } }).spnCoast.showGates.wr .SPN_CTL_RUN 0 0).wr .SPN_STAT_DRVFLT 0 1
      d1.raise 20 0 (d1.word .SPN_STAT)))) ∧
  (∀ (s : State) (d : Dev), s.dev.met = d →
    exec .powerStageFaultClear s = .next (s.after ({ d with spn := { d.spn with drvLow := false } }))) ∧
  (∀ (s : State) (d : Dev), s.dev.met = d →
    d.spn.cut = false →
    exec .pwmPeriod s = .next (s.after (
      let x := { d.spn with pwmFreq := max 20 (min 160 (d.rd .SPN_PWM_FREQ)), pwmDead := 10 * max 4 (d.rd .SPN_PWM_DEAD), pwmLim := min (d.rd .SPN_ILIM_RUN) (d.rd .SPN_GRANT_LIMIT), cut := false }
      ({ d with spn := x }).showGates))) ∧
  (∀ (s : State) (d : Dev), s.dev.met = d →
    d.spn.cut = true →
    exec .pwmPeriod s = .next (s.after (
      let x := { d.spn with pwmFreq := max 20 (min 160 (d.rd .SPN_PWM_FREQ)), pwmDead := 10 * max 4 (d.rd .SPN_PWM_DEAD), pwmLim := min (d.rd .SPN_ILIM_RUN) (d.rd .SPN_GRANT_LIMIT), cut := false, duty := d.spn.duty * Int.ofNat (Config.freeValue d.free % 65536) / 65536 }
      ({ d with free := d.free + 1, spn := x }).showGates))) ∧
  (∀ (s : State) (d : Dev) (after : Nat), s.dev.met.advance after = d →
    d.rd .SPN_STAT_STATE = 2 →
    d.spn.retry = true →
    d.spn.retryAt + 12500000 ≤ d.now →
    exec (.detectRetry after) s = .next (s.after ((({ d with spn := { d.spn with retry := false } }).spnState 2).emit (.detect (d.rd .SPN_HFI_FREQ) (d.rd .SPN_HFI_AMP) (d.rd .SPN_HFI_PTEST))))) ∧
  (∀ (s : State) (d : Dev) (p q : Nat), s.dev.met = d →
    d.rd .SPN_STAT_STATE = 2 →
    d.spn.retry = false →
    peaksClose p q = false →
    exec (.detectAttemptEnd p q) s = .next (s.after (d.spnState 3))) ∧
  (∀ (s : State) (d : Dev) (p q : Nat), s.dev.met = d →
    d.rd .SPN_STAT_STATE = 2 →
    d.spn.retry = false →
    peaksClose p q = true →
    d.spn.attempts = 2 →
    exec (.detectAttemptEnd p q) s = .next (s.after (
      let d1 := ((({ d with spn := { d.spn with attempts := 3, retry := false, retryAt := d.now } }).wr .SPN_CTL_RUN 0 0).spnState 1).wr .SPN_STAT_STARTFAIL 0 1
      d1.raise 21 0 (d1.word .SPN_STAT)))) ∧
  (∀ (s : State) (d : Dev), s.dev.met = d →
    d.rd .SPN_STAT_STATE = 3 →
    110000 ≤ d.rd .SPN_MEAS_SPEED →
    exec .injectHandover s = .next (s.after (d.toBemf))) ∧
  (∀ (s : State) (d : Dev) (k : Fin 3) (up : Bool) (after : Nat), s.dev.met.advance after = d →
    d.rd .SPN_STAT_STATE = 4 →
    d.spn.zc = false →
    (stepLegs d.spn.step).2.2 = k.val →
    d.rd .SPN_BEMF_BLANK * d.spn.interval ≤ 256 * (d.now - d.spn.commAt) →
    4 * (d.now - d.spn.commAt) ≤ 3 * d.spn.interval →
    exec (.zeroCrossing k up after) s = .next (s.after ({ d with spn := { d.spn with zc := true, misses := 0, zcAt := d.now } }))) ∧
  (∀ (s : State) (d : Dev) (k : Fin 3) (up : Bool) (after : Nat), s.dev.met.advance after = d →
    d.rd .SPN_STAT_STATE = 5 →
    exec (.zeroCrossing k up after) s = .next (s.after (
      let iv := if d.spn.seen = 0 then [] else ((d.now - d.spn.zcAt) :: d.spn.ivals).take 2
      ({ d with spn := { d.spn with seen := d.spn.seen + 1, zcAt := d.now, ivals := iv } }).spnBySpeed))) ∧
  (∀ (s : State) (d : Dev) (k : Fin 3) (up : Bool) (after : Nat), s.dev.met.advance after = d →
    d.rd .SPN_STAT_STATE = 7 →
    exec (.zeroCrossing k up after) s = .next (s.after (
      let leg (l : Nat) : Leg := if l = k.val then (if up then .high else .low) else d.spn.rect.getD l .off
      ({ d with spn := { d.spn with rect := (List.range 3).map leg } }).showGates))) ∧
  (∀ (s : State) (d : Dev) (after : Nat), s.dev.met.advance after = d →
    d.rd .SPN_STAT_STATE = 4 →
    d.spn.zc = true →
    d.commutesAt ≤ d.now →
    exec (.commutation after) s = .next (s.after (
      let n := d.commutesAt
      let x : Spn := { d.spn with step := (d.spn.step + 1) % 6, zc := false, commAt := n, ivals := ((n - d.spn.commAt) :: d.spn.ivals).take 2 }
      let d1 : Dev := { d with spn := x }
      if d1.speedSource = 2 then d1.showGates.measureSpeed 0 false else d1.showGates))) ∧
  (∀ (s : State) (d : Dev) (after : Nat), s.dev.met.advance after = d →
    d.rd .SPN_STAT_STATE = 4 →
    d.spn.zc = false →
    d.commutesAt ≤ d.now →
    max 1 (d.rd .SPN_BEMF_ZCMISS) ≤ d.spn.misses + 1 →
    exec (.commutation after) s = .next (s.after (
      let n := d.commutesAt
      let x : Spn := { d.spn with step := (d.spn.step + 1) % 6, zc := false, misses := d.spn.misses + 1, commAt := n, ivals := ((n - d.spn.commAt) :: d.spn.ivals).take 2 }
      (({ d with spn := x }).spnState 5).wr .SPN_STAT_ZCLOST 0 1))) ∧
  (∀ (s : State) (d : Dev) (after : Nat), s.dev.met.advance after = d →
    d.rd .SPN_STAT_STATE = 5 →
    d.spn.zcAt + 2500000000 ≤ d.now →
    exec (.coastTimeout after) s = .next (s.after ((d.spnState 1).spnStart))) ∧
  (∀ (s : State) (d : Dev) (v : Nat), s.dev.met = d →
    exec (.speedMeasurement v false) s = .next (s.after (
      let src := d.speedSource
      (((d.wr .SPN_STAT_SRC 0 src).wr .SPN_MEAS_SPEED 0 (min (d.speedBy src v) (2 ^ 20 - 1))).setOvsRef).overspeed.spnBySpeed.showGates))) ∧
  (∀ (s : State) (d : Dev) (v : Nat), s.dev.met = d →
    exec (.speedMeasurement v true) s = .next (s.after (
      let src := d.speedSource
      let d1 := ((d.wr .SPN_STAT_SRC 0 src).wr .SPN_MEAS_SPEED 0 (min (d.speedBy src v) (2 ^ 20 - 1))).setOvsRef
      let m := d1.revSpeed src v
      let ok := decide (1000 * (max m d1.effTarget - min m d1.effTarget) ≤ d1.effTarget) && src != 0
      let n := if ok then d1.spn.inTol + 1 else 0
      ((({ d1 with spn := { d1.spn with inTol := n } }).wr .SPN_STAT_ATSPEED 0 (bnat (decide (16 ≤ n)))).setInRange).overspeed.spnBySpeed.showGates))) ∧
  (∀ (s : State) (d : Dev) (ms : Nat), s.dev.met = d →
    d.rd .SPN_STAT_STATE = 4 →
    1000 * d.rd .SPN_MEAS_SPEED ≤ 1005 * d.effTarget →
    exec (.regulatorUpdate ms) s = .next (s.after (
      let d1 := ({ d with spn := { d.spn with slow := false } }).showGates
      let e : Int := (d.effTarget : Int) - d.rd .SPN_MEAS_SPEED
      let full : Int := 100 * 2 ^ 20
      let i := max (-full) (min full (d1.spn.integ + d1.rd .SPN_REG_KI * e * ms))
      { d1 with spn := { d1.spn with duty := max 0 (min full (64 * d1.rd .SPN_REG_KP * e + i)), integ := i } }))) ∧
  (∀ (s : State) (d : Dev) (ms : Nat), s.dev.met = d →
    d.rd .SPN_STAT_STATE = 4 →
    1005 * d.effTarget < 1000 * d.rd .SPN_MEAS_SPEED →
    exec (.regulatorUpdate ms) s = .next (s.after (
      let d1 := ({ d with spn := { d.spn with slow := true } }).showGates
      { d1 with spn := { d1.spn with duty := 0 } }))) ∧
  (∀ (s : State) (d : Dev) (ma : Nat), s.dev.met = d →
    (d.rd .SPN_STAT_STATE = 3 ∨ d.rd .SPN_STAT_STATE = 4) →
    d.spn.slow = false →
    d.spn.pwmLim < ma →
    exec (.phaseCurrentLimit ma) s = .next (s.after ((({ d with spn := { d.spn with cut := true } }).emit .pwmCut).showGates))) ∧
  (∀ (s : State) (d : Dev) (ma : Nat), s.dev.met = d →
    d.rd .SPN_STAT_STATE = 6 →
    d.rd .SPN_ILIM_BRK < ma →
    exec (.phaseCurrentLimit ma) s = .next (s.after ((({ d with spn := { d.spn with cut := true } }).emit .pwmCut).showGates))) ∧
  (∀ (s : State) (d : Dev) (mv : Nat) (after : Nat), s.dev.met.advance after = d →
    d.rd .SPN_STAT_STATE = 6 →
    d.spn.senseAt + 12500000 ≤ d.now →
    50 ≤ mv →
    exec (.brakeSense mv after) s = .next (s.after (
      let dead := max 40 d.spn.pwmDead
      let d1 := (d.emit (.gates (allLegs .off) dead)).emit (.gates d.spn.gates dead)
      let d2 := { d1 with spn := { d1.spn with senseAt := d1.now } }
      { d2 with spn := { d2.spn with stopWin := 0 } }))) ∧
  (∀ (s : State) (d : Dev) (mv : Nat) (after : Nat), s.dev.met.advance after = d →
    d.rd .SPN_STAT_STATE = 6 →
    d.spn.senseAt + 12500000 ≤ d.now →
    mv < 50 →
    d.spn.stopWin ≠ 0 →
    exec (.brakeSense mv after) s = .next (s.after (
      let dead := max 40 d.spn.pwmDead
      let d1 := (d.emit (.gates (allLegs .off) dead)).emit (.gates d.spn.gates dead)
      let d2 := { d1 with spn := { d1.spn with senseAt := d1.now } }
      (d2.spnState 1).spnStart))) ∧
  (∀ (s : State) (d : Dev) (p : Nat) (after : Nat), s.dev.met.advance after = d →
    d.spn.markPer = some p →
    d.spn.markAt + 8 * p ≤ d.now →
    exec (.phaseLockTimeout after) s = .next (s.after (
      let x := { d.spn with phOk := 0, markPer := none, trimBack := some (signed 16 (d.rd .SPN_PHERR_TRIM), d.now) }
      (({ d with spn := x }).wr .SPN_STAT_PHLOCKED 0 0).setOvsRef))) ∧
  (∀ (s : State) (d : Dev) (after : Nat), s.dev.met.advance after = d →
    d.spn.markPer = none →
    exec (.phaseLockTimeout after) s = .next (s.after (d))) ∧
  (∀ (s : State) (d : Dev) (k : Fin 32) (x : Int) (after : Nat), s.dev.met.advance after = d →
    d.rd .MAC_CTL_ENABLE ≠ 0 →
    d.rd .MAC_CHCFG_EN k.val ≠ 0 →
    (d.chan k.val).at' + d.macPeriod k.val ≤ d.now →
    (d.chan k.val).fill = 0 →
    (-32768 ≤ x ∧ x ≤ 32767) →
    exec (.macSample k x after) s = .next (s.after (
      let y := { d.chan k.val with fill := 0, at' := (d.chan k.val).at' + d.macPeriod k.val, outAt := some d.now }
      let d1 := ({ d with mac := Tab.put d.mac k.val y }).tally .MAC_CHDATA_COUNT k.val
      (((((d1.wr .MAC_CHDATA_DATA k.val (unsigned 16 x)).wr .MAC_CHDATA_VALID k.val 1).wr .MAC_CHDATA_CLIP k.val 0).shockSample k.val x).busSample k.val x).watchCurrent k.val))) ∧
  (∀ (s : State) (d : Dev) (k : Fin 32) (x : Int) (after : Nat), s.dev.met.advance after = d →
    d.rd .MAC_CTL_ENABLE ≠ 0 →
    d.rd .MAC_CHCFG_EN k.val ≠ 0 →
    (d.chan k.val).at' + d.macPeriod k.val ≤ d.now →
    (d.chan k.val).fill ≠ 0 →
    exec (.macSample k x after) s = .next (s.after (
      let y := { d.chan k.val with fill := (d.chan k.val).fill - 1, at' := (d.chan k.val).at' + d.macPeriod k.val, outAt := some d.now }
      let d1 := ({ d with mac := Tab.put d.mac k.val y }).tally .MAC_CHDATA_COUNT k.val
      (((d1.wr .MAC_CHDATA_DATA k.val 0).wr .MAC_CHDATA_VALID k.val 0).wr .MAC_CHDATA_CLIP k.val 0).watchCurrent k.val))) ∧
  (∀ (s : State) (d : Dev) (k : Fin 32), s.dev.met = d →
    ((d.chan k.val).fill ≠ 3 ∨ (d.chan k.val).at' ≠ d.now) →
    exec (.macFilterReset k) s = .next (s.after (({ d with mac := Tab.put d.mac k.val { d.chan k.val with fill := 3, at' := d.now } }).count .MAC_CHSTAT_RESETS k.val))) ∧
  (∀ (s : State) (d : Dev) (k : Fin 32), s.dev.met = d →
    d.macEvent k.val = true →
    (d.chan k.val).armed = true →
    d.rd .ANG_STAT_STATE = 2 →
    exec (.macSyncReset k) s = .next (s.after ((if d.rd .MAC_CHSYNC_EACH k.val ≠ 0 then d else { d with mac := Tab.put d.mac k.val { d.chan k.val with armed := false } }).macReset k.val)))

/-- Reset requests, the quiesce, the full reset and power-on reset. A write of SYS_RSTCTL with the right key requests its reset
and begins the quiesce; the quiesce ends with its records once the units have passed or 100 ms have; the full reset acts when it
is due and keeps what R64, R386 and R609 keep; power-on reset and a supply monitor's trip leave the reset state with the fuses.
Where the spec leaves a point open the clause follows the model's choice, log 17, 54. (02_register_conventions R64,
18_startup_and_recovery R649, 18_startup_and_recovery R650, 18_startup_and_recovery R651, 18_startup_and_recovery R666,
16_health_and_ageing R609, 20_electrical_and_package R711) -/
def Obligations.ResetRequestsAndQuiesce : Prop :=
  (∀ (s : State) (d : Dev), s.dev.met = d →
    d.cfg.kind = 0 →
    d.cfg.quiet = false →
    d.rd .FLT_STAT_SAFE = 0 →
    exec (.warmResetRequest 0x5A) s = .next (s.after (
      let d1 := d.wr .SYS_RSTCTL_WARM 0 1
      let d2 := (({ d1 with cfg := { d1.cfg with kind := 1, cause := 1, quiet := false, units := d1.unitsNow } }).beginWait .quiesce).stopAtUnits fun _ => true
      if d2.angValid then d2 else d2.quiesceEnd false))) ∧
  (∀ (s : State) (d : Dev) (key : BitVec 8), s.dev.met = d →
    key ≠ 0x5A →
    exec (.warmResetRequest key) s = .next (s.after (d))) ∧
  (∀ (s : State) (d : Dev), s.dev.met = d →
    d.cfg.kind ≤ 1 →
    d.rd .FLT_STAT_SAFE ≠ 0 →
    exec (.fullResetRequest 0x5A) s = .next (s.after (
      let d1 := d.wr .SYS_RSTCTL_FULL 0 1
      let d2 := (({ d1 with cfg := { d1.cfg with kind := 2, cause := 4, quiet := false, units := [] } }).beginWait .quiesce).stopAtUnits fun _ => true
      d2.quiesceEnd false))) ∧
  (∀ (s : State) (d : Dev), s.dev.met = d →
    d.cfg.kind = 0 →
    d.cfg.quiet = false →
    d.rd .FLT_STAT_SAFE = 0 →
    exec (.fullResetRequest 0x5A) s = .next (s.after (
      let d1 := d.wr .SYS_RSTCTL_FULL 0 1
      let d2 := (({ d1 with cfg := { d1.cfg with kind := 2, cause := 4, quiet := false, units := d1.unitsNow } }).beginWait .quiesce).stopAtUnits fun _ => true
      if d2.angValid then d2 else d2.quiesceEnd false))) ∧
  (∀ (s : State) (d : Dev) (after : Nat), s.dev.met.advance after = d →
    d.cfg.kind ≠ 0 →
    d.cfg.quiet = false →
    (d.waited .quiesce 125000000 = true ∨ ∀ e ∈ d.cfg.units, e.2.whole = true) →
    exec (.quiesceEnd after) s = .next (s.after (
      let d1 := (List.range 4).foldl (fun x a => x.unitRecord a (unitsOfAct x.cfg.units a) true) d
      let d2 := (({ d1 with cfg := { d1.cfg with quiet := true, units := [] } }.abandonAll 1).closePage).beginWait .flush
      if d2.cfg.kind != 2 then d2 else (List.range 4).foldl (fun x a => if x.rd .SRV_STAT_MODE a == 0 then x else x.retract a) d2))) ∧
  (∀ (s : State) (d : Dev) (after : Nat), s.dev.met.advance after = d →
    d.cfg.kind = 2 →
    d.cfg.quiet = true →
    (∀ a, a < 4 → (d.act a).retract = false) →
    (d.waited .flush 12500000 = true ∨ d.flushed = true) →
    exec (.fullReset after) s = .next (s.after (
      let n := d.powerOn
      let kept := Reg.SPN_PFSTAT.info.flds ++ Reg.HLT_REPL.info.flds
      let n := (kept.foldl (fun n f => n.wr f 0 (d.rd f 0)) n).setCause d.nextCause
      { n with hlt := { n.hlt with trig := d.hlt.trig }, svc := { n.svc with offTill := 12500000 } }))) ∧
  (∀ (s : State) (d : Dev) (b : Bool), s.dev.met = d →
    exec (.powerOnReset b) s = .next { State.after { s with test := false } (
      let n : Dev := { free := d.free, out := d.out, cfg := { fuses := d.cfg.blown, blown := d.cfg.blown }, svc := { vbus := d.svc.vbus }, hif := { log := d.hif.log } }
      (n.wr .SVC_USBID_PID 0 (d.cfg.blown.usbId / 65536)).wr .SVC_USBID_VID 0 d.cfg.blown.usbId) with test := b }) ∧
  (∀ (s : State) (d : Dev), s.dev.met = d →
    exec .supplyMonitorTrip s = .next (s.after (
      let n : Dev := { free := d.free, out := d.out, cfg := { fuses := d.cfg.blown, blown := d.cfg.blown }, svc := { vbus := d.svc.vbus }, hif := { log := d.hif.log } }
      (n.wr .SVC_USBID_PID 0 (d.cfg.blown.usbId / 65536)).wr .SVC_USBID_VID 0 d.cfg.blown.usbId)))

/-- The power-fail sequence, the watchdogs and the state digest. Power failure stops what runs at its atomic units, retracts the
idle actuators and flushes the recorder; each step of the sequence ends as R377, R378 and R641 say; a watchdog's second expiry
in a row takes its action; the State Digest command returns the digest and advances it. Where the spec leaves a point open the
clause follows the model's choice, log 53, 57. (10_spindle R375, 10_spindle R377, 10_spindle R378, 17_faults_and_events R617,
17_faults_and_events R626, 17_faults_and_events R632, 17_faults_and_events R641, 12_host_interface R464, 12_host_interface R465) -/
def Obligations.PowerFailSequence : Prop :=
  (∀ (s : State) (d : Dev) (pin : Bool) (oks : List Bool), s.dev.met = d →
    d.rd .SPN_STAT_STATE ≠ 0 →
    d.spn.running = false →
    (pin = true ∨ 2 ≤ d.spn.pfLow) →
    exec (.powerFail pin oks) s = .next (s.after (
      let units := d.unitsNow
      let acts := unitActs units
      let spn := { d.spn with running := true, pfAt := d.now, pfUnits := units, pfBusy := acts, pfVmin := false, pfRecs := false }
      let d1 := { d with spn := spn, hif := { d.hif with log := { d.hif.log with pfails := d.hif.log.pfails + 1 } } }
      let d1 := ((d1.spnState 7).stick .SPN_STAT_PFAIL).resetReg .SPN_PFSTAT 0
      let d1 := (((d1.wr .SPN_PFSTAT_UNIT 0 (maskOf ((List.range 4).map acts.contains))).raise 23 0 (d1.word .SPN_STAT)).rackAlert 1).schHalt
      let d1 := d1.stopAtUnits fun _ => true
      let idle := (List.range 4).filter fun a => d1.actDeclared a && !acts.contains a
      let d1 := idle.foldl (fun x a => (x.retract a).wrBit .SPN_PFSTAT_DONE 0 a true) d1
      let d1 := (d1.closePage.flushTrim).wr .EVT_STAT_PFFLUSH 0 1
      ({ d1 with evt := { d1.evt with pfStep := 1 } }).flushPages oks))) ∧
  (∀ (s : State) (d : Dev) (oks : List Bool) (after : Nat), s.dev.met.advance after = d →
    d.spn.running = true →
    d.spn.pfRecs = false →
    d.spn.pfVmin = false →
    (d.spn.pfAt + 7500000 ≤ d.now ∨ d.spn.pfBusy = []) →
    exec (.powerFailUnitRecord oks after) s = .next (s.after (
      let d1 := (List.range 4).foldl (fun x a => x.unitRecord a (unitsOfAct x.spn.pfUnits a) true) d
      let d1 := (d1.event 0x500 0 (d1.word .SPN_PFSTAT) 0 0).storeAll.closePage
      (({ d1 with spn := { d1.spn with pfRecs := true }, evt := { d1.evt with pfStep := 2 } }).flushPages oks).wr .EVT_STAT_PFFLUSH 0 0))) ∧
  (∀ (s : State) (d : Dev) (after : Nat), s.dev.met.advance after = d →
    d.spn.running = true →
    d.spn.pfVmin = false →
    d.spn.pfAt + max 2 (d.rd .SPN_PFCFG_HOLD) * 1250000 ≤ d.now →
    exec (.powerFailHoldEnd after) s = .next (s.after (
      d.spn.pfBusy.foldl (fun x a =>
        let slots := (x.spn.pfUnits.filter fun e => actOfSlot e.1 == a).map Prod.fst
        let y := { x with spn := { x.spn with pfBusy := x.spn.pfBusy.filter (· != a) } }
        ((slots.foldl (fun y s => y.abandon s 1) y).wrBit .SPN_PFSTAT_DONE 0 a true).retract a) d))) ∧
  (∀ (s : State) (d : Dev), s.dev.met = d →
    d.spn.running = true →
    d.spn.pfVmin = false →
    d.rd .MAC_CHDATA_VALID (d.rd .SPN_MOTOR_VBUS) ≠ 0 →
    signed 16 (d.rd .MAC_CHDATA_DATA (d.rd .SPN_MOTOR_VBUS)) < (d.rd .SPN_PFAIL_VMIN : Int) →
    exec .busBelowVmin s = .next (s.after (
      let d1 := (List.range 32).foldl (fun x q => (x.goIdle q).idleWriter q) d
      let d1 := { d1 with spn := { d1.spn with pfVmin := true, pfBusy := [] } }
      ((List.range 4).foldl Dev.stopRetract (d1.abandonAll 1)).wr .EVT_STAT_PFFLUSH 0 0))) ∧
  (∀ (s : State) (d : Dev), s.dev.met = d →
    d.spn.running = true →
    d.spn.pfBusy = [] →
    d.spn.pfRecs = true →
    (∀ a, a < 4 → (d.act a).retract = false) →
    exec .powerFailSequenceEnd s = .next (s.after (
      let d1 := d.wr .SPN_PFSTAT_ELAPSED 0 (min 65535 ((d.now - d.spn.pfAt) / 12500))
      let spn := { d1.spn with running := false, pfLow := 0, pfUnits := [] }
      let d1 := { d1 with spn := spn, flt := { d1.flt with deferred := [] }, evt := { d1.evt with pfStep := 0 } }
      d.flt.deferred.foldl (fun x e => x.react e.1 e.2) (d1.spnState (if d1.on .SPN_PFCFG_BRAKE then 6 else 5))))) ∧
  (∀ (s : State) (d : Dev) (c : Fin 8) (after : Nat), s.dev.met.advance after = d →
    d.rd .FLT_WDCTL_EN c.val ≠ 0 →
    d.wdRemain c.val = 0 →
    exec (.watchdogExpiry c after) s = .next (s.after (
      let d1 := d.wdExpire c.val
      if 2 ≤ Tab.getD d1.flt.wdStreak c.val 0 ∧ d1.rd .FLT_WDCTL_ACT c.val ≠ 0 then d1.resetRequest 1 3 else d1))) ∧
  (∀ (s : State) (d : Dev) (c : Fin 8) (after : Nat), s.dev.met.advance after = d →
    (d.rd .FLT_WDCTL_EN c.val = 0 ∨ d.wdRemain c.val ≠ 0) →
    exec (.watchdogExpiry c after) s = .next (s.after (d))) ∧
  (∀ (s : State) (d : Dev) (a : Adm), s.dev.met = d →
    d.admFront = some a →
    sqeOp a.sqe = 0xC2 →
    exec .stateDigest s = .next (s.after (
      let d1 := d.ringAdm a
      ((d1.emit (.hostData a.port a.fseq 16384 d1.digest)).digTaken.count .HIF_DIGCNT_DIGESTS).endOwn a 0 0 0)))

/-- Writes and reads of register space. A write that no other master contests takes effect; of two writes of one register in a
cycle the higher-priority master's takes effect and the other is recorded; a refused access ends in a bus error; a read returns
the holding register of a snapshot quantity and the word of any other, makes its captures and clears its RC fields. Where the
spec leaves a point open the clause follows the model's choice, log 2, 62. (00_scope R14, 02_register_conventions R39,
02_register_conventions R40, 02_register_conventions R55, 02_register_conventions R56, 02_register_conventions R57,
02_register_conventions R58, 02_register_conventions R60, 02_register_conventions R61, 02_register_conventions R63,
02_register_conventions R65) -/
def Obligations.RegisterAccesses : Prop :=
  (∀ (s : State) (d : Dev) (x : RegWrite) (r : Reg) (i : Nat), s.dev.met = d →
    d.busRefuses x.master.id x.addr 4 = false →
    targetOf x.master.id (regOffset x.addr) = .reg r i →
    exec (.registerWrite [x] []) s = .next (s.after (d.regWrite x.master.id r i x.data.toNat))) ∧
  (∀ (s : State) (d : Dev) (x y : RegWrite) (r : Reg) (i : Nat), s.dev.met = d →
    x.master.id < y.master.id →
    (x.chan = none ∧ y.chan = none) →
    d.busRefuses x.master.id x.addr 4 = false →
    d.busRefuses y.master.id y.addr 4 = false →
    targetOf x.master.id (regOffset x.addr) = .reg r i →
    targetOf y.master.id (regOffset y.addr) = .reg r i →
    exec (.registerWrite [x, y] []) s = .next (s.after ((d.regWrite x.master.id r i x.data.toNat).conflict [(y, x)]))) ∧
  (∀ (s : State) (d : Dev) (x : RegWrite), s.dev.met = d →
    d.busRefuses x.master.id x.addr 4 = true →
    exec (.registerWrite [x] []) s = .next (s.after (d.emit (.busError x.master.id)))) ∧
  (∀ (s : State) (d : Dev) (x : RegWrite) (y : RegRead) (r : Reg) (i : Nat), s.dev.met = d →
    d.busRefuses y.master.id y.addr 4 = false →
    targetOf y.master.id (regOffset y.addr) = .reg r i →
    r.snapped = false →
    (((d.capture y.master.id r i).clearRc r i).emit (.data y.master.id (d.word r i))).busRefuses x.master.id x.addr 4 = false →
    targetOf x.master.id (regOffset x.addr) = .reg r i →
    exec (.registerWrite [x] [y]) s = .next (s.after ((((d.capture y.master.id r i).clearRc r i).emit (.data y.master.id (d.word r i))).regWrite x.master.id r i x.data.toNat))) ∧
  (∀ (s : State) (d : Dev) (m : Master) (a : BitVec 40) (size : Nat) (r : Reg) (i : Nat), s.dev.met = d →
    d.busRefuses m.id a.toNat size = false →
    targetOf m.id (regOffset a.toNat) = .reg r i →
    r.snapped = true →
    exec (.snapshotRead m a size) s = .next (s.after (((d.capture m.id r i).clearRc r i).emit (.data m.id (Tab.getD d.bus.hold (holdKey m.id r i) 0))))) ∧
  (∀ (s : State) (d : Dev) (m : Master) (a : BitVec 40) (size : Nat), s.dev.met = d →
    d.busRefuses m.id a.toNat size = true →
    exec (.snapshotRead m a size) s = .next (s.after (d.emit (.busError m.id)))) ∧
  (∀ (s : State) (d : Dev) (m : Master) (a : BitVec 40) (size : Nat) (r : Reg) (i : Nat), s.dev.met = d →
    d.busRefuses m.id a.toNat size = false →
    targetOf m.id (regOffset a.toNat) = .reg r i →
    r.snapped = false →
    exec (.clearOnRead m a size) s = .next (s.after (((d.capture m.id r i).clearRc r i).emit (.data m.id (d.word r i))))) ∧
  (∀ (s : State) (d : Dev) (m : Master) (a : BitVec 40) (size : Nat), s.dev.met = d →
    d.busRefuses m.id a.toNat size = false →
    targetOf m.id (regOffset a.toNat) = .hole →
    exec (.clearOnRead m a size) s = .next (s.after (d.emit (.data m.id 0)))) ∧
  (∀ (s : State) (d : Dev) (p : PendW), s.dev.met = d →
    d.bus.slow = some p →
    exec .slowWriteCommit s = .next (s.after (({ d with bus := { d.bus with slow := none } }).plainWrite p.reg p.idx p.word.toNat))) ∧
  (∀ (s : State) (d : Dev), s.dev.met = d →
    d.bus.slow = none →
    exec .slowWriteCommit s = .next (s.after (d))) ∧
  (∀ (s : State) (d : Dev) (m : Master) (u : Fin 16) (w : Word), s.dev.met = d →
    exec (.compareTargetWrite m u w) s = .next (s.after (
      let v := d.loHalf m.id .ANG_CMPTGTLO u.val
      ((d.dropLo m.id .ANG_CMPTGTLO u.val).plainWrite .ANG_CMPTGTLO u.val v).plainWrite .ANG_CMPTGTHI u.val w.toNat)))

/-- The host windows, the routes and the format registers. A write through BAR2 takes effect while the window is unlocked and is
otherwise discarded, counted and recorded; a read through it has side effects only while it is unlocked; relocking and the
window's end lock it; a route that passes its checks is buffered and another is recorded; the format registers are closed after
handover. Where the spec leaves a point open the clause follows the model's choice, log 62. (02_register_conventions R66,
02_register_conventions R67, 02_register_conventions R68, 02_register_conventions R69, 02_register_conventions R70,
02_register_conventions R71, 04_reader_lanes R111, 04_reader_lanes R112, 06_media_format R196) -/
def Obligations.HostWindowsAndLockedWrites : Prop :=
  (∀ (s : State) (d : Dev) (p : Fin 2) (off size : Nat) (w : Word) (l : List RegWrite), s.dev.met = d →
    d.bar2Discards p.val off size = true →
    exec (.bar2Write p off size w l) s = .next (s.after (((d.busWrites l).stick (wdropFld p.val)).event 0x302 p.val off w.toNat 0))) ∧
  (∀ (s : State) (d : Dev) (p : Fin 2) (off size : Nat) (w : Word) (r : Reg) (i : Nat), s.dev.met = d →
    d.bar2Discards p.val off size = false →
    d.busRefuses (22 + p.val) (regBase + off) 4 = false →
    targetOf (22 + p.val) (regOffset (regBase + off)) = .reg r i →
    exec (.bar2Write p off size w []) s = .next (s.after (d.regWrite (22 + p.val) r i w.toNat))) ∧
  (∀ (s : State) (d : Dev) (p : Fin 2) (off size : Nat) (r : Reg) (i : Nat), s.dev.met = d →
    d.portExists p.val = true →
    d.admits (22 + p.val) = true →
    regAligned off size = true →
    off < 2 ^ 24 →
    targetOf (22 + p.val) off = .reg r i →
    r.snapped = false →
    Tab.look d.bus.unlock p.val = none →
    exec (.bar2Read p off size) s = .next (s.after ((d.capture (22 + p.val) r i).emit (.data (22 + p.val) (d.word r i))))) ∧
  (∀ (s : State) (d : Dev) (p : Fin 2) (off size : Nat), s.dev.met = d →
    regAligned off size = false →
    exec (.bar2Read p off size) s = .next (s.after (d.emit (.unsupported p.val)))) ∧
  (∀ (s : State) (d : Dev) (p : Fin 2) (off size : Nat), s.dev.met = d →
    d.portExists p.val = true →
    regAligned off size = true →
    off < 2 ^ 24 →
    (d.admits (22 + p.val) = false ∨ targetOf (22 + p.val) off = .busError) →
    exec (.bar2Read p off size) s = .next (s.after (d.emit (.completerAbort p.val)))) ∧
  (∀ (s : State) (d : Dev) (p : Fin 2), s.dev.met = d →
    (Tab.look d.bus.unlock p.val).isSome = true →
    exec (.bar2Relock p) s = .next (s.after (({ d with bus := { d.bus with unlock := Tab.del d.bus.unlock p.val } }).event 0x301 p.val 1 0 0))) ∧
  (∀ (s : State) (d : Dev) (p : Fin 2) (after : Nat), s.dev.met.advance after = d →
    (Tab.look d.bus.unlock p.val).isSome = true →
    d.waited (.bar2 p.val) (Tab.getD d.bus.unlock p.val 0 * 1250000000) = true →
    exec (.bar2WindowExpiry p after) s = .next (s.after (({ d with bus := { d.bus with unlock := Tab.del d.bus.unlock p.val } }).event 0x301 p.val 0 0 0))) ∧
  (∀ (s : State) (d : Dev) (x : RouteWrite) (granted : List (Fin 64)), s.dev.met = d →
    d.admits x.master.id = true →
    d.routeCheck x.lane.val x.data.toNat ((granted.map Fin.val).contains x.lane.val) = (false, false, false) →
    exec (.laneRouteWrite [x] granted) s = .next (s.after (d.buffer .LNX_ROUTE x.lane.val (BitVec.ofNat 32 (x.data.toNat % 2048))))) ∧
  (∀ (s : State) (d : Dev) (x : RouteWrite) (granted : List (Fin 64)) (v : Bool × Bool × Bool), s.dev.met = d →
    d.admits x.master.id = true →
    d.routeCheck x.lane.val x.data.toNat ((granted.map Fin.val).contains x.lane.val) = v →
    (v.1 || v.2.1 || v.2.2) = true →
    exec (.laneRouteWrite [x] granted) s = .next (s.after (d.refuseRoute x.lane.val x.data.toNat v))) ∧
  (∀ (s : State) (d : Dev) (m : Master) (k : Fin 8) (w : Word), s.dev.met = d →
    d.rd .SYS_STAT_HANDOVER ≠ 0 →
    exec (.tpeLockedWrite m k w) s = .next (s.after (d.wr .TPE_STAT_WIGN 0 1))) ∧
  (∀ (s : State) (d : Dev) (m : Master) (w : Word), s.dev.met = d →
    d.rd .SYS_STAT_HANDOVER = 0 →
    exec (.tpeLockedWrite m 0 w) s = .next (s.after (d.plainWrite .TPE_ZONEBASE 0 w.toNat)))

/-- Timers, mailboxes, control-store windows and general registers of the vertical engines. An expired timer queues TIMER unless
one is queued or runs; a mailbox write queues MSG or sets MBFULL; the store window opens in OFF, HALTED and MCHK, takes aligned
32-bit accesses of the masters it admits, drops the cores' writes while it is closed, and a general register is written in
HALTED only. Where the spec leaves a point open the clause follows the model's choice, log 17, 36. (11_vertical_engines R390,
11_vertical_engines R391, 11_vertical_engines R398, 11_vertical_engines R403, 11_vertical_engines R419, 02_register_conventions
R58) -/
def Obligations.EngineTimersMailboxesAndStores : Prop :=
  (∀ (s : State) (d : Dev) (e : Fin 12) (after : Nat), s.dev.met.advance after = d →
    d.waited (.veTimer e.val) (d.rd .VE_ETIMER_PERIOD e.val * 1250) = true →
    d.rd .VE_ETIMER_PERIOD e.val ≠ 0 →
    (∀ t ∈ (d.eng e.val).queues, t.type ≠ tTimer) →
    (∀ t, (d.eng e.val).run = some t → t.type ≠ tTimer) →
    exec (.veTimerExpiry e after) s = .next (s.after ((d.nextPeriod (.veTimer e.val) (d.rd .VE_ETIMER_PERIOD e.val * 1250)).trigger e.val tTimer 0 0 0 0 0))) ∧
  (∀ (s : State) (d : Dev) (e : Fin 12) (after : Nat), s.dev.met.advance after = d →
    d.waited (.veTimer e.val) (d.rd .VE_ETIMER_PERIOD e.val * 1250) = true →
    (d.eng e.val).queues.any (fun t => t.type == tTimer) = true →
    exec (.veTimerExpiry e after) s = .next (s.after (d.nextPeriod (.veTimer e.val) (d.rd .VE_ETIMER_PERIOD e.val * 1250)))) ∧
  (∀ (s : State) (d : Dev) (m : Master) (e : Fin 12) (w : Word), s.dev.met = d →
    (d.eng e.val).queues.length < queueRoom e.val →
    exec (.mailboxWrite m e w) s = .next (s.after (
      let lo := d.loHalf m.id .VE_MBOXLO e.val
      let d1 := ((d.dropLo m.id .VE_MBOXLO e.val).wr .VE_MBOXLO_DATA e.val lo).wr .VE_MBOXHI_DATA e.val w.toNat
      d1.trigger e.val tMsg 0 (lo % 2 ^ 32) (w.toNat % 2 ^ 16) 0 0))) ∧
  (∀ (s : State) (d : Dev) (m : Master) (e : Fin 12) (w : Word), s.dev.met = d →
    queueRoom e.val ≤ (d.eng e.val).queues.length →
    exec (.mailboxWrite m e w) s = .next (s.after (
      let lo := d.loHalf m.id .VE_MBOXLO e.val
      (((d.dropLo m.id .VE_MBOXLO e.val).wr .VE_MBOXLO_DATA e.val lo).wr .VE_MBOXHI_DATA e.val w.toNat).wr .VE_ESTAT_MBFULL e.val 1))) ∧
  (∀ (s : State) (d : Dev) (e : Fin 12), s.dev.met = d →
    (d.rd .VE_ESTAT_STATE e.val = 0 ∨ d.rd .VE_ESTAT_STATE e.val = 3 ∨ d.rd .VE_ESTAT_STATE e.val = 4) →
    exec (.veStoreOpen e true) s = .next (s.after ((d.wr .VE_CSCTL_OPEN e.val 1).wr .VE_CSSTAT_OPENED e.val 1))) ∧
  (∀ (s : State) (d : Dev) (e : Fin 12), s.dev.met = d →
    exec (.veStoreOpen e false) s = .next (s.after ((d.wr .VE_CSCTL_OPEN e.val 0).wr .VE_CSSTAT_OPENED e.val 0))) ∧
  (∀ (s : State) (d : Dev) (m : Master) (e : Fin 12) (off size : Nat) (v : BitVec 64), s.dev.met = d →
    d.veAdmits m off size = true →
    (m = .cfg ∨ d.rd .VE_CSSTAT_OPENED e.val ≠ 0) →
    exec (.veStoreWrite m e off size v) s = .next (s.after (d.st32 (uopAddr e.val (off / 4)) v.toNat))) ∧
  (∀ (s : State) (d : Dev) (c : Fin 8) (e : Fin 12) (off size : Nat) (v : BitVec 64), s.dev.met = d →
    size = 4 →
    off % 4 = 0 →
    d.rd .VE_CSSTAT_OPENED e.val = 0 →
    exec (.veStoreWrite (.mc c) e off size v) s = .next (s.after (d.wr .VE_CSSTAT_WDROP e.val 1))) ∧
  (∀ (s : State) (d : Dev) (m : Master) (e : Fin 12) (off size : Nat) (v : BitVec 64), s.dev.met = d →
    d.veAdmits m off size = false →
    exec (.veStoreWrite m e off size v) s = .next (s.after (d.emit (.busError m.id)))) ∧
  (∀ (s : State) (d : Dev) (m : Master) (e : Fin 12) (off size : Nat) (bad : Bool), s.dev.met = d →
    d.veAdmits m off size = true →
    exec (.veStoreRead m e off size bad) s = .next (s.after ((if bad then d.wr .VE_CSSTAT_RPERR e.val 1 else d).emit (.data m.id (d.ld32 (uopAddr e.val (off / 4))))))) ∧
  (∀ (s : State) (d : Dev) (m : Master) (e : Fin 12) (g : Fin 32) (w : Word), s.dev.met = d →
    d.rd .VE_ESTAT_STATE e.val = 3 →
    g.val ≠ 0 →
    exec (.generalRegisterWrite m e g w) s = .next (s.after (
      let lo := Tab.getD d.bus.loBuf (holdKey m.id .VE_GLO (32 * e.val + g.val)) ((d.eng e.val).reg g.val % 2 ^ 32)
      let d1 := d.dropLo m.id .VE_GLO (32 * e.val + g.val)
      let v := (lo % 2 ^ 32 + w.toNat % 2 ^ 16 * 2 ^ 32) % 2 ^ 48
      d1.setEng e.val { d1.eng e.val with g := Tab.store (d1.eng e.val).g 0 g.val v }))) ∧
  (∀ (s : State) (d : Dev) (m : Master) (e : Fin 12) (w : Word), s.dev.met = d →
    d.rd .VE_ESTAT_STATE e.val = 3 →
    exec (.generalRegisterWrite m e 0 w) s = .next (s.after (
      let d1 := d.dropLo m.id .VE_GLO (32 * e.val + 0)
      d1.setEng e.val (d1.eng e.val))))

/-- HALT, RESUME, CLRMCHK and the time limit of a routine. HALT stops an idle engine, waits for a committed routine and is
ignored where R410 says; RESUME and CLRMCHK return an engine to IDLE unless its store is open; a routine that runs its limit
before its COMMIT is abandoned and restarted or reported. Where the spec leaves a point open the clause follows the model's
choice, log 36. (11_vertical_engines R391, 11_vertical_engines R406, 11_vertical_engines R407, 11_vertical_engines R408,
11_vertical_engines R409, 11_vertical_engines R410, 11_vertical_engines R413) -/
def Obligations.EngineStates : Prop :=
  (∀ (s : State) (d : Dev) (e : Fin 12), s.dev.met = d →
    e.val < 4 →
    d.haltBarred e.val = true →
    exec (.engineHalt e) s = .next (s.after (d.wr .VE_ESTAT_HIGN e.val 1))) ∧
  (∀ (s : State) (d : Dev) (e : Fin 12), s.dev.met = d →
    e.val < 4 →
    d.haltBarred e.val = false →
    d.rd .VE_ESTAT_STATE e.val = 1 →
    exec (.engineHalt e) s = .next (s.after (d.wr .VE_ESTAT_STATE e.val 3))) ∧
  (∀ (s : State) (d : Dev) (e : Fin 12), s.dev.met = d →
    4 ≤ e.val →
    d.rd .VE_ESTAT_STATE e.val = 1 →
    exec (.engineHalt e) s = .next (s.after (((d.wr .VE_ESTAT_STATE e.val 3).adoptWith (e.val - 4) none).checkCeAll))) ∧
  (∀ (s : State) (d : Dev) (e : Fin 12), s.dev.met = d →
    d.haltBarred e.val = false →
    d.rd .VE_ESTAT_STATE e.val = 2 →
    d.rd .VE_ESTAT_COMMITTED e.val ≠ 0 →
    exec (.engineHalt e) s = .next (s.after (d.setEng e.val { d.eng e.val with halting := true }))) ∧
  (∀ (s : State) (d : Dev) (e : Fin 12), s.dev.met = d →
    d.rd .VE_CSSTAT_OPENED e.val = 0 →
    d.rd .VE_ESTAT_STATE e.val = 3 →
    exec (.engineResume e) s = .next (s.after (
      let d1 := d.wr .VE_ESTAT_STATE e.val 1
      if e.val < 4 then d1 else d1.ceBack))) ∧
  (∀ (s : State) (d : Dev) (e : Fin 12), s.dev.met = d →
    d.rd .VE_CSSTAT_OPENED e.val ≠ 0 →
    exec (.engineResume e) s = .next (s.after (d.wr .VE_CSSTAT_RESREF e.val 1))) ∧
  (∀ (s : State) (d : Dev) (e : Fin 12), s.dev.met = d →
    d.rd .VE_CSSTAT_OPENED e.val = 0 →
    d.rd .VE_ESTAT_STATE e.val = 4 →
    exec (.engineClrmchk e) s = .next (s.after (
      let d1 := (d.wr .VE_ESTAT_STATE e.val 1).trigger e.val tInit 0 0 0 0 0
      if e.val < 4 then d1 else d1.ceBack))) ∧
  (∀ (s : State) (d : Dev) (e : Fin 12) (t : Trig) (after : Nat), s.dev.met.advance after = d →
    d.waited (.routine e.val) (max 1 (d.rd .VE_ECFG_RTLIM e.val) * 1280) = true →
    (d.eng e.val).run = some t →
    d.rd .VE_ESTAT_STATE e.val = 2 →
    d.rd .VE_ESTAT_COMMITTED e.val = 0 →
    t.type ≠ tFault →
    exec (.routineTimeout e after) s = .next (s.after (
      let x := d.eng e.val
      let d1 := (d.setEng e.val { x.clear with g := x.g0 }).wr .VE_ESTAT_COMMITTED e.val 0
      let d1 := ((d1.count .VE_ECNT_ABANDONS e.val).wr .VE_ESTAT_CAUSE e.val 3).wr .VE_ESTAT_STATE e.val 1
      if t.flts + 1 < max 1 (d1.rd .VE_ECFG_FLTRST e.val) then
        d1.setEng e.val ((d1.eng e.val).requeue { t with restarts := min 255 (t.restarts + 1), flts := t.flts + 1 })
      else d1.faultTrigger e.val t 3)))

/-- The software check context and the compression engine. The context is claimed when it is free and released by its owner, the
safety path or the service port; a computation of its owner ends with the value its algorithm gives; jobs are queued, start in
order while fewer than four run, and end with their output, status and completion signal. Where the spec leaves a point open the
clause follows the model's choice, log 3, 25, 48. (15_check_values_and_compression R554, 15_check_values_and_compression R555,
15_check_values_and_compression R556, 15_check_values_and_compression R557, 15_check_values_and_compression R558,
15_check_values_and_compression R559, 15_check_values_and_compression R560, 15_check_values_and_compression R563,
15_check_values_and_compression R564, 02_register_conventions R58) -/
def Obligations.CheckContextAndCompression : Prop :=
  (∀ (s : State) (d : Dev) (m : Master), s.dev.met = d →
    d.rd .CHK_SWOWN_OWNED = 0 →
    exec (.checkClaim m) s = .next (s.after ((d.wr .CHK_SWOWN_OWNED 0 1).wr .CHK_SWOWN_OWNER 0 m.id))) ∧
  (∀ (s : State) (d : Dev) (m : Master), s.dev.met = d →
    d.rd .CHK_SWOWN_OWNED ≠ 0 →
    d.rd .CHK_SWOWN_OWNER ≠ m.id →
    exec (.checkClaim m) s = .next (s.after (d.wr .CHK_STAT_CLAIMREF 0 1))) ∧
  (∀ (s : State) (d : Dev) (m : Master), s.dev.met = d →
    d.rd .CHK_SWOWN_OWNED ≠ 0 →
    (d.rd .CHK_SWOWN_OWNER = m.id ∨ m.id = 0 ∨ m.id = 1) →
    exec (.checkRelease m) s = .next (s.after ((d.wr .CHK_SWOWN_OWNED 0 0).wr .CHK_SWOWN_OWNER 0 0))) ∧
  (∀ (s : State) (d : Dev) (m : Master) (w : Word), s.dev.met = d →
    d.owns m.id = true →
    d.rd .CHK_SWSTAT_BUSY = 0 →
    bit w.toNat 31 = true →
    exec (.checkCompute m w) s = .next (s.after (
      let d1 := d.wr .CHK_SWCTL_ALG 0 w.toNat
      { d1.wr .CHK_SWSTAT_BUSY 0 1 with chk := { d1.chk with run := some d1.chkArgs } }))) ∧
  (∀ (s : State) (d : Dev) (m : Master) (w : Word), s.dev.met = d →
    d.owns m.id = false →
    exec (.checkCompute m w) s = .next (s.after (d.wr .CHK_STAT_CLAIMREF 0 1))) ∧
  (∀ (s : State) (d : Dev) (x : ChkRun), s.dev.met = d →
    d.rd .CHK_SWSTAT_BUSY ≠ 0 →
    d.chk.run = some x →
    (({ d.wr .CHK_SWSTAT_BUSY 0 0 with chk := { d.chk with run := none } } : Dev).readCheck reqMedia x.src x.len).2 = true →
    arrayOf x.src ≠ 1 →
    exec .checkComputeEnd s = .next (s.after (
      let d1 : Dev := { d.wr .CHK_SWSTAT_BUSY 0 0 with chk := { d.chk with run := none } }
      let d2 := (d1.readCheck reqMedia x.src x.len).1
      let v := chkValue x.alg x.seed x.fold (d2.ldBytes x.src x.len)
      ((d2.wr .CHK_SWRESLO_RES 0 v).wr .CHK_SWRESHI_RES 0 (v / 2 ^ 32)).wr .CHK_SWSTAT_DONE 0 1))) ∧
  (∀ (s : State) (d : Dev) (m : Master) (w : Word), s.dev.met = d →
    d.rd .CMP_CTL_ENABLE ≠ 0 →
    d.cmp.queue.length < 64 →
    exec (.compressionSubmit m w) s = .next (s.after (
      let lo := d.loHalf m.id .CMP_SUBLO 0 / 32 * 32
      let d1 := ((d.dropLo m.id .CMP_SUBLO 0).wr .CMP_SUBLO_ADDR 0 (lo / 32)).wr .CMP_SUBHI_ADDR 0 w.toNat
      { d1 with cmp := { d1.cmp with queue := d.cmp.queue ++ [{ desc := lo + w.toNat % 256 * 2 ^ 32, master := m.id }] } }))) ∧
  (∀ (s : State) (d : Dev) (j : CmpJob) (rest : List CmpJob), s.dev.met = d →
    d.cmp.queue = j :: rest →
    d.cmp.running.length < 4 →
    bits (d.ld32 j.desc) 28 4 = 0 →
    exec .pack s = .next (s.after ({ d with cmp := { queue := rest, running := d.cmp.running ++ [j] } }))) ∧
  (∀ (s : State) (d : Dev) (j : CmpJob) (rest : List CmpJob), s.dev.met = d →
    d.cmp.queue = j :: rest →
    d.cmp.running.length < 4 →
    bits (d.ld32 j.desc) 28 4 = 1 →
    exec .unpack s = .next (s.after ({ d with cmp := { queue := rest, running := d.cmp.running ++ [j] } }))) ∧
  (∀ (s : State) (d : Dev) (j : CmpJob) (rest : List CmpJob), s.dev.met = d →
    d.cmp.queue = j :: rest →
    d.cmp.running.length < 4 →
    bits (d.ld32 j.desc) 28 4 = 2 →
    exec .deflate s = .next (s.after ({ d with cmp := { queue := rest, running := d.cmp.running ++ [j] } }))) ∧
  (∀ (s : State) (d : Dev) (j : CmpJob) (rest : List CmpJob), s.dev.met = d →
    d.cmp.queue = j :: rest →
    d.cmp.running.length < 4 →
    bits (d.ld32 j.desc) 28 4 = 3 →
    exec .inflate s = .next (s.after ({ d with cmp := { queue := rest, running := d.cmp.running ++ [j] } }))) ∧
  (∀ (s : State) (d : Dev) (k : Fin 5) (outs : List (List Byte)) (j : CmpJob) (r : CmpResult), s.dev.met = d →
    d.cmp.running[k.val]? = some j →
    (d.cmpDesc j.desc).bad = false →
    (({ d with cmp := { d.cmp with running := d.cmp.running.eraseIdx k.val } } : Dev).cmpAccess (d.cmpDesc j.desc)).2 = true →
    (({ d with cmp := { d.cmp with running := d.cmp.running.eraseIdx k.val } } : Dev).cmpAccess (d.cmpDesc j.desc)).1.cmpRun (d.cmpDesc j.desc) outs = some r →
    r.status = 0 →
    (∀ e ∈ r.out, (({ d with cmp := { d.cmp with running := d.cmp.running.eraseIdx k.val } } : Dev).cmpAccess (d.cmpDesc j.desc)).1.rangeExists e.1 e.2.length = true) →
    exec (.compressionEnd k outs) s = .next (s.after (
      let d2 := (({ d with cmp := { d.cmp with running := d.cmp.running.eraseIdx k.val } } : Dev).cmpAccess (d.cmpDesc j.desc)).1
      let d3 := (r.out.foldl (fun x e => x.mputBytes e.1 e.2) d2).st32 (j.desc + 28) (r.len % 2 ^ 24)
      let d4 := (d3.count .CMP_CNT_JOBS).count .CMP_CNT_RAW 0 r.raw
      let c := d.cmpDesc j.desc
      (if c.op = 0 then d4.notePacked c.src c.word1 (16 * c.group) c.blocks else d4).cmpSignal j c.tag 0)))

/-- Verify records, rewrite requests, the work queue and calibration planning. A verify record is judged, counted and posted to
the job's owner; a rewrite request is queued, refused, granted or waits for its intent; patrol work is chosen while fewer items
than INFLIGHT are outstanding; an acknowledged item leaves the queue with the effect of its operation, one that times out is
queued again; a due head is planned for calibration. Where the spec leaves a point open the clause follows the model's choice,
log 17, 49, 65. (08_write_and_verify R303, 08_write_and_verify R306, 16_health_and_ageing R582, 16_health_and_ageing R583,
16_health_and_ageing R584, 16_health_and_ageing R585, 16_health_and_ageing R593, 16_health_and_ageing R594, 16_health_and_ageing
R596, 16_health_and_ageing R597, 16_health_and_ageing R600) -/
def Obligations.VerifyRewriteAndPatrol : Prop :=
  (∀ (s : State) (d : Dev) (q : Fin 32) (n : Fin 1024) (stream : Option Codes) (e : Emit), s.dev.met = d →
    ((d.wslot q.val).emits.find? fun e => e.slot == n.val && (d.wslot q.val).cur != some n.val) = some e →
    (d.judgeWrite q.val e stream).1 = 6 →
    exec (.verifyRecord q n stream) s = .next (s.after (
      let r := d.judgeWrite q.val e stream
      let d1 := (d.setWslot q.val { d.wslot q.val with emits := (d.wslot q.val).emits.erase e }).used
      let d2 := ((d1.wr .WRF_SSTAT_LASTRES q.val 6).count .WRF_VCNT_FAIL).count .WRF_SVCNT_FAIL q.val
      let d2 := ((d2.wr .WRF_STAT_NOSTREAM 0 1).wr .WRF_SSTAT_NOSTREAM q.val 1).hltVerify e 6 r.2.1
      let d3 := match d2.moveOf e.job.surf e.job.track e.slot with
        | some m => d2.moveJudged m e.job.track e.slot 6
        | none => d2
      let v := vrecWords e 6 r.2.1 r.2.2
      (d3.ceTrigger e.job.owner tVrec 0 (v.getD 0 0) (v.getD 1 0) (v.getD 2 0) (v.getD 3 0)).writesProven))) ∧
  (∀ (s : State) (d : Dev) (q : Fin 32) (n : Fin 1024) (stream : Option Codes) (e : Emit), s.dev.met = d →
    ((d.wslot q.val).emits.find? fun e => e.slot == n.val && (d.wslot q.val).cur != some n.val) = some e →
    (d.judgeWrite q.val e stream).1 = 0 →
    exec (.verifyRecord q n stream) s = .next (s.after (
      let r := d.judgeWrite q.val e stream
      let d1 := (d.setWslot q.val { d.wslot q.val with emits := (d.wslot q.val).emits.erase e }).used
      let d2 := ((d1.wr .WRF_SSTAT_LASTRES q.val 0).count .WRF_VCNT_PASS).count .WRF_SVCNT_PASS q.val
      let d2 := (d2.notePass q.val e).hltVerify e 0 r.2.1
      let d3 := match d2.moveOf e.job.surf e.job.track e.slot with
        | some m => d2.moveJudged m e.job.track e.slot 0
        | none => d2
      let v := vrecWords e 0 r.2.1 r.2.2
      (d3.ceTrigger e.job.owner tVrec 0 (v.getD 0 0) (v.getD 1 0) (v.getD 2 0) (v.getD 3 0)).writesProven))) ∧
  (∀ (s : State) (d : Dev) (q : Fin 32) (n : Fin 1024) (stream : Option Codes) (e : Emit), s.dev.met = d →
    ((d.wslot q.val).emits.find? fun e => e.slot == n.val && (d.wslot q.val).cur != some n.val) = some e →
    (d.judgeWrite q.val e stream).1 = 7 →
    exec (.verifyRecord q n stream) s = .next (s.after (
      let r := d.judgeWrite q.val e stream
      let d1 := (d.setWslot q.val { d.wslot q.val with emits := (d.wslot q.val).emits.erase e }).used
      let d2 := ((d1.wr .WRF_SSTAT_LASTRES q.val 7).count .WRF_VCNT_FAIL).count .WRF_SVCNT_FAIL q.val
      let d2 := (d2.wr .WRF_SSTAT_NOTWR q.val 1).hltVerify e 7 r.2.1
      let d3 := match d2.moveOf e.job.surf e.job.track e.slot with
        | some m => d2.moveJudged m e.job.track e.slot 7
        | none => d2
      let v := vrecWords e 7 r.2.1 r.2.2
      (d3.ceTrigger e.job.owner tVrec 0 (v.getD 0 0) (v.getD 1 0) (v.getD 2 0) (v.getD 3 0)).writesProven))) ∧
  (∀ (s : State) (d : Dev) (m : Master) (w : Word), s.dev.met = d →
    (d.wsGet (ledgerIndex (bits (d.loHalf m.id .HLT_RWLO 0) 26 6) (bits (d.loHalf m.id .HLT_RWLO 0) 0 20))).refresh = false →
    exec (.rewriteRequest m w) s = .next (s.after (
      let lo := d.loHalf m.id .HLT_RWLO 0
      let r : RwReq := { master := m.id, surf := bits lo 26 6, track := bits lo 0 20, tag := bits w.toNat 0 8, rst := bit lo 20 }
      let d1 := d.dropLo m.id .HLT_RWLO 0
      { d1 with hlt := { d1.hlt with reqs := d1.hlt.reqs ++ [r] } }))) ∧
  (∀ (s : State) (d : Dev) (r : RwReq) (rest : List RwReq), s.dev.met = d →
    d.rd .CFG_STAT_RESTORED ≠ 0 →
    d.hlt.reqs = r :: rest →
    d.zoneOf r.surf r.track = none →
    exec .rewriteServe s = .next (s.after (
      let d1 := { d with hlt := { d.hlt with reqs := rest, waiting := false } }.wr .HLT_STAT_JWAIT 0 0
      d1.rewriteReply r.master r.tag (d.wsGet (ledgerIndex r.surf r.track)).w0 true))) ∧
  (∀ (s : State) (d : Dev) (r : RwReq) (rest : List RwReq) (z : Zone), s.dev.met = d →
    d.rd .CFG_STAT_RESTORED ≠ 0 →
    d.hlt.reqs = r :: rest →
    d.zoneOf r.surf r.track = some z →
    (d.stripesOf z ≤ (d.wsGet (ledgerIndex r.surf r.track)).bound ∨ r.rst = true) →
    d.hlt.intents.any (d.coversTrack r.surf r.track) = true →
    exec .rewriteServe s = .next (s.after (({ d with hlt := { d.hlt with reqs := rest, waiting := false } }.wr .HLT_STAT_JWAIT 0 0).grantRewrite r))) ∧
  (∀ (s : State) (d : Dev) (r : RwReq) (rest : List RwReq) (z : Zone), s.dev.met = d →
    d.rd .CFG_STAT_RESTORED ≠ 0 →
    d.hlt.reqs = r :: rest →
    d.zoneOf r.surf r.track = some z →
    r.rst = true →
    d.hlt.intents.any (d.coversTrack r.surf r.track) = false →
    exec .rewriteServe s = .next (s.after (d.askIntent r.surf r.track))) ∧
  (∀ (s : State) (d : Dev) (op i : Nat), s.dev.met = d →
    d.rd .HLT_CTL_ENABLE ≠ 0 →
    d.rd .HLT_CTL_WEEVIL ≠ 0 →
    ((d.hlt.held ++ d.hlt.work).filter fun w => decide (w.op ≤ opScrub)).length < max 1 (d.rd .HLT_WEEVIL_INFLIGHT) →
    d.patrolChoice = some (op, i) →
    exec .patrolSelect s = .next (s.after (
      let d1 := match Tab.look d.hlt.ws i with
        | some e => { d with hlt := { d.hlt with ws := Tab.put d.hlt.ws i { e with low := 255, hard := false } } }
        | none => d
      d1.workItem op (i / 1048576) (i % 1048576) 0 0 0 false))) ∧
  (∀ (s : State) (d : Dev) (w : Word) (x : Work), s.dev.met = d →
    (d.hlt.work.find? fun y => y.seq == w.toNat % 65536) = some x →
    bits w.toNat 28 4 = 0 →
    exec (.workAck w) s = .next (s.after (
      let d1 := (({ d with hlt := { d.hlt with work := d.hlt.work.erase x } }).endWait (.work x.seq)).workDone x
      d1.ringDrain d1.hlt.held.length))) ∧
  (∀ (s : State) (d : Dev) (w : Word) (x : Work), s.dev.met = d →
    (d.hlt.work.find? fun y => y.seq == w.toNat % 65536) = some x →
    bits w.toNat 28 4 = 1 →
    exec (.workAck w) s = .next (s.after (
      let d1 := (({ d with hlt := { d.hlt with work := d.hlt.work.erase x } }).endWait (.work x.seq)).workFailed x
      d1.ringDrain d1.hlt.held.length))) ∧
  (∀ (s : State) (d : Dev) (w : Word), s.dev.met = d →
    (d.hlt.work.find? fun y => y.seq == w.toNat % 65536) = none →
    exec (.workAck w) s = .next (s.after (d))) ∧
  (∀ (s : State) (d : Dev) (n : Fin 65536) (x : Work) (after : Nat), s.dev.met.advance after = d →
    (d.hlt.work.find? fun w => w.seq == n.val % 65536 && (w.op == opJournal || w.op == opCheckpoint)) = some x →
    d.waited (.work x.seq) (d.rd .HLT_JRNL_TMO * 1250000000) = true →
    exec (.workTimeout n after) s = .next (s.after (
      let d1 := (({ d with hlt := { d.hlt with work := d.hlt.work.erase x } }).endWait (.work x.seq)).wr .HLT_STAT_HLTSTALL 0 1
      (d1.raiseMany 37 0 1 (d1.word .HLT_STAT) (x.op * 2 ^ 28 + x.surf * 2 ^ 20 + x.track) 0 false).queueWork x))) ∧
  (∀ (s : State) (d : Dev) (x : Work) (rest : List Work) (after : Nat), s.dev.met.advance after = d →
    d.hlt.retry = x :: rest →
    d.waited (.retry x.seq) 4500000000000 = true →
    exec (.workRetry after) s = .next (s.after ((({ d with hlt := { d.hlt with retry := rest } }).endWait (.retry x.seq)).queueWork x))) ∧
  (∀ (s : State) (d : Dev) (after : Nat), s.dev.met.advance after = d →
    d.waitFrom .checkpoint + max 1 (d.rd .HLT_JRNL_CKPT) * (60 * 1250000000) ≤ d.now →
    exec (.checkpointTimer after) s = .next (s.after (
      let k := d.waitFrom .checkpoint + max 1 (d.rd .HLT_JRNL_CKPT) * (60 * 1250000000)
      let d0 : Dev := { d with timers := (d.timers.filter fun x => x.1 != .checkpoint) ++ [(.checkpoint, k)] }
      let ps := d.hlt.pages
      let lo := ps.foldl min (ps.headD 0)
      let hi := ps.foldl max 0
      let w : Work :=
        { op := opCheckpoint, surf := 0, track := 0, head := 0, arg := lo, arg2 := if ps.isEmpty then 0 else hi + 1 - lo, granted := false,
          seq := 0, ckpt := d.hlt.ckpt + 1, pages := ps }
      ({ d0 with hlt := { d.hlt with ckpt := d.hlt.ckpt + 1, pages := [] } }).queueWork w))) ∧
  (∀ (s : State) (d : Dev), s.dev.met = d →
    exec .statisticFlush s = .next (s.after (
      let d1 := d.hlt.ws.foldl (fun x p => if p.2.dirty then x.recToDram p.1 p.2 else x) d
      { d1 with hlt := { d1.hlt with ws := d1.hlt.ws.map fun p => (p.1, { p.2 with dirty := false }) } }))) ∧
  (∀ (s : State) (d : Dev) (h : Fin 128), s.dev.met = d →
    d.rd .SRV_HSTAT_STATE h.val = unitServ →
    d.calCauses h.val ≠ 0 →
    (∀ x ∈ d.hlt.calReq, x.1 ≠ h.val) →
    d.hlt.calReq.length < 32 →
    exec (.calibrationPlan h) s = .next (s.after ({ d with hlt := { d.hlt with calReq := d.hlt.calReq ++ [(h.val, d.calCauses h.val)] } })))

/-- Delay monitors, regulators, die sensors, projection and powered hours. The worst slack orders a voltage step or an MC clock
step as R602 says, the regulator's acknowledgement or its time-out ends the command, the sensors set HLT_TEMP and raise HOT and
CRIT, and the weekly projection updates the history, the triggers and the spares. Where the spec leaves a point open the clause
follows the model's choice, log 50. (16_health_and_ageing R574, 16_health_and_ageing R601, 16_health_and_ageing R602,
16_health_and_ageing R603, 16_health_and_ageing R604, 16_health_and_ageing R605, 16_health_and_ageing R607, 17_faults_and_events
R627) -/
def Obligations.SiliconAndProjection : Prop :=
  (∀ (s : State) (d : Dev) (sl : List Int) (after : Nat), s.dev.met.advance after = d →
    d.waitFrom .slack + 1250000000 ≤ d.now →
    d.rd .HLT_AVSSTAT_VCODE < d.rd .HLT_AVS_VMAX →
    d.rd .HLT_CTL_AVS ≠ 0 →
    d.hlt.avsBusy = false →
    sl.foldl min (sl.headD 0) < (d.rd .HLT_AVS_GUARD : Int) →
    exec (.slackReading sl after) s = .next (s.after (
      let d0 : Dev := { d with timers := (d.timers.filter fun x => x.1 != .slack) ++ [(.slack, d.waitFrom .slack + 1250000000)] }
      let worst := sl.foldl min (sl.headD 0)
      let slack := (List.range 32).map fun k => (k, unsigned 32 (sl.getD k 0))
      let d1 := ({ d0 with hlt := { d0.hlt with slack := slack } }).wr .HLT_AVSSTAT_WSLACK 0 (unsigned 16 worst)
      ({ d1 with hlt := { d1.hlt with calm := 0, tooSlow := false, avsBusy := true, avsWant := d.rd .HLT_AVSSTAT_VCODE + 1 } }).beginWait .avs))) ∧
  (∀ (s : State) (d : Dev), s.dev.met = d →
    d.hlt.avsBusy = true →
    exec .avsAcknowledge s = .next (s.after (({ d with hlt := { d.hlt with avsBusy := false } }).wr .HLT_AVSSTAT_VCODE 0 d.hlt.avsWant))) ∧
  (∀ (s : State) (d : Dev) (after : Nat), s.dev.met.advance after = d →
    d.hlt.avsBusy = true →
    d.waited .avs 1250000 = true →
    exec (.avsTimeout after) s = .next (s.after (
      let d1 := ({ d with hlt := { d.hlt with avsBusy := false } }).wr .HLT_STAT_AVSFAIL 0 1
      d1.raise 39 0 (d1.word .HLT_AVSSTAT)))) ∧
  (∀ (s : State) (d : Dev) (ts : List Int) (after : Nat), s.dev.met.advance after = d →
    d.waitFrom .dieTemp + 125000000 ≤ d.now →
    exec (.temperatureReading ts after) s = .next (s.after (
      let d0 : Dev := { d with timers := (d.timers.filter fun x => x.1 != .dieTemp) ++ [(.dieTemp, d.waitFrom .dieTemp + 125000000)] }
      let hi := ts.foldl max (ts.headD 0)
      let d1 := { d0 with hlt := { d0.hlt with temps := (List.range 8).map fun k => (k, ts.getD k 0) } }
      let d1 := (d1.wr .HLT_TEMP_MAX 0 (unsigned 8 hi)).wr .HLT_TEMP_MIN 0 (unsigned 8 (ts.foldl min (ts.headD 0)))
      let sensor := ts.findIdx fun t => t == hi
      let hot := d1.rdInt .FLT_TEMP_HOT
      let armed := d1.flt.hotArmed || decide (hi ≤ hot - 5)
      let d2 := { d1 with flt := { d1.flt with hotArmed := armed } }
      let d3 := if hot < hi && armed then
          ({ d2 with flt := { d2.flt with hotArmed := false } }).raise 35 sensor (d2.word .HLT_TEMP)
        else d2
      if d3.rdInt .FLT_TEMP_CRIT < hi then d3.raise 36 sensor (d3.word .HLT_TEMP) else d3))) ∧
  (∀ (s : State) (d : Dev), s.dev.met = d →
    (d.rd .HLT_POH_HOURS ≠ 0 ∧ d.rd .HLT_POH_HOURS % 168 = 0) →
    d.hlt.history.head?.map Prod.fst ≠ some (d.rd .HLT_POH_HOURS) →
    3 ≤ d.hlt.history.length →
    exec .weeklyProjection s = .next (s.after (
      let m := d.mediaStat
      let v := d.rd .HLT_AVSSTAT_VCODE
      let h := ((d.rd .HLT_POH_HOURS, m, v) :: d.hlt.history).take 16
      let d1 := { d with hlt := { d.hlt with history := h, vfirst := some (d.hlt.vfirst.getD v), mfirst := some (d.hlt.mfirst.getD m) } }
      let d1 := d1.wr .HLT_REPL_PCTUSED 0 d1.percentUsed
      let a := min (2 ^ 32 - 1) ((hoursTo (h.reverse.map fun x => ((x.1 : Int), (x.2.1 : Int))) (d1.rd .HLT_MLIM_FLOOR) true).getD (2 ^ 32 - 1))
      let b := min (2 ^ 32 - 1) ((hoursTo (h.reverse.map fun x => ((x.1 : Int), (x.2.2 : Int))) (d1.rd .HLT_AVS_VMAX) false).getD (2 ^ 32 - 1))
      let d1 := (d1.wr .HLT_PROJ_HOURS 0 (min a b)).wrb .HLT_REPL_SOURCE 0 (decide (b < a))
      (if d1.rd .HLT_PROJ_HOURS < d1.rd .HLT_PLAN_HORIZON then d1.replace 0 else d1).checkSpares))) ∧
  (∀ (s : State) (d : Dev) (after : Nat), s.dev.met.advance after = d →
    d.waitFrom .hour + 3600 * 1250000000 ≤ d.now →
    exec (.poweredHour after) s = .next (s.after (
      let d0 : Dev := { d with timers := (d.timers.filter fun x => x.1 != .hour) ++ [(.hour, d.waitFrom .hour + 3600 * 1250000000)] }
      (d0.wr .HLT_POH_HOURS 0 (d0.rd .HLT_POH_HOURS + 1)).showUsed))) ∧
  (∀ (s : State) (d : Dev) (after : Nat), s.dev.met.advance after = d →
    d.now < d.waitFrom .hour + 3600 * 1250000000 →
    exec (.poweredHour after) s = .next (s.after (d)))

/-- DRAM initialisation, the caches and their maintenance. DRAM trains before handover and reports its capacity or its failure;
the L1 caches invalidate and enable after an invalidation; the L2 enables when it is invalid, disables through DISBUSY, and a
maintenance operation acts when it ends; the cache-block operations and fence.i act on their line and core. Where the spec
leaves a point open the clause follows the model's choice, log 4, 44. (14_memory_and_dma R514, 14_memory_and_dma R515,
14_memory_and_dma R516, 14_memory_and_dma R519, 14_memory_and_dma R520, 14_memory_and_dma R523, 14_memory_and_dma R524,
14_memory_and_dma R525) -/
def Obligations.CachesAndDram : Prop :=
  (∀ (s : State) (d : Dev) (raw : BitVec 5) (rate : BitVec 2), s.dev.met = d →
    d.rd .SYS_STAT_HANDOVER = 0 →
    exec (.dramInit raw rate) s = .next (s.after (
      let d1 := (d.wr .MEM_DRCFG_RAW 0 raw.toNat).wr .MEM_DRCFG_RATE 0 rate.toNat
      { d1 with memx := { d1.memx with training := true } }))) ∧
  (∀ (s : State) (d : Dev), s.dev.met = d →
    d.memx.training = true →
    exec (.dramInitEnd true) s = .next (s.after (
      let d1 := { d with memx := { d.memx with training := false } }
      (d1.wr .MEM_DRSTAT_READY 0 1).wr .MEM_DRSTAT_CAP 0 (dataCapacity (d1.rd .MEM_DRCFG_RAW))))) ∧
  (∀ (s : State) (d : Dev), s.dev.met = d →
    d.memx.training = true →
    exec (.dramInitEnd false) s = .next (s.after (({ d with memx := { d.memx with training := false } }).wr .MEM_DRSTAT_TRAINFAIL 0 1))) ∧
  (∀ (s : State) (d : Dev), s.dev.met = d →
    exec .dramRefresh s = .next (s.after (d))) ∧
  (∀ (s : State) (d : Dev) (c : Fin 8), s.dev.met = d →
    exec (.l1Invalidate c) s = .next (s.after (({ d with memx := { d.memx with icache := d.memx.icache.filter fun e => e.1 / 2 ^ 40 != c.val } }).wr .MEM_L1CTL_INVDONE c.val 1))) ∧
  (∀ (s : State) (d : Dev) (c : Fin 8), s.dev.met = d →
    d.rd .MEM_L1CTL_INVDONE c.val ≠ 0 →
    exec (.l1Enable c true true) s = .next (s.after ((d.wr .MEM_L1CTL_IEN c.val 1).wr .MEM_L1CTL_DEN c.val 1))) ∧
  (∀ (s : State) (d : Dev) (c : Fin 8) (ien den : Bool), s.dev.met = d →
    d.rd .MEM_L1CTL_INVDONE c.val = 0 →
    ien = true →
    den = false →
    exec (.l1Enable c ien den) s = .next (s.after ((d.wr .MEM_STAT_ENREF 0 1).wr .MEM_L1CTL_DEN c.val 0))) ∧
  (∀ (s : State) (d : Dev), s.dev.met = d →
    d.rd .MEM_L2CTL_INVALID ≠ 0 →
    exec .l2Enable s = .next (s.after ((((d.dropMem fun a => arrayOf a == 1).wr .MEM_L2CTL_ENABLE 0 1).wr .MEM_L2CTL_INVALID 0 0).syncDram))) ∧
  (∀ (s : State) (d : Dev), s.dev.met = d →
    d.rd .MEM_L2CTL_INVALID = 0 →
    exec .l2Enable s = .next (s.after (d.wr .MEM_STAT_ENREF 0 1))) ∧
  (∀ (s : State) (d : Dev), s.dev.met = d →
    d.rd .MEM_L2CTL_ENABLE ≠ 0 →
    exec .l2Disable s = .next (s.after (d.wr .MEM_L2CTL_DISBUSY 0 1))) ∧
  (∀ (s : State) (d : Dev), s.dev.met = d →
    d.rd .MEM_L2CTL_DISBUSY ≠ 0 →
    exec .l2DisableEnd s = .next (s.after (((d.wr .MEM_L2CTL_DISBUSY 0 0).wr .MEM_L2CTL_ENABLE 0 0).syncDram))) ∧
  (∀ (s : State) (d : Dev) (all : Bool) (set : Fin 32768) (way : Fin 16) (line : Option (BitVec 40)), s.dev.met = d →
    d.memx.maint = none →
    exec (.l2Clean all set way line) s = .next (s.after (
      let d1 := ((d.wr .MEM_L2MAINT_OP 0 1).wrb .MEM_L2MAINT_ALL 0 all).wr .MEM_L2MAINT_SET 0 set.val
      let d1 := (d1.wr .MEM_L2MAINT_WAY 0 way.val).wr .MEM_L2MAINT_GO 0 1
      let lines := if all then none else some (((line.map BitVec.toNat).map lineOf).toList.filter fun l => l / 128 % 32768 == set.val)
      { d1 with memx := { d1.memx with maint := some { op := 1, lines := lines } } }))) ∧
  (∀ (s : State) (d : Dev) (all : Bool) (set : Fin 32768) (way : Fin 16) (line : Option (BitVec 40)), s.dev.met = d →
    d.memx.maint.isSome = true →
    exec (.l2Clean all set way line) s = .next (s.after (d.wr .MEM_STAT_MBUSY 0 1))) ∧
  (∀ (s : State) (d : Dev) (all : Bool) (set : Fin 32768) (way : Fin 16) (line : Option (BitVec 40)), s.dev.met = d →
    d.memx.maint = none →
    exec (.l2Inval all set way line) s = .next (s.after (
      let d1 := ((d.wr .MEM_L2MAINT_OP 0 2).wrb .MEM_L2MAINT_ALL 0 all).wr .MEM_L2MAINT_SET 0 set.val
      let d1 := (d1.wr .MEM_L2MAINT_WAY 0 way.val).wr .MEM_L2MAINT_GO 0 1
      let lines := if all then none else some (((line.map BitVec.toNat).map lineOf).toList.filter fun l => l / 128 % 32768 == set.val)
      { d1 with memx := { d1.memx with maint := some { op := 2, lines := lines } } }))) ∧
  (∀ (s : State) (d : Dev) (all : Bool) (set : Fin 32768) (way : Fin 16) (line : Option (BitVec 40)), s.dev.met = d →
    d.memx.maint = none →
    exec (.l2Cleaninv all set way line) s = .next (s.after (
      let d1 := ((d.wr .MEM_L2MAINT_OP 0 3).wrb .MEM_L2MAINT_ALL 0 all).wr .MEM_L2MAINT_SET 0 set.val
      let d1 := (d1.wr .MEM_L2MAINT_WAY 0 way.val).wr .MEM_L2MAINT_GO 0 1
      let lines := if all then none else some (((line.map BitVec.toNat).map lineOf).toList.filter fun l => l / 128 % 32768 == set.val)
      { d1 with memx := { d1.memx with maint := some { op := 3, lines := lines } } }))) ∧
  (∀ (s : State) (d : Dev) (m : Maint), s.dev.met = d →
    d.memx.maint = some m →
    d.rd .MEM_L2CTL_ENABLE = 0 →
    m.op ≠ 1 →
    m.lines = none →
    exec .l2MaintEnd s = .next (s.after ((({ d with memx := { d.memx with maint := none } }).wr .MEM_L2MAINT_GO 0 0).wr .MEM_L2CTL_INVALID 0 1))) ∧
  (∀ (s : State) (d : Dev) (m : Maint) (l : List Nat), s.dev.met = d →
    d.memx.maint = some m →
    d.rd .MEM_L2CTL_ENABLE ≠ 0 →
    m.lines = some l →
    exec .l2MaintEnd s = .next (s.after (l.foldl Dev.cleanLine (({ d with memx := { d.memx with maint := none } }).wr .MEM_L2MAINT_GO 0 0)))) ∧
  (∀ (s : State) (d : Dev) (c : Fin 8) (a : BitVec 40), s.dev.met = d →
    arrayOf a.toNat = 0 →
    d.memExists a.toNat = true →
    exec (.cboClean c a) s = .next (s.after (d.cleanLine (lineOf a.toNat)))) ∧
  (∀ (s : State) (d : Dev) (c : Fin 8) (a : BitVec 40), s.dev.met = d →
    arrayOf a.toNat = 0 →
    d.memExists a.toNat = true →
    exec (.cboFlush c a) s = .next (s.after (d.cleanLine (lineOf a.toNat)))) ∧
  (∀ (s : State) (d : Dev) (c : Fin 8) (a : BitVec 40), s.dev.met = d →
    arrayOf a.toNat = 0 →
    d.memExists a.toNat = true →
    exec (.cboInval c a) s = .next (s.after (d.cleanLine (lineOf a.toNat)))) ∧
  (∀ (s : State) (d : Dev) (c : Fin 8) (a : BitVec 40), s.dev.met = d →
    d.memExists a.toNat = true →
    (¬ (arrayOf a.toNat = 5 ∨ arrayOf a.toNat = 6)) →
    exec (.cboZero c a) s = .next (s.after (d.mputBytes (l1Line a.toNat) (List.replicate 64 0)))) ∧
  (∀ (s : State) (d : Dev) (c : Fin 8) (a : BitVec 40), s.dev.met = d →
    d.memExists a.toNat = false →
    exec (.cboZero c a) s = .next (s.after (d.emit (.coreFault c.val 7)))) ∧
  (∀ (s : State) (d : Dev) (c : Fin 8) (a : BitVec 40), s.dev.met = d →
    d.memExists a.toNat = true →
    (arrayOf a.toNat = 5 ∨ arrayOf a.toNat = 6) →
    exec (.cboZero c a) s = .next (s.after (d))) ∧
  (∀ (s : State) (d : Dev) (c : Fin 8), s.dev.met = d →
    exec (.fenceI c) s = .next (s.after ({ d with memx := { d.memx with icache := d.memx.icache.filter fun e => e.1 / 2 ^ 40 != c.val } })))

/-- The leaky buckets, the flip-mask test and the scrubber. Each leak takes one from both buckets and re-arms one that falls
below the threshold; the flip-mask test is armed unless it is armed already; the scrubber handles the errors it finds and
advances or ends its pass. Where the spec leaves a point open the clause follows the model's choice, log 44, 45.
(14_memory_and_dma R526, 14_memory_and_dma R527, 14_memory_and_dma R529, 14_memory_and_dma R530, 14_memory_and_dma R531,
14_memory_and_dma R532) -/
def Obligations.MemoryErrorsAndTests : Prop :=
  (∀ (s : State) (d : Dev) (after : Nat), s.dev.met.advance after = d →
    d.waitFrom .leak + max 1 (d.rd .MEM_LEAK_PERIOD) * 1250000000 ≤ d.now →
    max 1 (d.rd .MEM_LEAK_THRESH) ≤ (d.wr .MEM_BUCKET_DRAM 0 (d.rd .MEM_BUCKET_DRAM - 1)).rd .MEM_BUCKET_DRAM →
    max 1 (d.rd .MEM_LEAK_THRESH) ≤ ((d.wr .MEM_BUCKET_DRAM 0 (d.rd .MEM_BUCKET_DRAM - 1)).wr .MEM_BUCKET_CACHE 0 (d.rd .MEM_BUCKET_CACHE - 1)).rd .MEM_BUCKET_CACHE →
    exec (.bucketLeak after) s = .next (s.after (
      let k := d.waitFrom .leak + max 1 (d.rd .MEM_LEAK_PERIOD) * 1250000000
      let d0 : Dev := { d with timers := (d.timers.filter fun x => x.1 != .leak) ++ [(.leak, k)] }
      (d0.wr .MEM_BUCKET_DRAM 0 (d.rd .MEM_BUCKET_DRAM - 1)).wr .MEM_BUCKET_CACHE 0 (d.rd .MEM_BUCKET_CACHE - 1)))) ∧
  (∀ (s : State) (d : Dev) (w : Word), s.dev.met = d →
    bit w.toNat 30 = false →
    d.rd .MEM_FLIPCTL_ARM = 0 →
    exec (.flipArm w) s = .next (s.after ((d.wr .MEM_FLIPCTL_TARGET 0 (w.toNat % 8)).wrb .MEM_FLIPCTL_ARM 0 (bit w.toNat 31)))) ∧
  (∀ (s : State) (d : Dev) (w : Word), s.dev.met = d →
    bit w.toNat 30 = false →
    d.rd .MEM_FLIPCTL_ARM ≠ 0 →
    exec (.flipArm w) s = .next (s.after (d))) ∧
  (∀ (s : State) (d : Dev) (words : Nat) (errs : List MemErr), s.dev.met = d →
    d.rd .MEM_SCRUB_EN ≠ 0 →
    (errs.foldl (fun x e => x.memError reqScrub e.array.val e.addr.toNat e.hard) d).memx.scrub + words < (errs.foldl (fun x e => x.memError reqScrub e.array.val e.addr.toNat e.hard) d).scrubWords →
    exec (.scrubRead words errs) s = .next (s.after (
      let d1 := errs.foldl (fun x e => x.memError reqScrub e.array.val e.addr.toNat e.hard) d
      ({ d1 with memx := { d1.memx with scrub := d1.memx.scrub + words } }).wr .MEM_SCRUBSTAT_PROGRESS 0 (100 * (d1.memx.scrub + words) / max 1 d1.scrubWords)))) ∧
  (∀ (s : State) (d : Dev) (words : Nat) (errs : List MemErr), s.dev.met = d →
    d.rd .MEM_SCRUB_EN = 0 →
    exec (.scrubRead words errs) s = .next (s.after (d)))

/-- Faults, the hold, the safe state, the lock, watchdogs and CRICKET. A recovery timer that runs out contains its fault,
software acknowledges and forces the sources it names, the hold is released when nothing keeps it, LOCK closes the
configuration, a lost clock is shown and raised, watchdogs start and restart, and CRICKET toggles while it runs. Where the spec
leaves a point open the clause follows the model's choice, log 35, 52. (17_faults_and_events R612, 17_faults_and_events R614,
17_faults_and_events R616, 17_faults_and_events R620, 17_faults_and_events R621, 17_faults_and_events R622, 17_faults_and_events
R623, 17_faults_and_events R625, 17_faults_and_events R628) -/
def Obligations.FaultCollection : Prop :=
  (∀ (s : State) (d : Dev), s.dev.met = d →
    d.rd .FLT_STAT_SAFEACT ≠ 0 →
    d.allParked = true →
    (d.rd .SPN_STAT_STATE = 0 ∨ d.rd .SPN_STAT_STATE = 1 ∨ d.rd .SPN_STAT_STATE = 5 ∨ d.rd .SPN_STAT_STATE = 6) →
    exec .safeReached s = .next (s.after (d.wr .FLT_STAT_SAFE 0 1))) ∧
  (∀ (s : State) (d : Dev) (n : Fin 41) (after : Nat), s.dev.met.advance after = d →
    d.flt.timers.contains n.val = true →
    d.rd .FLT_CFG_RECTMO ≠ 0 →
    d.waited (.recov n.val) (d.rd .FLT_CFG_RECTMO * 1250000) = true →
    d.rd .FLT_SRCSTAT_EFFSEV n.val < 3 →
    exec (.recoveryTimeout n after) s = .next (s.after (
      let d1 := { d with flt := { d.flt with timers := d.flt.timers.filter (· != n.val), expired := d.flt.expired ++ [n.val] } }
      let d1 := d1.wr .FLT_SRCSTAT_EFFSEV n.val 3
      let x := Tab.getD d.flt.lastData n.val (0, 0, 0)
      (d1.record n.val (d1.rd .FLT_SRCSTAT_INST n.val) 0 3 false true true x.1 x.2.1 x.2.2).react n.val 3))) ∧
  (∀ (s : State) (d : Dev) (m : Master) (hi : Bool) (w : Word), s.dev.met = d →
    exec (.faultAcknowledge m hi w) s = .next (s.after ((sourcesOf hi w.toNat).foldl (fun x n => x.acknowledge n m.id) d))) ∧
  (∀ (s : State) (d : Dev) (hi : Bool) (w : Word), s.dev.met = d →
    exec (.faultForce hi w) s = .next (s.after ((sourcesOf hi w.toNat).foldl (fun x n => x.raiseMany n 0xFF 1 0 0 0 true) d))) ∧
  (∀ (s : State) (d : Dev), s.dev.met = d →
    d.topSev < 3 →
    d.rd .FLT_STAT_HOLD ≠ 0 →
    exec .holdRelease s = .next (s.after ((d.wr .FLT_STAT_HOLD 0 0).event 0x512 0 0 0 0))) ∧
  (∀ (s : State) (d : Dev), s.dev.met = d →
    3 ≤ d.topSev →
    exec .holdRelease s = .next (s.after (d.wr .FLT_STAT_RELREF 0 1))) ∧
  (∀ (s : State) (d : Dev), s.dev.met = d →
    exec .faultLock s = .next (s.after (d.wr .FLT_CTL_LOCK 0 1))) ∧
  (∀ (s : State) (d : Dev) (n : Fin 41) (w : Word), s.dev.met = d →
    d.rd .FLT_CTL_LOCK = 0 →
    exec (.faultConfigWrite (.src n) w) s = .next (s.after (
      let d1 := (d.wr .FLT_SRCCFG_BURST n.val (bits w.toNat 12 4)).wr .FLT_SRCCFG_NOESC n.val (bits w.toNat 8 1)
      (d1.wr .FLT_SRCCFG_SEV n.val (bits w.toNat 0 3)).setTokens n.val (min (d.tokensOf n.val) (bits w.toNat 12 4))))) ∧
  (∀ (s : State) (d : Dev) (w : Word), s.dev.met = d →
    d.rd .FLT_CTL_LOCK = 0 →
    exec (.faultConfigWrite .cfg w) s = .next (s.after (((d.wr .FLT_CFG_CRKSEV 0 (bits w.toNat 24 3)).wr .FLT_CFG_RECTMO 0 (bits w.toNat 16 8)).wr .FLT_CFG_RLREFILL 0 (bits w.toNat 0 16)))) ∧
  (∀ (s : State) (d : Dev) (w : Word), s.dev.met = d →
    d.rd .FLT_CTL_LOCK = 0 →
    exec (.faultConfigWrite .temp w) s = .next (s.after ((d.wr .FLT_TEMP_CRIT 0 (bits w.toNat 8 8)).wr .FLT_TEMP_HOT 0 (bits w.toNat 0 8)))) ∧
  (∀ (s : State) (d : Dev) (r : FltReg) (w : Word), s.dev.met = d →
    d.rd .FLT_CTL_LOCK ≠ 0 →
    exec (.faultConfigWrite r w) s = .next (s.after (d.wr .FLT_STAT_LOCKREF 0 1))) ∧
  (∀ (s : State) (d : Dev) (k : Fin 6), s.dev.met = d →
    exec (.clockLoss k) s = .next (s.after (
      let d1 := (d.wr (clockFld k.val) 0 0).wrBit .SYS_CLKSTAT_LOSS 0 k.val true
      d1.raise 34 0 (d1.word .SYS_CLKSTAT)))) ∧
  (∀ (s : State) (d : Dev) (k : Fin 6), s.dev.met = d →
    exec (.clockRelock k) s = .next (s.after (d.wr (clockFld k.val) 0 1))) ∧
  (∀ (s : State) (d : Dev) (c : Fin 8) (w : Word), s.dev.met = d →
    d.rd .FLT_WDCTL_EN c.val = 0 →
    bit w.toNat 31 = true →
    exec (.watchdogEnable c w) s = .next (s.after (
      let d1 := (d.wr .FLT_WDCTL_ACT c.val (bits w.toNat 8 1)).wr .FLT_WDCTL_PERIOD c.val (bits w.toNat 0 7)
      let d1 := { d1 with flt := { d1.flt with wdStreak := Tab.del d1.flt.wdStreak c.val } }.wr .FLT_WDCTL_EN c.val 1
      { d1 with flt := { d1.flt with wdAt := Tab.put d1.flt.wdAt c.val d1.now } }))) ∧
  (∀ (s : State) (d : Dev) (c : Fin 8) (w : Word), s.dev.met = d →
    d.rd .FLT_WDCTL_EN c.val ≠ 0 →
    exec (.watchdogEnable c w) s = .next (s.after (d))) ∧
  (∀ (s : State) (d : Dev) (c : Fin 8) (key : Byte), s.dev.met = d →
    key = 0xA5 →
    exec (.watchdogKick (.mc c) c key) s = .next (s.after (
      let d1 := { d with flt := { d.flt with wdStreak := Tab.del d.flt.wdStreak c.val } }
      { d1 with flt := { d1.flt with wdAt := Tab.put d1.flt.wdAt c.val d1.now } }))) ∧
  (∀ (s : State) (d : Dev) (m : Master) (c : Fin 8) (key : Byte), s.dev.met = d →
    m.id ≠ 2 + c.val →
    exec (.watchdogKick m c key) s = .next (s.after (d.wr .FLT_WDSTAT_WRONG c.val 1))) ∧
  (∀ (s : State) (d : Dev) (after : Nat), s.dev.met.advance after = d →
    d.waitFrom .cricket + 625000 ≤ d.now →
    d.crkRuns = true →
    exec (.cricketToggle after) s = .next (s.after (
      let d0 : Dev := { d with timers := (d.timers.filter fun x => x.1 != .cricket) ++ [(.cricket, d.waitFrom .cricket + 625000)] }
      { d0 with flt := { d.flt with crk := !d.flt.crk } })))

/-- The event recorder, its pages and its NOR log. The recorder stores its next queued record or an owed LOST record, a bucket
gains a token up to its burst, pages close on time-out and flush, are programmed into erased space and erased ahead while the
log is on, and a firmware record of a valid code is stored with the data words its master has buffered. Where the spec leaves a
point open the clause follows the model's choice, log 17, 52. (17_faults_and_events R631, 17_faults_and_events R633,
17_faults_and_events R635, 17_faults_and_events R636, 17_faults_and_events R637, 17_faults_and_events R638, 17_faults_and_events
R639, 17_faults_and_events R643, 02_register_conventions R58) -/
def Obligations.EventRecorder : Prop :=
  (∀ (s : State) (d : Dev) (e : EvtIn) (q : List EvtIn), s.dev.met = d →
    d.evt.queue = e :: q →
    exec .eventStore s = .next (s.after ((({ d with evt := { d.evt with queue := q } }).storeOne e).checkSaved))) ∧
  (∀ (s : State) (d : Dev), s.dev.met = d →
    d.evt.queue = [] →
    exec .eventStore s = .next (s.after (d.storeLost))) ∧
  (∀ (s : State) (d : Dev) (n : Fin 41) (after : Nat), s.dev.met.advance after = d →
    d.waitFrom (.bucket n.val) + d.refillOf n.val * 1250000 ≤ d.now →
    exec (.tokenRefill (.src n) after) s = .next (s.after (
      let k := d.waitFrom (.bucket n.val) + d.refillOf n.val * 1250000
      let d0 : Dev := { d with timers := (d.timers.filter fun x => x.1 != .bucket n.val) ++ [(.bucket n.val, k)] }
      d0.setTokens n.val (min (d.burstOf n.val) (d.tokensOf n.val + 1))))) ∧
  (∀ (s : State) (d : Dev) (i : Fin 32) (after : Nat), s.dev.met.advance after = d →
    d.waitFrom (.bucket (128 + i.val)) + d.refillOf (128 + i.val) * 1250000 ≤ d.now →
    exec (.tokenRefill (.slot i) after) s = .next (s.after (
      let k := d.waitFrom (.bucket (128 + i.val)) + d.refillOf (128 + i.val) * 1250000
      let d0 : Dev := { d with timers := (d.timers.filter fun x => x.1 != .bucket (128 + i.val)) ++ [(.bucket (128 + i.val), k)] }
      d0.setTokens (128 + i.val) (min (d.burstOf (128 + i.val)) (d.tokensOf (128 + i.val) + 1))))) ∧
  (∀ (s : State) (d : Dev) (after : Nat), s.dev.met.advance after = d →
    d.waitFrom (.bucket 64) + d.refillOf 64 * 1250000 ≤ d.now →
    exec (.tokenRefill .default after) s = .next (s.after (
      let k := d.waitFrom (.bucket 64) + d.refillOf 64 * 1250000
      let d0 : Dev := { d with timers := (d.timers.filter fun x => x.1 != .bucket 64) ++ [(.bucket 64, k)] }
      d0.setTokens 64 (min (d.burstOf 64) (d.tokensOf 64 + 1))))) ∧
  (∀ (s : State) (d : Dev) (after : Nat), s.dev.met.advance after = d →
    d.waited .page (max 1 (d.rd .EVT_CFG_PAGETMO) * 1250000000) = false →
    exec (.pageTimeout after) s = .next (s.after (d))) ∧
  (∀ (s : State) (d : Dev) (after : Nat), s.dev.met.advance after = d →
    d.waited .page (max 1 (d.rd .EVT_CFG_PAGETMO) * 1250000000) = true →
    d.evt.page ≠ [] →
    exec (.pageTimeout after) s = .next (s.after (({ d with evt := { d.evt with page := [], closed := d.evt.closed ++ [d.evt.page] } }).endWait .page))) ∧
  (∀ (s : State) (d : Dev), s.dev.met = d →
    d.evt.page ≠ [] →
    exec .eventFlush s = .next (s.after (({ d with evt := { d.evt with page := [], closed := d.evt.closed ++ [d.evt.page] } }).endWait .page))) ∧
  (∀ (s : State) (d : Dev) (ok : Bool) (p : List Nat) (ps : List (List Nat)), s.dev.met = d →
    d.rd .SYS_STAT_HANDOVER ≠ 0 →
    d.rd .EVT_CTL_NORLOG ≠ 0 →
    256 ≤ d.rd .EVT_NORERASED_BYTES →
    d.spn.running = false →
    d.evt.closed = p :: ps →
    exec (.pageProgram ok) s = .next (s.after (
      let d1 := (d.emit (.norProgram (d.logAddr (d.rd .EVT_NORWP_OFFSET)) (d.pageWords p))).logStep
      if ok then ({ d1 with evt := { d1.evt with closed := ps } }).checkSaved else d1.wr .EVT_STAT_NORERR 0 1))) ∧
  (∀ (s : State) (d : Dev) (ok : Bool), s.dev.met = d →
    d.rd .SYS_STAT_HANDOVER ≠ 0 →
    d.rd .EVT_CTL_NORLOG ≠ 0 →
    d.rd .EVT_NORERASED_BYTES + 4096 ≤ d.logSize →
    d.spn.running = false →
    exec (.sectorErase ok) s = .next (s.after (
      let d1 := d.emit (.norErase (d.logAddr (d.rd .EVT_NORWP_OFFSET + d.rd .EVT_NORERASED_BYTES)) 4096)
      if ok then d1.wr .EVT_NORERASED_BYTES 0 (d.rd .EVT_NORERASED_BYTES + 4096) else d1.wr .EVT_STAT_NORERR 0 1))) ∧
  (∀ (s : State) (d : Dev) (on : Bool), s.dev.met = d →
    (on = true ∨ d.rd .SYS_STAT_HANDOVER = 0) →
    exec (.norLogEnable on) s = .next (s.after (d.wrb .EVT_CTL_NORLOG 0 on))) ∧
  (∀ (s : State) (d : Dev), s.dev.met = d →
    d.rd .SYS_STAT_HANDOVER ≠ 0 →
    exec (.norLogEnable false) s = .next (s.after (
      let d1 := d.wr .EVT_CTL_NORLOG 0 0
      ({ d1 with evt := { d1.evt with page := [], closed := [] } }).checkSaved))) ∧
  (∀ (s : State) (d : Dev) (m : Master) (w : Word), s.dev.met = d →
    0xC000 ≤ w.toNat % 65536 →
    exec (.firmwareRecord m w) s = .next (s.after (
      let x0 := d.loHalf m.id .EVT_SWDATA0 0
      let x1 := d.loHalf m.id .EVT_SWDATA1 0
      let x2 := d.loHalf m.id .EVT_SWDATA2 0
      let d1 := ((d.dropLo m.id .EVT_SWDATA0 0).dropLo m.id .EVT_SWDATA1 0).dropLo m.id .EVT_SWDATA2 0
      let d1 := ((d1.wr .EVT_SWDATA0_DATA 0 x0).wr .EVT_SWDATA1_DATA 0 x1).wr .EVT_SWDATA2_DATA 0 x2
      let d1 := (d1.wr .EVT_SWCODE_INST 0 (bits w.toNat 24 8)).wr .EVT_SWCODE_CODE 0 (w.toNat % 65536)
      d1.record (w.toNat % 65536) (bits w.toNat 24 8) m.id 7 false false false x0 x1 x2))) ∧
  (∀ (s : State) (d : Dev) (m : Master) (w : Word), s.dev.met = d →
    w.toNat % 65536 < 0xC000 →
    exec (.firmwareRecord m w) s = .next (s.after ((((d.dropLo m.id .EVT_SWDATA0 0).dropLo m.id .EVT_SWDATA1 0).dropLo m.id .EVT_SWDATA2 0).wr .EVT_STAT_BADCODE 0 1)))

/-- Starting, stopping and running the DMA channels. START takes an idle channel to RUN at its descriptor address, STOP ends or
drains it, RESUME continues a halted one; a descriptor is fetched and checked, a pace event moves a block, waits or is dropped,
a finished descriptor writes its status, and a bus error is recorded and halts the channels. Where the spec leaves a point open
the clause follows the model's choice, log 17, 45, 46, 81. (14_memory_and_dma R533, 14_memory_and_dma R534, 14_memory_and_dma
R535, 14_memory_and_dma R537, 14_memory_and_dma R538, 14_memory_and_dma R539, 14_memory_and_dma R540) -/
def Obligations.DmaChannels : Prop :=
  (∀ (s : State) (d : Dev) (m : Master) (c : Fin 64), s.dev.met = d →
    d.rd .DMA_CSTAT_STATE c.val = 0 →
    d.rd .DMA_STAT_BERR = 0 →
    d.rd .DMA_CTL_ENABLE ≠ 0 →
    exec (.dmaStart m c) s = .next (s.after (
      let a := d.rd .DMA_CDESCLO_ADDR c.val * 32 + d.rd .DMA_CDESCHI_ADDR c.val * 2 ^ 32
      (d.setDmaCh c.val { desc := a, master := m.id }).wr .DMA_CSTAT_STATE c.val 1))) ∧
  (∀ (s : State) (d : Dev) (m : Master) (c : Fin 64), s.dev.met = d →
    d.rd .DMA_CSTAT_STATE c.val ≠ 0 →
    exec (.dmaStart m c) s = .next (s.after (d.wr .DMA_CSTAT_CFGIGN c.val 1))) ∧
  (∀ (s : State) (d : Dev) (c : Fin 64), s.dev.met = d →
    d.rd .DMA_CSTAT_STATE c.val = 3 →
    exec (.dmaStop c) s = .next (s.after ((d.wr .DMA_CSTAT_STATE c.val 0).wr .DMA_CSTAT_STOPPED c.val 1))) ∧
  (∀ (s : State) (d : Dev) (c : Fin 64), s.dev.met = d →
    d.rd .DMA_CSTAT_STATE c.val = 1 →
    (d.dmaCh c.val).moved ≠ 0 →
    exec (.dmaStop c) s = .next (s.after (d.wr .DMA_CSTAT_STATE c.val 2))) ∧
  (∀ (s : State) (d : Dev) (c : Fin 64), s.dev.met = d →
    d.rd .DMA_CSTAT_STATE c.val = 3 →
    d.rd .DMA_STAT_BERR = 0 →
    exec (.dmaResume c) s = .next (s.after (d.wr .DMA_CSTAT_STATE c.val 1))) ∧
  (∀ (s : State) (d : Dev) (c : Fin 64), s.dev.met = d →
    d.rd .DMA_CSTAT_STATE c.val ≠ 3 →
    exec (.dmaResume c) s = .next (s.after (d.wr .DMA_CSTAT_CFGIGN c.val 1))) ∧
  (∀ (s : State) (d : Dev) (c : Fin 64), s.dev.met = d →
    d.dmaRuns c.val = true →
    (d.dmaCh c.val).words = [] →
    (arrayOf (d.dmaCh c.val).desc = 0 ∨ arrayOf (d.dmaCh c.val).desc = 5) →
    (d.readCheck reqDma (d.dmaCh c.val).desc 32).2 = true →
    exec (.descriptorFetch c) s = .next (s.after (
      let x := d.dmaCh c.val
      let r := (d.readCheck reqDma x.desc 32).1
      let y : DmaCh := { x with words := (List.range 8).map fun (k : Nat) => r.ld32 (x.desc + 4 * k), moved := 0 }
      if y.bad then
        (((r.wr .DMA_CSTAT_DESCERR c.val 1).dmaFlag c.val .DMA_CSTAT_ERR .DMA_CCFG_IEERR).wr .DMA_CSTAT_STATE c.val 0).setDmaCh c.val
          { y with words := [] }
      else r.setDmaCh c.val y))) ∧
  (∀ (s : State) (d : Dev) (c : Fin 64) (after : Nat), s.dev.met.advance after = d →
    d.dmaRuns c.val = true →
    d.rd .DMA_CCFG_PACE c.val ≠ 0 →
    d.dmaUnpaced c.val = false →
    d.dmaPaced c.val = true →
    exec (.paceEvent c .idle after) s = .next (s.after ((d.beginWait (.pace c.val)).dmaMove c.val (4 * max 1 (d.rd .DMA_CCFG_BLK c.val))))) ∧
  (∀ (s : State) (d : Dev) (c : Fin 64) (after : Nat), s.dev.met.advance after = d →
    d.dmaRuns c.val = true →
    d.rd .DMA_CCFG_PACE c.val ≠ 0 →
    d.dmaUnpaced c.val = false →
    d.dmaPaced c.val = true →
    (d.dmaCh c.val).wait = false →
    exec (.paceEvent c .busy after) s = .next (s.after ((d.beginWait (.pace c.val)).setDmaCh c.val { d.dmaCh c.val with wait := true }))) ∧
  (∀ (s : State) (d : Dev) (c : Fin 64) (after : Nat), s.dev.met.advance after = d →
    d.dmaRuns c.val = true →
    d.rd .DMA_CCFG_PACE c.val ≠ 0 →
    d.dmaUnpaced c.val = false →
    d.dmaPaced c.val = true →
    (d.dmaCh c.val).wait = true →
    exec (.paceEvent c .busy after) s = .next (s.after ((d.beginWait (.pace c.val)).wr .DMA_CSTAT_PACEOVR c.val 1))) ∧
  (∀ (s : State) (d : Dev) (c : Fin 64) (after : Nat), s.dev.met.advance after = d →
    d.dmaRuns c.val = true →
    d.rd .DMA_CCFG_PACE c.val ≠ 0 →
    d.dmaUnpaced c.val = false →
    (d.dmaCh c.val).wait = true →
    exec (.paceEvent c .served after) s = .next (s.after ((d.setDmaCh c.val { d.dmaCh c.val with wait := false }).dmaMove c.val (4 * max 1 (d.rd .DMA_CCFG_BLK c.val))))) ∧
  (∀ (s : State) (d : Dev) (c : Fin 64), s.dev.met = d →
    d.dmaRuns c.val = true →
    d.rd .DMA_CCFG_PACE c.val ≠ 0 →
    (d.dmaCh c.val).words ≠ [] →
    (d.dmaCh c.val).left = 0 →
    d.rd .DMA_CSTAT_STATE c.val = 1 →
    d.rd .DMA_CCFG_MODE c.val ≠ 1 →
    (d.dmaCh c.val).last = true →
    exec (.descriptorEnd c) s = .next (s.after (((d.mstN ((d.dmaCh c.val).desc + 28) 0x80000000 4).dmaFlag c.val .DMA_CSTAT_DONE .DMA_CCFG_IEDONE).wr .DMA_CSTAT_STATE c.val 0))) ∧
  (∀ (s : State) (d : Dev) (c : Fin 64) (n : Nat) (write : Bool), s.dev.met = d →
    d.dmaRuns c.val = true →
    (d.dmaMove c.val (min n (d.dmaCh c.val).left)).dmaRuns c.val = true →
    ((d.dmaMove c.val (min n (d.dmaCh c.val).left)).dmaCh c.val).words ≠ [] →
    exec (.dmaBusError c n write) s = .next (s.after (
      let d1 := d.dmaMove c.val (min n (d.dmaCh c.val).left)
      let x := d1.dmaCh c.val
      if write then d1.dmaBusError c.val (if x.dfix then x.dst else x.dst + x.moved) true
      else d1.dmaBusError c.val (if x.sfix then x.src else x.src + x.moved) false))) ∧
  (∀ (s : State) (d : Dev), s.dev.met = d →
    d.dma.failed = true →
    exec (.dmaHalt []) s = .next (s.after (
      let d1 := (List.range 64).foldl (fun x c => if x.dmaState c = 1 ∨ x.dmaState c = 2 then x.wr .DMA_CSTAT_STATE c 3 else x) d
      { d1 with dma := { d1.dma with failed := false } })))

/-- What a management core's fetches, loads, stores and atomic operations do. A load returns the bytes of memory, a store writes
them, an atomic operation does both, a fetch returns the bytes of its line; an access that ends in a bus error faults, and a
store then records it and raises a local interrupt. The results of atomic operations are the model's, log 6. Where the spec
leaves a point open the clause follows the model's choice, log 47, 81. (14_memory_and_dma R518, 14_memory_and_dma R519,
14_memory_and_dma R520, 14_memory_and_dma R526, 14_memory_and_dma R528) -/
def Obligations.CoreAccesses : Prop :=
  (∀ (s : State) (d : Dev) (c : Fin 8) (a : BitVec 40) (size : Fin 4) (v : BitVec 64) (err : Option MemErr), s.dev.met = d →
    arrayOf a.toNat ≠ 7 →
    (d.readMem (coreMaster c) a.toNat (2 ^ size.val) err).2 = true →
    exec (.coreMemoryAccess c .load a size v err) s = .next (s.after (
      let r := (d.readMem (coreMaster c) a.toNat (2 ^ size.val) err).1
      r.emit (.data (coreMaster c) (r.ldN a.toNat (2 ^ size.val)))))) ∧
  (∀ (s : State) (d : Dev) (c : Fin 8) (a : BitVec 40) (size : Fin 4) (v : BitVec 64) (err : Option MemErr), s.dev.met = d →
    arrayOf a.toNat ≠ 7 →
    (d.readMem (coreMaster c) a.toNat (2 ^ size.val) err).2 = false →
    exec (.coreMemoryAccess c .load a size v err) s = .next (s.after ((d.readMem (coreMaster c) a.toNat (2 ^ size.val) err).1.emit (.coreFault c.val 5)))) ∧
  (∀ (s : State) (d : Dev) (c : Fin 8) (a : BitVec 40) (size : Fin 4) (v : BitVec 64) (err : Option MemErr), s.dev.met = d →
    arrayOf a.toNat ≠ 7 →
    d.rangeExists a.toNat (2 ^ size.val) = true →
    exec (.coreMemoryAccess c .store a size v err) s = .next (s.after (d.mstN a.toNat v.toNat (2 ^ size.val)))) ∧
  (∀ (s : State) (d : Dev) (c : Fin 8) (a : BitVec 40) (size : Fin 4) (v : BitVec 64) (err : Option MemErr), s.dev.met = d →
    arrayOf a.toNat ≠ 7 →
    d.rangeExists a.toNat (2 ^ size.val) = false →
    exec (.coreMemoryAccess c .store a size v err) s = .next (s.after (
      let d1 := ((d.wr .MEM_STAT_BERR 0 1).wr .MEM_BERRLO_ADDR 0 a.toNat).wr .MEM_BERRHI_ADDR 0 (a.toNat / 2 ^ 32)
      (d1.wr .MEM_BERRHI_MASTER 0 (coreMaster c)).emit (.coreIrq c.val 16)))) ∧
  (∀ (s : State) (d : Dev) (c : Fin 8) (op : CoreAmo) (a : BitVec 40) (size : Fin 4) (v : BitVec 64) (err : Option MemErr), s.dev.met = d →
    arrayOf a.toNat ≠ 7 →
    (d.readMem (coreMaster c) a.toNat (2 ^ size.val) err).2 = true →
    exec (.coreMemoryAccess c (.amo op) a size v err) s = .next (s.after (
      let r := (d.readMem (coreMaster c) a.toNat (2 ^ size.val) err).1
      let o := r.ldN a.toNat (2 ^ size.val)
      (r.mstN a.toNat (amoResult op (2 ^ size.val) o (v.toNat % 2 ^ (8 * 2 ^ size.val))) (2 ^ size.val)).emit (.data (coreMaster c) o)))) ∧
  (∀ (s : State) (d : Dev) (c : Fin 8) (a : BitVec 40) (size : Fin 4) (v : BitVec 64) (err : Option MemErr), s.dev.met = d →
    d.memExists (l1Line a.toNat) = true →
    d.rd .MEM_L1CTL_IEN c.val = 0 →
    (d.readMem (coreMaster c) (l1Line a.toNat) 64 err).2 = true →
    exec (.coreMemoryAccess c .fetch a size v err) s = .next (s.after (
      let r := (d.readMem (coreMaster c) (l1Line a.toNat) 64 err).1
      let bs := ((r.ldBytes (l1Line a.toNat) 64).drop (a.toNat % 64)).take (2 ^ size.val)
      r.emit (.data (coreMaster c) (bs.foldr (fun b v => b.toNat + 256 * v) 0))))) ∧
  (∀ (s : State) (d : Dev) (c : Fin 8) (a : BitVec 40) (size : Fin 4) (v : BitVec 64) (err : Option MemErr), s.dev.met = d →
    d.memExists (l1Line a.toNat) = false →
    exec (.coreMemoryAccess c .fetch a size v err) s = .next (s.after (d.emit (.coreFault c.val 1))))

/-- Reservation requests, overlap, grants, track locks and ageing. A request of a proper size for a known command waits, and
another is answered with an error; clearing overlap lets a command's requests wait for granules; the first cleared request is
granted where it fits; the first job that waits for a free lock gets it; a HOST command and an INTERNAL job age. Where the spec
leaves a point open the clause follows the model's choice, log 17, 39, 41. (13_scheduler R467, 13_scheduler R471, 13_scheduler
R473, 13_scheduler R474, 13_scheduler R476, 13_scheduler R477, 13_scheduler R490, 02_register_conventions R58) -/
def Obligations.Reservations : Prop :=
  (∀ (s : State) (d : Dev) (m : Master) (w : Word), s.dev.met = d →
    bits w.toNat 0 6 ≠ 0 →
    bits w.toNat 0 6 ≤ 32 →
    (bit w.toNat 7 = true ∨ (d.ovlOf (d.loHalf m.id .SCH_RQLO 0)).isSome = true) →
    exec (.reservationRequest m w) s = .next (s.after (
      let d1 := d.dropLo m.id .SCH_RQLO 0
      let r : ResReq :=
        { master := m.id, tag := bits w.toNat 8 8, gran := bits w.toNat 0 6, fseq := d.loHalf m.id .SCH_RQLO 0, order := d.sch.order,
          internal := bit w.toNat 7, cleared := bit w.toNat 7 }
      { d1 with sch := { d1.sch with reqs := d.sch.reqs ++ [r], order := d.sch.order + 1 } }))) ∧
  (∀ (s : State) (d : Dev) (m : Master) (w : Word), s.dev.met = d →
    bits w.toNat 0 6 = 0 →
    exec (.reservationRequest m w) s = .next (s.after ((d.dropLo m.id .SCH_RQLO 0).resReply m.id (bits w.toNat 8 8) 0 0 true))) ∧
  (∀ (s : State) (d : Dev) (f : BitVec 32), s.dev.met = d →
    d.clears f.toNat = true →
    exec (.overlapClear f) s = .next (s.after (
      let mark (r : ResReq) : ResReq := if !r.internal && r.fseq == f.toNat then { r with cleared := true } else r
      { d with sch := { d.sch with reqs := d.sch.reqs.map mark } }))) ∧
  (∀ (s : State) (d : Dev) (f : BitVec 32), s.dev.met = d →
    d.clears f.toNat = false →
    exec (.overlapClear f) s = .next (s.after (d))) ∧
  (∀ (s : State) (d : Dev) (r : ResReq) (base handle : Nat), s.dev.met = d →
    d.rd .SCH_STAT_STATE ≠ 8 →
    bestOf d.reqBefore (d.sch.reqs.filter ResReq.cleared) = some r →
    d.firstFit r.gran = some base →
    d.freeHandle r.internal = some handle →
    d.granulesAllow r.internal r.gran = true →
    exec .reservationGrant s = .next (s.after (
      let v : Resv := { handle := handle, base := base, gran := r.gran, fseq := r.fseq, internal := r.internal, aged := false }
      let d1 := { d with sch := { d.sch with reqs := d.sch.reqs.erase r, resv := d.sch.resv ++ [v] } }
      let d1 := if r.internal then d1.beginWait (.resv handle) else d1
      d1.resReply r.master r.tag handle (d1.rd .SCH_BUFLO_ADDR + d1.rd .SCH_BUFHI_ADDR * 2 ^ 16 + base) false))) ∧
  (∀ (s : State) (d : Dev) (surf : Fin 32) (track : Fin 1048576) (x : SJob), s.dev.met = d →
    d.rd .SCH_STAT_STATE ≠ 8 →
    Tab.look d.sch.locks (lockKey surf.val track.val) = none →
    bestOf d.lockBefore (d.sch.jobs.filter fun x => x.ready.isNone && x.job.surf == surf.val && x.job.track == track.val && d.lockable x.job && (x.job.kind != 1 || (d.on .CFG_STAT_RESTORED && d.dataReady x.job))) = some x →
    x.job.kind ≠ 1 →
    exec (.trackLockGrant surf track) s = .next (s.after (({ d with sch := { d.sch with locks := Tab.put d.sch.locks (lockKey surf.val track.val) (d.lockBy x.job) } }).makeReady x.job))) ∧
  (∀ (s : State) (d : Dev) (f : BitVec 32) (o : Ovl) (after : Nat), s.dev.met.advance after = d →
    d.ovlOf f.toNat = some o →
    o.rank ≠ 0 →
    o.time + d.rd .SCH_AGE_LIMIT * 12500000 ≤ d.now →
    exec (.agePromotion (.host f) after) s = .next (s.after (
      let ovl := d.sch.ovl.map fun (e : Ovl) => if e.fseq == f.toNat then { e with promoted := true } else e
      ({ d with sch := { d.sch with ovl := ovl } }).count .SCH_CNT_PROMOTED))) ∧
  (∀ (s : State) (d : Dev) (k : Nat) (after : Nat), s.dev.met.advance after = d →
    d.waited (.resv k) (d.rd .SCH_AGE_INTAGE * 1250000000) = true →
    exec (.agePromotion (.internal k) after) s = .next (s.after ({ d with sch := { d.sch with resv := d.sch.resv.map fun r => if r.internal && r.handle == k then { r with aged := true } else r } })))

/-- Dispatch, seeks, calibration windows and joining. The next job that can be dispatched gets its slot, pair, target, angle and
guarantee load; with none, SCH acts for itself; a job that does not fit starts a seek when its actuator is idle and power
allows; requests are submitted, counted, forced, granted and ended as R498 and R499 say; a joining unit enters SERVICE. Where
the spec leaves a point open the clause follows the model's choice, log 3, 39, 40, 41, 42, 86, 95. (13_scheduler R469,
13_scheduler R480, 13_scheduler R481, 13_scheduler R483, 13_scheduler R485, 13_scheduler R486, 13_scheduler R487, 13_scheduler
R488, 13_scheduler R498, 13_scheduler R499, 13_scheduler R506, 16_health_and_ageing R600) -/
def Obligations.DispatchAndCalibration : Prop :=
  (∀ (s : State) (d : Dev) (x : SJob) (a q m : Nat), s.dev.met = d →
    d.nextDispatch = some (x, a, q, m) →
    exec .jobDispatch s = .next (s.after (
      let hd := 32 * a + x.job.surf
      let gl := (d.loadOf x).getD 0
      let k : Job := match d.zoneOf x.job.surf x.job.track with | some z => d.withZone x.job z | none => x.job
      let j : Job := { k with head := hd, pair := m, start := d.startAngle x a, urg := d.jobRank x == 0, gl := gl }
      let d1 := ((d.noteWait x).dropJob x).recovTake x.job
      let d1 := { d1 with sch := { d1.sch with turn := a }, hlt := { d1.hlt with jobFirst := d1.hlt.jobFirst.filter (· != j.desc) } }
      let d1 := (d1.grantLanes q hd m j.kind j.spr).grantTarget hd j.track (j.kind == 1)
      let d1 := (d1.setAct a { d1.act a with ref := none }).wr .SRV_HSTAT_BOUND hd 1
      let d1 := (d1.armSelect q x.job.surf (j.kind == 1)).wr .SCH_ACORN_LOAD 0
        ((d1.armSelect q x.job.surf (j.kind == 1)).rd .SCH_ACORN_LOAD + gl)
      (d1.wrBit .SCH_ASTAT_BUSY a (q % 8) true).loadSeq q j))) ∧
  (∀ (s : State) (d : Dev), s.dev.met = d →
    d.nextDispatch = none →
    exec .jobDispatch s = .next (s.after (d.schAct))) ∧
  (∀ (s : State) (d : Dev) (a : Fin 4) (x : SJob), s.dev.met = d →
    d.schRuns = true →
    d.actIdle a.val = true →
    d.rd .SRV_STAT_MODE a.val = 2 →
    d.seekJob a.val = some x →
    ({ d with sch := { d.sch with seekFor := Tab.put d.sch.seekFor a.val x.job.order } } : Dev).movePower = true →
    ({ d with sch := { d.sch with seekFor := Tab.put d.sch.seekFor a.val x.job.order } } : Dev).powerTurn x = true →
    exec (.seekGrant a) s = .next (s.after (
      let hd := 32 * a.val + x.job.surf
      let d1 := { d with sch := { d.sch with seekFor := Tab.put d.sch.seekFor a.val x.job.order } }
      let d1 := { d1 with sch := { d1.sch with drainFor := Tab.del d1.sch.drainFor a.val } }
      ((d1.setAct a.val { d1.act a.val with ref := some hd }).vcmTarget a.val x.job.track).grantTarget hd x.job.track (x.job.kind == 1)))) ∧
  (∀ (s : State) (d : Dev) (x : Nat × Nat), s.dev.met = d →
    bestOf (fun (x y : Nat × Nat) => decide (calRank x.2 < calRank y.2)) (d.hlt.calReq.filter fun c => !(d.sch.cal.any fun r => r.head == c.1)) = some x →
    exec .calibrationRequest s = .next (s.after ({ d with sch := { d.sch with cal := d.sch.cal ++ [{ head := x.1, cause := x.2, waited := 0, granted := false }] } }))) ∧
  (∀ (s : State) (d : Dev) (r : CalReq) (after : Nat), s.dev.met.advance after = d →
    d.indexSince (d.waitFrom .take) = true →
    (d.beginWait .take).countIndex.forcePick = some r →
    exec (.forcedTake after) s = .next (s.after (
      let d0 := (d.beginWait .take).countIndex
      { d0 with sch := { d0.sch with forced := Tab.put d0.sch.forced (actOfHead r.head) r.head } }))) ∧
  (∀ (s : State) (d : Dev) (a : Fin 4) (k : Nat) (r : CalReq) (after : Nat), s.dev.met.advance after = d →
    Tab.look d.sch.forced a.val = some k →
    d.indexSince (d.drainedAt a.val) = true →
    d.actIdle a.val = true →
    d.sch.revOn.contains a.val = false →
    (d.sch.cal.find? fun r => r.head == k) = some r →
    exec (.forcedRevolutionStart a after) s = .next (s.after (
      let d0 := (d.endWait (.drained a.val)).beginWait (.forced a.val)
      (({ d0 with sch := { d.sch with revOn := d.sch.revOn ++ [a.val] } }).count .SCH_CNT_FORCED).calGrant r))) ∧
  (∀ (s : State) (d : Dev) (a : Fin 4) (after : Nat), s.dev.met.advance after = d →
    d.indexSince (d.waitFrom (.forced a.val)) = true →
    d.sch.revOn.contains a.val = true →
    exec (.forcedRevolutionEnd a after) s = .next (s.after (
      let cal (q : Nat) : Bool := ((d.seq q).job.map fun j => j.kind == 2).getD false
      let d1 := ((d.busySlots a.val).filter cal).foldl (fun x q => x.abandon q 1) d
      { d1 with sch := { d1.sch with forced := Tab.del d1.sch.forced a.val, revOn := d1.sch.revOn.filter (· != a.val), forceAt := Tab.put d1.sch.forceAt a.val d1.now } }))) ∧
  (∀ (s : State) (d : Dev) (n : Fin 64) (after : Nat), s.dev.met.advance after = d →
    d.indexSince (d.waitFrom (.joining (.lane n))) = true →
    d.rd .LANE_STAT_STATE n.val = unitJoin →
    exec (.unitJoin (.lane n) after) s = .next (s.after ((d.endWait (.joining (.lane n))).laneState n.val unitServ))) ∧
  (∀ (s : State) (d : Dev) (n : Fin 128) (after : Nat), s.dev.met.advance after = d →
    d.indexSince (d.waitFrom (.joining (.head n))) = true →
    d.rd .SRV_HSTAT_STATE n.val = unitJoin →
    exec (.unitJoin (.head n) after) s = .next (s.after ((d.endWait (.joining (.head n))).wr .SRV_HSTAT_STATE n.val unitServ)))

/-- Enabling, spin-up, Cicada idle and waking. Enabling starts a stopped drive; a token or the end of the solo delay starts the
spindle with its grant; INRANGE loads the heads and a time-out stops the drive; an idling drive reaches CICADA when it is parked
and wakes when a cause stands. Where the spec leaves a point open the clause follows the model's choice, log 41, 42, 43, 93.
(13_scheduler R497, 13_scheduler R501, 13_scheduler R502, 13_scheduler R503, 16_health_and_ageing R595) -/
def Obligations.DriveStates : Prop :=
  (∀ (s : State) (d : Dev), s.dev.met = d →
    d.rd .SCH_STAT_STATE ≠ 0 →
    exec (.schEnable true) s = .next (s.after (d.wr .SCH_CTL_ENABLE 0 1))) ∧
  (∀ (s : State) (d : Dev), s.dev.met = d →
    d.rd .SCH_STAT_STATE = 0 →
    d.rd .SPN_STAT_INRANGE = 0 →
    d.rd .SPN_MEAS_SPEED < 90000 →
    exec (.schEnable true) s = .next (s.after (((d.wr .SCH_CTL_ENABLE 0 1).toSch 1).askToken))) ∧
  (∀ (s : State) (d : Dev) (on : Bool), s.dev.met = d →
    exec (.schHold on) s = .next (s.after (d.wr .SCH_CTL_HOLD 0 (if on then 1 else 0)))) ∧
  (∀ (s : State) (d : Dev), s.dev.met = d →
    d.rd .SCH_STAT_STATE = 8 →
    exec .schRestart s = .next (s.after (d.toSch 0))) ∧
  (∀ (s : State) (d : Dev), s.dev.met = d →
    d.rd .SCH_STAT_STATE ≠ 8 →
    exec .schRestart s = .next (s.after (d))) ∧
  (∀ (s : State) (d : Dev), s.dev.met = d →
    d.rd .SCH_STAT_STATE = 1 →
    d.rck.hold = true →
    d.sch.spin = false →
    exec .tokenObtained s = .next (s.after (
      let d1 := { d with sch := { d.sch with spin := true, charge := true }, rck := { d.rck with alone := false } }
      let d1 := ((d1.speedTarget (d1.rd .SCH_SPIN_TARGET)).spnGrant (d.rd .SCH_SPNGRANT_SPINMA)).beginWait .spinup
      if d1.rd .SCH_STAT_STATE = 1 then d1.toSch 2 else d1))) ∧
  (∀ (s : State) (d : Dev), s.dev.met = d →
    d.sch.spin = true →
    d.rd .SPN_STAT_INRANGE ≠ 0 →
    exec .spindleInrange s = .next (s.after (
      let d1 := (({ d with sch := { d.sch with spin := false } }).releaseToken).spnGrant (d.rd .SCH_SPNGRANT_RUNMA)
      let d1 := d1.toSch 3
      (List.range 4).foldl Dev.askLoad (if d.flt.wdHold.isSome then d1.cicadaExit else d1)))) ∧
  (∀ (s : State) (d : Dev) (after : Nat), s.dev.met.advance after = d →
    d.sch.spin = true →
    d.rd .SPN_STAT_INRANGE = 0 →
    d.waited .spinup (d.rd .SCH_SOLO_SPINTO * 1250000000) = true →
    exec (.spinupTimeout after) s = .next (s.after (
      let d1 := { d with sch := { d.sch with spin := false, charge := false } }
      (((d1.raise 24 0 (d1.word .SPN_MEAS)).spnGrant 0).releaseToken).toSch 0))) ∧
  (∀ (s : State) (d : Dev), s.dev.met = d →
    d.rd .SCH_STAT_STATE = 5 →
    d.sch.wake = false →
    d.allParked = true →
    d.itb.ctx = [] →
    exec .cicadaReached s = .next (s.after (
      let d1 := { d with flt := { d.flt with wdHold := some d.now } }
      (d1.unitsOff.speedTarget 180000).toSch 6))) ∧
  (∀ (s : State) (d : Dev), s.dev.met = d →
    d.sch.wake = true →
    d.rd .SCH_STAT_STATE = 6 →
    exec .cicadaWake s = .next (s.after ((d.toSch 7).askToken))) ∧
  (∀ (s : State) (d : Dev), s.dev.met = d →
    d.sch.wake = true →
    d.rd .SCH_STAT_STATE = 5 →
    d.allParked = true →
    exec .cicadaWake s = .next (s.after ((List.range 4).foldl Dev.askLoad (({ d with sch := { d.sch with wake := false } }).toSch 3)))) ∧
  (∀ (s : State) (d : Dev), s.dev.met = d →
    d.rd .SCH_STAT_STATE = 6 →
    d.wantsWake = true →
    exec .hltWake s = .next (s.after ({ d with sch := { d.sch with wake := true } })))

/-- What a valid frame of another node does. A valid frame of another node lowers the receive error counter; an ALERT pauses
grants, a BEACON of the master gives the phase, a TOKGRANT for the waiting request grants the token, a steward queues a TOKREQ,
TOKHOLD and TOKREL keep the tokens held, HELLO keeps the nodes heard, and a DIGEST changes nothing else. Where the spec leaves a
point open the clause follows the model's choice, log 60. (19_service_and_rack R688, 19_service_and_rack R690,
19_service_and_rack R692, 19_service_and_rack R693, 19_service_and_rack R694, 19_service_and_rack R701) -/
def Obligations.RackFramesReceived : Prop :=
  (∀ (s : State) (d : Dev) (src : Fin 512), s.dev.met = d →
    d.rd .RCK_CTL_ENABLE ≠ 0 →
    d.rd .RCK_STAT_BUSOFF = 0 →
    src.val ≠ d.rd .RCK_CFG_NODE →
    d.rd .RCK_STAT_SOLO = 0 →
    exec (.alertReceive src) s = .next (s.after (
      let d1 := { d with rck := { d.rck with rxerr := min 127 (d.rck.rxerr - 1) } }
      { d1 with rck := { d1.rck with alertAt := some d.now } }))) ∧
  (∀ (s : State) (d : Dev) (src : Fin 512) (x : BitVec 24) (num : Byte), s.dev.met = d →
    d.rd .RCK_CTL_ENABLE ≠ 0 →
    d.rd .RCK_STAT_BUSOFF = 0 →
    src.val ≠ d.rd .RCK_CFG_NODE →
    d.rd .RCK_STAT_SOLO = 0 →
    d.rck.master = some src.val →
    d.rck.taken = none →
    exec (.beaconReceive src x num) s = .next (s.after (
      let d1 := { d with rck := { d.rck with rxerr := min 127 (d.rck.rxerr - 1) } }
      { d1 with rck := { d1.rck with taken := some { num := num.toNat, frac := d.ang.val % rev, cycle := d.now, prev := none } } }))) ∧
  (∀ (s : State) (d : Dev) (src : Fin 512) (x : BitVec 24) (num : Byte) (t : Beacon), s.dev.met = d →
    d.rd .RCK_CTL_ENABLE ≠ 0 →
    d.rd .RCK_STAT_BUSOFF = 0 →
    src.val ≠ d.rd .RCK_CFG_NODE →
    d.rd .RCK_STAT_SOLO = 0 →
    d.rck.master = some src.val →
    d.rck.taken = some t →
    (t.num + 1) % 256 = num.toNat →
    exec (.beaconReceive src x num) s = .next (s.after (
      let d1 := { d with rck := { d.rck with rxerr := min 127 (d.rck.rxerr - 1) } }
      let d1 := { d1 with rck := { d1.rck with taken := some { num := num.toNat, frac := d.ang.val % rev, cycle := d.now, prev := some t.cycle } } }
      (d1.count .RCK_CNT_MARKERS).phaseMarker (subMod 24 t.frac x.toNat) (t.prev.map fun p => t.cycle - p)))) ∧
  (∀ (s : State) (d : Dev) (src dst : Fin 512) (seq : BitVec 16), s.dev.met = d →
    d.rd .RCK_CTL_ENABLE ≠ 0 →
    d.rd .RCK_STAT_BUSOFF = 0 →
    src.val ≠ d.rd .RCK_CFG_NODE →
    d.rd .RCK_STAT_SOLO = 0 →
    dst.val = d.rd .RCK_CFG_NODE →
    src.val = d.steward →
    seq.toNat = d.rck.seq →
    exec (.tokgrantReceive src dst seq) s = .next (s.after (({ d with rck := { d.rck with rxerr := min 127 (d.rck.rxerr - 1) } } : Dev).tokTake))) ∧
  (∀ (s : State) (d : Dev) (src : Fin 512) (seq : BitVec 16), s.dev.met = d →
    d.rd .RCK_CTL_ENABLE ≠ 0 →
    d.rd .RCK_STAT_BUSOFF = 0 →
    src.val ≠ d.rd .RCK_CFG_NODE →
    d.rd .RCK_STAT_SOLO = 0 →
    d.isSteward = true →
    exec (.tokreqReceive src seq) s = .next (s.after (({ d with rck := { d.rck with rxerr := min 127 (d.rck.rxerr - 1) } } : Dev).stewardQueue src.val seq.toNat))) ∧
  (∀ (s : State) (d : Dev) (src : Fin 512), s.dev.met = d →
    d.rd .RCK_CTL_ENABLE ≠ 0 →
    d.rd .RCK_STAT_BUSOFF = 0 →
    src.val ≠ d.rd .RCK_CFG_NODE →
    d.rd .RCK_STAT_SOLO = 0 →
    d.rck.holds.contains src.val = false →
    exec (.tokholdReceive src) s = .next (s.after (
      let d1 := { d with rck := { d.rck with rxerr := min 127 (d.rck.rxerr - 1) } }
      let d1 := d1.beginWait (.holder src.val)
      { d1 with rck := { d1.rck with holds := d.rck.holds ++ [src.val] } }))) ∧
  (∀ (s : State) (d : Dev) (src : Fin 512), s.dev.met = d →
    d.rd .RCK_CTL_ENABLE ≠ 0 →
    d.rd .RCK_STAT_BUSOFF = 0 →
    src.val ≠ d.rd .RCK_CFG_NODE →
    d.rd .RCK_STAT_SOLO = 0 →
    exec (.tokrelReceive src) s = .next (s.after (
      let d1 := { d with rck := { d.rck with rxerr := min 127 (d.rck.rxerr - 1) } }
      ({ d1 with rck := { d1.rck with holds := d.rck.holds.filter (· != src.val) } }).endWait (.holder src.val)))) ∧
  (∀ (s : State) (d : Dev) (src : Fin 512) (flags : Byte), s.dev.met = d →
    d.rd .RCK_CTL_ENABLE ≠ 0 →
    d.rd .RCK_STAT_BUSOFF = 0 →
    src.val ≠ d.rd .RCK_CFG_NODE →
    d.rd .RCK_STAT_SOLO = 0 →
    exec (.helloReceive src flags) s = .next (s.after (
      let d1 := { d with rck := { d.rck with rxerr := min 127 (d.rck.rxerr - 1) } }
      let d2 := { d1 with rck := { d1.rck with heard := Tab.put d.rck.heard src.val flags.toNat } }
      (d2.beginWait (.heard src.val)).stewardMoved d1.steward))) ∧
  (∀ (s : State) (d : Dev) (src : Fin 512), s.dev.met = d →
    d.rd .RCK_CTL_ENABLE ≠ 0 →
    d.rd .RCK_STAT_BUSOFF = 0 →
    src.val ≠ d.rd .RCK_CFG_NODE →
    d.rd .RCK_STAT_SOLO = 0 →
    exec (.digestReceive src) s = .next (s.after ({ d with rck := { d.rck with rxerr := min 127 (d.rck.rxerr - 1) } })))

/-- Sending, bus errors, the steward, RACK_ALERT and the beacon master. The first queued frame is sent, repeated or dropped as
R695 to R697 say; the timers send HELLO, a repeated request and TOKHOLD; a node not heard is forgotten, the steward grants when
it may, a foreign alert pauses grants, and the beacon master sends BEACON. Where the spec leaves a point open the clause follows
the model's choice, log 3, 17, 60. (19_service_and_rack R688, 19_service_and_rack R691, 19_service_and_rack R692,
19_service_and_rack R693, 19_service_and_rack R694, 19_service_and_rack R695, 19_service_and_rack R697, 19_service_and_rack
R698, 19_service_and_rack R699, 19_service_and_rack R700) -/
def Obligations.RackFramesSent : Prop :=
  (∀ (s : State) (d : Dev) (f : RackFrame) (q : List RackFrame), s.dev.met = d →
    d.rd .RCK_CTL_ENABLE ≠ 0 →
    d.rd .RCK_STAT_BUSOFF = 0 →
    d.rck.queue = f :: q →
    d.rd .RCK_STAT_SOLO = 0 →
    f.type ≠ fBeacon →
    exec (.frameTransmit .acked) s = .next (s.after (({ d with rck := { d.rck with queue := q, txerr := d.rck.txerr - 1 } }).emit (.rackFrame f.type (d.rd .RCK_CFG_NODE) f.dst f.bytes)))) ∧
  (∀ (s : State) (d : Dev) (f : RackFrame) (q : List RackFrame), s.dev.met = d →
    d.rd .RCK_CTL_ENABLE ≠ 0 →
    d.rd .RCK_STAT_BUSOFF = 0 →
    d.rck.queue = f :: q →
    d.rd .RCK_STAT_SOLO = 0 →
    128 ≤ d.rck.txerr →
    f.tries < 15 →
    exec (.frameTransmit .unacked) s = .next (s.after ({ d with rck := { d.rck with queue := { f with tries := f.tries + 1 } :: q } }))) ∧
  (∀ (s : State) (d : Dev), s.dev.met = d →
    d.rd .RCK_STAT_BUSOFF ≠ 0 →
    (d.rd .RCK_CTL_MANREC = 0 ∨ d.rck.restart = true) →
    exec .busoffRecovery s = .next (s.after (({ d with rck := { d.rck with txerr := 0, rxerr := 0, restart := false } }).wr .RCK_STAT_BUSOFF 0 0))) ∧
  (∀ (s : State) (d : Dev), s.dev.met = d →
    d.rd .RCK_STAT_BUSOFF ≠ 0 →
    d.rd .RCK_CTL_MANREC ≠ 0 →
    exec .busoffRestart s = .next (s.after ({ d with rck := { d.rck with restart := true } }))) ∧
  (∀ (s : State) (d : Dev) (after : Nat), s.dev.met.advance after = d →
    d.rck.delay = true →
    d.rck.endAt ≤ d.now →
    exec (.soloDelayEnd after) s = .next (s.after (({ d with rck := { d.rck with delay := false, freed := true } }).tokenObtained))) ∧
  (∀ (s : State) (d : Dev) (after : Nat), s.dev.met.advance after = d →
    d.waitFrom .hello + 1250000000 ≤ d.now →
    d.rd .RCK_CTL_ENABLE ≠ 0 →
    exec (.helloTimer after) s = .next (s.after (
      let flags := bnat (d.on .SPN_STAT_ATSPEED) + 2 * bnat d.angValid + 4 * d.rd .SPN_PHLOCK_EN + 8 * d.rd .RCK_STAT_SOLO + 16 * bnat (d.rck.hold || d.rck.ann)
      let d0 : Dev := { d with timers := (d.timers.filter fun x => x.1 != .hello) ++ [(.hello, d.waitFrom .hello + 1250000000)] }
      d0.rackSend fHello 0 ([flags, d.rd .SPN_PHLOCK_SLOT, d.rd .SPN_PHLOCK_SLOTS, d.rd .SCH_STAT_STATE] ++ leBytes (d.word .SPN_MEAS) 4)))) ∧
  (∀ (s : State) (d : Dev) (after : Nat), s.dev.met.advance after = d →
    d.rd .RCK_CTL_ENABLE ≠ 0 →
    d.rck.want = true →
    d.rd .RCK_STAT_SOLO = 0 →
    d.waited .tokReq 1250000000 = true →
    exec (.tokreqTimer after) s = .next (s.after (
      let d1 := (d.beginWait .tokReq).rackSend fTokReq 0 (leBytes d.rck.seq 2 ++ leBytes (d.rd .SCH_SPNGRANT_SPINMA) 2)
      if d1.isSteward then d1.stewardQueue d1.node d.rck.seq else d1))) ∧
  (∀ (s : State) (d : Dev) (after : Nat), s.dev.met.advance after = d →
    d.rd .RCK_CTL_ENABLE ≠ 0 →
    d.waited .tokHold 312500000 = true →
    d.rck.hold = true →
    exec (.tokholdTimer after) s = .next (s.after ((d.beginWait .tokHold).rackSend fTokHold 0 (leBytes d.rck.seq 2 ++ [0, 0])))) ∧
  (∀ (s : State) (d : Dev) (n : Fin 512) (after : Nat), s.dev.met.advance after = d →
    d.waited (.heard n.val) 2500000000 = true →
    exec (.stewardChange n after) s = .next (s.after ((({ d with rck := { d.rck with heard := Tab.del d.rck.heard n.val } }).endWait (.heard n.val)).stewardMoved d.steward))) ∧
  (∀ (s : State) (d : Dev) (n q : Nat) (rs : List (Nat × Nat)) (after : Nat), s.dev.met.advance after = d →
    d.rck.reqs = (n, q) :: rs →
    d.mayGrant = true →
    n ≠ d.node →
    exec (.tokenGrant after) s = .next (s.after (({ d with rck := { d.rck with reqs := rs } }).rackSend fTokGrant n (leBytes q 2 ++ [0, 0])))) ∧
  (∀ (s : State) (d : Dev) (n : Fin 512) (after : Nat), s.dev.met.advance after = d →
    d.waited (.holder n.val) 1250000000 = true →
    exec (.tokenHoldExpiry n after) s = .next (s.after (({ d with rck := { d.rck with holds := d.rck.holds.filter (· != n.val) } }).endWait (.holder n.val)))) ∧
  (∀ (s : State) (d : Dev) (after : Nat), s.dev.met.advance after = d →
    d.rd .RCK_CTL_ENABLE ≠ 0 →
    d.rd .RCK_STAT_BUSOFF = 0 →
    d.rck.choice ≠ d.rck.master →
    d.waited .choice 2500000000 = true →
    exec (.beaconMasterChange after) s = .next (s.after ({ d with rck := { d.rck with master := d.rck.choice, taken := none, mine := none } }))) ∧
  (∀ (s : State) (d : Dev) (x : Nat) (after : Nat), s.dev.met.advance after = d →
    d.rd .RCK_CTL_ENABLE ≠ 0 →
    d.rd .RCK_STAT_BUSOFF = 0 →
    d.rck.master = some (d.rd .RCK_CFG_NODE) →
    d.fellSince d.phaseTarget (d.waitFrom .beacon + 1024) = true →
    d.rck.mine = some x →
    exec (.beaconSend after) s = .next (s.after ((({ d with rck := { d.rck with bnum := (d.rck.bnum + 1) % 256 } }).beginWait .beacon).rackSend fBeacon 0 (leBytes x 3 ++ [d.rck.bnum])))) ∧
  (∀ (s : State) (d : Dev), s.dev.met = d →
    d.rd .RCK_STAT_ALERTOUT = 0 →
    exec .rackAlertSense s = .next (s.after (
      let d1 := d.wr .RCK_STAT_ALERTIN 0 1
      { d1 with rck := { d1.rck with alertAt := some d1.now } }))) ∧
  (∀ (s : State) (d : Dev) (after : Nat), s.dev.met.advance after = d →
    d.spn.running = false →
    d.rck.alertTill ≤ d.now →
    exec (.rackAlertRelease after) s = .next (s.after (d.wr .RCK_STAT_ALERTOUT 0 0))) ∧
  (∀ (s : State) (d : Dev), s.dev.met = d →
    d.rd .RCK_CTL_ENABLE ≠ 0 →
    d.rd .RCK_STAT_BUSOFF = 0 →
    exec .foreignFrameReceive s = .next (s.after (d.wr .RCK_CNT_FOREIGN 0 (satAdd (Fld.RCK_CNT_FOREIGN).info.w (d.rd .RCK_CNT_FOREIGN) 1)))) ∧
  (∀ (s : State) (d : Dev) (major : Bool), s.dev.met = d →
    d.rd .RCK_CTL_ENABLE ≠ 0 →
    d.rd .RCK_STAT_BUSOFF = 0 →
    exec (.canReceiveError major) s = .next (s.after ({ d with rck := { d.rck with rxerr := d.rck.rxerr + (if major then 8 else 1) } })))

/-- The full path, handover, the warm path and the end of the restore. From RESET the full path tries the slots of a NOR that
fits in the order of R657, and enters NOIMAGE with cause 12 where the NOR does not fit or the clocks do not lock; handover
starts the blocks; the warm reset keeps and returns what R667 says, re-applies the REGWRITE copy and hands over again;
CFG_RESTORE.DONE checks the map against the bitmap. Where the spec leaves a point open the clause follows the model's choice,
log 7, 16, 54, 55. (18_startup_and_recovery R652, 18_startup_and_recovery R653, 18_startup_and_recovery R656,
18_startup_and_recovery R657, 18_startup_and_recovery R662, 18_startup_and_recovery R665, 18_startup_and_recovery R667,
18_startup_and_recovery R671) -/
def Obligations.StartUpAndHandover : Prop :=
  (∀ (s : State) (d : Dev) (n : NorImage) (after : Nat), s.dev.met = d →
    d.rd .SYS_STAT_HANDOVER = 0 →
    d.rd .CFG_STAT_STATE = 0 →
    n.fit = true →
    exec (.imageLoad n after) s = .next (s.after (
      let d1 := (((d.elapse after).clocksLock).wr .CFG_NORINFO_DENSITY 0 n.density.val).wr .CFG_NORINFO_SUSP 0 1
      let d1 := (d1.wr .CFG_NORINFO_QUAD 0 1).wr .CFG_NORINFO_DIV 0 24
      let b := norRead n 0 64
      let d1 := if dirValid b then d1.wr .CFG_SLOT_ACTIVE 0 (fieldLE b 24 1) else d1.cfgErr 1 0 0
      let d1 := d1.trySlots n (fieldLE b 26 1) (candidates b n.density.val)
      if d1.rd .CFG_STAT_STATE = 3 then d1.logScan n else d1))) ∧
  (∀ (s : State) (d : Dev) (n : NorImage) (after : Nat), s.dev.met = d →
    d.rd .SYS_STAT_HANDOVER = 0 →
    d.rd .CFG_STAT_STATE = 0 →
    n.fit = false →
    exec (.imageLoad n after) s = .next (s.after (
      let d1 := (((d.elapse after).clocksLock).wr .CFG_NORINFO_DENSITY 0 n.density.val).wr .CFG_NORINFO_SUSP 0 0
      (d1.wr .CFG_STAT_STATE 0 6).cfgErr 12 0 0))) ∧
  (∀ (s : State) (d : Dev) (after : Nat), s.dev.met.advance after = d →
    d.rd .SYS_STAT_HANDOVER = 0 →
    d.rd .CFG_STAT_STATE = 0 →
    d.cfg.began + 12500000 ≤ d.now →
    exec (.clockLockTimeout after) s = .next (s.after ((d.wr .CFG_STAT_STATE 0 6).cfgErr 12 0 0))) ∧
  (∀ (s : State) (d : Dev), s.dev.met = d →
    d.rd .SYS_STAT_HANDOVER = 0 →
    d.rd .CFG_STAT_STATE = 3 →
    exec .handover s = .next (s.after (
      let d1 := (d.wr .SYS_STAT_HANDOVER 0 1).wr .CFG_STAT_STATE 0 4
      let d1 := (d1.wr .CFG_LOADTIME_US 0 ((d1.now - d1.cfg.began) / 1250)).itbEnable true
      let d1 := (((d1.wr .TPE_CTL_ENABLE 0 1).wr .WRF_CTL_ENABLE 0 1).wr .HIF_CTL_ENABLE 0 1).wr .CHK_CTL_ENABLE 0 1
      let d1 := (d1.wr .CMP_CTL_ENABLE 0 1).wr .HLT_CTL_ENABLE 0 1
      let d1 := (List.range 32).foldl (fun (x : Dev) q => x.wr .FSQ_CTL_ENABLE q 1) d1
      let d1 := d1.unitsOn
      let d1 := d1.cfg.badSrv.foldl Dev.actOut d1
      let d1 := { d1 with cfg := { d1.cfg with cores := true, badSrv := [] }, flt := { d1.flt with crkOn := true } }.beginWait .cricket
      let d1 := if d1.on .EVT_CTL_NORLOG then d1 else d1.dropUnflushed
      let d1 := d1.checkFences
      let d1 := (if d1.rd .HLT_PROJ_HOURS < d1.rd .HLT_PLAN_HORIZON then d1.replace 0 else d1).checkSpares
      if d1.cfg.hold then d1 else d1.schEnable true))) ∧
  (∀ (s : State) (d : Dev) (after : Nat), s.dev.met.advance after = d →
    d.cfg.kind = 1 →
    d.cfg.quiet = true →
    (d.waited .flush 12500000 = true ∨ d.flushed = true) →
    exec (.warmReset after) s = .next (s.after (
      let d1 := d.warmHost.warmChannel.warmServo.warmEngines.warmMemory.warmHealth
      let d1 := (d1.warmFaults.warmService.warmBus.setCause d.nextCause).wr .CFG_STAT_STATE 0 5
      let d1 := d1.wr .CFG_STAT_RESTORED 0 0
      let d1 := { d1 with cfg := { d1.cfg with kind := 0, cause := 0, quiet := false, units := [], cores := false, began := d1.now } }
      d1.reapply.handover))) ∧
  (∀ (s : State) (d : Dev), s.dev.met = d →
    d.rd .SYS_STAT_HANDOVER ≠ 0 →
    mapSorted d.defectMap = true →
    d.bitmapAgrees d.defectMap = true →
    exec .restoreDone s = .next (s.after ((d.wr .CFG_STAT_RESTORED 0 1).wr .HLT_STAT_READY 0 1))) ∧
  (∀ (s : State) (d : Dev), s.dev.met = d →
    d.rd .SYS_STAT_HANDOVER ≠ 0 →
    (mapSorted d.defectMap = false ∨ d.bitmapAgrees d.defectMap = false) →
    exec .restoreDone s = .next (s.after ((d.stick .CFG_STAT_RESTERR).stick .TPE_STAT_MAPERR)))

/-- The NOR access registers. CFG_NORCMD with GO starts a read, a program or an erase outside the log area, with its buffer in
DRAM or table SRAM, and the command ends with DONE or ERR; the log area is refused with PROT after handover, and a write while a
command runs is ignored. Where the spec leaves a point open the clause follows the model's choice, log 16.
(18_startup_and_recovery R676) -/
def Obligations.NorCommands : Prop :=
  (∀ (s : State) (d : Dev) (len : BitVec 24), s.dev.met = d →
    d.cfg.nor = none →
    d.norBarred (d.rd .CFG_NORADDR_ADDR) len.toNat = false →
    d.norBuffer (d.rd .CFG_NORBUFLO_ADDR + d.rd .CFG_NORBUFHI_ADDR * 2 ^ 32) len.toNat = true →
    exec (.norRead len) s = .next (s.after (
      let d1 := (d.wr .CFG_NORCMD_OP 0 0).wr .CFG_NORCMD_LEN 0 len.toNat
      let cmd : NorCmd := { op := 0, addr := d.rd .CFG_NORADDR_ADDR, buf := d.rd .CFG_NORBUFLO_ADDR + d.rd .CFG_NORBUFHI_ADDR * 2 ^ 32, len := len.toNat }
      { d1 with cfg := { d1.cfg with nor := some cmd } }))) ∧
  (∀ (s : State) (d : Dev) (len : BitVec 24), s.dev.met = d →
    d.cfg.nor = none →
    d.norBarred (d.rd .CFG_NORADDR_ADDR) len.toNat = false →
    d.norBuffer (d.rd .CFG_NORBUFLO_ADDR + d.rd .CFG_NORBUFHI_ADDR * 2 ^ 32) len.toNat = true →
    exec (.norProgram len) s = .next (s.after (
      let d1 := (d.wr .CFG_NORCMD_OP 0 1).wr .CFG_NORCMD_LEN 0 len.toNat
      let buf := d.rd .CFG_NORBUFLO_ADDR + d.rd .CFG_NORBUFHI_ADDR * 2 ^ 32
      let cmd : NorCmd := { op := 1, addr := d.rd .CFG_NORADDR_ADDR, buf := buf, len := len.toNat }
      let d1 := d1.emit (.norWrite (d.rd .CFG_NORADDR_ADDR) (d1.ldBytes buf len.toNat))
      { d1 with cfg := { d1.cfg with nor := some cmd } }))) ∧
  (∀ (s : State) (d : Dev), s.dev.met = d →
    d.cfg.nor = none →
    d.norBarred (d.rd .CFG_NORADDR_ADDR / 4096 * 4096) 4096 = false →
    exec .norErase4k s = .next (s.after (
      let d1 := (d.wr .CFG_NORCMD_OP 0 2).wr .CFG_NORCMD_LEN 0 0
      let a := d.rd .CFG_NORADDR_ADDR / 4096 * 4096
      let cmd : NorCmd := { op := 2, addr := a, buf := d.rd .CFG_NORBUFLO_ADDR + d.rd .CFG_NORBUFHI_ADDR * 2 ^ 32, len := 4096 }
      let d1 := d1.emit (.norErase a 4096)
      { d1 with cfg := { d1.cfg with nor := some cmd } }))) ∧
  (∀ (s : State) (d : Dev), s.dev.met = d →
    d.cfg.nor = none →
    d.norBarred (d.rd .CFG_NORADDR_ADDR / 65536 * 65536) 65536 = false →
    exec .norErase64k s = .next (s.after (
      let d1 := (d.wr .CFG_NORCMD_OP 0 3).wr .CFG_NORCMD_LEN 0 0
      let a := d.rd .CFG_NORADDR_ADDR / 65536 * 65536
      let cmd : NorCmd := { op := 3, addr := a, buf := d.rd .CFG_NORBUFLO_ADDR + d.rd .CFG_NORBUFHI_ADDR * 2 ^ 32, len := 65536 }
      let d1 := d1.emit (.norErase a 65536)
      { d1 with cfg := { d1.cfg with nor := some cmd } }))) ∧
  (∀ (s : State) (d : Dev), s.dev.met = d →
    d.cfg.nor = none →
    d.norBarred (d.rd .CFG_NORADDR_ADDR / 4096 * 4096) 4096 = true →
    exec .norErase4k s = .next (s.after (((d.wr .CFG_NORCMD_OP 0 2).wr .CFG_NORCMD_LEN 0 0).stick .CFG_NORSTAT_PROT))) ∧
  (∀ (s : State) (d : Dev) (ok : Bool) (data : List Byte) (x : NorCmd), s.dev.met = d →
    d.cfg.nor = some x →
    ok = true →
    exec (.norCommandEnd ok data) s = .next (s.after (
      let d1 := { d with cfg := { d.cfg with nor := none } }
      (if x.op = 0 then d1.mputBytes x.buf (data.take x.len) else d1).stick .CFG_NORSTAT_DONE))) ∧
  (∀ (s : State) (d : Dev) (ok : Bool) (data : List Byte) (x : NorCmd), s.dev.met = d →
    d.cfg.nor = some x →
    ok = false →
    exec (.norCommandEnd ok data) s = .next (s.after (({ d with cfg := { d.cfg with nor := none } }).stick .CFG_NORSTAT_ERR)))

/-- The service port's connection and standard requests. VBUS attaches and detaches the port, a bus reset puts it in Default
with the speed the chirp found and counts, suspend and resume move the state and back; the standard requests set the address and
the configuration and read the descriptors, and an unknown request is refused with cause 1. Where the spec leaves a point open
the clause follows the model's choice, log 59. (19_service_and_rack R677, 19_service_and_rack R678, 19_service_and_rack R682,
19_service_and_rack R684) -/
def Obligations.ServicePortConnection : Prop :=
  (∀ (s : State) (d : Dev), s.dev.met = d →
    d.rd .SVC_CFG_MODE ≠ 0 →
    d.rd .SVC_STAT_STATE = 0 →
    d.svc.offTill ≤ d.now →
    exec (.vbusChange true) s = .next (s.after (({ d with svc := { d.svc with vbus := true } } : Dev).wr .SVC_STAT_STATE 0 1))) ∧
  (∀ (s : State) (d : Dev), s.dev.met = d →
    d.rd .SVC_CFG_MODE = 0 →
    d.rd .SVC_STAT_STATE ≠ 0 →
    exec (.vbusChange true) s = .next (s.after (({ d with svc := { d.svc with vbus := true } } : Dev).svcDown 0))) ∧
  (∀ (s : State) (d : Dev), s.dev.met = d →
    d.rd .SVC_STAT_STATE ≠ 0 →
    exec (.vbusChange false) s = .next (s.after (({ d with svc := { d.svc with vbus := false } } : Dev).svcDown 1))) ∧
  (∀ (s : State) (d : Dev) (hs : Bool), s.dev.met = d →
    d.rd .SVC_STAT_STATE ≠ 0 →
    d.svc.vbus = true →
    exec (.usbBusReset hs) s = .next (s.after (((d.svcDown 2).wr .SVC_STAT_HS 0 (if hs then 1 else 0)).count .SVC_CNT_RESETS))) ∧
  (∀ (s : State) (d : Dev), s.dev.met = d →
    1 ≤ d.rd .SVC_STAT_STATE →
    d.rd .SVC_STAT_STATE ≤ 4 →
    exec (.usbSuspend true) s = .next (s.after (({ d with svc := { d.svc with back := d.rd .SVC_STAT_STATE } } : Dev).wr .SVC_STAT_STATE 0 5))) ∧
  (∀ (s : State) (d : Dev), s.dev.met = d →
    d.rd .SVC_STAT_STATE = 5 →
    exec (.usbSuspend false) s = .next (s.after (d.wr .SVC_STAT_STATE 0 d.svc.back))) ∧
  (∀ (s : State) (d : Dev) (v i l : BitVec 16), s.dev.met = d →
    2 ≤ d.rd .SVC_STAT_STATE →
    d.rd .SVC_STAT_STATE ≤ 3 →
    v.toNat < 128 →
    exec (.standardRequest { type := 0, request := 5, value := v, index := i, length := l }) s = .next (s.after (
      let d1 := d.svcAbandon
      ({ d1 with svc := { d1.svc with addr := v.toNat } }).wr .SVC_STAT_STATE 0 (if v.toNat = 0 then 2 else 3)))) ∧
  (∀ (s : State) (d : Dev) (v i l : BitVec 16), s.dev.met = d →
    3 ≤ d.rd .SVC_STAT_STATE →
    d.rd .SVC_STAT_STATE ≤ 4 →
    v.toNat ≤ 1 →
    exec (.standardRequest { type := 0, request := 9, value := v, index := i, length := l }) s = .next (s.after (
      let d1 := d.svcAbandon
      ({ d1 with svc := { d1.svc with conf := v.toNat, halts := [], told := none, stream := d1.oldestSeq } } : Dev).wr .SVC_STAT_STATE 0 (if v.toNat = 0 then 3 else 4)))) ∧
  (∀ (s : State) (d : Dev) (i l : BitVec 16), s.dev.met = d →
    2 ≤ d.rd .SVC_STAT_STATE →
    d.rd .SVC_STAT_STATE ≤ 4 →
    exec (.standardRequest { type := 0x80, request := 6, value := 0x0100, index := i, length := l }) s = .next (s.after (
      let d1 := d.svcAbandon
      d1.emit (.usb 0 (d1.deviceDesc.take l.toNat))))) ∧
  (∀ (s : State) (d : Dev) (x : Setup), s.dev.met = d →
    2 ≤ d.rd .SVC_STAT_STATE →
    d.rd .SVC_STAT_STATE ≤ 4 →
    12 < x.request.toNat →
    exec (.standardRequest x) s = .next (s.after (
      let d1 := d.svcAbandon
      ((d1.wr .SVC_STAT_LASTERR 0 1).count .SVC_CNT_STALLS).emit (.usbStall 0))))

/-- The service port's vendor requests, its streams and DIGREQ. An admitted register read answers its registers in order; a
memory read answers and advances SVC_MADDR; an OUT request stages its data, and the commit applies it, counts, and a FUSE
programs bits in; a refused request stalls with its cause; EP1 sends unsent records, EP2 the short digest when it changed; a
DIGREQ is answered at most once in 100 ms. Where the spec leaves a point open the clause follows the model's choice, log 59.
(19_service_and_rack R679, 19_service_and_rack R680, 19_service_and_rack R681, 19_service_and_rack R682, 19_service_and_rack
R683, 19_service_and_rack R686, 19_service_and_rack R687, 19_service_and_rack R702) -/
def Obligations.ServicePortRequests : Prop :=
  (∀ (s : State) (d : Dev) (off : Word) (len : BitVec 16), s.dev.met = d →
    d.usbTalks = true →
    d.svcAbandon.regRefusal false off.toNat len.toNat = none →
    exec (.svcRegrd off len) s = .next (s.after (
      let r := d.svcAbandon.regsRead off.toNat (len.toNat / 4)
      r.1.emit (.usb 0 r.2)))) ∧
  (∀ (s : State) (d : Dev) (off : Word) (len : BitVec 16) (x : Nat), s.dev.met = d →
    d.usbTalks = true →
    d.svcAbandon.regRefusal false off.toNat len.toNat = some x →
    exec (.svcRegrd off len) s = .next (s.after (
      let d1 := d.svcAbandon
      ((d1.wr .SVC_STAT_LASTERR 0 x).count .SVC_CNT_STALLS).emit (.usbStall 0)))) ∧
  (∀ (s : State) (d : Dev) (off : Word) (words : List Word), s.dev.met = d →
    d.usbTalks = true →
    d.svcAbandon.regRefusal true off.toNat (4 * words.length) = none →
    exec (.svcRegwr off words) s = .next (s.after (
      let d1 := d.svcAbandon
      { d1 with svc := { d1.svc with staged := some (.regwr off.toNat (words.map BitVec.toNat)) } }))) ∧
  (∀ (s : State) (d : Dev), s.dev.met = d →
    d.usbTalks = true →
    exec (.svcDigest 64) s = .next (s.after (
      let d1 := d.svcAbandon
      d1.emit (.usb 0 d1.shortDigest)))) ∧
  (∀ (s : State) (d : Dev) (len : BitVec 16) (err : Option MemErr), s.dev.met = d →
    d.usbTalks = true →
    d.svcAbandon.memRefusal false len.toNat = none →
    (d.svcAbandon.readMem 1 d.svcAbandon.maddr len.toNat err).2 = true →
    exec (.svcMemrd len err) s = .next (s.after (
      let a := d.svcAbandon.maddr
      let d1 := (d.svcAbandon.readMem 1 a len.toNat err).1
      (d1.setMaddr (a + len.toNat)).emit (.usb 0 ((d1.ldBytes a len.toNat).map BitVec.toNat))))) ∧
  (∀ (s : State) (d : Dev) (len : BitVec 16) (err : Option MemErr), s.dev.met = d →
    d.usbTalks = true →
    d.svcAbandon.memRefusal false len.toNat = none →
    (d.svcAbandon.readMem 1 d.svcAbandon.maddr len.toNat err).2 = false →
    exec (.svcMemrd len err) s = .next (s.after (
      let d1 := (d.svcAbandon.readMem 1 d.svcAbandon.maddr len.toNat err).1
      ((d1.wr .SVC_STAT_LASTERR 0 5).count .SVC_CNT_STALLS).emit (.usbStall 0)))) ∧
  (∀ (s : State) (d : Dev) (bytes : List Byte), s.dev.met = d →
    d.usbTalks = true →
    d.svcAbandon.memRefusal true bytes.length = none →
    exec (.svcMemwr bytes) s = .next (s.after (
      let d1 := d.svcAbandon
      { d1 with svc := { d1.svc with staged := some (.memwr bytes) } }))) ∧
  (∀ (s : State) (d : Dev) (kind : BitVec 16), s.dev.met = d →
    d.usbTalks = true →
    (kind.toNat = 1 ∨ kind.toNat = 2) →
    d.svcAbandon.svcAdmits false true = true →
    exec (.svcReset kind 0) s = .next (s.after (
      let d1 := d.svcAbandon
      { d1 with svc := { d1.svc with staged := some (.reset (kind.toNat == 2)) } }))) ∧
  (∀ (s : State) (d : Dev) (sel : BitVec 16) (bytes : List Byte), s.dev.met = d →
    d.usbTalks = true →
    sel.toNat ≤ 3 →
    d.svcAbandon.svcAdmits false true = true →
    (d.svcAbandon.rd .CFG_STAT_STATE = 6 ∨ d.svcAbandon.rd .SVC_CFG_FUSE ≠ 0) →
    bytes.length = (if sel.toNat < 2 then 48 else 1) →
    d.svcAbandon.fuseAccepts sel.toNat (ofBytesBE bytes) = true →
    exec (.svcFuse sel bytes) s = .next (s.after (
      let d1 := d.svcAbandon
      { d1 with svc := { d1.svc with staged := some (.fuse sel.toNat (ofBytesBE bytes)) } }))) ∧
  (∀ (s : State) (d : Dev) (rivals : List (List RegWrite)) (off : Nat) (words : List Nat), s.dev.met = d →
    d.svc.staged = some (.regwr off words) →
    exec (.outCommit rivals) s = .next (s.after (
      let d1 := (({ d with svc := { d.svc with staged := none } } : Dev).count .SVC_CNT_COMMITS)
      d1.regsWrite off rivals words))) ∧
  (∀ (s : State) (d : Dev) (rivals : List (List RegWrite)) (bytes : List Byte), s.dev.met = d →
    d.svc.staged = some (.memwr bytes) →
    d.svcReaches d.maddr bytes.length = true →
    exec (.outCommit rivals) s = .next (s.after (
      let d1 := (({ d with svc := { d.svc with staged := none } } : Dev).count .SVC_CNT_COMMITS)
      (d1.mputBytes d.maddr bytes).setMaddr (d.maddr + bytes.length)))) ∧
  (∀ (s : State) (d : Dev) (rivals : List (List RegWrite)) (full : Bool), s.dev.met = d →
    d.svc.staged = some (.reset full) →
    exec (.outCommit rivals) s = .next (s.after (
      let d1 := (({ d with svc := { d.svc with staged := none } } : Dev).count .SVC_CNT_COMMITS)
      if full then d1.resetRequest 2 4 else d1.resetRequest 1 2))) ∧
  (∀ (s : State) (d : Dev) (rivals : List (List RegWrite)) (sel val : Nat), s.dev.met = d →
    d.svc.staged = some (.fuse sel val) →
    d.fuseAccepts sel val = true →
    exec (.outCommit rivals) s = .next (s.after ((({ d with svc := { d.svc with staged := none } } : Dev).count .SVC_CNT_COMMITS).fuseProgram sel val))) ∧
  (∀ (s : State) (d : Dev) (x : EvtRec), s.dev.met = d →
    d.rd .SVC_STAT_STATE = 4 →
    d.svc.halts.contains 0x81 = false →
    (d.unsent.take 4).getLast? = some x →
    exec .eventStream s = .next (s.after (
      let d1 := d.emit (.usb 1 ((d.unsent.take 4).flatMap fun r => r.words.flatMap fun w => leBytes w 4))
      { d1 with svc := { d1.svc with stream := (x.w1 + 1) % 2 ^ 32 } }))) ∧
  (∀ (s : State) (d : Dev), s.dev.met = d →
    d.rd .SVC_STAT_STATE = 4 →
    d.svc.halts.contains 0x82 = false →
    d.svc.told ≠ some d.watched →
    exec .digestInterrupt s = .next (s.after (
      let d1 := d.emit (.usb 2 d.shortDigest)
      { d1 with svc := { d1.svc with told := some d.watched } }))) ∧
  (∀ (s : State) (d : Dev) (src : Fin 512), s.dev.met = d →
    d.rd .RCK_CTL_ENABLE ≠ 0 →
    d.rd .RCK_STAT_BUSOFF = 0 →
    src.val ≠ d.rd .RCK_CFG_NODE →
    d.rd .RCK_STAT_SOLO = 0 →
    (∀ t, Tab.look d.rck.replied src.val = some t → t + 125000000 ≤ d.now) →
    exec (.digreqReceive src) s = .next (s.after (
      let d1 := { d with rck := { d.rck with rxerr := min 127 (d.rck.rxerr - 1) } }
      let d1 := d1.rackSend fDigest src.val d1.shortDigest
      { d1 with rck := { d1.rck with replied := Tab.put d1.rck.replied src.val d1.now } })))

/-- What the register micro-ops compute. When its turn has come, an ALU or immediate micro-op computes the value its code stands
for from the registers before the step, modulo 2^48, ANGR reads the angle or the device time, NOP does nothing, and a result
takes effect at the step's end. Where the spec leaves a point open the clause follows the model's choice, log 37.
(11_vertical_engines R392, 11_vertical_engines R393, 11_vertical_engines R394, 11_vertical_engines R395, 11_vertical_engines
R396, 11_vertical_engines R398) -/
def Obligations.MicroArithmetic : Prop :=
  (∀ (s : State) (d : Dev) (e : Fin 12) (w : Nat), s.dev.met = d →
    d.microReady e.val w = true →
    uOpc w = 1 →
    uFn w = 0 →
    exec (.aluAdd e) s = .next (s.after ((d.uResult e.val (uD w) (((d.eng e.val).reg (uA w) + (d.eng e.val).reg (uB w)) % 2 ^ 48)).uNext e.val w none))) ∧
  (∀ (s : State) (d : Dev) (e : Fin 12) (w : Nat), s.dev.met = d →
    d.microReady e.val w = true →
    uOpc w = 1 →
    uFn w = 1 →
    exec (.aluSub e) s = .next (s.after ((d.uResult e.val (uD w) (subMod 48 ((d.eng e.val).reg (uA w)) ((d.eng e.val).reg (uB w)))).uNext e.val w none))) ∧
  (∀ (s : State) (d : Dev) (e : Fin 12) (w : Nat), s.dev.met = d →
    d.microReady e.val w = true →
    uOpc w = 1 →
    uFn w = 2 →
    exec (.aluAnd e) s = .next (s.after ((d.uResult e.val (uD w) (Nat.land ((d.eng e.val).reg (uA w)) ((d.eng e.val).reg (uB w)))).uNext e.val w none))) ∧
  (∀ (s : State) (d : Dev) (e : Fin 12) (w : Nat), s.dev.met = d →
    d.microReady e.val w = true →
    uOpc w = 1 →
    uFn w = 3 →
    exec (.aluOr e) s = .next (s.after ((d.uResult e.val (uD w) (Nat.lor ((d.eng e.val).reg (uA w)) ((d.eng e.val).reg (uB w)))).uNext e.val w none))) ∧
  (∀ (s : State) (d : Dev) (e : Fin 12) (w : Nat), s.dev.met = d →
    d.microReady e.val w = true →
    uOpc w = 1 →
    uFn w = 4 →
    exec (.aluXor e) s = .next (s.after ((d.uResult e.val (uD w) (Nat.xor ((d.eng e.val).reg (uA w)) ((d.eng e.val).reg (uB w)))).uNext e.val w none))) ∧
  (∀ (s : State) (d : Dev) (e : Fin 12) (w : Nat), s.dev.met = d →
    d.microReady e.val w = true →
    uOpc w = 1 →
    uFn w = 5 →
    exec (.aluShl e) s = .next (s.after ((d.uResult e.val (uD w) ((d.eng e.val).reg (uA w) * 2 ^ ((d.eng e.val).reg (uB w) % 64) % 2 ^ 48)).uNext e.val w none))) ∧
  (∀ (s : State) (d : Dev) (e : Fin 12) (w : Nat), s.dev.met = d →
    d.microReady e.val w = true →
    uOpc w = 1 →
    uFn w = 6 →
    exec (.aluShr e) s = .next (s.after ((d.uResult e.val (uD w) ((d.eng e.val).reg (uA w) / 2 ^ ((d.eng e.val).reg (uB w) % 64))).uNext e.val w none))) ∧
  (∀ (s : State) (d : Dev) (e : Fin 12) (w : Nat), s.dev.met = d →
    d.microReady e.val w = true →
    uOpc w = 1 →
    uFn w = 7 →
    exec (.aluSra e) s = .next (s.after ((d.uResult e.val (uD w) (unsigned 48 (signed 48 ((d.eng e.val).reg (uA w)) / (2 ^ ((d.eng e.val).reg (uB w) % 64) : Nat)))).uNext e.val w none))) ∧
  (∀ (s : State) (d : Dev) (e : Fin 12) (w : Nat), s.dev.met = d →
    d.microReady e.val w = true →
    uOpc w = 1 →
    uFn w = 8 →
    exec (.aluShli e) s = .next (s.after ((d.uResult e.val (uD w) ((d.eng e.val).reg (uA w) * 2 ^ uSh w % 2 ^ 48)).uNext e.val w none))) ∧
  (∀ (s : State) (d : Dev) (e : Fin 12) (w : Nat), s.dev.met = d →
    d.microReady e.val w = true →
    uOpc w = 1 →
    uFn w = 9 →
    exec (.aluShri e) s = .next (s.after ((d.uResult e.val (uD w) ((d.eng e.val).reg (uA w) / 2 ^ uSh w)).uNext e.val w none))) ∧
  (∀ (s : State) (d : Dev) (e : Fin 12) (w : Nat), s.dev.met = d →
    d.microReady e.val w = true →
    uOpc w = 1 →
    uFn w = 10 →
    exec (.aluSrai e) s = .next (s.after ((d.uResult e.val (uD w) (unsigned 48 (signed 48 ((d.eng e.val).reg (uA w)) / (2 ^ uSh w : Nat)))).uNext e.val w none))) ∧
  (∀ (s : State) (d : Dev) (e : Fin 12) (w : Nat), s.dev.met = d →
    d.microReady e.val w = true →
    uOpc w = 1 →
    uFn w = 11 →
    exec (.aluSlt e) s = .next (s.after ((d.uResult e.val (uD w) ((if signed 48 ((d.eng e.val).reg (uA w)) < signed 48 ((d.eng e.val).reg (uB w)) then 1 else 0))).uNext e.val w none))) ∧
  (∀ (s : State) (d : Dev) (e : Fin 12) (w : Nat), s.dev.met = d →
    d.microReady e.val w = true →
    uOpc w = 1 →
    uFn w = 12 →
    exec (.aluSltu e) s = .next (s.after ((d.uResult e.val (uD w) ((if (d.eng e.val).reg (uA w) < (d.eng e.val).reg (uB w) then 1 else 0))).uNext e.val w none))) ∧
  (∀ (s : State) (d : Dev) (e : Fin 12) (w : Nat), s.dev.met = d →
    d.microReady e.val w = true →
    uOpc w = 1 →
    uFn w = 13 →
    exec (.aluMin e) s = .next (s.after ((d.uResult e.val (uD w) ((if signed 48 ((d.eng e.val).reg (uA w)) ≤ signed 48 ((d.eng e.val).reg (uB w)) then (d.eng e.val).reg (uA w) else (d.eng e.val).reg (uB w)))).uNext e.val w none))) ∧
  (∀ (s : State) (d : Dev) (e : Fin 12) (w : Nat), s.dev.met = d →
    d.microReady e.val w = true →
    uOpc w = 1 →
    uFn w = 14 →
    exec (.aluMax e) s = .next (s.after ((d.uResult e.val (uD w) ((if signed 48 ((d.eng e.val).reg (uA w)) ≤ signed 48 ((d.eng e.val).reg (uB w)) then (d.eng e.val).reg (uB w) else (d.eng e.val).reg (uA w)))).uNext e.val w none))) ∧
  (∀ (s : State) (d : Dev) (e : Fin 12) (w : Nat), s.dev.met = d →
    d.microReady e.val w = true →
    uOpc w = 1 →
    uFn w = 15 →
    exec (.aluMul e) s = .next (s.after ((d.uResult e.val (uD w) ((d.eng e.val).reg (uA w) * (d.eng e.val).reg (uB w) % 2 ^ 48)).uNext e.val w none))) ∧
  (∀ (s : State) (d : Dev) (e : Fin 12) (w : Nat), s.dev.met = d →
    d.microReady e.val w = true →
    uOpc w = 1 →
    uFn w = 16 →
    exec (.aluMulh e) s = .next (s.after ((d.uResult e.val (uD w) (unsigned 48 (signed 48 ((d.eng e.val).reg (uA w)) * signed 48 ((d.eng e.val).reg (uB w)) / (2 ^ 48 : Nat)))).uNext e.val w none))) ∧
  (∀ (s : State) (d : Dev) (e : Fin 12) (w : Nat), s.dev.met = d →
    d.microReady e.val w = true →
    uOpc w = 1 →
    uFn w = 17 →
    exec (.aluClz e) s = .next (s.after ((d.uResult e.val (uD w) ((if (d.eng e.val).reg (uA w) = 0 then 48 else 47 - Nat.log2 ((d.eng e.val).reg (uA w))))).uNext e.val w none))) ∧
  (∀ (s : State) (d : Dev) (e : Fin 12) (w : Nat), s.dev.met = d →
    d.microReady e.val w = true →
    uOpc w = 1 →
    uFn w = 18 →
    exec (.aluPopc e) s = .next (s.after ((d.uResult e.val (uD w) (popcount ((d.eng e.val).reg (uA w)))).uNext e.val w none))) ∧
  (∀ (s : State) (d : Dev) (e : Fin 12) (w : Nat), s.dev.met = d →
    d.microReady e.val w = true →
    uOpc w = 2 →
    exec (.addi e) s = .next (s.after ((d.uResult e.val (uD w) (((d.eng e.val).reg (uA w) + uSext w) % 2 ^ 48)).uNext e.val w none))) ∧
  (∀ (s : State) (d : Dev) (e : Fin 12) (w : Nat), s.dev.met = d →
    d.microReady e.val w = true →
    uOpc w = 3 →
    exec (.andi e) s = .next (s.after ((d.uResult e.val (uD w) (Nat.land ((d.eng e.val).reg (uA w)) (uImm w))).uNext e.val w none))) ∧
  (∀ (s : State) (d : Dev) (e : Fin 12) (w : Nat), s.dev.met = d →
    d.microReady e.val w = true →
    uOpc w = 4 →
    exec (.ori e) s = .next (s.after ((d.uResult e.val (uD w) (Nat.lor ((d.eng e.val).reg (uA w)) (uImm w))).uNext e.val w none))) ∧
  (∀ (s : State) (d : Dev) (e : Fin 12) (w : Nat), s.dev.met = d →
    d.microReady e.val w = true →
    uOpc w = 5 →
    exec (.xori e) s = .next (s.after ((d.uResult e.val (uD w) (Nat.xor ((d.eng e.val).reg (uA w)) (uImm w))).uNext e.val w none))) ∧
  (∀ (s : State) (d : Dev) (e : Fin 12) (w : Nat), s.dev.met = d →
    d.microReady e.val w = true →
    uOpc w = 6 →
    exec (.immx e) s = .next (s.after ((d.uResult e.val (uD w) (Nat.lor ((d.eng e.val).reg (uA w) * 2 ^ 16 % 2 ^ 48) (uImm w))).uNext e.val w none))) ∧
  (∀ (s : State) (d : Dev) (e : Fin 12) (w : Nat), s.dev.met = d →
    d.microReady e.val w = true →
    uOpc w = 7 →
    exec (.slti e) s = .next (s.after ((d.uResult e.val (uD w) ((if signed 48 ((d.eng e.val).reg (uA w)) < signed 16 (uImm w) then 1 else 0))).uNext e.val w none))) ∧
  (∀ (s : State) (d : Dev) (e : Fin 12) (w : Nat), s.dev.met = d →
    d.microReady e.val w = true →
    uOpc w = 17 →
    uImm w = 0 →
    exec (.angrAngle e) s = .next (s.after ((d.uResult e.val (uD w) d.ang.val).uNext e.val w none))) ∧
  (∀ (s : State) (d : Dev) (e : Fin 12) (w : Nat), s.dev.met = d →
    d.microReady e.val w = true →
    uOpc w = 17 →
    uImm w = 1 →
    exec (.angrTime e) s = .next (s.after ((d.uResult e.val (uD w) d.time).uNext e.val w none))) ∧
  (∀ (s : State) (d : Dev) (e : Fin 12) (w : Nat), s.dev.met = d →
    d.microReady e.val w = true →
    uOpc w = 0 →
    exec (.nop e) s = .next (s.after (d.uNext e.val w none))) ∧
  (∀ (s : State) (d : Dev) (e : Fin 12), s.dev.met = d →
    d.rd .VE_ESTAT_STATE e.val = 2 →
    (d.eng e.val).run.isSome = true →
    (d.eng e.val).pos = 0 →
    stepLegal (d.stepAt e.val (d.rd .VE_EPC_PC e.val)) = false →
    exec (.nop e) s = .next (s.after (d.veEnd e.val 7)))

/-- Loads, stores and atomics of the vertical engines. A load whose address lies in a window is issued with the value its own
buffered stores leave, and its data returns to the register or ends the routine; an access outside the windows ends it with the
cause WINDOW; a store takes an entry of the commit buffer, or acts at once after COMMIT; an AMO commits first and replaces the
64-bit word at A. Where the spec leaves a point open the clause follows the model's choice, log 37, 38. (11_vertical_engines
R392, 11_vertical_engines R395, 11_vertical_engines R399, 11_vertical_engines R404, 11_vertical_engines R405,
11_vertical_engines R406, 14_memory_and_dma R528) -/
def Obligations.MicroMemory : Prop :=
  (∀ (s : State) (d : Dev) (e : Fin 12) (w : Nat) (a k : Nat), s.dev.met = d →
    d.microReady e.val w = true →
    uOpc w = 8 →
    (d.eng e.val).effective w = some a →
    d.veWindow a 4 = some k →
    (k = 1 ∨ k = 2) →
    exec (.ldw e) s = .next (s.after (
      let v := (d.overlay (d.eng e.val).buffer).ldN a 4 % 2 ^ 48
      (d.uIssue e.val { reg := uD w, val := v, addr := a, size := 4 }).uNext e.val w none))) ∧
  (∀ (s : State) (d : Dev) (e : Fin 12) (w : Nat), s.dev.met = d →
    d.microReady e.val w = true →
    uOpc w = 8 →
    ((d.eng e.val).effective w = none ∨ ∃ a, (d.eng e.val).effective w = some a ∧ d.veWindow a 4 = none) →
    exec (.ldw e) s = .next (s.after (d.veEnd e.val 4))) ∧
  (∀ (s : State) (d : Dev) (e : Fin 12) (w : Nat) (a k : Nat), s.dev.met = d →
    d.microReady e.val w = true →
    uOpc w = 9 →
    (d.eng e.val).effective w = some a →
    d.veWindow a 8 = some k →
    (k = 1 ∨ k = 2) →
    exec (.ldd e) s = .next (s.after (
      let v := (d.overlay (d.eng e.val).buffer).ldN a 8 % 2 ^ 48
      (d.uIssue e.val { reg := uD w, val := v, addr := a, size := 8 }).uNext e.val w none))) ∧
  (∀ (s : State) (d : Dev) (e : Fin 12) (w : Nat), s.dev.met = d →
    d.microReady e.val w = true →
    uOpc w = 9 →
    ((d.eng e.val).effective w = none ∨ ∃ a, (d.eng e.val).effective w = some a ∧ d.veWindow a 8 = none) →
    exec (.ldd e) s = .next (s.after (d.veEnd e.val 4))) ∧
  (∀ (s : State) (d : Dev) (e : Fin 12) (w : Nat) (a : Nat), s.dev.met = d →
    d.microReady e.val w = true →
    uOpc w = 8 →
    (d.eng e.val).effective w = some a →
    d.veWindow a 4 = some 3 →
    d.busRefuses (10 + e.val) a 4 = false →
    exec (.ldw e) s = .next (s.after (
      let v := (d.readValue (10 + e.val) (regOffset a)).getD 0
      ((d.readEffect (10 + e.val) (regOffset a) true).uIssue e.val { reg := uD w, val := v, addr := 0, size := 0 }).uNext e.val w none))) ∧
  (∀ (s : State) (d : Dev) (e : Fin 12) (w : Nat) (a k : Nat), s.dev.met = d →
    d.microReady e.val w = true →
    uOpc w = 10 →
    (d.eng e.val).effective w = some a →
    d.veWindow a 4 = some k →
    exec (.stw e) s = .next (s.after ((d.veDo e.val (.store a (unsigned 64 (signed 48 ((d.eng e.val).reg (uD w))) % 2 ^ 32) 4)).uNext e.val w none))) ∧
  (∀ (s : State) (d : Dev) (e : Fin 12) (w : Nat) (a k : Nat), s.dev.met = d →
    d.microReady e.val w = true →
    uOpc w = 11 →
    (d.eng e.val).effective w = some a →
    d.veWindow a 8 = some k →
    exec (.std e) s = .next (s.after ((d.veDo e.val (.store a (unsigned 64 (signed 48 ((d.eng e.val).reg (uD w))) % 2 ^ 64) 8)).uNext e.val w none))) ∧
  (∀ (s : State) (d : Dev) (e : Fin 12) (w : Nat) (a : Nat), s.dev.met = d →
    d.microReady e.val w = true →
    uOpc w = 12 →
    uFn w = 0 →
    (d.eng e.val).reg (uA w) = a →
    (d.veCommit e.val).veState e.val = 2 →
    a % 8 = 0 →
    arrayOf a = 5 →
    ((d.veCommit e.val).readCheck (10 + e.val) a 8).2 = true →
    exec (.amoSwap e) s = .next (s.after (
      let r := (d.veCommit e.val).readCheck (10 + e.val) a 8
      let o := r.1.ldN a 8
      let bv := unsigned 64 (signed 48 ((d.eng e.val).reg (uB w)))
      let n := bv
      ((r.1.mstN a n 8).uResult e.val (uD w) (o % 2 ^ 48)).uNext e.val w none))) ∧
  (∀ (s : State) (d : Dev) (e : Fin 12) (w : Nat) (a : Nat), s.dev.met = d →
    d.microReady e.val w = true →
    uOpc w = 12 →
    uFn w = 1 →
    (d.eng e.val).reg (uA w) = a →
    (d.veCommit e.val).veState e.val = 2 →
    a % 8 = 0 →
    arrayOf a = 5 →
    ((d.veCommit e.val).readCheck (10 + e.val) a 8).2 = true →
    exec (.amoAdd e) s = .next (s.after (
      let r := (d.veCommit e.val).readCheck (10 + e.val) a 8
      let o := r.1.ldN a 8
      let bv := unsigned 64 (signed 48 ((d.eng e.val).reg (uB w)))
      let n := (o + bv) % 2 ^ 64
      ((r.1.mstN a n 8).uResult e.val (uD w) (o % 2 ^ 48)).uNext e.val w none))) ∧
  (∀ (s : State) (d : Dev) (e : Fin 12) (w : Nat) (a : Nat), s.dev.met = d →
    d.microReady e.val w = true →
    uOpc w = 12 →
    uFn w = 2 →
    (d.eng e.val).reg (uA w) = a →
    (d.veCommit e.val).veState e.val = 2 →
    a % 8 = 0 →
    arrayOf a = 5 →
    ((d.veCommit e.val).readCheck (10 + e.val) a 8).2 = true →
    exec (.amoCas e) s = .next (s.after (
      let r := (d.veCommit e.val).readCheck (10 + e.val) a 8
      let o := r.1.ldN a 8
      let bv := unsigned 64 (signed 48 ((d.eng e.val).reg (uB w)))
      let dv := unsigned 64 (signed 48 ((d.eng e.val).reg (uD w)))
      let n := if o = dv then bv else o
      ((r.1.mstN a n 8).uResult e.val (uD w) (o % 2 ^ 48)).uNext e.val w none))) ∧
  (∀ (s : State) (d : Dev) (e : Fin 12) (k : Fin 4) (err : Option MemErr) (l : Load), s.dev.met = d →
    (d.eng e.val).loads[k.val]? = some l →
    l.size ≠ 0 →
    ((d.setEng e.val { d.eng e.val with loads := (d.eng e.val).loads.eraseIdx k.val }).readMem (10 + e.val) l.addr l.size err).2 = true →
    exec (.loadReturn e k err) s = .next (s.after (
      let d1 := ((d.setEng e.val { d.eng e.val with loads := (d.eng e.val).loads.eraseIdx k.val }).readMem (10 + e.val) l.addr l.size err).1
      d1.setEng e.val ((d1.eng e.val).put l.reg l.val)))) ∧
  (∀ (s : State) (d : Dev) (e : Fin 12) (k : Fin 4) (err : Option MemErr) (l : Load), s.dev.met = d →
    (d.eng e.val).loads[k.val]? = some l →
    l.size = 0 →
    exec (.loadReturn e k err) s = .next (s.after (
      let d1 := d.setEng e.val { d.eng e.val with loads := (d.eng e.val).loads.eraseIdx k.val }
      d1.setEng e.val ((d1.eng e.val).put l.reg l.val)))) ∧
  (∀ (s : State) (d : Dev) (e : Fin 12) (k : Fin 4) (err : Option MemErr) (l : Load), s.dev.met = d →
    (d.eng e.val).loads[k.val]? = some l →
    l.size ≠ 0 →
    ((d.setEng e.val { d.eng e.val with loads := (d.eng e.val).loads.eraseIdx k.val }).readMem (10 + e.val) l.addr l.size err).2 = false →
    exec (.loadReturn e k err) s = .next (s.after (((d.setEng e.val { d.eng e.val with loads := (d.eng e.val).loads.eraseIdx k.val }).readMem (10 + e.val) l.addr l.size err).1.veEnd e.val 2)))

/-- Dispatch, the control micro-ops, COMMIT, DONE and a parity error. An idle engine dispatches its next trigger into G27 to G31
and starts at its entry; BR, CALL, RET and JR go where their condition says; COMMIT releases the buffer; DONE commits, counts
the routine and leaves the engine idle, or halted where a halt waited; a parity error on a fetch records its address and ends
the routine. Where the spec leaves a point open the clause follows the model's choice, log 36, 37, 38. (11_vertical_engines
R395, 11_vertical_engines R397, 11_vertical_engines R400, 11_vertical_engines R402, 11_vertical_engines R405,
11_vertical_engines R407, 11_vertical_engines R408, 11_vertical_engines R409) -/
def Obligations.MicroControl : Prop :=
  (∀ (s : State) (d : Dev) (e : Fin 12) (w : Nat), s.dev.met = d →
    d.microReady e.val w = true →
    uOpc w = 13 →
    exec (.br e) s = .next (s.after (d.uNext e.val w (if condHolds (uCond w) ((d.eng e.val).reg (uBrA w)) then some (uTgt w) else none)))) ∧
  (∀ (s : State) (d : Dev) (e : Fin 12) (w : Nat), s.dev.met = d →
    d.microReady e.val w = true →
    uOpc w = 14 →
    condHolds (uCond w) ((d.eng e.val).reg (uBrA w)) = true →
    exec (.call e) s = .next (s.after (
      let x := d.eng e.val
      (d.setEng e.val { x with stack := (d.rd .VE_EPC_PC e.val + x.pos + 1) % 32768 :: x.stack }).uNext e.val w (some (uTgt w))))) ∧
  (∀ (s : State) (d : Dev) (e : Fin 12) (w : Nat), s.dev.met = d →
    d.microReady e.val w = true →
    uOpc w = 14 →
    condHolds (uCond w) ((d.eng e.val).reg (uBrA w)) = false →
    exec (.call e) s = .next (s.after (d.uNext e.val w none))) ∧
  (∀ (s : State) (d : Dev) (e : Fin 12) (w : Nat), s.dev.met = d →
    d.microReady e.val w = true →
    uOpc w = 15 →
    condHolds (uCond w) ((d.eng e.val).reg (uBrA w)) = true →
    exec (.ret e) s = .next (s.after (
      let x := d.eng e.val
      (d.setEng e.val { x with stack := x.stack.tail }).uNext e.val w x.stack.head?))) ∧
  (∀ (s : State) (d : Dev) (e : Fin 12) (w : Nat), s.dev.met = d →
    d.microReady e.val w = true →
    uOpc w = 15 →
    condHolds (uCond w) ((d.eng e.val).reg (uBrA w)) = false →
    exec (.ret e) s = .next (s.after (d.uNext e.val w none))) ∧
  (∀ (s : State) (d : Dev) (e : Fin 12) (w : Nat), s.dev.met = d →
    d.microReady e.val w = true →
    uOpc w = 16 →
    exec (.jr e) s = .next (s.after (d.uNext e.val w (some ((d.eng e.val).reg (uA w) % 32768))))) ∧
  (∀ (s : State) (d : Dev) (e : Fin 12) (w : Nat), s.dev.met = d →
    d.microReady e.val w = true →
    uOpc w = 20 →
    exec (.commit e) s = .next (s.after ((d.veCommit e.val).uNext e.val w none))) ∧
  (∀ (s : State) (d : Dev) (e : Fin 12) (w : Nat), s.dev.met = d →
    d.microReady e.val w = true →
    uOpc w = 21 →
    (d.veCommit e.val).veState e.val = 2 →
    exec (.done e) s = .next (s.after (
      let d1 := d.veCommit e.val
      let x := d1.eng e.val
      let y := x.res.foldl (fun (x : Eng) r => x.put r.1 r.2) x
      let y := { y with run := none, stack := [], pos := 0, res := [], noPre := false, halting := false }
      let d1 := (((d1.setEng e.val y).wr .VE_ESTAT_COMMITTED e.val 0).count .VE_ECNT_ROUTINES e.val).wr .VE_ESTAT_STATE e.val (if x.halting then 3 else 1)
      if x.halting && decide (4 ≤ e.val) then (d1.adoptWith (e.val - 4) none).checkCeAll else d1))) ∧
  (∀ (s : State) (d : Dev) (e : Fin 12) (t : Trig), s.dev.met = d →
    d.rd .VE_ESTAT_STATE e.val = 1 →
    d.nextTrigger e.val = some t →
    exec (.triggerDispatch e) s = .next (s.after (
      let x := d.eng e.val
      let y := { x with queues := x.queues.erase t, run := some t, stack := [], pos := 0, res := [], buffer := [], refNext := false, noPre := decide (d.rd .VE_ECFG_MAXRST e.val ≤ t.restarts) }
      let g27 := t.type % 32 + t.prio % 4 * 2 ^ 8 + t.src % 256 * 2 ^ 16 + t.restarts % 256 * 2 ^ 24
      let y := ((((y.put 27 g27).put 28 (t.a0 % 2 ^ 32)).put 29 (t.a1 % 2 ^ 32)).put 30 (t.a2 % 2 ^ 32)).put 31 (t.a3 % 2 ^ 32)
      let d1 := (d.setEng e.val { y with g0 := y.g }).wr .VE_ESTAT_STATE e.val 2
      ((d1.wr .VE_ESTAT_COMMITTED e.val 0).wr .VE_EPC_PC e.val (t.type % 32 * 8)).beginWait (.routine e.val)))) ∧
  (∀ (s : State) (d : Dev) (e : Fin 12) (k : Fin 4), s.dev.met = d →
    d.rd .VE_ESTAT_STATE e.val = 2 →
    exec (.microopParityError e k) s = .next (s.after (
      let a := (d.rd .VE_EPC_PC e.val + k.val) % 32768
      ((d.wr .VE_EPC_MCADDR e.val a).wr .VE_CSSTAT_BADADDR e.val a).veEnd e.val 9)))

/-- EMIT and POST. EMIT hands the descriptor at table-SRAM offset A to SCH; POST hands the operand at that offset to HIF, to the
recorder, to the management cluster's interrupt or to SCH by its code; each takes an entry of the commit buffer, or acts at once
after COMMIT. Where the spec leaves a point open the clause follows the model's choice, log 38, 51. (11_vertical_engines R395,
11_vertical_engines R404, 11_vertical_engines R405, 11_vertical_engines R416, 12_host_interface R459, 13_scheduler R467,
17_faults_and_events R644) -/
def Obligations.MicroPosts : Prop :=
  (∀ (s : State) (d : Dev) (e : Fin 12) (w : Nat), s.dev.met = d →
    d.microReady e.val w = true →
    uOpc w = 18 →
    exec (.emit e) s = .next (s.after ((d.veDo e.val (.emit ((d.eng e.val).reg (uA w)))).uNext e.val w none))) ∧
  (∀ (s : State) (d : Dev) (e : Fin 12) (w : Nat), s.dev.met = d →
    d.microReady e.val w = true →
    uOpc w = 19 →
    uImm w % 16 = 0 →
    (d.postOp e.val w = 0 ∨ 3 < d.postOp e.val w) →
    exec (.hifComplete e) s = .next (s.after ((d.veDo e.val (.post 0 ((d.eng e.val).reg (uA w)))).uNext e.val w none))) ∧
  (∀ (s : State) (d : Dev) (e : Fin 12) (w : Nat), s.dev.met = d →
    d.microReady e.val w = true →
    uOpc w = 19 →
    uImm w % 16 = 0 →
    d.postOp e.val w = 1 →
    exec (.hifToHostComplete e) s = .next (s.after ((d.veDo e.val (.post 0 ((d.eng e.val).reg (uA w)))).uNext e.val w none))) ∧
  (∀ (s : State) (d : Dev) (e : Fin 12) (w : Nat), s.dev.met = d →
    d.microReady e.val w = true →
    uOpc w = 19 →
    uImm w % 16 = 0 →
    d.postOp e.val w = 2 →
    exec (.hifFromHost e) s = .next (s.after ((d.veDo e.val (.post 0 ((d.eng e.val).reg (uA w)))).uNext e.val w none))) ∧
  (∀ (s : State) (d : Dev) (e : Fin 12) (w : Nat), s.dev.met = d →
    d.microReady e.val w = true →
    uOpc w = 19 →
    uImm w % 16 = 0 →
    d.postOp e.val w = 3 →
    exec (.hifToHost e) s = .next (s.after ((d.veDo e.val (.post 0 ((d.eng e.val).reg (uA w)))).uNext e.val w none))) ∧
  (∀ (s : State) (d : Dev) (e : Fin 12) (w : Nat), s.dev.met = d →
    d.microReady e.val w = true →
    uOpc w = 19 →
    uImm w % 16 = 1 →
    exec (.postEvent e) s = .next (s.after ((d.veDo e.val (.post 1 ((d.eng e.val).reg (uA w)))).uNext e.val w none))) ∧
  (∀ (s : State) (d : Dev) (e : Fin 12) (w : Nat), s.dev.met = d →
    d.microReady e.val w = true →
    uOpc w = 19 →
    uImm w % 16 = 2 →
    exec (.postInterrupt e) s = .next (s.after ((d.veDo e.val (.post 2 ((d.eng e.val).reg (uA w)))).uNext e.val w none))) ∧
  (∀ (s : State) (d : Dev) (e : Fin 12) (w : Nat), s.dev.met = d →
    d.microReady e.val w = true →
    uOpc w = 19 →
    uImm w % 16 = 3 →
    exec (.postRelease e) s = .next (s.after ((d.veDo e.val (.post 3 ((d.eng e.val).reg (uA w)))).uNext e.val w none)))

/-- Links, controller resets, shutdown, doorbells, vectors and configuration space. Link up and link down set and clear the link
status and reset the controller; function-level reset, CC.EN, the subsystem reset and PERST reset controllers, with
configuration space where R423, R457 and R722 say; CC.EN builds empty admin queues; shutdown sets SHST; a doorbell moves a tail
or a head and releases what waited, and a bad one raises an error event; aggregated completions signal at the timeout;
configuration space and the MSI-X table are read and written under their masks; Cicada entry unloads the heads. Where the spec
leaves a point open the clause follows the model's choice, log 21, 58. (12_host_interface R420, 12_host_interface R421,
12_host_interface R422, 12_host_interface R423, 12_host_interface R424, 12_host_interface R425, 12_host_interface R428,
12_host_interface R434, 12_host_interface R457, 13_scheduler R502, 20_electrical_and_package R722) -/
def Obligations.HostPortsAndResets : Prop :=
  (∀ (s : State) (d : Dev) (p : Fin 2) (speed : Fin 6) (width : Fin 5), s.dev.met = d →
    d.portExists p.val = true →
    d.rd .HIF_LNKSTAT_UP p.val = 0 →
    exec (.pcieLinkUp p speed width) s = .next (s.after (((d.wr .HIF_LNKSTAT_UP p.val 1).wr .HIF_LNKSTAT_SPEED p.val speed.val).wr .HIF_LNKSTAT_WIDTH p.val width.val))) ∧
  (∀ (s : State) (d : Dev) (p : Fin 2), s.dev.met = d →
    d.portExists p.val = true →
    d.rd .HIF_LNKSTAT_UP p.val ≠ 0 →
    exec (.linkDown p) s = .next (s.after (
      let d1 := d.controllerReset p.val 3
      (((d1.wr .HIF_LNKSTAT_UP p.val 0).wr .HIF_LNKSTAT_SPEED p.val 0).wr .HIF_LNKSTAT_WIDTH p.val 0).count .HIF_PERR_LINKDOWN p.val))) ∧
  (∀ (s : State) (d : Dev) (p : Fin 2), s.dev.met = d →
    d.portExists p.val = true →
    exec (.functionLevelReset p) s = .next (s.after (
      let d1 := d.controllerReset p.val 2
      d1.setPort p.val { d1.port p.val with cfg := [], msix := [], pba := [] }))) ∧
  (∀ (s : State) (d : Dev) (p : Fin 2) (cc aqa : Word) (asq acq : BitVec 64), s.dev.met = d →
    d.portExists p.val = true →
    bit (d.port p.val).cc 0 = false →
    bit cc.toNat 0 = true →
    exec (.controllerEnable p cc aqa asq acq) s = .next (s.after (
      let sq : Sq := { base := asq.toNat / 4096 * 4096, size := bits aqa.toNat 0 12 + 1, head := 0, tail := 0, cq := 0, prio := 0, inflight := 0, stop := false }
      let cq : Cq := { base := acq.toNat / 4096 * 4096, size := bits aqa.toNat 16 12 + 1, head := 0, tail := 0, vec := 0, agg := 0, phase := true, ien := true }
      let x := { d.port p.val with cc := cc.toNat, aqa := aqa.toNat, asq := asq.toNat, acq := acq.toNat, sqs := [(0, sq)], cqs := [(0, cq)] }
      let d1 := d.setPort p.val { x with warn := d.critical x }
      if goodCc cc.toNat then d1 else d1.wr .HIF_NVMSTAT_CFS p.val 1))) ∧
  (∀ (s : State) (d : Dev) (p : Fin 2), s.dev.met = d →
    bit (d.port p.val).cc 0 = true →
    exec (.controllerReset p) s = .next (s.after (d.controllerReset p.val 2))) ∧
  (∀ (s : State) (d : Dev), s.dev.met = d →
    exec .nvmSubsystemReset s = .next (s.after (
      let d1 := d.portList.foldl (fun x p => ((x.controllerReset p 2).configReset p).linkDown p) d
      { d1 with hif := { d1.hif with feats := [] } }))) ∧
  (∀ (s : State) (d : Dev) (p : Fin 2), s.dev.met = d →
    d.portExists p.val = true →
    d.rd .HIF_LNKSTAT_UP p.val ≠ 0 →
    exec (.fundamentalReset p) s = .next (s.after (
      let d1 := (d.count .HIF_PERR_LINKDOWN p.val).controllerReset p.val 3
      (d1.configReset p.val).linkDown p.val))) ∧
  (∀ (s : State) (d : Dev) (p : Fin 2), s.dev.met = d →
    d.portExists p.val = true →
    bit (d.port p.val).cc 0 = true →
    (d.port p.val).quiet = false →
    exec (.normalShutdown p) s = .next (s.after (
      let x := d.port p.val
      (d.setPort p.val { x with quiet := true, cc := x.cc / 2 ^ 16 * 2 ^ 16 + x.cc % 2 ^ 14 + 2 ^ 14 }).wr .HIF_NVMSTAT_SHST p.val 1))) ∧
  (∀ (s : State) (d : Dev) (p : Fin 2), s.dev.met = d →
    d.portExists p.val = true →
    bit (d.port p.val).cc 0 = true →
    exec (.abruptShutdown p) s = .next (s.after ((d.controllerReset p.val 2).wr .HIF_NVMSTAT_SHST p.val 2))) ∧
  (∀ (s : State) (d : Dev) (p : Fin 2) (u : Bool), s.dev.met = d →
    d.portExists p.val = true →
    exec (.pcieError p u) s = .next (s.after (if u then d.count .HIF_PERR_UNCOR p.val else d.count .HIF_PERR_CORR p.val))) ∧
  (∀ (s : State) (d : Dev) (on : Bool), s.dev.met = d →
    exec (.hifPause on) s = .next (s.after (d.wr .HIF_CTL_PAUSE 0 (if on then 1 else 0)))) ∧
  (∀ (s : State) (d : Dev) (p : Fin 2) (q : Fin 257) (v : BitVec 16) (x : Sq), s.dev.met = d →
    d.ctrlReady p.val = true →
    Tab.look (d.port p.val).sqs q.val = some x →
    v.toNat < x.size →
    exec (.doorbellWrite p q false v) s = .next (s.after (
      let y := d.port p.val
      d.setPort p.val { y with sqs := Tab.put y.sqs q.val { x with tail := v.toNat } }))) ∧
  (∀ (s : State) (d : Dev) (p : Fin 2) (q : Fin 257) (v : BitVec 16) (x : Cq), s.dev.met = d →
    d.ctrlReady p.val = true →
    Tab.look (d.port p.val).cqs q.val = some x →
    v.toNat < x.size →
    exec (.doorbellWrite p q true v) s = .next (s.after (
      let y := d.port p.val
      (((d.setPort p.val { y with cqs := Tab.put y.cqs q.val { x with head := v.toNat } }).drainAdmin p.val).retryIo p.val).drainAdmin p.val))) ∧
  (∀ (s : State) (d : Dev) (p : Fin 2) (q : Fin 257) (cq : Bool) (v : BitVec 16), s.dev.met = d →
    d.ctrlReady p.val = true →
    (if cq then (Tab.look (d.port p.val).cqs q.val).isNone else (Tab.look (d.port p.val).sqs q.val).isNone) = true →
    exec (.doorbellWrite p q cq v) s = .next (s.after (d.asyncEvent p.val 0 0 1 0))) ∧
  (∀ (s : State) (d : Dev) (p : Fin 2) (v : Fin 257) (after : Nat), s.dev.met.advance after = d →
    (d.port p.val).cqs.any (fun e => e.2.vec == v.val && e.2.agg != 0) = true →
    d.waited (.coalesce p.val v.val) ((d.port p.val).feat 8 / 256 % 256 * 125000) = true →
    exec (.interruptCoalescingTimeout p v after) s = .next (s.after (
      let x := d.port p.val
      let cqs := x.cqs.map fun e => if e.2.vec = v.val then (e.1, { e.2 with agg := 0 }) else e
      (d.setPort p.val { x with cqs := cqs }).interrupt p.val v.val))) ∧
  (∀ (s : State) (d : Dev) (p : Fin 2) (k : Fin 1024), s.dev.met = d →
    d.portExists p.val = true →
    d.rd .HIF_LNKSTAT_UP p.val ≠ 0 →
    exec (.pcieConfigAccess p (.read k)) s = .next (s.after (d.emit (.data (22 + p.val) (Tab.getD (d.port p.val).cfg k.val (d.configInit k.val)))))) ∧
  (∀ (s : State) (d : Dev) (p : Fin 2) (k : Fin 1024) (v : Word), s.dev.met = d →
    d.portExists p.val = true →
    d.rd .HIF_LNKSTAT_UP p.val ≠ 0 →
    exec (.pcieConfigAccess p (.write k v)) s = .next (s.after (
      let x := d.port p.val
      let m := configMask k.val
      let old := Tab.getD x.cfg k.val (d.configInit k.val)
      (d.setPort p.val { x with cfg := Tab.put x.cfg k.val ((old &&& (2 ^ 32 - 1 - m)) ||| (v.toNat &&& m)) }).interruptsNow p.val))) ∧
  (∀ (s : State) (d : Dev) (p : Fin 2) (k : Fin 1028), s.dev.met = d →
    d.portExists p.val = true →
    d.rd .HIF_LNKSTAT_UP p.val ≠ 0 →
    exec (.pcieConfigAccess p (.tableRead k)) s = .next (s.after (d.emit (.data (22 + p.val) ((d.port p.val).msixWord (k.val / 4) (k.val % 4)))))) ∧
  (∀ (s : State) (d : Dev) (p : Fin 2) (k : Fin 1028) (v : Word), s.dev.met = d →
    d.portExists p.val = true →
    d.rd .HIF_LNKSTAT_UP p.val ≠ 0 →
    exec (.pcieConfigAccess p (.tableWrite k v)) s = .next (s.after (
      let x := d.port p.val
      (d.setPort p.val { x with msix := Tab.put x.msix k.val v.toNat }).interruptsNow p.val))) ∧
  (∀ (s : State) (d : Dev), s.dev.met = d →
    d.rd .SCH_STAT_STATE = 4 →
    d.cicadaHolds d.hostRests = true →
    exec .cicadaEntry s = .next (s.after ((List.range 4).foldl Dev.unloadHeads (d.toSch 5))))

/-- Fetch, and the I/O commands. A fetch cycle takes at most one command from each controller, an admin command before an I/O
command, and counts two changes of one namespace's feature; a fetched I/O command that HIF's checks pass is handed to the
command engine with the fewest CMD triggers, or held while none works, one that fails a check ends with that check's status, and
Flush ends at once; data asked of the host is checked, stored and offered again; an accepted transfer and the recovery time
limit are noted. Where the spec leaves a point open the clause follows the model's choice, log 20, 45, 58, 63.
(11_vertical_engines R412, 12_host_interface R427, 12_host_interface R429, 12_host_interface R430, 12_host_interface R433,
12_host_interface R436, 12_host_interface R443, 12_host_interface R452, 12_host_interface R453, 12_host_interface R458,
12_host_interface R459, 13_scheduler R470) -/
def Obligations.HostFetchAndIoCommands : Prop :=
  (∀ (s : State) (d : Dev) (e0 e1 : List Word), s.dev.met = d →
    exec (.commandFetch e0 e1) s = .next (s.after (
      let d := d.advance d.toFetch
      let d1 := d.fetchPort 0 (e0.map BitVec.toNat)
      let d1 := if d1.portExists 1 then d1.fetchPort 1 (e1.map BitVec.toNat) else d1
      match d1.hif.adm.drop d.hif.adm.length with
      | [a, b] => match d1.clash a b with
        | some n => ((d1.count .HIF_DPCNT_COUNT).stick .HIF_STAT_DPCONF).event 0x303 n 5 a.fseq b.fseq
        | none => d1
      | _ => d1))) ∧
  (∀ (s : State) (d : Dev) (e0 e1 : List Word) (x : Sq), s.dev.met = d →
    (d.advance d.toFetch).portExists 1 = false →
    (d.advance d.toFetch).fetches 0 = true →
    Tab.look ((d.advance d.toFetch).port 0).sqs 0 = some x →
    x.waits = true →
    (d.advance d.toFetch).admRoom = true →
    exec (.commandFetch e0 e1) s = .next (s.after (
      let d := d.advance d.toFetch
      let fseq := d.rd .HIF_FSEQ_NEXT
      let d1 := d.wr .HIF_FSEQ_NEXT 0 (fseq + 1)
      let y := d.port 0
      let d1 := d1.setPort 0 { y with sqs := Tab.put y.sqs 0 { x with head := (x.head + 1) % max 1 x.size } }
      { d1 with hif := { d1.hif with adm := d1.hif.adm ++ [{ fseq := fseq, port := 0, cid := sqeCid (e0.map BitVec.toNat), sqe := e0.map BitVec.toNat, ring := none }] } }))) ∧
  (∀ (s : State) (d : Dev) (fseq : BitVec 32) (x : Cmd) (k : Nat), s.dev.met = d →
    d.cmdOf fseq.toNat = some x →
    x.phase = .fetched →
    sqeOp x.sqe = 1 →
    d.ioRefusal (d.port x.port) x.sqe = none →
    d.fewest (fun t => t.type == tCmd) = some k →
    exec (.write fseq) s = .next (s.after (
      let d1 := d.setCmd { x with phase := .offered, owner := d.ownerId k }
      d1.trigger (4 + k) tCmd 0 (d1.recordOfs x.idx) x.fseq (x.cid + (x.sq - 1) * 65536 + x.port * 2 ^ 24) 0))) ∧
  (∀ (s : State) (d : Dev) (fseq : BitVec 32) (x : Cmd) (k : Nat), s.dev.met = d →
    d.cmdOf fseq.toNat = some x →
    x.phase = .fetched →
    sqeOp x.sqe = 2 →
    d.ioRefusal (d.port x.port) x.sqe = none →
    d.fewest (fun t => t.type == tCmd) = some k →
    exec (.read fseq) s = .next (s.after (
      let d1 := d.setCmd { x with phase := .offered, owner := d.ownerId k }
      d1.trigger (4 + k) tCmd 0 (d1.recordOfs x.idx) x.fseq (x.cid + (x.sq - 1) * 65536 + x.port * 2 ^ 24) 0))) ∧
  (∀ (s : State) (d : Dev) (fseq : BitVec 32) (x : Cmd) (k : Nat), s.dev.met = d →
    d.cmdOf fseq.toNat = some x →
    x.phase = .fetched →
    sqeOp x.sqe = 8 →
    d.ioRefusal (d.port x.port) x.sqe = none →
    d.fewest (fun t => t.type == tCmd) = some k →
    exec (.writeZeroes fseq) s = .next (s.after (
      let d1 := d.setCmd { x with phase := .offered, owner := d.ownerId k }
      d1.trigger (4 + k) tCmd 0 (d1.recordOfs x.idx) x.fseq (x.cid + (x.sq - 1) * 65536 + x.port * 2 ^ 24) 0))) ∧
  (∀ (s : State) (d : Dev) (fseq : BitVec 32) (x : Cmd) (k : Nat), s.dev.met = d →
    d.cmdOf fseq.toNat = some x →
    x.phase = .fetched →
    sqeOp x.sqe = 12 →
    d.ioRefusal (d.port x.port) x.sqe = none →
    d.fewest (fun t => t.type == tCmd) = some k →
    exec (.verify fseq) s = .next (s.after (
      let d1 := d.setCmd { x with phase := .offered, owner := d.ownerId k }
      d1.trigger (4 + k) tCmd 0 (d1.recordOfs x.idx) x.fseq (x.cid + (x.sq - 1) * 65536 + x.port * 2 ^ 24) 0))) ∧
  (∀ (s : State) (d : Dev) (fseq : BitVec 32) (x : Cmd) (k : Nat), s.dev.met = d →
    d.cmdOf fseq.toNat = some x →
    x.phase = .fetched →
    sqeOp x.sqe = 121 →
    sqeZsa x.sqe = 3 →
    d.ioRefusal (d.port x.port) x.sqe = none →
    d.fewest (fun t => t.type == tCmd) = some k →
    exec (.zoneOpen fseq) s = .next (s.after (
      let d1 := d.setCmd { x with phase := .offered, owner := d.ownerId k }
      d1.trigger (4 + k) tCmd 0 (d1.recordOfs x.idx) x.fseq (x.cid + (x.sq - 1) * 65536 + x.port * 2 ^ 24) 0))) ∧
  (∀ (s : State) (d : Dev) (fseq : BitVec 32) (x : Cmd) (k : Nat), s.dev.met = d →
    d.cmdOf fseq.toNat = some x →
    x.phase = .fetched →
    sqeOp x.sqe = 121 →
    sqeZsa x.sqe = 1 →
    d.ioRefusal (d.port x.port) x.sqe = none →
    d.fewest (fun t => t.type == tCmd) = some k →
    exec (.zoneClose fseq) s = .next (s.after (
      let d1 := d.setCmd { x with phase := .offered, owner := d.ownerId k }
      d1.trigger (4 + k) tCmd 0 (d1.recordOfs x.idx) x.fseq (x.cid + (x.sq - 1) * 65536 + x.port * 2 ^ 24) 0))) ∧
  (∀ (s : State) (d : Dev) (fseq : BitVec 32) (x : Cmd) (k : Nat), s.dev.met = d →
    d.cmdOf fseq.toNat = some x →
    x.phase = .fetched →
    sqeOp x.sqe = 121 →
    sqeZsa x.sqe = 2 →
    d.ioRefusal (d.port x.port) x.sqe = none →
    d.fewest (fun t => t.type == tCmd) = some k →
    exec (.zoneFinish fseq) s = .next (s.after (
      let d1 := d.setCmd { x with phase := .offered, owner := d.ownerId k }
      d1.trigger (4 + k) tCmd 0 (d1.recordOfs x.idx) x.fseq (x.cid + (x.sq - 1) * 65536 + x.port * 2 ^ 24) 0))) ∧
  (∀ (s : State) (d : Dev) (fseq : BitVec 32) (x : Cmd) (k : Nat), s.dev.met = d →
    d.cmdOf fseq.toNat = some x →
    x.phase = .fetched →
    sqeOp x.sqe = 121 →
    sqeZsa x.sqe = 4 →
    d.ioRefusal (d.port x.port) x.sqe = none →
    d.fewest (fun t => t.type == tCmd) = some k →
    exec (.zoneReset fseq) s = .next (s.after (
      let d1 := d.setCmd { x with phase := .offered, owner := d.ownerId k }
      d1.trigger (4 + k) tCmd 0 (d1.recordOfs x.idx) x.fseq (x.cid + (x.sq - 1) * 65536 + x.port * 2 ^ 24) 0))) ∧
  (∀ (s : State) (d : Dev) (fseq : BitVec 32) (x : Cmd) (k : Nat), s.dev.met = d →
    d.cmdOf fseq.toNat = some x →
    x.phase = .fetched →
    sqeOp x.sqe = 121 →
    sqeZsa x.sqe = 5 →
    d.ioRefusal (d.port x.port) x.sqe = none →
    d.fewest (fun t => t.type == tCmd) = some k →
    exec (.zoneOffline fseq) s = .next (s.after (
      let d1 := d.setCmd { x with phase := .offered, owner := d.ownerId k }
      d1.trigger (4 + k) tCmd 0 (d1.recordOfs x.idx) x.fseq (x.cid + (x.sq - 1) * 65536 + x.port * 2 ^ 24) 0))) ∧
  (∀ (s : State) (d : Dev) (fseq : BitVec 32) (x : Cmd) (k : Nat), s.dev.met = d →
    d.cmdOf fseq.toNat = some x →
    x.phase = .fetched →
    sqeOp x.sqe = 122 →
    d.ioRefusal (d.port x.port) x.sqe = none →
    d.fewest (fun t => t.type == tCmd) = some k →
    exec (.zoneManagementReceive fseq) s = .next (s.after (
      let d1 := d.setCmd { x with phase := .offered, owner := d.ownerId k }
      d1.trigger (4 + k) tCmd 0 (d1.recordOfs x.idx) x.fseq (x.cid + (x.sq - 1) * 65536 + x.port * 2 ^ 24) 0))) ∧
  (∀ (s : State) (d : Dev) (fseq : BitVec 32) (x : Cmd) (k : Nat), s.dev.met = d →
    d.cmdOf fseq.toNat = some x →
    x.phase = .fetched →
    sqeOp x.sqe = 125 →
    d.ioRefusal (d.port x.port) x.sqe = none →
    d.fewest (fun t => t.type == tCmd) = some k →
    exec (.zoneAppend fseq) s = .next (s.after (
      let d1 := d.setCmd { x with phase := .offered, owner := d.ownerId k }
      d1.trigger (4 + k) tCmd 0 (d1.recordOfs x.idx) x.fseq (x.cid + (x.sq - 1) * 65536 + x.port * 2 ^ 24) 0))) ∧
  (∀ (s : State) (d : Dev) (fseq : BitVec 32) (x : Cmd) (k : Nat), s.dev.met = d →
    d.cmdOf fseq.toNat = some x →
    x.phase = .fetched →
    sqeOp x.sqe = 132 →
    d.ioRefusal (d.port x.port) x.sqe = none →
    d.fewest (fun t => t.type == tCmd) = some k →
    exec (.zoneAttribute fseq) s = .next (s.after (
      let d1 := d.setCmd { x with phase := .offered, owner := d.ownerId k }
      d1.trigger (4 + k) tCmd 0 (d1.recordOfs x.idx) x.fseq (x.cid + (x.sq - 1) * 65536 + x.port * 2 ^ 24) 0))) ∧
  (∀ (s : State) (d : Dev) (fseq : BitVec 32) (x : Cmd), s.dev.met = d →
    d.cmdOf fseq.toNat = some x →
    x.phase = .fetched →
    sqeOp x.sqe = 0 →
    d.ioRefusal (d.port x.port) x.sqe = none →
    exec (.flush fseq) s = .next (s.after (d.complete x 0 0 0))) ∧
  (∀ (s : State) (d : Dev) (fseq : BitVec 32) (x : Cmd) (st : Nat), s.dev.met = d →
    d.cmdOf fseq.toNat = some x →
    x.phase = .fetched →
    sqeOp x.sqe = 2 →
    d.ioRefusal (d.port x.port) x.sqe = some st →
    exec (.read fseq) s = .next (s.after (d.complete x st 0 0))) ∧
  (∀ (s : State) (d : Dev) (fseq : BitVec 32) (x : Cmd), s.dev.met = d →
    d.cmdOf fseq.toNat = some x →
    x.phase = .fetched →
    sqeOp x.sqe = 2 →
    d.ioRefusal (d.port x.port) x.sqe = none →
    d.fewest (fun t => t.type == tCmd) = none →
    exec (.read fseq) s = .next (s.after (d.setCmd { x with phase := .held }))) ∧
  (∀ (s : State) (d : Dev) (fseq : BitVec 32) (data md : List (List Byte)) (x : Cmd) (first count buf rtlba : Nat), s.dev.met = d →
    d.cmdOf fseq.toNat = some x →
    x.ask = some (first, count, buf, rtlba) →
    d.bufferHere x buf count = true →
    d.cmdNs x = none →
    exec (.writeDataIn fseq data md) s = .next (s.after (
      let fill (l : List Byte) (k : Nat) : List Byte := (l ++ List.replicate k 0).take k
      ((List.range count).foldl (fun y i => y.mputBytes (buf + i * 4096) (fill (data.getD i []) 4096)) d).offerData { x with got := x.got ++ (List.range count).map (first + ·) } 0))) ∧
  (∀ (s : State) (d : Dev) (fseq : BitVec 32) (data md : List (List Byte)) (x : Cmd) (n : Ns) (first count buf rtlba : Nat), s.dev.met = d →
    d.cmdOf fseq.toNat = some x →
    x.ask = some (first, count, buf, rtlba) →
    d.bufferHere x buf count = true →
    d.cmdNs x = some n →
    exec (.writeDataIn fseq data md) s = .next (s.after (
      let fill (l : List Byte) (k : Nat) : List Byte := (l ++ List.replicate k 0).take k
      let r := (List.range count).foldl (fun (y : Dev × Nat × Nat) i =>
        let b := fill (data.getD i []) 4096
        let m := fill (md.getD i []) n.meta
        let k := if sqePract x.sqe then 0 else n.piFails (sqePrchk x.sqe) (sqeApp x.sqe) (sqeMask x.sqe) (n.refOf x.sqe (first + i)) b m
        (y.1.mputBytes (buf + i * n.stride) (b ++ n.blockIn x.sqe (first + i) rtlba b m), if y.2.1 = 0 then (k, first + i) else y.2)) (d, 0, 0)
      let x := { x with got := x.got ++ (List.range count).map (first + ·) }
      r.1.offerData (if r.2.1 = 0 then x else { x with piAt := r.2.2 }) r.2.1))) ∧
  (∀ (s : State) (d : Dev) (fseq : BitVec 32) (x : Cmd), s.dev.met = d →
    d.cmdOf fseq.toNat = some x →
    x.moving ≠ 0 →
    exec (.hostTransferDone fseq) s = .next (s.after ((d.setCmd { x with moving := x.moving - 1 }).retryIo x.port))) ∧
  (∀ (s : State) (d : Dev) (fseq : BitVec 32) (x : Cmd), s.dev.met = d →
    d.cmdOf fseq.toNat = some x →
    (sqeOp x.sqe = 2 ∨ sqeOp x.sqe = 0x0C) →
    d.nsFeat (sqeNs x.sqe) 5 fseq.toNat % 65536 ≠ 0 →
    exec (.recoveryTimeLimit fseq) s = .next (s.after (d.setCmd { x with limit := true })))

/-- The admin commands that make and end queues and commands. The next admin command enters the ring and, where its fields pass
the checks, creates or deletes its queue or aborts its command, and completes; one whose queue identifier is not free or does
not exist ends with Invalid Queue Identifier; an Asynchronous Event Request waits, or completes with a waiting event. Where the
spec leaves a point open the clause follows the model's choice, log 22, 58. (12_host_interface R424, 12_host_interface R432,
12_host_interface R455, 12_host_interface R456, 12_host_interface R460) -/
def Obligations.HostQueuesAndAbort : Prop :=
  (∀ (s : State) (d : Dev) (a : Adm), s.dev.met = d →
    d.admFront = some a →
    sqeOp a.sqe = 5 →
    1 ≤ sqeDw a.sqe 10 % 65536 →
    sqeDw a.sqe 10 % 65536 ≤ ((d.ringAdm a).port a.port).maxCq →
    (Tab.look ((d.ringAdm a).port a.port).cqs (sqeDw a.sqe 10 % 65536)).isSome = false →
    1 ≤ sqeDw a.sqe 10 / 65536 →
    sqeDw a.sqe 10 / 65536 ≤ 1023 →
    bit (sqeDw a.sqe 11) 0 = true →
    sqeDw a.sqe 6 % 4096 = 0 →
    sqeDw a.sqe 11 / 65536 ≤ 256 →
    exec .createIoCq s = .next (s.after (
      let d1 := d.ringAdm a
      let x := d1.port a.port
      let q : Cq := { base := sqeDw a.sqe 6 + sqeDw a.sqe 7 * 2 ^ 32, size := sqeDw a.sqe 10 / 65536 + 1, head := 0, tail := 0, vec := sqeDw a.sqe 11 / 65536, agg := 0, phase := true, ien := bit (sqeDw a.sqe 11) 1 }
      (d1.setPort a.port { x with cqs := Tab.put x.cqs (sqeDw a.sqe 10 % 65536) q }).endOwn a 0 0 0))) ∧
  (∀ (s : State) (d : Dev) (a : Adm), s.dev.met = d →
    d.admFront = some a →
    sqeOp a.sqe = 5 →
    (Tab.look ((d.ringAdm a).port a.port).cqs (sqeDw a.sqe 10 % 65536)).isSome = true →
    1 ≤ sqeDw a.sqe 10 % 65536 →
    exec .createIoCq s = .next (s.after ((d.ringAdm a).endOwn a (status 1 1 true) 0 0))) ∧
  (∀ (s : State) (d : Dev) (a : Adm), s.dev.met = d →
    d.admFront = some a →
    sqeOp a.sqe = 1 →
    1 ≤ sqeDw a.sqe 10 % 65536 →
    sqeDw a.sqe 10 % 65536 ≤ ((d.ringAdm a).port a.port).maxSq →
    (Tab.look ((d.ringAdm a).port a.port).sqs (sqeDw a.sqe 10 % 65536)).isSome = false →
    1 ≤ sqeDw a.sqe 10 / 65536 →
    sqeDw a.sqe 10 / 65536 ≤ 1023 →
    bit (sqeDw a.sqe 11) 0 = true →
    sqeDw a.sqe 6 % 4096 = 0 →
    1 ≤ sqeDw a.sqe 11 / 65536 →
    (Tab.look ((d.ringAdm a).port a.port).cqs (sqeDw a.sqe 11 / 65536)).isSome = true →
    exec .createIoSq s = .next (s.after (
      let d1 := d.ringAdm a
      let x := d1.port a.port
      let q : Sq := { base := sqeDw a.sqe 6 + sqeDw a.sqe 7 * 2 ^ 32, size := sqeDw a.sqe 10 / 65536 + 1, head := 0, tail := 0, cq := sqeDw a.sqe 11 / 65536, prio := bits (sqeDw a.sqe 11) 1 2, inflight := 0, stop := false }
      (d1.setPort a.port { x with sqs := Tab.put x.sqs (sqeDw a.sqe 10 % 65536) q }).endOwn a 0 0 0))) ∧
  (∀ (s : State) (d : Dev) (a : Adm), s.dev.met = d →
    d.admFront = some a →
    sqeOp a.sqe = 4 →
    1 ≤ sqeDw a.sqe 10 % 65536 →
    (Tab.look ((d.ringAdm a).port a.port).cqs (sqeDw a.sqe 10 % 65536)).isSome = true →
    ((d.ringAdm a).port a.port).sqs.any (fun s => s.2.cq == sqeDw a.sqe 10 % 65536) = false →
    exec .deleteIoCq s = .next (s.after (
      let d1 := d.ringAdm a
      let x := d1.port a.port
      (d1.setPort a.port { x with cqs := Tab.del x.cqs (sqeDw a.sqe 10 % 65536) }).endOwn a 0 0 0))) ∧
  (∀ (s : State) (d : Dev) (a : Adm) (x : Sq) (i : Nat), s.dev.met = d →
    d.admFront = some a →
    sqeOp a.sqe = 0 →
    sqeDw a.sqe 10 % 65536 ≠ 0 →
    Tab.look ((d.ringAdm a).port a.port).sqs (sqeDw a.sqe 10 % 65536) = some x →
    ((d.ringAdm a).hif.adm.find? fun b => b.fseq == a.fseq).bind Adm.ring = some i →
    exec .deleteIoSq s = .next (s.after (
      let d1 := d.ringAdm a
      let q := sqeDw a.sqe 10 % 65536
      let y := d1.port a.port
      let y := { y with sqs := Tab.put y.sqs q { x with stop := true }, dels := y.dels ++ [(q, a.fseq)] }
      let d2 := d1.markAdm i 0 0 0
      let l := d2.hif.cmds.filter fun c => c.port == a.port && c.sq == q
      (l.foldl (fun z c => (z.abortCmd c a.fseq (status 0 8 false)).1) (d2.setPort a.port y)).deletions a.port))) ∧
  (∀ (s : State) (d : Dev) (a : Adm) (x : Cmd), s.dev.met = d →
    d.admFront = some a →
    sqeOp a.sqe = 8 →
    (Tab.look ((d.ringAdm a).port a.port).sqs (sqeDw a.sqe 10 % 65536)).isSome = true →
    sqeDw a.sqe 10 % 65536 ≠ 0 →
    ((d.ringAdm a).hif.cmds.find? fun c => c.port == a.port && c.sq == sqeDw a.sqe 10 % 65536 && c.cid == sqeDw a.sqe 10 / 65536) = some x →
    exec .abort s = .next (s.after (
      let r := (d.ringAdm a).abortCmd x a.fseq (status 0 7 false)
      if r.2 then (r.1.endOwn a 0 1 0).count .HIF_ABCNT_NOTABORTED a.port else (r.1.endOwn a 0 0 0).count .HIF_ABCNT_ABORTED a.port))) ∧
  (∀ (s : State) (d : Dev) (a : Adm), s.dev.met = d →
    d.admFront = some a →
    sqeOp a.sqe = 8 →
    (Tab.look ((d.ringAdm a).port a.port).sqs (sqeDw a.sqe 10 % 65536)).isSome = true →
    sqeDw a.sqe 10 % 65536 ≠ 0 →
    ((d.ringAdm a).hif.cmds.find? fun c => c.port == a.port && c.sq == sqeDw a.sqe 10 % 65536 && c.cid == sqeDw a.sqe 10 / 65536) = none →
    exec .abort s = .next (s.after (
      let d1 := d.ringAdm a
      let x := d1.port a.port
      (d1.setPort a.port { x with marks := x.marks ++ [(sqeDw a.sqe 10 % 65536, sqeDw a.sqe 10 / 65536)] }).endOwn a 0 0 0))) ∧
  (∀ (s : State) (d : Dev) (a : Adm), s.dev.met = d →
    d.admFront = some a →
    sqeOp a.sqe = 12 →
    ((d.ringAdm a).port a.port).aers.length < 4 →
    ((d.ringAdm a).port a.port).aes = [] →
    exec .asyncEventRequest s = .next (s.after (
      let d1 := d.ringAdm a
      let x := d1.port a.port
      d1.setPort a.port { x with aers := x.aers ++ [a.fseq] }))) ∧
  (∀ (s : State) (d : Dev) (a : Adm) (w v : Nat) (rest : List (Nat × Nat)), s.dev.met = d →
    d.admFront = some a →
    sqeOp a.sqe = 12 →
    ((d.ringAdm a).port a.port).aers.length < 4 →
    ((d.ringAdm a).port a.port).aes = (w, v) :: rest →
    exec .asyncEventRequest s = .next (s.after (
      let d1 := d.ringAdm a
      let x := d1.port a.port
      (d1.setPort a.port { x with aes := rest, masked := x.masked ++ [w % 8] }).endOwn a 0 w v)))

/-- Features, Identify, firmware's commands and the diagnostic window. The next admin command enters the ring; Set Features
keeps the value under its identifier, or for one namespace from its fetch on; Get Features and Identify answer what they name;
Get Log Page and Ledger Read give firmware's data in the ring entry, Firmware Commit and Image Download wait there for firmware;
HIF_ADMDONE moves an entry's data and completes it; Diagnostic Window Unlock opens the window and records it. Where the spec
leaves a point open the clause follows the model's choice, log 22, 23, 24, 58. (12_host_interface R432, 12_host_interface R434,
12_host_interface R435, 12_host_interface R438, 12_host_interface R439, 12_host_interface R447, 12_host_interface R460,
12_host_interface R461, 12_host_interface R462) -/
def Obligations.HostFeaturesAndPages : Prop :=
  (∀ (s : State) (d : Dev) (a : Adm), s.dev.met = d →
    d.admFront = some a →
    sqeOp a.sqe = 9 →
    (d.ringAdm a).setRefusal ((d.ringAdm a).port a.port) a.sqe = 0 →
    sqeDw a.sqe 10 % 256 ≠ 5 →
    sqeDw a.sqe 10 % 256 ≠ 7 →
    sqeDw a.sqe 10 % 256 ≠ 2 →
    exec .setFeatures s = .next (s.after (
      let d1 := d.ringAdm a
      let x := d1.port a.port
      let fid := sqeDw a.sqe 10 % 256
      let v := sqeDw a.sqe 11
      (d1.setPort a.port { x with feats := Tab.put x.feats (featKey fid v) (featMask fid v) }).endOwn a 0 0 0))) ∧
  (∀ (s : State) (d : Dev) (a : Adm), s.dev.met = d →
    d.admFront = some a →
    sqeOp a.sqe = 9 →
    (d.ringAdm a).setRefusal ((d.ringAdm a).port a.port) a.sqe = 0 →
    sqeDw a.sqe 10 % 256 = 5 →
    exec .setFeatures s = .next (s.after (
      let d1 := d.ringAdm a
      let e : NsFeat := { ns := sqeNs a.sqe, fid := 5, fseq := a.fseq, val := sqeDw a.sqe 11 % 2 ^ 17 }
      ({ d1 with hif := { d1.hif with feats := d1.hif.feats ++ [e] } }).endOwn a 0 0 0))) ∧
  (∀ (s : State) (d : Dev) (a : Adm) (st : Nat), s.dev.met = d →
    d.admFront = some a →
    sqeOp a.sqe = 9 →
    (d.ringAdm a).setRefusal ((d.ringAdm a).port a.port) a.sqe = st →
    st ≠ 0 →
    exec .setFeatures s = .next (s.after ((d.ringAdm a).endOwn a st 0 0))) ∧
  (∀ (s : State) (d : Dev) (a : Adm), s.dev.met = d →
    d.admFront = some a →
    sqeOp a.sqe = 10 →
    featIds.contains (sqeDw a.sqe 10 % 256) = true →
    bits (sqeDw a.sqe 10) 8 3 = 0 →
    sqeDw a.sqe 10 % 256 ≠ 5 →
    sqeDw a.sqe 10 % 256 ≠ 4 →
    sqeDw a.sqe 10 % 256 ≠ 9 →
    exec .getFeatures s = .next (s.after (
      let d1 := d.ringAdm a
      d1.endOwn a 0 (d1.featNow (d1.port a.port) a.sqe a.fseq) 0))) ∧
  (∀ (s : State) (d : Dev) (a : Adm) (l : List (Nat × Nat × Nat)), s.dev.met = d →
    d.admFront = some a →
    sqeOp a.sqe = 6 →
    (d.ringAdm a).identData a = (0, l) →
    exec .identify s = .next (s.after (((d.ringAdm a).emit (.hostData a.port a.fseq 4096 l)).endOwn a 0 0 0))) ∧
  (∀ (s : State) (d : Dev) (a : Adm) (st : Nat) (l : List (Nat × Nat × Nat)), s.dev.met = d →
    d.admFront = some a →
    sqeOp a.sqe = 6 →
    (d.ringAdm a).identData a = (st, l) →
    st ≠ 0 →
    exec .identify s = .next (s.after ((d.ringAdm a).endOwn a st 0 0))) ∧
  (∀ (s : State) (d : Dev) (a : Adm) (i : Nat), s.dev.met = d →
    d.admFront = some a →
    sqeOp a.sqe = 16 →
    ((d.ringAdm a).hif.adm.find? fun b => b.fseq == a.fseq).bind Adm.ring = some i →
    exec .firmwareCommit s = .next (s.after (d.ringAdm a))) ∧
  (∀ (s : State) (d : Dev) (a : Adm) (i : Nat), s.dev.met = d →
    d.admFront = some a →
    sqeOp a.sqe = 17 →
    ((d.ringAdm a).hif.adm.find? fun b => b.fseq == a.fseq).bind Adm.ring = some i →
    exec .firmwareImageDownload s = .next (s.after (d.ringAdm a))) ∧
  (∀ (s : State) (d : Dev) (base : BitVec 40) (page : List Byte) (a : Adm) (i : Nat), s.dev.met = d →
    d.admFront = some a →
    sqeOp a.sqe = 2 →
    ((d.ringAdm a).hif.adm.find? fun b => b.fseq == a.fseq).bind Adm.ring = some i →
    exec (.getLogPage base page) s = .next (s.after ((d.ringAdm a).getLogPage a i base.toNat page))) ∧
  (∀ (s : State) (d : Dev) (base : BitVec 40) (page : List Byte) (a : Adm) (i : Nat), s.dev.met = d →
    d.admFront = some a →
    sqeOp a.sqe = 2 →
    ((d.ringAdm a).hif.adm.find? fun b => b.fseq == a.fseq).bind Adm.ring = some i →
    sqeDw a.sqe 10 % 256 = 3 →
    sqeDw a.sqe 10 / 65536 = 0 →
    sqeDw a.sqe 11 % 65536 = 0 →
    sqeDw a.sqe 12 = 0 →
    sqeDw a.sqe 13 = 0 →
    exec (.getLogPage base page) s = .next (s.after (
      let part := (page ++ List.replicate 4 0).take 4
      ((d.ringAdm a).putBytes base.toNat part).firmwareEntry i 0 base.toNat 4))) ∧
  (∀ (s : State) (d : Dev) (base : BitVec 40) (a : Adm) (i : Nat), s.dev.met = d →
    d.admFront = some a →
    sqeOp a.sqe = 198 →
    ((d.ringAdm a).hif.adm.find? fun b => b.fseq == a.fseq).bind Adm.ring = some i →
    exec (.ledgerRead base) s = .next (s.after (
      let d1 := d.ringAdm a
      let surf := sqeDw a.sqe 10 % 64
      let first := sqeDw a.sqe 11 % 2 ^ 20
      let n := sqeDw a.sqe 12 % 65536 + 1
      let last := (d1.tpe.zones.map d1.zoneEnt).foldl (fun m z => if z.surf = surf then max m (z.last + 1) else m) 0
      if last < first + n then d1.firmwareEntry i (status 0 2 true) base.toNat 0 else
      let recs := (List.range n).map fun k => d1.wsGet (ledgerIndex surf (first + k))
      (d1.putBytes base.toNat (recs.flatMap fun r => dwBytes [r.w0, r.w1, r.w2, r.w3])).firmwareEntry i 0 base.toNat (16 * n)))) ∧
  (∀ (s : State) (d : Dev) (k : Fin 1024) (data : List Byte) (a : Adm), s.dev.met = d →
    (d.hif.adm.find? fun a => a.ring == some k.val && [0x02, 0x10, 0x11, 0xC6].contains (sqeOp a.sqe)) = some a →
    exec (.adminDone k data) s = .next (s.after (
      let w (j : Nat) : Nat := d.ld32 (d.admAddr k.val + j)
      let base := w 96 + w 100 * 2 ^ 32
      let d1 := if w 104 = 0 ∨ sqeOp a.sqe = 0x10 then d
        else if sqeOp a.sqe = 0x11 then d.putBytes base (data.take (w 104))
        else d.emit (.hostBytes a.port a.fseq (d.ldBytes base (w 104)))
      d1.endAdmin a (w 88 / 2 ^ 17) (w 80) (w 84)))) ∧
  (∀ (s : State) (d : Dev) (a : Adm), s.dev.met = d →
    d.admFront = some a →
    sqeOp a.sqe = 196 →
    1 ≤ sqeDw a.sqe 10 % 4096 →
    sqeDw a.sqe 10 % 4096 ≤ 3600 →
    (d.ringAdm a).rd .SYS_BAR2CTL_DISABLE = 0 →
    exec .diagnosticWindowUnlock s = .next (s.after (
      let d1 := d.ringAdm a
      let s := sqeDw a.sqe 10 % 4096
      ((({ d1 with bus := { d1.bus with unlock := Tab.put d1.bus.unlock a.port s } } : Dev).event 0x300 a.port s 0 0).endOwn a 0 0 0).beginWait (.bar2 a.port)))) ∧
  (∀ (s : State) (d : Dev) (a : Adm), s.dev.met = d →
    d.admFront = some a →
    sqeOp a.sqe = 196 →
    sqeDw a.sqe 10 % 4096 = 0 →
    exec .diagnosticWindowUnlock s = .next (s.after (((d.ringAdm a).lockBar2 a.port 5).endOwn a 0 0 0)))

/-- A step runs the command at the front of the queue. For every state whose queue has command c at its front, step is exec of c
on the state with the queue's rest; on an empty queue one cycle passes (the model's choice, log 2). Every command of every state
answers a next state, and leaves the waiting commands as they are. (95_what_each_step_holds, 02_register_conventions R40) -/
def Obligations.StepAndQueue : Prop :=
  (∀ (s : State) (c : Instr) (rest : List Instr), s.pending = c :: rest → step s = exec c { s with pending := rest }) ∧
  (∀ (s : State), s.pending = [] → step s = .next (s.after s.dev.met.schAct)) ∧
  (∀ (c : Instr) (s : State), ∃ t, exec c s = .next t ∧ t.pending = s.pending)

/-- No gate is open and no writer drives without a valid angle base. After a step the angle base is valid, or every gate of
every sequencer and every read, verify and servo gate of every lane is closed and no writer output drives: from every state in
which TEST_MODE is low, and from every state that has the property itself (TEST_MODE high holds what it finds, R706).
(01_architecture R21, 03_angle_base R87, 20_electrical_and_package R706) -/
def Obligations.StepKeepsGatesSafe : Prop :=
  ∀ (s t : State), step s = .next t → (s.test = false ∨ s.Safe) → t.Safe

/-- FLT_STAT.CRKRUN shows whether CRICKET runs. After a step FLT_STAT.CRKRUN is 1 exactly where a handover has started CRICKET
and no hold, no safe state and no pending source of an effective severity of at least CRKSEV stops it: from every state in which
TEST_MODE is low, and from every state that has the property itself. (17_faults_and_events R614, 17_faults_and_events R628,
20_electrical_and_package R706) -/
def Obligations.StepShowsCricket : Prop :=
  ∀ (s t : State), step s = .next t → (s.test = false ∨ s.CricketShown) → t.CricketShown

/-- What a write does to each field of a register. A write of an IMMEDIATE register gives each RW field its part of the word,
clears the bits of a W1C field that are written 1 and no other bit, and leaves RO, RC and SNAP fields, every other register,
every other instance and memory as they are; reserved bits of every register read 0; and a write that reaches a register without
an action of its own is such a write. (00_scope R14, 00_scope R15, 02_register_conventions R41) -/
def Obligations.AccessCodes : Prop :=
  (∀ (d : Dev) (r : Reg) (i w : Nat) (f : Fld), f ∈ r.info.flds → f.info.acc = .rw →
    (d.plainWrite r i w).rd f i = bits w f.info.lo f.info.w) ∧
  (∀ (d : Dev) (r : Reg) (i w k : Nat) (f : Fld), f ∈ r.info.flds → f.info.acc = .w1c → k < f.info.w →
    bit ((d.plainWrite r i w).rd f i) k = (bit (d.rd f i) k && !bit w (f.info.lo + k))) ∧
  (∀ (d : Dev) (r : Reg) (i w j : Nat) (f : Fld), (f ∈ r.info.flds → j = i → f.info.acc ≠ .rw ∧ f.info.acc ≠ .w1c) →
    (d.plainWrite r i w).rd f j = d.rd f j) ∧
  (∀ (d : Dev) (r : Reg) (i w : Nat), d.plainWrite r i w = { d with regs := (d.plainWrite r i w).regs }) ∧
  (∀ (d : Dev) (r : Reg) (i k : Nat), (∀ f ∈ r.info.flds, k < f.info.lo ∨ f.info.lo + f.info.w ≤ k) → bit (d.word r i) k = false) ∧
  (∀ (s : State) (d : Dev) (x : RegWrite) (r : Reg) (i : Nat), s.dev.met = d → d.busRefuses x.master.id x.addr 4 = false →
    targetOf x.master.id (regOffset x.addr) = .reg r i →
    r ∈ [.SYS_STAT, .SYS_CLKSTAT, .SYS_RSTCAUSE, .FLT_STAT, .ANG_STAT, .LANE_STAT, .ITB_STAT, .TPE_STAT, .VE_ECFG, .HIF_STAT, .MEM_STAT,
      .SPN_STAT, .EVT_STAT] →
    exec (.registerWrite [x] []) s = .next (s.after (d.plainWrite r i x.data.toNat)))

/-- The key of SYS_RSTCTL, and FULL over WARM. A write that reaches SYS_RSTCTL with a KEY other than 0x5A has no effect, whether
it asks for a warm or a full reset; with KEY 0x5A, FULL and WARM both 1, the full reset is requested and the warm one is not.
(02_register_conventions R64) -/
def Obligations.ResetKey : Prop :=
  (∀ (s : State) (d : Dev) (x : RegWrite), s.dev.met = d → d.busRefuses x.master.id x.addr 4 = false →
    targetOf x.master.id (regOffset x.addr) = .reg .SYS_RSTCTL 0 → bits x.data.toNat 8 8 ≠ 0x5A →
    exec (.registerWrite [x] []) s = .next (s.after d)) ∧
  (∀ (s : State) (key : BitVec 8), key ≠ 0x5A →
    exec (.warmResetRequest key) s = .next (s.after s.dev.met) ∧ exec (.fullResetRequest key) s = .next (s.after s.dev.met)) ∧
  (∀ (s : State) (d : Dev) (x : RegWrite), s.dev.met = d → d.busRefuses x.master.id x.addr 4 = false →
    targetOf x.master.id (regOffset x.addr) = .reg .SYS_RSTCTL 0 → bits x.data.toNat 8 8 = 0x5A →
    bit x.data.toNat 1 = true → bit x.data.toNat 0 = true →
    exec (.registerWrite [x] []) s = .next (s.after ((d.wr .SYS_RSTCTL_FULL 0 1).resetRequest 2 4)))

/-- Offsets that hold no register, and unassigned ranges. Within a block window an offset at which, with every alias folded, no
register stands reads 0 and ignores writes, for every admitted master, and neither access has any other effect; an access to an
offset in no window ends in a bus error to the requester and has no other effect. The window of the event buffer (R648) holds
records, so it is no hole. (02_register_conventions R50, 02_register_conventions R51) -/
def Obligations.RegisterHoles : Prop :=
  (∀ (s : State) (d : Dev) (m : Master) (a : BitVec 40) (b : Block), s.dev.met = d → d.admits m.id = true → inRegs a.toNat = true →
    a.toNat % 4 = 0 → blockAt (regOffset a.toNat) = some b → (regOffset a.toNat < 0x38000 ∨ 0x40000 ≤ regOffset a.toNat) →
    (∀ r ∈ b.regs, r.at (foldAlias (regOffset a.toNat)) = none) →
    exec (.clearOnRead m a 4) s = .next (s.after (d.emit (.data m.id 0))) ∧
    ∀ w : Word, exec (.registerWrite [{ master := m, addr := a.toNat, data := w }] []) s = .next (s.after d)) ∧
  (∀ (s : State) (d : Dev) (m : Master) (a : BitVec 40) (size : Nat), s.dev.met = d → blockAt (regOffset a.toNat) = none →
    exec (.clearOnRead m a size) s = .next (s.after (d.emit (.busError m.id))) ∧
    ∀ w : Word, exec (.registerWrite [{ master := m, addr := a.toNat, data := w }] []) s = .next (s.after (d.emit (.busError m.id))))

/-- What a FUSE request programs, and when the fuses take it. A staged FUSE request is accepted only while every bit of its key
hash is 0, for MINSVN only above the current value, and for REVOKE0 only with the value 1; at its commit it adds its bits to
those that are programmed and clears none, the values in effect stay, and a request that is not accepted programs nothing; the
fuses take what is programmed at power-on reset and at a full reset. (19_service_and_rack R681) -/
def Obligations.FuseProgramming : Prop :=
  (∀ (d : Dev) (val : Nat), (d.fuseAccepts 0 val = true ↔ d.cfg.blown.hash0 = 0) ∧ (d.fuseAccepts 1 val = true ↔ d.cfg.blown.hash1 = 0) ∧
    (d.fuseAccepts 2 val = true ↔ d.cfg.blown.minSvn < val) ∧ (d.fuseAccepts 3 val = true ↔ val = 1)) ∧
  (∀ (s : State) (d : Dev) (rivals : List (List RegWrite)) (sel val : Nat), s.dev.met = d → sel < 4 → d.svc.staged = some (.fuse sel val) → d.fuseAccepts sel val = false →
    ∃ e, exec (.outCommit rivals) s = .next (s.after e) ∧ e.cfg = d.cfg) ∧
  (∀ (s : State) (d : Dev) (rivals : List (List RegWrite)) (sel val : Nat), s.dev.met = d → sel < 4 → d.svc.staged = some (.fuse sel val) → d.fuseAccepts sel val = true →
    ∃ e, exec (.outCommit rivals) s = .next (s.after e) ∧ e.cfg = { d.cfg with blown := e.cfg.blown } ∧ e.cfg.blown.usbId = d.cfg.blown.usbId ∧
      (∀ k, e.cfg.blown.hash0.testBit k = (d.cfg.blown.hash0.testBit k || (sel == 0 && val.testBit k))) ∧
      (∀ k, e.cfg.blown.hash1.testBit k = (d.cfg.blown.hash1.testBit k || (sel == 1 && val.testBit k))) ∧
      (∀ k, e.cfg.blown.minSvn.testBit k = (d.cfg.blown.minSvn.testBit k || (sel == 2 && val.testBit k))) ∧
      e.cfg.blown.revoke0 = (d.cfg.blown.revoke0 || sel == 3)) ∧
  (∀ (s : State) (d : Dev) (b : Bool), s.dev.met = d →
    ∃ e, exec (.powerOnReset b) s = .next { State.after { s with test := false } e with test := b } ∧ e.cfg.fuses = d.cfg.blown ∧ e.cfg.blown = d.cfg.blown) ∧
  (∀ (s : State) (d : Dev) (after : Nat), s.dev.met.advance after = d → d.resetDue 2 = true →
    ∃ e, exec (.fullReset after) s = .next (s.after e) ∧ e.cfg.fuses = d.cfg.blown ∧ e.cfg.blown = d.cfg.blown)

/-- The general registers of an engine. Of the registers G0 to G31 of an engine, G0 reads 0 and ignores writes, and every other
takes a value cut to 48 bits, with the rest as they were; a dispatch loads G27 with the type, priority, source index and restart
count of the trigger and G28 to G31 with its arguments, zero-extended, keeps G1 to G26, empties the call stack and starts at
micro-op type x 8. (11_vertical_engines R398, 11_vertical_engines R400) -/
def Obligations.MicroRegisters : Prop :=
  (∀ (x : Eng) (v : Nat), x.reg 0 = 0 ∧ x.put 0 v = x) ∧
  (∀ (x : Eng) (n v : Nat), 0 < n → n < 32 → (x.put n v).reg n = v % 2 ^ 48 ∧ ∀ k, k ≠ n → (x.put n v).reg k = x.reg k) ∧
  (∀ (s : State) (d : Dev) (e : Fin 12) (t : Trig), s.dev.met = d → d.rd .VE_ESTAT_STATE e.val = 1 → d.nextTrigger e.val = some t →
    t.type < 32 → t.prio < 4 → t.src < 256 → t.restarts < 256 → t.a0 < 2 ^ 32 → t.a1 < 2 ^ 32 → t.a2 < 2 ^ 32 → t.a3 < 2 ^ 32 →
    ∃ f, exec (.triggerDispatch e) s = .next (s.after f) ∧ f.rd .VE_ESTAT_STATE e.val = 2 ∧ f.rd .VE_EPC_PC e.val = t.type * 8 ∧
      (f.eng e.val).stack = [] ∧
      (f.eng e.val).reg 27 = t.type + t.prio * 2 ^ 8 + t.src * 2 ^ 16 + t.restarts * 2 ^ 24 ∧
      (f.eng e.val).reg 28 = t.a0 ∧ (f.eng e.val).reg 29 = t.a1 ∧ (f.eng e.val).reg 30 = t.a2 ∧ (f.eng e.val).reg 31 = t.a3 ∧
      (∀ n, n < 27 → (f.eng e.val).reg n = (d.eng e.val).reg n) ∧ (∀ k, k ≠ e.val → f.eng k = d.eng k))

/-- COND, and the word after the last one. A BR that ends its step goes to its target exactly where COND holds of A as a signed
48-bit value, and otherwise to the next word, which after word 32,767 is word 0, as it is within a step; COND code 7 is
reserved: a step that begins with it is illegal. (11_vertical_engines R397) -/
def Obligations.MicroConditions : Prop :=
  (∀ (s : State) (d : Dev) (e : Fin 12) (w c : Nat) (v : Int), s.dev.met = d → d.microReady e.val w = true → uOpc w = 0x0D → uEnd w = true →
    uCond w = c → c ≠ 7 → signed 48 ((d.eng e.val).reg (uBrA w)) = v →
    ∃ f, exec (.br e) s = .next (s.after f) ∧
      ((c = 0 ∨ (c = 1 ∧ v = 0) ∨ (c = 2 ∧ v ≠ 0) ∨ (c = 3 ∧ v < 0) ∨ (c = 4 ∧ 0 ≤ v) ∨ (c = 5 ∧ 0 < v) ∨ (c = 6 ∧ v ≤ 0)) →
        f.rd .VE_EPC_PC e.val = uTgt w) ∧
      (¬ (c = 0 ∨ (c = 1 ∧ v = 0) ∨ (c = 2 ∧ v ≠ 0) ∨ (c = 3 ∧ v < 0) ∨ (c = 4 ∧ 0 ≤ v) ∨ (c = 5 ∧ 0 < v) ∨ (c = 6 ∧ v ≤ 0)) →
        f.rd .VE_EPC_PC e.val = (d.rd .VE_EPC_PC e.val + (d.eng e.val).pos + 1) % 32768)) ∧
  (∀ (s : State) (d : Dev) (e : Fin 12), s.dev.met = d → d.veState e.val = 2 → (d.eng e.val).run.isSome = true → (d.eng e.val).pos = 0 →
    (let w := d.ld32 (uopAddr e.val (d.rd .VE_EPC_PC e.val))
     (uOpc w = 0x0D ∨ uOpc w = 0x0E ∨ uOpc w = 0x0F) ∧ uCond w = 7) →
    exec (.br e) s = .next (s.after (d.veEnd e.val 7)) ∧ exec (.call e) s = .next (s.after (d.veEnd e.val 7)) ∧
    exec (.ret e) s = .next (s.after (d.veEnd e.val 7))) ∧
  (∀ e : Nat, uopAddr e 32768 = uopAddr e 0)

/-- The state after reset. Reset leaves no gate open and no writer driving, CRICKET still, no command waiting and every register
field at its reset value: no handover yet, the power-on cause alone recorded, the angle base OFF, the readers a quarter of a
revolution apart, both host windows locked; a register without a reset value in the spec, and memory, hold what the log says
(log 4, 5). (02_register_conventions R64, 02_register_conventions R67, 03_angle_base R84, 17_faults_and_events R612,
17_faults_and_events R628) -/
def Obligations.ResetIsSafe : Prop :=
  State.reset.Safe ∧ State.reset.CricketShown ∧ State.reset.pending = [] ∧ Memory.wf State.reset.dev.mem = true ∧ State.reset.dev.atRest = true ∧
  (∀ (f : Fld) (i : Nat), State.reset.dev.rd f i = f.reset i) ∧
  State.reset.dev.rd .SYS_STAT_HANDOVER = 0 ∧ State.reset.dev.word .SYS_RSTCAUSE = 1 ∧ State.reset.dev.rd .ANG_STAT_STATE = 0 ∧
  (∀ r, r < 4 → State.reset.dev.rd .ANG_REFOFF_OFF r = r * 2 ^ 22) ∧ State.reset.dev.bus.unlock = [] ∧
  State.reset.dev.rd .FLT_STAT_CRKRUN = 0 ∧ State.reset.dev.rd .FLT_SRCCFG_SEV 20 = 4 ∧ State.reset.dev.rd .FLT_SRCCFG_NOESC 3 = 1

/-- What the cycle of a command changes beside the command's own effect. In a device at rest after the command's own effect (ANG
does not move, no trigger preempts, no power-fail sequence runs, SCH and HIF hold nothing, no controller is ready or shuts down,
the gates are safe) the cycle that the command takes (log 2) changes the device time by one cycle and at most the wait flags of
SCH_STAT and FLT_STAT.CRKRUN: every other register field, every byte of memory and every other piece of state is unchanged.
(02_register_conventions R40, 17_faults_and_events R628, 13_scheduler R501) -/
def Obligations.PassingCycle : Prop :=
  ∀ (s : State) (d : Dev), s.test = false → d.atRest = true →
    (s.after d).dev = { d with now := d.now + 1, ang := { d.ang with prev := d.ang.val }, regs := (s.after d).dev.regs } ∧
    (∀ (f : Fld) (i : Nat), f ∉ [.SCH_STAT_ACWAIT, .SCH_STAT_PWRWAIT, .FLT_STAT_CRKRUN] → (s.after d).dev.rd f i = d.rd f i)

/-- What the commands that write registers alone leave unchanged. In every state these commands change at most the register
fields named for each, of the instance named: every other field, memory and every other piece of state stays (the cycle they
take is PassingCycle's). (05_detection_and_decoding R177, 06_media_format R228, 07_format_sequencers R243, 07_format_sequencers
R276, 08_write_and_verify R296, 09_servo_and_actuators R331, 11_vertical_engines R391, 13_scheduler R511, 17_faults_and_events
R623, 17_faults_and_events R612, 19_service_and_rack R690, 10_spindle R387) -/
def Obligations.RegisterFrames : Prop :=
  ∀ s : State,
  (∀ on, ∃ e, exec (.itbNoborrow on) s = .next (s.after e) ∧ s.dev.met.onlyRegs e [(.ITB_CTL_NOBORROW, 0)]) ∧
  (∀ on, ∃ e, exec (.tpeReconPermit on) s = .next (s.after e) ∧ s.dev.met.onlyRegs e [(.TPE_CTL_RECON, 0)]) ∧
  (∀ q on, ∃ e, exec (.fsqEnable q on) s = .next (s.after e) ∧ s.dev.met.onlyRegs e [(.FSQ_CTL_ENABLE, q.val)]) ∧
  (∀ q, ∃ e, exec (.fsqResume q) s = .next (s.after e) ∧ s.dev.met.onlyRegs e [(.FSQ_STAT_STATE, q.val)]) ∧
  (∀ a on, ∃ e, exec (.fsqStoreOpen a on) s = .next (s.after e) ∧
    s.dev.met.onlyRegs e [(.FSQ_CSCTL_OPEN, a.val), (.FSQ_CSSTAT_OPENED, a.val), (.FSQ_CSSTAT_DRAINING, a.val)]) ∧
  (∀ a, ∃ e, exec (.guardRelease a) s = .next (s.after e) ∧ s.dev.met.onlyRegs e [(.WRF_GSTAT_INHIBIT, a.val)]) ∧
  (∀ h, ∃ e, exec (.headReadmit h) s = .next (s.after e) ∧
    s.dev.met.onlyRegs e [(.SRV_HSTAT_RDOUT, h.val), (.SRV_HSTAT_WROUT, h.val), (.SRV_HSTAT_STATE, h.val)]) ∧
  (∀ k on, ∃ e, exec (.veStoreOpen k on) s = .next (s.after e) ∧
    s.dev.met.onlyRegs e [(.VE_CSCTL_OPEN, k.val), (.VE_CSSTAT_OPENED, k.val)]) ∧
  (∀ on, ∃ e, exec (.schHold on) s = .next (s.after e) ∧ s.dev.met.onlyRegs e [(.SCH_CTL_HOLD, 0)]) ∧
  (∃ e, exec .faultLock s = .next (s.after e) ∧ s.dev.met.onlyRegs e [(.FLT_CTL_LOCK, 0)]) ∧
  (∀ w, ∃ e, exec (.faultConfigWrite .temp w) s = .next (s.after e) ∧
    s.dev.met.onlyRegs e [(.FLT_STAT_LOCKREF, 0), (.FLT_TEMP_CRIT, 0), (.FLT_TEMP_HOT, 0)]) ∧
  (∀ k, ∃ e, exec (.clockRelock k) s = .next (s.after e) ∧ s.dev.met.onlyRegs e [(clockFld k.val, 0)]) ∧
  (∃ e, exec .foreignFrameReceive s = .next (s.after e) ∧ s.dev.met.onlyRegs e [(.RCK_CNT_FOREIGN, 0)]) ∧
  (∀ w, ∃ e, exec (.motorConfigWrite w) s = .next (s.after e) ∧
    s.dev.met.onlyRegs e ((.SPN_STAT_BADCFG, 0) :: Reg.SPN_MOTOR.info.flds.map fun f => (f, 0)))

/-- What a sequencer's compare and counter fields leave unchanged. A compare or counter field of a microword whose turn has
come, and STAMP, change the sequencer's own compare units, counters and stamp alone: no gate, no call stack, no job, no other
sequencer, no byte of memory, no other unit, and no register field but CNT0 and CNT1 and the compare flags of that sequencer.
(07_format_sequencers R243, 07_format_sequencers R256, 07_format_sequencers R258, 07_format_sequencers R259) -/
def Obligations.SequencerFrames : Prop :=
  ∀ (s : State) (d : Dev) (q : Fin 32) (f : MField) (k : Nat) (c : Instr), s.dev.met = d → d.fieldReady q.val f [k] = true →
    (c, f, k) ∈ [(.acopLds q, .ac, 1), (.acopLdr q, .ac, 2), (.acopLdn q, .ac, 3), (.acopLdi q, .ac, 4), (.acopDisarm q, .ac, 5),
      (.pcopDisarm q, .pc, 5), (.counterLoad q false, .c0, 1), (.counterLoad q true, .c1, 1), (.counterDecrement q false, .c0, 2),
      (.counterDecrement q true, .c1, 2), (.counterIncrement q false, .c0, 3), (.counterIncrement q true, .c1, 3), (.stamp q, .stamp, 1)] →
    ∃ e, exec c s = .next (s.after e) ∧ e = { d with regs := e.regs, fsq := { d.fsq with seqs := e.fsq.seqs } } ∧
      (∀ j, j ≠ q.val → e.seq j = d.seq j) ∧
      (e.seq q.val).rgLead = (d.seq q.val).rgLead ∧ (e.seq q.val).rgTrail = (d.seq q.val).rgTrail ∧
      (e.seq q.val).wg = (d.seq q.val).wg ∧ (e.seq q.val).vg = (d.seq q.val).vg ∧ (e.seq q.val).stack = (d.seq q.val).stack ∧
      (e.seq q.val).job = (d.seq q.val).job ∧ (e.seq q.val).acted = (d.seq q.val).acted ++ [f.num] ∧
      (∀ (g : Fld) (i : Nat), (i ≠ q.val ∨ g ∉ [.FSQ_CNT_CNT0, .FSQ_CNT_CNT1, .FSQ_CMPSTAT_ACAF, .FSQ_CMPSTAT_ACALATE,
        .FSQ_CMPSTAT_ACALOST, .FSQ_CMPSTAT_ACBF, .FSQ_CMPSTAT_ACBLATE, .FSQ_CMPSTAT_ACBLOST]) → e.rd g i = d.rd g i)

/-- What the register and control micro-ops leave unchanged. An ALU, immediate, ANGR, NOP, BR, CALL, RET or JR command, given
where the turn of a micro-op has come, changes nothing but the engine itself and its program counter: no other engine, no byte
of memory, no other unit and no other register; of the engine, its triggers, commit buffer and outstanding loads stay, and every
general register but the micro-op's own destination and those the step's earlier micro-ops have computed. (11_vertical_engines
R392, 11_vertical_engines R395, 11_vertical_engines R398, 11_vertical_engines R404) -/
def Obligations.MicroFrames : Prop :=
  ∀ (s : State) (d : Dev) (e : Fin 12) (w : Nat) (c : Instr), s.dev.met = d → d.microReady e.val w = true →
    c ∈ [.nop e, .aluAdd e, .aluSub e, .aluAnd e, .aluOr e, .aluXor e, .aluShl e, .aluShr e, .aluSra e, .aluShli e, .aluShri e, .aluSrai e,
      .aluSlt e, .aluSltu e, .aluMin e, .aluMax e, .aluMul e, .aluMulh e, .aluClz e, .aluPopc e, .addi e, .andi e, .ori e, .xori e,
      .immx e, .slti e, .angrAngle e, .angrTime e, .br e, .call e, .ret e, .jr e] →
    ∃ f, exec c s = .next (s.after f) ∧ f = { d with regs := f.regs, ve := { d.ve with engs := f.ve.engs } } ∧
      (∀ k, k ≠ e.val → f.eng k = d.eng k) ∧ (∀ (g : Fld) (i : Nat), (g, i) ≠ (.VE_EPC_PC, e.val) → f.rd g i = d.rd g i) ∧
      (f.eng e.val).queues = (d.eng e.val).queues ∧ (f.eng e.val).buffer = (d.eng e.val).buffer ∧
      (f.eng e.val).loads = (d.eng e.val).loads ∧
      (∀ n, n ≠ uD w → n ∉ (d.eng e.val).res.map Prod.fst → (f.eng e.val).reg n = (d.eng e.val).reg n)

/-- Which bytes a store changes. A committed STW or STD to a memory window stores the low bytes of its register at its effective
address and changes no byte outside them, and none that is closed to the masters (R196, R234); before COMMIT no byte of memory
changes and the store waits in the buffer; a core's store and an atomic operation change the bytes they address alone; a write
of a microcode store changes no byte outside the word addressed. (11_vertical_engines R391, 11_vertical_engines R395,
11_vertical_engines R399, 11_vertical_engines R404, 11_vertical_engines R405, 07_format_sequencers R276, 14_memory_and_dma R528,
01_architecture R35, 06_media_format R196, 06_media_format R234) -/
def Obligations.StoreFrames : Prop :=
  (∀ (s : State) (d : Dev) (e : Fin 12) (w a k n : Nat) (c : Instr), s.dev.met = d → d.microReady e.val w = true →
    (c, uOpc w, n) ∈ [(.stw e, 0x0A, 4), (.std e, 0x0B, 8)] → (d.eng e.val).effective w = some a → d.veWindow a n = some k → k ≠ 3 →
    d.rd .VE_ESTAT_COMMITTED e.val ≠ 0 →
    ∃ f, exec c s = .next (s.after f) ∧
      ((∀ b, a ≤ b → b < a + n → d.closed b = false) → f.ldN a n = unsigned 64 (signed 48 ((d.eng e.val).reg (uD w))) % 2 ^ (8 * n)) ∧
      (∀ b, ((b < a ∨ a + n ≤ b) ∨ d.closed b = true) → f.ld8 b = d.ld8 b)) ∧
  (∀ (s : State) (d : Dev) (e : Fin 12) (w a k n : Nat) (c : Instr), s.dev.met = d → d.microReady e.val w = true →
    (c, uOpc w, n) ∈ [(.stw e, 0x0A, 4), (.std e, 0x0B, 8)] → (d.eng e.val).effective w = some a → d.veWindow a n = some k →
    d.rd .VE_ESTAT_COMMITTED e.val = 0 → (d.eng e.val).buffer.length < 64 →
    ∃ f, exec c s = .next (s.after f) ∧ f.mem = d.mem ∧
      (f.eng e.val).buffer = (d.eng e.val).buffer ++ [.store a (unsigned 64 (signed 48 ((d.eng e.val).reg (uD w))) % 2 ^ (8 * n)) n]) ∧
  (∀ (s : State) (d : Dev) (c : Fin 8) (a : BitVec 40) (size : Fin 4) (v : BitVec 64) (err : Option MemErr), s.dev.met = d →
    arrayOf a.toNat ≠ 7 → d.rangeExists a.toNat (2 ^ size.val) = true →
    ∃ f, exec (.coreMemoryAccess c .store a size v err) s = .next (s.after f) ∧
      ((∀ b, a.toNat ≤ b → b < a.toNat + 2 ^ size.val → d.closed b = false) →
        f.ldN a.toNat (2 ^ size.val) = v.toNat % 256 ^ (2 ^ size.val)) ∧
      ∀ b, ((b < a.toNat ∨ a.toNat + 2 ^ size.val ≤ b) ∨ d.closed b = true) → f.ld8 b = d.ld8 b) ∧
  (∀ (s : State) (d : Dev) (c : Fin 8) (a : BitVec 40) (size : Fin 4) (v : BitVec 64) (err : Option MemErr), s.dev.met = d →
    d.rangeExists a.toNat (2 ^ size.val) = false → arrayOf a.toNat ≠ 7 →
    ∃ f, exec (.coreMemoryAccess c .store a size v err) s = .next (s.after f) ∧ f.mem = d.mem) ∧
  (∀ (s : State) (m : Master) (e : Fin 12) (off size : Nat) (v : BitVec 64),
    ∃ f, exec (.veStoreWrite m e off size v) s = .next (s.after f) ∧
      ∀ b, (b < uopAddr e.val (off / 4) ∨ uopAddr e.val (off / 4) + 4 ≤ b) → f.ld8 b = s.dev.met.ld8 b) ∧
  (∀ (s : State) (m : Master) (a : Fin 4) (off size : Nat) (v : BitVec 64),
    ∃ f, exec (.fsqStoreWrite m a off size v) s = .next (s.after f) ∧
      ∀ b, (b < storeAddr a.val 0 + off % 0x20000 ∨ storeAddr a.val 0 + off % 0x20000 + size ≤ b) → f.ld8 b = s.dev.met.ld8 b)

/-- Every command of the table completes in every state. Each of the 461 commands answers a next state, whatever the state and
its operands: that of its own effect on the device as it meets it, named on its line, and then the cycle it takes (log 2). A
command whose condition the spec does not find met leaves the device as it is (log 8). (00_scope R3, 95_what_each_step_holds,
02_register_conventions R40) -/
def Obligations.CommandsComplete : Prop :=
  ((∀ (s : State) (d : Dev) (l : List RegWrite) (reads : List RegRead), s.dev.met = d → exec (.registerWrite l reads) s = .next (s.after (d.busAccesses l reads))) ∧
   (∀ (s : State) (d : Dev) (m : Master) (a : BitVec 40) (size : Nat), s.dev.met = d → exec (.snapshotRead m a size) s = .next (s.after (d.busRead m.id a.toNat size))) ∧
   (∀ (s : State) (d : Dev) (m : Master) (a : BitVec 40) (size : Nat), s.dev.met = d → exec (.clearOnRead m a size) s = .next (s.after (d.busRead m.id a.toNat size))) ∧
   (∀ (s : State) (d : Dev) (after : Nat), s.dev.met = d → exec (.deferredApply after) s = .next (s.after ((d.advance after).strobesNow))) ∧
   (∀ (s : State) (d : Dev), s.dev.met = d → exec .slowWriteCommit s = .next (s.after (d.slowCommit))) ∧
   (∀ (s : State) (d : Dev) (p : Fin 2) (off size : Nat) (w : Word) (others : List RegWrite), s.dev.met = d → exec (.bar2Write p off size w others) s = .next (s.after (d.bar2Write p off size w others))) ∧
   (∀ (s : State) (d : Dev) (p : Fin 2) (off size : Nat), s.dev.met = d → exec (.bar2Read p off size) s = .next (s.after (d.bar2Read p off size))) ∧
   (∀ (s : State) (d : Dev) (p : Fin 2), s.dev.met = d → exec (.bar2Relock p) s = .next (s.after (d.lockBar2 p.val 1))) ∧
   (∀ (s : State) (d : Dev) (p : Fin 2) (after : Nat), s.dev.met = d → exec (.bar2WindowExpiry p after) s = .next (s.after ((d.advance after).windowExpiry p.val))) ∧
   (∀ (s : State) (d : Dev) (key : BitVec 8), s.dev.met = d → exec (.warmResetRequest key) s = .next (s.after (d.rstCtl (key.toNat * 256 + 1)))) ∧
   (∀ (s : State) (d : Dev) (after : Nat), s.dev.met = d → exec (.quiesceEnd after) s = .next (s.after ((d.advance after).quiesceDone))) ∧
   (∀ (s : State) (d : Dev) (after : Nat), s.dev.met = d → exec (.warmReset after) s = .next (s.after ((d.advance after).warmReset))) ∧
   (∀ (s : State) (d : Dev) (key : BitVec 8), s.dev.met = d → exec (.fullResetRequest key) s = .next (s.after (d.rstCtl (key.toNat * 256 + 2)))) ∧
   (∀ (s : State) (d : Dev) (after : Nat), s.dev.met = d → exec (.fullReset after) s = .next (s.after ((d.advance after).fullResetNow))) ∧
   (∀ (s : State) (d : Dev), s.dev.met = d → exec .supplyMonitorTrip s = .next (s.after (d.powerOn))) ∧
   (∀ (s : State) (d : Dev) (p : Fin 2), s.dev.met = d → exec (.fundamentalReset p) s = .next (s.after (
        if !d.portExists p.val then d
        else
          let d := if d.on .HIF_LNKSTAT_UP p.val then d.count .HIF_PERR_LINKDOWN p.val else d
          ((d.controllerReset p.val 3).configReset p.val).linkDown p.val))) ∧
   (∀ (s : State) (d : Dev) (x : RefFrame), s.dev.met = d → exec (.referenceFrame x) s = .next (s.after (d.referenceFrame x))) ∧
   (∀ (s : State) (d : Dev), s.dev.met = d → exec .angleLock s = .next (s.after (d.lockIndex))) ∧
   (∀ (s : State) (d : Dev), s.dev.met = d → exec .abuEnable s = .next (s.after (d.abuEnable true))) ∧
   (∀ (s : State) (d : Dev), s.dev.met = d → exec .abuDisable s = .next (s.after (d.abuEnable false))) ∧
   (∀ (s : State) (d : Dev), s.dev.met = d → exec .abuReacquire s = .next (s.after (d.abuReacquire))) ∧
   (∀ (s : State) (d : Dev), s.dev.met = d → exec .autoReacquire s = .next (s.after (d.autoReacquire))) ∧
   (∀ (s : State) (d : Dev) (r : Fin 4) (use : Bool), s.dev.met = d → exec (.readerUse r use) s = .next (s.after (d.readerUse r.val use))) ∧
   (∀ (s : State) (d : Dev) (r : Fin 4), s.dev.met = d → exec (.readerForceout r) s = .next (s.after (d.readerForceout r.val)))) ∧
  ((∀ (s : State) (d : Dev) (r : Fin 4), s.dev.met = d → exec (.readerReadmit r) s = .next (s.after (d.readerReadmit r.val))) ∧
   (∀ (s : State) (d : Dev) (r : Fin 4) (off : Nat) (corr : List Int) (after : Nat), s.dev.met = d → exec (.readerCalibrationEnd r off corr after) s = .next (s.after ((d.advance after).readerCalEnd r.val off corr))) ∧
   (∀ (s : State) (d : Dev), s.dev.met = d → exec .angleWrap s = .next (s.after (d.toWrap))) ∧
   (∀ (s : State) (d : Dev) (u : Fin 16) (w : Word), s.dev.met = d → exec (.angleCompareArm u w) s = .next (s.after (d.compareArm u.val w.toNat))) ∧
   (∀ (s : State) (d : Dev) (m : Master) (u : Fin 16) (w : Word), s.dev.met = d → exec (.compareTargetWrite m u w) s = .next (s.after (d.regWrite m.id .ANG_CMPTGTHI u.val w.toNat))) ∧
   (∀ (s : State) (d : Dev) (u : CmpUnit) (after : Nat), s.dev.met = d → exec (.angleCompareFire u after) s = .next (s.after (
        let d := d.advance after
        match u with
        | .ang u => d.compareFire u.val
        | .fsq q b => d.seqCompareFire q.val b))) ∧
   (∀ (s : State) (d : Dev) (k : Fin 64), s.dev.met = d → exec (.synthOutOfRange k) s = .next (s.after (d.checkRange k.val))) ∧
   (∀ (s : State) (d : Dev) (l : List RouteWrite) (granted : List (Fin 64)), s.dev.met = d → exec (.laneRouteWrite l granted) s = .next (s.after (d.routeWrites l granted))) ∧
   (∀ (s : State) (d : Dev) (after : Nat), s.dev.met = d → exec (.routeApply after) s = .next (s.after ((d.advance after).strobesNow))) ∧
   (∀ (s : State) (d : Dev) (n : Fin 256) (w : Word), s.dev.met = d → exec (.rdiCtlWrite n w) s = .next (s.after (d.rdiCtl n.val w.toNat))) ∧
   (∀ (s : State) (d : Dev) (n : Fin 256) (isOpen : Bool), s.dev.met = d → exec (.readerInputFault n isOpen) s = .next (s.after (d.inputFault n.val isOpen))) ∧
   (∀ (s : State) (d : Dev) (l : Fin 64) (first last : Nat), s.dev.met = d → exec (.overrange l first last) s = .next (s.after (d.overrange l.val first last))) ∧
   (∀ (s : State) (d : Dev) (n : Fin 64), s.dev.met = d → exec (.laneForceout n) s = .next (s.after (d.laneForceout n.val))) ∧
   (∀ (s : State) (d : Dev) (n : Fin 64), s.dev.met = d → exec (.laneReadmit n) s = .next (s.after (d.laneReadmit n.val))) ∧
   (∀ (s : State) (d : Dev) (n : Fin 64), s.dev.met = d → exec (.laneRecal n) s = .next (s.after (d.laneRecal n.val))) ∧
   (∀ (s : State) (d : Dev) (n : Fin 64), s.dev.met = d → exec (.deferredRecal n) s = .next (s.after (d.deferredRecal n.val))) ∧
   (∀ (s : State) (d : Dev) (n : Fin 64) (k : LaneFault), s.dev.met = d → exec (.laneFault n k) s = .next (s.after (d.laneFault n.val k))) ∧
   (∀ (s : State) (d : Dev) (n : Fin 64) (c : LaneCal), s.dev.met = d → exec (.laneCalibrationEnd n c) s = .next (s.after (d.laneCalEnd n c))) ∧
   (∀ (s : State) (d : Dev) (u : Unit4) (after : Nat), s.dev.met = d → exec (.unitJoin u after) s = .next (s.after ((d.advance after).unitJoins u))) ∧
   (∀ (s : State) (d : Dev) (l : Fin 64) (codes : Codes) (after : Nat), s.dev.met = d → exec (.syncDeclare l codes after) s = .next (s.after ((d.advance after).syncDeclare l.val codes))) ∧
   (∀ (s : State) (d : Dev) (c : Fin 128) (lead trail : Codes) (parity : Bool) (after : Nat), s.dev.met = d → exec (.sectorCapture c lead trail parity after) s = .next (s.after ((d.advance after).sectorCapture c.val lead trail parity))) ∧
   (∀ (s : State) (d : Dev), s.dev.met = d → exec .acornPeriod s = .next (s.after (d.acornPeriod))) ∧
   (∀ (s : State) (d : Dev) (e : Fin 48), s.dev.met = d → exec (.localIterationEnd e) s = .next (s.after (d.iterationEnd e.val))) ∧
   (∀ (s : State) (d : Dev) (p : Fin 32), s.dev.met = d → exec (.redetectionEnd p) s = .next (s.after (d.redetectionEnd p.val)))) ∧
  ((∀ (s : State) (d : Dev) (c : Fin 128), s.dev.met = d → exec (.contextParityError c) s = .next (s.after (d.ctxParity c.val))) ∧
   (∀ (s : State) (d : Dev) (on : Bool), s.dev.met = d → exec (.itbEnable on) s = .next (s.after (d.itbEnable on))) ∧
   (∀ (s : State) (d : Dev) (on : Bool), s.dev.met = d → exec (.itbNoborrow on) s = .next (s.after (d.wrb .ITB_CTL_NOBORROW 0 on))) ∧
   (∀ (s : State) (d : Dev) (e : Fin 48), s.dev.met = d → exec (.decodeEngineForceout e) s = .next (s.after (d.engineForceout e.val))) ∧
   (∀ (s : State) (d : Dev) (e : Fin 48), s.dev.met = d → exec (.decodeEngineReadmit e) s = .next (s.after (d.engineReadmit e.val))) ∧
   (∀ (s : State) (d : Dev) (e : Fin 48) (k : EngineFault), s.dev.met = d → exec (.decodeEngineFault e k) s = .next (s.after (d.engineFault e.val k))) ∧
   (∀ (s : State) (d : Dev) (e : Fin 48) (pass : Bool), s.dev.met = d → exec (.engineSelftestEnd e pass) s = .next (s.after (d.selftestEnd e pass))) ∧
   (∀ (s : State) (d : Dev) (on : Bool), s.dev.met = d → exec (.tpeEnable on) s = .next (s.after (
        let d := d.wrb .TPE_CTL_ENABLE 0 on
        d.reconFeed d.tpe.queue.length))) ∧
   (∀ (s : State) (d : Dev) (on : Bool), s.dev.met = d → exec (.tpeReconPermit on) s = .next (s.after (d.wrb .TPE_CTL_RECON 0 on))) ∧
   (∀ (s : State) (d : Dev) (m : Master) (k : Fin 8) (w : Word), s.dev.met = d → exec (.tpeLockedWrite m k w) s = .next (s.after (d.regWrite m.id (formatRegs.getD k.val .TPE_ZONEBASE) 0 w.toNat))) ∧
   (∀ (s : State) (d : Dev) (r : ReconReq), s.dev.met = d → exec (.reconstructionRequest r) s = .next (s.after (d.reconRequest r))) ∧
   (∀ (s : State) (d : Dev) (k : Fin 4), s.dev.met = d → exec (.reconstructionEnd k) s = .next (s.after (d.reconEnd k.val))) ∧
   (∀ (s : State) (d : Dev) (surf : Fin 64) (track : Fin 1048576) (slot : Fin 1024) (gen : Fin 4096) (cmd : Option Word), s.dev.met = d → exec (.reallocation surf track slot gen cmd) s = .next (s.after (d.reallocate surf.val track.val slot.val gen.val (cmd.map BitVec.toNat)))) ∧
   (∀ (s : State) (d : Dev) (surf : Fin 64) (track : Fin 1048576) (slot : Fin 1024) (kind : Fin 4) (tsurf : Fin 64) (ttrack : Fin 1048576) (tslot : Fin 1024), s.dev.met = d → exec (.defectMapInsert surf track slot kind tsurf ttrack tslot) s = .next (s.after (d.defectInsert ⟨surf.val, track.val, slot.val, kind.val, tsurf.val, ttrack.val, tslot.val⟩))) ∧
   (∀ (s : State) (d : Dev), s.dev.met = d → exec .jobDispatch s = .next (s.after (d.jobDispatch))) ∧
   (∀ (s : State) (d : Dev) (q : Fin 32), s.dev.met = d → exec (.seqCont q) s = .next (s.after (d.seqCont q.val))) ∧
   (∀ (s : State) (d : Dev) (q : Fin 32), s.dev.met = d → exec (.seqBr q) s = .next (s.after (d.seqBr q.val))) ∧
   (∀ (s : State) (d : Dev) (q : Fin 32), s.dev.met = d → exec (.seqWait q) s = .next (s.after (d.seqWait q.val))) ∧
   (∀ (s : State) (d : Dev) (q : Fin 32), s.dev.met = d → exec (.seqCall q) s = .next (s.after (d.seqCall q.val))) ∧
   (∀ (s : State) (d : Dev) (q : Fin 32), s.dev.met = d → exec (.seqRet q) s = .next (s.after (d.seqRet q.val))) ∧
   (∀ (s : State) (d : Dev) (q : Fin 32), s.dev.met = d → exec (.seqDisp q) s = .next (s.after (d.seqDisp q.val))) ∧
   (∀ (s : State) (d : Dev) (q : Fin 32), s.dev.met = d → exec (.seqEnd q) s = .next (s.after (d.seqEnd q.val))) ∧
   (∀ (s : State) (d : Dev) (q : Fin 32), s.dev.met = d → exec (.seqAbandon q) s = .next (s.after (d.seqAbandon q.val))) ∧
   (∀ (s : State) (d : Dev) (q : Fin 32), s.dev.met = d → exec (.rgOpen q) s = .next (s.after (d.rgAction q.val true [1, 4, 6])))) ∧
  ((∀ (s : State) (d : Dev) (q : Fin 32), s.dev.met = d → exec (.rgClose q) s = .next (s.after (d.rgAction q.val false [2, 5, 7]))) ∧
   (∀ (s : State) (d : Dev) (q : Fin 32), s.dev.met = d → exec (.wgOpen q) s = .next (s.after (d.wgOpen q.val))) ∧
   (∀ (s : State) (d : Dev) (q : Fin 32), s.dev.met = d → exec (.wgClose q) s = .next (s.after (d.wgClose q.val))) ∧
   (∀ (s : State) (d : Dev) (q : Fin 32), s.dev.met = d → exec (.vgOpen q) s = .next (s.after (d.vgAction q.val true [1, 4, 6]))) ∧
   (∀ (s : State) (d : Dev) (q : Fin 32), s.dev.met = d → exec (.vgClose q) s = .next (s.after (d.vgAction q.val false [2, 5, 7]))) ∧
   (∀ (s : State) (d : Dev) (q : Fin 32) (g : GateName) (after : Nat), s.dev.met = d → exec (.gateActionAct q g after) s = .next (s.after ((d.advance after).gateAct q.val g))) ∧
   (∀ (s : State) (d : Dev) (q : Fin 32), s.dev.met = d → exec (.svgOn q) s = .next (s.after (d.svgOn q.val))) ∧
   (∀ (s : State) (d : Dev) (q : Fin 32), s.dev.met = d → exec (.svgOff q) s = .next (s.after (d.svgOff q.val))) ∧
   (∀ (s : State) (d : Dev) (q : Fin 32), s.dev.met = d → exec (.rteRoute q) s = .next (s.after (d.rteRoute q.val 1))) ∧
   (∀ (s : State) (d : Dev) (q : Fin 32), s.dev.met = d → exec (.rteRoutelead q) s = .next (s.after (d.rteRoute q.val 2))) ∧
   (∀ (s : State) (d : Dev) (q : Fin 32), s.dev.met = d → exec (.rteRelease q) s = .next (s.after (d.rteRelease q.val))) ∧
   (∀ (s : State) (d : Dev) (q : Fin 32), s.dev.met = d → exec (.synArm q) s = .next (s.after (d.synArm q.val))) ∧
   (∀ (s : State) (d : Dev) (q : Fin 32), s.dev.met = d → exec (.synArmlead q) s = .next (s.after (d.synArmLead q.val))) ∧
   (∀ (s : State) (d : Dev) (q : Fin 32), s.dev.met = d → exec (.synRestart q) s = .next (s.after (d.synRestart q.val))) ∧
   (∀ (s : State) (d : Dev) (q : Fin 32), s.dev.met = d → exec (.synCancel q) s = .next (s.after (d.synCancel q.val))) ∧
   (∀ (s : State) (d : Dev) (q : Fin 32), s.dev.met = d → exec (.jopFetch q) s = .next (s.after (d.jopFetch q.val))) ∧
   (∀ (s : State) (d : Dev) (q : Fin 32), s.dev.met = d → exec (.jopDone q) s = .next (s.after (d.jopDone q.val))) ∧
   (∀ (s : State) (d : Dev) (q : Fin 32), s.dev.met = d → exec (.jopReturn q) s = .next (s.after (d.jopReturn q.val))) ∧
   (∀ (s : State) (d : Dev) (q : Fin 32) (attempt : Nat) (stored : Option StoredParity), s.dev.met = d → exec (.wdsPrep q attempt stored) s = .next (s.after (d.wdsPrep q.val attempt stored))) ∧
   (∀ (s : State) (d : Dev) (q : Fin 32), s.dev.met = d → exec (.wdsCancel q) s = .next (s.after (d.wdsCancel q.val))) ∧
   (∀ (s : State) (d : Dev) (q : Fin 32), s.dev.met = d → exec (.lfzFreeze q) s = .next (s.after (d.lfz q.val 1 true))) ∧
   (∀ (s : State) (d : Dev) (q : Fin 32), s.dev.met = d → exec (.lfzRelease q) s = .next (s.after (d.lfz q.val 2 false))) ∧
   (∀ (s : State) (d : Dev) (q : Fin 32), s.dev.met = d → exec (.htrWriteHeat q) s = .next (s.after (d.htr q.val 1))) ∧
   (∀ (s : State) (d : Dev) (q : Fin 32), s.dev.met = d → exec (.htrReadHeat q) s = .next (s.after (d.htr q.val 2)))) ∧
  ((∀ (s : State) (d : Dev) (q : Fin 32), s.dev.met = d → exec (.fsqPostStatus q) s = .next (s.after (d.fsqPost q.val 1 true false false))) ∧
   (∀ (s : State) (d : Dev) (q : Fin 32), s.dev.met = d → exec (.fsqPostIrq q) s = .next (s.after (d.fsqPost q.val 2 false true false))) ∧
   (∀ (s : State) (d : Dev) (q : Fin 32), s.dev.met = d → exec (.fsqPostEvent q) s = .next (s.after (d.fsqPost q.val 3 false false true))) ∧
   (∀ (s : State) (d : Dev) (q : Fin 32), s.dev.met = d → exec (.fsqPostStatusIrq q) s = .next (s.after (d.fsqPost q.val 4 true true false))) ∧
   (∀ (s : State) (d : Dev) (q : Fin 32), s.dev.met = d → exec (.stamp q) s = .next (s.after (d.stampNow q.val))) ∧
   (∀ (s : State) (d : Dev) (q : Fin 32), s.dev.met = d → exec (.acopLds q) s = .next (s.after (d.acLoad q.val 1 fun d _ w => d.jstart q.val + mImmA w))) ∧
   (∀ (s : State) (d : Dev) (q : Fin 32), s.dev.met = d → exec (.acopLdr q) s = .next (s.after (d.acLoad q.val 2 fun _ x w => x.target + mImmA w))) ∧
   (∀ (s : State) (d : Dev) (q : Fin 32), s.dev.met = d → exec (.acopLdn q) s = .next (s.after (d.acLoad q.val 3 fun d _ w => d.frameAngle (bits w 118 2) (d.jobHead q.val) + mImmA w))) ∧
   (∀ (s : State) (d : Dev) (q : Fin 32), s.dev.met = d → exec (.acopLdi q) s = .next (s.after (d.acLoad q.val 4 fun _ _ w => mImmA w))) ∧
   (∀ (s : State) (d : Dev) (q : Fin 32), s.dev.met = d → exec (.acopDisarm q) s = .next (s.after (d.acDisarm q.val))) ∧
   (∀ (s : State) (d : Dev) (q : Fin 32), s.dev.met = d → exec (.pcopLds q) s = .next (s.after (d.pcLoad q.val 1 fun d j _ => d.rd .FSQ_ENTRY_SLOT q.val * j.l))) ∧
   (∀ (s : State) (d : Dev) (q : Fin 32), s.dev.met = d → exec (.pcopLde q) s = .next (s.after (d.pcLoad q.val 2 fun d j _ => (d.rd .FSQ_ENTRY_SLOT q.val + 1) * j.l))) ∧
   (∀ (s : State) (d : Dev) (q : Fin 32), s.dev.met = d → exec (.pcopLda q) s = .next (s.after (d.pcLoad q.val 3 fun _ _ _ => 0))) ∧
   (∀ (s : State) (d : Dev) (q : Fin 32), s.dev.met = d → exec (.pcopAdd q) s = .next (s.after (d.pcLoad q.val 4 fun _ _ x => x.target))) ∧
   (∀ (s : State) (d : Dev) (q : Fin 32), s.dev.met = d → exec (.pcopDisarm q) s = .next (s.after (d.pcDisarm q.val))) ∧
   (∀ (s : State) (d : Dev) (q : Fin 32) (b : Bool) (after : Nat), s.dev.met = d → exec (.positionCompareMeet q b after) s = .next (s.after ((d.advance after).pcMeet q.val b))) ∧
   (∀ (s : State) (d : Dev) (q : Fin 32) (c1 : Bool), s.dev.met = d → exec (.counterLoad q c1) s = .next (s.after (d.cntOp q.val c1 1 fun _ i => i))) ∧
   (∀ (s : State) (d : Dev) (q : Fin 32) (c1 : Bool), s.dev.met = d → exec (.counterDecrement q c1) s = .next (s.after (d.cntOp q.val c1 2 fun n _ => n - 1))) ∧
   (∀ (s : State) (d : Dev) (q : Fin 32) (c1 : Bool), s.dev.met = d → exec (.counterIncrement q c1) s = .next (s.after (d.cntOp q.val c1 3 fun n _ => n + 1))) ∧
   (∀ (s : State) (d : Dev) (q : Fin 32), s.dev.met = d → exec (.fsqBreakpoint q) s = .next (s.after (d.fsqBreak q.val))) ∧
   (∀ (s : State) (d : Dev) (q : Fin 32), s.dev.met = d → exec (.microwordParityError q) s = .next (s.after (d.fetchParity q.val))) ∧
   (∀ (s : State) (d : Dev) (q : Fin 32), s.dev.met = d → exec (.jobWatchdog q) s = .next (s.after (d.jobWatchdog q.val))) ∧
   (∀ (s : State) (d : Dev) (q : Fin 32), s.dev.met = d → exec (.drainEnd q) s = .next (s.after (d.drainEnd q.val))) ∧
   (∀ (s : State) (d : Dev) (q : Fin 32) (on : Bool), s.dev.met = d → exec (.fsqEnable q on) s = .next (s.after (d.wrb .FSQ_CTL_ENABLE q.val on)))) ∧
  ((∀ (s : State) (d : Dev) (q : Fin 32), s.dev.met = d → exec (.fsqStop q) s = .next (s.after (d.abandon q.val 1))) ∧
   (∀ (s : State) (d : Dev) (q : Fin 32), s.dev.met = d → exec (.fsqClrmchk q) s = .next (s.after (d.clrMchk q.val))) ∧
   (∀ (s : State) (d : Dev) (q : Fin 32), s.dev.met = d → exec (.fsqStep q) s = .next (s.after (d.fsqStep q.val))) ∧
   (∀ (s : State) (d : Dev) (q : Fin 32), s.dev.met = d → exec (.fsqResume q) s = .next (s.after (d.fsqResume q.val))) ∧
   (∀ (s : State) (d : Dev) (a : Fin 4) (on : Bool), s.dev.met = d → exec (.fsqStoreOpen a on) s = .next (s.after (d.storeOpen a.val on))) ∧
   (∀ (s : State) (d : Dev) (a : Fin 4), s.dev.met = d → exec (.fsqStoreOpened a) s = .next (s.after (d.storeOpened a.val))) ∧
   (∀ (s : State) (d : Dev) (m : Master) (a : Fin 4) (off size : Nat) (v : BitVec 64), s.dev.met = d → exec (.fsqStoreWrite m a off size v) s = .next (s.after (d.fsqStoreWrite m a.val off size v.toNat))) ∧
   (∀ (s : State) (d : Dev) (m : Master) (a : Fin 4) (off size : Nat) (bad : Bool), s.dev.met = d → exec (.fsqStoreRead m a off size bad) s = .next (s.after (d.fsqStoreRead m a.val off size bad))) ∧
   (∀ (s : State) (d : Dev) (q : Fin 32), s.dev.met = d → exec (.prepReady q) s = .next (s.after (d.prepReady q.val))) ∧
   (∀ (s : State) (d : Dev) (q : Fin 32), s.dev.met = d → exec (.preparedParityError q) s = .next (s.after (d.prepParity q.val))) ∧
   (∀ (s : State) (d : Dev) (q : Fin 32) (after : Nat), s.dev.met = d → exec (.writerFence q after) s = .next (s.after ((d.advance after).checkFence q.val))) ∧
   (∀ (s : State) (d : Dev) (on : Bool), s.dev.met = d → exec (.wrfEnable on) s = .next (s.after ((d.wrb .WRF_CTL_ENABLE 0 on).checkFences))) ∧
   (∀ (s : State) (d : Dev) (on : Bool), s.dev.met = d → exec (.wrfWen on) s = .next (s.after ((d.wrb .WRF_CTL_WEN 0 on).checkFences))) ∧
   (∀ (s : State) (d : Dev) (q : Fin 32) (n : Fin 1024) (stream : Option Codes), s.dev.met = d → exec (.verifyRecord q n stream) s = .next (s.after ((d.verifyRecord q.val n.val stream).writesProven))) ∧
   (∀ (s : State) (d : Dev) (h : Fin 128) (x : ServoObs) (after : Nat), s.dev.met = d → exec (.servoSampleRecord h x after) s = .next (s.after ((d.advance after).servoSample h.val x))) ∧
   (∀ (s : State) (d : Dev) (h : Fin 128) (after : Nat), s.dev.met = d → exec (.sampleMissTimeout h after) s = .next (s.after ((d.advance after).sampleMiss h.val))) ∧
   (∀ (s : State) (d : Dev) (a : Fin 4), s.dev.met = d → exec (.guardRelease a) s = .next (s.after (d.guardRelease a.val))) ∧
   (∀ (s : State) (d : Dev) (a : Fin 4) (k : Runaway) (after : Nat), s.dev.met = d → exec (.actuatorRunaway a k after) s = .next (s.after ((d.advance after).runaway a.val k))) ∧
   (∀ (s : State) (d : Dev) (a : Fin 4) (after : Nat), s.dev.met = d → exec (.servoLoss a after) s = .next (s.after ((d.advance after).servoLoss a.val))) ∧
   (∀ (s : State) (d : Dev) (a : Fin 4) (after : Nat), s.dev.met = d → exec (.vcmUpdate a after) s = .next (s.after ((d.advance after).vcmPoint a.val))) ∧
   (∀ (s : State) (d : Dev) (a : Fin 4) (w : Word), s.dev.met = d → exec (.vcmCommandWrite a w) s = .next (s.after (d.vcmCommand a.val w.toNat))) ∧
   (∀ (s : State) (d : Dev) (h : Fin 128) (w : Word), s.dev.met = d → exec (.maWrite h w) s = .next (s.after (d.maWrite h.val w.toNat))) ∧
   (∀ (s : State) (d : Dev) (h : Fin 128) (after : Nat), s.dev.met = d → exec (.maSend h after) s = .next (s.after ((d.advance after).maPoint h.val))) ∧
   (∀ (s : State) (d : Dev) (a : Fin 4), s.dev.met = d → exec (.seekGrant a) s = .next (s.after (d.seekGrant a.val)))) ∧
  ((∀ (s : State) (d : Dev) (a : Fin 4) (after : Nat), s.dev.met = d → exec (.seekTimeout a after) s = .next (s.after ((d.advance after).seekTimeout a.val))) ∧
   (∀ (s : State) (d : Dev) (a : Fin 4) (after : Nat), s.dev.met = d → exec (.loadTimeout a after) s = .next (s.after ((d.advance after).loadTimeout a.val))) ∧
   (∀ (s : State) (d : Dev) (a : Fin 4) (after : Nat), s.dev.met = d → exec (.retractEnd a after) s = .next (s.after ((d.advance after).retractEnd a.val))) ∧
   (∀ (s : State) (d : Dev) (a : Fin 4), s.dev.met = d → exec (.servoDone a) s = .next (s.after (d.servoDone a.val))) ∧
   (∀ (s : State) (d : Dev) (a : Fin 4), s.dev.met = d → exec (.servoLoad a) s = .next (s.after (d.loadHeads a.val))) ∧
   (∀ (s : State) (d : Dev) (a : Fin 4), s.dev.met = d → exec (.servoUnload a) s = .next (s.after (d.unloadHeads a.val))) ∧
   (∀ (s : State) (d : Dev) (a : Fin 4), s.dev.met = d → exec (.actuatorForceout a) s = .next (s.after (d.actOut a.val))) ∧
   (∀ (s : State) (d : Dev) (a : Fin 4), s.dev.met = d → exec (.actuatorReadmit a) s = .next (s.after (d.actReadmit a.val))) ∧
   (∀ (s : State) (d : Dev) (h : Fin 128), s.dev.met = d → exec (.headForceout h) s = .next (s.after (d.headForce h.val))) ∧
   (∀ (s : State) (d : Dev) (h : Fin 128), s.dev.met = d → exec (.headReadmit h) s = .next (s.after (d.headReadmit h.val))) ∧
   (∀ (s : State) (d : Dev) (a : Fin 4), s.dev.met = d → exec (.safeFrame a) s = .next (s.after (d.sendFrame a.val 8))) ∧
   (∀ (s : State) (d : Dev) (a : Fin 4), s.dev.met = d → exec (.ackFrame a) s = .next (s.after (d.sendFrame a.val 7))) ∧
   (∀ (s : State) (d : Dev) (a : Fin 4), s.dev.met = d → exec (.selectFrame a) s = .next (s.after (d.sendFrame a.val 1))) ∧
   (∀ (s : State) (d : Dev) (a : Fin 4), s.dev.met = d → exec (.maFrame a) s = .next (s.after (d.sendFrame a.val 4))) ∧
   (∀ (s : State) (d : Dev) (a : Fin 4), s.dev.met = d → exec (.heaterFrame a) s = .next (s.after (d.sendFrame a.val 3))) ∧
   (∀ (s : State) (d : Dev) (a : Fin 4), s.dev.met = d → exec (.biasFrame a) s = .next (s.after (d.sendFrame a.val 2))) ∧
   (∀ (s : State) (d : Dev) (a : Fin 4), s.dev.met = d → exec (.regwrFrame a) s = .next (s.after (d.sendFrame a.val 5))) ∧
   (∀ (s : State) (d : Dev) (a : Fin 4), s.dev.met = d → exec (.regrdFrame a) s = .next (s.after (d.sendFrame a.val 6))) ∧
   (∀ (s : State) (d : Dev) (a : Fin 4) (v : BitVec 50), s.dev.met = d → exec (.statFrame a v) s = .next (s.after (d.statFrame a.val v.toNat))) ∧
   (∀ (s : State) (d : Dev) (a : Fin 4) (v : BitVec 50), s.dev.met = d → exec (.faultFrame a v) s = .next (s.after (d.faultFrame a.val v.toNat))) ∧
   (∀ (s : State) (d : Dev) (a : Fin 4) (v : BitVec 50), s.dev.met = d → exec (.nakFrame a v) s = .next (s.after (d.nakFrame a.val v.toNat))) ∧
   (∀ (s : State) (d : Dev) (a : Fin 4) (v : BitVec 50), s.dev.met = d → exec (.regdataFrame a v) s = .next (s.after (d.regdataFrame a.val v.toNat))) ∧
   (∀ (s : State) (d : Dev) (a : Fin 4) (v : BitVec 50), s.dev.met = d → exec (.contactFrame a v) s = .next (s.after (d.contactFrame a.val v.toNat))) ∧
   (∀ (s : State) (d : Dev) (a : Fin 4) (v : BitVec 50), s.dev.met = d → exec (.mafaultFrame a v) s = .next (s.after (d.mafaultFrame a.val v.toNat)))) ∧
  ((∀ (s : State) (d : Dev) (a : Fin 4) (on : Bool), s.dev.met = d → exec (.armEnable a on) s = .next (s.after (d.armEnable a.val on))) ∧
   (∀ (s : State) (d : Dev) (a : Fin 4), s.dev.met = d → exec (.armRetrain a) s = .next (s.after (d.armRetrain a.val))) ∧
   (∀ (s : State) (d : Dev) (a : Fin 4), s.dev.met = d → exec (.armSafeRequest a) s = .next (s.after (d.armSend a.val 8 0 0x5AFE))) ∧
   (∀ (s : State) (d : Dev) (a : Fin 4), s.dev.met = d → exec (.linkTrained a) s = .next (s.after (d.linkTrained a.val))) ∧
   (∀ (s : State) (d : Dev) (a : Fin 4) (after : Nat), s.dev.met = d → exec (.trainTimeout a after) s = .next (s.after ((d.advance after).trainTimeout a.val))) ∧
   (∀ (s : State) (d : Dev) (a : Fin 4), s.dev.met = d → exec (.armLinkLoss a) s = .next (s.after (if 8 ≤ (d.link a.val).bad then d.linkLoss a.val false else d))) ∧
   (∀ (s : State) (d : Dev) (a : Fin 4) (w : Word), s.dev.met = d → exec (.afeRegisterAccess a w) s = .next (s.after (d.afeAccess a.val w.toNat))) ∧
   (∀ (s : State) (d : Dev) (a : Fin 4) (after : Nat), s.dev.met = d → exec (.afeAccessTimeout a after) s = .next (s.after ((d.advance after).afeTimeout a.val))) ∧
   (∀ (s : State) (d : Dev) (on : Bool), s.dev.met = d → exec (.spindleEnable on) s = .next (s.after (d.spnEnable on))) ∧
   (∀ (s : State) (d : Dev) (on : Bool), s.dev.met = d → exec (.spindleRun on) s = .next (s.after (d.spnRun on))) ∧
   (∀ (s : State) (d : Dev), s.dev.met = d → exec .spindleBrake s = .next (s.after (d.spnBrake))) ∧
   (∀ (s : State) (d : Dev) (w : Nat), s.dev.met = d → exec (.speedTargetWrite w) s = .next (s.after (d.speedTarget w))) ∧
   (∀ (s : State) (d : Dev) (w : Nat), s.dev.met = d → exec (.motorConfigWrite w) s = .next (s.after (d.motorConfig w))) ∧
   (∀ (s : State) (d : Dev), s.dev.met = d → exec .powerStageFault s = .next (s.after (d.powerStage))) ∧
   (∀ (s : State) (d : Dev) (p q : Nat), s.dev.met = d → exec (.detectAttemptEnd p q) s = .next (s.after (d.detectEnd p q))) ∧
   (∀ (s : State) (d : Dev), s.dev.met = d → exec .injectHandover s = .next (s.after (d.handoverBemf))) ∧
   (∀ (s : State) (d : Dev) (phase : Fin 3) (up : Bool) (after : Nat), s.dev.met = d → exec (.zeroCrossing phase up after) s = .next (s.after ((d.advance after).zeroCrossing phase.val up))) ∧
   (∀ (s : State) (d : Dev) (after : Nat), s.dev.met = d → exec (.commutation after) s = .next (s.after ((d.advance after).commutate))) ∧
   (∀ (s : State) (d : Dev) (after : Nat), s.dev.met = d → exec (.coastTimeout after) s = .next (s.after ((d.advance after).coastTimeout))) ∧
   (∀ (s : State) (d : Dev) (v : Nat) (revEnd : Bool), s.dev.met = d → exec (.speedMeasurement v revEnd) s = .next (s.after (d.measureSpeed v revEnd))) ∧
   (∀ (s : State) (d : Dev) (ms : Nat), s.dev.met = d → exec (.regulatorUpdate ms) s = .next (s.after (d.regulate ms))) ∧
   (∀ (s : State) (d : Dev) (ma : Nat), s.dev.met = d → exec (.phaseCurrentLimit ma) s = .next (s.after (d.phaseCurrent ma))) ∧
   (∀ (s : State) (d : Dev) (mv after : Nat), s.dev.met = d → exec (.brakeSense mv after) s = .next (s.after ((d.advance after).brakeSense mv))) ∧
   (∀ (s : State) (d : Dev) (pin : Bool) (oks : List Bool), s.dev.met = d → exec (.powerFail pin oks) s = .next (s.after (d.powerFail pin oks)))) ∧
  ((∀ (s : State) (d : Dev) (oks : List Bool) (after : Nat), s.dev.met = d → exec (.powerFailUnitRecord oks after) s = .next (s.after ((d.advance after).unitRecords oks))) ∧
   (∀ (s : State) (d : Dev) (after : Nat), s.dev.met = d → exec (.powerFailHoldEnd after) s = .next (s.after ((d.advance after).holdEnd))) ∧
   (∀ (s : State) (d : Dev), s.dev.met = d → exec .busBelowVmin s = .next (s.after (d.belowVmin))) ∧
   (∀ (s : State) (d : Dev), s.dev.met = d → exec .powerFailSequenceEnd s = .next (s.after (d.pfEnd))) ∧
   (∀ (s : State) (d : Dev) (after : Nat), s.dev.met = d → exec (.phaseLockTimeout after) s = .next (s.after ((d.advance after).phaseTimeout))) ∧
   (∀ (s : State) (d : Dev) (c : Fin 32) (x : Int) (after : Nat), s.dev.met = d → exec (.macSample c x after) s = .next (s.after ((d.advance after).macSample c x))) ∧
   (∀ (s : State) (d : Dev) (c : Fin 32), s.dev.met = d → exec (.macFilterReset c) s = .next (s.after (d.macReset c))) ∧
   (∀ (s : State) (d : Dev) (c : Fin 32), s.dev.met = d → exec (.macSyncReset c) s = .next (s.after (d.macSync c))) ∧
   (∀ (s : State) (d : Dev) (e : Fin 12), s.dev.met = d → exec (.triggerDispatch e) s = .next (s.after (d.dispatchTrigger e.val))) ∧
   (∀ (s : State) (d : Dev) (e : Fin 12), s.dev.met = d → exec (.nop e) s = .next (s.after (d.uNop e.val))) ∧
   (∀ (s : State) (d : Dev) (e : Fin 12), s.dev.met = d → exec (.aluAdd e) s = .next (s.after (d.uAlu e.val 0 fnAdd))) ∧
   (∀ (s : State) (d : Dev) (e : Fin 12), s.dev.met = d → exec (.aluSub e) s = .next (s.after (d.uAlu e.val 1 fnSub))) ∧
   (∀ (s : State) (d : Dev) (e : Fin 12), s.dev.met = d → exec (.aluAnd e) s = .next (s.after (d.uAlu e.val 2 fnAnd))) ∧
   (∀ (s : State) (d : Dev) (e : Fin 12), s.dev.met = d → exec (.aluOr e) s = .next (s.after (d.uAlu e.val 3 fnOr))) ∧
   (∀ (s : State) (d : Dev) (e : Fin 12), s.dev.met = d → exec (.aluXor e) s = .next (s.after (d.uAlu e.val 4 fnXor))) ∧
   (∀ (s : State) (d : Dev) (e : Fin 12), s.dev.met = d → exec (.aluShl e) s = .next (s.after (d.uAlu e.val 5 fnShl))) ∧
   (∀ (s : State) (d : Dev) (e : Fin 12), s.dev.met = d → exec (.aluShr e) s = .next (s.after (d.uAlu e.val 6 fnShr))) ∧
   (∀ (s : State) (d : Dev) (e : Fin 12), s.dev.met = d → exec (.aluSra e) s = .next (s.after (d.uAlu e.val 7 fnSra))) ∧
   (∀ (s : State) (d : Dev) (e : Fin 12), s.dev.met = d → exec (.aluShli e) s = .next (s.after (d.uAlu e.val 8 fnShli))) ∧
   (∀ (s : State) (d : Dev) (e : Fin 12), s.dev.met = d → exec (.aluShri e) s = .next (s.after (d.uAlu e.val 9 fnShri))) ∧
   (∀ (s : State) (d : Dev) (e : Fin 12), s.dev.met = d → exec (.aluSrai e) s = .next (s.after (d.uAlu e.val 10 fnSrai))) ∧
   (∀ (s : State) (d : Dev) (e : Fin 12), s.dev.met = d → exec (.aluSlt e) s = .next (s.after (d.uAlu e.val 11 fnSlt))) ∧
   (∀ (s : State) (d : Dev) (e : Fin 12), s.dev.met = d → exec (.aluSltu e) s = .next (s.after (d.uAlu e.val 12 fnSltu))) ∧
   (∀ (s : State) (d : Dev) (e : Fin 12), s.dev.met = d → exec (.aluMin e) s = .next (s.after (d.uAlu e.val 13 fnMin)))) ∧
  ((∀ (s : State) (d : Dev) (e : Fin 12), s.dev.met = d → exec (.aluMax e) s = .next (s.after (d.uAlu e.val 14 fnMax))) ∧
   (∀ (s : State) (d : Dev) (e : Fin 12), s.dev.met = d → exec (.aluMul e) s = .next (s.after (d.uAlu e.val 15 fnMul))) ∧
   (∀ (s : State) (d : Dev) (e : Fin 12), s.dev.met = d → exec (.aluMulh e) s = .next (s.after (d.uAlu e.val 16 fnMulh))) ∧
   (∀ (s : State) (d : Dev) (e : Fin 12), s.dev.met = d → exec (.aluClz e) s = .next (s.after (d.uAlu e.val 17 fnClz))) ∧
   (∀ (s : State) (d : Dev) (e : Fin 12), s.dev.met = d → exec (.aluPopc e) s = .next (s.after (d.uAlu e.val 18 fnPopc))) ∧
   (∀ (s : State) (d : Dev) (e : Fin 12), s.dev.met = d → exec (.addi e) s = .next (s.after (d.uImmOp e.val 2 immAdd))) ∧
   (∀ (s : State) (d : Dev) (e : Fin 12), s.dev.met = d → exec (.andi e) s = .next (s.after (d.uImmOp e.val 3 immAnd))) ∧
   (∀ (s : State) (d : Dev) (e : Fin 12), s.dev.met = d → exec (.ori e) s = .next (s.after (d.uImmOp e.val 4 immOr))) ∧
   (∀ (s : State) (d : Dev) (e : Fin 12), s.dev.met = d → exec (.xori e) s = .next (s.after (d.uImmOp e.val 5 immXor))) ∧
   (∀ (s : State) (d : Dev) (e : Fin 12), s.dev.met = d → exec (.immx e) s = .next (s.after (d.uImmOp e.val 6 immX))) ∧
   (∀ (s : State) (d : Dev) (e : Fin 12), s.dev.met = d → exec (.slti e) s = .next (s.after (d.uImmOp e.val 7 immSlt))) ∧
   (∀ (s : State) (d : Dev) (e : Fin 12), s.dev.met = d → exec (.ldw e) s = .next (s.after (d.uLoadOp e.val 8 4))) ∧
   (∀ (s : State) (d : Dev) (e : Fin 12), s.dev.met = d → exec (.ldd e) s = .next (s.after (d.uLoadOp e.val 9 8))) ∧
   (∀ (s : State) (d : Dev) (e : Fin 12) (k : Fin 4) (err : Option MemErr), s.dev.met = d → exec (.loadReturn e k err) s = .next (s.after (d.loadReturn e.val k.val err))) ∧
   (∀ (s : State) (d : Dev) (e : Fin 12), s.dev.met = d → exec (.stw e) s = .next (s.after (d.uStoreOp e.val 10 4))) ∧
   (∀ (s : State) (d : Dev) (e : Fin 12), s.dev.met = d → exec (.std e) s = .next (s.after (d.uStoreOp e.val 11 8))) ∧
   (∀ (s : State) (d : Dev) (e : Fin 12), s.dev.met = d → exec (.amoSwap e) s = .next (s.after (d.uAmo e.val 0))) ∧
   (∀ (s : State) (d : Dev) (e : Fin 12), s.dev.met = d → exec (.amoAdd e) s = .next (s.after (d.uAmo e.val 1))) ∧
   (∀ (s : State) (d : Dev) (e : Fin 12), s.dev.met = d → exec (.amoCas e) s = .next (s.after (d.uAmo e.val 2))) ∧
   (∀ (s : State) (d : Dev) (e : Fin 12), s.dev.met = d → exec (.br e) s = .next (s.after (d.uBranch e.val))) ∧
   (∀ (s : State) (d : Dev) (e : Fin 12), s.dev.met = d → exec (.call e) s = .next (s.after (d.uCall e.val))) ∧
   (∀ (s : State) (d : Dev) (e : Fin 12), s.dev.met = d → exec (.ret e) s = .next (s.after (d.uReturn e.val))) ∧
   (∀ (s : State) (d : Dev) (e : Fin 12), s.dev.met = d → exec (.jr e) s = .next (s.after (d.uJump e.val))) ∧
   (∀ (s : State) (d : Dev) (e : Fin 12), s.dev.met = d → exec (.angrAngle e) s = .next (s.after (d.uAngr e.val 0)))) ∧
  ((∀ (s : State) (d : Dev) (e : Fin 12), s.dev.met = d → exec (.angrTime e) s = .next (s.after (d.uAngr e.val 1))) ∧
   (∀ (s : State) (d : Dev) (e : Fin 12), s.dev.met = d → exec (.emit e) s = .next (s.after (d.uEmit e.val))) ∧
   (∀ (s : State) (d : Dev) (e : Fin 12), s.dev.met = d → exec (.hifComplete e) s = .next (s.after (d.uPost e.val (hifIs e.val fun k => k == 0 || decide (3 < k))))) ∧
   (∀ (s : State) (d : Dev) (e : Fin 12), s.dev.met = d → exec (.hifToHostComplete e) s = .next (s.after (d.uPost e.val (hifIs e.val fun k => k == 1)))) ∧
   (∀ (s : State) (d : Dev) (e : Fin 12), s.dev.met = d → exec (.hifFromHost e) s = .next (s.after (d.uPost e.val (hifIs e.val fun k => k == 2)))) ∧
   (∀ (s : State) (d : Dev) (e : Fin 12), s.dev.met = d → exec (.hifToHost e) s = .next (s.after (d.uPost e.val (hifIs e.val fun k => k == 3)))) ∧
   (∀ (s : State) (d : Dev) (e : Fin 12), s.dev.met = d → exec (.postEvent e) s = .next (s.after (d.uPost e.val (postIs 1)))) ∧
   (∀ (s : State) (d : Dev) (e : Fin 12), s.dev.met = d → exec (.postInterrupt e) s = .next (s.after (d.uPost e.val (postIs 2)))) ∧
   (∀ (s : State) (d : Dev) (e : Fin 12), s.dev.met = d → exec (.postRelease e) s = .next (s.after (d.uPost e.val (postIs 3)))) ∧
   (∀ (s : State) (d : Dev) (e : Fin 12), s.dev.met = d → exec (.commit e) s = .next (s.after (d.uCommit e.val))) ∧
   (∀ (s : State) (d : Dev) (e : Fin 12), s.dev.met = d → exec (.done e) s = .next (s.after (d.uDone e.val))) ∧
   (∀ (s : State) (d : Dev) (e : Fin 12) (after : Nat), s.dev.met = d → exec (.routineTimeout e after) s = .next (s.after ((d.advance after).routineTimeout e.val))) ∧
   (∀ (s : State) (d : Dev) (e : Fin 12) (k : Fin 4), s.dev.met = d → exec (.microopParityError e k) s = .next (s.after (d.uopParity e.val k.val))) ∧
   (∀ (s : State) (d : Dev) (e : Fin 12) (after : Nat), s.dev.met = d → exec (.veTimerExpiry e after) s = .next (s.after ((d.advance after).veTimer e.val))) ∧
   (∀ (s : State) (d : Dev) (m : Master) (e : Fin 12) (w : Word), s.dev.met = d → exec (.mailboxWrite m e w) s = .next (s.after (
        let lo := d.loHalf m.id .VE_MBOXLO e.val
        (d.dropLo m.id .VE_MBOXLO e.val).mailbox e.val lo w.toNat))) ∧
   (∀ (s : State) (d : Dev) (e : Fin 12), s.dev.met = d → exec (.engineHalt e) s = .next (s.after (d.veHalt e.val))) ∧
   (∀ (s : State) (d : Dev) (e : Fin 12), s.dev.met = d → exec (.engineResume e) s = .next (s.after (d.veResume e.val))) ∧
   (∀ (s : State) (d : Dev) (e : Fin 12), s.dev.met = d → exec (.engineClrmchk e) s = .next (s.after (d.veClrMchk e.val))) ∧
   (∀ (s : State) (d : Dev) (e : Fin 12) (on : Bool), s.dev.met = d → exec (.veStoreOpen e on) s = .next (s.after (d.veStoreOpen e.val on))) ∧
   (∀ (s : State) (d : Dev) (m : Master) (e : Fin 12) (off size : Nat) (v : BitVec 64), s.dev.met = d → exec (.veStoreWrite m e off size v) s = .next (s.after (d.veStoreWrite m e.val off size v.toNat))) ∧
   (∀ (s : State) (d : Dev) (m : Master) (e : Fin 12) (off size : Nat) (bad : Bool), s.dev.met = d → exec (.veStoreRead m e off size bad) s = .next (s.after (d.veStoreRead m e.val off size bad))) ∧
   (∀ (s : State) (d : Dev) (m : Master) (e : Fin 12) (g : Fin 32) (w : Word), s.dev.met = d → exec (.generalRegisterWrite m e g w) s = .next (s.after (
        let lo := Tab.getD d.bus.loBuf (holdKey m.id .VE_GLO (32 * e.val + g.val)) (((d.eng e.val).reg g.val) % 2 ^ 32)
        (d.dropLo m.id .VE_GLO (32 * e.val + g.val)).veRegWrite e.val g.val lo w.toNat))) ∧
   (∀ (s : State) (d : Dev) (p : Fin 2), s.dev.met = d → exec (.linkDown p) s = .next (s.after (
        if !d.portExists p.val || !d.on .HIF_LNKSTAT_UP p.val then d
        else ((d.controllerReset p.val 3).linkDown p.val).count .HIF_PERR_LINKDOWN p.val))) ∧
   (∀ (s : State) (d : Dev) (p : Fin 2), s.dev.met = d → exec (.functionLevelReset p) s = .next (s.after (if d.portExists p.val then (d.controllerReset p.val 2).configReset p.val else d)))) ∧
  ((∀ (s : State) (d : Dev) (p : Fin 2) (cc aqa : Word) (asq acq : BitVec 64), s.dev.met = d → exec (.controllerEnable p cc aqa asq acq) s = .next (s.after (d.controllerEnable p.val cc.toNat aqa.toNat asq.toNat acq.toNat))) ∧
   (∀ (s : State) (d : Dev) (p : Fin 2), s.dev.met = d → exec (.controllerReset p) s = .next (s.after (if bit (d.port p.val).cc 0 then d.controllerReset p.val 2 else d))) ∧
   (∀ (s : State) (d : Dev), s.dev.met = d → exec .nvmSubsystemReset s = .next (s.after (
        let d := d.portList.foldl (fun d p => ((d.controllerReset p 2).configReset p).linkDown p) d
        { d with hif := { d.hif with feats := [] } }))) ∧
   (∀ (s : State) (d : Dev) (p : Fin 2), s.dev.met = d → exec (.normalShutdown p) s = .next (s.after (d.normalShutdown p.val))) ∧
   (∀ (s : State) (d : Dev) (p : Fin 2), s.dev.met = d → exec (.abruptShutdown p) s = .next (s.after (d.abruptShutdown p.val))) ∧
   (∀ (s : State) (d : Dev) (e0 e1 : List Word), s.dev.met = d → exec (.commandFetch e0 e1) s = .next (s.after ((d.advance d.toFetch).fetchCycle (e0.map BitVec.toNat) (e1.map BitVec.toNat)))) ∧
   (∀ (s : State) (d : Dev), s.dev.met = d → exec .deleteIoSq s = .next (s.after (d.adminRow 0x00 Dev.deleteSq))) ∧
   (∀ (s : State) (d : Dev), s.dev.met = d → exec .createIoSq s = .next (s.after (d.adminRow 0x01 Dev.createSq))) ∧
   (∀ (s : State) (d : Dev), s.dev.met = d → exec .deleteIoCq s = .next (s.after (d.adminRow 0x04 Dev.deleteCq))) ∧
   (∀ (s : State) (d : Dev), s.dev.met = d → exec .createIoCq s = .next (s.after (d.adminRow 0x05 Dev.createCq))) ∧
   (∀ (s : State) (d : Dev) (base : BitVec 40) (page : List Byte), s.dev.met = d → exec (.getLogPage base page) s = .next (s.after (d.firmwareRow 0x02 fun d a i => d.getLogPage a i base.toNat page))) ∧
   (∀ (s : State) (d : Dev), s.dev.met = d → exec .identify s = .next (s.after (d.adminRow 0x06 Dev.identify))) ∧
   (∀ (s : State) (d : Dev), s.dev.met = d → exec .abort s = .next (s.after (d.adminRow 0x08 Dev.abort))) ∧
   (∀ (s : State) (d : Dev), s.dev.met = d → exec .setFeatures s = .next (s.after (d.adminRow 0x09 Dev.setFeatures))) ∧
   (∀ (s : State) (d : Dev), s.dev.met = d → exec .getFeatures s = .next (s.after (d.adminRow 0x0A Dev.getFeatures))) ∧
   (∀ (s : State) (d : Dev), s.dev.met = d → exec .asyncEventRequest s = .next (s.after (d.adminRow 0x0C Dev.eventRequest))) ∧
   (∀ (s : State) (d : Dev), s.dev.met = d → exec .firmwareCommit s = .next (s.after (d.firmwareRow 0x10 fun d _ _ => d))) ∧
   (∀ (s : State) (d : Dev), s.dev.met = d → exec .firmwareImageDownload s = .next (s.after (d.firmwareRow 0x11 fun d _ _ => d))) ∧
   (∀ (s : State) (d : Dev), s.dev.met = d → exec .stateDigest s = .next (s.after (d.stateDigest))) ∧
   (∀ (s : State) (d : Dev), s.dev.met = d → exec .diagnosticWindowUnlock s = .next (s.after (d.adminRow 0xC4 Dev.windowUnlock))) ∧
   (∀ (s : State) (d : Dev) (base : BitVec 40), s.dev.met = d → exec (.ledgerRead base) s = .next (s.after (d.firmwareRow 0xC6 fun d a i => d.ledgerRead a i base.toNat))) ∧
   (∀ (s : State) (d : Dev) (k : Fin 1024) (data : List Byte), s.dev.met = d → exec (.adminDone k data) s = .next (s.after (d.adminDone k.val data))) ∧
   (∀ (s : State) (d : Dev) (on : Bool), s.dev.met = d → exec (.hifPause on) s = .next (s.after (d.wrb .HIF_CTL_PAUSE 0 on))) ∧
   (∀ (s : State) (d : Dev) (fseq : BitVec 32), s.dev.met = d → exec (.flush fseq) s = .next (s.after (d.ioCommand fseq.toNat opFlush none)))) ∧
  ((∀ (s : State) (d : Dev) (fseq : BitVec 32), s.dev.met = d → exec (.write fseq) s = .next (s.after (d.ioCommand fseq.toNat opWrite none))) ∧
   (∀ (s : State) (d : Dev) (fseq : BitVec 32), s.dev.met = d → exec (.read fseq) s = .next (s.after (d.ioCommand fseq.toNat opRead none))) ∧
   (∀ (s : State) (d : Dev) (fseq : BitVec 32), s.dev.met = d → exec (.writeZeroes fseq) s = .next (s.after (d.ioCommand fseq.toNat opWriteZeroes none))) ∧
   (∀ (s : State) (d : Dev) (fseq : BitVec 32), s.dev.met = d → exec (.verify fseq) s = .next (s.after (d.ioCommand fseq.toNat opVerify none))) ∧
   (∀ (s : State) (d : Dev) (fseq : BitVec 32), s.dev.met = d → exec (.zoneOpen fseq) s = .next (s.after (d.ioCommand fseq.toNat opZoneSend (some 3)))) ∧
   (∀ (s : State) (d : Dev) (fseq : BitVec 32), s.dev.met = d → exec (.zoneClose fseq) s = .next (s.after (d.ioCommand fseq.toNat opZoneSend (some 1)))) ∧
   (∀ (s : State) (d : Dev) (fseq : BitVec 32), s.dev.met = d → exec (.zoneFinish fseq) s = .next (s.after (d.ioCommand fseq.toNat opZoneSend (some 2)))) ∧
   (∀ (s : State) (d : Dev) (fseq : BitVec 32), s.dev.met = d → exec (.zoneReset fseq) s = .next (s.after (d.ioCommand fseq.toNat opZoneSend (some 4)))) ∧
   (∀ (s : State) (d : Dev) (fseq : BitVec 32), s.dev.met = d → exec (.zoneOffline fseq) s = .next (s.after (d.ioCommand fseq.toNat opZoneSend (some 5)))) ∧
   (∀ (s : State) (d : Dev) (fseq : BitVec 32), s.dev.met = d → exec (.zoneManagementReceive fseq) s = .next (s.after (d.ioCommand fseq.toNat opZoneReceive none))) ∧
   (∀ (s : State) (d : Dev) (fseq : BitVec 32), s.dev.met = d → exec (.zoneAppend fseq) s = .next (s.after (d.ioCommand fseq.toNat opZoneAppend none))) ∧
   (∀ (s : State) (d : Dev) (fseq : BitVec 32), s.dev.met = d → exec (.zoneAttribute fseq) s = .next (s.after (d.ioCommand fseq.toNat opZoneAttribute none))) ∧
   (∀ (s : State) (d : Dev) (fseq : BitVec 32) (data md : List (List Byte)), s.dev.met = d → exec (.writeDataIn fseq data md) s = .next (s.after (d.dataIn fseq.toNat data md))) ∧
   (∀ (s : State) (d : Dev) (m : Master) (w : Word), s.dev.met = d → exec (.reservationRequest m w) s = .next (s.after (
        let lo := d.loHalf m.id .SCH_RQLO 0
        (d.dropLo m.id .SCH_RQLO 0).resRequest m.id lo w.toNat))) ∧
   (∀ (s : State) (d : Dev) (fseq : BitVec 32), s.dev.met = d → exec (.overlapClear fseq) s = .next (s.after (d.overlapClear fseq.toNat))) ∧
   (∀ (s : State) (d : Dev), s.dev.met = d → exec .reservationGrant s = .next (s.after (d.resGrant))) ∧
   (∀ (s : State) (d : Dev) (surf : Fin 32) (track : Fin 1048576), s.dev.met = d → exec (.trackLockGrant surf track) s = .next (s.after (d.lockGrant surf.val track.val))) ∧
   (∀ (s : State) (d : Dev) (u : Aged) (after : Nat), s.dev.met = d → exec (.agePromotion u after) s = .next (s.after (
        match u with
        | .host f => (d.advance after).promote f.toNat
        | .internal h => (d.advance after).ageInternal h))) ∧
   (∀ (s : State) (d : Dev) (on : Bool), s.dev.met = d → exec (.schEnable on) s = .next (s.after (d.schEnable on))) ∧
   (∀ (s : State) (d : Dev) (on : Bool), s.dev.met = d → exec (.schHold on) s = .next (s.after (d.wrb .SCH_CTL_HOLD 0 on))) ∧
   (∀ (s : State) (d : Dev), s.dev.met = d → exec .schRestart s = .next (s.after (d.schRestart))) ∧
   (∀ (s : State) (d : Dev), s.dev.met = d → exec .tokenObtained s = .next (s.after (d.tokenObtained))) ∧
   (∀ (s : State) (d : Dev), s.dev.met = d → exec .spindleInrange s = .next (s.after (d.spindleInRange))) ∧
   (∀ (s : State) (d : Dev) (after : Nat), s.dev.met = d → exec (.spinupTimeout after) s = .next (s.after ((d.advance after).spinupTimeout)))) ∧
  ((∀ (s : State) (d : Dev), s.dev.met = d → exec .cicadaEntry s = .next (s.after (d.cicadaEntry d.hostRests))) ∧
   (∀ (s : State) (d : Dev), s.dev.met = d → exec .cicadaReached s = .next (s.after (d.cicadaReached))) ∧
   (∀ (s : State) (d : Dev), s.dev.met = d → exec .cicadaWake s = .next (s.after (d.cicadaWake))) ∧
   (∀ (s : State) (d : Dev), s.dev.met = d → exec .calibrationRequest s = .next (s.after (d.calSubmit))) ∧
   (∀ (s : State) (d : Dev) (after : Nat), s.dev.met = d → exec (.forcedTake after) s = .next (s.after ((d.advance after).forcedTake))) ∧
   (∀ (s : State) (d : Dev) (a : Fin 4) (after : Nat), s.dev.met = d → exec (.forcedRevolutionStart a after) s = .next (s.after ((d.advance after).forcedStart a.val))) ∧
   (∀ (s : State) (d : Dev) (a : Fin 4) (after : Nat), s.dev.met = d → exec (.forcedRevolutionEnd a after) s = .next (s.after ((d.advance after).forcedOver a.val))) ∧
   (∀ (s : State) (d : Dev) (raw : BitVec 5) (rate : BitVec 2), s.dev.met = d → exec (.dramInit raw rate) s = .next (s.after (d.dramInit raw.toNat rate.toNat))) ∧
   (∀ (s : State) (d : Dev) (ok : Bool), s.dev.met = d → exec (.dramInitEnd ok) s = .next (s.after (d.dramReady ok))) ∧
   (∀ (s : State) (d : Dev), s.dev.met = d → exec .dramRefresh s = .next (s.after (d))) ∧
   (∀ (s : State) (d : Dev) (c : Fin 8), s.dev.met = d → exec (.l1Invalidate c) s = .next (s.after (d.l1Invalidate c.val))) ∧
   (∀ (s : State) (d : Dev) (c : Fin 8) (ien den : Bool), s.dev.met = d → exec (.l1Enable c ien den) s = .next (s.after (d.l1Enable c.val ien den))) ∧
   (∀ (s : State) (d : Dev), s.dev.met = d → exec .l2Enable s = .next (s.after (d.l2Enable))) ∧
   (∀ (s : State) (d : Dev), s.dev.met = d → exec .l2Disable s = .next (s.after (d.l2Disable))) ∧
   (∀ (s : State) (d : Dev), s.dev.met = d → exec .l2DisableEnd s = .next (s.after (d.l2Disabled))) ∧
   (∀ (s : State) (d : Dev) (all : Bool) (set : Fin 32768) (way : Fin 16) (line : Option (BitVec 40)), s.dev.met = d → exec (.l2Clean all set way line) s = .next (s.after (d.l2Maint 1 all set.val way.val (line.map BitVec.toNat)))) ∧
   (∀ (s : State) (d : Dev) (all : Bool) (set : Fin 32768) (way : Fin 16) (line : Option (BitVec 40)), s.dev.met = d → exec (.l2Inval all set way line) s = .next (s.after (d.l2Maint 2 all set.val way.val (line.map BitVec.toNat)))) ∧
   (∀ (s : State) (d : Dev) (all : Bool) (set : Fin 32768) (way : Fin 16) (line : Option (BitVec 40)), s.dev.met = d → exec (.l2Cleaninv all set way line) s = .next (s.after (d.l2Maint 3 all set.val way.val (line.map BitVec.toNat)))) ∧
   (∀ (s : State) (d : Dev), s.dev.met = d → exec .l2MaintEnd s = .next (s.after (d.l2MaintEnd))) ∧
   (∀ (s : State) (d : Dev) (c : Fin 8) (a : BitVec 40), s.dev.met = d → exec (.cboClean c a) s = .next (s.after (
        let _ := c
        d.cboClean a.toNat))) ∧
   (∀ (s : State) (d : Dev) (c : Fin 8) (a : BitVec 40), s.dev.met = d → exec (.cboFlush c a) s = .next (s.after (
        let _ := c
        d.cboClean a.toNat))) ∧
   (∀ (s : State) (d : Dev) (c : Fin 8) (a : BitVec 40), s.dev.met = d → exec (.cboInval c a) s = .next (s.after (
        let _ := c
        d.cboClean a.toNat))) ∧
   (∀ (s : State) (d : Dev) (c : Fin 8) (a : BitVec 40), s.dev.met = d → exec (.cboZero c a) s = .next (s.after (d.cboZero c.val a.toNat))) ∧
   (∀ (s : State) (d : Dev) (after : Nat), s.dev.met = d → exec (.bucketLeak after) s = .next (s.after ((d.advance after).leakDue)))) ∧
  ((∀ (s : State) (d : Dev) (w : Word), s.dev.met = d → exec (.flipArm w) s = .next (s.after (d.flipCtl w.toNat))) ∧
   (∀ (s : State) (d : Dev) (words : Nat) (errs : List MemErr), s.dev.met = d → exec (.scrubRead words errs) s = .next (s.after (d.scrubRead words (errs.map fun e => (e.array.val, e.addr.toNat, e.hard))))) ∧
   (∀ (s : State) (d : Dev) (m : Master) (c : Fin 64), s.dev.met = d → exec (.dmaStart m c) s = .next (s.after (d.dmaStart m.id c.val))) ∧
   (∀ (s : State) (d : Dev) (c : Fin 64), s.dev.met = d → exec (.dmaStop c) s = .next (s.after (d.dmaStop c.val))) ∧
   (∀ (s : State) (d : Dev) (c : Fin 64), s.dev.met = d → exec (.dmaResume c) s = .next (s.after (d.dmaResume c.val))) ∧
   (∀ (s : State) (d : Dev) (c : Fin 64), s.dev.met = d → exec (.descriptorFetch c) s = .next (s.after (d.dmaFetch c.val))) ∧
   (∀ (s : State) (d : Dev) (c : Fin 64) (p : PaceAt) (after : Nat), s.dev.met = d → exec (.paceEvent c p after) s = .next (s.after ((d.advance after).dmaPace c.val p))) ∧
   (∀ (s : State) (d : Dev) (c : Fin 64), s.dev.met = d → exec (.descriptorEnd c) s = .next (s.after (d.dmaEnd c.val))) ∧
   (∀ (s : State) (d : Dev) (c : Fin 64) (n : Nat) (write : Bool), s.dev.met = d → exec (.dmaBusError c n write) s = .next (s.after (d.dmaFault c.val n write))) ∧
   (∀ (s : State) (d : Dev) (staged : List (Fin 64 × Nat)), s.dev.met = d → exec (.dmaHalt staged) s = .next (s.after (d.dmaHalt (staged.map fun x => (x.1.val, x.2))))) ∧
   (∀ (s : State) (d : Dev), s.dev.met = d → exec .sectorCheck s = .next (s.after (d.sectorCheck))) ∧
   (∀ (s : State) (d : Dev) (m : Master), s.dev.met = d → exec (.checkClaim m) s = .next (s.after (d.chkClaim m.id))) ∧
   (∀ (s : State) (d : Dev) (m : Master), s.dev.met = d → exec (.checkRelease m) s = .next (s.after (d.chkRelease m.id))) ∧
   (∀ (s : State) (d : Dev) (m : Master) (w : Word), s.dev.met = d → exec (.checkCompute m w) s = .next (s.after (d.chkCompute m.id w.toNat))) ∧
   (∀ (s : State) (d : Dev), s.dev.met = d → exec .checkComputeEnd s = .next (s.after (d.chkEnd))) ∧
   (∀ (s : State) (d : Dev) (m : Master) (w : Word), s.dev.met = d → exec (.compressionSubmit m w) s = .next (s.after (
        let lo := d.loHalf m.id .CMP_SUBLO 0 / 32 * 32
        ((d.dropLo m.id .CMP_SUBLO 0).wr .CMP_SUBLO_ADDR 0 (lo / 32)).wr .CMP_SUBHI_ADDR 0 w.toNat
          |>.cmpSubmit m.id (lo + w.toNat % 256 * 2 ^ 32)))) ∧
   (∀ (s : State) (d : Dev), s.dev.met = d → exec .pack s = .next (s.after (d.cmpStart 0))) ∧
   (∀ (s : State) (d : Dev), s.dev.met = d → exec .unpack s = .next (s.after (d.cmpStart 1))) ∧
   (∀ (s : State) (d : Dev), s.dev.met = d → exec .deflate s = .next (s.after (d.cmpStart 2))) ∧
   (∀ (s : State) (d : Dev), s.dev.met = d → exec .inflate s = .next (s.after (d.cmpStart 3))) ∧
   (∀ (s : State) (d : Dev) (k : Fin 5) (outs : List (List Byte)), s.dev.met = d → exec (.compressionEnd k outs) s = .next (s.after (d.cmpEnd k.val outs))) ∧
   (∀ (s : State) (d : Dev) (m : Master) (w : Word), s.dev.met = d → exec (.rewriteRequest m w) s = .next (s.after (
        let lo := d.loHalf m.id .HLT_RWLO 0
        (d.dropLo m.id .HLT_RWLO 0).rewriteRequest m.id lo w.toNat))) ∧
   (∀ (s : State) (d : Dev), s.dev.met = d → exec .rewriteServe s = .next (s.after (d.rewriteServe))) ∧
   (∀ (s : State) (d : Dev), s.dev.met = d → exec .patrolSelect s = .next (s.after (d.patrolSelect)))) ∧
  ((∀ (s : State) (d : Dev) (w : Word), s.dev.met = d → exec (.workAck w) s = .next (s.after (d.workAck w.toNat))) ∧
   (∀ (s : State) (d : Dev) (n : Fin 65536) (after : Nat), s.dev.met = d → exec (.workTimeout n after) s = .next (s.after ((d.advance after).workTimeout n.val))) ∧
   (∀ (s : State) (d : Dev) (after : Nat), s.dev.met = d → exec (.workRetry after) s = .next (s.after ((d.advance after).workRetry))) ∧
   (∀ (s : State) (d : Dev) (after : Nat), s.dev.met = d → exec (.checkpointTimer after) s = .next (s.after ((d.advance after).checkpointDue))) ∧
   (∀ (s : State) (d : Dev), s.dev.met = d → exec .statisticFlush s = .next (s.after (d.statFlush))) ∧
   (∀ (s : State) (d : Dev) (sl : List Int) (after : Nat), s.dev.met = d → exec (.slackReading sl after) s = .next (s.after ((d.advance after).periodic .slack 1250000000 fun d => d.slackReading sl))) ∧
   (∀ (s : State) (d : Dev) (after : Nat), s.dev.met = d → exec (.avsTimeout after) s = .next (s.after ((d.advance after).avsTimeout))) ∧
   (∀ (s : State) (d : Dev) (ts : List Int) (after : Nat), s.dev.met = d → exec (.temperatureReading ts after) s = .next (s.after ((d.advance after).periodic .dieTemp 125000000 fun d => d.temperature ts))) ∧
   (∀ (s : State) (d : Dev), s.dev.met = d → exec .weeklyProjection s = .next (s.after (d.weekly))) ∧
   (∀ (s : State) (d : Dev) (h : Fin 128), s.dev.met = d → exec (.calibrationPlan h) s = .next (s.after (d.calPlan h.val))) ∧
   (∀ (s : State) (d : Dev), s.dev.met = d → exec .hltWake s = .next (s.after (d.hltWake))) ∧
   (∀ (s : State) (d : Dev), s.dev.met = d → exec .safeReached s = .next (s.after (d.safeReached))) ∧
   (∀ (s : State) (d : Dev) (n : Fin 41) (after : Nat), s.dev.met = d → exec (.recoveryTimeout n after) s = .next (s.after ((d.advance after).recoveryTimeout n.val))) ∧
   (∀ (s : State) (d : Dev) (m : Master) (hi : Bool) (w : Word), s.dev.met = d → exec (.faultAcknowledge m hi w) s = .next (s.after (d.ackWrite m.id hi w.toNat))) ∧
   (∀ (s : State) (d : Dev) (hi : Bool) (w : Word), s.dev.met = d → exec (.faultForce hi w) s = .next (s.after (d.forceWrite hi w.toNat))) ∧
   (∀ (s : State) (d : Dev), s.dev.met = d → exec .holdRelease s = .next (s.after (d.holdRelease))) ∧
   (∀ (s : State) (d : Dev), s.dev.met = d → exec .faultLock s = .next (s.after (d.wr .FLT_CTL_LOCK 0 1))) ∧
   (∀ (s : State) (d : Dev) (r : FltReg) (w : Word), s.dev.met = d → exec (.faultConfigWrite r w) s = .next (s.after (d.fltConfig r w.toNat))) ∧
   (∀ (s : State) (d : Dev) (k : Fin 6), s.dev.met = d → exec (.clockLoss k) s = .next (s.after (d.clockLoss k.val))) ∧
   (∀ (s : State) (d : Dev) (c : Fin 8) (w : Word), s.dev.met = d → exec (.watchdogEnable c w) s = .next (s.after (d.wdCtl c.val w.toNat))) ∧
   (∀ (s : State) (d : Dev) (m : Master) (c : Fin 8) (key : Byte), s.dev.met = d → exec (.watchdogKick m c key) s = .next (s.after (d.wdKick m.id c.val key.toNat))) ∧
   (∀ (s : State) (d : Dev) (c : Fin 8) (after : Nat), s.dev.met = d → exec (.watchdogExpiry c after) s = .next (s.after ((d.advance after).watchdogExpiry c.val))) ∧
   (∀ (s : State) (d : Dev), s.dev.met = d → exec .eventStore s = .next (s.after (d.eventStore))) ∧
   (∀ (s : State) (d : Dev) (b : Bucket) (after : Nat), s.dev.met = d → exec (.tokenRefill b after) s = .next (s.after (
        (d.advance after).tokenRefill (match b with
        | .src n => n.val
        | .slot i => 128 + i.val
        | .default => 64))))) ∧
  ((∀ (s : State) (d : Dev) (after : Nat), s.dev.met = d → exec (.pageTimeout after) s = .next (s.after ((d.advance after).pageTimeout))) ∧
   (∀ (s : State) (d : Dev) (ok : Bool), s.dev.met = d → exec (.pageProgram ok) s = .next (s.after (d.pageProgram ok))) ∧
   (∀ (s : State) (d : Dev) (ok : Bool), s.dev.met = d → exec (.sectorErase ok) s = .next (s.after (d.sectorErase ok))) ∧
   (∀ (s : State) (d : Dev), s.dev.met = d → exec .eventFlush s = .next (s.after (d.closePage))) ∧
   (∀ (s : State) (d : Dev) (on : Bool), s.dev.met = d → exec (.norLogEnable on) s = .next (s.after (d.norLog on))) ∧
   (∀ (s : State) (d : Dev) (m : Master) (w : Word), s.dev.met = d → exec (.firmwareRecord m w) s = .next (s.after (d.swCode m.id w.toNat))) ∧
   (∀ (s : State) (d : Dev) (n : NorImage) (after : Nat), s.dev.met = d → exec (.imageLoad n after) s = .next (s.after (d.imageLoad n after))) ∧
   (∀ (s : State) (d : Dev) (after : Nat), s.dev.met = d → exec (.clockLockTimeout after) s = .next (s.after ((d.advance after).clockTimeout))) ∧
   (∀ (s : State) (d : Dev), s.dev.met = d → exec .handover s = .next (s.after (d.handoverNow))) ∧
   (∀ (s : State) (d : Dev), s.dev.met = d → exec .restoreDone s = .next (s.after (d.restoreDone))) ∧
   (∀ (s : State) (d : Dev) (len : BitVec 24), s.dev.met = d → exec (.norRead len) s = .next (s.after (d.norCommand (2 ^ 31 + len.toNat)))) ∧
   (∀ (s : State) (d : Dev) (len : BitVec 24), s.dev.met = d → exec (.norProgram len) s = .next (s.after (d.norCommand (2 ^ 31 + 2 ^ 28 + len.toNat)))) ∧
   (∀ (s : State) (d : Dev), s.dev.met = d → exec .norErase4k s = .next (s.after (d.norCommand (2 ^ 31 + 2 * 2 ^ 28)))) ∧
   (∀ (s : State) (d : Dev), s.dev.met = d → exec .norErase64k s = .next (s.after (d.norCommand (2 ^ 31 + 3 * 2 ^ 28)))) ∧
   (∀ (s : State) (d : Dev) (ok : Bool) (data : List Byte), s.dev.met = d → exec (.norCommandEnd ok data) s = .next (s.after (d.norEnd ok data))) ∧
   (∀ (s : State) (d : Dev) (v : Bool), s.dev.met = d → exec (.vbusChange v) s = .next (s.after (d.vbusChange v))) ∧
   (∀ (s : State) (d : Dev) (hs : Bool), s.dev.met = d → exec (.usbBusReset hs) s = .next (s.after (d.usbReset hs))) ∧
   (∀ (s : State) (d : Dev) (on : Bool), s.dev.met = d → exec (.usbSuspend on) s = .next (s.after (d.usbSuspend on))) ∧
   (∀ (s : State) (d : Dev) (x : Setup), s.dev.met = d → exec (.standardRequest x) s = .next (s.after (d.standardRequest x))) ∧
   (∀ (s : State) (d : Dev) (off : Word) (len : BitVec 16), s.dev.met = d → exec (.svcRegrd off len) s = .next (s.after (d.svcRegrd off.toNat len.toNat))) ∧
   (∀ (s : State) (d : Dev) (off : Word) (words : List Word), s.dev.met = d → exec (.svcRegwr off words) s = .next (s.after (d.svcRegwr off.toNat (words.map BitVec.toNat)))) ∧
   (∀ (s : State) (d : Dev) (len : BitVec 16), s.dev.met = d → exec (.svcDigest len) s = .next (s.after (d.svcDigest len.toNat))) ∧
   (∀ (s : State) (d : Dev) (len : BitVec 16) (err : Option MemErr), s.dev.met = d → exec (.svcMemrd len err) s = .next (s.after (d.svcMemrd len.toNat err))) ∧
   (∀ (s : State) (d : Dev) (bytes : List Byte), s.dev.met = d → exec (.svcMemwr bytes) s = .next (s.after (d.svcMemwr bytes)))) ∧
  ((∀ (s : State) (d : Dev) (kind len : BitVec 16), s.dev.met = d → exec (.svcReset kind len) s = .next (s.after (d.svcReset kind.toNat len.toNat))) ∧
   (∀ (s : State) (d : Dev) (sel : BitVec 16) (bytes : List Byte), s.dev.met = d → exec (.svcFuse sel bytes) s = .next (s.after (d.svcFuse sel.toNat bytes))) ∧
   (∀ (s : State) (d : Dev) (rivals : List (List RegWrite)), s.dev.met = d → exec (.outCommit rivals) s = .next (s.after (d.outCommit rivals))) ∧
   (∀ (s : State) (d : Dev), s.dev.met = d → exec .eventStream s = .next (s.after (d.eventStream))) ∧
   (∀ (s : State) (d : Dev), s.dev.met = d → exec .digestInterrupt s = .next (s.after (d.digestInterrupt))) ∧
   (∀ (s : State) (d : Dev) (r : TxResult), s.dev.met = d → exec (.frameTransmit r) s = .next (s.after (d.frameTransmit r))) ∧
   (∀ (s : State) (d : Dev), s.dev.met = d → exec .busoffRecovery s = .next (s.after (d.busoffEnd))) ∧
   (∀ (s : State) (d : Dev), s.dev.met = d → exec .busoffRestart s = .next (s.after (if d.on .RCK_STAT_BUSOFF && d.on .RCK_CTL_MANREC then { d with rck := { d.rck with restart := true } } else d))) ∧
   (∀ (s : State) (d : Dev) (after : Nat), s.dev.met = d → exec (.soloDelayEnd after) s = .next (s.after ((d.advance after).delayEnd))) ∧
   (∀ (s : State) (d : Dev) (after : Nat), s.dev.met = d → exec (.helloTimer after) s = .next (s.after ((d.advance after).helloDue))) ∧
   (∀ (s : State) (d : Dev) (after : Nat), s.dev.met = d → exec (.tokreqTimer after) s = .next (s.after ((d.advance after).tokReqDue))) ∧
   (∀ (s : State) (d : Dev) (after : Nat), s.dev.met = d → exec (.tokholdTimer after) s = .next (s.after ((d.advance after).tokHoldDue))) ∧
   (∀ (s : State) (d : Dev) (src : Fin 512), s.dev.met = d → exec (.alertReceive src) s = .next (s.after (d.received src.val Dev.alerted))) ∧
   (∀ (s : State) (d : Dev) (src : Fin 512) (x : BitVec 24) (num : Byte), s.dev.met = d → exec (.beaconReceive src x num) s = .next (s.after (d.received src.val fun d => d.beaconTake src.val x.toNat num.toNat))) ∧
   (∀ (s : State) (d : Dev) (src dst : Fin 512) (seq : BitVec 16), s.dev.met = d → exec (.tokgrantReceive src dst seq) s = .next (s.after (d.received src.val fun d => d.tokGrant src.val dst.val seq.toNat))) ∧
   (∀ (s : State) (d : Dev) (src : Fin 512) (seq : BitVec 16), s.dev.met = d → exec (.tokreqReceive src seq) s = .next (s.after (d.received src.val fun d => d.tokReq src.val seq.toNat))) ∧
   (∀ (s : State) (d : Dev) (src : Fin 512), s.dev.met = d → exec (.tokholdReceive src) s = .next (s.after (d.received src.val fun d => d.tokHold src.val))) ∧
   (∀ (s : State) (d : Dev) (src : Fin 512), s.dev.met = d → exec (.tokrelReceive src) s = .next (s.after (d.received src.val fun d => d.tokFree src.val))) ∧
   (∀ (s : State) (d : Dev) (src : Fin 512) (flags : Byte), s.dev.met = d → exec (.helloReceive src flags) s = .next (s.after (d.received src.val fun d => d.helloFrom src.val flags.toNat))) ∧
   (∀ (s : State) (d : Dev) (src : Fin 512), s.dev.met = d → exec (.digreqReceive src) s = .next (s.after (d.received src.val fun d => d.digReq src.val))) ∧
   (∀ (s : State) (d : Dev) (src : Fin 512), s.dev.met = d → exec (.digestReceive src) s = .next (s.after (d.received src.val fun d => d))) ∧
   (∀ (s : State) (d : Dev) (n : Fin 512) (after : Nat), s.dev.met = d → exec (.stewardChange n after) s = .next (s.after ((d.advance after).nodeLost n.val))) ∧
   (∀ (s : State) (d : Dev) (after : Nat), s.dev.met = d → exec (.tokenGrant after) s = .next (s.after ((d.advance after).stewardGrant))) ∧
   (∀ (s : State) (d : Dev) (after : Nat), s.dev.met = d → exec (.beaconMasterChange after) s = .next (s.after ((d.advance after).masterChange)))) ∧
  ((∀ (s : State) (d : Dev) (after : Nat), s.dev.met = d → exec (.beaconSend after) s = .next (s.after ((d.advance after).beaconSend))) ∧
   (∀ (s : State) (d : Dev), s.dev.met = d → exec .rackAlertSense s = .next (s.after (d.alertSense))) ∧
   (∀ (s : State) (d : Dev) (after : Nat), s.dev.met = d → exec (.rackAlertRelease after) s = .next (s.after ((d.advance after).alertRelease))) ∧
   (∀ (s : State) (d : Dev) (slot : Fin 32) (k : Option (Fin 4)), s.dev.met = d → exec (.tpeContextParityError slot k) s = .next (s.after (d.tpeParity slot.val (k.map Fin.val)))) ∧
   (∀ (s : State) (d : Dev) (k : Fin 64), s.dev.met = d → exec (.synthRangeReturn k) s = .next (s.after (d.checkRange k.val))) ∧
   (∀ (s : State) (d : Dev) (n : Fin 256) (isOpen : Bool), s.dev.met = d → exec (.readerInputFaultClear n isOpen) s = .next (s.after (d.inputClear n.val isOpen))) ∧
   (∀ (s : State) (d : Dev), s.dev.met = d → exec .powerStageFaultClear s = .next (s.after (d.powerStageClear))) ∧
   (∀ (s : State) (d : Dev), s.dev.met = d → exec .pwmPeriod s = .next (s.after (d.pwmPeriod))) ∧
   (∀ (s : State) (d : Dev) (after : Nat), s.dev.met = d → exec (.detectRetry after) s = .next (s.after ((d.advance after).detectRetry))) ∧
   (∀ (s : State) (d : Dev) (a : Fin 4) (v : Nat), s.dev.met = d → exec (.badUplinkFrame a v) s = .next (s.after (d.badUplink a.val v))) ∧
   (∀ (s : State) (d : Dev) (l : Fin 64), s.dev.met = d → exec (.servoGateOpen l) s = .next (s.after (d.servoGateOpen l.val))) ∧
   (∀ (s : State) (d : Dev) (l : Fin 64), s.dev.met = d → exec (.servoGateClose l) s = .next (s.after (d.servoGateClose l.val))) ∧
   (∀ (s : State) (d : Dev) (p : Fin 2) (q : Fin 257) (cq : Bool) (v : BitVec 16), s.dev.met = d → exec (.doorbellWrite p q cq v) s = .next (s.after (d.doorbell p.val q.val cq v.toNat))) ∧
   (∀ (s : State) (d : Dev) (p : Fin 2) (a : ConfigAccess), s.dev.met = d → exec (.pcieConfigAccess p a) s = .next (s.after (d.configAccess p.val a))) ∧
   (∀ (s : State) (d : Dev) (p : Fin 2) (speed : Fin 6) (width : Fin 5), s.dev.met = d → exec (.pcieLinkUp p speed width) s = .next (s.after (
        if !d.portExists p.val || d.on .HIF_LNKSTAT_UP p.val then d
        else ((d.wr .HIF_LNKSTAT_UP p.val 1).wr .HIF_LNKSTAT_SPEED p.val speed.val).wr .HIF_LNKSTAT_WIDTH p.val width.val))) ∧
   (∀ (s : State) (d : Dev) (p : Fin 2) (uncorrectable : Bool), s.dev.met = d → exec (.pcieError p uncorrectable) s = .next (s.after (
        if !d.portExists p.val then d
        else if uncorrectable then d.count .HIF_PERR_UNCOR p.val else d.count .HIF_PERR_CORR p.val))) ∧
   (∀ (s : State) (d : Dev) (p : Fin 2) (v : Fin 257) (after : Nat), s.dev.met = d → exec (.interruptCoalescingTimeout p v after) s = .next (s.after ((d.advance after).coalesceTimeout p.val v.val))) ∧
   (∀ (s : State) (d : Dev) (fseq : BitVec 32), s.dev.met = d → exec (.recoveryTimeLimit fseq) s = .next (s.after (d.tlerPasses fseq.toNat))) ∧
   (∀ (s : State) (d : Dev) (fseq : BitVec 32), s.dev.met = d → exec (.hostTransferDone fseq) s = .next (s.after (d.transferDone fseq.toNat))) ∧
   (∀ (s : State) (d : Dev) (c : Fin 8) (k : CoreAccess) (a : BitVec 40) (size : Fin 4) (v : BitVec 64) (err : Option MemErr), s.dev.met = d → exec (.coreMemoryAccess c k a size v err) s = .next (s.after (d.coreAccess c k a.toNat size.val v.toNat err))) ∧
   (∀ (s : State) (d : Dev) (c : Fin 8), s.dev.met = d → exec (.fenceI c) s = .next (s.after (d.fenceI c.val))) ∧
   (∀ (s : State) (d : Dev) (after : Nat), s.dev.met = d → exec (.poweredHour after) s = .next (s.after ((d.advance after).periodic .hour (3600 * 1250000000) Dev.poweredHour))) ∧
   (∀ (s : State) (d : Dev) (after : Nat), s.dev.met = d → exec (.cricketToggle after) s = .next (s.after ((d.advance after).cricket))) ∧
   (∀ (s : State) (d : Dev) (n : Fin 512) (after : Nat), s.dev.met = d → exec (.tokenHoldExpiry n after) s = .next (s.after ((d.advance after).holdExpiry n.val)))) ∧
  ((∀ (s : State) (d : Dev), s.dev.met = d → exec .foreignFrameReceive s = .next (s.after (if d.rckRuns then d.count .RCK_CNT_FOREIGN else d))) ∧
   (∀ (s : State) (d : Dev) (major : Bool), s.dev.met = d → exec (.canReceiveError major) s = .next (s.after (if d.rckRuns then { d with rck := { d.rck with rxerr := d.rck.rxerr + (if major then 8 else 1) } } else d))) ∧
   (∀ (s : State) (d : Dev) (k : Fin 6), s.dev.met = d → exec (.clockRelock k) s = .next (s.after (d.wr (clockFld k.val) 0 1))) ∧
   (∀ (s : State) (d : Dev), s.dev.met = d → exec .avsAcknowledge s = .next (s.after (d.avsAck))) ∧
   (∀ (s : State) (b : Bool), exec (.powerOnReset b) s = .next { State.after { s with test := false } s.dev.met.powerOn with test := b }))

end
end

