-- ==== Sys2Proof/Laws/Bus.lean ====
section
/-! SUPPORT. What an access of register space does, once its address has been decoded. -/

namespace Sys2Proof.Machine

theorem Dev.regRead_snapped {d : Dev} {m o : Nat} {r : Reg} {i : Nat} (h : targetOf m o = .reg r i) (hs : r.snapped = true) (c : Bool) :
    d.regRead m o c =
      (if c then (d.capture m r i).clearRc r i else d.capture m r i).emit (.data m (Tab.getD d.bus.hold (holdKey m r i) 0)) := by
  cases c <;> simp [Dev.regRead, Dev.readValue, Dev.readEffect, h, hs]

theorem Dev.regRead_word {d : Dev} {m o : Nat} {r : Reg} {i : Nat} (h : targetOf m o = .reg r i) (hs : r.snapped = false) (c : Bool) :
    d.regRead m o c = (if c then (d.capture m r i).clearRc r i else d.capture m r i).emit (.data m (d.word r i)) := by
  cases c <;> simp [Dev.regRead, Dev.readValue, Dev.readEffect, h, hs]

theorem Dev.regRead_hole {d : Dev} {m o : Nat} (h : targetOf m o = .hole) (c : Bool) : d.regRead m o c = d.emit (.data m 0) := by
  simp [Dev.regRead, Dev.readValue, Dev.readEffect, h]

theorem Dev.offsetWrite_reg {d : Dev} {m o w : Nat} {r : Reg} {i : Nat} (h : targetOf m o = .reg r i) :
    d.offsetWrite m o w = d.regWrite m r i w := by
  simp [Dev.offsetWrite, h]

/-- A write is never beaten by itself. -/
theorem beatenBy_single (x : RegWrite) : beatenBy [x] x = none := by
  unfold beatenBy
  split <;> simp [List.filter]

/-- Nor by a write of lower priority. -/
theorem beatenBy_low {x y : RegWrite} (h : x.master.id < y.master.id) : beatenBy [x, y] x = none := by
  have h1 : decide (y.master.id < x.master.id) = false := decide_eq_false (by omega)
  have h2 : decide (x.master.id < x.master.id) = false := decide_eq_false (by omega)
  unfold beatenBy
  simp only [List.filter, h1, h2, Bool.and_false]
  split <;> rfl

/-- Of two writes of one register the one of higher priority beats the other. -/
theorem beatenBy_high {x y : RegWrite} {r : Reg} {i : Nat} (h : x.master.id < y.master.id) (hx : writeTarget x = .reg r i)
    (hy : writeTarget y = .reg r i) : beatenBy [x, y] y = some x := by
  have h1 : decide (x.master.id < y.master.id) = true := decide_eq_true h
  have h2 : decide (y.master.id < y.master.id) = false := decide_eq_false (by omega)
  unfold beatenBy
  simp only [hx, hy, List.filter, h1, h2, Bool.and_false, Bool.and_true, beq_self_eq_true, List.foldl]

theorem busCycles_single (x : RegWrite) : busCycles [x] = [[x]] := by
  simp [busCycles, placeAccess]

theorem busCycles_two {x y : RegWrite} (h : x.master ≠ y.master) (hx : x.chan = none) (hy : y.chan = none) :
    busCycles [x, y] = [[x, y]] := by
  simp [busCycles, placeAccess, accessTurn, hx, hy, List.mergeSort, List.merge, h]

/-- The writes of one cycle take one cycle. -/
theorem Dev.busWrites_cycle {d : Dev} {l c : List RegWrite} (h : busCycles l = [c]) : d.busWrites l = d.busCycle c := by
  unfold Dev.busWrites
  rw [h]
  rfl

/-- One write, not refused. -/
theorem Dev.busWrites_one {d : Dev} {x : RegWrite} (h : d.busRefuses x.master.id x.addr 4 = false) :
    d.busWrites [x] = d.offsetWrite x.master.id (regOffset x.addr) x.data.toNat := by
  rw [Dev.busWrites_cycle (busCycles_single x)]
  unfold Dev.busCycle
  simp only [List.filter, h, Bool.not_false, beatenBy_single, List.filterMap, Option.map_none, Option.isNone_none, List.foldl,
    List.mergeSort, Dev.conflict, Dev.takeWrites, List.length, if_pos (Nat.le_refl 1)]

/-- One write, refused. -/
theorem Dev.busWrites_refused {d : Dev} {x : RegWrite} (h : d.busRefuses x.master.id x.addr 4 = true) :
    d.busWrites [x] = d.emit (.busError x.master.id) := by
  rw [Dev.busWrites_cycle (busCycles_single x)]
  unfold Dev.busCycle
  simp only [List.filter, h, Bool.not_true, List.filterMap, List.foldl, List.mergeSort, Dev.conflict, Dev.takeWrites]
  rfl

/-- Two writes of one register: the one of higher priority takes effect and the other is recorded. -/
theorem Dev.busWrites_two {d : Dev} {x y : RegWrite} {r : Reg} {i : Nat} (h : x.master.id < y.master.id)
    (hcx : x.chan = none) (hcy : y.chan = none)
    (h1 : d.busRefuses x.master.id x.addr 4 = false) (h2 : d.busRefuses y.master.id y.addr 4 = false)
    (hx : writeTarget x = .reg r i) (hy : writeTarget y = .reg r i) :
    d.busWrites [x, y] = (d.offsetWrite x.master.id (regOffset x.addr) x.data.toNat).conflict [(y, x)] := by
  have hn : x.master ≠ y.master := fun e => by rw [e] at h; omega
  rw [Dev.busWrites_cycle (busCycles_two hn hcx hcy)]
  unfold Dev.busCycle
  simp only [List.filter, h1, h2, Bool.not_false, beatenBy_low h, beatenBy_high h hx hy, List.filterMap, Option.map_none,
    Option.map_some, Option.isNone_none, Option.isNone_some, List.foldl, List.mergeSort, Dev.takeWrites, List.length,
    if_pos (Nat.le_refl 1)]

end Sys2Proof.Machine
end

