-- ==== Sys2Proof/Laws/Sparse.lean ====
section
/-! SUPPORT. What looking a key up in a sparse table gives after a write, and that every write keeps the keys rising. -/

namespace Sys2Proof.Machine

variable {α : Type}

@[simp] theorem Tab.look_put_self (t : Tab α) (k : Nat) (v : α) : Tab.look (Tab.put t k v) k = some v := by
  induction t with
  | nil => simp [Tab.put, Tab.look]
  | cons e t ih =>
    obtain ⟨j, u⟩ := e
    simp only [Tab.put]
    split
    · simp [Tab.look]
    · split
      · simp [Tab.look]
      · rename_i h; simp [Tab.look, h, ih]

theorem Tab.look_put_ne (t : Tab α) {k j : Nat} (v : α) (h : j ≠ k) : Tab.look (Tab.put t k v) j = Tab.look t j := by
  induction t with
  | nil => simp [Tab.put, Tab.look, Ne.symm h]
  | cons e t ih =>
    obtain ⟨i, u⟩ := e
    simp only [Tab.put]
    split
    · simp [Tab.look, Ne.symm h]
    · split
      · rename_i h2; subst h2; simp [Tab.look, Ne.symm h]
      · simp [Tab.look, ih]

theorem Tab.look_del_ne (t : Tab α) {k j : Nat} (h : j ≠ k) : Tab.look (Tab.del t k) j = Tab.look t j := by
  induction t with
  | nil => simp [Tab.del]
  | cons e t ih =>
    obtain ⟨i, u⟩ := e
    simp only [Tab.del]
    split
    · rename_i h2; subst h2; simp [Tab.look, Ne.symm h, ih]
    · simp [Tab.look, ih]

@[simp] theorem Tab.look_del_self (t : Tab α) (k : Nat) : Tab.look (Tab.del t k) k = none := by
  induction t with
  | nil => rfl
  | cons e t ih =>
    obtain ⟨j, u⟩ := e
    simp only [Tab.del]
    split
    · exact ih
    · rename_i hj; simp [Tab.look, hj, ih]

theorem Tab.mem_put (t : Tab α) {k : Nat} {v : α} {e : Nat × α} (h : e ∈ Tab.put t k v) : e = (k, v) ∨ e ∈ t := by
  induction t with
  | nil => simp [Tab.put] at h; exact .inl h
  | cons x t ih =>
    obtain ⟨j, u⟩ := x
    simp only [Tab.put] at h
    split at h
    · simpa using h
    · split at h
      · simp at h; rcases h with h | h
        · exact .inl h
        · exact .inr (by simp [h])
      · simp at h; rcases h with h | h
        · exact .inr (by simp [h])
        · rcases ih h with h | h
          · exact .inl h
          · exact .inr (by simp [h])

theorem Tab.mem_del (t : Tab α) {k : Nat} {e : Nat × α} (h : e ∈ Tab.del t k) : e ∈ t := by
  induction t with
  | nil => simp [Tab.del] at h
  | cons x t ih =>
    obtain ⟨j, u⟩ := x
    simp only [Tab.del] at h
    split at h
    · simp [ih h]
    · simp at h; rcases h with h | h
      · simp [h]
      · simp [ih h]

theorem Tab.sorted_put {t : Tab α} (k : Nat) (v : α) (h : Tab.Sorted t) : Tab.Sorted (Tab.put t k v) := by
  induction t with
  | nil => simp [Tab.put, Tab.Sorted]
  | cons e t ih =>
    obtain ⟨j, u⟩ := e
    unfold Tab.Sorted at h ih ⊢
    have h' := h
    rw [List.pairwise_cons] at h
    simp only [Tab.put]
    split
    · rename_i hk
      refine List.pairwise_cons.mpr ⟨fun x hx => ?_, h'⟩
      simp at hx; rcases hx with rfl | hx
      · exact hk
      · exact Nat.lt_trans hk (h.1 x hx)
    · split
      · rename_i hk; subst hk; exact List.pairwise_cons.mpr ⟨h.1, h.2⟩
      · refine List.pairwise_cons.mpr ⟨fun x hx => ?_, ih h.2⟩
        rcases Tab.mem_put t hx with rfl | hx
        · simp; omega
        · exact h.1 x hx

theorem Tab.sorted_del {t : Tab α} (k : Nat) (h : Tab.Sorted t) : Tab.Sorted (Tab.del t k) := by
  induction t with
  | nil => exact h
  | cons e t ih =>
    obtain ⟨j, u⟩ := e
    unfold Tab.Sorted at h ih ⊢
    rw [List.pairwise_cons] at h
    simp only [Tab.del]
    split
    · exact ih h.2
    · exact List.pairwise_cons.mpr ⟨fun x hx => h.1 x (Tab.mem_del t hx), ih h.2⟩

theorem Tab.sorted_store [DecidableEq α] {t : Tab α} (dflt : α) (k : Nat) (v : α) (h : Tab.Sorted t) :
    Tab.Sorted (Tab.store t dflt k v) := by
  unfold Tab.store; split
  · exact Tab.sorted_del k h
  · exact Tab.sorted_put k v h

theorem Tab.mem_store [DecidableEq α] (t : Tab α) {dflt v : α} {k : Nat} {e : Nat × α} (h : e ∈ Tab.store t dflt k v) :
    (e = (k, v) ∧ v ≠ dflt) ∨ e ∈ t := by
  unfold Tab.store at h; split at h
  · exact .inr (Tab.mem_del t h)
  · rename_i hv
    rcases Tab.mem_put t h with h | h
    · exact .inl ⟨h, hv⟩
    · exact .inr h

@[simp] theorem Tab.getD_put_self (t : Tab α) (k : Nat) (v d : α) : Tab.getD (Tab.put t k v) k d = v := by simp [Tab.getD]

theorem Tab.getD_put_ne (t : Tab α) {k j : Nat} (v d : α) (h : j ≠ k) : Tab.getD (Tab.put t k v) j d = Tab.getD t j d := by
  simp [Tab.getD, Tab.look_put_ne t v h]

theorem Tab.getD_del_ne (t : Tab α) {k j : Nat} (d : α) (h : j ≠ k) : Tab.getD (Tab.del t k) j d = Tab.getD t j d := by
  simp [Tab.getD, Tab.look_del_ne t h]

/-- A write to one key leaves what every other key reads as. -/
theorem Tab.getD_store_ne [DecidableEq α] (t : Tab α) {k j : Nat} (dflt v d : α) (h : j ≠ k) :
    Tab.getD (Tab.store t dflt k v) j d = Tab.getD t j d := by
  unfold Tab.store; split
  · exact Tab.getD_del_ne t d h
  · exact Tab.getD_put_ne t v d h

/-- A key reads as what was written to it. -/
theorem Tab.getD_store_self [DecidableEq α] (t : Tab α) (dflt v : α) (k : Nat) :
    Tab.getD (Tab.store t dflt k v) k dflt = v := by
  unfold Tab.store; split
  · rename_i hv; simp [Tab.getD, hv]
  · simp

end Sys2Proof.Machine
end

