-- ==== Sys2Proof/Laws/Fsq.lean ====
section
/-! SUPPORT. What a field of a microword does when its turn has come, and when the word is illegal or stalled. -/

namespace Sys2Proof.Machine

@[simp] theorem Dev.seq_setSeq_self (d : Dev) (s : Nat) (q : Seq) : (d.setSeq s q).seq s = q := by simp [Dev.seq, Dev.setSeq]

theorem Dev.seq_setSeq_ne (d : Dev) {s t : Nat} (q : Seq) (h : t ≠ s) : (d.setSeq s q).seq t = d.seq t := by
  simp [Dev.seq, Dev.setSeq, Tab.getD_put_ne _ _ _ h]

@[simp] theorem Dev.seq_acting (d : Dev) (q : Nat) (f : MField) : (d.acting q f).seq q =
    { d.seq q with acted := (d.seq q).acted ++ [f.num], cond := some ((d.seq q).cond.getD (d.wordCond q (d.mword q))) } := by
  simp [Dev.acting]

@[simp] theorem Dev.rd_acting (d : Dev) (q : Nat) (f : MField) (g : Fld) (i : Nat) : (d.acting q f).rd g i = d.rd g i := rfl

/-- A field whose turn has come acts on the word, marked as done. -/
theorem Dev.fieldAct_ready {d : Dev} {q : Nat} {f : MField} {codes : List Nat} (g : Dev → Nat → Dev)
    (h : d.fieldReady q f codes = true) : d.fieldAct q f codes g = g (d.acting q f) (d.mword q) := by
  simp only [Dev.fieldReady, Bool.and_eq_true, Bool.or_eq_true, Bool.not_eq_true'] at h
  obtain ⟨⟨⟨⟨h1, h2⟩, h3⟩, h4⟩, h5⟩ := h
  have h2' : f.code (d.mword q) ∈ codes := by simpa using h2
  rcases h5 with h5 | ⟨h5, h6⟩
  · simp [Dev.fieldAct, Dev.acting, h1, h2', h3, h4, h5]
  · simp [Dev.fieldAct, Dev.acting, h1, h2', h3, h4, h5, h6]

end Sys2Proof.Machine
end

