-- ==== Sys2Proof/Laws/RegFile.lean ====
section
/-! SUPPORT. Reading a register field after a write: the field written gives the value cut to its width, every other field
what it gave before. -/

namespace Sys2Proof.Machine

theorem Fld.ctorIdx_lt (f : Fld) : f.ctorIdx < 2048 := by cases f <;> decide

theorem Fld.ctorIdx_inj {f g : Fld} (h : f.ctorIdx = g.ctorIdx) : f = g := by
  rw [← Fld.ofNat_ctorIdx f, ← Fld.ofNat_ctorIdx g, h]

theorem Fld.key_inj {f g : Fld} {i j : Nat} (h : f.key i = g.key j) : f = g ∧ i = j := by
  unfold Fld.key at h
  have hf := f.ctorIdx_lt
  have hg := g.ctorIdx_lt
  exact ⟨Fld.ctorIdx_inj (by omega), by omega⟩

theorem RegFile.get_set_ne (r : RegFile) {f g : Fld} {i j : Nat} (v : Nat) (h : ¬(g = f ∧ j = i)) :
    (r.set f i v).get g j = r.get g j := by
  unfold RegFile.set RegFile.get
  exact Tab.getD_store_ne r _ _ _ fun e => h (Fld.key_inj e)

theorem RegFile.get_set_self (r : RegFile) (f : Fld) (i v : Nat) :
    (r.set f i v).get f i = v % 2 ^ f.info.w := by
  unfold RegFile.set RegFile.get
  exact Tab.getD_store_self _ _ _ _

/-- A write of one field leaves every other field. -/
theorem Dev.rd_wr_ne (d : Dev) {f g : Fld} {i j : Nat} (v : Nat) (h : ¬(g = f ∧ j = i)) : (d.wr f i v).rd g j = d.rd g j :=
  RegFile.get_set_ne d.regs v h

/-- A write of a field leaves every field of another name. -/
@[simp] theorem Dev.rd_wr_of_ne (d : Dev) {f g : Fld} (i j v : Nat) (h : g ≠ f) : (d.wr f i v).rd g j = d.rd g j :=
  Dev.rd_wr_ne d v fun e => h e.1

/-- A written field reads as the value, cut to its width. -/
@[simp] theorem Dev.rd_wr_self (d : Dev) (f : Fld) (i v : Nat) : (d.wr f i v).rd f i = v % 2 ^ f.info.w :=
  RegFile.get_set_self _ f i v

theorem Dev.sorted_wr {d : Dev} (f : Fld) (i v : Nat) (h : Tab.Sorted d.regs) : Tab.Sorted (d.wr f i v).regs :=
  Tab.sorted_store _ _ _ h

/-- A periodic event that is due: the next interval counts from the end of this one. -/
theorem Dev.periodic_due {d : Dev} {t : Timer} {n : Nat} (h : d.waitFrom t + n ≤ d.now) (f : Dev → Dev) :
    d.periodic t n f = f { d with timers := (d.timers.filter fun x => x.1 != t) ++ [(t, d.waitFrom t + n)] } := by
  simp only [Dev.periodic, Nat.not_lt.mpr h, if_false]

/-- One that is not due yet. -/
theorem Dev.periodic_early {d : Dev} {t : Timer} {n : Nat} (h : d.now < d.waitFrom t + n) (f : Dev → Dev) : d.periodic t n f = d := by
  simp only [Dev.periodic, h, if_true]

end Sys2Proof.Machine
end

