-- ==== Sys2Proof/Laws/State.lean ====
section
/-! SUPPORT. What each update of one part of the device leaves of every other part: one lemma per part, true by unfolding. -/

namespace Sys2Proof.Machine

variable (d : Dev)

@[simp] theorem State.after_pending (s : State) : (s.after d).pending = s.pending := by
  unfold State.after; split <;> rfl
@[simp] theorem State.after_test (s : State) : (s.after d).test = s.test := by
  unfold State.after; split <;> rfl
theorem State.after_dev {s : State} (h : s.test = false) : (s.after d).dev = d.leave := by
  unfold State.after; rw [h]; rfl
theorem State.after_held {s : State} (h : s.test = true) : (s.after d).dev = { s.dev with out := [] } := by
  unfold State.after; rw [h]; rfl

/-! ### beginWait changes timers only -/

@[simp] theorem Dev.beginWait_now (t : Timer) : (d.beginWait t).now = d.now := rfl
@[simp] theorem Dev.beginWait_regs (t : Timer) : (d.beginWait t).regs = d.regs := rfl
@[simp] theorem Dev.beginWait_mem (t : Timer) : (d.beginWait t).mem = d.mem := rfl
@[simp] theorem Dev.beginWait_out (t : Timer) : (d.beginWait t).out = d.out := rfl
@[simp] theorem Dev.beginWait_free (t : Timer) : (d.beginWait t).free = d.free := rfl
@[simp] theorem Dev.beginWait_bus (t : Timer) : (d.beginWait t).bus = d.bus := rfl
@[simp] theorem Dev.beginWait_ang (t : Timer) : (d.beginWait t).ang = d.ang := rfl
@[simp] theorem Dev.beginWait_lnx (t : Timer) : (d.beginWait t).lnx = d.lnx := rfl
@[simp] theorem Dev.beginWait_lanes (t : Timer) : (d.beginWait t).lanes = d.lanes := rfl
@[simp] theorem Dev.beginWait_itb (t : Timer) : (d.beginWait t).itb = d.itb := rfl
@[simp] theorem Dev.beginWait_tpe (t : Timer) : (d.beginWait t).tpe = d.tpe := rfl
@[simp] theorem Dev.beginWait_fsq (t : Timer) : (d.beginWait t).fsq = d.fsq := rfl
@[simp] theorem Dev.beginWait_wrf (t : Timer) : (d.beginWait t).wrf = d.wrf := rfl
@[simp] theorem Dev.beginWait_srv (t : Timer) : (d.beginWait t).srv = d.srv := rfl
@[simp] theorem Dev.beginWait_arm (t : Timer) : (d.beginWait t).arm = d.arm := rfl
@[simp] theorem Dev.beginWait_spn (t : Timer) : (d.beginWait t).spn = d.spn := rfl
@[simp] theorem Dev.beginWait_mac (t : Timer) : (d.beginWait t).mac = d.mac := rfl
@[simp] theorem Dev.beginWait_ve (t : Timer) : (d.beginWait t).ve = d.ve := rfl
@[simp] theorem Dev.beginWait_hif (t : Timer) : (d.beginWait t).hif = d.hif := rfl
@[simp] theorem Dev.beginWait_dig (t : Timer) : (d.beginWait t).dig = d.dig := rfl
@[simp] theorem Dev.beginWait_sch (t : Timer) : (d.beginWait t).sch = d.sch := rfl
@[simp] theorem Dev.beginWait_rck (t : Timer) : (d.beginWait t).rck = d.rck := rfl
@[simp] theorem Dev.beginWait_chk (t : Timer) : (d.beginWait t).chk = d.chk := rfl
@[simp] theorem Dev.beginWait_memx (t : Timer) : (d.beginWait t).memx = d.memx := rfl
@[simp] theorem Dev.beginWait_dma (t : Timer) : (d.beginWait t).dma = d.dma := rfl
@[simp] theorem Dev.beginWait_cmp (t : Timer) : (d.beginWait t).cmp = d.cmp := rfl
@[simp] theorem Dev.beginWait_cfg (t : Timer) : (d.beginWait t).cfg = d.cfg := rfl
@[simp] theorem Dev.beginWait_svc (t : Timer) : (d.beginWait t).svc = d.svc := rfl
@[simp] theorem Dev.beginWait_hlt (t : Timer) : (d.beginWait t).hlt = d.hlt := rfl
@[simp] theorem Dev.beginWait_flt (t : Timer) : (d.beginWait t).flt = d.flt := rfl
@[simp] theorem Dev.beginWait_evt (t : Timer) : (d.beginWait t).evt = d.evt := rfl
@[simp] theorem Dev.beginWait_rd (t : Timer) (g : Fld) (j : Nat) : (d.beginWait t).rd g j = d.rd g j := rfl
@[simp] theorem Dev.beginWait_ld8 (t : Timer) (k : Nat) : (d.beginWait t).ld8 k = d.ld8 k := rfl

/-! ### endWait changes timers only -/

@[simp] theorem Dev.endWait_now (t : Timer) : (d.endWait t).now = d.now := rfl
@[simp] theorem Dev.endWait_regs (t : Timer) : (d.endWait t).regs = d.regs := rfl
@[simp] theorem Dev.endWait_mem (t : Timer) : (d.endWait t).mem = d.mem := rfl
@[simp] theorem Dev.endWait_out (t : Timer) : (d.endWait t).out = d.out := rfl
@[simp] theorem Dev.endWait_free (t : Timer) : (d.endWait t).free = d.free := rfl
@[simp] theorem Dev.endWait_bus (t : Timer) : (d.endWait t).bus = d.bus := rfl
@[simp] theorem Dev.endWait_ang (t : Timer) : (d.endWait t).ang = d.ang := rfl
@[simp] theorem Dev.endWait_lnx (t : Timer) : (d.endWait t).lnx = d.lnx := rfl
@[simp] theorem Dev.endWait_lanes (t : Timer) : (d.endWait t).lanes = d.lanes := rfl
@[simp] theorem Dev.endWait_itb (t : Timer) : (d.endWait t).itb = d.itb := rfl
@[simp] theorem Dev.endWait_tpe (t : Timer) : (d.endWait t).tpe = d.tpe := rfl
@[simp] theorem Dev.endWait_fsq (t : Timer) : (d.endWait t).fsq = d.fsq := rfl
@[simp] theorem Dev.endWait_wrf (t : Timer) : (d.endWait t).wrf = d.wrf := rfl
@[simp] theorem Dev.endWait_srv (t : Timer) : (d.endWait t).srv = d.srv := rfl
@[simp] theorem Dev.endWait_arm (t : Timer) : (d.endWait t).arm = d.arm := rfl
@[simp] theorem Dev.endWait_spn (t : Timer) : (d.endWait t).spn = d.spn := rfl
@[simp] theorem Dev.endWait_mac (t : Timer) : (d.endWait t).mac = d.mac := rfl
@[simp] theorem Dev.endWait_ve (t : Timer) : (d.endWait t).ve = d.ve := rfl
@[simp] theorem Dev.endWait_hif (t : Timer) : (d.endWait t).hif = d.hif := rfl
@[simp] theorem Dev.endWait_dig (t : Timer) : (d.endWait t).dig = d.dig := rfl
@[simp] theorem Dev.endWait_sch (t : Timer) : (d.endWait t).sch = d.sch := rfl
@[simp] theorem Dev.endWait_rck (t : Timer) : (d.endWait t).rck = d.rck := rfl
@[simp] theorem Dev.endWait_chk (t : Timer) : (d.endWait t).chk = d.chk := rfl
@[simp] theorem Dev.endWait_memx (t : Timer) : (d.endWait t).memx = d.memx := rfl
@[simp] theorem Dev.endWait_dma (t : Timer) : (d.endWait t).dma = d.dma := rfl
@[simp] theorem Dev.endWait_cmp (t : Timer) : (d.endWait t).cmp = d.cmp := rfl
@[simp] theorem Dev.endWait_cfg (t : Timer) : (d.endWait t).cfg = d.cfg := rfl
@[simp] theorem Dev.endWait_svc (t : Timer) : (d.endWait t).svc = d.svc := rfl
@[simp] theorem Dev.endWait_hlt (t : Timer) : (d.endWait t).hlt = d.hlt := rfl
@[simp] theorem Dev.endWait_flt (t : Timer) : (d.endWait t).flt = d.flt := rfl
@[simp] theorem Dev.endWait_evt (t : Timer) : (d.endWait t).evt = d.evt := rfl
@[simp] theorem Dev.endWait_rd (t : Timer) (g : Fld) (j : Nat) : (d.endWait t).rd g j = d.rd g j := rfl
@[simp] theorem Dev.endWait_ld8 (t : Timer) (k : Nat) : (d.endWait t).ld8 k = d.ld8 k := rfl

/-! ### wr changes regs only -/

@[simp] theorem Dev.wr_now (f : Fld) (i v : Nat) : (d.wr f i v).now = d.now := rfl
@[simp] theorem Dev.wr_mem (f : Fld) (i v : Nat) : (d.wr f i v).mem = d.mem := rfl
@[simp] theorem Dev.wr_out (f : Fld) (i v : Nat) : (d.wr f i v).out = d.out := rfl
@[simp] theorem Dev.wr_free (f : Fld) (i v : Nat) : (d.wr f i v).free = d.free := rfl
@[simp] theorem Dev.wr_timers (f : Fld) (i v : Nat) : (d.wr f i v).timers = d.timers := rfl
@[simp] theorem Dev.wr_bus (f : Fld) (i v : Nat) : (d.wr f i v).bus = d.bus := rfl
@[simp] theorem Dev.wr_ang (f : Fld) (i v : Nat) : (d.wr f i v).ang = d.ang := rfl
@[simp] theorem Dev.wr_lnx (f : Fld) (i v : Nat) : (d.wr f i v).lnx = d.lnx := rfl
@[simp] theorem Dev.wr_lanes (f : Fld) (i v : Nat) : (d.wr f i v).lanes = d.lanes := rfl
@[simp] theorem Dev.wr_itb (f : Fld) (i v : Nat) : (d.wr f i v).itb = d.itb := rfl
@[simp] theorem Dev.wr_tpe (f : Fld) (i v : Nat) : (d.wr f i v).tpe = d.tpe := rfl
@[simp] theorem Dev.wr_fsq (f : Fld) (i v : Nat) : (d.wr f i v).fsq = d.fsq := rfl
@[simp] theorem Dev.wr_wrf (f : Fld) (i v : Nat) : (d.wr f i v).wrf = d.wrf := rfl
@[simp] theorem Dev.wr_srv (f : Fld) (i v : Nat) : (d.wr f i v).srv = d.srv := rfl
@[simp] theorem Dev.wr_arm (f : Fld) (i v : Nat) : (d.wr f i v).arm = d.arm := rfl
@[simp] theorem Dev.wr_spn (f : Fld) (i v : Nat) : (d.wr f i v).spn = d.spn := rfl
@[simp] theorem Dev.wr_mac (f : Fld) (i v : Nat) : (d.wr f i v).mac = d.mac := rfl
@[simp] theorem Dev.wr_ve (f : Fld) (i v : Nat) : (d.wr f i v).ve = d.ve := rfl
@[simp] theorem Dev.wr_hif (f : Fld) (i v : Nat) : (d.wr f i v).hif = d.hif := rfl
@[simp] theorem Dev.wr_dig (f : Fld) (i v : Nat) : (d.wr f i v).dig = d.dig := rfl
@[simp] theorem Dev.wr_sch (f : Fld) (i v : Nat) : (d.wr f i v).sch = d.sch := rfl
@[simp] theorem Dev.wr_rck (f : Fld) (i v : Nat) : (d.wr f i v).rck = d.rck := rfl
@[simp] theorem Dev.wr_chk (f : Fld) (i v : Nat) : (d.wr f i v).chk = d.chk := rfl
@[simp] theorem Dev.wr_memx (f : Fld) (i v : Nat) : (d.wr f i v).memx = d.memx := rfl
@[simp] theorem Dev.wr_dma (f : Fld) (i v : Nat) : (d.wr f i v).dma = d.dma := rfl
@[simp] theorem Dev.wr_cmp (f : Fld) (i v : Nat) : (d.wr f i v).cmp = d.cmp := rfl
@[simp] theorem Dev.wr_cfg (f : Fld) (i v : Nat) : (d.wr f i v).cfg = d.cfg := rfl
@[simp] theorem Dev.wr_svc (f : Fld) (i v : Nat) : (d.wr f i v).svc = d.svc := rfl
@[simp] theorem Dev.wr_hlt (f : Fld) (i v : Nat) : (d.wr f i v).hlt = d.hlt := rfl
@[simp] theorem Dev.wr_flt (f : Fld) (i v : Nat) : (d.wr f i v).flt = d.flt := rfl
@[simp] theorem Dev.wr_evt (f : Fld) (i v : Nat) : (d.wr f i v).evt = d.evt := rfl
@[simp] theorem Dev.wr_ld8 (f : Fld) (i v : Nat) (k : Nat) : (d.wr f i v).ld8 k = d.ld8 k := rfl

/-! ### wrb changes regs only -/

@[simp] theorem Dev.wrb_now (f : Fld) (i : Nat) (b : Bool) : (d.wrb f i b).now = d.now := rfl
@[simp] theorem Dev.wrb_mem (f : Fld) (i : Nat) (b : Bool) : (d.wrb f i b).mem = d.mem := rfl
@[simp] theorem Dev.wrb_out (f : Fld) (i : Nat) (b : Bool) : (d.wrb f i b).out = d.out := rfl
@[simp] theorem Dev.wrb_free (f : Fld) (i : Nat) (b : Bool) : (d.wrb f i b).free = d.free := rfl
@[simp] theorem Dev.wrb_timers (f : Fld) (i : Nat) (b : Bool) : (d.wrb f i b).timers = d.timers := rfl
@[simp] theorem Dev.wrb_bus (f : Fld) (i : Nat) (b : Bool) : (d.wrb f i b).bus = d.bus := rfl
@[simp] theorem Dev.wrb_ang (f : Fld) (i : Nat) (b : Bool) : (d.wrb f i b).ang = d.ang := rfl
@[simp] theorem Dev.wrb_lnx (f : Fld) (i : Nat) (b : Bool) : (d.wrb f i b).lnx = d.lnx := rfl
@[simp] theorem Dev.wrb_lanes (f : Fld) (i : Nat) (b : Bool) : (d.wrb f i b).lanes = d.lanes := rfl
@[simp] theorem Dev.wrb_itb (f : Fld) (i : Nat) (b : Bool) : (d.wrb f i b).itb = d.itb := rfl
@[simp] theorem Dev.wrb_tpe (f : Fld) (i : Nat) (b : Bool) : (d.wrb f i b).tpe = d.tpe := rfl
@[simp] theorem Dev.wrb_fsq (f : Fld) (i : Nat) (b : Bool) : (d.wrb f i b).fsq = d.fsq := rfl
@[simp] theorem Dev.wrb_wrf (f : Fld) (i : Nat) (b : Bool) : (d.wrb f i b).wrf = d.wrf := rfl
@[simp] theorem Dev.wrb_srv (f : Fld) (i : Nat) (b : Bool) : (d.wrb f i b).srv = d.srv := rfl
@[simp] theorem Dev.wrb_arm (f : Fld) (i : Nat) (b : Bool) : (d.wrb f i b).arm = d.arm := rfl
@[simp] theorem Dev.wrb_spn (f : Fld) (i : Nat) (b : Bool) : (d.wrb f i b).spn = d.spn := rfl
@[simp] theorem Dev.wrb_mac (f : Fld) (i : Nat) (b : Bool) : (d.wrb f i b).mac = d.mac := rfl
@[simp] theorem Dev.wrb_ve (f : Fld) (i : Nat) (b : Bool) : (d.wrb f i b).ve = d.ve := rfl
@[simp] theorem Dev.wrb_hif (f : Fld) (i : Nat) (b : Bool) : (d.wrb f i b).hif = d.hif := rfl
@[simp] theorem Dev.wrb_dig (f : Fld) (i : Nat) (b : Bool) : (d.wrb f i b).dig = d.dig := rfl
@[simp] theorem Dev.wrb_sch (f : Fld) (i : Nat) (b : Bool) : (d.wrb f i b).sch = d.sch := rfl
@[simp] theorem Dev.wrb_rck (f : Fld) (i : Nat) (b : Bool) : (d.wrb f i b).rck = d.rck := rfl
@[simp] theorem Dev.wrb_chk (f : Fld) (i : Nat) (b : Bool) : (d.wrb f i b).chk = d.chk := rfl
@[simp] theorem Dev.wrb_memx (f : Fld) (i : Nat) (b : Bool) : (d.wrb f i b).memx = d.memx := rfl
@[simp] theorem Dev.wrb_dma (f : Fld) (i : Nat) (b : Bool) : (d.wrb f i b).dma = d.dma := rfl
@[simp] theorem Dev.wrb_cmp (f : Fld) (i : Nat) (b : Bool) : (d.wrb f i b).cmp = d.cmp := rfl
@[simp] theorem Dev.wrb_cfg (f : Fld) (i : Nat) (b : Bool) : (d.wrb f i b).cfg = d.cfg := rfl
@[simp] theorem Dev.wrb_svc (f : Fld) (i : Nat) (b : Bool) : (d.wrb f i b).svc = d.svc := rfl
@[simp] theorem Dev.wrb_hlt (f : Fld) (i : Nat) (b : Bool) : (d.wrb f i b).hlt = d.hlt := rfl
@[simp] theorem Dev.wrb_flt (f : Fld) (i : Nat) (b : Bool) : (d.wrb f i b).flt = d.flt := rfl
@[simp] theorem Dev.wrb_evt (f : Fld) (i : Nat) (b : Bool) : (d.wrb f i b).evt = d.evt := rfl
@[simp] theorem Dev.wrb_ld8 (f : Fld) (i : Nat) (b : Bool) (k : Nat) : (d.wrb f i b).ld8 k = d.ld8 k := rfl

/-! ### emit changes out only -/

@[simp] theorem Dev.emit_now (o : Out) : (d.emit o).now = d.now := rfl
@[simp] theorem Dev.emit_regs (o : Out) : (d.emit o).regs = d.regs := rfl
@[simp] theorem Dev.emit_mem (o : Out) : (d.emit o).mem = d.mem := rfl
@[simp] theorem Dev.emit_free (o : Out) : (d.emit o).free = d.free := rfl
@[simp] theorem Dev.emit_timers (o : Out) : (d.emit o).timers = d.timers := rfl
@[simp] theorem Dev.emit_bus (o : Out) : (d.emit o).bus = d.bus := rfl
@[simp] theorem Dev.emit_ang (o : Out) : (d.emit o).ang = d.ang := rfl
@[simp] theorem Dev.emit_lnx (o : Out) : (d.emit o).lnx = d.lnx := rfl
@[simp] theorem Dev.emit_lanes (o : Out) : (d.emit o).lanes = d.lanes := rfl
@[simp] theorem Dev.emit_itb (o : Out) : (d.emit o).itb = d.itb := rfl
@[simp] theorem Dev.emit_tpe (o : Out) : (d.emit o).tpe = d.tpe := rfl
@[simp] theorem Dev.emit_fsq (o : Out) : (d.emit o).fsq = d.fsq := rfl
@[simp] theorem Dev.emit_wrf (o : Out) : (d.emit o).wrf = d.wrf := rfl
@[simp] theorem Dev.emit_srv (o : Out) : (d.emit o).srv = d.srv := rfl
@[simp] theorem Dev.emit_arm (o : Out) : (d.emit o).arm = d.arm := rfl
@[simp] theorem Dev.emit_spn (o : Out) : (d.emit o).spn = d.spn := rfl
@[simp] theorem Dev.emit_mac (o : Out) : (d.emit o).mac = d.mac := rfl
@[simp] theorem Dev.emit_ve (o : Out) : (d.emit o).ve = d.ve := rfl
@[simp] theorem Dev.emit_hif (o : Out) : (d.emit o).hif = d.hif := rfl
@[simp] theorem Dev.emit_dig (o : Out) : (d.emit o).dig = d.dig := rfl
@[simp] theorem Dev.emit_sch (o : Out) : (d.emit o).sch = d.sch := rfl
@[simp] theorem Dev.emit_rck (o : Out) : (d.emit o).rck = d.rck := rfl
@[simp] theorem Dev.emit_chk (o : Out) : (d.emit o).chk = d.chk := rfl
@[simp] theorem Dev.emit_memx (o : Out) : (d.emit o).memx = d.memx := rfl
@[simp] theorem Dev.emit_dma (o : Out) : (d.emit o).dma = d.dma := rfl
@[simp] theorem Dev.emit_cmp (o : Out) : (d.emit o).cmp = d.cmp := rfl
@[simp] theorem Dev.emit_cfg (o : Out) : (d.emit o).cfg = d.cfg := rfl
@[simp] theorem Dev.emit_svc (o : Out) : (d.emit o).svc = d.svc := rfl
@[simp] theorem Dev.emit_hlt (o : Out) : (d.emit o).hlt = d.hlt := rfl
@[simp] theorem Dev.emit_flt (o : Out) : (d.emit o).flt = d.flt := rfl
@[simp] theorem Dev.emit_evt (o : Out) : (d.emit o).evt = d.evt := rfl
@[simp] theorem Dev.emit_rd (o : Out) (g : Fld) (j : Nat) : (d.emit o).rd g j = d.rd g j := rfl
@[simp] theorem Dev.emit_ld8 (o : Out) (k : Nat) : (d.emit o).ld8 k = d.ld8 k := rfl

/-! ### used changes free only -/

@[simp] theorem Dev.used_now : (d.used).now = d.now := rfl
@[simp] theorem Dev.used_regs : (d.used).regs = d.regs := rfl
@[simp] theorem Dev.used_mem : (d.used).mem = d.mem := rfl
@[simp] theorem Dev.used_out : (d.used).out = d.out := rfl
@[simp] theorem Dev.used_timers : (d.used).timers = d.timers := rfl
@[simp] theorem Dev.used_bus : (d.used).bus = d.bus := rfl
@[simp] theorem Dev.used_ang : (d.used).ang = d.ang := rfl
@[simp] theorem Dev.used_lnx : (d.used).lnx = d.lnx := rfl
@[simp] theorem Dev.used_lanes : (d.used).lanes = d.lanes := rfl
@[simp] theorem Dev.used_itb : (d.used).itb = d.itb := rfl
@[simp] theorem Dev.used_tpe : (d.used).tpe = d.tpe := rfl
@[simp] theorem Dev.used_fsq : (d.used).fsq = d.fsq := rfl
@[simp] theorem Dev.used_wrf : (d.used).wrf = d.wrf := rfl
@[simp] theorem Dev.used_srv : (d.used).srv = d.srv := rfl
@[simp] theorem Dev.used_arm : (d.used).arm = d.arm := rfl
@[simp] theorem Dev.used_spn : (d.used).spn = d.spn := rfl
@[simp] theorem Dev.used_mac : (d.used).mac = d.mac := rfl
@[simp] theorem Dev.used_ve : (d.used).ve = d.ve := rfl
@[simp] theorem Dev.used_hif : (d.used).hif = d.hif := rfl
@[simp] theorem Dev.used_dig : (d.used).dig = d.dig := rfl
@[simp] theorem Dev.used_sch : (d.used).sch = d.sch := rfl
@[simp] theorem Dev.used_rck : (d.used).rck = d.rck := rfl
@[simp] theorem Dev.used_chk : (d.used).chk = d.chk := rfl
@[simp] theorem Dev.used_memx : (d.used).memx = d.memx := rfl
@[simp] theorem Dev.used_dma : (d.used).dma = d.dma := rfl
@[simp] theorem Dev.used_cmp : (d.used).cmp = d.cmp := rfl
@[simp] theorem Dev.used_cfg : (d.used).cfg = d.cfg := rfl
@[simp] theorem Dev.used_svc : (d.used).svc = d.svc := rfl
@[simp] theorem Dev.used_hlt : (d.used).hlt = d.hlt := rfl
@[simp] theorem Dev.used_flt : (d.used).flt = d.flt := rfl
@[simp] theorem Dev.used_evt : (d.used).evt = d.evt := rfl
@[simp] theorem Dev.used_rd (g : Fld) (j : Nat) : (d.used).rd g j = d.rd g j := rfl
@[simp] theorem Dev.used_ld8 (k : Nat) : (d.used).ld8 k = d.ld8 k := rfl

/-! ### dropMem changes mem only -/

@[simp] theorem Dev.dropMem_now (p : Nat → Bool) : (d.dropMem p).now = d.now := rfl
@[simp] theorem Dev.dropMem_regs (p : Nat → Bool) : (d.dropMem p).regs = d.regs := rfl
@[simp] theorem Dev.dropMem_out (p : Nat → Bool) : (d.dropMem p).out = d.out := rfl
@[simp] theorem Dev.dropMem_free (p : Nat → Bool) : (d.dropMem p).free = d.free := rfl
@[simp] theorem Dev.dropMem_timers (p : Nat → Bool) : (d.dropMem p).timers = d.timers := rfl
@[simp] theorem Dev.dropMem_bus (p : Nat → Bool) : (d.dropMem p).bus = d.bus := rfl
@[simp] theorem Dev.dropMem_ang (p : Nat → Bool) : (d.dropMem p).ang = d.ang := rfl
@[simp] theorem Dev.dropMem_lnx (p : Nat → Bool) : (d.dropMem p).lnx = d.lnx := rfl
@[simp] theorem Dev.dropMem_lanes (p : Nat → Bool) : (d.dropMem p).lanes = d.lanes := rfl
@[simp] theorem Dev.dropMem_itb (p : Nat → Bool) : (d.dropMem p).itb = d.itb := rfl
@[simp] theorem Dev.dropMem_tpe (p : Nat → Bool) : (d.dropMem p).tpe = d.tpe := rfl
@[simp] theorem Dev.dropMem_fsq (p : Nat → Bool) : (d.dropMem p).fsq = d.fsq := rfl
@[simp] theorem Dev.dropMem_wrf (p : Nat → Bool) : (d.dropMem p).wrf = d.wrf := rfl
@[simp] theorem Dev.dropMem_srv (p : Nat → Bool) : (d.dropMem p).srv = d.srv := rfl
@[simp] theorem Dev.dropMem_arm (p : Nat → Bool) : (d.dropMem p).arm = d.arm := rfl
@[simp] theorem Dev.dropMem_spn (p : Nat → Bool) : (d.dropMem p).spn = d.spn := rfl
@[simp] theorem Dev.dropMem_mac (p : Nat → Bool) : (d.dropMem p).mac = d.mac := rfl
@[simp] theorem Dev.dropMem_ve (p : Nat → Bool) : (d.dropMem p).ve = d.ve := rfl
@[simp] theorem Dev.dropMem_hif (p : Nat → Bool) : (d.dropMem p).hif = d.hif := rfl
@[simp] theorem Dev.dropMem_dig (p : Nat → Bool) : (d.dropMem p).dig = d.dig := rfl
@[simp] theorem Dev.dropMem_sch (p : Nat → Bool) : (d.dropMem p).sch = d.sch := rfl
@[simp] theorem Dev.dropMem_rck (p : Nat → Bool) : (d.dropMem p).rck = d.rck := rfl
@[simp] theorem Dev.dropMem_chk (p : Nat → Bool) : (d.dropMem p).chk = d.chk := rfl
@[simp] theorem Dev.dropMem_memx (p : Nat → Bool) : (d.dropMem p).memx = d.memx := rfl
@[simp] theorem Dev.dropMem_dma (p : Nat → Bool) : (d.dropMem p).dma = d.dma := rfl
@[simp] theorem Dev.dropMem_cmp (p : Nat → Bool) : (d.dropMem p).cmp = d.cmp := rfl
@[simp] theorem Dev.dropMem_cfg (p : Nat → Bool) : (d.dropMem p).cfg = d.cfg := rfl
@[simp] theorem Dev.dropMem_svc (p : Nat → Bool) : (d.dropMem p).svc = d.svc := rfl
@[simp] theorem Dev.dropMem_hlt (p : Nat → Bool) : (d.dropMem p).hlt = d.hlt := rfl
@[simp] theorem Dev.dropMem_flt (p : Nat → Bool) : (d.dropMem p).flt = d.flt := rfl
@[simp] theorem Dev.dropMem_evt (p : Nat → Bool) : (d.dropMem p).evt = d.evt := rfl
@[simp] theorem Dev.dropMem_rd (p : Nat → Bool) (g : Fld) (j : Nat) : (d.dropMem p).rd g j = d.rd g j := rfl

/-! ### refill changes mem only -/

@[simp] theorem Dev.refill_now (t : Tab Byte) (a n : Nat) : (d.refill t a n).now = d.now := rfl
@[simp] theorem Dev.refill_regs (t : Tab Byte) (a n : Nat) : (d.refill t a n).regs = d.regs := rfl
@[simp] theorem Dev.refill_out (t : Tab Byte) (a n : Nat) : (d.refill t a n).out = d.out := rfl
@[simp] theorem Dev.refill_free (t : Tab Byte) (a n : Nat) : (d.refill t a n).free = d.free := rfl
@[simp] theorem Dev.refill_timers (t : Tab Byte) (a n : Nat) : (d.refill t a n).timers = d.timers := rfl
@[simp] theorem Dev.refill_bus (t : Tab Byte) (a n : Nat) : (d.refill t a n).bus = d.bus := rfl
@[simp] theorem Dev.refill_ang (t : Tab Byte) (a n : Nat) : (d.refill t a n).ang = d.ang := rfl
@[simp] theorem Dev.refill_lnx (t : Tab Byte) (a n : Nat) : (d.refill t a n).lnx = d.lnx := rfl
@[simp] theorem Dev.refill_lanes (t : Tab Byte) (a n : Nat) : (d.refill t a n).lanes = d.lanes := rfl
@[simp] theorem Dev.refill_itb (t : Tab Byte) (a n : Nat) : (d.refill t a n).itb = d.itb := rfl
@[simp] theorem Dev.refill_tpe (t : Tab Byte) (a n : Nat) : (d.refill t a n).tpe = d.tpe := rfl
@[simp] theorem Dev.refill_fsq (t : Tab Byte) (a n : Nat) : (d.refill t a n).fsq = d.fsq := rfl
@[simp] theorem Dev.refill_wrf (t : Tab Byte) (a n : Nat) : (d.refill t a n).wrf = d.wrf := rfl
@[simp] theorem Dev.refill_srv (t : Tab Byte) (a n : Nat) : (d.refill t a n).srv = d.srv := rfl
@[simp] theorem Dev.refill_arm (t : Tab Byte) (a n : Nat) : (d.refill t a n).arm = d.arm := rfl
@[simp] theorem Dev.refill_spn (t : Tab Byte) (a n : Nat) : (d.refill t a n).spn = d.spn := rfl
@[simp] theorem Dev.refill_mac (t : Tab Byte) (a n : Nat) : (d.refill t a n).mac = d.mac := rfl
@[simp] theorem Dev.refill_ve (t : Tab Byte) (a n : Nat) : (d.refill t a n).ve = d.ve := rfl
@[simp] theorem Dev.refill_hif (t : Tab Byte) (a n : Nat) : (d.refill t a n).hif = d.hif := rfl
@[simp] theorem Dev.refill_dig (t : Tab Byte) (a n : Nat) : (d.refill t a n).dig = d.dig := rfl
@[simp] theorem Dev.refill_sch (t : Tab Byte) (a n : Nat) : (d.refill t a n).sch = d.sch := rfl
@[simp] theorem Dev.refill_rck (t : Tab Byte) (a n : Nat) : (d.refill t a n).rck = d.rck := rfl
@[simp] theorem Dev.refill_chk (t : Tab Byte) (a n : Nat) : (d.refill t a n).chk = d.chk := rfl
@[simp] theorem Dev.refill_memx (t : Tab Byte) (a n : Nat) : (d.refill t a n).memx = d.memx := rfl
@[simp] theorem Dev.refill_dma (t : Tab Byte) (a n : Nat) : (d.refill t a n).dma = d.dma := rfl
@[simp] theorem Dev.refill_cmp (t : Tab Byte) (a n : Nat) : (d.refill t a n).cmp = d.cmp := rfl
@[simp] theorem Dev.refill_cfg (t : Tab Byte) (a n : Nat) : (d.refill t a n).cfg = d.cfg := rfl
@[simp] theorem Dev.refill_svc (t : Tab Byte) (a n : Nat) : (d.refill t a n).svc = d.svc := rfl
@[simp] theorem Dev.refill_hlt (t : Tab Byte) (a n : Nat) : (d.refill t a n).hlt = d.hlt := rfl
@[simp] theorem Dev.refill_flt (t : Tab Byte) (a n : Nat) : (d.refill t a n).flt = d.flt := rfl
@[simp] theorem Dev.refill_evt (t : Tab Byte) (a n : Nat) : (d.refill t a n).evt = d.evt := rfl
@[simp] theorem Dev.refill_rd (t : Tab Byte) (a n : Nat) (g : Fld) (j : Nat) : (d.refill t a n).rd g j = d.rd g j := rfl

/-! ### putLo changes bus only -/

@[simp] theorem Dev.putLo_now (m : Nat) (r : Reg) (i w : Nat) : (d.putLo m r i w).now = d.now := rfl
@[simp] theorem Dev.putLo_regs (m : Nat) (r : Reg) (i w : Nat) : (d.putLo m r i w).regs = d.regs := rfl
@[simp] theorem Dev.putLo_mem (m : Nat) (r : Reg) (i w : Nat) : (d.putLo m r i w).mem = d.mem := rfl
@[simp] theorem Dev.putLo_out (m : Nat) (r : Reg) (i w : Nat) : (d.putLo m r i w).out = d.out := rfl
@[simp] theorem Dev.putLo_free (m : Nat) (r : Reg) (i w : Nat) : (d.putLo m r i w).free = d.free := rfl
@[simp] theorem Dev.putLo_timers (m : Nat) (r : Reg) (i w : Nat) : (d.putLo m r i w).timers = d.timers := rfl
@[simp] theorem Dev.putLo_ang (m : Nat) (r : Reg) (i w : Nat) : (d.putLo m r i w).ang = d.ang := rfl
@[simp] theorem Dev.putLo_lnx (m : Nat) (r : Reg) (i w : Nat) : (d.putLo m r i w).lnx = d.lnx := rfl
@[simp] theorem Dev.putLo_lanes (m : Nat) (r : Reg) (i w : Nat) : (d.putLo m r i w).lanes = d.lanes := rfl
@[simp] theorem Dev.putLo_itb (m : Nat) (r : Reg) (i w : Nat) : (d.putLo m r i w).itb = d.itb := rfl
@[simp] theorem Dev.putLo_tpe (m : Nat) (r : Reg) (i w : Nat) : (d.putLo m r i w).tpe = d.tpe := rfl
@[simp] theorem Dev.putLo_fsq (m : Nat) (r : Reg) (i w : Nat) : (d.putLo m r i w).fsq = d.fsq := rfl
@[simp] theorem Dev.putLo_wrf (m : Nat) (r : Reg) (i w : Nat) : (d.putLo m r i w).wrf = d.wrf := rfl
@[simp] theorem Dev.putLo_srv (m : Nat) (r : Reg) (i w : Nat) : (d.putLo m r i w).srv = d.srv := rfl
@[simp] theorem Dev.putLo_arm (m : Nat) (r : Reg) (i w : Nat) : (d.putLo m r i w).arm = d.arm := rfl
@[simp] theorem Dev.putLo_spn (m : Nat) (r : Reg) (i w : Nat) : (d.putLo m r i w).spn = d.spn := rfl
@[simp] theorem Dev.putLo_mac (m : Nat) (r : Reg) (i w : Nat) : (d.putLo m r i w).mac = d.mac := rfl
@[simp] theorem Dev.putLo_ve (m : Nat) (r : Reg) (i w : Nat) : (d.putLo m r i w).ve = d.ve := rfl
@[simp] theorem Dev.putLo_hif (m : Nat) (r : Reg) (i w : Nat) : (d.putLo m r i w).hif = d.hif := rfl
@[simp] theorem Dev.putLo_dig (m : Nat) (r : Reg) (i w : Nat) : (d.putLo m r i w).dig = d.dig := rfl
@[simp] theorem Dev.putLo_sch (m : Nat) (r : Reg) (i w : Nat) : (d.putLo m r i w).sch = d.sch := rfl
@[simp] theorem Dev.putLo_rck (m : Nat) (r : Reg) (i w : Nat) : (d.putLo m r i w).rck = d.rck := rfl
@[simp] theorem Dev.putLo_chk (m : Nat) (r : Reg) (i w : Nat) : (d.putLo m r i w).chk = d.chk := rfl
@[simp] theorem Dev.putLo_memx (m : Nat) (r : Reg) (i w : Nat) : (d.putLo m r i w).memx = d.memx := rfl
@[simp] theorem Dev.putLo_dma (m : Nat) (r : Reg) (i w : Nat) : (d.putLo m r i w).dma = d.dma := rfl
@[simp] theorem Dev.putLo_cmp (m : Nat) (r : Reg) (i w : Nat) : (d.putLo m r i w).cmp = d.cmp := rfl
@[simp] theorem Dev.putLo_cfg (m : Nat) (r : Reg) (i w : Nat) : (d.putLo m r i w).cfg = d.cfg := rfl
@[simp] theorem Dev.putLo_svc (m : Nat) (r : Reg) (i w : Nat) : (d.putLo m r i w).svc = d.svc := rfl
@[simp] theorem Dev.putLo_hlt (m : Nat) (r : Reg) (i w : Nat) : (d.putLo m r i w).hlt = d.hlt := rfl
@[simp] theorem Dev.putLo_flt (m : Nat) (r : Reg) (i w : Nat) : (d.putLo m r i w).flt = d.flt := rfl
@[simp] theorem Dev.putLo_evt (m : Nat) (r : Reg) (i w : Nat) : (d.putLo m r i w).evt = d.evt := rfl
@[simp] theorem Dev.putLo_rd (m : Nat) (r : Reg) (i w : Nat) (g : Fld) (j : Nat) : (d.putLo m r i w).rd g j = d.rd g j := rfl
@[simp] theorem Dev.putLo_ld8 (m : Nat) (r : Reg) (i w : Nat) (k : Nat) : (d.putLo m r i w).ld8 k = d.ld8 k := rfl

/-! ### dropLo changes bus only -/

@[simp] theorem Dev.dropLo_now (m : Nat) (r : Reg) (i : Nat) : (d.dropLo m r i).now = d.now := rfl
@[simp] theorem Dev.dropLo_regs (m : Nat) (r : Reg) (i : Nat) : (d.dropLo m r i).regs = d.regs := rfl
@[simp] theorem Dev.dropLo_mem (m : Nat) (r : Reg) (i : Nat) : (d.dropLo m r i).mem = d.mem := rfl
@[simp] theorem Dev.dropLo_out (m : Nat) (r : Reg) (i : Nat) : (d.dropLo m r i).out = d.out := rfl
@[simp] theorem Dev.dropLo_free (m : Nat) (r : Reg) (i : Nat) : (d.dropLo m r i).free = d.free := rfl
@[simp] theorem Dev.dropLo_timers (m : Nat) (r : Reg) (i : Nat) : (d.dropLo m r i).timers = d.timers := rfl
@[simp] theorem Dev.dropLo_ang (m : Nat) (r : Reg) (i : Nat) : (d.dropLo m r i).ang = d.ang := rfl
@[simp] theorem Dev.dropLo_lnx (m : Nat) (r : Reg) (i : Nat) : (d.dropLo m r i).lnx = d.lnx := rfl
@[simp] theorem Dev.dropLo_lanes (m : Nat) (r : Reg) (i : Nat) : (d.dropLo m r i).lanes = d.lanes := rfl
@[simp] theorem Dev.dropLo_itb (m : Nat) (r : Reg) (i : Nat) : (d.dropLo m r i).itb = d.itb := rfl
@[simp] theorem Dev.dropLo_tpe (m : Nat) (r : Reg) (i : Nat) : (d.dropLo m r i).tpe = d.tpe := rfl
@[simp] theorem Dev.dropLo_fsq (m : Nat) (r : Reg) (i : Nat) : (d.dropLo m r i).fsq = d.fsq := rfl
@[simp] theorem Dev.dropLo_wrf (m : Nat) (r : Reg) (i : Nat) : (d.dropLo m r i).wrf = d.wrf := rfl
@[simp] theorem Dev.dropLo_srv (m : Nat) (r : Reg) (i : Nat) : (d.dropLo m r i).srv = d.srv := rfl
@[simp] theorem Dev.dropLo_arm (m : Nat) (r : Reg) (i : Nat) : (d.dropLo m r i).arm = d.arm := rfl
@[simp] theorem Dev.dropLo_spn (m : Nat) (r : Reg) (i : Nat) : (d.dropLo m r i).spn = d.spn := rfl
@[simp] theorem Dev.dropLo_mac (m : Nat) (r : Reg) (i : Nat) : (d.dropLo m r i).mac = d.mac := rfl
@[simp] theorem Dev.dropLo_ve (m : Nat) (r : Reg) (i : Nat) : (d.dropLo m r i).ve = d.ve := rfl
@[simp] theorem Dev.dropLo_hif (m : Nat) (r : Reg) (i : Nat) : (d.dropLo m r i).hif = d.hif := rfl
@[simp] theorem Dev.dropLo_dig (m : Nat) (r : Reg) (i : Nat) : (d.dropLo m r i).dig = d.dig := rfl
@[simp] theorem Dev.dropLo_sch (m : Nat) (r : Reg) (i : Nat) : (d.dropLo m r i).sch = d.sch := rfl
@[simp] theorem Dev.dropLo_rck (m : Nat) (r : Reg) (i : Nat) : (d.dropLo m r i).rck = d.rck := rfl
@[simp] theorem Dev.dropLo_chk (m : Nat) (r : Reg) (i : Nat) : (d.dropLo m r i).chk = d.chk := rfl
@[simp] theorem Dev.dropLo_memx (m : Nat) (r : Reg) (i : Nat) : (d.dropLo m r i).memx = d.memx := rfl
@[simp] theorem Dev.dropLo_dma (m : Nat) (r : Reg) (i : Nat) : (d.dropLo m r i).dma = d.dma := rfl
@[simp] theorem Dev.dropLo_cmp (m : Nat) (r : Reg) (i : Nat) : (d.dropLo m r i).cmp = d.cmp := rfl
@[simp] theorem Dev.dropLo_cfg (m : Nat) (r : Reg) (i : Nat) : (d.dropLo m r i).cfg = d.cfg := rfl
@[simp] theorem Dev.dropLo_svc (m : Nat) (r : Reg) (i : Nat) : (d.dropLo m r i).svc = d.svc := rfl
@[simp] theorem Dev.dropLo_hlt (m : Nat) (r : Reg) (i : Nat) : (d.dropLo m r i).hlt = d.hlt := rfl
@[simp] theorem Dev.dropLo_flt (m : Nat) (r : Reg) (i : Nat) : (d.dropLo m r i).flt = d.flt := rfl
@[simp] theorem Dev.dropLo_evt (m : Nat) (r : Reg) (i : Nat) : (d.dropLo m r i).evt = d.evt := rfl
@[simp] theorem Dev.dropLo_rd (m : Nat) (r : Reg) (i : Nat) (g : Fld) (j : Nat) : (d.dropLo m r i).rd g j = d.rd g j := rfl
@[simp] theorem Dev.dropLo_ld8 (m : Nat) (r : Reg) (i : Nat) (k : Nat) : (d.dropLo m r i).ld8 k = d.ld8 k := rfl

/-! ### buffer changes bus only -/

@[simp] theorem Dev.buffer_now (r : Reg) (i : Nat) (w : Word) : (d.buffer r i w).now = d.now := rfl
@[simp] theorem Dev.buffer_regs (r : Reg) (i : Nat) (w : Word) : (d.buffer r i w).regs = d.regs := rfl
@[simp] theorem Dev.buffer_mem (r : Reg) (i : Nat) (w : Word) : (d.buffer r i w).mem = d.mem := rfl
@[simp] theorem Dev.buffer_out (r : Reg) (i : Nat) (w : Word) : (d.buffer r i w).out = d.out := rfl
@[simp] theorem Dev.buffer_free (r : Reg) (i : Nat) (w : Word) : (d.buffer r i w).free = d.free := rfl
@[simp] theorem Dev.buffer_timers (r : Reg) (i : Nat) (w : Word) : (d.buffer r i w).timers = d.timers := rfl
@[simp] theorem Dev.buffer_ang (r : Reg) (i : Nat) (w : Word) : (d.buffer r i w).ang = d.ang := rfl
@[simp] theorem Dev.buffer_lnx (r : Reg) (i : Nat) (w : Word) : (d.buffer r i w).lnx = d.lnx := rfl
@[simp] theorem Dev.buffer_lanes (r : Reg) (i : Nat) (w : Word) : (d.buffer r i w).lanes = d.lanes := rfl
@[simp] theorem Dev.buffer_itb (r : Reg) (i : Nat) (w : Word) : (d.buffer r i w).itb = d.itb := rfl
@[simp] theorem Dev.buffer_tpe (r : Reg) (i : Nat) (w : Word) : (d.buffer r i w).tpe = d.tpe := rfl
@[simp] theorem Dev.buffer_fsq (r : Reg) (i : Nat) (w : Word) : (d.buffer r i w).fsq = d.fsq := rfl
@[simp] theorem Dev.buffer_wrf (r : Reg) (i : Nat) (w : Word) : (d.buffer r i w).wrf = d.wrf := rfl
@[simp] theorem Dev.buffer_srv (r : Reg) (i : Nat) (w : Word) : (d.buffer r i w).srv = d.srv := rfl
@[simp] theorem Dev.buffer_arm (r : Reg) (i : Nat) (w : Word) : (d.buffer r i w).arm = d.arm := rfl
@[simp] theorem Dev.buffer_spn (r : Reg) (i : Nat) (w : Word) : (d.buffer r i w).spn = d.spn := rfl
@[simp] theorem Dev.buffer_mac (r : Reg) (i : Nat) (w : Word) : (d.buffer r i w).mac = d.mac := rfl
@[simp] theorem Dev.buffer_ve (r : Reg) (i : Nat) (w : Word) : (d.buffer r i w).ve = d.ve := rfl
@[simp] theorem Dev.buffer_hif (r : Reg) (i : Nat) (w : Word) : (d.buffer r i w).hif = d.hif := rfl
@[simp] theorem Dev.buffer_dig (r : Reg) (i : Nat) (w : Word) : (d.buffer r i w).dig = d.dig := rfl
@[simp] theorem Dev.buffer_sch (r : Reg) (i : Nat) (w : Word) : (d.buffer r i w).sch = d.sch := rfl
@[simp] theorem Dev.buffer_rck (r : Reg) (i : Nat) (w : Word) : (d.buffer r i w).rck = d.rck := rfl
@[simp] theorem Dev.buffer_chk (r : Reg) (i : Nat) (w : Word) : (d.buffer r i w).chk = d.chk := rfl
@[simp] theorem Dev.buffer_memx (r : Reg) (i : Nat) (w : Word) : (d.buffer r i w).memx = d.memx := rfl
@[simp] theorem Dev.buffer_dma (r : Reg) (i : Nat) (w : Word) : (d.buffer r i w).dma = d.dma := rfl
@[simp] theorem Dev.buffer_cmp (r : Reg) (i : Nat) (w : Word) : (d.buffer r i w).cmp = d.cmp := rfl
@[simp] theorem Dev.buffer_cfg (r : Reg) (i : Nat) (w : Word) : (d.buffer r i w).cfg = d.cfg := rfl
@[simp] theorem Dev.buffer_svc (r : Reg) (i : Nat) (w : Word) : (d.buffer r i w).svc = d.svc := rfl
@[simp] theorem Dev.buffer_hlt (r : Reg) (i : Nat) (w : Word) : (d.buffer r i w).hlt = d.hlt := rfl
@[simp] theorem Dev.buffer_flt (r : Reg) (i : Nat) (w : Word) : (d.buffer r i w).flt = d.flt := rfl
@[simp] theorem Dev.buffer_evt (r : Reg) (i : Nat) (w : Word) : (d.buffer r i w).evt = d.evt := rfl
@[simp] theorem Dev.buffer_rd (r : Reg) (i : Nat) (w : Word) (g : Fld) (j : Nat) : (d.buffer r i w).rd g j = d.rd g j := rfl
@[simp] theorem Dev.buffer_ld8 (r : Reg) (i : Nat) (w : Word) (k : Nat) : (d.buffer r i w).ld8 k = d.ld8 k := rfl

/-! ### setLane changes lanes only -/

@[simp] theorem Dev.setLane_now (n : Nat) (x : Lane) : (d.setLane n x).now = d.now := rfl
@[simp] theorem Dev.setLane_regs (n : Nat) (x : Lane) : (d.setLane n x).regs = d.regs := rfl
@[simp] theorem Dev.setLane_mem (n : Nat) (x : Lane) : (d.setLane n x).mem = d.mem := rfl
@[simp] theorem Dev.setLane_out (n : Nat) (x : Lane) : (d.setLane n x).out = d.out := rfl
@[simp] theorem Dev.setLane_free (n : Nat) (x : Lane) : (d.setLane n x).free = d.free := rfl
@[simp] theorem Dev.setLane_timers (n : Nat) (x : Lane) : (d.setLane n x).timers = d.timers := rfl
@[simp] theorem Dev.setLane_bus (n : Nat) (x : Lane) : (d.setLane n x).bus = d.bus := rfl
@[simp] theorem Dev.setLane_ang (n : Nat) (x : Lane) : (d.setLane n x).ang = d.ang := rfl
@[simp] theorem Dev.setLane_lnx (n : Nat) (x : Lane) : (d.setLane n x).lnx = d.lnx := rfl
@[simp] theorem Dev.setLane_itb (n : Nat) (x : Lane) : (d.setLane n x).itb = d.itb := rfl
@[simp] theorem Dev.setLane_tpe (n : Nat) (x : Lane) : (d.setLane n x).tpe = d.tpe := rfl
@[simp] theorem Dev.setLane_fsq (n : Nat) (x : Lane) : (d.setLane n x).fsq = d.fsq := rfl
@[simp] theorem Dev.setLane_wrf (n : Nat) (x : Lane) : (d.setLane n x).wrf = d.wrf := rfl
@[simp] theorem Dev.setLane_srv (n : Nat) (x : Lane) : (d.setLane n x).srv = d.srv := rfl
@[simp] theorem Dev.setLane_arm (n : Nat) (x : Lane) : (d.setLane n x).arm = d.arm := rfl
@[simp] theorem Dev.setLane_spn (n : Nat) (x : Lane) : (d.setLane n x).spn = d.spn := rfl
@[simp] theorem Dev.setLane_mac (n : Nat) (x : Lane) : (d.setLane n x).mac = d.mac := rfl
@[simp] theorem Dev.setLane_ve (n : Nat) (x : Lane) : (d.setLane n x).ve = d.ve := rfl
@[simp] theorem Dev.setLane_hif (n : Nat) (x : Lane) : (d.setLane n x).hif = d.hif := rfl
@[simp] theorem Dev.setLane_dig (n : Nat) (x : Lane) : (d.setLane n x).dig = d.dig := rfl
@[simp] theorem Dev.setLane_sch (n : Nat) (x : Lane) : (d.setLane n x).sch = d.sch := rfl
@[simp] theorem Dev.setLane_rck (n : Nat) (x : Lane) : (d.setLane n x).rck = d.rck := rfl
@[simp] theorem Dev.setLane_chk (n : Nat) (x : Lane) : (d.setLane n x).chk = d.chk := rfl
@[simp] theorem Dev.setLane_memx (n : Nat) (x : Lane) : (d.setLane n x).memx = d.memx := rfl
@[simp] theorem Dev.setLane_dma (n : Nat) (x : Lane) : (d.setLane n x).dma = d.dma := rfl
@[simp] theorem Dev.setLane_cmp (n : Nat) (x : Lane) : (d.setLane n x).cmp = d.cmp := rfl
@[simp] theorem Dev.setLane_cfg (n : Nat) (x : Lane) : (d.setLane n x).cfg = d.cfg := rfl
@[simp] theorem Dev.setLane_svc (n : Nat) (x : Lane) : (d.setLane n x).svc = d.svc := rfl
@[simp] theorem Dev.setLane_hlt (n : Nat) (x : Lane) : (d.setLane n x).hlt = d.hlt := rfl
@[simp] theorem Dev.setLane_flt (n : Nat) (x : Lane) : (d.setLane n x).flt = d.flt := rfl
@[simp] theorem Dev.setLane_evt (n : Nat) (x : Lane) : (d.setLane n x).evt = d.evt := rfl
@[simp] theorem Dev.setLane_rd (n : Nat) (x : Lane) (g : Fld) (j : Nat) : (d.setLane n x).rd g j = d.rd g j := rfl
@[simp] theorem Dev.setLane_ld8 (n : Nat) (x : Lane) (k : Nat) : (d.setLane n x).ld8 k = d.ld8 k := rfl

/-! ### setCtx changes itb only -/

@[simp] theorem Dev.setCtx_now (c : Nat) (x : Ctx) : (d.setCtx c x).now = d.now := rfl
@[simp] theorem Dev.setCtx_regs (c : Nat) (x : Ctx) : (d.setCtx c x).regs = d.regs := rfl
@[simp] theorem Dev.setCtx_mem (c : Nat) (x : Ctx) : (d.setCtx c x).mem = d.mem := rfl
@[simp] theorem Dev.setCtx_out (c : Nat) (x : Ctx) : (d.setCtx c x).out = d.out := rfl
@[simp] theorem Dev.setCtx_free (c : Nat) (x : Ctx) : (d.setCtx c x).free = d.free := rfl
@[simp] theorem Dev.setCtx_timers (c : Nat) (x : Ctx) : (d.setCtx c x).timers = d.timers := rfl
@[simp] theorem Dev.setCtx_bus (c : Nat) (x : Ctx) : (d.setCtx c x).bus = d.bus := rfl
@[simp] theorem Dev.setCtx_ang (c : Nat) (x : Ctx) : (d.setCtx c x).ang = d.ang := rfl
@[simp] theorem Dev.setCtx_lnx (c : Nat) (x : Ctx) : (d.setCtx c x).lnx = d.lnx := rfl
@[simp] theorem Dev.setCtx_lanes (c : Nat) (x : Ctx) : (d.setCtx c x).lanes = d.lanes := rfl
@[simp] theorem Dev.setCtx_tpe (c : Nat) (x : Ctx) : (d.setCtx c x).tpe = d.tpe := rfl
@[simp] theorem Dev.setCtx_fsq (c : Nat) (x : Ctx) : (d.setCtx c x).fsq = d.fsq := rfl
@[simp] theorem Dev.setCtx_wrf (c : Nat) (x : Ctx) : (d.setCtx c x).wrf = d.wrf := rfl
@[simp] theorem Dev.setCtx_srv (c : Nat) (x : Ctx) : (d.setCtx c x).srv = d.srv := rfl
@[simp] theorem Dev.setCtx_arm (c : Nat) (x : Ctx) : (d.setCtx c x).arm = d.arm := rfl
@[simp] theorem Dev.setCtx_spn (c : Nat) (x : Ctx) : (d.setCtx c x).spn = d.spn := rfl
@[simp] theorem Dev.setCtx_mac (c : Nat) (x : Ctx) : (d.setCtx c x).mac = d.mac := rfl
@[simp] theorem Dev.setCtx_ve (c : Nat) (x : Ctx) : (d.setCtx c x).ve = d.ve := rfl
@[simp] theorem Dev.setCtx_hif (c : Nat) (x : Ctx) : (d.setCtx c x).hif = d.hif := rfl
@[simp] theorem Dev.setCtx_dig (c : Nat) (x : Ctx) : (d.setCtx c x).dig = d.dig := rfl
@[simp] theorem Dev.setCtx_sch (c : Nat) (x : Ctx) : (d.setCtx c x).sch = d.sch := rfl
@[simp] theorem Dev.setCtx_rck (c : Nat) (x : Ctx) : (d.setCtx c x).rck = d.rck := rfl
@[simp] theorem Dev.setCtx_chk (c : Nat) (x : Ctx) : (d.setCtx c x).chk = d.chk := rfl
@[simp] theorem Dev.setCtx_memx (c : Nat) (x : Ctx) : (d.setCtx c x).memx = d.memx := rfl
@[simp] theorem Dev.setCtx_dma (c : Nat) (x : Ctx) : (d.setCtx c x).dma = d.dma := rfl
@[simp] theorem Dev.setCtx_cmp (c : Nat) (x : Ctx) : (d.setCtx c x).cmp = d.cmp := rfl
@[simp] theorem Dev.setCtx_cfg (c : Nat) (x : Ctx) : (d.setCtx c x).cfg = d.cfg := rfl
@[simp] theorem Dev.setCtx_svc (c : Nat) (x : Ctx) : (d.setCtx c x).svc = d.svc := rfl
@[simp] theorem Dev.setCtx_hlt (c : Nat) (x : Ctx) : (d.setCtx c x).hlt = d.hlt := rfl
@[simp] theorem Dev.setCtx_flt (c : Nat) (x : Ctx) : (d.setCtx c x).flt = d.flt := rfl
@[simp] theorem Dev.setCtx_evt (c : Nat) (x : Ctx) : (d.setCtx c x).evt = d.evt := rfl
@[simp] theorem Dev.setCtx_rd (c : Nat) (x : Ctx) (g : Fld) (j : Nat) : (d.setCtx c x).rd g j = d.rd g j := rfl
@[simp] theorem Dev.setCtx_ld8 (c : Nat) (x : Ctx) (k : Nat) : (d.setCtx c x).ld8 k = d.ld8 k := rfl

/-! ### setEnc changes tpe only -/

@[simp] theorem Dev.setEnc_now (n : Nat) (x : EncCtx) : (d.setEnc n x).now = d.now := rfl
@[simp] theorem Dev.setEnc_regs (n : Nat) (x : EncCtx) : (d.setEnc n x).regs = d.regs := rfl
@[simp] theorem Dev.setEnc_mem (n : Nat) (x : EncCtx) : (d.setEnc n x).mem = d.mem := rfl
@[simp] theorem Dev.setEnc_out (n : Nat) (x : EncCtx) : (d.setEnc n x).out = d.out := rfl
@[simp] theorem Dev.setEnc_free (n : Nat) (x : EncCtx) : (d.setEnc n x).free = d.free := rfl
@[simp] theorem Dev.setEnc_timers (n : Nat) (x : EncCtx) : (d.setEnc n x).timers = d.timers := rfl
@[simp] theorem Dev.setEnc_bus (n : Nat) (x : EncCtx) : (d.setEnc n x).bus = d.bus := rfl
@[simp] theorem Dev.setEnc_ang (n : Nat) (x : EncCtx) : (d.setEnc n x).ang = d.ang := rfl
@[simp] theorem Dev.setEnc_lnx (n : Nat) (x : EncCtx) : (d.setEnc n x).lnx = d.lnx := rfl
@[simp] theorem Dev.setEnc_lanes (n : Nat) (x : EncCtx) : (d.setEnc n x).lanes = d.lanes := rfl
@[simp] theorem Dev.setEnc_itb (n : Nat) (x : EncCtx) : (d.setEnc n x).itb = d.itb := rfl
@[simp] theorem Dev.setEnc_fsq (n : Nat) (x : EncCtx) : (d.setEnc n x).fsq = d.fsq := rfl
@[simp] theorem Dev.setEnc_wrf (n : Nat) (x : EncCtx) : (d.setEnc n x).wrf = d.wrf := rfl
@[simp] theorem Dev.setEnc_srv (n : Nat) (x : EncCtx) : (d.setEnc n x).srv = d.srv := rfl
@[simp] theorem Dev.setEnc_arm (n : Nat) (x : EncCtx) : (d.setEnc n x).arm = d.arm := rfl
@[simp] theorem Dev.setEnc_spn (n : Nat) (x : EncCtx) : (d.setEnc n x).spn = d.spn := rfl
@[simp] theorem Dev.setEnc_mac (n : Nat) (x : EncCtx) : (d.setEnc n x).mac = d.mac := rfl
@[simp] theorem Dev.setEnc_ve (n : Nat) (x : EncCtx) : (d.setEnc n x).ve = d.ve := rfl
@[simp] theorem Dev.setEnc_hif (n : Nat) (x : EncCtx) : (d.setEnc n x).hif = d.hif := rfl
@[simp] theorem Dev.setEnc_dig (n : Nat) (x : EncCtx) : (d.setEnc n x).dig = d.dig := rfl
@[simp] theorem Dev.setEnc_sch (n : Nat) (x : EncCtx) : (d.setEnc n x).sch = d.sch := rfl
@[simp] theorem Dev.setEnc_rck (n : Nat) (x : EncCtx) : (d.setEnc n x).rck = d.rck := rfl
@[simp] theorem Dev.setEnc_chk (n : Nat) (x : EncCtx) : (d.setEnc n x).chk = d.chk := rfl
@[simp] theorem Dev.setEnc_memx (n : Nat) (x : EncCtx) : (d.setEnc n x).memx = d.memx := rfl
@[simp] theorem Dev.setEnc_dma (n : Nat) (x : EncCtx) : (d.setEnc n x).dma = d.dma := rfl
@[simp] theorem Dev.setEnc_cmp (n : Nat) (x : EncCtx) : (d.setEnc n x).cmp = d.cmp := rfl
@[simp] theorem Dev.setEnc_cfg (n : Nat) (x : EncCtx) : (d.setEnc n x).cfg = d.cfg := rfl
@[simp] theorem Dev.setEnc_svc (n : Nat) (x : EncCtx) : (d.setEnc n x).svc = d.svc := rfl
@[simp] theorem Dev.setEnc_hlt (n : Nat) (x : EncCtx) : (d.setEnc n x).hlt = d.hlt := rfl
@[simp] theorem Dev.setEnc_flt (n : Nat) (x : EncCtx) : (d.setEnc n x).flt = d.flt := rfl
@[simp] theorem Dev.setEnc_evt (n : Nat) (x : EncCtx) : (d.setEnc n x).evt = d.evt := rfl
@[simp] theorem Dev.setEnc_rd (n : Nat) (x : EncCtx) (g : Fld) (j : Nat) : (d.setEnc n x).rd g j = d.rd g j := rfl
@[simp] theorem Dev.setEnc_ld8 (n : Nat) (x : EncCtx) (k : Nat) : (d.setEnc n x).ld8 k = d.ld8 k := rfl

/-! ### setSeq changes fsq only -/

@[simp] theorem Dev.setSeq_now (n : Nat) (x : Seq) : (d.setSeq n x).now = d.now := rfl
@[simp] theorem Dev.setSeq_regs (n : Nat) (x : Seq) : (d.setSeq n x).regs = d.regs := rfl
@[simp] theorem Dev.setSeq_mem (n : Nat) (x : Seq) : (d.setSeq n x).mem = d.mem := rfl
@[simp] theorem Dev.setSeq_out (n : Nat) (x : Seq) : (d.setSeq n x).out = d.out := rfl
@[simp] theorem Dev.setSeq_free (n : Nat) (x : Seq) : (d.setSeq n x).free = d.free := rfl
@[simp] theorem Dev.setSeq_timers (n : Nat) (x : Seq) : (d.setSeq n x).timers = d.timers := rfl
@[simp] theorem Dev.setSeq_bus (n : Nat) (x : Seq) : (d.setSeq n x).bus = d.bus := rfl
@[simp] theorem Dev.setSeq_ang (n : Nat) (x : Seq) : (d.setSeq n x).ang = d.ang := rfl
@[simp] theorem Dev.setSeq_lnx (n : Nat) (x : Seq) : (d.setSeq n x).lnx = d.lnx := rfl
@[simp] theorem Dev.setSeq_lanes (n : Nat) (x : Seq) : (d.setSeq n x).lanes = d.lanes := rfl
@[simp] theorem Dev.setSeq_itb (n : Nat) (x : Seq) : (d.setSeq n x).itb = d.itb := rfl
@[simp] theorem Dev.setSeq_tpe (n : Nat) (x : Seq) : (d.setSeq n x).tpe = d.tpe := rfl
@[simp] theorem Dev.setSeq_wrf (n : Nat) (x : Seq) : (d.setSeq n x).wrf = d.wrf := rfl
@[simp] theorem Dev.setSeq_srv (n : Nat) (x : Seq) : (d.setSeq n x).srv = d.srv := rfl
@[simp] theorem Dev.setSeq_arm (n : Nat) (x : Seq) : (d.setSeq n x).arm = d.arm := rfl
@[simp] theorem Dev.setSeq_spn (n : Nat) (x : Seq) : (d.setSeq n x).spn = d.spn := rfl
@[simp] theorem Dev.setSeq_mac (n : Nat) (x : Seq) : (d.setSeq n x).mac = d.mac := rfl
@[simp] theorem Dev.setSeq_ve (n : Nat) (x : Seq) : (d.setSeq n x).ve = d.ve := rfl
@[simp] theorem Dev.setSeq_hif (n : Nat) (x : Seq) : (d.setSeq n x).hif = d.hif := rfl
@[simp] theorem Dev.setSeq_dig (n : Nat) (x : Seq) : (d.setSeq n x).dig = d.dig := rfl
@[simp] theorem Dev.setSeq_sch (n : Nat) (x : Seq) : (d.setSeq n x).sch = d.sch := rfl
@[simp] theorem Dev.setSeq_rck (n : Nat) (x : Seq) : (d.setSeq n x).rck = d.rck := rfl
@[simp] theorem Dev.setSeq_chk (n : Nat) (x : Seq) : (d.setSeq n x).chk = d.chk := rfl
@[simp] theorem Dev.setSeq_memx (n : Nat) (x : Seq) : (d.setSeq n x).memx = d.memx := rfl
@[simp] theorem Dev.setSeq_dma (n : Nat) (x : Seq) : (d.setSeq n x).dma = d.dma := rfl
@[simp] theorem Dev.setSeq_cmp (n : Nat) (x : Seq) : (d.setSeq n x).cmp = d.cmp := rfl
@[simp] theorem Dev.setSeq_cfg (n : Nat) (x : Seq) : (d.setSeq n x).cfg = d.cfg := rfl
@[simp] theorem Dev.setSeq_svc (n : Nat) (x : Seq) : (d.setSeq n x).svc = d.svc := rfl
@[simp] theorem Dev.setSeq_hlt (n : Nat) (x : Seq) : (d.setSeq n x).hlt = d.hlt := rfl
@[simp] theorem Dev.setSeq_flt (n : Nat) (x : Seq) : (d.setSeq n x).flt = d.flt := rfl
@[simp] theorem Dev.setSeq_evt (n : Nat) (x : Seq) : (d.setSeq n x).evt = d.evt := rfl
@[simp] theorem Dev.setSeq_rd (n : Nat) (x : Seq) (g : Fld) (j : Nat) : (d.setSeq n x).rd g j = d.rd g j := rfl
@[simp] theorem Dev.setSeq_ld8 (n : Nat) (x : Seq) (k : Nat) : (d.setSeq n x).ld8 k = d.ld8 k := rfl

/-! ### setWslot changes wrf only -/

@[simp] theorem Dev.setWslot_now (n : Nat) (x : Wslot) : (d.setWslot n x).now = d.now := rfl
@[simp] theorem Dev.setWslot_regs (n : Nat) (x : Wslot) : (d.setWslot n x).regs = d.regs := rfl
@[simp] theorem Dev.setWslot_mem (n : Nat) (x : Wslot) : (d.setWslot n x).mem = d.mem := rfl
@[simp] theorem Dev.setWslot_out (n : Nat) (x : Wslot) : (d.setWslot n x).out = d.out := rfl
@[simp] theorem Dev.setWslot_free (n : Nat) (x : Wslot) : (d.setWslot n x).free = d.free := rfl
@[simp] theorem Dev.setWslot_timers (n : Nat) (x : Wslot) : (d.setWslot n x).timers = d.timers := rfl
@[simp] theorem Dev.setWslot_bus (n : Nat) (x : Wslot) : (d.setWslot n x).bus = d.bus := rfl
@[simp] theorem Dev.setWslot_ang (n : Nat) (x : Wslot) : (d.setWslot n x).ang = d.ang := rfl
@[simp] theorem Dev.setWslot_lnx (n : Nat) (x : Wslot) : (d.setWslot n x).lnx = d.lnx := rfl
@[simp] theorem Dev.setWslot_lanes (n : Nat) (x : Wslot) : (d.setWslot n x).lanes = d.lanes := rfl
@[simp] theorem Dev.setWslot_itb (n : Nat) (x : Wslot) : (d.setWslot n x).itb = d.itb := rfl
@[simp] theorem Dev.setWslot_tpe (n : Nat) (x : Wslot) : (d.setWslot n x).tpe = d.tpe := rfl
@[simp] theorem Dev.setWslot_fsq (n : Nat) (x : Wslot) : (d.setWslot n x).fsq = d.fsq := rfl
@[simp] theorem Dev.setWslot_srv (n : Nat) (x : Wslot) : (d.setWslot n x).srv = d.srv := rfl
@[simp] theorem Dev.setWslot_arm (n : Nat) (x : Wslot) : (d.setWslot n x).arm = d.arm := rfl
@[simp] theorem Dev.setWslot_spn (n : Nat) (x : Wslot) : (d.setWslot n x).spn = d.spn := rfl
@[simp] theorem Dev.setWslot_mac (n : Nat) (x : Wslot) : (d.setWslot n x).mac = d.mac := rfl
@[simp] theorem Dev.setWslot_ve (n : Nat) (x : Wslot) : (d.setWslot n x).ve = d.ve := rfl
@[simp] theorem Dev.setWslot_hif (n : Nat) (x : Wslot) : (d.setWslot n x).hif = d.hif := rfl
@[simp] theorem Dev.setWslot_dig (n : Nat) (x : Wslot) : (d.setWslot n x).dig = d.dig := rfl
@[simp] theorem Dev.setWslot_sch (n : Nat) (x : Wslot) : (d.setWslot n x).sch = d.sch := rfl
@[simp] theorem Dev.setWslot_rck (n : Nat) (x : Wslot) : (d.setWslot n x).rck = d.rck := rfl
@[simp] theorem Dev.setWslot_chk (n : Nat) (x : Wslot) : (d.setWslot n x).chk = d.chk := rfl
@[simp] theorem Dev.setWslot_memx (n : Nat) (x : Wslot) : (d.setWslot n x).memx = d.memx := rfl
@[simp] theorem Dev.setWslot_dma (n : Nat) (x : Wslot) : (d.setWslot n x).dma = d.dma := rfl
@[simp] theorem Dev.setWslot_cmp (n : Nat) (x : Wslot) : (d.setWslot n x).cmp = d.cmp := rfl
@[simp] theorem Dev.setWslot_cfg (n : Nat) (x : Wslot) : (d.setWslot n x).cfg = d.cfg := rfl
@[simp] theorem Dev.setWslot_svc (n : Nat) (x : Wslot) : (d.setWslot n x).svc = d.svc := rfl
@[simp] theorem Dev.setWslot_hlt (n : Nat) (x : Wslot) : (d.setWslot n x).hlt = d.hlt := rfl
@[simp] theorem Dev.setWslot_flt (n : Nat) (x : Wslot) : (d.setWslot n x).flt = d.flt := rfl
@[simp] theorem Dev.setWslot_evt (n : Nat) (x : Wslot) : (d.setWslot n x).evt = d.evt := rfl
@[simp] theorem Dev.setWslot_rd (n : Nat) (x : Wslot) (g : Fld) (j : Nat) : (d.setWslot n x).rd g j = d.rd g j := rfl
@[simp] theorem Dev.setWslot_ld8 (n : Nat) (x : Wslot) (k : Nat) : (d.setWslot n x).ld8 k = d.ld8 k := rfl

/-! ### setHead changes srv only -/

@[simp] theorem Dev.setHead_now (h : Nat) (x : Head) : (d.setHead h x).now = d.now := rfl
@[simp] theorem Dev.setHead_regs (h : Nat) (x : Head) : (d.setHead h x).regs = d.regs := rfl
@[simp] theorem Dev.setHead_mem (h : Nat) (x : Head) : (d.setHead h x).mem = d.mem := rfl
@[simp] theorem Dev.setHead_out (h : Nat) (x : Head) : (d.setHead h x).out = d.out := rfl
@[simp] theorem Dev.setHead_free (h : Nat) (x : Head) : (d.setHead h x).free = d.free := rfl
@[simp] theorem Dev.setHead_timers (h : Nat) (x : Head) : (d.setHead h x).timers = d.timers := rfl
@[simp] theorem Dev.setHead_bus (h : Nat) (x : Head) : (d.setHead h x).bus = d.bus := rfl
@[simp] theorem Dev.setHead_ang (h : Nat) (x : Head) : (d.setHead h x).ang = d.ang := rfl
@[simp] theorem Dev.setHead_lnx (h : Nat) (x : Head) : (d.setHead h x).lnx = d.lnx := rfl
@[simp] theorem Dev.setHead_lanes (h : Nat) (x : Head) : (d.setHead h x).lanes = d.lanes := rfl
@[simp] theorem Dev.setHead_itb (h : Nat) (x : Head) : (d.setHead h x).itb = d.itb := rfl
@[simp] theorem Dev.setHead_tpe (h : Nat) (x : Head) : (d.setHead h x).tpe = d.tpe := rfl
@[simp] theorem Dev.setHead_fsq (h : Nat) (x : Head) : (d.setHead h x).fsq = d.fsq := rfl
@[simp] theorem Dev.setHead_wrf (h : Nat) (x : Head) : (d.setHead h x).wrf = d.wrf := rfl
@[simp] theorem Dev.setHead_arm (h : Nat) (x : Head) : (d.setHead h x).arm = d.arm := rfl
@[simp] theorem Dev.setHead_spn (h : Nat) (x : Head) : (d.setHead h x).spn = d.spn := rfl
@[simp] theorem Dev.setHead_mac (h : Nat) (x : Head) : (d.setHead h x).mac = d.mac := rfl
@[simp] theorem Dev.setHead_ve (h : Nat) (x : Head) : (d.setHead h x).ve = d.ve := rfl
@[simp] theorem Dev.setHead_hif (h : Nat) (x : Head) : (d.setHead h x).hif = d.hif := rfl
@[simp] theorem Dev.setHead_dig (h : Nat) (x : Head) : (d.setHead h x).dig = d.dig := rfl
@[simp] theorem Dev.setHead_sch (h : Nat) (x : Head) : (d.setHead h x).sch = d.sch := rfl
@[simp] theorem Dev.setHead_rck (h : Nat) (x : Head) : (d.setHead h x).rck = d.rck := rfl
@[simp] theorem Dev.setHead_chk (h : Nat) (x : Head) : (d.setHead h x).chk = d.chk := rfl
@[simp] theorem Dev.setHead_memx (h : Nat) (x : Head) : (d.setHead h x).memx = d.memx := rfl
@[simp] theorem Dev.setHead_dma (h : Nat) (x : Head) : (d.setHead h x).dma = d.dma := rfl
@[simp] theorem Dev.setHead_cmp (h : Nat) (x : Head) : (d.setHead h x).cmp = d.cmp := rfl
@[simp] theorem Dev.setHead_cfg (h : Nat) (x : Head) : (d.setHead h x).cfg = d.cfg := rfl
@[simp] theorem Dev.setHead_svc (h : Nat) (x : Head) : (d.setHead h x).svc = d.svc := rfl
@[simp] theorem Dev.setHead_hlt (h : Nat) (x : Head) : (d.setHead h x).hlt = d.hlt := rfl
@[simp] theorem Dev.setHead_flt (h : Nat) (x : Head) : (d.setHead h x).flt = d.flt := rfl
@[simp] theorem Dev.setHead_evt (h : Nat) (x : Head) : (d.setHead h x).evt = d.evt := rfl
@[simp] theorem Dev.setHead_rd (h : Nat) (x : Head) (g : Fld) (j : Nat) : (d.setHead h x).rd g j = d.rd g j := rfl
@[simp] theorem Dev.setHead_ld8 (h : Nat) (x : Head) (k : Nat) : (d.setHead h x).ld8 k = d.ld8 k := rfl

/-! ### setAct changes srv only -/

@[simp] theorem Dev.setAct_now (a : Nat) (x : Act) : (d.setAct a x).now = d.now := rfl
@[simp] theorem Dev.setAct_regs (a : Nat) (x : Act) : (d.setAct a x).regs = d.regs := rfl
@[simp] theorem Dev.setAct_mem (a : Nat) (x : Act) : (d.setAct a x).mem = d.mem := rfl
@[simp] theorem Dev.setAct_out (a : Nat) (x : Act) : (d.setAct a x).out = d.out := rfl
@[simp] theorem Dev.setAct_free (a : Nat) (x : Act) : (d.setAct a x).free = d.free := rfl
@[simp] theorem Dev.setAct_timers (a : Nat) (x : Act) : (d.setAct a x).timers = d.timers := rfl
@[simp] theorem Dev.setAct_bus (a : Nat) (x : Act) : (d.setAct a x).bus = d.bus := rfl
@[simp] theorem Dev.setAct_ang (a : Nat) (x : Act) : (d.setAct a x).ang = d.ang := rfl
@[simp] theorem Dev.setAct_lnx (a : Nat) (x : Act) : (d.setAct a x).lnx = d.lnx := rfl
@[simp] theorem Dev.setAct_lanes (a : Nat) (x : Act) : (d.setAct a x).lanes = d.lanes := rfl
@[simp] theorem Dev.setAct_itb (a : Nat) (x : Act) : (d.setAct a x).itb = d.itb := rfl
@[simp] theorem Dev.setAct_tpe (a : Nat) (x : Act) : (d.setAct a x).tpe = d.tpe := rfl
@[simp] theorem Dev.setAct_fsq (a : Nat) (x : Act) : (d.setAct a x).fsq = d.fsq := rfl
@[simp] theorem Dev.setAct_wrf (a : Nat) (x : Act) : (d.setAct a x).wrf = d.wrf := rfl
@[simp] theorem Dev.setAct_arm (a : Nat) (x : Act) : (d.setAct a x).arm = d.arm := rfl
@[simp] theorem Dev.setAct_spn (a : Nat) (x : Act) : (d.setAct a x).spn = d.spn := rfl
@[simp] theorem Dev.setAct_mac (a : Nat) (x : Act) : (d.setAct a x).mac = d.mac := rfl
@[simp] theorem Dev.setAct_ve (a : Nat) (x : Act) : (d.setAct a x).ve = d.ve := rfl
@[simp] theorem Dev.setAct_hif (a : Nat) (x : Act) : (d.setAct a x).hif = d.hif := rfl
@[simp] theorem Dev.setAct_dig (a : Nat) (x : Act) : (d.setAct a x).dig = d.dig := rfl
@[simp] theorem Dev.setAct_sch (a : Nat) (x : Act) : (d.setAct a x).sch = d.sch := rfl
@[simp] theorem Dev.setAct_rck (a : Nat) (x : Act) : (d.setAct a x).rck = d.rck := rfl
@[simp] theorem Dev.setAct_chk (a : Nat) (x : Act) : (d.setAct a x).chk = d.chk := rfl
@[simp] theorem Dev.setAct_memx (a : Nat) (x : Act) : (d.setAct a x).memx = d.memx := rfl
@[simp] theorem Dev.setAct_dma (a : Nat) (x : Act) : (d.setAct a x).dma = d.dma := rfl
@[simp] theorem Dev.setAct_cmp (a : Nat) (x : Act) : (d.setAct a x).cmp = d.cmp := rfl
@[simp] theorem Dev.setAct_cfg (a : Nat) (x : Act) : (d.setAct a x).cfg = d.cfg := rfl
@[simp] theorem Dev.setAct_svc (a : Nat) (x : Act) : (d.setAct a x).svc = d.svc := rfl
@[simp] theorem Dev.setAct_hlt (a : Nat) (x : Act) : (d.setAct a x).hlt = d.hlt := rfl
@[simp] theorem Dev.setAct_flt (a : Nat) (x : Act) : (d.setAct a x).flt = d.flt := rfl
@[simp] theorem Dev.setAct_evt (a : Nat) (x : Act) : (d.setAct a x).evt = d.evt := rfl
@[simp] theorem Dev.setAct_rd (a : Nat) (x : Act) (g : Fld) (j : Nat) : (d.setAct a x).rd g j = d.rd g j := rfl
@[simp] theorem Dev.setAct_ld8 (a : Nat) (x : Act) (k : Nat) : (d.setAct a x).ld8 k = d.ld8 k := rfl

/-! ### setLink changes arm only -/

@[simp] theorem Dev.setLink_now (a : Nat) (x : Link) : (d.setLink a x).now = d.now := rfl
@[simp] theorem Dev.setLink_regs (a : Nat) (x : Link) : (d.setLink a x).regs = d.regs := rfl
@[simp] theorem Dev.setLink_mem (a : Nat) (x : Link) : (d.setLink a x).mem = d.mem := rfl
@[simp] theorem Dev.setLink_out (a : Nat) (x : Link) : (d.setLink a x).out = d.out := rfl
@[simp] theorem Dev.setLink_free (a : Nat) (x : Link) : (d.setLink a x).free = d.free := rfl
@[simp] theorem Dev.setLink_timers (a : Nat) (x : Link) : (d.setLink a x).timers = d.timers := rfl
@[simp] theorem Dev.setLink_bus (a : Nat) (x : Link) : (d.setLink a x).bus = d.bus := rfl
@[simp] theorem Dev.setLink_ang (a : Nat) (x : Link) : (d.setLink a x).ang = d.ang := rfl
@[simp] theorem Dev.setLink_lnx (a : Nat) (x : Link) : (d.setLink a x).lnx = d.lnx := rfl
@[simp] theorem Dev.setLink_lanes (a : Nat) (x : Link) : (d.setLink a x).lanes = d.lanes := rfl
@[simp] theorem Dev.setLink_itb (a : Nat) (x : Link) : (d.setLink a x).itb = d.itb := rfl
@[simp] theorem Dev.setLink_tpe (a : Nat) (x : Link) : (d.setLink a x).tpe = d.tpe := rfl
@[simp] theorem Dev.setLink_fsq (a : Nat) (x : Link) : (d.setLink a x).fsq = d.fsq := rfl
@[simp] theorem Dev.setLink_wrf (a : Nat) (x : Link) : (d.setLink a x).wrf = d.wrf := rfl
@[simp] theorem Dev.setLink_srv (a : Nat) (x : Link) : (d.setLink a x).srv = d.srv := rfl
@[simp] theorem Dev.setLink_spn (a : Nat) (x : Link) : (d.setLink a x).spn = d.spn := rfl
@[simp] theorem Dev.setLink_mac (a : Nat) (x : Link) : (d.setLink a x).mac = d.mac := rfl
@[simp] theorem Dev.setLink_ve (a : Nat) (x : Link) : (d.setLink a x).ve = d.ve := rfl
@[simp] theorem Dev.setLink_hif (a : Nat) (x : Link) : (d.setLink a x).hif = d.hif := rfl
@[simp] theorem Dev.setLink_dig (a : Nat) (x : Link) : (d.setLink a x).dig = d.dig := rfl
@[simp] theorem Dev.setLink_sch (a : Nat) (x : Link) : (d.setLink a x).sch = d.sch := rfl
@[simp] theorem Dev.setLink_rck (a : Nat) (x : Link) : (d.setLink a x).rck = d.rck := rfl
@[simp] theorem Dev.setLink_chk (a : Nat) (x : Link) : (d.setLink a x).chk = d.chk := rfl
@[simp] theorem Dev.setLink_memx (a : Nat) (x : Link) : (d.setLink a x).memx = d.memx := rfl
@[simp] theorem Dev.setLink_dma (a : Nat) (x : Link) : (d.setLink a x).dma = d.dma := rfl
@[simp] theorem Dev.setLink_cmp (a : Nat) (x : Link) : (d.setLink a x).cmp = d.cmp := rfl
@[simp] theorem Dev.setLink_cfg (a : Nat) (x : Link) : (d.setLink a x).cfg = d.cfg := rfl
@[simp] theorem Dev.setLink_svc (a : Nat) (x : Link) : (d.setLink a x).svc = d.svc := rfl
@[simp] theorem Dev.setLink_hlt (a : Nat) (x : Link) : (d.setLink a x).hlt = d.hlt := rfl
@[simp] theorem Dev.setLink_flt (a : Nat) (x : Link) : (d.setLink a x).flt = d.flt := rfl
@[simp] theorem Dev.setLink_evt (a : Nat) (x : Link) : (d.setLink a x).evt = d.evt := rfl
@[simp] theorem Dev.setLink_rd (a : Nat) (x : Link) (g : Fld) (j : Nat) : (d.setLink a x).rd g j = d.rd g j := rfl
@[simp] theorem Dev.setLink_ld8 (a : Nat) (x : Link) (k : Nat) : (d.setLink a x).ld8 k = d.ld8 k := rfl

/-! ### setEng changes ve only -/

@[simp] theorem Dev.setEng_now (e : Nat) (x : Eng) : (d.setEng e x).now = d.now := rfl
@[simp] theorem Dev.setEng_regs (e : Nat) (x : Eng) : (d.setEng e x).regs = d.regs := rfl
@[simp] theorem Dev.setEng_mem (e : Nat) (x : Eng) : (d.setEng e x).mem = d.mem := rfl
@[simp] theorem Dev.setEng_out (e : Nat) (x : Eng) : (d.setEng e x).out = d.out := rfl
@[simp] theorem Dev.setEng_free (e : Nat) (x : Eng) : (d.setEng e x).free = d.free := rfl
@[simp] theorem Dev.setEng_timers (e : Nat) (x : Eng) : (d.setEng e x).timers = d.timers := rfl
@[simp] theorem Dev.setEng_bus (e : Nat) (x : Eng) : (d.setEng e x).bus = d.bus := rfl
@[simp] theorem Dev.setEng_ang (e : Nat) (x : Eng) : (d.setEng e x).ang = d.ang := rfl
@[simp] theorem Dev.setEng_lnx (e : Nat) (x : Eng) : (d.setEng e x).lnx = d.lnx := rfl
@[simp] theorem Dev.setEng_lanes (e : Nat) (x : Eng) : (d.setEng e x).lanes = d.lanes := rfl
@[simp] theorem Dev.setEng_itb (e : Nat) (x : Eng) : (d.setEng e x).itb = d.itb := rfl
@[simp] theorem Dev.setEng_tpe (e : Nat) (x : Eng) : (d.setEng e x).tpe = d.tpe := rfl
@[simp] theorem Dev.setEng_fsq (e : Nat) (x : Eng) : (d.setEng e x).fsq = d.fsq := rfl
@[simp] theorem Dev.setEng_wrf (e : Nat) (x : Eng) : (d.setEng e x).wrf = d.wrf := rfl
@[simp] theorem Dev.setEng_srv (e : Nat) (x : Eng) : (d.setEng e x).srv = d.srv := rfl
@[simp] theorem Dev.setEng_arm (e : Nat) (x : Eng) : (d.setEng e x).arm = d.arm := rfl
@[simp] theorem Dev.setEng_spn (e : Nat) (x : Eng) : (d.setEng e x).spn = d.spn := rfl
@[simp] theorem Dev.setEng_mac (e : Nat) (x : Eng) : (d.setEng e x).mac = d.mac := rfl
@[simp] theorem Dev.setEng_hif (e : Nat) (x : Eng) : (d.setEng e x).hif = d.hif := rfl
@[simp] theorem Dev.setEng_dig (e : Nat) (x : Eng) : (d.setEng e x).dig = d.dig := rfl
@[simp] theorem Dev.setEng_sch (e : Nat) (x : Eng) : (d.setEng e x).sch = d.sch := rfl
@[simp] theorem Dev.setEng_rck (e : Nat) (x : Eng) : (d.setEng e x).rck = d.rck := rfl
@[simp] theorem Dev.setEng_chk (e : Nat) (x : Eng) : (d.setEng e x).chk = d.chk := rfl
@[simp] theorem Dev.setEng_memx (e : Nat) (x : Eng) : (d.setEng e x).memx = d.memx := rfl
@[simp] theorem Dev.setEng_dma (e : Nat) (x : Eng) : (d.setEng e x).dma = d.dma := rfl
@[simp] theorem Dev.setEng_cmp (e : Nat) (x : Eng) : (d.setEng e x).cmp = d.cmp := rfl
@[simp] theorem Dev.setEng_cfg (e : Nat) (x : Eng) : (d.setEng e x).cfg = d.cfg := rfl
@[simp] theorem Dev.setEng_svc (e : Nat) (x : Eng) : (d.setEng e x).svc = d.svc := rfl
@[simp] theorem Dev.setEng_hlt (e : Nat) (x : Eng) : (d.setEng e x).hlt = d.hlt := rfl
@[simp] theorem Dev.setEng_flt (e : Nat) (x : Eng) : (d.setEng e x).flt = d.flt := rfl
@[simp] theorem Dev.setEng_evt (e : Nat) (x : Eng) : (d.setEng e x).evt = d.evt := rfl
@[simp] theorem Dev.setEng_rd (e : Nat) (x : Eng) (g : Fld) (j : Nat) : (d.setEng e x).rd g j = d.rd g j := rfl
@[simp] theorem Dev.setEng_ld8 (e : Nat) (x : Eng) (k : Nat) : (d.setEng e x).ld8 k = d.ld8 k := rfl

/-! ### setPort changes hif only -/

@[simp] theorem Dev.setPort_now (p : Nat) (x : Port) : (d.setPort p x).now = d.now := rfl
@[simp] theorem Dev.setPort_regs (p : Nat) (x : Port) : (d.setPort p x).regs = d.regs := rfl
@[simp] theorem Dev.setPort_mem (p : Nat) (x : Port) : (d.setPort p x).mem = d.mem := rfl
@[simp] theorem Dev.setPort_out (p : Nat) (x : Port) : (d.setPort p x).out = d.out := rfl
@[simp] theorem Dev.setPort_free (p : Nat) (x : Port) : (d.setPort p x).free = d.free := rfl
@[simp] theorem Dev.setPort_timers (p : Nat) (x : Port) : (d.setPort p x).timers = d.timers := rfl
@[simp] theorem Dev.setPort_bus (p : Nat) (x : Port) : (d.setPort p x).bus = d.bus := rfl
@[simp] theorem Dev.setPort_ang (p : Nat) (x : Port) : (d.setPort p x).ang = d.ang := rfl
@[simp] theorem Dev.setPort_lnx (p : Nat) (x : Port) : (d.setPort p x).lnx = d.lnx := rfl
@[simp] theorem Dev.setPort_lanes (p : Nat) (x : Port) : (d.setPort p x).lanes = d.lanes := rfl
@[simp] theorem Dev.setPort_itb (p : Nat) (x : Port) : (d.setPort p x).itb = d.itb := rfl
@[simp] theorem Dev.setPort_tpe (p : Nat) (x : Port) : (d.setPort p x).tpe = d.tpe := rfl
@[simp] theorem Dev.setPort_fsq (p : Nat) (x : Port) : (d.setPort p x).fsq = d.fsq := rfl
@[simp] theorem Dev.setPort_wrf (p : Nat) (x : Port) : (d.setPort p x).wrf = d.wrf := rfl
@[simp] theorem Dev.setPort_srv (p : Nat) (x : Port) : (d.setPort p x).srv = d.srv := rfl
@[simp] theorem Dev.setPort_arm (p : Nat) (x : Port) : (d.setPort p x).arm = d.arm := rfl
@[simp] theorem Dev.setPort_spn (p : Nat) (x : Port) : (d.setPort p x).spn = d.spn := rfl
@[simp] theorem Dev.setPort_mac (p : Nat) (x : Port) : (d.setPort p x).mac = d.mac := rfl
@[simp] theorem Dev.setPort_ve (p : Nat) (x : Port) : (d.setPort p x).ve = d.ve := rfl
@[simp] theorem Dev.setPort_dig (p : Nat) (x : Port) : (d.setPort p x).dig = d.dig := rfl
@[simp] theorem Dev.setPort_sch (p : Nat) (x : Port) : (d.setPort p x).sch = d.sch := rfl
@[simp] theorem Dev.setPort_rck (p : Nat) (x : Port) : (d.setPort p x).rck = d.rck := rfl
@[simp] theorem Dev.setPort_chk (p : Nat) (x : Port) : (d.setPort p x).chk = d.chk := rfl
@[simp] theorem Dev.setPort_memx (p : Nat) (x : Port) : (d.setPort p x).memx = d.memx := rfl
@[simp] theorem Dev.setPort_dma (p : Nat) (x : Port) : (d.setPort p x).dma = d.dma := rfl
@[simp] theorem Dev.setPort_cmp (p : Nat) (x : Port) : (d.setPort p x).cmp = d.cmp := rfl
@[simp] theorem Dev.setPort_cfg (p : Nat) (x : Port) : (d.setPort p x).cfg = d.cfg := rfl
@[simp] theorem Dev.setPort_svc (p : Nat) (x : Port) : (d.setPort p x).svc = d.svc := rfl
@[simp] theorem Dev.setPort_hlt (p : Nat) (x : Port) : (d.setPort p x).hlt = d.hlt := rfl
@[simp] theorem Dev.setPort_flt (p : Nat) (x : Port) : (d.setPort p x).flt = d.flt := rfl
@[simp] theorem Dev.setPort_evt (p : Nat) (x : Port) : (d.setPort p x).evt = d.evt := rfl
@[simp] theorem Dev.setPort_rd (p : Nat) (x : Port) (g : Fld) (j : Nat) : (d.setPort p x).rd g j = d.rd g j := rfl
@[simp] theorem Dev.setPort_ld8 (p : Nat) (x : Port) (k : Nat) : (d.setPort p x).ld8 k = d.ld8 k := rfl

/-! ### setDmaCh changes dma only -/

@[simp] theorem Dev.setDmaCh_now (c : Nat) (x : DmaCh) : (d.setDmaCh c x).now = d.now := rfl
@[simp] theorem Dev.setDmaCh_regs (c : Nat) (x : DmaCh) : (d.setDmaCh c x).regs = d.regs := rfl
@[simp] theorem Dev.setDmaCh_mem (c : Nat) (x : DmaCh) : (d.setDmaCh c x).mem = d.mem := rfl
@[simp] theorem Dev.setDmaCh_out (c : Nat) (x : DmaCh) : (d.setDmaCh c x).out = d.out := rfl
@[simp] theorem Dev.setDmaCh_free (c : Nat) (x : DmaCh) : (d.setDmaCh c x).free = d.free := rfl
@[simp] theorem Dev.setDmaCh_timers (c : Nat) (x : DmaCh) : (d.setDmaCh c x).timers = d.timers := rfl
@[simp] theorem Dev.setDmaCh_bus (c : Nat) (x : DmaCh) : (d.setDmaCh c x).bus = d.bus := rfl
@[simp] theorem Dev.setDmaCh_ang (c : Nat) (x : DmaCh) : (d.setDmaCh c x).ang = d.ang := rfl
@[simp] theorem Dev.setDmaCh_lnx (c : Nat) (x : DmaCh) : (d.setDmaCh c x).lnx = d.lnx := rfl
@[simp] theorem Dev.setDmaCh_lanes (c : Nat) (x : DmaCh) : (d.setDmaCh c x).lanes = d.lanes := rfl
@[simp] theorem Dev.setDmaCh_itb (c : Nat) (x : DmaCh) : (d.setDmaCh c x).itb = d.itb := rfl
@[simp] theorem Dev.setDmaCh_tpe (c : Nat) (x : DmaCh) : (d.setDmaCh c x).tpe = d.tpe := rfl
@[simp] theorem Dev.setDmaCh_fsq (c : Nat) (x : DmaCh) : (d.setDmaCh c x).fsq = d.fsq := rfl
@[simp] theorem Dev.setDmaCh_wrf (c : Nat) (x : DmaCh) : (d.setDmaCh c x).wrf = d.wrf := rfl
@[simp] theorem Dev.setDmaCh_srv (c : Nat) (x : DmaCh) : (d.setDmaCh c x).srv = d.srv := rfl
@[simp] theorem Dev.setDmaCh_arm (c : Nat) (x : DmaCh) : (d.setDmaCh c x).arm = d.arm := rfl
@[simp] theorem Dev.setDmaCh_spn (c : Nat) (x : DmaCh) : (d.setDmaCh c x).spn = d.spn := rfl
@[simp] theorem Dev.setDmaCh_mac (c : Nat) (x : DmaCh) : (d.setDmaCh c x).mac = d.mac := rfl
@[simp] theorem Dev.setDmaCh_ve (c : Nat) (x : DmaCh) : (d.setDmaCh c x).ve = d.ve := rfl
@[simp] theorem Dev.setDmaCh_hif (c : Nat) (x : DmaCh) : (d.setDmaCh c x).hif = d.hif := rfl
@[simp] theorem Dev.setDmaCh_dig (c : Nat) (x : DmaCh) : (d.setDmaCh c x).dig = d.dig := rfl
@[simp] theorem Dev.setDmaCh_sch (c : Nat) (x : DmaCh) : (d.setDmaCh c x).sch = d.sch := rfl
@[simp] theorem Dev.setDmaCh_rck (c : Nat) (x : DmaCh) : (d.setDmaCh c x).rck = d.rck := rfl
@[simp] theorem Dev.setDmaCh_chk (c : Nat) (x : DmaCh) : (d.setDmaCh c x).chk = d.chk := rfl
@[simp] theorem Dev.setDmaCh_memx (c : Nat) (x : DmaCh) : (d.setDmaCh c x).memx = d.memx := rfl
@[simp] theorem Dev.setDmaCh_cmp (c : Nat) (x : DmaCh) : (d.setDmaCh c x).cmp = d.cmp := rfl
@[simp] theorem Dev.setDmaCh_cfg (c : Nat) (x : DmaCh) : (d.setDmaCh c x).cfg = d.cfg := rfl
@[simp] theorem Dev.setDmaCh_svc (c : Nat) (x : DmaCh) : (d.setDmaCh c x).svc = d.svc := rfl
@[simp] theorem Dev.setDmaCh_hlt (c : Nat) (x : DmaCh) : (d.setDmaCh c x).hlt = d.hlt := rfl
@[simp] theorem Dev.setDmaCh_flt (c : Nat) (x : DmaCh) : (d.setDmaCh c x).flt = d.flt := rfl
@[simp] theorem Dev.setDmaCh_evt (c : Nat) (x : DmaCh) : (d.setDmaCh c x).evt = d.evt := rfl
@[simp] theorem Dev.setDmaCh_rd (c : Nat) (x : DmaCh) (g : Fld) (j : Nat) : (d.setDmaCh c x).rd g j = d.rd g j := rfl
@[simp] theorem Dev.setDmaCh_ld8 (c : Nat) (x : DmaCh) (k : Nat) : (d.setDmaCh c x).ld8 k = d.ld8 k := rfl

end Sys2Proof.Machine
end

