-- ==== Sys2Proof/Laws/Gates.lean ====
section
/-! SUPPORT. What closing the gates of lanes and idling writer outputs does, and what the interlock leaves when the angle base is
not valid (R21, R87, R281). -/

namespace Sys2Proof.Machine

variable (d : Dev)

@[simp] theorem Dev.lane_setLane_self (l : Nat) (x : Lane) : (d.setLane l x).lane l = x := by simp [Dev.lane, Dev.setLane]

theorem Dev.lane_setLane_ne {l j : Nat} (x : Lane) (h : j ≠ l) : (d.setLane l x).lane j = d.lane j := by
  simp [Dev.lane, Dev.setLane, Tab.getD_put_ne _ _ _ h]

/-- Two devices whose sequencers are the same and whose lanes have the same gates open. -/
def Dev.sameGates (d e : Dev) : Prop :=
  e.fsq = d.fsq ∧ ∀ j, (e.lane j).gateAt = (d.lane j).gateAt ∧ (e.lane j).servoAt = (d.lane j).servoAt

theorem Dev.sameGates_of {d e : Dev} (hf : e.fsq = d.fsq) (hl : e.lanes = d.lanes) : d.sameGates e :=
  ⟨hf, fun j => by simp [Dev.lane, hl]⟩

theorem Dev.sameGates_trans {d e f : Dev} (h : d.sameGates e) (g : e.sameGates f) : d.sameGates f :=
  ⟨g.1.trans h.1, fun j => ⟨(g.2 j).1.trans (h.2 j).1, (g.2 j).2.trans (h.2 j).2⟩⟩

/-- A lane's record set to one with the same gates open. -/
theorem Dev.sameGates_setLane (l : Nat) (x : Lane) (hg : x.gateAt = (d.lane l).gateAt) (hs : x.servoAt = (d.lane l).servoAt) :
    d.sameGates (d.setLane l x) := by
  refine ⟨rfl, fun j => ?_⟩
  by_cases h : j = l
  · subst h; simp [hg, hs]
  · simp [d.lane_setLane_ne x h]

theorem Dev.agcRun_sameGates (l n : Nat) (m : Option Nat) : d.sameGates (d.agcRun l n m) := by
  have h : ∀ (f : Fld) (i v : Nat), d.sameGates (d.used.wr f i v) := fun _ _ _ => Dev.sameGates_of rfl rfl
  unfold Dev.agcRun
  split
  · exact Dev.sameGates_of rfl rfl
  · exact h _ _ _

theorem Dev.timingRun_sameGates (l : Nat) : d.sameGates (d.timingRun l) := by
  have h : ∀ (f g : Fld) (i v w : Nat), d.sameGates ((d.used.used.wr f i v).wr g i w) := fun _ _ _ _ _ => Dev.sameGates_of rfl rfl
  have k : ∀ e : Dev, e.sameGates (e.stick .LANE_STAT_TLCLAMP l) := fun _ => Dev.sameGates_of rfl rfl
  unfold Dev.timingRun
  split
  · exact Dev.sameGates_of rfl rfl
  · dsimp only
    split
    · exact Dev.sameGates_trans (h _ _ _ _ _) (k _)
    · exact h _ _ _ _ _

theorem Dev.adaptRun_sameGates (l : Nat) : d.sameGates (d.adaptRun l) := by
  unfold Dev.adaptRun
  split
  · exact Dev.sameGates_of rfl rfl
  · exact Dev.sameGates_setLane { d with free := d.free + 16 } l _ rfl rfl

/-- The loops of a lane open and close no gate. -/
theorem Dev.loopsRun_sameGates (l : Nat) (m : Option Nat) : d.sameGates (d.loopsRun l m) := by
  unfold Dev.loopsRun
  dsimp only
  split
  · exact Dev.sameGates_of rfl rfl
  · exact Dev.sameGates_trans (Dev.sameGates_trans (Dev.sameGates_trans (d.agcRun_sameGates l _ m) (Dev.timingRun_sameGates _ l))
      (Dev.adaptRun_sameGates _ l)) (Dev.sameGates_setLane _ l _ rfl rfl)

/-- The gate of lane `l` is closed; no other gate moves. -/
theorem Dev.endGate_gates (l n : Nat) : (d.endGate l n).fsq = d.fsq ∧
    ∀ j, ((d.endGate l n).lane j).gateAt = (if j = l then none else (d.lane j).gateAt) ∧
      ((d.endGate l n).lane j).servoAt = (d.lane j).servoAt := by
  have h := d.loopsRun_sameGates l none
  unfold Dev.endGate
  dsimp only
  split
  · rename_i g
    refine ⟨rfl, fun j => ⟨?_, rfl⟩⟩
    split
    · rename_i e; subst e; simpa using g
    · rfl
  · refine ⟨h.1, fun j => ?_⟩
    by_cases e : j = l
    · subst e
      simp only [Dev.lane_setLane_self, if_true]
      rw [← (h.2 j).2]
      unfold Lane.closeGate
      split <;> simp_all
    · rw [Dev.lane_setLane_ne _ _ e, if_neg e]
      exact h.2 j

/-- The servo gate of lane `l` is closed; no other gate moves. -/
theorem Dev.endServo_gates (l : Nat) : (d.endServo l).fsq = d.fsq ∧
    ∀ j, ((d.endServo l).lane j).gateAt = (d.lane j).gateAt ∧
      ((d.endServo l).lane j).servoAt = (if j = l then none else (d.lane j).servoAt) := by
  unfold Dev.endServo
  dsimp only
  split
  · rename_i h
    refine ⟨rfl, fun j => ⟨rfl, ?_⟩⟩
    split
    · rename_i e; subst e; simpa using h
    · rfl
  · refine ⟨rfl, fun j => ?_⟩
    show ((d.setLane l { (d.lane l).closeServo (d.laneEdge l) with loopAt := d.laneEdge l }).lane j).gateAt = _ ∧
      ((d.setLane l { (d.lane l).closeServo (d.laneEdge l) with loopAt := d.laneEdge l }).lane j).servoAt = _
    by_cases e : j = l
    · subst e
      simp only [Dev.lane_setLane_self, if_true]
      unfold Lane.closeServo
      split <;> simp_all
    · rw [Dev.lane_setLane_ne _ _ e, if_neg e]
      exact ⟨rfl, rfl⟩

/-- Lanes whose entries have been visited have their gates closed, and no sequencer moves. -/
theorem Dev.shutLanes (l : List (Nat × Lane)) : ∀ d : Dev,
    let e := l.foldl (fun d (x : Nat × Lane) => (d.endGate x.1 (d.laneEdge x.1)).endServo x.1) d
    e.fsq = d.fsq ∧ ∀ j, (j ∈ l.map Prod.fst ∨ ((d.lane j).gateAt = none ∧ (d.lane j).servoAt = none)) →
      (e.lane j).gateAt = none ∧ (e.lane j).servoAt = none := by
  induction l with
  | nil => intro d; exact ⟨rfl, fun j h => by simpa using h⟩
  | cons x l ih =>
    intro d
    have g := d.endGate_gates x.1 (d.laneEdge x.1)
    have s := (d.endGate x.1 (d.laneEdge x.1)).endServo_gates x.1
    have i := ih ((d.endGate x.1 (d.laneEdge x.1)).endServo x.1)
    refine ⟨i.1.trans (s.1.trans g.1), fun j h => i.2 j ?_⟩
    by_cases e : j = x.1
    · exact .inr ⟨by rw [(s.2 j).1, (g.2 j).1, if_pos e], by rw [(s.2 j).2, if_pos e]⟩
    · rcases h with h | h
      · simp only [List.map_cons, List.mem_cons] at h
        exact .inl (h.resolve_left e)
      · exact .inr ⟨by rw [(s.2 j).1, (g.2 j).1, if_neg e, h.1], by rw [(s.2 j).2, if_neg e, (g.2 j).2, h.2]⟩

/-- A lane that has no record has no gate open. -/
theorem Dev.lane_absent {d : Dev} {j : Nat} (h : j ∉ d.lanes.map Prod.fst) : d.lane j = Lane.init := by
  have : Tab.look d.lanes j = none := by
    generalize d.lanes = t at h
    induction t with
    | nil => rfl
    | cons x t ih =>
      simp only [List.map_cons, List.mem_cons, not_or] at h
      simp only [Tab.look, if_neg (Ne.symm h.1)]
      exact ih h.2
  simp [Dev.lane, Tab.getD, this]

/-- An output that goes idle: it drives no more, and neither the lanes nor another output's state change. -/
theorem Dev.idleOutput_gates (s : Nat) : (d.idleOutput s).fsq = d.fsq ∧ (d.idleOutput s).lanes = d.lanes ∧
    ∀ j, (d.idleOutput s).rd .WRF_SSTAT_DRIVING j = if j = s then 0 else d.rd .WRF_SSTAT_DRIVING j := by
  have h : ∀ e : Dev, e.fsq = d.fsq → e.lanes = d.lanes → e.regs = d.regs → (e.wr .WRF_SSTAT_DRIVING s 0).fsq = d.fsq ∧
      (e.wr .WRF_SSTAT_DRIVING s 0).lanes = d.lanes ∧
      ∀ j, (e.wr .WRF_SSTAT_DRIVING s 0).rd .WRF_SSTAT_DRIVING j = if j = s then 0 else d.rd .WRF_SSTAT_DRIVING j := by
    intro e h1 h2 h3
    refine ⟨h1, h2, fun j => ?_⟩
    by_cases g : j = s
    · subst g; simp
    · rw [if_neg g, Dev.rd_wr_ne _ _ (fun x => g x.2)]
      simp [Dev.rd, h3]
  have launch : ∀ n, (d.launchTo s n).fsq = d.fsq ∧ (d.launchTo s n).lanes = d.lanes ∧ (d.launchTo s n).regs = d.regs := by
    intro n
    unfold Dev.launchTo
    dsimp only
    split <;> exact ⟨rfl, rfl, rfl⟩
  unfold Dev.idleOutput
  cases (d.seq s).job with
  | none => exact h d rfl rfl rfl
  | some j =>
    dsimp only
    split
    · exact h d rfl rfl rfl
    · exact h _ (launch _).1 (launch _).2.1 (launch _).2.2

theorem Dev.idleOutputs (l : List Nat) : ∀ d : Dev, (l.foldl Dev.idleOutput d).fsq = d.fsq ∧ (l.foldl Dev.idleOutput d).lanes = d.lanes ∧
    ∀ j, (j ∈ l ∨ d.rd .WRF_SSTAT_DRIVING j = 0) → (l.foldl Dev.idleOutput d).rd .WRF_SSTAT_DRIVING j = 0 := by
  induction l with
  | nil => intro d; exact ⟨rfl, rfl, fun j h => by simpa using h⟩
  | cons s l ih =>
    intro d
    have g := d.idleOutput_gates s
    have i := ih (d.idleOutput s)
    refine ⟨i.1.trans g.1, i.2.1.trans g.2.1, fun j h => i.2.2 j ?_⟩
    by_cases e : j = s
    · exact .inr (by rw [g.2.2 j, if_pos e])
    · rcases h with h | h
      · exact .inl ((List.mem_cons.mp h).resolve_left e)
      · exact .inr (by rw [g.2.2 j, if_neg e, h])

/-- What the interlock leaves while the angle base is not valid: every gate closed and every writer output idle (R21, R87). -/
theorem Dev.interlock_shut {d : Dev} (h : ¬ d.angValid = true) :
    (∀ q x, (q, x) ∈ d.interlock.fsq.seqs → x.rgLead = false ∧ x.rgTrail = false ∧ x.wg = false ∧ x.vg = false) ∧
    (∀ l, (d.interlock.lane l).gateAt = none ∧ (d.interlock.lane l).servoAt = none) ∧
    ∀ s, s < 32 → d.interlock.rd .WRF_SSTAT_DRIVING s = 0 := by
  unfold Dev.interlock
  rw [if_neg h]
  dsimp only
  have a := Dev.shutLanes d.lanes { d with fsq := { d.fsq with seqs := d.fsq.seqs.map fun e => (e.1, e.2.shut) } }
  dsimp only at a
  revert a
  generalize d.lanes.foldl _ _ = e
  intro a
  have b := Dev.idleOutputs (List.range 32) e
  refine ⟨fun q x hx => ?_, fun l => ?_, fun s hs => b.2.2 s (.inl (List.mem_range.mpr hs))⟩
  · rw [b.1, a.1] at hx
    simp only [List.mem_map] at hx
    obtain ⟨y, _, hy⟩ := hx
    cases hy
    simp [Seq.shut]
  · have hl : ((List.range 32).foldl Dev.idleOutput e).lane l = e.lane l := by simp [Dev.lane, b.2.1]
    rw [hl]
    refine a.2 l ?_
    by_cases m : l ∈ d.lanes.map Prod.fst
    · exact .inl m
    · have : d.lane l = Lane.init := Dev.lane_absent m
      exact .inr (by show (d.lane l).gateAt = none ∧ (d.lane l).servoAt = none; rw [this]; exact ⟨rfl, rfl⟩)

/-! ### Where nothing drives -/

theorem Dev.onlyRegs_refl (d : Dev) : d.onlyRegs d [] := ⟨rfl, fun _ _ _ => rfl⟩

theorem Dev.onlyRegs_trans {d e f : Dev} (h : d.onlyRegs e []) (g : e.onlyRegs f []) : d.onlyRegs f [] := by
  refine ⟨?_, fun x i _ => (g.2 x i (by simp)).trans (h.2 x i (by simp))⟩
  have hr : ({ e with regs := f.regs } : Dev) = { ({ d with regs := e.regs } : Dev) with regs := f.regs } :=
    congrArg (fun x : Dev => { x with regs := f.regs }) h.1
  exact g.1.trans hr

/-- A field that is written with the value it holds. -/
theorem Dev.onlyRegs_same {d : Dev} {f : Fld} {i : Nat} (h : d.rd f i = 0) : d.onlyRegs (d.wr f i 0) [] := by
  refine ⟨rfl, fun g j _ => ?_⟩
  by_cases e : g = f ∧ j = i
  · rw [e.1, e.2, Dev.rd_wr_self, h, Nat.zero_mod]
  · exact Dev.rd_wr_ne _ _ e

/-- No writer holds a job, and none of the listed outputs drives. -/
def Dev.still (d : Dev) (l : List Nat) : Prop := d.wrf.slots = [] ∧ ∀ s ∈ l, d.rd .WRF_SSTAT_DRIVING s = 0

theorem Dev.still_of {d e : Dev} {l : List Nat} (h : d.still l) (g : d.onlyRegs e []) : e.still l :=
  ⟨by rw [g.1]; exact h.1, fun s hs => by rw [g.2 _ _ (by simp)]; exact h.2 s hs⟩

theorem Dev.wslot_still {d : Dev} {l : List Nat} (h : d.still l) (s : Nat) : d.wslot s = Wslot.init := by
  simp [Dev.wslot, h.1, Tab.getD, Tab.look]

theorem Dev.idleOutput_still {d : Dev} {l : List Nat} {s : Nat} (h : d.still l) (hs : s ∈ l) : d.onlyRegs (d.idleOutput s) [] := by
  have e : d.idleOutput s = d.wr .WRF_SSTAT_DRIVING s 0 := by
    unfold Dev.idleOutput
    cases (d.seq s).job with
    | none => rfl
    | some j => simp only [Dev.wslot_still h, Wslot.init]; rfl
  rw [e]
  exact Dev.onlyRegs_same (h.2 s hs)

theorem Dev.checkFence_still {d : Dev} {l : List Nat} {s : Nat} (h : d.still l) (hs : s ∈ l) : d.onlyRegs (d.checkFence s) [] := by
  unfold Dev.checkFence
  split
  · have i := Dev.idleOutput_still h hs
    unfold Dev.goIdle
    dsimp only
    have w := Dev.wslot_still (Dev.still_of h i) s
    rw [w]
    cases ((d.idleOutput s).seq s).job <;> exact i
  · exact Dev.onlyRegs_refl d

/-- What leaves a device that is still as it is may be repeated. -/
theorem Dev.foldl_still {g : Dev → Nat → Dev} {l : List Nat}
    (hg : ∀ (d : Dev) (s : Nat), d.still l → s ∈ l → d.onlyRegs (g d s) []) :
    ∀ (k : List Nat), (∀ s ∈ k, s ∈ l) → ∀ d : Dev, d.still l → d.onlyRegs (k.foldl g d) [] := by
  intro k
  induction k with
  | nil => intro _ d _; exact d.onlyRegs_refl
  | cons s k ih =>
    intro hk d h
    have g1 := hg d s h (hk s List.mem_cons_self)
    exact Dev.onlyRegs_trans g1 (ih (fun s hs => hk s (List.mem_cons_of_mem _ hs)) _ (Dev.still_of h g1))

/-- Closing the gates of lanes that have none open. -/
theorem Dev.shutLanes_closed {d : Dev} (l : List (Nat × Lane)) (h : ∀ e ∈ l, (d.lane e.1).closed = true) :
    l.foldl (fun d (x : Nat × Lane) => (d.endGate x.1 (d.laneEdge x.1)).endServo x.1) d = d := by
  induction l with
  | nil => rfl
  | cons x l ih =>
    have hx := h x List.mem_cons_self
    simp only [Lane.closed, Bool.and_eq_true] at hx
    have e1 : d.endGate x.1 (d.laneEdge x.1) = d := by unfold Dev.endGate; rw [if_pos hx.1]
    have e2 : d.endServo x.1 = d := by unfold Dev.endServo; exact if_pos hx.2
    rw [List.foldl_cons, e1, e2]
    exact ih fun e he => h e (List.mem_cons_of_mem _ he)

/-- Where the gates are safe and no output drives, the interlock changes nothing (R21). -/
theorem Dev.interlock_still {d : Dev} (h : d.still (List.range 32)) (hg : d.gatesSafe = true) : d.onlyRegs d.interlock [] := by
  unfold Dev.interlock
  split
  · exact d.onlyRegs_refl
  · rename_i hv
    have hq : d.quietDisk = true := by simpa [Dev.gatesSafe, hv] using hg
    simp only [Dev.quietDisk, Bool.and_eq_true] at hq
    have hs : (d.fsq.seqs.map fun e => (e.1, e.2.shut)) = d.fsq.seqs := by
      conv_rhs => rw [← List.map_id d.fsq.seqs]
      apply List.map_congr_left
      intro e he
      have hc := (List.all_eq_true.mp hq.1.1) e he
      obtain ⟨k, q⟩ := e
      simp [Seq.closed] at hc
      obtain ⟨⟨⟨a1, a2⟩, a3⟩, a4⟩ := hc
      have hshut : q.shut = q := by
        cases q
        simp only at a1 a2 a3 a4
        subst a1 a2 a3 a4
        rfl
      simp only [hshut, id]
    dsimp only
    rw [hs]
    rw [Dev.shutLanes_closed d.lanes fun e he => (List.all_eq_true.mp hq.1.2) e he]
    exact Dev.foldl_still (fun d s h hs => Dev.idleOutput_still h hs) _ (fun _ hs => hs) _ h

end Sys2Proof.Machine
end

