-- ==== Sys2Proof/Laws/Memory.lean ====
section
/-! SUPPORT. Byte memory: every operation keeps its canonical form, a byte written reads back and every other byte stays, and a
store changes no register but the flip-mask test's own (R531). -/

namespace Sys2Proof.Machine

/-! ### What a store leaves -/

/-- The state of a flip-mask test, the only register that a store of memory changes. -/
def Fld.flipTest (f : Fld) : Bool := f == .MEM_FLIPCTL_ARM || f == .MEM_FLIPCTL_DONE

@[simp] theorem Dev.cleanWord_mem (d : Dev) (w : Nat) : (d.cleanWord w).mem = d.mem := by unfold Dev.cleanWord; split <;> rfl
@[simp] theorem Dev.cleanWord_regs (d : Dev) (w : Nat) : (d.cleanWord w).regs = d.regs := by unfold Dev.cleanWord; split <;> rfl

@[simp] theorem Dev.flipWord_mem (d : Dev) (w : Nat) : (d.flipWord w).mem = d.mem := by
  unfold Dev.flipWord
  split
  · rfl
  · cases d.flipped w <;> (simp only; split <;> rfl)

theorem Dev.flipWord_rd (d : Dev) (w : Nat) {f : Fld} (i : Nat) (h : f.flipTest = false) : (d.flipWord w).rd f i = d.rd f i := by
  simp only [Fld.flipTest, Bool.or_eq_false_iff, beq_eq_false_iff_ne] at h
  unfold Dev.flipWord
  split
  · rfl
  · cases d.flipped w <;>
      (simp only; split <;> (try rw [Dev.rd_wr_of_ne _ _ _ _ h.2, Dev.rd_wr_of_ne _ _ _ _ h.1]) <;> rfl)

/-- The memory after a byte store. -/
theorem Dev.st8_mem (d : Dev) (a : Nat) (b : Byte) : (d.st8 a b).mem = Tab.store d.mem memBlank a b := by
  simp [Dev.st8]

theorem Dev.st8_rd (d : Dev) (a : Nat) (b : Byte) {f : Fld} (i : Nat) (h : f.flipTest = false) : (d.st8 a b).rd f i = d.rd f i := by
  unfold Dev.st8
  rw [Dev.flipWord_rd _ _ _ h]
  unfold Dev.rd
  rw [Dev.cleanWord_regs]

theorem Dev.stN_rd (d : Dev) (a v n : Nat) {f : Fld} (i : Nat) (h : f.flipTest = false) : (d.stN a v n).rd f i = d.rd f i := by
  induction n generalizing d a v with
  | zero => rfl
  | succ n ih => rw [Dev.stN, ih, Dev.st8_rd _ _ _ _ h]

theorem Dev.mstN_rd (d : Dev) (a v n : Nat) {f : Fld} (i : Nat) (h : f.flipTest = false) : (d.mstN a v n).rd f i = d.rd f i := by
  induction n generalizing d a v with
  | zero => rfl
  | succ n ih =>
    rw [Dev.mstN, ih]
    split
    · rfl
    · exact Dev.st8_rd _ _ _ _ h

theorem Dev.st32_rd (d : Dev) (a v : Nat) {f : Fld} (i : Nat) (h : f.flipTest = false) : (d.st32 a v).rd f i = d.rd f i :=
  Dev.stN_rd d a v 4 i h

theorem Dev.stBytes_rd (d : Dev) (a : Nat) (bs : List Byte) {f : Fld} (i : Nat) (h : f.flipTest = false) :
    (d.stBytes a bs).rd f i = d.rd f i := by
  induction bs generalizing d a with
  | nil => rfl
  | cons b bs ih => rw [Dev.stBytes, ih, Dev.st8_rd _ _ _ _ h]

theorem Dev.putBytes_rd (d : Dev) (a : Nat) (bs : List Byte) {f : Fld} (i : Nat) (h : f.flipTest = false) :
    (d.putBytes a bs).rd f i = d.rd f i := Dev.stBytes_rd d a bs i h

/-! ### The canonical form -/

theorem Memory.wf_iff (m : Tab Byte) : Memory.wf m = true ↔ Tab.Sorted m ∧ ∀ e ∈ m, e.2 ≠ memBlank := by
  simp [Memory.wf, Tab.Sorted]

theorem Memory.wf_store {m : Tab Byte} (a : Nat) (b : Byte) (h : Memory.wf m = true) :
    Memory.wf (Tab.store m memBlank a b) = true := by
  rw [Memory.wf_iff] at h ⊢
  refine ⟨Tab.sorted_store _ _ _ h.1, fun e he => ?_⟩
  rcases Tab.mem_store m he with ⟨rfl, hb⟩ | he
  · exact hb
  · exact h.2 e he

theorem Dev.wf_st8 {d : Dev} (a : Nat) (b : Byte) (h : Memory.wf d.mem = true) : Memory.wf (d.st8 a b).mem = true := by
  rw [Dev.st8_mem]; exact Memory.wf_store a b h

theorem Dev.wf_stN {d : Dev} (a v n : Nat) (h : Memory.wf d.mem = true) : Memory.wf (d.stN a v n).mem = true := by
  induction n generalizing d a v with
  | zero => exact h
  | succ n ih => exact ih _ _ (Dev.wf_st8 a _ h)

theorem Dev.wf_st32 {d : Dev} (a v : Nat) (h : Memory.wf d.mem = true) : Memory.wf (d.st32 a v).mem = true := Dev.wf_stN a v 4 h

theorem Dev.wf_stBytes {d : Dev} (a : Nat) (bs : List Byte) (h : Memory.wf d.mem = true) : Memory.wf (d.stBytes a bs).mem = true := by
  induction bs generalizing d a with
  | nil => exact h
  | cons b bs ih => exact ih _ (Dev.wf_st8 a b h)

theorem Dev.wf_putBytes {d : Dev} (a : Nat) (bs : List Byte) (h : Memory.wf d.mem = true) : Memory.wf (d.putBytes a bs).mem = true :=
  Dev.wf_stBytes a bs h

theorem Dev.wf_stWords {d : Dev} (a : Nat) (ws : List Nat) (h : Memory.wf d.mem = true) : Memory.wf (d.stWords a ws).mem = true := by
  induction ws generalizing d a with
  | nil => exact h
  | cons w ws ih => exact ih _ (Dev.wf_st32 a w h)

theorem Dev.wf_mstN {d : Dev} (a v n : Nat) (h : Memory.wf d.mem = true) : Memory.wf (d.mstN a v n).mem = true := by
  induction n generalizing d a v with
  | zero => exact h
  | succ n ih =>
    rw [Dev.mstN]
    split
    · exact ih _ _ h
    · exact ih _ _ (Dev.wf_st8 a _ h)

theorem Dev.wf_mputBytes {d : Dev} (a : Nat) (bs : List Byte) (h : Memory.wf d.mem = true) : Memory.wf (d.mputBytes a bs).mem = true :=
  Dev.wf_putBytes a _ h

theorem Dev.wf_copyMem {d : Dev} (src dst n : Nat) (h : Memory.wf d.mem = true) : Memory.wf (d.copyMem src dst n).mem = true :=
  Dev.wf_stBytes dst _ h

theorem Dev.wf_dropMem {d : Dev} (p : Nat → Bool) (h : Memory.wf d.mem = true) : Memory.wf (d.dropMem p).mem = true := by
  rw [Memory.wf_iff] at h ⊢
  exact ⟨List.Pairwise.filter _ h.1, fun e he => h.2 e (List.mem_of_mem_filter he)⟩

theorem Dev.wf_refill {d : Dev} (t : Tab Byte) (a n : Nat) (h : Memory.wf d.mem = true) : Memory.wf (d.refill t a n).mem = true := by
  unfold Dev.refill
  generalize List.range n = l
  show Memory.wf (l.foldl _ d.mem) = true
  generalize d.mem = m at h
  induction l generalizing m with
  | nil => exact h
  | cons k l ih => exact ih _ (Memory.wf_store _ _ h)

/-! ### Reading back -/

@[simp] theorem Dev.ld8_st8_self (d : Dev) (a : Nat) (b : Byte) : (d.st8 a b).ld8 a = b := by
  unfold Dev.ld8
  rw [Dev.st8_mem]
  exact Tab.getD_store_self _ memBlank b a

theorem Dev.ld8_st8_ne (d : Dev) {a k : Nat} (b : Byte) (h : k ≠ a) : (d.st8 a b).ld8 k = d.ld8 k := by
  unfold Dev.ld8
  rw [Dev.st8_mem]
  exact Tab.getD_store_ne _ _ _ _ h

/-- A store of `n` bytes leaves every byte outside them. -/
theorem Dev.ld8_stN_out (d : Dev) {a n k : Nat} (v : Nat) (h : k < a ∨ a + n ≤ k) : (d.stN a v n).ld8 k = d.ld8 k := by
  induction n generalizing d a v with
  | zero => rfl
  | succ n ih => rw [Dev.stN, ih _ _ (by omega), Dev.ld8_st8_ne _ _ (by omega)]

/-- Which bytes are closed to the masters does not change with what is stored. -/
theorem Dev.closed_st8 (d : Dev) (a k : Nat) (b : Byte) : (d.st8 a b).closed k = d.closed k := by
  have h : ∀ (f : Fld), f.flipTest = false → (d.st8 a b).rd f 0 = d.rd f 0 := fun f hf => Dev.st8_rd d a b 0 hf
  simp only [Dev.closed, Dev.on, h .SYS_STAT_HANDOVER rfl, h .TPE_ZONEBASE_BASE rfl, h .TPE_ZONECNT_COUNT rfl, h .TPE_LAYBASE_BASE rfl,
    h .TPE_LAYCNT_COUNT rfl, h .CFG_STAT_RESTORED rfl, h .TPE_DEFLO_ADDR rfl, h .TPE_DEFHI_ADDR rfl, h .TPE_DEFCNT_COUNT rfl,
    h .HLT_LEDGERLO_ADDR rfl, h .HLT_LEDGERHI_ADDR rfl, h .HLT_LEDGERHI_NSURF rfl]

/-- A master's store that meets no closed byte is a plain store. -/
theorem Dev.mstN_open (d : Dev) {a n : Nat} (v : Nat) (h : ∀ k, a ≤ k → k < a + n → d.closed k = false) :
    d.mstN a v n = d.stN a v n := by
  induction n generalizing d a v with
  | zero => rfl
  | succ n ih =>
    rw [Dev.mstN, Dev.stN, if_neg (by rw [h a (by omega) (by omega)]; decide)]
    exact ih _ _ fun k hk hn => by rw [Dev.closed_st8]; exact h k (by omega) (by omega)

/-- A master's store leaves every byte outside it, and every closed byte (R196, R234). -/
theorem Dev.ld8_mstN_out (d : Dev) {a n k : Nat} (v : Nat) (h : (k < a ∨ a + n ≤ k) ∨ d.closed k = true) :
    (d.mstN a v n).ld8 k = d.ld8 k := by
  induction n generalizing d a v with
  | zero => rfl
  | succ n ih =>
    rw [Dev.mstN]
    split
    · exact ih _ _ (h.imp_left (by omega))
    · rename_i hc
      rw [ih _ _ (by rw [Dev.closed_st8]; exact h.imp_left (by omega))]
      refine Dev.ld8_st8_ne _ _ ?_
      rintro rfl
      rcases h with h | h
      · omega
      · exact hc h

theorem Dev.ld8_stBytes_out (d : Dev) {a k : Nat} (bs : List Byte) (h : k < a ∨ a + bs.length ≤ k) :
    (d.stBytes a bs).ld8 k = d.ld8 k := by
  induction bs generalizing d a with
  | nil => rfl
  | cons b bs ih =>
    rw [List.length_cons] at h
    rw [Dev.stBytes, ih _ (by omega), Dev.ld8_st8_ne _ _ (by omega)]

/-- Bytes written read back. -/
theorem Dev.ld8_stBytes (d : Dev) {a k : Nat} (bs : List Byte) (hk : k < bs.length) :
    (d.stBytes a bs).ld8 (a + k) = bs.getD k 0 := by
  induction bs generalizing d a k with
  | nil => simp at hk
  | cons b bs ih =>
    cases k with
    | zero => rw [Dev.stBytes, Dev.ld8_stBytes_out _ _ (by omega)]; exact Dev.ld8_st8_self d a b
    | succ k =>
      rw [Dev.stBytes, show a + (k + 1) = a + 1 + k by omega, ih _ (by simpa using hk)]
      simp

/-- A value stored in `n` bytes reads back, cut to them. -/
theorem Dev.ldN_stN (d : Dev) (a v n : Nat) : (d.stN a v n).ldN a n = v % 256 ^ n := by
  induction n generalizing d a v with
  | zero => simp [Dev.ldN, Nat.mod_one]
  | succ n ih =>
    rw [Dev.stN, Dev.ldN, ih, Dev.ld8_stN_out _ _ (by omega), Dev.ld8_st8_self]
    simp only [BitVec.toNat_ofNat]
    have h1 := Nat.mod_mul (x := v) (a := 256) (b := 256 ^ n)
    have h2 : 256 ^ (n + 1) = 256 * 256 ^ n := by rw [Nat.pow_succ, Nat.mul_comm]
    rw [h2, h1]

end Sys2Proof.Machine
end

