-- ==== Sys2Proof/Laws/Micro.lean ====
section
/-! SUPPORT. What a micro-op does when its turn has come, and when its step is illegal. -/

namespace Sys2Proof.Machine

/-- A micro-op whose turn has come acts. -/
theorem Dev.uop_ready {d : Dev} {e w : Nat} (mine : Dev → Nat → Bool) (f : Dev → Nat → Dev) (h : d.microReady e w = true)
    (hm : mine d w = true) : d.uop e mine f = f d w := by
  simp only [Dev.microReady, Bool.and_eq_true, Bool.or_eq_true, Bool.not_eq_true', beq_iff_eq, bne_iff_ne, ne_eq] at h
  obtain ⟨⟨⟨h1, h2⟩, h3⟩, h4⟩ := h
  have hr : (d.veState e != 2 || (d.eng e).run.isNone) = false := by
    cases hx : (d.eng e).run <;> simp_all
  unfold Dev.uop
  rw [if_neg (by rw [hr]; decide)]
  rcases h4 with h4 | ⟨⟨h4, h5⟩, h6⟩
  · rw [if_neg (fun h => h4 h.1), if_neg (fun h => h4 h.1), if_neg (fun h => h4 h.1), h3]
    exact if_pos hm
  · rw [if_neg (by rw [h4]; simp), if_neg (by rw [h5]; simp), if_neg (by rw [h6]; simp), h3]
    exact if_pos hm

/-- The command of a micro-op the step does not hold there has no effect. -/
theorem Dev.uop_other {d : Dev} {e w : Nat} (mine : Dev → Nat → Bool) (f : Dev → Nat → Dev) (h : d.microReady e w = true)
    (hm : mine d w = false) : d.uop e mine f = d := by
  simp only [Dev.microReady, Bool.and_eq_true, Bool.or_eq_true, Bool.not_eq_true', beq_iff_eq, bne_iff_ne, ne_eq] at h
  obtain ⟨⟨⟨h1, h2⟩, h3⟩, h4⟩ := h
  have hr : (d.veState e != 2 || (d.eng e).run.isNone) = false := by
    cases hx : (d.eng e).run <;> simp_all
  unfold Dev.uop
  rw [if_neg (by rw [hr]; decide)]
  rcases h4 with h4 | ⟨⟨h4, h5⟩, h6⟩
  · rw [if_neg (fun h => h4 h.1), if_neg (fun h => h4 h.1), if_neg (fun h => h4 h.1), h3]
    exact if_neg (by rw [hm]; decide)
  · rw [if_neg (by rw [h4]; simp), if_neg (by rw [h5]; simp), if_neg (by rw [h6]; simp), h3]
    exact if_neg (by rw [hm]; decide)

/-- A step that is illegal as it begins ends its routine with the cause ILLEGAL (R393, R406). -/
theorem Dev.uop_illegal {d : Dev} {e : Nat} (mine : Dev → Nat → Bool) (f : Dev → Nat → Dev) (h1 : d.veState e = 2)
    (h2 : (d.eng e).run.isSome = true) (h3 : (d.eng e).pos = 0) (h4 : stepLegal (d.stepAt e (d.rd .VE_EPC_PC e)) = false) :
    d.uop e mine f = d.veEnd e 7 := by
  have hr : (d.veState e != 2 || (d.eng e).run.isNone) = false := by
    cases hx : (d.eng e).run <;> simp_all
  unfold Dev.uop
  rw [if_neg (by rw [hr]; decide), if_pos ⟨h3, by rw [h4]; rfl⟩]

end Sys2Proof.Machine
end

