-- ==== Sys2Proof/Laws/Rack.lean ====
section
/-! SUPPORT. What the arrival of a frame does besides its own effect. -/

namespace Sys2Proof.Machine

/-- The receive error counter after a valid frame (R688). -/
def Dev.heardOnce (d : Dev) : Dev := { d with rck := { d.rck with rxerr := min 127 (d.rck.rxerr - 1) } }

/-- A frame of another node, heard by a node that runs and is not alone. -/
theorem Dev.received_other {d : Dev} {src : Nat} (f : Dev → Dev) (h1 : d.rckRuns = true) (h2 : src ≠ d.node)
    (h3 : d.rd .RCK_STAT_SOLO = 0) : d.received src f = f d.heardOnce := by
  have hs : d.heardOnce.on .RCK_STAT_SOLO = false := by
    have : d.heardOnce.rd .RCK_STAT_SOLO = 0 := h3
    simp [Dev.on, this]
  unfold Dev.received
  rw [if_neg (by rw [h1]; decide), if_neg h2]
  congr 1
  unfold Dev.frameHeard
  exact (if_neg h2).trans (if_neg (show ¬ d.heardOnce.on .RCK_STAT_SOLO = true by rw [hs]; decide))

theorem Dev.rckRuns_of {d : Dev} (h1 : d.rd .RCK_CTL_ENABLE ≠ 0) (h2 : d.rd .RCK_STAT_BUSOFF = 0) : d.rckRuns = true := by
  simp [Dev.rckRuns, Dev.on, h1, h2]

end Sys2Proof.Machine
end

