-- ==== Sys2Proof/Laws/RegTable.lean ====
section
/-! SUPPORT. What the register table keeps to: a register's fields are listed from the highest bit down and do not overlap, each
names its register, and each has at least one bit and ends within the word. -/

namespace Sys2Proof.Machine

set_option maxRecDepth 8000

theorem Reg.flds_descend (r : Reg) : r.info.flds.Pairwise fun f g => g.info.lo + g.info.w ≤ f.info.lo := by cases r <;> decide

theorem Reg.flds_own (r : Reg) : ∀ f ∈ r.info.flds, f.info.reg = r := by cases r <;> decide

theorem Fld.in_word (f : Fld) : f.info.lo + f.info.w ≤ 32 ∧ 0 < f.info.w := by cases f <;> decide

end Sys2Proof.Machine
end

