-- ==== Sys2Proof/Laws/Step.lean ====
section
/-! SUPPORT. The frame of every command and of every step: what a step leads to is a device on which the cycle's passing has
acted last, with the waiting commands as the step took them; with TEST_MODE high the device stays as it is (R706). -/

namespace Sys2Proof.Machine

set_option maxRecDepth 4000 in
/-- Every command answers a next state: its own effect, and then the cycle that it takes. Only the power-on reset looks at the pin
TEST_MODE anew. -/
theorem exec_after (c : Instr) (s : State) :
    (∃ d, exec c s = .next (s.after d)) ∨
      ∃ b, c = .powerOnReset b ∧ exec c s = .next { State.after { s with test := false } s.dev.met.powerOn with test := b } := by
  cases c
  case powerOnReset b => exact .inr ⟨b, rfl, rfl⟩
  all_goals exact .inl ⟨_, rfl⟩

/-- A command leaves the waiting commands as they are. -/
theorem exec_pending {c : Instr} {s t : State} (h : exec c s = .next t) : t.pending = s.pending := by
  rcases exec_after c s with ⟨d, hd⟩ | ⟨b, _, hd⟩
  · cases Host.Outcome.next.inj (hd.symm.trans h)
    exact State.after_pending d s
  · cases Host.Outcome.next.inj (hd.symm.trans h)
    exact State.after_pending s.dev.met.powerOn { s with test := false }

/-- The device that a command's own effect leads to has been settled, unless TEST_MODE holds it as it was. -/
theorem State.after_settled (s : State) (d : Dev) :
    (∃ e, (s.after d).dev = Dev.settle e) ∨ (s.test = true ∧ (s.after d).dev = { s.dev with out := [] }) := by
  cases h : s.test
  · exact .inl ⟨_, State.after_dev d h⟩
  · exact .inr ⟨rfl, State.after_held d h⟩

/-- Every next state of a step is one that the passing of a cycle has settled, unless TEST_MODE holds the device as it was. -/
theorem step_settled {s t : State} (h : step s = .next t) :
    (∃ d, t.dev = Dev.settle d) ∨ (s.test = true ∧ t.dev = { s.dev with out := [] }) := by
  unfold step at h
  split at h
  · cases Host.Outcome.next.inj h
    exact State.after_settled s _
  · rename_i c rest _
    rcases exec_after c { s with pending := rest } with ⟨d, hd⟩ | ⟨b, _, hd⟩
    · cases Host.Outcome.next.inj (hd.symm.trans h)
      exact State.after_settled { s with pending := rest } d
    · cases Host.Outcome.next.inj (hd.symm.trans h)
      exact .inl ⟨_, State.after_dev s.dev.met.powerOn (s := { s with pending := rest, test := false }) rfl⟩

end Sys2Proof.Machine
end

