-- ==== Sys2Proof/Tests/Slice0.lean ====
section
/-! SUPPORT. Our own tests: a state that meets the hypotheses of each statement, the well-formedness checks, and the worked examples
of spec/. -/

namespace Sys2Proof.Tests

open Sys2Proof.Machine

set_option Elab.async false
set_option linter.unusedVariables false

/-! ### Small states -/

/-- A read job of head 9 on pair 3, for command engine 0. -/
def aJob : Job :=
  { head := 9, pair := 3, kind := 0, entryw := 0, start := 0, urg := false, surf := 9, track := 5, zone := 0, gen := 1,
    bstripe := 0, fseq := 1, cmdref := 0, buf := 0x1000000000, owner := 0, desc := 0, order := 1,
    entries := [{ slot := 2, role := 0, bufIdx := 0 }, { slot := 3, role := 0, bufIdx := 1 }],
    l := 100, u := 1000, w := 0, svt := 0, spg := 0, rpad := 0, slots := 10, spr := 1, metaSel := 0, prof := 0, ds := 0, ps := 0, gl := 0 }

/-- A context that captures slot 2 of that job on head slot 8. -/
def aCtx : Ctx := State.reset.dev.newCtx 8 aJob 2

/-- A decoded sector of no user bytes with its check value. -/
def aSector : Decoded :=
  { owner := 0, psa := 0x2001, fseq := 1, buf := 0x1000000000, pair := 3, slot := 2, role := 0, head := 9, cal := false, bndry := false,
    gens := [1], bytes := cvBytes (checkValue 0x2001 0 []), drec := [0, 0, 0x2001, 0] }

/-- A reconstruction request for a track of the zone below. -/
def aRecon : ReconReq := { owner := 0, surf := 9, track := 4, stripe := 1, fill := 4, parityBad := false, members := [] }

/-- A device whose register file holds the listed fields (field, instance, value). -/
def mk (l : List (Fld × Nat × Nat)) : State := { State.reset with dev := { regs := l.foldl (fun r e => r.set e.1 e.2.1 e.2.2) [] } }

/-- A device with one zone, tracks 0 to 5 of surface 9 with the last ones spare, and the track parity engine at work. -/
def zoned (spr sptrk : Nat) : State :=
  let s := mk [(.TPE_CTL_ENABLE, 0, 1), (.TPE_CTL_RECON, 0, 1), (.TPE_DEFMAX_MAX, 0, 5)]
  let d := s.dev.stWords tableSram [0x80000000 + 9 * 2 ^ 26, 5, spr, 8 * 2 ^ 25 + 2 * 2 ^ 21 + sptrk, 0x01010101, 0, 1, 2]
  { s with dev := { d with tpe := { zones := [0] } } }

def aZone : State := zoned 20000000 1

/-- One whose tracks hold eight whole stripes and no spare slot. -/
def fullZone : State := zoned 11136 0

/-- The same device after the restore. -/
def moveAt (s : State) : State := { s with dev := s.dev.wr .CFG_STAT_RESTORED 0 1 }

/-- A device in which sequencer 8 runs with state `q`, and issues microword `w` of its actuator's control store. -/
def fsqAt (w : Nat) (q : Seq) (l : List (Fld × Nat × Nat)) : State :=
  let s := mk ((.FSQ_STAT_STATE, 8, 2) :: l)
  { s with dev := { (s.dev.stN (storeAddr 1 0) w 22) with fsq := { seqs := [(8, q)] } } }

/-- The same with a prepared sector of slot 2. -/
def prepared (s : State) : State :=
  let p : Prep := { entry := 0, slot := 2, role := 0, psa := 0x2001, attempt := 0, code := [], ready := true, started := false }
  { s with dev := { s.dev with wrf := { slots := [(8, { Wslot.init with prep := [p] })] } } }

/-- The emission of slot 2 of a write job. -/
def anEmit : Emit :=
  { entry := 0, slot := 2, role := 0, psa := 0x2001, attempt := 0, code := [], driven := true, written := true, surf := 9, tracks := [],
    job := aJob, cut := false }

/-- The 50 bits of a good uplink frame of a type and payload. -/
def upFrame (type payload : Nat) : BitVec 50 :=
  let v := type * 2 ^ 44 + payload * 2 ^ 8
  BitVec.ofNat 50 (2 * 2 ^ 48 + v + armCrc v)

/-- A scrub item of sequence 3. -/
def aWork : Work :=
  { op := opScrub, surf := 9, track := 5, head := 0, arg := 0, arg2 := 0, granted := false, seq := 3, ckpt := 0, pages := [] }

/-- The overlap entry of command 5. -/
def anOvl : Ovl :=
  { fseq := 5, ns := 1, lo := 0, hi := 8, time := 0, port := 0, ordered := true, reads := true, append := false, urgent := false,
    promoted := false, withdrawn := false }

/-- An internal request for one granule. -/
def aReq : ResReq := { master := 14, tag := 1, gran := 1, fseq := 0, order := 0, internal := true, cleared := true }

/-- A read job that waits for the lock of its track. -/
def aWaiter : SJob := { job := aJob, mask := 1, ready := none, pick := none }

/-- A write job that is ready and has picked actuator 0. -/
def aPicked : SJob := { job := { aJob with kind := 1 }, mask := 1, ready := some 0, pick := some 0 }

/-- A device whose scheduler can dispatch that job. -/
def dispatching (l : List (Fld × Nat × Nat)) : State :=
  let s := mk (l ++ [(.SCH_STAT_STATE, 0, 4), (.SRV_STAT_SVC, 0, unitServ), (.SRV_HSTAT_STATE, 9, unitServ), (.SRV_STAT_MODE, 0, 2),
    (.FSQ_STAT_STATE, 3, 1), (.FSQ_CTL_ENABLE, 3, 1), (.LANE_STAT_STATE, 10, unitServ), (.LANE_STAT_STATE, 11, unitServ),
    (.SCH_PWRBUD_BUDGET, 0, 65535)])
  { s with dev := { s.dev with sch := { jobs := [aPicked] } } }

/-- An event in the recorder's queue. -/
def anEvt : EvtIn :=
  { code := 0x500, inst := 0, origin := 0, sev := 7, forced := false, esc := false, nolimit := false, time := 0, epoch := 0, poh := 0,
    d0 := 1, d1 := 2, d2 := 3, cycle := 0 }

/-- An admin command of an opcode, with dwords 10 and 11. -/
def anAdm (op c10 c11 : Nat) : Adm :=
  { fseq := 1, port := 0, cid := 4, sqe := [op + 4 * 2 ^ 16, 0, 0, 0, 0, 0, 0, 0, 0, 0, c10, c11, 0, 0, 0, 0], ring := none }

/-- A device with that command at the front of port 0. -/
def admAt (op c10 c11 : Nat) : State := { State.reset with dev := { hif := { adm := [anAdm op c10 c11] } } }

/-- A timer trigger of the lowest priority. -/
def aTrig : Trig := { type := 3, prio := 0, src := 0, a0 := 1, a1 := 2, a2 := 3, a3 := 4, restarts := 0, flts := 0 }

/-- A device in which engine 0 runs at word 0 of its store with state `x`, and that word is `w`. -/
def veAt (w : Nat) (x : Eng) (l : List (Fld × Nat × Nat)) : State :=
  let s := mk ((.VE_ESTAT_STATE, 0, 2) :: l)
  { s with dev := { (s.dev.stN (uopAddr 0 0) w 4) with ve := { engs := [(0, x)] } } }

/-- The same with the operand of a POST to HIF of operation `k` at table-SRAM offset 64. -/
def postAt (k w : Nat) (x : Eng) (l : List (Fld × Nat × Nat)) : State :=
  let s := veAt w x l
  { s with dev := s.dev.st32 (tableSram + 64) (k * 2 ^ 28) }

/-- A record of sequence number 7. -/
def anRec : EvtRec := { w0 := 0, w1 := 7, w2 := 0, w3 := 0, w4 := 0, w5 := 0, w6 := 0, w7 := 0 }

/-- Submission queue 1 and completion queue 1, of 16 entries. -/
def aSq : Sq := { base := 0x3000, size := 16, head := 0, tail := 0, cq := 1, prio := 0, inflight := 0, stop := false }
def aCq : Cq := { base := 0x4000, size := 16, head := 0, tail := 0, vec := 1, agg := 0, phase := true, ien := true }

/-- A device whose port 0 is enabled: an admin queue with one command, and queues 1. -/
def portUp (l : List (Fld × Nat × Nat)) : State :=
  let s := mk ((.HIF_CTL_ENABLE, 0, 1) :: l)
  let x : Port := { cc := 0x460061, sqs := [(0, { aSq with tail := 1 }), (1, aSq)], cqs := [(0, aCq), (1, aCq)] }
  { s with dev := { s.dev with hif := { ports := [(0, x)] } } }

/-- An I/O command 7 of an opcode and a zone action, on block 0 of namespace 1. -/
def aCmd (op zsa : Nat) : Cmd :=
  { fseq := 7, port := 0, sq := 1, cid := 4, idx := 0, time := 0, owner := 0,
    sqe := [op + 4 * 2 ^ 16, 1, 0, 0, 0, 0, 0, 0, 0, 0, 0, 0, 0, zsa, 0, 0],
    urgent := false, phase := .fetched, moving := 0, ending := none, piErr := 0, limit := false, begun := false, got := [], comp := [], ask := none }

/-- A device that has fetched commands, with namespace 1 of a command set (15: none), and the fields listed. -/
def nsAt (csi : Nat) (cs : List Cmd) (l : List (Fld × Nat × Nat)) : State :=
  let s := mk l
  let d := if csi = 15 then s.dev else s.dev.stWords tableSram [2 ^ 31 + csi * 2 ^ 24, 4096, 0, 0, 0, 0, 4, 1024]
  { s with dev := { d with hif := { ports := [(0, { cc := 0x460061 })], cmds := cs } } }

/-- A device with that command fetched, and command engine 0 idle. -/
def ioAt (csi op zsa : Nat) : State := nsAt csi [aCmd op zsa] [(.VE_ESTAT_STATE, 4, 1)]

/-- The same with no engine at work. -/
def heldAt : State := nsAt 0 [aCmd 2 0] []

/-- A device that has asked the host for a block of a command without a namespace, and of a write. -/
def askAt : State := nsAt 15 [{ aCmd 0 0 with ask := some (0, 1, 0x4000000, 0) }] []
def askIn : State := nsAt 0 [{ aCmd 1 0 with ask := some (0, 1, 0x4000000, 0) }] []
def aNs : Ns := State.reset.dev.nsEntry 1 |> fun n => { n with valid := true, nsze := 4096, zones := 4, zsze := 1024 }

/-- A device with an admin command at the front of port 0, which has queues 1, and completion queue 2. -/
def admQ (op c10 c11 : Nat) : State :=
  let x : Port := { sqs := [(1, aSq)], cqs := [(1, aCq), (2, aCq)] }
  { State.reset with dev := { hif := { adm := [anAdm op c10 c11], ports := [(0, x)] } } }

/-- The same for an Abort of a command in flight. -/
def abortAt : State :=
  { State.reset with dev := { hif := { adm := [anAdm 8 (1 + 4 * 2 ^ 16) 0], ports := [(0, { sqs := [(1, aSq)] })], cmds := [aCmd 2 0] } } }

/-- A Set Features of TLER for every namespace. -/
def setTler : Adm := { anAdm 9 5 3 with sqe := (anAdm 9 5 3).sqe.set 1 (2 ^ 32 - 1) }

/-- A device in which the Cicada condition holds. -/
def cicadaAt : State :=
  let s := mk [(.SCH_STAT_STATE, 0, 4)]
  { s with dev := { s.dev with hif := { ports := [(0, { feats := [(2, 1)] })] } } }

/-- A device whose synthesiser of pair 3 runs, with what sequencer 8 holds. -/
def syncDev (q : Seq) (m : Tab Ctx) : State :=
  let s := mk [(.ANG_SCKRATE_ENABLE, 3, 1), (.ANG_SCKRATE_SPR, 3, 26666667), (.ANG_SCKSTAT_UNOWNED, 3, 0)]
  { s with dev := { s.dev with ang := { rate := some 104857, val := 2 ^ 40 + 1, prev := 2 ^ 40 }, fsq := { seqs := [(8, q)] }, itb := { ctx := m } } }

/-- A device in which sequencer 8 is busy, with its counters at usable index 1 in the present edges. -/
def gateDev : State :=
  let q : Seq := { Seq.init with job := some aJob, rgq := [mkAct true (some 1) none], pca := { target := 1, ctr := 0, armed := true } }
  let s := syncDev q []
  { s with dev := ((s.dev.wr .FSQ_STAT_STATE 8 2).wr .ANG_STAT_STATE 0 2).wr .ANG_SCKSTAT_OWNER 3 9 }

/-- A device with a sequencer that runs the job, under an open servo gate, at the end of the field of wedge 0, and the fields listed. -/
def servoDev (l : List (Fld × Nat × Nat)) : State :=
  let s := mk ((.ANG_STAT_STATE, 0, 2) :: l)
  { s with dev := { s.dev with ang := { rate := some 104857, val := 2 ^ 40 + 1312, prev := 2 ^ 40 + 1311 },
                               fsq := { seqs := [(8, { Seq.init with job := some aJob })] }, lanes := [(6, { servoAt := some 0 })] } }

/-- A device at the strobe of wedge 0, with head 9 as the guide of actuator 0. -/
def pointDev : State :=
  let s := mk [(.ANG_STAT_STATE, 0, 2), (.SRV_MA_CODE, 9, 5), (.SRV_TIMING_VDLY, 0, 0), (.SRV_TIMING_MDLY, 0, 0)]
  { s with dev := { s.dev with ang := { rate := some 104857, val := 2 ^ 40, prev := 2 ^ 40 - 1 }, srv := { acts := [(0, { Act.init with guide := some 9 })] } } }

/-- A device in which both lanes of a job of a kind search for slot 2. -/
def syncAt (kind : Nat) : State :=
  syncDev { Seq.init with job := some { aJob with kind := kind }, srchLead := [⟨2, 0, 0⟩], srchTrail := [⟨2, 0, 0⟩] } []

/-- A device in which context 5 fills. -/
def captAt : State := syncDev { Seq.init with job := some aJob } [(5, aCtx)]

/-- What a lane takes from a servo field: nothing but the correlations. -/
def goodField : ServoObs := { codes := [], n := 5, q := 5 }

/-! ### The well-formedness checks: a term that each of them refuses -/

theorem test_wellFormed_refuses_accesses :
    ([.registerWrite [{ master := .svc, addr := 2 ^ 40, data := 0 }] [], .registerWrite [] [{ master := .svc, addr := 2 ^ 40 }],
      .registerWrite [{ master := .svc, addr := 0, data := 0 }, { master := .svc, addr := 4, data := 0 }] [],
      .snapshotRead .svc 0 3, .clearOnRead .svc 0 0, .bar2Write 0 (2 ^ 24) 4 0 [], .bar2Write 0 0 16 0 [],
      .bar2Write 0 0 4 0 [{ master := .svc, addr := 2 ^ 40, data := 0 }], .bar2Read 0 (2 ^ 24) 4, .bar2Read 0 0 5,
      .laneRouteWrite [{ master := .svc, lane := 0, data := 0 }, { master := .svc, lane := 1, data := 0 }] []] : List Instr).all
      (fun c => !c.wellFormed) = true := by decide

theorem test_wellFormed_refuses_stores :
    ([.fsqStoreWrite .svc 0 0x20000 4 0, .fsqStoreWrite .svc 0 0 7 0, .fsqStoreRead .svc 0 0x20000 4 false,
      .fsqStoreRead .svc 0 0 7 false, .veStoreWrite .svc 0 0x20000 4 0, .veStoreWrite .svc 0 0 7 0,
      .veStoreRead .svc 0 0x20000 4 false, .veStoreRead .svc 0 0 7 false] : List Instr).all (fun c => !c.wellFormed) = true := by decide

theorem test_wellFormed_refuses_channel :
    ([.referenceFrame { f := 0, pred := 0, obs := [], phaseErr := 0, rpm := 0, rate := 0 },
      .readerCalibrationEnd 0 (2 ^ 24) (List.replicate 64 0) 0, .readerCalibrationEnd 0 0 [] 0,
      .laneCalibrationEnd 0 { offset := 128, tone := 0, dnl := 0, corner := true, reference := true }, .laneCalibrationEnd 0 { offset := 0, tone := -129, dnl := 0, corner := true, reference := true },
      .laneCalibrationEnd 0 { offset := 0, tone := 0, dnl := 256, corner := true, reference := true }, .overrange 0 (2 ^ 26) 4, .overrange 0 4 (2 ^ 26),
      .reconstructionRequest { aRecon with surf := 64 }, .reconstructionRequest { aRecon with track := 2 ^ 20 }] : List Instr).all
      (fun c => !c.wellFormed) = true := by decide

theorem test_wellFormed_refuses_transfers :
    ([.commandFetch [0] [], .commandFetch [] [0], .dmaHalt [(1, 0), (1, 2)],
      .imageLoad { fit := true, density := 0, runs := [(0, [1, 2]), (1, [3])], train := [] } 0] : List Instr).all
      (fun c => !c.wellFormed) = true ∧
    (∀ l : List Word, 16384 ≤ l.length → (Instr.svcRegwr 0 l).wellFormed = false) ∧
    (∀ l : List Byte, 65536 ≤ l.length → (Instr.svcMemwr l).wellFormed = false ∧ (Instr.svcFuse 0 l).wellFormed = false) := by
  refine ⟨by decide, fun l h => decide_eq_false (Nat.not_lt.mpr h), fun l h => ⟨decide_eq_false (Nat.not_lt.mpr h), decide_eq_false (Nat.not_lt.mpr h)⟩⟩

theorem test_wellFormed_accepts :
    ([.registerWrite [{ master := .svc, addr := 0xF0100000, data := 1 }] [], .snapshotRead .svc 0xF0100014 4,
      .powerOnReset false, .commandFetch [] [], .stw 3, .overrange 0 4 5] : List Instr).all (fun c => c.wellFormed) = true := by decide

/-! ### The table gives no row any bits -/

theorem test_no_word_spells_a_command : decodeTableWord 32 0 = none ∧ State.reset.withFetchWord 32 0 = State.reset := ⟨rfl, rfl⟩

/-! ### The worked examples of spec/ -/

/-- 00_scope, under R11: the trail reader of actuator C on surface S17 is RDI163; the head's register window is at 0x00F0721440
(11_vertical_engines, worked example), which is head 81. -/
theorem test_head_register : targetOf 2 (regOffset 0xF0721440) = .reg .SRV_HCTL 81 := by decide +kernel

/-- 02_register_conventions, worked example: 0x24_C040 is an alias of lane 12's 0x20_C040. -/
theorem test_lane_alias : foldAlias 0x24C040 = 0x20C040 := by decide

/-- 03_angle_base, worked example: SOFF 0x00_1A00 and HOFF 0x80_3C00 of head 81 make the LEAD offset 0x80_5600. -/
theorem test_lead_offset : (mk [(.ANG_SOFF_OFF, 17, 0x1A00), (.ANG_HOFF_OFF, 81, 0x803C00)]).dev.frameOff 1 81 = 0x805600 := by
  decide +kernel

/-- 04_reader_lanes, worked example: a skew of 8,436 ticks at 26,666,667 positions a revolution is 13,409 positions. -/
theorem test_skew : firstPos 26666667 8436 = 13409 := by decide +kernel

/-- 05_detection_and_decoding, worked example: the dual-look combine with WL = 11, WT = 11 and WS = 16. -/
theorem test_dual_look :
    [combineOne 11 11 16 ⟨0, true⟩ ⟨-20, false⟩, combineOne 11 11 16 ⟨9, false⟩ ⟨7, false⟩, combineOne 11 11 16 ⟨-4, false⟩ ⟨5, false⟩,
     combineOne 11 11 16 ⟨5, false⟩ ⟨3, false⟩, combineOne 11 11 16 ⟨25, false⟩ ⟨30, false⟩, combineOne 11 11 16 ⟨-31, false⟩ ⟨0, true⟩].map
      Soft.v = [-20, 11, 1, 6, 31, -31] := by decide

/-- 06_media_format, worked example: 706 slots of 35,824 positions hold 640 data members. -/
theorem test_data_members : dataMembers 706 80 7 8 = 640 ∧ slotOfData 80 7 64 = 64 ∧ slotOfData 80 7 127 = 134 ∧
    slotOfParity 640 80 7 0 0 = 80 := by decide

/-- 11_vertical_engines, worked example: LDW G5, 0x0014(G20); END is 0xA0B4_0014, and ADDI G9, G9, 1 is 0x0929_0001. -/
theorem test_micro_words :
    (uEnd 0xA0B40014 = true ∧ uOpc 0xA0B40014 = 8 ∧ uD 0xA0B40014 = 5 ∧ uA 0xA0B40014 = 20 ∧ uImm 0xA0B40014 = 0x14) ∧
    (uEnd 0x09290001 = false ∧ uOpc 0x09290001 = 2 ∧ uD 0x09290001 = 9 ∧ uA 0x09290001 = 9 ∧ uImm 0x09290001 = 1) := by decide

/-- 14_memory_and_dma, under R515: 18 GiB of raw devices give 16 GiB, and 12 GiB give 10.5 GiB. -/
theorem test_capacity : dataCapacity 18 = 64 ∧ dataCapacity 12 = 42 := by decide

/-- 15_check_values_and_compression, under R545: the seed of slot 167 of track 412,300 on surface 17 at generation 37, and X at
fill 48. -/
theorem test_seed : mkPsa 17 412300 167 37 = 0x4592A30A7025 ∧
    Nat.xor 0xFFFFFFFFFFFF (foldOf (some 48) * 2 ^ 40) = 0x4FFFFFFFFFFF := by decide +kernel

/-- A step takes the command at the front: the angle base is enabled, and the next command waits. -/
theorem test_step : (match step { State.reset with pending := [.abuEnable, .slowWriteCommit] } with
    | .next t => t.dev.rd .ANG_STAT_STATE == 1 && t.pending == [.slowWriteCommit]
    | _ => false) = true := by decide +kernel

/-- What CommandsComplete asks of a state and its device. -/
theorem witness_commands_complete : ∃ (s : State) (d : Dev), s.dev.met = d := ⟨State.reset, _, rfl⟩

/-! ### What meets the hypotheses of each statement -/

theorem witness_angle_base_states :
    (∃ (s : State) (d : Dev), s.dev.met = d ∧ (d.rd .ANG_STAT_STATE = 0)) ∧
    (∃ (s : State) (d : Dev), s.dev.met = d ∧ (d.rd .ANG_STAT_STATE ≠ 0)) ∧
    (∃ (s : State) (d : Dev), s.dev.met = d ∧ (d.rd .ANG_STAT_STATE = 2)) ∧
    (∃ (s : State) (d : Dev), s.dev.met = d ∧ (d.rd .ANG_STAT_STATE ≠ 2)) ∧
    (∃ (s : State) (d : Dev), s.dev.met = d ∧ (d.rd .ANG_STAT_STATE = 3)) ∧
    (∃ (s : State) (d : Dev), s.dev.met = d ∧ (d.rd .ANG_STAT_STATE ≠ 3)) ∧
    (∃ (s : State) (d : Dev), s.dev.met = d ∧ ((d.rd .ANG_STAT_STATE = 3) ∧ (d.rd .ANG_CTL_AUTO ≠ 0) ∧ (2 ≤ d.usableDeclared))) ∧
    (∃ (s : State) (d : Dev) (r : Fin 4), s.dev.met = d ∧ (bit (d.rd .ANG_REFCTL_USE) r.val = true)) ∧
    (∃ (s : State) (d : Dev) (r : Fin 4), s.dev.met = d ∧ (bit (d.rd .ANG_REFCTL_USE) r.val = false)) ∧
    (∃ (s : State) (d : Dev) (r : Fin 4), s.dev.met = d ∧ ((d.rd (readerFld r.val) ≠ 0) ∧ (d.rd (readerFld r.val) ≠ 4))) ∧
    (∃ (s : State) (d : Dev) (r : Fin 4), s.dev.met = d ∧ (d.rd (readerFld r.val) = 4)) ∧
    (∃ (s : State) (d : Dev) (r : Fin 4), s.dev.met = d ∧ (d.rd (readerFld r.val) ≠ 4)) ∧
    (∃ (s : State) (d : Dev) (r : Fin 4) (off : Nat) (corr : List Int) (after : Nat), s.dev.met.advance after = d ∧ ((d.rd (readerFld r.val) = 5) ∧ (d.indexNow = true) ∧ (1 ≤ d.trackers) ∧ (apart (signed 24 (subMod 24 off (d.rd .ANG_REFOFF_OFF r.val))) 0 (d.rd .ANG_TOL_DIS) = false))) ∧
    (∃ (s : State) (d : Dev) (r : Fin 4) (off : Nat) (corr : List Int) (after : Nat), s.dev.met.advance after = d ∧ ((d.rd (readerFld r.val) = 5) ∧ (d.trackers = 0))) :=
  ⟨⟨mk [], _, rfl, by decide +kernel⟩,
   ⟨mk [(.ANG_STAT_STATE, 0, 3)], _, rfl, by decide +kernel⟩,
   ⟨mk [(.ANG_STAT_STATE, 0, 2)], _, rfl, by decide +kernel⟩,
   ⟨mk [(.ANG_STAT_STATE, 0, 1)], _, rfl, by decide +kernel⟩,
   ⟨mk [(.ANG_STAT_STATE, 0, 3)], _, rfl, by decide +kernel⟩,
   ⟨mk [], _, rfl, by decide +kernel⟩,
   ⟨mk [(.ANG_STAT_STATE, 0, 3), (.ANG_REFSTAT_REFA, 0, 2), (.ANG_REFSTAT_REFB, 0, 3), (.ANG_REFCTL_USE, 0, 3)], _, rfl, by decide +kernel⟩,
   ⟨mk [(.ANG_REFCTL_USE, 0, 4)], _, 2, rfl, by decide +kernel⟩,
   ⟨mk [], _, 3, rfl, by decide +kernel⟩,
   ⟨mk [(.ANG_REFSTAT_REFD, 0, 2)], _, 3, rfl, by decide +kernel⟩,
   ⟨mk [(.ANG_REFSTAT_REFA, 0, 4)], _, 0, rfl, by decide +kernel⟩,
   ⟨mk [], _, 0, rfl, by decide +kernel⟩,
   ⟨{ State.reset with dev := { (mk [(.ANG_STAT_STATE, 0, 2), (.ANG_REFSTAT_REFA, 0, 2), (.ANG_REFSTAT_REFB, 0, 5)]).dev with ang := { rate := some 65536, prev := 2 ^ 48 - 1 } } }, _, 1, 0x400010, [3, -2], 0, rfl, by decide +kernel⟩,
   ⟨mk [(.ANG_REFSTAT_REFB, 0, 5)], _, 1, 0, [], 0, rfl, by decide +kernel⟩⟩

theorem witness_angle_and_compares :
    (∃ (s : State) (d : Dev), s.dev.met = d ∧ ((d.rd .ANG_STAT_STATE = 1) ∧ (2 ≤ d.trackers) ∧ (16 ≤ d.ang.agree) ∧ (d.rd .ANG_STAT_SPEED ≠ 0) ∧ (2 ≤ d.usableDeclared) ∧ ((d.ang.val + 0xFFFFFF) / 0x1000000 * 0x1000000 < 2 ^ 48))) ∧
    (∃ (s : State) (d : Dev) (r : Nat), s.dev.met = d ∧ ((d.ang.rate = some r) ∧ (0 < r) ∧ (d.ang.val < 2 ^ 48) ∧ (d.ang.sub < 65536))) ∧
    (∃ (s : State) (d : Dev) (u : Fin 16) (after : Nat), s.dev.met.advance after = d ∧ ((d.rd .ANG_CMPCTL_ARM u.val ≠ 0) ∧ (d.rd .ANG_CMPCTL_PERIODIC u.val = 0) ∧ (d.rd .ANG_CMPCTL_IRQ u.val = 0) ∧ (d.rd .ANG_STAT_STATE = 2) ∧ (d.unitMet u.val = true) ∧ (Tab.getD d.ang.cmpHit u.val false = false))) ∧
    (∃ (s : State) (d : Dev) (u : Fin 16) (after : Nat), s.dev.met.advance after = d ∧ ((d.rd .ANG_CMPCTL_ARM u.val ≠ 0) ∧ (d.rd .ANG_CMPCTL_PERIODIC u.val ≠ 0) ∧ (d.rd .ANG_CMPCTL_IRQ u.val ≠ 0) ∧ (d.rd .ANG_STAT_STATE = 2) ∧ (d.unitMet u.val = true) ∧ (Tab.getD d.ang.cmpHit u.val false = true))) ∧
    (∃ (s : State) (d : Dev) (q : Fin 32) (b : Bool) (after : Nat), s.dev.met.advance after = d ∧ ((((d.seq q.val).ac b).armed = true) ∧ (((d.seq q.val).ac b).late = false) ∧ (d.rd .ANG_STAT_STATE = 2) ∧ (d.cmpMet ((d.seq q.val).ac b).frame (d.jobHead q.val) ((d.seq q.val).ac b).target = true) ∧ (d.boundTo q.val ((d.seq q.val).ac b).frame = none))) ∧
    (∃ (s : State) (d : Dev) (k : Fin 64), s.dev.met = d ∧ ((d.rd (synEnable k.val).1 (synEnable k.val).2 ≠ 0) ∧ (d.inRange k.val = false) ∧ (d.ang.ranged.contains k.val = false))) ∧
    (∃ (s : State) (d : Dev) (k : Fin 64), s.dev.met = d ∧ ((d.inRange k.val = true) ∧ (d.ang.ranged.contains k.val = false))) ∧
    (∃ (s : State) (d : Dev) (k : Fin 64), s.dev.met = d ∧ ((d.inRange k.val = true) ∧ (d.ang.ranged.contains k.val = true))) :=
  ⟨⟨{ State.reset with dev := { (mk [(.ANG_STAT_STATE, 0, 1), (.ANG_STAT_SPEED, 0, 1), (.ANG_REFSTAT_REFA, 0, 2), (.ANG_REFSTAT_REFB, 0, 2), (.ANG_REFCTL_USE, 0, 3)]).dev with ang := { val := 0x1000001, agree := 16 } } }, _, rfl, by decide +kernel⟩,
   ⟨{ State.reset with dev := { ang := { val := 5, rate := some 700 } } }, _, 700, rfl, by decide +kernel⟩,
   ⟨mk [(.ANG_STAT_STATE, 0, 2), (.ANG_CMPCTL_ARM, 3, 1)], _, 3, 5, rfl, by decide +kernel⟩,
   ⟨{ State.reset with dev := { (mk [(.ANG_STAT_STATE, 0, 2), (.ANG_CMPCTL_ARM, 0, 1), (.ANG_CMPCTL_PERIODIC, 0, 1), (.ANG_CMPCTL_IRQ, 0, 1)]).dev with ang := { cmpHit := [(0, true)] } } }, _, 0, 0, rfl, by decide +kernel⟩,
   ⟨{ State.reset with dev := { (mk [(.ANG_STAT_STATE, 0, 2)]).dev with fsq := { seqs := [(7, { Seq.init with acb := { armed := true } })] } } }, _, 7, true, 0, rfl, by decide +kernel⟩,
   ⟨mk [(.ANG_SCKRATE_ENABLE, 5, 1), (.ANG_SCKSTAT_UNOWNED, 5, 0)], _, 5, rfl, by decide +kernel⟩,
   ⟨{ State.reset with dev := { (mk [(.ANG_SCKRATE_SPR, 5, 26666667)]).dev with ang := { rate := some 104857 } } }, _, 5, rfl, by decide +kernel⟩,
   ⟨{ State.reset with dev := { (mk [(.ANG_SCKRATE_SPR, 5, 26666667)]).dev with ang := { rate := some 104857, ranged := [5] } } }, _, 5, rfl, by decide +kernel⟩⟩

theorem witness_reference_frames :
    (∃ (s : State) (d : Dev) (x : RefFrame) (o0 o1 : ReaderObs), s.dev.met = d ∧ ((d.rd .ANG_REFSTAT_REFA = 2) ∧ (d.rd .ANG_REFSTAT_REFB = 2) ∧ (d.rd .ANG_REFSTAT_REFC = 0) ∧ (d.rd .ANG_REFSTAT_REFD = 0) ∧ (x.f ≠ 0) ∧ (x.obs[0]? = some o0) ∧ (x.obs[1]? = some o1) ∧ (framePlain o0 x.f = true) ∧ (framePlain o1 x.f = true) ∧ (d.readingOff 0 x.f o0.phase x.pred - d.readingOff 1 x.f o1.phase x.pred ≤ d.rd .ANG_TOL_DIS) ∧ (d.readingOff 1 x.f o1.phase x.pred - d.readingOff 0 x.f o0.phase x.pred ≤ d.rd .ANG_TOL_DIS))) :=
  ⟨mk [(.ANG_REFSTAT_REFA, 0, 2), (.ANG_REFSTAT_REFB, 0, 2), (.ANG_REFSTAT_REFC, 0, 0), (.ANG_REFSTAT_REFD, 0, 0), (.ANG_REFOFF_OFF, 0, 0), (.ANG_REFOFF_OFF, 1, 0)], _, { f := 5, pred := 5 * 1024, phaseErr := 0, rpm := 7200, rate := 0, obs := [⟨some 0, 0x1D, 40, 0⟩, ⟨some 3, 0x1D, 40, 0⟩] }, ⟨some 0, 0x1D, 40, 0⟩, ⟨some 3, 0x1D, 40, 0⟩, rfl, by decide +kernel⟩

theorem witness_lanes_and_reader_inputs :
    (∃ (s : State) (d : Dev) (x : Strobe) (h : Fin 128) (after : Nat), s.dev.met.advance after = d ∧ ((allOwners.filterMap (fun o => (d.strobeNow o).map fun w => ({ owner := o, index := w == 0 } : Strobe)) = [x]) ∧ (x.owner = .head h) ∧ (d.rd .ANG_STAT_STATE = 2) ∧ (d.slotOfHead h.val = none) ∧ (∀ p ∈ d.bus.pend, p.reg ≠ .LNX_ROUTE))) ∧
    (∃ (s : State) (d : Dev) (after : Nat), s.dev.met.advance after = d ∧ (d.rd .ANG_STAT_STATE ≠ 2)) ∧
    (∃ (s : State) (d : Dev) (x : Strobe) (h : Fin 128) (after : Nat), s.dev.met.advance after = d ∧ ((allOwners.filterMap (fun o => (d.strobeNow o).map fun w => ({ owner := o, index := w == 0 } : Strobe)) = [x]) ∧ (x.owner = .head h) ∧ (d.rd .ANG_STAT_STATE = 2) ∧ (d.slotOfHead h.val = none))) ∧
    (∃ (s : State) (d : Dev) (n : Fin 256) (w : Word), s.dev.met = d ∧ ((List.range 64).any (fun l => d.holdsInput l n.val) = false)) ∧
    (∃ (s : State) (d : Dev) (n : Fin 256) (w : Word), s.dev.met = d ∧ ((List.range 64).any (fun l => d.holdsInput l n.val) = true)) ∧
    (∃ (s : State) (d : Dev) (l : Fin 64) (first last : Nat), s.dev.met = d ∧ ((d.sampling l.val = true) ∧ ((d.lane l.val).ovrEnd = none))) ∧
    (∃ (s : State) (d : Dev) (l : Fin 64) (first last prev : Nat), s.dev.met = d ∧ ((d.sampling l.val = true) ∧ ((d.lane l.val).ovrEnd = some prev) ∧ (d.edgeAt l.val last - (last % max 1 (d.spr (l.val / 2)) + max 1 (d.spr (l.val / 2)) - first % max 1 (d.spr (l.val / 2))) % max 1 (d.spr (l.val / 2)) ≤ prev + 24))) ∧
    (∃ (s : State) (d : Dev) (l : Fin 64) (first last : Nat), s.dev.met = d ∧ (d.sampling l.val = false)) ∧
    (∃ (s : State) (d : Dev) (n : Fin 64), s.dev.met = d ∧ ((d.rd .LANE_STAT_STATE n.val ≠ 0) ∧ (d.rd .LANE_STAT_STATE n.val ≠ 4))) ∧
    (∃ (s : State) (d : Dev) (n : Fin 64), s.dev.met = d ∧ (d.rd .LANE_STAT_STATE n.val = 4)) ∧
    (∃ (s : State) (d : Dev) (n : Fin 64), s.dev.met = d ∧ ((d.rd .LANE_STAT_STATE n.val = 3) ∧ (d.rd .LANE_STAT_HELD n.val = 0))) ∧
    (∃ (s : State) (d : Dev) (n : Fin 64), s.dev.met = d ∧ ((d.rd .LANE_STAT_STATE n.val = 3) ∧ (d.rd .LANE_STAT_HELD n.val ≠ 0))) ∧
    (∃ (s : State) (d : Dev) (n : Fin 64), s.dev.met = d ∧ ((d.rd .LANE_STAT_STATE n.val = 3) ∧ (d.rd .LANE_STAT_HELD n.val = 0) ∧ (d.rd .LANE_STAT_RECALPEND n.val ≠ 0))) ∧
    (∃ (s : State) (d : Dev) (n : Fin 64) (g : Nat), s.dev.met = d ∧ ((d.rd .LANE_STAT_STATE n.val = 3) ∧ ((d.lane n.val).gateAt = some g) ∧ (g + 1023 ≤ d.laneEdge n.val))) ∧
    (∃ (s : State) (d : Dev) (n : Fin 64) (g : Nat), s.dev.met = d ∧ ((d.rd .LANE_STAT_STATE n.val = 3) ∧ ((d.lane n.val).gateAt = some g) ∧ (d.synRuns (n.val / 2) = true))) ∧
    (∃ (s : State) (d : Dev) (n : Fin 64) (l : Nat) (rest : List Nat), s.dev.met = d ∧ ((bankLanes (n.val / 4)).filter (fun k => d.rd .LANE_STAT_STATE k != 0 && d.rd .LANE_STAT_STATE k != 4) = l :: rest)) ∧
    (∃ (s : State) (d : Dev) (n : Fin 64) (m : LaneCal), s.dev.met = d ∧ ((d.rd .LANE_STAT_STATE n.val = 1) ∧ (d.bankQuiet n.val = true) ∧ (m.offset.natAbs ≤ 8 ∧ m.tone.natAbs ≤ 10 ∧ m.dnl ≤ 32 ∧ m.corner = true ∧ m.reference = true))) ∧
    (∃ (s : State) (d : Dev) (n : Fin 64) (m : LaneCal), s.dev.met = d ∧ ((d.rd .LANE_STAT_STATE n.val = 1) ∧ (8 < m.offset.natAbs))) ∧
    (∃ (s : State) (d : Dev) (l : Fin 64), s.dev.met = d ∧ ((l.val % 2 = 0) ∧ (d.rd .ANG_STAT_STATE = 2) ∧ (d.rd .LNX_ROUTE_EN l.val ≠ 0) ∧ ((d.lane l.val).servoAt = none) ∧ (d.servoDue l.val (fun j => rev - j.spg) = true))) ∧
    (∃ (s : State) (d : Dev) (l : Fin 64), s.dev.met = d ∧ (d.rd .ANG_STAT_STATE ≠ 2)) ∧
    (∃ (s : State) (d : Dev) (l : Fin 64) (g : Nat), s.dev.met = d ∧ (((d.lane l.val).servoAt = some g) ∧ (d.servoDue l.val Job.svt = true))) :=
  ⟨⟨{ State.reset with dev := { (mk [(.ANG_STAT_STATE, 0, 2), (.ANG_HOFF_OFF, 9, 0x100), (.ANG_SCKSTAT_UNOWNED, 2, 0), (.ANG_SCKSTAT_OWNER, 2, 9)]).dev with now := 20, ang := { rate := some 65536, val := 0x100, prev := 0xFF }, bus := { pend := [{ reg := .LANE_AGC, idx := 4, word := 7, cycle := 3 }] } } }, _, ⟨.head 9, true⟩, 9, 0, rfl, by decide +kernel⟩,
   ⟨mk [], _, 3, rfl, by decide +kernel⟩,
   ⟨{ State.reset with dev := { (mk [(.ANG_STAT_STATE, 0, 2), (.ANG_HOFF_OFF, 9, 0x100)]).dev with ang := { rate := some 65536, val := 0x100, prev := 0xFF } } }, _, ⟨.head 9, true⟩, 9, 0, rfl, by decide +kernel⟩,
   ⟨mk [], _, 17, 5, rfl, by decide +kernel⟩,
   ⟨mk [(.LNX_ROUTE_EN, 4, 1), (.LNX_ROUTE_INPUT, 4, 18)], _, 18, 5, rfl, by decide +kernel⟩,
   ⟨{ State.reset with dev := { (mk [(.LANE_STAT_STATE, 3, 3), (.ANG_SCKRATE_ENABLE, 1, 1), (.ANG_SCKRATE_SPR, 1, 26666667), (.ANG_SCKSTAT_UNOWNED, 1, 0)]).dev with ang := { rate := some 104857 } } }, _, 3, 10, 12, rfl, by decide +kernel⟩,
   ⟨{ State.reset with dev := { (mk [(.LANE_STAT_STATE, 3, 3), (.ANG_SCKRATE_ENABLE, 1, 1), (.ANG_SCKRATE_SPR, 1, 26666667), (.ANG_SCKSTAT_UNOWNED, 1, 0)]).dev with ang := { rate := some 104857 }, lanes := [(3, { ovrEnd := some (2 ^ 60) })] } }, _, 3, 10, 12, 2 ^ 60, rfl, by decide +kernel⟩,
   ⟨mk [], _, 3, 10, 12, rfl, by decide +kernel⟩,
   ⟨mk [(.LANE_STAT_STATE, 5, 3)], _, 5, rfl, by decide +kernel⟩,
   ⟨mk [(.LANE_STAT_STATE, 5, 4)], _, 5, rfl, by decide +kernel⟩,
   ⟨mk [(.LANE_STAT_STATE, 5, 3)], _, 5, rfl, by decide +kernel⟩,
   ⟨mk [(.LANE_STAT_STATE, 5, 3), (.LANE_STAT_HELD, 5, 1)], _, 5, rfl, by decide +kernel⟩,
   ⟨mk [(.LANE_STAT_STATE, 5, 3), (.LANE_STAT_RECALPEND, 5, 1)], _, 5, rfl, by decide +kernel⟩,
   ⟨{ State.reset with dev := { (mk [(.LANE_STAT_STATE, 5, 3), (.ANG_SCKRATE_SPR, 2, 26666667)]).dev with ang := { val := 2 ^ 24 }, lanes := [(5, { gateAt := some 1 })] } }, _, 5, 1, rfl, by decide +kernel⟩,
   ⟨{ State.reset with dev := { (mk [(.LANE_STAT_STATE, 5, 3), (.ANG_SCKRATE_ENABLE, 2, 1), (.ANG_SCKRATE_SPR, 2, 26666667), (.ANG_SCKSTAT_UNOWNED, 2, 0)]).dev with ang := { rate := some 104857 }, lanes := [(5, { gateAt := some 1 })] } }, _, 5, 1, rfl, by decide +kernel⟩,
   ⟨mk [(.LANE_STAT_STATE, 5, 3), (.LANE_STAT_STATE, 7, 4)], _, 6, 5, [], rfl, by decide +kernel⟩,
   ⟨mk [(.LANE_STAT_STATE, 5, 1)], _, 5, { dnl := 1, tone := 2, offset := 3, corner := true, reference := true }, rfl, by decide +kernel⟩,
   ⟨mk [(.LANE_STAT_STATE, 5, 1)], _, 5, { dnl := 1, tone := 2, offset := 9, corner := true, reference := true }, rfl, by decide +kernel⟩,
   ⟨{ State.reset with dev := { (mk [(.ANG_STAT_STATE, 0, 2), (.LNX_ROUTE_EN, 6, 1)]).dev with srv := { acts := [(0, { guide := some 1, guidePair := some 3 })] } } }, _, 6, rfl, by decide +kernel⟩,
   ⟨mk [], _, 6, rfl, by decide +kernel⟩,
   ⟨{ State.reset with dev := { lanes := [(4, { servoAt := some 7 })], srv := { acts := [(0, { guide := some 1, guidePair := some 2 })] } } }, _, 4, 7, rfl, by decide +kernel⟩⟩

theorem witness_decode_and_track_parity :
    (∃ (s : State) (d : Dev) (l : Fin 64) (cs : Codes) (q : Nat) (j : Job) (x : Search) (rest : List Search) (after : Nat), s.dev.met.advance after = d ∧ ((l.val % 2 = 1) ∧ (d.slotOfPair (l.val / 2) = some q) ∧ ((d.seq q).job = some j) ∧ ((d.seq q).srchTrail = x :: rest) ∧ (j.kind = 1) ∧ ((d.window j x).last + 40 ≤ d.laneEdge l.val))) ∧
    (∃ (s : State) (d : Dev) (l : Fin 64) (cs : Codes) (q : Nat) (j : Job) (x : Search) (rest : List Search) (after : Nat), s.dev.met.advance after = d ∧ ((l.val % 2 = 0) ∧ (d.slotOfPair (l.val / 2) = some q) ∧ ((d.seq q).job = some j) ∧ ((d.seq q).srchLead = x :: rest) ∧ (j.kind ≠ 1) ∧ ((d.window j x).last + 40 ≤ d.laneEdge l.val))) ∧
    (∃ (s : State) (d : Dev) (k : Fin 128) (lead trail : Codes) (x : Ctx) (j : Job) (after : Nat), s.dev.met.advance after = d ∧ ((d.ctx? k.val = some x) ∧ (x.phase = .filling) ∧ ((d.seq x.fsq).job = some j))) ∧
    (∃ (s : State) (d : Dev) (k : Fin 128) (lead trail : Codes) (x : Ctx) (j : Job) (after : Nat), s.dev.met.advance after = d ∧ ((d.ctx? k.val = some x) ∧ (x.phase = .filling) ∧ ((d.seq x.fsq).job = some j) ∧ (d.codeOf x.prof x.metaBytes = none))) ∧
    (∃ (s : State) (d : Dev) (k : Fin 128) (lead trail : Codes) (x : Ctx) (j : Job) (after : Nat), s.dev.met.advance after = d ∧ ((d.ctx? k.val = some x) ∧ (x.phase = .filling) ∧ ((d.seq x.fsq).job = some j))) ∧
    (∃ (s : State) (d : Dev), s.dev.met = d ∧ ((d.itb.started = true) ∧ (d.itb.ctx = []) ∧ (d.itb.queue = []) ∧ (d.itb.waitq = []))) ∧
    (∃ (s : State) (d : Dev) (e : Fin 48) (k : Nat) (x : Ctx), s.dev.met = d ∧ (d.ctxInEngine e.val = some (k, x))) ∧
    (∃ (s : State) (d : Dev) (p : Fin 32) (k : Nat) (x : Ctx), s.dev.met = d ∧ (d.itb.ctx.find? (fun y => y.2.phase == .redetect p.val) = some (k, x))) ∧
    (∃ (s : State) (d : Dev) (k : Fin 128) (x : Ctx), s.dev.met = d ∧ (d.ctx? k.val = some x)) ∧
    (∃ (s : State) (d : Dev) (e : Fin 48), s.dev.met = d ∧ ((d.rd .ITB_ENGSTAT_STATE e.val ≠ 0) ∧ (d.ctxInEngine e.val = none))) ∧
    (∃ (s : State) (d : Dev) (e : Fin 48) (k : Nat) (x : Ctx), s.dev.met = d ∧ ((d.rd .ITB_ENGSTAT_STATE e.val ≠ 0) ∧ (d.ctxInEngine e.val = some (k, x)))) ∧
    (∃ (s : State) (d : Dev) (e : Fin 48), s.dev.met = d ∧ (d.rd .ITB_ENGSTAT_STATE e.val = 4)) ∧
    (∃ (s : State) (d : Dev) (e : Fin 48), s.dev.met = d ∧ (d.rd .ITB_ENGSTAT_STATE e.val = 3)) ∧
    (∃ (s : State) (d : Dev) (e : Fin 48), s.dev.met = d ∧ (d.rd .ITB_ENGSTAT_STATE e.val = 3)) ∧
    (∃ (s : State) (d : Dev) (e : Fin 48), s.dev.met = d ∧ (d.rd .ITB_ENGSTAT_STATE e.val = 1)) ∧
    (∃ (s : State) (d : Dev) (e : Fin 48), s.dev.met = d ∧ (d.rd .ITB_ENGSTAT_STATE e.val = 1)) ∧
    (∃ (s : State) (d : Dev) (z : Decoded) (rest : List Decoded) (fill : Nat), s.dev.met = d ∧ ((d.chk.queue = z :: rest) ∧ (d.rd .CHK_CTL_ENABLE ≠ 0) ∧ (z.judge = (0, psaGen z.psa, fill)))) ∧
    (∃ (s : State) (d : Dev) (z : Decoded) (rest : List Decoded), s.dev.met = d ∧ ((d.chk.queue = z :: rest) ∧ (d.rd .CHK_CTL_ENABLE ≠ 0) ∧ (z.judge = (1, 0, 0)))) ∧
    (∃ (s : State) (d : Dev) (k : Fin 4) (r : ReconReq) (z : Zone), s.dev.met = d ∧ ((d.tpe.recon[k.val]? = some r) ∧ (({ d with tpe := { d.tpe with recon := d.tpe.recon.eraseIdx k.val } } : Dev).reconZone r = some z))) ∧
    (∃ (s : State) (d : Dev) (q : Fin 32) (k : Fin 4) (r : ReconReq), s.dev.met = d ∧ (d.tpe.recon[k.val]? = some r)) ∧
    (∃ (s : State) (d : Dev) (surf : Fin 64) (track : Fin 1048576) (slot : Fin 1024) (gen : Fin 4096) (cmd : Option Word) (z : Zone), s.dev.met = d ∧ ((d.rd .CFG_STAT_RESTORED ≠ 0) ∧ (d.zoneOf surf.val track.val = some z) ∧ (z.spareTrack track.val = false ∧ d.roleOf z surf.val track.val slot.val ≠ .spare) ∧ (d.tpe.moves.any (fun x => x.member == mkPsa surf.val track.val slot.val 0) = false))) ∧
    (∃ (s : State) (d : Dev) (surf : Fin 64) (track : Fin 1048576) (slot : Fin 1024) (gen : Fin 4096) (cmd : Option Word) (z : Zone) (m : Move) (d1 : Dev) (t n : Nat), s.dev.met = d ∧ ((d.rd .CFG_STAT_RESTORED ≠ 0) ∧ (d.zoneOf surf.val track.val = some z) ∧ (z.spareTrack track.val = false ∧ d.roleOf z surf.val track.val slot.val ≠ .spare) ∧ (d.tpe.moves.any (fun x => x.member == mkPsa surf.val track.val slot.val 0) = false) ∧ (m = { surf := surf.val, track := track.val, slot := slot.val, gen := gen.val, cmd := cmd.map BitVec.toNat, tgt := none }) ∧ (d1 = { d with tpe := { d.tpe with moves := d.tpe.moves ++ [m] }, hlt := { d.hlt with cands := d.hlt.cands.filter fun p => p / 4096 != m.source / 4096 } }) ∧ (d1.spareTarget z track.val = some (t, n)) ∧ (d1.mayLock m track.val = true ∧ d1.mayLock m t = true))) ∧
    (∃ (s : State) (d : Dev) (surf : Fin 64) (track : Fin 1048576) (slot : Fin 1024) (gen : Fin 4096) (cmd : Option Word) (z : Zone) (m : Move) (d1 : Dev), s.dev.met = d ∧ ((d.rd .CFG_STAT_RESTORED ≠ 0) ∧ (d.zoneOf surf.val track.val = some z) ∧ (z.spareTrack track.val = false ∧ d.roleOf z surf.val track.val slot.val ≠ .spare) ∧ (d.tpe.moves.any (fun x => x.member == mkPsa surf.val track.val slot.val 0) = false) ∧ (m = { surf := surf.val, track := track.val, slot := slot.val, gen := gen.val, cmd := cmd.map BitVec.toNat, tgt := none }) ∧ (d1 = { d with tpe := { d.tpe with moves := d.tpe.moves ++ [m] }, hlt := { d.hlt with cands := d.hlt.cands.filter fun p => p / 4096 != m.source / 4096 } }) ∧ (d1.spareTarget z track.val = none))) ∧
    (∃ (s : State) (d : Dev) (surf : Fin 64) (track : Fin 1048576) (slot : Fin 1024) (kind : Fin 4) (tsurf : Fin 64) (ttrack : Fin 1048576) (tslot : Fin 1024), s.dev.met = d ∧ ((d.rd .CFG_STAT_RESTORED ≠ 0) ∧ (kind = 0 ∨ kind = 2) ∧ ((insertEntry ⟨surf.val, track.val, slot.val, kind.val, tsurf.val, ttrack.val, tslot.val⟩ d.defectMap).length ≤ d.rd .TPE_DEFMAX_MAX))) ∧
    (∃ (s : State) (d : Dev) (surf : Fin 64) (track : Fin 1048576) (slot : Fin 1024) (kind : Fin 4) (tsurf : Fin 64) (ttrack : Fin 1048576) (tslot : Fin 1024), s.dev.met = d ∧ (d.rd .CFG_STAT_RESTORED = 0)) ∧
    (∃ (s : State) (d : Dev) (surf : Fin 64) (track : Fin 1048576) (slot : Fin 1024) (kind : Fin 4) (tsurf : Fin 64) (ttrack : Fin 1048576) (tslot : Fin 1024), s.dev.met = d ∧ ((d.rd .CFG_STAT_RESTORED ≠ 0) ∧ (kind = 0 ∨ kind = 2) ∧ (d.rd .TPE_DEFMAX_MAX < (insertEntry ⟨surf.val, track.val, slot.val, kind.val, tsurf.val, ttrack.val, tslot.val⟩ d.defectMap).length))) :=
  ⟨⟨syncAt 1, _, 7, [], 8, { aJob with kind := 1 }, ⟨2, 0, 0⟩, [], 0, rfl, by decide +kernel⟩,
   ⟨syncAt 0, _, 6, [], 8, aJob, ⟨2, 0, 0⟩, [], 0, rfl, by decide +kernel⟩,
   ⟨captAt, _, 5, [], [], aCtx, aJob, 0, rfl, by decide +kernel⟩,
   ⟨captAt, _, 5, [], [], aCtx, aJob, 0, rfl, by decide +kernel⟩,
   ⟨captAt, _, 5, [], [], aCtx, aJob, 0, rfl, by decide +kernel⟩,
   ⟨{ State.reset with dev := { (mk [(.ITB_STAT_ESERV, 0, 3)]).dev with itb := { started := true, guarRun := 1 } } }, _, rfl, by decide +kernel⟩,
   ⟨{ State.reset with dev := { itb := { ctx := [(5, { aCtx with phase := .running 2, guar := 4 })] } } }, _, 2, 5, { aCtx with phase := .running 2, guar := 4 }, rfl, by decide +kernel⟩,
   ⟨{ State.reset with dev := { itb := { ctx := [(5, { aCtx with phase := .redetect 4 })], paths := [4] } } }, _, 4, 5, { aCtx with phase := .redetect 4 }, rfl, by decide +kernel⟩,
   ⟨{ State.reset with dev := { itb := { ctx := [(5, aCtx)] } } }, _, 5, aCtx, rfl, by decide +kernel⟩,
   ⟨mk [(.ITB_ENGSTAT_STATE, 6, 3)], _, 6, rfl, by decide +kernel⟩,
   ⟨{ State.reset with dev := { (mk [(.ITB_ENGSTAT_STATE, 6, 3)]).dev with itb := { ctx := [(5, { aCtx with phase := .running 6 })] } } }, _, 6, 5, { aCtx with phase := .running 6 }, rfl, by decide +kernel⟩,
   ⟨mk [(.ITB_ENGSTAT_STATE, 6, 4)], _, 6, rfl, by decide +kernel⟩,
   ⟨mk [(.ITB_ENGSTAT_STATE, 6, 3)], _, 6, rfl, by decide +kernel⟩,
   ⟨mk [(.ITB_ENGSTAT_STATE, 6, 3)], _, 6, rfl, by decide +kernel⟩,
   ⟨mk [(.ITB_ENGSTAT_STATE, 6, 1)], _, 6, rfl, by decide +kernel⟩,
   ⟨mk [(.ITB_ENGSTAT_STATE, 6, 1)], _, 6, rfl, by decide +kernel⟩,
   ⟨{ State.reset with dev := { (mk [(.CHK_CTL_ENABLE, 0, 1)]).dev with chk := { queue := [aSector] } } }, _, aSector, [], 0, rfl, by decide +kernel⟩,
   ⟨{ State.reset with dev := { (mk [(.CHK_CTL_ENABLE, 0, 1)]).dev with chk := { queue := [{ aSector with bytes := List.replicate 6 1 }] } } }, _, { aSector with bytes := List.replicate 6 1 }, [], rfl, by decide +kernel⟩,
   ⟨{ aZone with dev := { aZone.dev with tpe := { aZone.dev.tpe with recon := [aRecon] } } }, _, 0, aRecon, aZone.dev.zoneEnt 0, rfl, by decide +kernel⟩,
   ⟨{ State.reset with dev := { tpe := { recon := [aRecon] } } }, _, 4, 0, aRecon, rfl, by decide +kernel⟩,
   ⟨moveAt aZone, _, 9, 4, 2, 1, none, aZone.dev.zoneEnt 0, rfl, by decide +kernel⟩,
   ⟨moveAt aZone, _, 9, 4, 2, 1, none, aZone.dev.zoneEnt 0, { surf := 9, track := 4, slot := 2, gen := 1, cmd := none, tgt := none }, { (moveAt aZone).dev.met with tpe := { zones := [0], moves := [{ surf := 9, track := 4, slot := 2, gen := 1, cmd := none, tgt := none }] } }, 4, 960, rfl, by decide +kernel⟩,
   ⟨moveAt fullZone, _, 9, 4, 2, 1, none, fullZone.dev.zoneEnt 0, { surf := 9, track := 4, slot := 2, gen := 1, cmd := none, tgt := none }, { (moveAt fullZone).dev.met with tpe := { zones := [0], moves := [{ surf := 9, track := 4, slot := 2, gen := 1, cmd := none, tgt := none }] } }, rfl, by decide +kernel⟩,
   ⟨mk [(.CFG_STAT_RESTORED, 0, 1), (.TPE_DEFMAX_MAX, 0, 5)], _, 9, 5, 2, 0, 9, 7, 3, rfl, by decide +kernel⟩,
   ⟨mk [], _, 9, 5, 2, 0, 9, 7, 3, rfl, by decide +kernel⟩,
   ⟨mk [(.CFG_STAT_RESTORED, 0, 1), (.TPE_DEFMAX_MAX, 0, 0)], _, 9, 5, 2, 0, 9, 7, 3, rfl, by decide +kernel⟩⟩

theorem witness_sequencer_flow :
    (∃ (s : State) (d : Dev) (q : Fin 32), s.dev.met = d ∧ (d.fieldReady q.val .seq [0] = true)) ∧
    (∃ (s : State) (d : Dev) (q : Fin 32), s.dev.met = d ∧ (d.fieldReady q.val .seq [1] = true)) ∧
    (∃ (s : State) (d : Dev) (q : Fin 32), s.dev.met = d ∧ ((d.fieldReady q.val .seq [2] = true) ∧ ((d.acting q.val .seq).wordCond q.val (d.mword q.val) = true))) ∧
    (∃ (s : State) (d : Dev) (q : Fin 32), s.dev.met = d ∧ ((d.fieldReady q.val .seq [2] = true) ∧ ((d.acting q.val .seq).wordCond q.val (d.mword q.val) = false))) ∧
    (∃ (s : State) (d : Dev) (q : Fin 32), s.dev.met = d ∧ ((d.fieldReady q.val .seq [3] = true) ∧ ((d.seq q.val).cond.getD (d.wordCond q.val (d.mword q.val)) = true))) ∧
    (∃ (s : State) (d : Dev) (q : Fin 32), s.dev.met = d ∧ ((d.fieldReady q.val .seq [3] = true) ∧ ((d.seq q.val).cond.getD (d.wordCond q.val (d.mword q.val)) = false))) ∧
    (∃ (s : State) (d : Dev) (q : Fin 32) (p : Nat) (rest : List Nat), s.dev.met = d ∧ ((d.fieldReady q.val .seq [4] = true) ∧ ((d.seq q.val).stack = p :: rest) ∧ ((d.seq q.val).cond.getD (d.wordCond q.val (d.mword q.val)) = true))) ∧
    (∃ (s : State) (d : Dev) (q : Fin 32), s.dev.met = d ∧ (d.fieldReady q.val .seq [5] = true)) ∧
    (∃ (s : State) (d : Dev) (q : Fin 32), s.dev.met = d ∧ (d.fieldReady q.val .seq [6] = true)) ∧
    (∃ (s : State) (d : Dev) (q : Fin 32), s.dev.met = d ∧ (d.fieldReady q.val .seq [7] = true)) ∧
    (∃ (s : State) (d : Dev) (q : Fin 32), s.dev.met = d ∧ ((d.issuing q.val = true) ∧ (MField.seq.code (d.mword q.val) = 0) ∧ (d.breakDue q.val (d.mword q.val) = false) ∧ ((d.seq q.val).turn (d.mword q.val) .seq = true) ∧ ((d.seq q.val).acted = []) ∧ (d.illegal q.val (d.mword q.val) = true))) ∧
    (∃ (s : State) (d : Dev) (q : Fin 32), s.dev.met = d ∧ ((d.issuing q.val = true) ∧ (MField.wg.code (d.mword q.val) = 2) ∧ (d.breakDue q.val (d.mword q.val) = false) ∧ ((d.seq q.val).turn (d.mword q.val) .wg = true) ∧ ((d.seq q.val).acted = []) ∧ (d.illegal q.val (d.mword q.val) = false) ∧ (d.stalls q.val (d.mword q.val) = true))) ∧
    (∃ (s : State) (d : Dev) (q : Fin 32), s.dev.met = d ∧ (d.breakDue q.val (d.mword q.val) = true)) ∧
    (∃ (s : State) (d : Dev) (q : Fin 32), s.dev.met = d ∧ (d.issuing q.val = true)) ∧
    (∃ (s : State) (d : Dev) (q : Fin 32), s.dev.met = d ∧ (max 1 (d.rd .FSQ_CFG_JOBREV q.val) ≤ (d.seq q.val).revs)) ∧
    (∃ (s : State) (d : Dev) (q : Fin 32) (j : Job), s.dev.met = d ∧ ((d.drained q.val = true) ∧ ((d.seq q.val).job = some j))) ∧
    (∃ (s : State) (d : Dev) (q : Fin 32), s.dev.met = d ∧ (d.drained q.val = false)) ∧
    (∃ (s : State) (d : Dev) (q : Fin 32), s.dev.met = d ∧ (d.rd .FSQ_STAT_STATE q.val = 5)) ∧
    (∃ (s : State) (d : Dev) (q : Fin 32), s.dev.met = d ∧ (d.rd .FSQ_STAT_STATE q.val = 6)) ∧
    (∃ (s : State) (d : Dev) (q : Fin 32), s.dev.met = d ∧ (d.rd .FSQ_STAT_STATE q.val = 6)) ∧
    (∃ (s : State) (d : Dev) (a : Fin 4) (on : Bool), s.dev.met = d ∧ (on = false ∨ d.rd .FSQ_CSSTAT_OPENED a.val = 0)) ∧
    (∃ (s : State) (d : Dev) (a : Fin 4), s.dev.met = d ∧ ((d.rd .FSQ_CSSTAT_DRAINING a.val ≠ 0) ∧ (∀ k < 8, d.rd .FSQ_STAT_STATE (8 * a.val + k) = 0 ∨ d.rd .FSQ_STAT_STATE (8 * a.val + k) = 1 ∨ d.rd .FSQ_STAT_STATE (8 * a.val + k) = 5))) ∧
    (∃ (s : State) (d : Dev) (k : Fin 8) (a : Fin 4) (off size : Nat) (v : BitVec 64), s.dev.met = d ∧ ((storeAccess off size = true) ∧ (d.rd .FSQ_CSSTAT_OPENED a.val ≠ 0))) ∧
    (∃ (s : State) (d : Dev) (k : Fin 8) (a : Fin 4) (off size : Nat) (v : BitVec 64), s.dev.met = d ∧ ((storeAccess off size = true) ∧ (d.rd .FSQ_CSSTAT_OPENED a.val = 0))) ∧
    (∃ (s : State) (d : Dev) (k : Fin 8) (a : Fin 4) (off size : Nat) (bad : Bool), s.dev.met = d ∧ (storeAccess off size = true)) :=
  ⟨⟨fsqAt (0) { Seq.init with job := some { aJob with kind := 0 } } [], _, 8, rfl, by decide +kernel⟩,
   ⟨fsqAt (1 * 2 ^ 172) { Seq.init with job := some { aJob with kind := 0 } } [], _, 8, rfl, by decide +kernel⟩,
   ⟨fsqAt (2 * 2 ^ 172) { Seq.init with job := some { aJob with kind := 0 } } [], _, 8, rfl, by decide +kernel⟩,
   ⟨fsqAt (2 * 2 ^ 172 + 10 * 2 ^ 166) { Seq.init with job := some { aJob with kind := 0 } } [], _, 8, rfl, by decide +kernel⟩,
   ⟨fsqAt (3 * 2 ^ 172) { Seq.init with job := some { aJob with kind := 0 } } [], _, 8, rfl, by decide +kernel⟩,
   ⟨fsqAt (3 * 2 ^ 172 + 10 * 2 ^ 166) { Seq.init with job := some { aJob with kind := 0 } } [], _, 8, rfl, by decide +kernel⟩,
   ⟨fsqAt (4 * 2 ^ 172) { Seq.init with job := some { aJob with kind := 0 }, stack := [7, 9] } [], _, 8, 7, [9], rfl, by decide +kernel⟩,
   ⟨fsqAt (5 * 2 ^ 172) { Seq.init with job := some { aJob with kind := 0 } } [], _, 8, rfl, by decide +kernel⟩,
   ⟨fsqAt (6 * 2 ^ 172) { Seq.init with job := some { aJob with kind := 0 } } [], _, 8, rfl, by decide +kernel⟩,
   ⟨fsqAt (7 * 2 ^ 172) { Seq.init with job := some { aJob with kind := 0 } } [], _, 8, rfl, by decide +kernel⟩,
   ⟨fsqAt 1 { Seq.init with job := some aJob } [], _, 8, rfl, by decide +kernel⟩,
   ⟨fsqAt (2 * 2 ^ 147) { Seq.init with job := some aJob, wgq := [mkAct true (some 1) none, mkAct true (some 1) none, mkAct true (some 1) none, mkAct true (some 1) none] } [], _, 8, rfl, by decide +kernel⟩,
   ⟨fsqAt (2 ^ 124) { Seq.init with job := some aJob } [(.FSQ_CTL_BRKEN, 8, 1)], _, 8, rfl, by decide +kernel⟩,
   ⟨fsqAt 0 { Seq.init with job := some aJob } [], _, 8, rfl, by decide +kernel⟩,
   ⟨fsqAt 0 { Seq.init with job := some aJob, revs := 300 } [], _, 8, rfl, by decide +kernel⟩,
   ⟨fsqAt 0 { Seq.init with job := some aJob } [(.FSQ_STAT_STATE, 8, 3)], _, 8, aJob, rfl, by decide +kernel⟩,
   ⟨fsqAt 0 { Seq.init with job := some aJob } [], _, 8, rfl, by decide +kernel⟩,
   ⟨mk [(.FSQ_STAT_STATE, 8, 5)], _, 8, rfl, by decide +kernel⟩,
   ⟨mk [(.FSQ_STAT_STATE, 8, 6)], _, 8, rfl, by decide +kernel⟩,
   ⟨mk [(.FSQ_STAT_STATE, 8, 6)], _, 8, rfl, by decide +kernel⟩,
   ⟨mk [], _, 1, true, rfl, by decide +kernel⟩,
   ⟨mk [(.FSQ_CSSTAT_DRAINING, 1, 1)], _, 1, rfl, by decide +kernel⟩,
   ⟨mk [(.FSQ_CSSTAT_OPENED, 1, 1)], _, 2, 1, 8, 4, 5, rfl, by decide +kernel⟩,
   ⟨mk [], _, 2, 1, 8, 4, 5, rfl, by decide +kernel⟩,
   ⟨mk [], _, 2, 1, 8, 4, true, rfl, by decide +kernel⟩⟩

theorem witness_sequencer_gates :
    (∃ (s : State) (d : Dev) (q : Fin 32) (j : Job), s.dev.met = d ∧ ((d.fieldReady q.val .rg [1, 4, 6] = true) ∧ ((d.seq q.val).job = some j) ∧ (rgIgnored j.kind (MField.rg.code (d.mword q.val)) = false))) ∧
    (∃ (s : State) (d : Dev) (q : Fin 32) (j : Job), s.dev.met = d ∧ ((d.fieldReady q.val .rg [1, 4, 6] = true) ∧ ((d.seq q.val).job = some j) ∧ (rgIgnored j.kind (MField.rg.code (d.mword q.val)) = true))) ∧
    (∃ (s : State) (d : Dev) (q : Fin 32) (j : Job), s.dev.met = d ∧ ((d.fieldReady q.val .rg [2, 5, 7] = true) ∧ ((d.seq q.val).job = some j) ∧ (rgIgnored j.kind (MField.rg.code (d.mword q.val)) = false))) ∧
    (∃ (s : State) (d : Dev) (q : Fin 32) (j : Job), s.dev.met = d ∧ ((d.fieldReady q.val .rg [2, 5, 7] = true) ∧ ((d.seq q.val).job = some j) ∧ (rgIgnored j.kind (MField.rg.code (d.mword q.val)) = true))) ∧
    (∃ (s : State) (d : Dev) (q : Fin 32) (j : Job), s.dev.met = d ∧ ((d.fieldReady q.val .vg [1, 4, 6] = true) ∧ ((d.seq q.val).job = some j) ∧ (vgIgnored j.kind (MField.vg.code (d.mword q.val)) = false))) ∧
    (∃ (s : State) (d : Dev) (q : Fin 32) (j : Job), s.dev.met = d ∧ ((d.fieldReady q.val .vg [1, 4, 6] = true) ∧ ((d.seq q.val).job = some j) ∧ (vgIgnored j.kind (MField.vg.code (d.mword q.val)) = true))) ∧
    (∃ (s : State) (d : Dev) (q : Fin 32) (j : Job), s.dev.met = d ∧ ((d.fieldReady q.val .vg [2, 5, 7] = true) ∧ ((d.seq q.val).job = some j) ∧ (vgIgnored j.kind (MField.vg.code (d.mword q.val)) = false))) ∧
    (∃ (s : State) (d : Dev) (q : Fin 32) (j : Job), s.dev.met = d ∧ ((d.fieldReady q.val .vg [2, 5, 7] = true) ∧ ((d.seq q.val).job = some j) ∧ (vgIgnored j.kind (MField.vg.code (d.mword q.val)) = true))) ∧
    (∃ (s : State) (d : Dev) (q : Fin 32) (j : Job) (n : Nat), s.dev.met = d ∧ ((d.fieldReady q.val .wg [1, 4, 6] = true) ∧ ((d.seq q.val).job = some j) ∧ ((d.seq q.val).gateTarget (MField.wg.code (d.mword q.val)) = some (n * j.l)) ∧ ((d.acting q.val .wg).unnamed q.val = some n))) ∧
    (∃ (s : State) (d : Dev) (q : Fin 32) (j : Job), s.dev.met = d ∧ ((d.fieldReady q.val .wg [1, 4, 6] = true) ∧ ((d.seq q.val).job = some j) ∧ ((d.acting q.val .wg).unnamed q.val = none))) ∧
    (∃ (s : State) (d : Dev) (q : Fin 32), s.dev.met = d ∧ (d.fieldReady q.val .wg [2, 5, 7] = true)) ∧
    (∃ (s : State) (d : Dev) (q : Fin 32) (g : GateName) (j : Job) (after : Nat), s.dev.met.advance after = d ∧ ((d.seqBusy q.val = true) ∧ (d.rd .ANG_STAT_STATE = 2) ∧ ((d.seq q.val).job = some j))) ∧
    (∃ (s : State) (d : Dev) (q : Fin 32) (j : Job) (a : GateAct) (rest : List GateAct) (u k : Nat) (after : Nat), s.dev.met.advance after = d ∧ ((d.seqBusy q.val = true ∧ d.rd .ANG_STAT_STATE = 2) ∧ ((d.seq q.val).job = some j) ∧ (takeRg true ((d.seq q.val).routes == 2) (d.seq q.val).rgq = some (a, rest)) ∧ (a.opens = true) ∧ (d.actsAt q.val 0 a = some (u, k)))) ∧
    (∃ (s : State) (d : Dev) (q : Fin 32) (g : GateName) (after : Nat), s.dev.met.advance after = d ∧ (d.rd .ANG_STAT_STATE ≠ 2)) ∧
    (∃ (s : State) (d : Dev) (q : Fin 32), s.dev.met = d ∧ (d.fieldReady q.val .svg [1] = true)) ∧
    (∃ (s : State) (d : Dev) (q : Fin 32) (j : Job), s.dev.met = d ∧ ((d.fieldReady q.val .svg [2] = true) ∧ ((d.seq q.val).job = some j) ∧ (j.kind = 2))) ∧
    (∃ (s : State) (d : Dev) (q : Fin 32) (j : Job), s.dev.met = d ∧ ((d.fieldReady q.val .svg [2] = true) ∧ ((d.seq q.val).job = some j) ∧ (j.kind ≠ 2))) ∧
    (∃ (s : State) (d : Dev) (q : Fin 32) (j : Job), s.dev.met = d ∧ ((d.fieldReady q.val .rte [1] = true) ∧ ((d.seq q.val).job = some j))) ∧
    (∃ (s : State) (d : Dev) (q : Fin 32) (j : Job), s.dev.met = d ∧ ((d.fieldReady q.val .rte [2] = true) ∧ ((d.seq q.val).job = some j))) ∧
    (∃ (s : State) (d : Dev) (q : Fin 32) (j : Job), s.dev.met = d ∧ ((d.fieldReady q.val .rte [3] = true) ∧ ((d.seq q.val).job = some j))) ∧
    (∃ (s : State) (d : Dev) (q : Fin 32) (j : Job), s.dev.met = d ∧ ((d.fieldReady q.val .syn [1] = true) ∧ ((d.seq q.val).job = some j))) ∧
    (∃ (s : State) (d : Dev) (q : Fin 32) (j : Job), s.dev.met = d ∧ ((d.fieldReady q.val .syn [4] = true) ∧ ((d.seq q.val).job = some j) ∧ (j.kind ≠ 1))) ∧
    (∃ (s : State) (d : Dev) (q : Fin 32) (j : Job), s.dev.met = d ∧ ((d.fieldReady q.val .syn [2] = true) ∧ ((d.seq q.val).job = some j))) ∧
    (∃ (s : State) (d : Dev) (q : Fin 32), s.dev.met = d ∧ (d.fieldReady q.val .syn [3] = true)) ∧
    (∃ (s : State) (d : Dev) (q : Fin 32) (j : Job), s.dev.met = d ∧ ((d.fieldReady q.val .lfz [1] = true) ∧ ((d.seq q.val).job = some j))) ∧
    (∃ (s : State) (d : Dev) (q : Fin 32) (j : Job), s.dev.met = d ∧ ((d.fieldReady q.val .lfz [2] = true) ∧ ((d.seq q.val).job = some j))) ∧
    (∃ (s : State) (d : Dev) (q : Fin 32) (j : Job), s.dev.met = d ∧ ((d.fieldReady q.val .htr [1] = true) ∧ ((d.seq q.val).job = some j))) ∧
    (∃ (s : State) (d : Dev) (q : Fin 32) (j : Job), s.dev.met = d ∧ ((d.fieldReady q.val .htr [2] = true) ∧ ((d.seq q.val).job = some j))) :=
  ⟨⟨fsqAt (4 * 2 ^ 150) { Seq.init with job := some { aJob with kind := 0 } } [], _, 8, { aJob with kind := 0 }, rfl, by decide +kernel⟩,
   ⟨fsqAt (4 * 2 ^ 150) { Seq.init with job := some { aJob with kind := 1 } } [], _, 8, { aJob with kind := 1 }, rfl, by decide +kernel⟩,
   ⟨fsqAt (5 * 2 ^ 150) { Seq.init with job := some { aJob with kind := 0 } } [], _, 8, { aJob with kind := 0 }, rfl, by decide +kernel⟩,
   ⟨fsqAt (5 * 2 ^ 150) { Seq.init with job := some { aJob with kind := 1 } } [], _, 8, { aJob with kind := 1 }, rfl, by decide +kernel⟩,
   ⟨fsqAt (4 * 2 ^ 144) { Seq.init with job := some { aJob with kind := 1 } } [], _, 8, { aJob with kind := 1 }, rfl, by decide +kernel⟩,
   ⟨fsqAt (4 * 2 ^ 144) { Seq.init with job := some { aJob with kind := 0 } } [], _, 8, { aJob with kind := 0 }, rfl, by decide +kernel⟩,
   ⟨fsqAt (5 * 2 ^ 144) { Seq.init with job := some { aJob with kind := 1 } } [], _, 8, { aJob with kind := 1 }, rfl, by decide +kernel⟩,
   ⟨fsqAt (5 * 2 ^ 144) { Seq.init with job := some { aJob with kind := 0 } } [], _, 8, { aJob with kind := 0 }, rfl, by decide +kernel⟩,
   ⟨prepared <| fsqAt (4 * 2 ^ 147) { Seq.init with job := some { aJob with kind := 1 }, pca := { target := 200, armed := true } } [], _, 8, { aJob with kind := 1 }, 2, rfl, by decide +kernel⟩,
   ⟨fsqAt (4 * 2 ^ 147) { Seq.init with job := some { aJob with kind := 1 } } [], _, 8, { aJob with kind := 1 }, rfl, by decide +kernel⟩,
   ⟨fsqAt (2 * 2 ^ 147) { Seq.init with job := some { aJob with kind := 1 } } [], _, 8, rfl, by decide +kernel⟩,
   ⟨fsqAt 0 { Seq.init with job := some aJob, rgq := [mkAct true (some 1) none] } [(.ANG_STAT_STATE, 0, 2)], _, 8, .rgLead, { aJob with kind := 0 }, 0, rfl, by decide +kernel⟩,
   ⟨gateDev, _, 8, aJob, mkAct true (some 1) none, [{ mkAct true (some 1) none with lead := true }], 1, 1747626688513, 0, rfl, by decide +kernel⟩,
   ⟨fsqAt 0 { Seq.init with job := some aJob, rgq := [mkAct true (some 1) none] } [], _, 8, .rgLead, 0, rfl, by decide +kernel⟩,
   ⟨fsqAt (1 * 2 ^ 142) { Seq.init with job := some { aJob with kind := 0 } } [], _, 8, rfl, by decide +kernel⟩,
   ⟨fsqAt (2 * 2 ^ 142) { Seq.init with job := some { aJob with kind := 2 } } [], _, 8, { aJob with kind := 2 }, rfl, by decide +kernel⟩,
   ⟨fsqAt (2 * 2 ^ 142) { Seq.init with job := some { aJob with kind := 0 } } [], _, 8, { aJob with kind := 0 }, rfl, by decide +kernel⟩,
   ⟨fsqAt (1 * 2 ^ 140) { Seq.init with job := some { aJob with kind := 0 } } [], _, 8, { aJob with kind := 0 }, rfl, by decide +kernel⟩,
   ⟨fsqAt (2 * 2 ^ 140) { Seq.init with job := some { aJob with kind := 0 } } [], _, 8, { aJob with kind := 0 }, rfl, by decide +kernel⟩,
   ⟨fsqAt (3 * 2 ^ 140) { Seq.init with job := some { aJob with kind := 0 } } [], _, 8, { aJob with kind := 0 }, rfl, by decide +kernel⟩,
   ⟨fsqAt (1 * 2 ^ 137) { Seq.init with job := some { aJob with kind := 0 } } [], _, 8, { aJob with kind := 0 }, rfl, by decide +kernel⟩,
   ⟨fsqAt (4 * 2 ^ 137) { Seq.init with job := some { aJob with kind := 0 } } [], _, 8, { aJob with kind := 0 }, rfl, by decide +kernel⟩,
   ⟨fsqAt (2 * 2 ^ 137) { Seq.init with job := some { aJob with kind := 0 } } [], _, 8, { aJob with kind := 0 }, rfl, by decide +kernel⟩,
   ⟨fsqAt (3 * 2 ^ 137) { Seq.init with job := some { aJob with kind := 0 } } [], _, 8, rfl, by decide +kernel⟩,
   ⟨fsqAt (1 * 2 ^ 131) { Seq.init with job := some { aJob with kind := 0 } } [], _, 8, { aJob with kind := 0 }, rfl, by decide +kernel⟩,
   ⟨fsqAt (2 * 2 ^ 131) { Seq.init with job := some { aJob with kind := 0 } } [], _, 8, { aJob with kind := 0 }, rfl, by decide +kernel⟩,
   ⟨fsqAt (1 * 2 ^ 129) { Seq.init with job := some { aJob with kind := 0 } } [], _, 8, { aJob with kind := 0 }, rfl, by decide +kernel⟩,
   ⟨fsqAt (2 * 2 ^ 129) { Seq.init with job := some { aJob with kind := 0 } } [], _, 8, { aJob with kind := 0 }, rfl, by decide +kernel⟩⟩

theorem witness_sequencer_entries :
    (∃ (s : State) (d : Dev) (q : Fin 32) (j : Job) (e : Entry), s.dev.met = d ∧ ((d.fieldReady q.val .jop [1] = true) ∧ ((d.seq q.val).job = some j) ∧ (j.entries[(d.seq q.val).next]? = some e))) ∧
    (∃ (s : State) (d : Dev) (q : Fin 32) (j : Job), s.dev.met = d ∧ ((d.fieldReady q.val .jop [1] = true) ∧ ((d.seq q.val).job = some j) ∧ (j.entries[(d.seq q.val).next]? = none))) ∧
    (∃ (s : State) (d : Dev) (q : Fin 32), s.dev.met = d ∧ ((d.fieldReady q.val .jop [2] = true) ∧ (d.rd .FSQ_ENTRY_VALID q.val ≠ 0) ∧ ((d.seq q.val).done.contains (d.rd .FSQ_ENTRY_INDEX q.val) = false))) ∧
    (∃ (s : State) (d : Dev) (q : Fin 32) (j : Job), s.dev.met = d ∧ ((d.fieldReady q.val .jop [3] = true) ∧ ((d.seq q.val).job = some j) ∧ (d.rd .FSQ_ENTRY_VALID q.val ≠ 0) ∧ ((d.seq q.val).returned.contains (d.rd .FSQ_ENTRY_INDEX q.val) = false))) ∧
    (∃ (s : State) (d : Dev) (q : Fin 32) (attempt : Nat) (stored : Option StoredParity) (j : Job) (e : Entry), s.dev.met = d ∧ ((d.fieldReady q.val .wds [1] = true) ∧ ((d.seq q.val).job = some j) ∧ (j.kind = 1) ∧ (j.entries[d.rd .FSQ_ENTRY_INDEX q.val]? = some e) ∧ (d.rd .FSQ_ENTRY_VALID q.val ≠ 0))) ∧
    (∃ (s : State) (d : Dev) (q : Fin 32) (attempt : Nat) (stored : Option StoredParity) (j : Job), s.dev.met = d ∧ ((d.fieldReady q.val .wds [1] = true) ∧ ((d.seq q.val).job = some j) ∧ (j.kind ≠ 1))) ∧
    (∃ (s : State) (d : Dev) (q : Fin 32), s.dev.met = d ∧ (d.fieldReady q.val .wds [2] = true)) ∧
    (∃ (s : State) (d : Dev) (q : Fin 32) (j : Job), s.dev.met = d ∧ ((d.fieldReady q.val .post [1] = true) ∧ ((d.seq q.val).job = some j))) ∧
    (∃ (s : State) (d : Dev) (q : Fin 32), s.dev.met = d ∧ (d.fieldReady q.val .post [2] = true)) ∧
    (∃ (s : State) (d : Dev) (q : Fin 32), s.dev.met = d ∧ (d.fieldReady q.val .post [3] = true)) ∧
    (∃ (s : State) (d : Dev) (q : Fin 32) (j : Job), s.dev.met = d ∧ ((d.fieldReady q.val .post [4] = true) ∧ ((d.seq q.val).job = some j))) ∧
    (∃ (s : State) (d : Dev) (q : Fin 32), s.dev.met = d ∧ (d.fieldReady q.val .stamp [1] = true)) ∧
    (∃ (s : State) (d : Dev) (q : Fin 32), s.dev.met = d ∧ (d.fieldReady q.val .ac [1] = true)) ∧
    (∃ (s : State) (d : Dev) (q : Fin 32), s.dev.met = d ∧ (d.fieldReady q.val .ac [2] = true)) ∧
    (∃ (s : State) (d : Dev) (q : Fin 32), s.dev.met = d ∧ (d.fieldReady q.val .ac [3] = true)) ∧
    (∃ (s : State) (d : Dev) (q : Fin 32), s.dev.met = d ∧ (d.fieldReady q.val .ac [4] = true)) ∧
    (∃ (s : State) (d : Dev) (q : Fin 32), s.dev.met = d ∧ (d.fieldReady q.val .ac [5] = true)) ∧
    (∃ (s : State) (d : Dev) (q : Fin 32) (j : Job), s.dev.met = d ∧ ((d.fieldReady q.val .pc [1] = true) ∧ ((d.seq q.val).job = some j))) ∧
    (∃ (s : State) (d : Dev) (q : Fin 32) (j : Job), s.dev.met = d ∧ ((d.fieldReady q.val .pc [2] = true) ∧ ((d.seq q.val).job = some j))) ∧
    (∃ (s : State) (d : Dev) (q : Fin 32) (j : Job), s.dev.met = d ∧ ((d.fieldReady q.val .pc [3] = true) ∧ ((d.seq q.val).job = some j))) ∧
    (∃ (s : State) (d : Dev) (q : Fin 32) (j : Job), s.dev.met = d ∧ ((d.fieldReady q.val .pc [4] = true) ∧ ((d.seq q.val).job = some j))) ∧
    (∃ (s : State) (d : Dev) (q : Fin 32), s.dev.met = d ∧ (d.fieldReady q.val .pc [5] = true)) ∧
    (∃ (s : State) (d : Dev) (q : Fin 32) (b : Bool) (after : Nat), s.dev.met.advance after = d ∧ ((d.seqBusy q.val = true) ∧ ((if b then (d.seq q.val).pcb else (d.seq q.val).pca).armed = true) ∧ (d.meets q.val (if b then (d.seq q.val).pcb else (d.seq q.val).pca).ctr (if b then (d.seq q.val).pcb else (d.seq q.val).pca).target = true))) ∧
    (∃ (s : State) (d : Dev) (q : Fin 32), s.dev.met = d ∧ (d.fieldReady q.val .c0 [1] = true)) ∧
    (∃ (s : State) (d : Dev) (q : Fin 32), s.dev.met = d ∧ (d.fieldReady q.val .c1 [1] = true)) ∧
    (∃ (s : State) (d : Dev) (q : Fin 32), s.dev.met = d ∧ (d.fieldReady q.val .c0 [2] = true)) ∧
    (∃ (s : State) (d : Dev) (q : Fin 32), s.dev.met = d ∧ (d.fieldReady q.val .c1 [2] = true)) ∧
    (∃ (s : State) (d : Dev) (q : Fin 32), s.dev.met = d ∧ (d.fieldReady q.val .c0 [3] = true)) ∧
    (∃ (s : State) (d : Dev) (q : Fin 32), s.dev.met = d ∧ (d.fieldReady q.val .c1 [3] = true)) ∧
    (∃ (s : State) (d : Dev) (q : Fin 32) (n : Nat), s.dev.met = d ∧ (((d.wslot q.val).cur = some n) ∧ ((d.wslot q.val).emits.any (fun e => e.slot == n && e.driven) = true))) ∧
    (∃ (s : State) (d : Dev) (q : Fin 32) (j : Job) (n : Nat) (after : Nat), s.dev.met.advance after = d ∧ (((d.seq q.val).job = some j) ∧ (d.fence q.val j = false) ∧ (((d.idleOutput q.val).seq q.val).job = some j) ∧ (((d.idleOutput q.val).wslot q.val).cur = some n) ∧ ((d.idleOutput q.val).pastCode q.val j n = false))) ∧
    (∃ (s : State) (d : Dev) (a : Fin 4), s.dev.met = d ∧ (d.rd .WRF_GUARD_HOLD a.val < Tab.getD d.wrf.clean a.val 0)) :=
  ⟨⟨fsqAt (1 * 2 ^ 135) { Seq.init with job := some { aJob with kind := 0 } } [], _, 8, { aJob with kind := 0 }, { slot := 2, role := 0, bufIdx := 0 }, rfl, by decide +kernel⟩,
   ⟨fsqAt (1 * 2 ^ 135) { Seq.init with job := some { aJob with kind := 0 }, next := 2 } [], _, 8, { aJob with kind := 0 }, rfl, by decide +kernel⟩,
   ⟨fsqAt (2 * 2 ^ 135) { Seq.init with job := some { aJob with kind := 0 } } [(.FSQ_ENTRY_VALID, 8, 1)], _, 8, rfl, by decide +kernel⟩,
   ⟨fsqAt (3 * 2 ^ 135) { Seq.init with job := some { aJob with kind := 0 } } [(.FSQ_ENTRY_VALID, 8, 1)], _, 8, { aJob with kind := 0 }, rfl, by decide +kernel⟩,
   ⟨fsqAt (1 * 2 ^ 133) { Seq.init with job := some { aJob with kind := 1 } } [(.FSQ_ENTRY_VALID, 8, 1), (.WRF_CTL_ENABLE, 0, 1)], _, 8, 0, none, { aJob with kind := 1 }, { slot := 2, role := 0, bufIdx := 0 }, rfl, by decide +kernel⟩,
   ⟨fsqAt (1 * 2 ^ 133) { Seq.init with job := some { aJob with kind := 0 } } [], _, 8, 0, none, { aJob with kind := 0 }, rfl, by decide +kernel⟩,
   ⟨fsqAt (2 * 2 ^ 133) { Seq.init with job := some { aJob with kind := 0 } } [], _, 8, rfl, by decide +kernel⟩,
   ⟨fsqAt (1 * 2 ^ 126) { Seq.init with job := some { aJob with kind := 0 } } [], _, 8, { aJob with kind := 0 }, rfl, by decide +kernel⟩,
   ⟨fsqAt (2 * 2 ^ 126) { Seq.init with job := some { aJob with kind := 0 } } [], _, 8, rfl, by decide +kernel⟩,
   ⟨fsqAt (3 * 2 ^ 126) { Seq.init with job := some { aJob with kind := 0 } } [], _, 8, rfl, by decide +kernel⟩,
   ⟨fsqAt (4 * 2 ^ 126) { Seq.init with job := some { aJob with kind := 0 } } [], _, 8, { aJob with kind := 0 }, rfl, by decide +kernel⟩,
   ⟨fsqAt (1 * 2 ^ 125) { Seq.init with job := some { aJob with kind := 0 } } [], _, 8, rfl, by decide +kernel⟩,
   ⟨fsqAt (1 * 2 ^ 120) { Seq.init with job := some { aJob with kind := 0 } } [], _, 8, rfl, by decide +kernel⟩,
   ⟨fsqAt (2 * 2 ^ 120) { Seq.init with job := some { aJob with kind := 0 } } [], _, 8, rfl, by decide +kernel⟩,
   ⟨fsqAt (3 * 2 ^ 120) { Seq.init with job := some { aJob with kind := 0 } } [], _, 8, rfl, by decide +kernel⟩,
   ⟨fsqAt (4 * 2 ^ 120) { Seq.init with job := some { aJob with kind := 0 } } [], _, 8, rfl, by decide +kernel⟩,
   ⟨fsqAt (5 * 2 ^ 120) { Seq.init with job := some { aJob with kind := 0 } } [], _, 8, rfl, by decide +kernel⟩,
   ⟨fsqAt (1 * 2 ^ 66) { Seq.init with job := some { aJob with kind := 0 } } [], _, 8, { aJob with kind := 0 }, rfl, by decide +kernel⟩,
   ⟨fsqAt (2 * 2 ^ 66) { Seq.init with job := some { aJob with kind := 0 } } [], _, 8, { aJob with kind := 0 }, rfl, by decide +kernel⟩,
   ⟨fsqAt (3 * 2 ^ 66) { Seq.init with job := some { aJob with kind := 0 } } [], _, 8, { aJob with kind := 0 }, rfl, by decide +kernel⟩,
   ⟨fsqAt (4 * 2 ^ 66) { Seq.init with job := some { aJob with kind := 0 } } [], _, 8, { aJob with kind := 0 }, rfl, by decide +kernel⟩,
   ⟨fsqAt (5 * 2 ^ 66) { Seq.init with job := some { aJob with kind := 0 } } [], _, 8, rfl, by decide +kernel⟩,
   ⟨gateDev, _, 8, false, 0, rfl, by decide +kernel⟩,
   ⟨fsqAt (1 * 2 ^ 36) { Seq.init with job := some { aJob with kind := 0 } } [], _, 8, rfl, by decide +kernel⟩,
   ⟨fsqAt (1 * 2 ^ 34) { Seq.init with job := some { aJob with kind := 0 } } [], _, 8, rfl, by decide +kernel⟩,
   ⟨fsqAt (2 * 2 ^ 36) { Seq.init with job := some { aJob with kind := 0 } } [], _, 8, rfl, by decide +kernel⟩,
   ⟨fsqAt (2 * 2 ^ 34) { Seq.init with job := some { aJob with kind := 0 } } [], _, 8, rfl, by decide +kernel⟩,
   ⟨fsqAt (3 * 2 ^ 36) { Seq.init with job := some { aJob with kind := 0 } } [], _, 8, rfl, by decide +kernel⟩,
   ⟨fsqAt (3 * 2 ^ 34) { Seq.init with job := some { aJob with kind := 0 } } [], _, 8, rfl, by decide +kernel⟩,
   ⟨{ State.reset with dev := { wrf := { slots := [(8, { Wslot.init with cur := some 2, endAt := 90, emits := [anEmit] })] } } }, _, 8, 2, rfl, by decide +kernel⟩,
   ⟨{ State.reset with dev := { fsq := { seqs := [(8, { Seq.init with job := some aJob })] }, wrf := { slots := [(8, { Wslot.init with cur := some 2, endAt := 90, emits := [anEmit] })] } } }, _, 8, aJob, 2, 0, rfl, by decide +kernel⟩,
   ⟨{ State.reset with dev := { (mk [(.WRF_GSTAT_INHIBIT, 1, 1)]).dev with wrf := { clean := [(1, 500)] } } }, _, 1, rfl, by decide +kernel⟩⟩

theorem witness_servo_samples_and_drive :
    (∃ (s : State) (d : Dev) (h : Fin 128) (x : ServoObs) (after : Nat), s.dev.met.advance after = d ∧ ((d.fieldRead h.val = true) ∧ ((d.demod h.val x).valid = true))) ∧
    (∃ (s : State) (d : Dev) (h : Fin 128) (x : ServoObs) (after : Nat), s.dev.met.advance after = d ∧ ((d.fieldRead h.val = true) ∧ ((d.demod h.val x).valid = false))) ∧
    (∃ (s : State) (d : Dev) (h : Fin 128) (q r : Nat) (after : Nat), s.dev.met.advance after = d ∧ ((d.rd .ANG_STAT_STATE = 2) ∧ (d.ang.rate = some r) ∧ (1875 * r ≤ (d.wedgeOf h.val).2 * 65536) ∧ ((d.head h.val).last.map Prod.fst ≠ some (d.wedgeOf h.val).1) ∧ ((d.head h.val).missed ≠ some (d.frameAngle 1 h.val / rev * d.wedges + (d.wedgeOf h.val).1)) ∧ (d.slotOfHead h.val = some q))) ∧
    (∃ (s : State) (d : Dev) (a : Fin 4) (k : Runaway) (after : Nat), s.dev.met.advance after = d ∧ (d.runawayStands a.val k = true)) ∧
    (∃ (s : State) (d : Dev) (a : Fin 4) (k : Runaway) (after : Nat), s.dev.met.advance after = d ∧ (d.runawayStands a.val k = false)) ∧
    (∃ (s : State) (d : Dev) (a : Fin 4) (after : Nat), s.dev.met.advance after = d ∧ ((d.rd .SRV_STAT_MODE a.val = 1 ∨ d.rd .SRV_STAT_MODE a.val = 2 ∨ d.rd .SRV_STAT_MODE a.val = 3) ∧ ((d.act a.val).validAt + 1875 < d.now) ∧ (d.ticksPass (2 * rev) ((d.now - (d.act a.val).validAt - 1875) * d.wedges) = true) ∧ ((d.act a.val).lossFor ≠ some (d.act a.val).validAt))) ∧
    (∃ (s : State) (d : Dev) (a : Fin 4) (after : Nat), s.dev.met.advance after = d ∧ ((d.updateDue a.val = true) ∧ ((d.act a.val).retract = false) ∧ (d.rd .SRV_RVFF_EN a.val = 0))) ∧
    (∃ (s : State) (d : Dev) (a : Fin 4) (after : Nat), s.dev.met.advance after = d ∧ ((d.act a.val).retract = true ∨ d.updateDue a.val = false)) ∧
    (∃ (s : State) (d : Dev) (a : Fin 4) (w : Word), s.dev.met = d ∧ ((d.act a.val).retract = false)) ∧
    (∃ (s : State) (d : Dev) (a : Fin 4) (w : Word), s.dev.met = d ∧ ((d.act a.val).retract = true)) ∧
    (∃ (s : State) (d : Dev) (h : Fin 128) (w : Word), s.dev.met = d ∧ ((d.act (actOfHead h.val)).guide ≠ some h.val)) ∧
    (∃ (s : State) (d : Dev) (h : Fin 128) (after : Nat), s.dev.met.advance after = d ∧ ((d.rd .ANG_STAT_STATE = 2) ∧ ((d.wedgeNow (d.frameOff 1 h.val + d.rd .SRV_TIMING_MDLY (actOfHead h.val))).isSome = true) ∧ ((d.head h.val).sentMa ≠ some (d.rd .SRV_MA_CODE h.val)) ∧ ((d.head h.val).clamped = false))) ∧
    (∃ (s : State) (d : Dev) (h : Fin 128) (after : Nat), s.dev.met.advance after = d ∧ ((d.head h.val).sentMa = some (d.rd .SRV_MA_CODE h.val))) :=
  ⟨⟨servoDev [(.SRV_SAMPAT_PAT, 0, 0)], _, 9, goodField, 0, rfl, by decide +kernel⟩,
   ⟨servoDev [], _, 9, goodField, 0, rfl, by decide +kernel⟩,
   ⟨servoDev [], _, 9, 8, 104857, 2000, rfl, by decide +kernel⟩,
   ⟨{ State.reset with dev := { srv := { acts := [(1, { Act.init with curOff := some 0 })] } } }, _, 1, .idrive, 30000, rfl, by decide +kernel⟩,
   ⟨mk [], _, 1, .idrive, 3, rfl, by decide +kernel⟩,
   ⟨servoDev [(.SRV_STAT_MODE, 1, 2)], _, 1, 30000000, rfl, by decide +kernel⟩,
   ⟨pointDev, _, 0, 0, rfl, by decide +kernel⟩,
   ⟨{ State.reset with dev := { srv := { acts := [(1, { Act.init with retract := true })] } } }, _, 1, 0, rfl, by decide +kernel⟩,
   ⟨mk [], _, 1, 5, rfl, by decide +kernel⟩,
   ⟨{ State.reset with dev := { srv := { acts := [(1, { Act.init with retract := true })] } } }, _, 1, 5, rfl, by decide +kernel⟩,
   ⟨mk [], _, 9, 5, rfl, by decide +kernel⟩,
   ⟨pointDev, _, 9, 0, rfl, by decide +kernel⟩,
   ⟨{ State.reset with dev := { srv := { heads := [(9, { Head.init with sentMa := some 0 })] } } }, _, 9, 0, rfl, by decide +kernel⟩⟩

theorem witness_actuators_and_heads :
    (∃ (s : State) (d : Dev) (a : Fin 4) (after : Nat), s.dev.met.advance after = d ∧ ((d.rd .SRV_STAT_MODE a.val = 3) ∧ (d.seekOver a.val = true) ∧ ((d.act a.val).seekTo < 2))) ∧
    (∃ (s : State) (d : Dev) (a : Fin 4) (after : Nat), s.dev.met.advance after = d ∧ ((d.rd .SRV_STAT_MODE a.val = 3) ∧ (d.seekOver a.val = true) ∧ ((d.act a.val).seekTo = 2))) ∧
    (∃ (s : State) (d : Dev) (a : Fin 4) (after : Nat), s.dev.met.advance after = d ∧ ((d.loadOver a.val = true) ∧ (d.rd .SRV_STAT_MODE a.val = 1) ∧ (d.rd .SRV_STAT_SVC a.val = 1))) ∧
    (∃ (s : State) (d : Dev) (a : Fin 4) (after : Nat), s.dev.met.advance after = d ∧ ((d.loadOver a.val = true) ∧ (d.rd .SRV_STAT_MODE a.val = 1) ∧ (d.rd .SRV_STAT_SVC a.val ≠ 1))) ∧
    (∃ (s : State) (d : Dev) (a : Fin 4) (after : Nat), s.dev.met.advance after = d ∧ ((d.loadOver a.val = true) ∧ (d.rd .SRV_STAT_MODE a.val = 4))) ∧
    (∃ (s : State) (d : Dev) (a : Fin 4) (after : Nat), s.dev.met.advance after = d ∧ (((d.act a.val).retract = true) ∧ ((d.act a.val).modeAt + d.rd .SRV_RETRACT_TIME a.val * 12500 ≤ d.now))) ∧
    (∃ (s : State) (d : Dev) (a : Fin 4) (after : Nat), s.dev.met.advance after = d ∧ ((d.act a.val).retract = false)) ∧
    (∃ (s : State) (d : Dev) (a : Fin 4), s.dev.met = d ∧ ((d.rd .SRV_STAT_MODE a.val = 1) ∧ (3 ≤ (d.act a.val).guideOk))) ∧
    (∃ (s : State) (d : Dev) (a : Fin 4), s.dev.met = d ∧ (d.rd .SRV_STAT_MODE a.val = 3)) ∧
    (∃ (s : State) (d : Dev) (a : Fin 4), s.dev.met = d ∧ (d.rd .SRV_STAT_MODE a.val = 4)) ∧
    (∃ (s : State) (d : Dev) (a : Fin 4), s.dev.met = d ∧ ((d.rd .SRV_STAT_MODE a.val = 2) ∧ (d.rd .SRV_STAT_SVC a.val = 1) ∧ (d.rd .SRV_CAL_PASS a.val ≠ 0) ∧ (d.headsPass a.val = true))) ∧
    (∃ (s : State) (d : Dev) (a : Fin 4), s.dev.met = d ∧ ((d.rd .SRV_STAT_MODE a.val = 2) ∧ (d.rd .SRV_STAT_SVC a.val = 1) ∧ (d.rd .SRV_CAL_PASS a.val = 0))) ∧
    (∃ (s : State) (d : Dev) (a : Fin 4), s.dev.met = d ∧ ((d.rd .SPN_STAT_INRANGE ≠ 0) ∧ (d.rd .ANG_STAT_STATE = 2) ∧ (d.parkedUnit a.val = true) ∧ (a.val ∉ d.sch.loads))) ∧
    (∃ (s : State) (d : Dev) (a : Fin 4), s.dev.met = d ∧ (d.rd .SPN_STAT_INRANGE = 0)) ∧
    (∃ (s : State) (d : Dev) (a : Fin 4), s.dev.met = d ∧ (d.rd .SRV_STAT_MODE a.val = 2)) ∧
    (∃ (s : State) (d : Dev) (a : Fin 4), s.dev.met = d ∧ (d.rd .SRV_STAT_MODE a.val ≠ 2)) ∧
    (∃ (s : State) (d : Dev) (a : Fin 4), s.dev.met = d ∧ ((d.rd .SRV_STAT_SVC a.val ≠ 0) ∧ (d.rd .SRV_STAT_SVC a.val ≠ 4))) ∧
    (∃ (s : State) (d : Dev) (a : Fin 4), s.dev.met = d ∧ (d.rd .SRV_STAT_SVC a.val = 4)) ∧
    (∃ (s : State) (d : Dev) (a : Fin 4), s.dev.met = d ∧ (d.rd .SRV_STAT_SVC a.val = 4)) ∧
    (∃ (s : State) (d : Dev) (h : Fin 128), s.dev.met = d ∧ ((d.rd .SRV_HSTAT_STATE h.val ≠ 0) ∧ (d.rd .SRV_HSTAT_STATE h.val ≠ 4))) ∧
    (∃ (s : State) (d : Dev) (h : Fin 128), s.dev.met = d ∧ (d.rd .SRV_HSTAT_STATE h.val = 4)) ∧
    (∃ (s : State) (d : Dev) (h : Fin 128), s.dev.met = d ∧ (d.rd .SRV_HSTAT_STATE h.val ≠ 4)) :=
  ⟨⟨servoDev [(.SRV_STAT_MODE, 1, 3)], _, 1, 50000000, rfl, by decide +kernel⟩,
   ⟨let s := servoDev [(.SRV_STAT_MODE, 1, 3)]; { s with dev := { s.dev with srv := { acts := [(1, { Act.init with seekTo := 2 })] } } }, _, 1, 50000000, rfl, by decide +kernel⟩,
   ⟨mk [(.SRV_STAT_MODE, 1, 1), (.SRV_STAT_SVC, 1, 1)], _, 1, 2000000000, rfl, by decide +kernel⟩,
   ⟨mk [(.SRV_STAT_MODE, 1, 1), (.SRV_STAT_SVC, 1, 3)], _, 1, 2000000000, rfl, by decide +kernel⟩,
   ⟨mk [(.SRV_STAT_MODE, 1, 4)], _, 1, 2000000000, rfl, by decide +kernel⟩,
   ⟨{ State.reset with dev := { srv := { acts := [(1, { Act.init with retract := true })] } } }, _, 1, 20000000, rfl, by decide +kernel⟩,
   ⟨mk [], _, 1, 3, rfl, by decide +kernel⟩,
   ⟨{ State.reset with dev := { (mk [(.SRV_STAT_MODE, 1, 1)]).dev with srv := { acts := [(1, { Act.init with guideOk := 3 })] } } }, _, 1, rfl, by decide +kernel⟩,
   ⟨mk [(.SRV_STAT_MODE, 1, 3)], _, 1, rfl, by decide +kernel⟩,
   ⟨mk [(.SRV_STAT_MODE, 1, 4)], _, 1, rfl, by decide +kernel⟩,
   ⟨let s := mk [(.SRV_STAT_MODE, 1, 2), (.SRV_STAT_SVC, 1, 1), (.SRV_CAL_PASS, 1, 1), (.RDI_CTL_DECL, 64, 1), (.SRV_HSTAT_STATE, 32, 3)]; { s with dev := { s.dev with srv := { heads := [(32, { Head.init with calOk := 512 })] } } }, _, 1, rfl, by decide +kernel⟩,
   ⟨mk [(.SRV_STAT_MODE, 1, 2), (.SRV_STAT_SVC, 1, 1)], _, 1, rfl, by decide +kernel⟩,
   ⟨mk [(.SPN_STAT_INRANGE, 0, 1), (.ANG_STAT_STATE, 0, 2), (.SRV_STAT_SVC, 1, 3)], _, 1, rfl, by decide +kernel⟩,
   ⟨mk [], _, 1, rfl, by decide +kernel⟩,
   ⟨mk [(.SRV_STAT_MODE, 1, 2)], _, 1, rfl, by decide +kernel⟩,
   ⟨mk [], _, 1, rfl, by decide +kernel⟩,
   ⟨mk [(.SRV_STAT_SVC, 1, 3)], _, 1, rfl, by decide +kernel⟩,
   ⟨mk [(.SRV_STAT_SVC, 1, 4)], _, 1, rfl, by decide +kernel⟩,
   ⟨mk [(.SRV_STAT_SVC, 1, 4)], _, 1, rfl, by decide +kernel⟩,
   ⟨mk [(.SRV_HSTAT_STATE, 9, 3)], _, 9, rfl, by decide +kernel⟩,
   ⟨mk [(.SRV_HSTAT_STATE, 9, 4)], _, 9, rfl, by decide +kernel⟩,
   ⟨mk [], _, 9, rfl, by decide +kernel⟩⟩

theorem witness_arm_links :
    (∃ (s : State) (d : Dev) (a : Fin 4) (f : ArmFrame) (rest : List ArmFrame), s.dev.met = d ∧ (((d.link a.val).down = f :: rest) ∧ (f.type = 8) ∧ (d.rd .ARM_STAT_LSTATE a.val = 2))) ∧
    (∃ (s : State) (d : Dev) (a : Fin 4) (f : ArmFrame) (rest : List ArmFrame), s.dev.met = d ∧ (((d.link a.val).down = f :: rest) ∧ (f.type = 7) ∧ (d.rd .ARM_STAT_LSTATE a.val = 2))) ∧
    (∃ (s : State) (d : Dev) (a : Fin 4) (f : ArmFrame) (rest : List ArmFrame), s.dev.met = d ∧ (((d.link a.val).down = f :: rest) ∧ (f.type = 1) ∧ (d.rd .ARM_STAT_LSTATE a.val = 2))) ∧
    (∃ (s : State) (d : Dev) (a : Fin 4) (f : ArmFrame) (rest : List ArmFrame), s.dev.met = d ∧ (((d.link a.val).down = f :: rest) ∧ (f.type = 4) ∧ (d.rd .ARM_STAT_LSTATE a.val = 2))) ∧
    (∃ (s : State) (d : Dev) (a : Fin 4) (f : ArmFrame) (rest : List ArmFrame), s.dev.met = d ∧ (((d.link a.val).down = f :: rest) ∧ (f.type = 3) ∧ (d.rd .ARM_STAT_LSTATE a.val = 2))) ∧
    (∃ (s : State) (d : Dev) (a : Fin 4) (f : ArmFrame) (rest : List ArmFrame), s.dev.met = d ∧ (((d.link a.val).down = f :: rest) ∧ (f.type = 2) ∧ (d.rd .ARM_STAT_LSTATE a.val = 2))) ∧
    (∃ (s : State) (d : Dev) (a : Fin 4) (f : ArmFrame) (rest : List ArmFrame), s.dev.met = d ∧ (((d.link a.val).down = f :: rest) ∧ (f.type = 5) ∧ (d.rd .ARM_STAT_LSTATE a.val = 2) ∧ ((d.link a.val).access = some f))) ∧
    (∃ (s : State) (d : Dev) (a : Fin 4) (f : ArmFrame) (rest : List ArmFrame), s.dev.met = d ∧ (((d.link a.val).down = f :: rest) ∧ (f.type = 6) ∧ (d.rd .ARM_STAT_LSTATE a.val = 2))) ∧
    (∃ (s : State) (d : Dev) (a : Fin 4) (v : BitVec 50), s.dev.met = d ∧ ((d.rd .ARM_STAT_LSTATE a.val = 2) ∧ (bits v.toNat 48 2 = 2) ∧ (bits v.toNat 0 8 = armCrc v.toNat) ∧ (bits v.toNat 44 4 = 1))) ∧
    (∃ (s : State) (d : Dev) (a : Fin 4) (v : BitVec 50), s.dev.met = d ∧ ((d.rd .ARM_STAT_LSTATE a.val = 2) ∧ (bits v.toNat 48 2 = 2) ∧ (bits v.toNat 0 8 = armCrc v.toNat) ∧ (bits v.toNat 44 4 = 2))) ∧
    (∃ (s : State) (d : Dev) (a : Fin 4) (v : BitVec 50) (x : Nat × ArmFrame), s.dev.met = d ∧ ((d.rd .ARM_STAT_LSTATE a.val = 2) ∧ (bits v.toNat 48 2 = 2) ∧ (bits v.toNat 0 8 = armCrc v.toNat) ∧ (bits v.toNat 44 4 = 3) ∧ ((d.link a.val).resend.find? (fun y => y.1 == bits v.toNat 8 32 % 16) = some x))) ∧
    (∃ (s : State) (d : Dev) (a : Fin 4) (v : BitVec 50) (f : ArmFrame), s.dev.met = d ∧ ((d.rd .ARM_STAT_LSTATE a.val = 2) ∧ (bits v.toNat 48 2 = 2) ∧ (bits v.toNat 0 8 = armCrc v.toNat) ∧ (bits v.toNat 44 4 = 4) ∧ ((d.link a.val).access = some f) ∧ (f.type = 6) ∧ (f.target = bits v.toNat 32 8))) ∧
    (∃ (s : State) (d : Dev) (a : Fin 4) (v : BitVec 50), s.dev.met = d ∧ ((d.rd .ARM_STAT_LSTATE a.val = 2) ∧ (bits v.toNat 48 2 = 2) ∧ (bits v.toNat 0 8 = armCrc v.toNat) ∧ (bits v.toNat 44 4 = 5) ∧ (d.rd .SRV_HSTAT_STATE (32 * a.val + bits (bits v.toNat 8 32) 27 5) ≠ 4))) ∧
    (∃ (s : State) (d : Dev) (a : Fin 4) (v : BitVec 50), s.dev.met = d ∧ ((d.rd .ARM_STAT_LSTATE a.val = 2) ∧ (bits v.toNat 48 2 = 2) ∧ (bits v.toNat 0 8 = armCrc v.toNat) ∧ (bits v.toNat 44 4 = 6))) ∧
    (∃ (s : State) (d : Dev) (a : Fin 4) (v : Nat), s.dev.met = d ∧ ((d.rd .ARM_STAT_LSTATE a.val = 2) ∧ (bits v 48 2 ≠ 2))) ∧
    (∃ (s : State) (d : Dev) (a : Fin 4) (v : Nat), s.dev.met = d ∧ ((d.rd .ARM_STAT_LSTATE a.val = 2) ∧ (bits v 48 2 = 2) ∧ (bits v 0 8 ≠ armCrc v))) ∧
    (∃ (s : State) (d : Dev) (a : Fin 4) (on : Bool), s.dev.met = d ∧ (on = false ∨ d.rd .ARM_STAT_LSTATE a.val ≠ 0)) ∧
    (∃ (s : State) (d : Dev) (a : Fin 4), s.dev.met = d ∧ (d.rd .ARM_STAT_LSTATE a.val = 0)) ∧
    (∃ (s : State) (d : Dev) (a : Fin 4), s.dev.met = d ∧ (d.rd .ARM_STAT_LSTATE a.val = 3)) ∧
    (∃ (s : State) (d : Dev) (a : Fin 4), s.dev.met = d ∧ (d.rd .ARM_STAT_LSTATE a.val = 2)) ∧
    (∃ (s : State) (d : Dev) (a : Fin 4), s.dev.met = d ∧ ((d.rd .ARM_STAT_LSTATE a.val = 1) ∧ (∀ k < 8, (d.seq (8 * a.val + k)).job = none) ∧ (∀ k < 32, (d.head (32 * a.val + k)).htr = 0 ∧ (d.head (32 * a.val + k)).sentMa = none))) ∧
    (∃ (s : State) (d : Dev) (a : Fin 4) (after : Nat), s.dev.met.advance after = d ∧ ((d.rd .ARM_STAT_LSTATE a.val = 1) ∧ (d.waited (.train a.val) 25000 = true))) ∧
    (∃ (s : State) (d : Dev) (a : Fin 4), s.dev.met = d ∧ ((d.rd .ARM_STAT_LSTATE a.val = 2) ∧ (8 ≤ (d.link a.val).bad) ∧ ((d.link a.val).lossAt = []))) ∧
    (∃ (s : State) (d : Dev) (a : Fin 4), s.dev.met = d ∧ ((d.link a.val).bad < 8)) ∧
    (∃ (s : State) (d : Dev) (a : Fin 4) (w : Word), s.dev.met = d ∧ (((d.link a.val).access = none) ∧ (bit w.toNat 31 = true))) ∧
    (∃ (s : State) (d : Dev) (a : Fin 4) (w : Word), s.dev.met = d ∧ ((d.link a.val).access.isSome = true)) ∧
    (∃ (s : State) (d : Dev) (a : Fin 4) (f : ArmFrame) (after : Nat), s.dev.met.advance after = d ∧ (((d.link a.val).access = some f) ∧ (f.type = 6) ∧ (d.waited (.afe a.val) 2500 = true))) :=
  ⟨⟨{ State.reset with dev := { (mk [(.ARM_STAT_LSTATE, 1, 2)]).dev with arm := { links := [(1, { Link.init with down := [{ type := 8, target := 3, payload := 7, urgent := false }] })] } } }, _, 1, { type := 8, target := 3, payload := 7, urgent := false }, [], rfl, by decide +kernel⟩,
   ⟨{ State.reset with dev := { (mk [(.ARM_STAT_LSTATE, 1, 2)]).dev with arm := { links := [(1, { Link.init with down := [{ type := 7, target := 3, payload := 7, urgent := false }] })] } } }, _, 1, { type := 7, target := 3, payload := 7, urgent := false }, [], rfl, by decide +kernel⟩,
   ⟨{ State.reset with dev := { (mk [(.ARM_STAT_LSTATE, 1, 2)]).dev with arm := { links := [(1, { Link.init with down := [{ type := 1, target := 3, payload := 7, urgent := false }] })] } } }, _, 1, { type := 1, target := 3, payload := 7, urgent := false }, [], rfl, by decide +kernel⟩,
   ⟨{ State.reset with dev := { (mk [(.ARM_STAT_LSTATE, 1, 2)]).dev with arm := { links := [(1, { Link.init with down := [{ type := 4, target := 3, payload := 7, urgent := false }] })] } } }, _, 1, { type := 4, target := 3, payload := 7, urgent := false }, [], rfl, by decide +kernel⟩,
   ⟨{ State.reset with dev := { (mk [(.ARM_STAT_LSTATE, 1, 2)]).dev with arm := { links := [(1, { Link.init with down := [{ type := 3, target := 3, payload := 7, urgent := false }] })] } } }, _, 1, { type := 3, target := 3, payload := 7, urgent := false }, [], rfl, by decide +kernel⟩,
   ⟨{ State.reset with dev := { (mk [(.ARM_STAT_LSTATE, 1, 2)]).dev with arm := { links := [(1, { Link.init with down := [{ type := 2, target := 3, payload := 7, urgent := false }] })] } } }, _, 1, { type := 2, target := 3, payload := 7, urgent := false }, [], rfl, by decide +kernel⟩,
   ⟨{ State.reset with dev := { (mk [(.ARM_STAT_LSTATE, 1, 2)]).dev with arm := { links := [(1, { Link.init with down := [{ type := 5, target := 3, payload := 7, urgent := false }], access := some { type := 5, target := 3, payload := 7, urgent := false } })] } } }, _, 1, { type := 5, target := 3, payload := 7, urgent := false }, [], rfl, by decide +kernel⟩,
   ⟨{ State.reset with dev := { (mk [(.ARM_STAT_LSTATE, 1, 2)]).dev with arm := { links := [(1, { Link.init with down := [{ type := 6, target := 3, payload := 7, urgent := false }] })] } } }, _, 1, { type := 6, target := 3, payload := 7, urgent := false }, [], rfl, by decide +kernel⟩,
   ⟨mk [(.ARM_STAT_LSTATE, 1, 2)], _, 1, upFrame 1 0, rfl, by decide +kernel⟩,
   ⟨mk [(.ARM_STAT_LSTATE, 1, 2)], _, 1, upFrame 2 0, rfl, by decide +kernel⟩,
   ⟨{ State.reset with dev := { (mk [(.ARM_STAT_LSTATE, 1, 2)]).dev with arm := { links := [(1, { Link.init with resend := [(5, { type := 1, target := 3, payload := 7, urgent := false })] })] } } }, _, 1, upFrame 3 5, (5, { type := 1, target := 3, payload := 7, urgent := false }), rfl, by decide +kernel⟩,
   ⟨{ State.reset with dev := { (mk [(.ARM_STAT_LSTATE, 1, 2)]).dev with arm := { links := [(1, { Link.init with access := some { type := 6, target := 3, payload := 7, urgent := false } })] } } }, _, 1, upFrame 4 0x3000042, { type := 6, target := 3, payload := 7, urgent := false }, rfl, by decide +kernel⟩,
   ⟨mk [(.ARM_STAT_LSTATE, 1, 2)], _, 1, upFrame 5 5, rfl, by decide +kernel⟩,
   ⟨mk [(.ARM_STAT_LSTATE, 1, 2)], _, 1, upFrame 6 5, rfl, by decide +kernel⟩,
   ⟨mk [(.ARM_STAT_LSTATE, 1, 2)], _, 1, 0, rfl, by decide +kernel⟩,
   ⟨mk [(.ARM_STAT_LSTATE, 1, 2)], _, 1, 0x2000000000000, rfl, by decide +kernel⟩,
   ⟨mk [], _, 1, false, rfl, by decide +kernel⟩,
   ⟨mk [], _, 1, rfl, by decide +kernel⟩,
   ⟨mk [(.ARM_STAT_LSTATE, 1, 3)], _, 1, rfl, by decide +kernel⟩,
   ⟨mk [(.ARM_STAT_LSTATE, 1, 2)], _, 1, rfl, by decide +kernel⟩,
   ⟨mk [(.ARM_STAT_LSTATE, 1, 1)], _, 1, rfl, by decide +kernel⟩,
   ⟨{ State.reset with dev := { (mk [(.ARM_STAT_LSTATE, 1, 1)]).dev with timers := [(.train 1, 0)] } }, _, 1, 30000, rfl, by decide +kernel⟩,
   ⟨{ State.reset with dev := { (mk [(.ARM_STAT_LSTATE, 1, 2)]).dev with arm := { links := [(1, { Link.init with bad := 8 })] } } }, _, 1, rfl, by decide +kernel⟩,
   ⟨mk [], _, 1, rfl, by decide +kernel⟩,
   ⟨mk [], _, 1, 0x80000000, rfl, by decide +kernel⟩,
   ⟨{ State.reset with dev := { arm := { links := [(1, { Link.init with access := some { type := 6, target := 3, payload := 7, urgent := false } })] } } }, _, 1, 0, rfl, by decide +kernel⟩,
   ⟨{ State.reset with dev := { timers := [(.afe 1, 0)], arm := { links := [(1, { Link.init with access := some { type := 6, target := 3, payload := 7, urgent := false } })] } } }, _, 1, { type := 6, target := 3, payload := 7, urgent := false }, 3000, rfl, by decide +kernel⟩⟩

theorem witness_spindle_and_channels :
    (∃ (s : State) (d : Dev), s.dev.met = d ∧ (d.rd .SPN_STAT_STATE = 0)) ∧
    (∃ (s : State) (d : Dev), s.dev.met = d ∧ (d.rd .SPN_STAT_STATE ≠ 7)) ∧
    (∃ (s : State) (d : Dev), s.dev.met = d ∧ (d.rd .SPN_STAT_STATE = 2 ∨ d.rd .SPN_STAT_STATE = 3 ∨ d.rd .SPN_STAT_STATE = 4)) ∧
    (∃ (s : State) (d : Dev), s.dev.met = d ∧ ((d.rd .SPN_STAT_STATE ≠ 0) ∧ (d.rd .SPN_STAT_STATE ≠ 7))) ∧
    (∃ (s : State) (d : Dev) (w : Nat), s.dev.met = d ∧ ((180000 ≤ w) ∧ (w ≤ 720000) ∧ (w ≠ d.rd .SPN_SPEED_TARGET))) ∧
    (∃ (s : State) (d : Dev) (w : Nat), s.dev.met = d ∧ (w % 2 ^ 20 < 180000 ∨ 720000 < w % 2 ^ 20)) ∧
    (∃ (s : State) (d : Dev) (w : Nat), s.dev.met = d ∧ ((d.rd .SPN_STAT_STATE = 0 ∨ d.rd .SPN_STAT_STATE = 1) ∧ (bits w 24 5 ≤ 23 ∧ bits w 16 5 ≤ 23 ∧ bits w 8 5 ≤ 23) ∧ (2 ≤ bits w 0 4 ∧ bits w 0 4 ≤ 8))) ∧
    (∃ (s : State) (d : Dev) (w : Nat), s.dev.met = d ∧ (d.rd .SPN_STAT_STATE ≠ 0 ∧ d.rd .SPN_STAT_STATE ≠ 1)) ∧
    (∃ (s : State) (d : Dev), s.dev.met = d ∧ (d.spn.cut = false)) ∧
    (∃ (s : State) (d : Dev), s.dev.met = d ∧ (d.spn.cut = true)) ∧
    (∃ (s : State) (d : Dev) (after : Nat), s.dev.met.advance after = d ∧ ((d.rd .SPN_STAT_STATE = 2) ∧ (d.spn.retry = true) ∧ (d.spn.retryAt + 12500000 ≤ d.now))) ∧
    (∃ (s : State) (d : Dev) (p q : Nat), s.dev.met = d ∧ ((d.rd .SPN_STAT_STATE = 2) ∧ (d.spn.retry = false) ∧ (peaksClose p q = false))) ∧
    (∃ (s : State) (d : Dev) (p q : Nat), s.dev.met = d ∧ ((d.rd .SPN_STAT_STATE = 2) ∧ (d.spn.retry = false) ∧ (peaksClose p q = true) ∧ (d.spn.attempts = 2))) ∧
    (∃ (s : State) (d : Dev), s.dev.met = d ∧ ((d.rd .SPN_STAT_STATE = 3) ∧ (110000 ≤ d.rd .SPN_MEAS_SPEED))) ∧
    (∃ (s : State) (d : Dev) (k : Fin 3) (up : Bool) (after : Nat), s.dev.met.advance after = d ∧ ((d.rd .SPN_STAT_STATE = 4) ∧ (d.spn.zc = false) ∧ ((stepLegs d.spn.step).2.2 = k.val) ∧ (d.rd .SPN_BEMF_BLANK * d.spn.interval ≤ 256 * (d.now - d.spn.commAt)) ∧ (4 * (d.now - d.spn.commAt) ≤ 3 * d.spn.interval))) ∧
    (∃ (s : State) (d : Dev) (k : Fin 3) (up : Bool) (after : Nat), s.dev.met.advance after = d ∧ (d.rd .SPN_STAT_STATE = 5)) ∧
    (∃ (s : State) (d : Dev) (k : Fin 3) (up : Bool) (after : Nat), s.dev.met.advance after = d ∧ (d.rd .SPN_STAT_STATE = 7)) ∧
    (∃ (s : State) (d : Dev) (after : Nat), s.dev.met.advance after = d ∧ ((d.rd .SPN_STAT_STATE = 4) ∧ (d.spn.zc = true) ∧ (d.commutesAt ≤ d.now))) ∧
    (∃ (s : State) (d : Dev) (after : Nat), s.dev.met.advance after = d ∧ ((d.rd .SPN_STAT_STATE = 4) ∧ (d.spn.zc = false) ∧ (d.commutesAt ≤ d.now) ∧ (max 1 (d.rd .SPN_BEMF_ZCMISS) ≤ d.spn.misses + 1))) ∧
    (∃ (s : State) (d : Dev) (after : Nat), s.dev.met.advance after = d ∧ ((d.rd .SPN_STAT_STATE = 5) ∧ (d.spn.zcAt + 2500000000 ≤ d.now))) ∧
    (∃ (s : State) (d : Dev) (ms : Nat), s.dev.met = d ∧ ((d.rd .SPN_STAT_STATE = 4) ∧ (1000 * d.rd .SPN_MEAS_SPEED ≤ 1005 * d.effTarget))) ∧
    (∃ (s : State) (d : Dev) (ms : Nat), s.dev.met = d ∧ ((d.rd .SPN_STAT_STATE = 4) ∧ (1005 * d.effTarget < 1000 * d.rd .SPN_MEAS_SPEED))) ∧
    (∃ (s : State) (d : Dev) (ma : Nat), s.dev.met = d ∧ ((d.rd .SPN_STAT_STATE = 3 ∨ d.rd .SPN_STAT_STATE = 4) ∧ (d.spn.slow = false) ∧ (d.spn.pwmLim < ma))) ∧
    (∃ (s : State) (d : Dev) (ma : Nat), s.dev.met = d ∧ ((d.rd .SPN_STAT_STATE = 6) ∧ (d.rd .SPN_ILIM_BRK < ma))) ∧
    (∃ (s : State) (d : Dev) (mv : Nat) (after : Nat), s.dev.met.advance after = d ∧ ((d.rd .SPN_STAT_STATE = 6) ∧ (d.spn.senseAt + 12500000 ≤ d.now) ∧ (50 ≤ mv))) ∧
    (∃ (s : State) (d : Dev) (mv : Nat) (after : Nat), s.dev.met.advance after = d ∧ ((d.rd .SPN_STAT_STATE = 6) ∧ (d.spn.senseAt + 12500000 ≤ d.now) ∧ (mv < 50) ∧ (d.spn.stopWin ≠ 0))) ∧
    (∃ (s : State) (d : Dev) (p : Nat) (after : Nat), s.dev.met.advance after = d ∧ ((d.spn.markPer = some p) ∧ (d.spn.markAt + 8 * p ≤ d.now))) ∧
    (∃ (s : State) (d : Dev) (after : Nat), s.dev.met.advance after = d ∧ (d.spn.markPer = none)) ∧
    (∃ (s : State) (d : Dev) (k : Fin 32) (x : Int) (after : Nat), s.dev.met.advance after = d ∧ ((d.rd .MAC_CTL_ENABLE ≠ 0) ∧ (d.rd .MAC_CHCFG_EN k.val ≠ 0) ∧ ((d.chan k.val).at' + d.macPeriod k.val ≤ d.now) ∧ ((d.chan k.val).fill = 0) ∧ (-32768 ≤ x ∧ x ≤ 32767))) ∧
    (∃ (s : State) (d : Dev) (k : Fin 32) (x : Int) (after : Nat), s.dev.met.advance after = d ∧ ((d.rd .MAC_CTL_ENABLE ≠ 0) ∧ (d.rd .MAC_CHCFG_EN k.val ≠ 0) ∧ ((d.chan k.val).at' + d.macPeriod k.val ≤ d.now) ∧ ((d.chan k.val).fill ≠ 0))) ∧
    (∃ (s : State) (d : Dev) (k : Fin 32), s.dev.met = d ∧ ((d.chan k.val).fill ≠ 3 ∨ (d.chan k.val).at' ≠ d.now)) ∧
    (∃ (s : State) (d : Dev) (k : Fin 32), s.dev.met = d ∧ ((d.macEvent k.val = true) ∧ ((d.chan k.val).armed = true) ∧ (d.rd .ANG_STAT_STATE = 2))) :=
  ⟨⟨mk [], _, rfl, by decide +kernel⟩,
   ⟨mk [(.SPN_STAT_STATE, 0, 4)], _, rfl, by decide +kernel⟩,
   ⟨mk [(.SPN_STAT_STATE, 0, 4)], _, rfl, by decide +kernel⟩,
   ⟨mk [(.SPN_STAT_STATE, 0, 4)], _, rfl, by decide +kernel⟩,
   ⟨mk [], _, 540000, rfl, by decide +kernel⟩,
   ⟨mk [], _, 100000, rfl, by decide +kernel⟩,
   ⟨mk [], _, 4, rfl, by decide +kernel⟩,
   ⟨mk [(.SPN_STAT_STATE, 0, 4)], _, 4, rfl, by decide +kernel⟩,
   ⟨mk [], _, rfl, by decide +kernel⟩,
   ⟨{ State.reset with dev := { spn := { cut := true } } }, _, rfl, by decide +kernel⟩,
   ⟨{ State.reset with dev := { (mk [(.SPN_STAT_STATE, 0, 2)]).dev with spn := { retry := true } } }, _, 13000000, rfl, by decide +kernel⟩,
   ⟨mk [(.SPN_STAT_STATE, 0, 2)], _, 100, 200, rfl, by decide +kernel⟩,
   ⟨{ State.reset with dev := { (mk [(.SPN_STAT_STATE, 0, 2)]).dev with spn := { attempts := 2 } } }, _, 100, 101, rfl, by decide +kernel⟩,
   ⟨mk [(.SPN_STAT_STATE, 0, 3), (.SPN_MEAS_SPEED, 0, 120000)], _, rfl, by decide +kernel⟩,
   ⟨{ State.reset with dev := { (mk [(.SPN_STAT_STATE, 0, 4)]).dev with spn := { ivals := [8] } } }, _, 2, true, 5, rfl, by decide +kernel⟩,
   ⟨mk [(.SPN_STAT_STATE, 0, 5)], _, 2, true, 5, rfl, by decide +kernel⟩,
   ⟨mk [(.SPN_STAT_STATE, 0, 7)], _, 2, true, 5, rfl, by decide +kernel⟩,
   ⟨{ State.reset with dev := { (mk [(.SPN_STAT_STATE, 0, 4)]).dev with spn := { zc := true, ivals := [8] } } }, _, 50, rfl, by decide +kernel⟩,
   ⟨{ State.reset with dev := { (mk [(.SPN_STAT_STATE, 0, 4)]).dev with spn := { misses := 300, ivals := [8] } } }, _, 50, rfl, by decide +kernel⟩,
   ⟨mk [(.SPN_STAT_STATE, 0, 5)], _, 2500000000, rfl, by decide +kernel⟩,
   ⟨mk [(.SPN_STAT_STATE, 0, 4)], _, 1, rfl, by decide +kernel⟩,
   ⟨mk [(.SPN_STAT_STATE, 0, 4), (.SPN_MEAS_SPEED, 0, 1000000)], _, 1, rfl, by decide +kernel⟩,
   ⟨mk [(.SPN_STAT_STATE, 0, 4)], _, 1, rfl, by decide +kernel⟩,
   ⟨mk [(.SPN_STAT_STATE, 0, 6)], _, 100000, rfl, by decide +kernel⟩,
   ⟨mk [(.SPN_STAT_STATE, 0, 6)], _, 60, 12500000, rfl, by decide +kernel⟩,
   ⟨{ State.reset with dev := { (mk [(.SPN_STAT_STATE, 0, 6)]).dev with spn := { stopWin := 1 } } }, _, 10, 12500000, rfl, by decide +kernel⟩,
   ⟨{ State.reset with dev := { spn := { markPer := some 10 } } }, _, 10, 80, rfl, by decide +kernel⟩,
   ⟨mk [], _, 80, rfl, by decide +kernel⟩,
   ⟨mk [(.MAC_CTL_ENABLE, 0, 1), (.MAC_CHCFG_EN, 3, 1)], _, 3, 7, 4096, rfl, by decide +kernel⟩,
   ⟨{ State.reset with dev := { (mk [(.MAC_CTL_ENABLE, 0, 1), (.MAC_CHCFG_EN, 3, 1)]).dev with mac := [(3, { fill := 2 })] } }, _, 3, 7, 4096, rfl, by decide +kernel⟩,
   ⟨mk [], _, 3, rfl, by decide +kernel⟩,
   ⟨let s := mk [(.MAC_CHSYNC_SRC, 3, 1), (.ANG_STAT_STATE, 0, 2)]; { s with dev := { s.dev with now := 5, ang := { rate := some 65536, val := 2 ^ 40, prev := 2 ^ 40 - 1 }, mac := [(3, { armed := true })] } }, _, 3, rfl, by decide +kernel⟩⟩

theorem witness_reset_requests_and_quiesce :
    (∃ (s : State) (d : Dev), s.dev.met = d ∧ ((d.cfg.kind = 0) ∧ (d.cfg.quiet = false) ∧ (d.rd .FLT_STAT_SAFE = 0))) ∧
    (∃ (s : State) (d : Dev) (key : BitVec 8), s.dev.met = d ∧ (key ≠ 0x5A)) ∧
    (∃ (s : State) (d : Dev), s.dev.met = d ∧ ((d.cfg.kind ≤ 1) ∧ (d.rd .FLT_STAT_SAFE ≠ 0))) ∧
    (∃ (s : State) (d : Dev), s.dev.met = d ∧ ((d.cfg.kind = 0) ∧ (d.cfg.quiet = false) ∧ (d.rd .FLT_STAT_SAFE = 0))) ∧
    (∃ (s : State) (d : Dev) (after : Nat), s.dev.met.advance after = d ∧ ((d.cfg.kind ≠ 0) ∧ (d.cfg.quiet = false) ∧ (d.waited .quiesce 125000000 = true ∨ ∀ e ∈ d.cfg.units, e.2.whole = true))) ∧
    (∃ (s : State) (d : Dev) (after : Nat), s.dev.met.advance after = d ∧ ((d.cfg.kind = 2) ∧ (d.cfg.quiet = true) ∧ (∀ a, a < 4 → (d.act a).retract = false) ∧ (d.waited .flush 12500000 = true ∨ d.flushed = true))) :=
  ⟨⟨mk [(.ANG_STAT_STATE, 0, 2)], _, rfl, by decide +kernel⟩,
   ⟨mk [], _, 0x5B, rfl, by decide +kernel⟩,
   ⟨mk [(.FLT_STAT_SAFE, 0, 1)], _, rfl, by decide +kernel⟩,
   ⟨mk [(.ANG_STAT_STATE, 0, 2)], _, rfl, by decide +kernel⟩,
   ⟨{ State.reset with dev := { cfg := { kind := 1 }, timers := [(.quiesce, 0)] } }, _, 125000000, rfl, by decide +kernel⟩,
   ⟨{ State.reset with dev := { cfg := { kind := 2, quiet := true }, timers := [(.flush, 0)] } }, _, 12500000, rfl, by decide +kernel⟩⟩

theorem witness_power_fail_sequence :
    (∃ (s : State) (d : Dev) (pin : Bool) (oks : List Bool), s.dev.met = d ∧ ((d.rd .SPN_STAT_STATE ≠ 0) ∧ (d.spn.running = false) ∧ (pin = true ∨ 2 ≤ d.spn.pfLow))) ∧
    (∃ (s : State) (d : Dev) (oks : List Bool) (after : Nat), s.dev.met.advance after = d ∧ ((d.spn.running = true) ∧ (d.spn.pfRecs = false) ∧ (d.spn.pfVmin = false) ∧ (d.spn.pfAt + 7500000 ≤ d.now ∨ d.spn.pfBusy = []))) ∧
    (∃ (s : State) (d : Dev) (after : Nat), s.dev.met.advance after = d ∧ ((d.spn.running = true) ∧ (d.spn.pfVmin = false) ∧ (d.spn.pfAt + max 2 (d.rd .SPN_PFCFG_HOLD) * 1250000 ≤ d.now))) ∧
    (∃ (s : State) (d : Dev), s.dev.met = d ∧ ((d.spn.running = true) ∧ (d.spn.pfVmin = false) ∧ (d.rd .MAC_CHDATA_VALID (d.rd .SPN_MOTOR_VBUS) ≠ 0) ∧ (signed 16 (d.rd .MAC_CHDATA_DATA (d.rd .SPN_MOTOR_VBUS)) < (d.rd .SPN_PFAIL_VMIN : Int)))) ∧
    (∃ (s : State) (d : Dev), s.dev.met = d ∧ ((d.spn.running = true) ∧ (d.spn.pfBusy = []) ∧ (d.spn.pfRecs = true) ∧ (∀ a, a < 4 → (d.act a).retract = false))) ∧
    (∃ (s : State) (d : Dev) (c : Fin 8) (after : Nat), s.dev.met.advance after = d ∧ ((d.rd .FLT_WDCTL_EN c.val ≠ 0) ∧ (d.wdRemain c.val = 0))) ∧
    (∃ (s : State) (d : Dev) (c : Fin 8) (after : Nat), s.dev.met.advance after = d ∧ (d.rd .FLT_WDCTL_EN c.val = 0 ∨ d.wdRemain c.val ≠ 0)) ∧
    (∃ (s : State) (d : Dev) (a : Adm), s.dev.met = d ∧ ((d.admFront = some a) ∧ (sqeOp a.sqe = 0xC2))) :=
  ⟨⟨mk [(.SPN_STAT_STATE, 0, 4)], _, true, [], rfl, by decide +kernel⟩,
   ⟨{ State.reset with dev := { spn := { running := true } } }, _, [], 7500000, rfl, by decide +kernel⟩,
   ⟨{ State.reset with dev := { spn := { running := true, pfBusy := [0] } } }, _, 1000000000, rfl, by decide +kernel⟩,
   ⟨{ State.reset with dev := { (mk [(.MAC_CHDATA_VALID, 0, 1), (.SPN_PFAIL_VMIN, 0, 900), (.SPN_MOTOR_VBUS, 0, 0)]).dev with spn := { running := true, pfBusy := [0] } } }, _, rfl, by decide +kernel⟩,
   ⟨{ State.reset with dev := { spn := { running := true, pfRecs := true } } }, _, rfl, by decide +kernel⟩,
   ⟨mk [(.FLT_WDCTL_EN, 5, 1)], _, 5, 20000000, rfl, by decide +kernel⟩,
   ⟨mk [], _, 5, 3, rfl, by decide +kernel⟩,
   ⟨admAt 0xC2 0 0, _, anAdm 0xC2 0 0, rfl, by decide +kernel⟩⟩

theorem witness_register_accesses :
    (∃ (s : State) (d : Dev) (x : RegWrite) (r : Reg) (i : Nat), s.dev.met = d ∧ ((d.busRefuses x.master.id x.addr 4 = false) ∧ (targetOf x.master.id (regOffset x.addr) = .reg r i))) ∧
    (∃ (s : State) (d : Dev) (x y : RegWrite) (r : Reg) (i : Nat), s.dev.met = d ∧ ((x.master.id < y.master.id) ∧ (x.chan = none ∧ y.chan = none) ∧ (d.busRefuses x.master.id x.addr 4 = false) ∧ (d.busRefuses y.master.id y.addr 4 = false) ∧ (targetOf x.master.id (regOffset x.addr) = .reg r i) ∧ (targetOf y.master.id (regOffset y.addr) = .reg r i))) ∧
    (∃ (s : State) (d : Dev) (x : RegWrite), s.dev.met = d ∧ (d.busRefuses x.master.id x.addr 4 = true)) ∧
    (∃ (s : State) (d : Dev) (x : RegWrite) (y : RegRead) (r : Reg) (i : Nat), s.dev.met = d ∧ ((d.busRefuses y.master.id y.addr 4 = false) ∧ (targetOf y.master.id (regOffset y.addr) = .reg r i) ∧ (r.snapped = false) ∧ ((((d.capture y.master.id r i).clearRc r i).emit (.data y.master.id (d.word r i))).busRefuses x.master.id x.addr 4 = false) ∧ (targetOf x.master.id (regOffset x.addr) = .reg r i))) ∧
    (∃ (s : State) (d : Dev) (m : Master) (a : BitVec 40) (size : Nat) (r : Reg) (i : Nat), s.dev.met = d ∧ ((d.busRefuses m.id a.toNat size = false) ∧ (targetOf m.id (regOffset a.toNat) = .reg r i) ∧ (r.snapped = true))) ∧
    (∃ (s : State) (d : Dev) (m : Master) (a : BitVec 40) (size : Nat), s.dev.met = d ∧ (d.busRefuses m.id a.toNat size = true)) ∧
    (∃ (s : State) (d : Dev) (m : Master) (a : BitVec 40) (size : Nat) (r : Reg) (i : Nat), s.dev.met = d ∧ ((d.busRefuses m.id a.toNat size = false) ∧ (targetOf m.id (regOffset a.toNat) = .reg r i) ∧ (r.snapped = false))) ∧
    (∃ (s : State) (d : Dev) (m : Master) (a : BitVec 40) (size : Nat), s.dev.met = d ∧ ((d.busRefuses m.id a.toNat size = false) ∧ (targetOf m.id (regOffset a.toNat) = .hole))) ∧
    (∃ (s : State) (d : Dev) (p : PendW), s.dev.met = d ∧ (d.bus.slow = some p)) ∧
    (∃ (s : State) (d : Dev), s.dev.met = d ∧ (d.bus.slow = none)) :=
  ⟨⟨State.reset, _, { master := .cfg, addr := regBase + 0x100030, data := 7 }, .ANG_REFCTL, 0, rfl, by decide +kernel⟩,
   ⟨mk [(.SYS_STAT_HANDOVER, 0, 1)], _, { master := .svc, addr := regBase + 0x100030, data := 7 }, { master := .mc 0, addr := regBase + 0x100030, data := 9 }, .ANG_REFCTL, 0, rfl, by decide +kernel⟩,
   ⟨State.reset, _, { master := .mc 0, addr := regBase + 0x100030, data := 7 }, rfl, by decide +kernel⟩,
   ⟨State.reset, _, { master := .cfg, addr := regBase + 0x100030, data := 7 }, { master := .cfg, addr := regBase + 0x100030 }, .ANG_REFCTL, 0, rfl, by decide +kernel⟩,
   ⟨State.reset, _, .cfg, 0xF0100014, 4, .ANG_HI, 0, rfl, by decide +kernel⟩,
   ⟨State.reset, _, .cfg, 0xF0100014, 2, rfl, by decide +kernel⟩,
   ⟨State.reset, _, .cfg, 0xF0100030, 4, .ANG_REFCTL, 0, rfl, by decide +kernel⟩,
   ⟨State.reset, _, .cfg, 0xF010F000, 4, rfl, by decide +kernel⟩,
   ⟨{ State.reset with dev := { bus := { slow := some { reg := .FLT_TEMP, idx := 0, word := 5, cycle := 0 } } } }, _, { reg := .FLT_TEMP, idx := 0, word := 5, cycle := 0 }, rfl, by decide +kernel⟩,
   ⟨mk [], _, rfl, by decide +kernel⟩⟩

theorem witness_host_windows_and_locked_writes :
    (∃ (s : State) (d : Dev) (p : Fin 2) (off size : Nat) (w : Word) (l : List RegWrite), s.dev.met = d ∧ (d.bar2Discards p.val off size = true)) ∧
    (∃ (s : State) (d : Dev) (p : Fin 2) (off size : Nat) (w : Word) (r : Reg) (i : Nat), s.dev.met = d ∧ ((d.bar2Discards p.val off size = false) ∧ (d.busRefuses (22 + p.val) (regBase + off) 4 = false) ∧ (targetOf (22 + p.val) (regOffset (regBase + off)) = .reg r i))) ∧
    (∃ (s : State) (d : Dev) (p : Fin 2) (off size : Nat) (r : Reg) (i : Nat), s.dev.met = d ∧ ((d.portExists p.val = true) ∧ (d.admits (22 + p.val) = true) ∧ (regAligned off size = true) ∧ (off < 2 ^ 24) ∧ (targetOf (22 + p.val) off = .reg r i) ∧ (r.snapped = false) ∧ (Tab.look d.bus.unlock p.val = none))) ∧
    (∃ (s : State) (d : Dev) (p : Fin 2) (off size : Nat), s.dev.met = d ∧ (regAligned off size = false)) ∧
    (∃ (s : State) (d : Dev) (p : Fin 2) (off size : Nat), s.dev.met = d ∧ ((d.portExists p.val = true) ∧ (regAligned off size = true) ∧ (off < 2 ^ 24) ∧ (d.admits (22 + p.val) = false ∨ targetOf (22 + p.val) off = .busError))) ∧
    (∃ (s : State) (d : Dev) (p : Fin 2), s.dev.met = d ∧ ((Tab.look d.bus.unlock p.val).isSome = true)) ∧
    (∃ (s : State) (d : Dev) (p : Fin 2) (after : Nat), s.dev.met.advance after = d ∧ (((Tab.look d.bus.unlock p.val).isSome = true) ∧ (d.waited (.bar2 p.val) (Tab.getD d.bus.unlock p.val 0 * 1250000000) = true))) ∧
    (∃ (s : State) (d : Dev) (x : RouteWrite) (granted : List (Fin 64)), s.dev.met = d ∧ ((d.admits x.master.id = true) ∧ (d.routeCheck x.lane.val x.data.toNat ((granted.map Fin.val).contains x.lane.val) = (false, false, false)))) ∧
    (∃ (s : State) (d : Dev) (x : RouteWrite) (granted : List (Fin 64)) (v : Bool × Bool × Bool), s.dev.met = d ∧ ((d.admits x.master.id = true) ∧ (d.routeCheck x.lane.val x.data.toNat ((granted.map Fin.val).contains x.lane.val) = v) ∧ ((v.1 || v.2.1 || v.2.2) = true))) ∧
    (∃ (s : State) (d : Dev) (m : Master) (k : Fin 8) (w : Word), s.dev.met = d ∧ (d.rd .SYS_STAT_HANDOVER ≠ 0)) ∧
    (∃ (s : State) (d : Dev) (m : Master) (w : Word), s.dev.met = d ∧ (d.rd .SYS_STAT_HANDOVER = 0)) :=
  ⟨⟨State.reset, _, 0, 0x100030, 4, 7, [], rfl, by decide +kernel⟩,
   ⟨{ State.reset with dev := { (mk [(.SYS_STAT_HANDOVER, 0, 1)]).dev with bus := { unlock := [(0, 9)] } } }, _, 0, 0x100030, 4, 7, .ANG_REFCTL, 0, rfl, by decide +kernel⟩,
   ⟨mk [(.SYS_STAT_HANDOVER, 0, 1)], _, 0, 0x100030, 4, .ANG_REFCTL, 0, rfl, by decide +kernel⟩,
   ⟨State.reset, _, 0, 0x100032, 4, rfl, by decide +kernel⟩,
   ⟨State.reset, _, 0, 0x100030, 4, rfl, by decide +kernel⟩,
   ⟨{ State.reset with dev := { bus := { unlock := [(0, 9)] } } }, _, 0, rfl, by decide +kernel⟩,
   ⟨{ State.reset with dev := { timers := [(.bar2 1, 0)], bus := { unlock := [(1, 9)] } } }, _, 1, 9000000000000, rfl, by decide +kernel⟩,
   ⟨mk [(.SYS_STAT_HANDOVER, 0, 1), (.LANE_STAT_STATE, 4, unitCal)], _, { lane := 4, master := .mc 0, data := 0 }, [], rfl, by decide +kernel⟩,
   ⟨mk [(.SYS_STAT_HANDOVER, 0, 1), (.LANE_STAT_STATE, 4, 3)], _, { lane := 4, master := .mc 0, data := 0 }, [], (true, false, false), rfl, by decide +kernel⟩,
   ⟨mk [(.SYS_STAT_HANDOVER, 0, 1)], _, .mc 0, 3, 7, rfl, by decide +kernel⟩,
   ⟨State.reset, _, .cfg, 7, rfl, by decide +kernel⟩⟩

theorem witness_engine_timers_mailboxes_and_stores :
    (∃ (s : State) (d : Dev) (e : Fin 12) (after : Nat), s.dev.met.advance after = d ∧ ((d.waited (.veTimer e.val) (d.rd .VE_ETIMER_PERIOD e.val * 1250) = true) ∧ (d.rd .VE_ETIMER_PERIOD e.val ≠ 0) ∧ (∀ t ∈ (d.eng e.val).queues, t.type ≠ tTimer) ∧ (∀ t, (d.eng e.val).run = some t → t.type ≠ tTimer))) ∧
    (∃ (s : State) (d : Dev) (e : Fin 12) (after : Nat), s.dev.met.advance after = d ∧ ((d.waited (.veTimer e.val) (d.rd .VE_ETIMER_PERIOD e.val * 1250) = true) ∧ ((d.eng e.val).queues.any (fun t => t.type == tTimer) = true))) ∧
    (∃ (s : State) (d : Dev) (m : Master) (e : Fin 12) (w : Word), s.dev.met = d ∧ ((d.eng e.val).queues.length < queueRoom e.val)) ∧
    (∃ (s : State) (d : Dev) (m : Master) (e : Fin 12) (w : Word), s.dev.met = d ∧ (queueRoom e.val ≤ (d.eng e.val).queues.length)) ∧
    (∃ (s : State) (d : Dev) (e : Fin 12), s.dev.met = d ∧ (d.rd .VE_ESTAT_STATE e.val = 0 ∨ d.rd .VE_ESTAT_STATE e.val = 3 ∨ d.rd .VE_ESTAT_STATE e.val = 4)) ∧
    (∃ (s : State) (d : Dev) (m : Master) (e : Fin 12) (off size : Nat) (v : BitVec 64), s.dev.met = d ∧ ((d.veAdmits m off size = true) ∧ (m = .cfg ∨ d.rd .VE_CSSTAT_OPENED e.val ≠ 0))) ∧
    (∃ (s : State) (d : Dev) (c : Fin 8) (e : Fin 12) (off size : Nat) (v : BitVec 64), s.dev.met = d ∧ ((size = 4) ∧ (off % 4 = 0) ∧ (d.rd .VE_CSSTAT_OPENED e.val = 0))) ∧
    (∃ (s : State) (d : Dev) (m : Master) (e : Fin 12) (off size : Nat) (v : BitVec 64), s.dev.met = d ∧ (d.veAdmits m off size = false)) ∧
    (∃ (s : State) (d : Dev) (m : Master) (e : Fin 12) (off size : Nat) (bad : Bool), s.dev.met = d ∧ (d.veAdmits m off size = true)) ∧
    (∃ (s : State) (d : Dev) (m : Master) (e : Fin 12) (g : Fin 32) (w : Word), s.dev.met = d ∧ ((d.rd .VE_ESTAT_STATE e.val = 3) ∧ (g.val ≠ 0))) ∧
    (∃ (s : State) (d : Dev) (m : Master) (e : Fin 12) (w : Word), s.dev.met = d ∧ (d.rd .VE_ESTAT_STATE e.val = 3)) :=
  ⟨⟨{ State.reset with dev := { (mk [(.VE_ETIMER_PERIOD, 5, 100)]).dev with timers := [(.veTimer 5, 0)] } }, _, 5, 125000, rfl, by decide +kernel⟩,
   ⟨{ State.reset with dev := { (mk [(.VE_ETIMER_PERIOD, 5, 100)]).dev.trigger 5 tTimer 0 0 0 0 0 with timers := [(.veTimer 5, 0)], out := [] } }, _, 5, 125000, rfl, by decide +kernel⟩,
   ⟨mk [], _, .mc 3, 5, 7, rfl, by decide +kernel⟩,
   ⟨{ State.reset with dev := { ve := { engs := [(1, { queues := List.replicate 64 { type := tTimer, prio := 0, src := 0, a0 := 0, a1 := 0, a2 := 0, a3 := 0, restarts := 0, flts := 0 } })] } } }, _, .mc 3, 1, 7, rfl, by decide +kernel⟩,
   ⟨mk [], _, 7, rfl, by decide +kernel⟩,
   ⟨mk [], _, .cfg, 3, 16, 4, 9, rfl, by decide +kernel⟩,
   ⟨mk [], _, 0, 3, 16, 4, 9, rfl, by decide +kernel⟩,
   ⟨mk [], _, .svc, 3, 16, 4, 9, rfl, by decide +kernel⟩,
   ⟨mk [], _, .cfg, 3, 16, 4, true, rfl, by decide +kernel⟩,
   ⟨mk [(.VE_ESTAT_STATE, 6, 3)], _, .mc 3, 6, 9, 7, rfl, by decide +kernel⟩,
   ⟨mk [(.VE_ESTAT_STATE, 6, 3)], _, .mc 3, 6, 7, rfl, by decide +kernel⟩⟩

theorem witness_engine_states :
    (∃ (s : State) (d : Dev) (e : Fin 12), s.dev.met = d ∧ ((e.val < 4) ∧ (d.haltBarred e.val = true))) ∧
    (∃ (s : State) (d : Dev) (e : Fin 12), s.dev.met = d ∧ ((e.val < 4) ∧ (d.haltBarred e.val = false) ∧ (d.rd .VE_ESTAT_STATE e.val = 1))) ∧
    (∃ (s : State) (d : Dev) (e : Fin 12), s.dev.met = d ∧ ((4 ≤ e.val) ∧ (d.rd .VE_ESTAT_STATE e.val = 1))) ∧
    (∃ (s : State) (d : Dev) (e : Fin 12), s.dev.met = d ∧ ((d.haltBarred e.val = false) ∧ (d.rd .VE_ESTAT_STATE e.val = 2) ∧ (d.rd .VE_ESTAT_COMMITTED e.val ≠ 0))) ∧
    (∃ (s : State) (d : Dev) (e : Fin 12), s.dev.met = d ∧ ((d.rd .VE_CSSTAT_OPENED e.val = 0) ∧ (d.rd .VE_ESTAT_STATE e.val = 3))) ∧
    (∃ (s : State) (d : Dev) (e : Fin 12), s.dev.met = d ∧ (d.rd .VE_CSSTAT_OPENED e.val ≠ 0)) ∧
    (∃ (s : State) (d : Dev) (e : Fin 12), s.dev.met = d ∧ ((d.rd .VE_CSSTAT_OPENED e.val = 0) ∧ (d.rd .VE_ESTAT_STATE e.val = 4))) ∧
    (∃ (s : State) (d : Dev) (e : Fin 12) (t : Trig) (after : Nat), s.dev.met.advance after = d ∧ ((d.waited (.routine e.val) (max 1 (d.rd .VE_ECFG_RTLIM e.val) * 1280) = true) ∧ ((d.eng e.val).run = some t) ∧ (d.rd .VE_ESTAT_STATE e.val = 2) ∧ (d.rd .VE_ESTAT_COMMITTED e.val = 0) ∧ (t.type ≠ tFault))) :=
  ⟨⟨mk [(.SRV_STAT_MODE, 1, 2), (.SRV_STAT_SVC, 1, unitServ)], _, 1, rfl, by decide +kernel⟩,
   ⟨mk [(.VE_ESTAT_STATE, 1, 1)], _, 1, rfl, by decide +kernel⟩,
   ⟨mk [(.VE_ESTAT_STATE, 6, 1)], _, 6, rfl, by decide +kernel⟩,
   ⟨mk [(.VE_ESTAT_STATE, 6, 2), (.VE_ESTAT_COMMITTED, 6, 1)], _, 6, rfl, by decide +kernel⟩,
   ⟨mk [(.VE_ESTAT_STATE, 6, 3)], _, 6, rfl, by decide +kernel⟩,
   ⟨mk [(.VE_CSSTAT_OPENED, 6, 1)], _, 6, rfl, by decide +kernel⟩,
   ⟨mk [(.VE_ESTAT_STATE, 6, 4)], _, 6, rfl, by decide +kernel⟩,
   ⟨{ State.reset with dev := { (mk [(.VE_ESTAT_STATE, 6, 2)]).dev with timers := [(.routine 6, 0)], ve := { engs := [(6, { run := some { type := tTimer, prio := 0, src := 0, a0 := 0, a1 := 0, a2 := 0, a3 := 0, restarts := 0, flts := 0 } })] } } }, _, 6, { type := tTimer, prio := 0, src := 0, a0 := 0, a1 := 0, a2 := 0, a3 := 0, restarts := 0, flts := 0 }, 400000, rfl, by decide +kernel⟩⟩

theorem witness_check_context_and_compression :
    (∃ (s : State) (d : Dev) (m : Master), s.dev.met = d ∧ (d.rd .CHK_SWOWN_OWNED = 0)) ∧
    (∃ (s : State) (d : Dev) (m : Master), s.dev.met = d ∧ ((d.rd .CHK_SWOWN_OWNED ≠ 0) ∧ (d.rd .CHK_SWOWN_OWNER ≠ m.id))) ∧
    (∃ (s : State) (d : Dev) (m : Master), s.dev.met = d ∧ ((d.rd .CHK_SWOWN_OWNED ≠ 0) ∧ (d.rd .CHK_SWOWN_OWNER = m.id ∨ m.id = 0 ∨ m.id = 1))) ∧
    (∃ (s : State) (d : Dev) (m : Master) (w : Word), s.dev.met = d ∧ ((d.owns m.id = true) ∧ (d.rd .CHK_SWSTAT_BUSY = 0) ∧ (bit w.toNat 31 = true))) ∧
    (∃ (s : State) (d : Dev) (m : Master) (w : Word), s.dev.met = d ∧ (d.owns m.id = false)) ∧
    (∃ (s : State) (d : Dev) (x : ChkRun), s.dev.met = d ∧ ((d.rd .CHK_SWSTAT_BUSY ≠ 0) ∧ (d.chk.run = some x) ∧ ((({ d.wr .CHK_SWSTAT_BUSY 0 0 with chk := { d.chk with run := none } } : Dev).readCheck reqMedia x.src x.len).2 = true) ∧ (arrayOf x.src ≠ 1))) ∧
    (∃ (s : State) (d : Dev) (m : Master) (w : Word), s.dev.met = d ∧ ((d.rd .CMP_CTL_ENABLE ≠ 0) ∧ (d.cmp.queue.length < 64))) ∧
    (∃ (s : State) (d : Dev) (j : CmpJob) (rest : List CmpJob), s.dev.met = d ∧ ((d.cmp.queue = j :: rest) ∧ (d.cmp.running.length < 4) ∧ (bits (d.ld32 j.desc) 28 4 = 0))) ∧
    (∃ (s : State) (d : Dev) (j : CmpJob) (rest : List CmpJob), s.dev.met = d ∧ ((d.cmp.queue = j :: rest) ∧ (d.cmp.running.length < 4) ∧ (bits (d.ld32 j.desc) 28 4 = 1))) ∧
    (∃ (s : State) (d : Dev) (j : CmpJob) (rest : List CmpJob), s.dev.met = d ∧ ((d.cmp.queue = j :: rest) ∧ (d.cmp.running.length < 4) ∧ (bits (d.ld32 j.desc) 28 4 = 2))) ∧
    (∃ (s : State) (d : Dev) (j : CmpJob) (rest : List CmpJob), s.dev.met = d ∧ ((d.cmp.queue = j :: rest) ∧ (d.cmp.running.length < 4) ∧ (bits (d.ld32 j.desc) 28 4 = 3))) ∧
    (∃ (s : State) (d : Dev) (k : Fin 5) (outs : List (List Byte)) (j : CmpJob) (r : CmpResult), s.dev.met = d ∧ ((d.cmp.running[k.val]? = some j) ∧ ((d.cmpDesc j.desc).bad = false) ∧ ((({ d with cmp := { d.cmp with running := d.cmp.running.eraseIdx k.val } } : Dev).cmpAccess (d.cmpDesc j.desc)).2 = true) ∧ ((({ d with cmp := { d.cmp with running := d.cmp.running.eraseIdx k.val } } : Dev).cmpAccess (d.cmpDesc j.desc)).1.cmpRun (d.cmpDesc j.desc) outs = some r) ∧ (r.status = 0) ∧ (∀ e ∈ r.out, (({ d with cmp := { d.cmp with running := d.cmp.running.eraseIdx k.val } } : Dev).cmpAccess (d.cmpDesc j.desc)).1.rangeExists e.1 e.2.length = true))) :=
  ⟨⟨mk [], _, .mc 2, rfl, by decide +kernel⟩,
   ⟨mk [(.CHK_SWOWN_OWNED, 0, 1), (.CHK_SWOWN_OWNER, 0, 3)], _, .mc 2, rfl, by decide +kernel⟩,
   ⟨mk [(.CHK_SWOWN_OWNED, 0, 1), (.CHK_SWOWN_OWNER, 0, 4)], _, .mc 2, rfl, by decide +kernel⟩,
   ⟨mk [(.CHK_SWOWN_OWNED, 0, 1), (.CHK_SWOWN_OWNER, 0, 4)], _, .mc 2, 0x80000001, rfl, by decide +kernel⟩,
   ⟨mk [], _, .mc 2, 0x80000001, rfl, by decide +kernel⟩,
   ⟨let s := mk [(.CHK_SWSTAT_BUSY, 0, 1)]; { s with dev := { s.dev with chk := { run := some { alg := 0, src := tableSram, len := 4, seed := 0, fold := 0 } } } }, _, { alg := 0, src := tableSram, len := 4, seed := 0, fold := 0 }, rfl, by decide +kernel⟩,
   ⟨mk [(.CMP_CTL_ENABLE, 0, 1)], _, .mc 1, 0, rfl, by decide +kernel⟩,
   ⟨{ State.reset with dev := { cmp := { queue := [{ desc := tableSram, master := 2 }] } } }, _, { desc := tableSram, master := 2 }, [], rfl, by decide +kernel⟩,
   ⟨{ State.reset with dev := { State.reset.dev.stWords tableSram [2 ^ 28] with cmp := { queue := [{ desc := tableSram, master := 2 }] } } }, _, { desc := tableSram, master := 2 }, [], rfl, by decide +kernel⟩,
   ⟨{ State.reset with dev := { State.reset.dev.stWords tableSram [2 ^ 29] with cmp := { queue := [{ desc := tableSram, master := 2 }] } } }, _, { desc := tableSram, master := 2 }, [], rfl, by decide +kernel⟩,
   ⟨{ State.reset with dev := { State.reset.dev.stWords tableSram [3 * 2 ^ 28] with cmp := { queue := [{ desc := tableSram, master := 2 }] } } }, _, { desc := tableSram, master := 2 }, [], rfl, by decide +kernel⟩,
   ⟨{ State.reset with dev := { (State.reset.dev.stWords tableSram [3 * 2 ^ 28, 5, 0, tableSram + 64, 0, tableSram + 128, 16, 0]).stBytes (tableSram + 64) [1, 0, 0, 0xFF, 0xFF] with cmp := { running := [{ desc := tableSram, master := 2 }] } } }, _, 0, [], { desc := tableSram, master := 2 }, { status := 0, out := [(tableSram + 128, [])], len := 0 }, rfl, by decide +kernel⟩⟩

theorem witness_verify_rewrite_and_patrol :
    (∃ (s : State) (d : Dev) (q : Fin 32) (n : Fin 1024) (stream : Option Codes) (e : Emit), s.dev.met = d ∧ ((((d.wslot q.val).emits.find? fun e => e.slot == n.val && (d.wslot q.val).cur != some n.val) = some e) ∧ ((d.judgeWrite q.val e stream).1 = 6))) ∧
    (∃ (s : State) (d : Dev) (q : Fin 32) (n : Fin 1024) (stream : Option Codes) (e : Emit), s.dev.met = d ∧ ((((d.wslot q.val).emits.find? fun e => e.slot == n.val && (d.wslot q.val).cur != some n.val) = some e) ∧ ((d.judgeWrite q.val e stream).1 = 0))) ∧
    (∃ (s : State) (d : Dev) (q : Fin 32) (n : Fin 1024) (stream : Option Codes) (e : Emit), s.dev.met = d ∧ ((((d.wslot q.val).emits.find? fun e => e.slot == n.val && (d.wslot q.val).cur != some n.val) = some e) ∧ ((d.judgeWrite q.val e stream).1 = 7))) ∧
    (∃ (s : State) (d : Dev) (m : Master) (w : Word), s.dev.met = d ∧ ((d.wsGet (ledgerIndex (bits (d.loHalf m.id .HLT_RWLO 0) 26 6) (bits (d.loHalf m.id .HLT_RWLO 0) 0 20))).refresh = false)) ∧
    (∃ (s : State) (d : Dev) (r : RwReq) (rest : List RwReq), s.dev.met = d ∧ ((d.rd .CFG_STAT_RESTORED ≠ 0) ∧ (d.hlt.reqs = r :: rest) ∧ (d.zoneOf r.surf r.track = none))) ∧
    (∃ (s : State) (d : Dev) (r : RwReq) (rest : List RwReq) (z : Zone), s.dev.met = d ∧ ((d.rd .CFG_STAT_RESTORED ≠ 0) ∧ (d.hlt.reqs = r :: rest) ∧ (d.zoneOf r.surf r.track = some z) ∧ (d.stripesOf z ≤ (d.wsGet (ledgerIndex r.surf r.track)).bound ∨ r.rst = true) ∧ (d.hlt.intents.any (d.coversTrack r.surf r.track) = true))) ∧
    (∃ (s : State) (d : Dev) (r : RwReq) (rest : List RwReq) (z : Zone), s.dev.met = d ∧ ((d.rd .CFG_STAT_RESTORED ≠ 0) ∧ (d.hlt.reqs = r :: rest) ∧ (d.zoneOf r.surf r.track = some z) ∧ (r.rst = true) ∧ (d.hlt.intents.any (d.coversTrack r.surf r.track) = false))) ∧
    (∃ (s : State) (d : Dev) (op i : Nat), s.dev.met = d ∧ ((d.rd .HLT_CTL_ENABLE ≠ 0) ∧ (d.rd .HLT_CTL_WEEVIL ≠ 0) ∧ (((d.hlt.held ++ d.hlt.work).filter fun w => decide (w.op ≤ opScrub)).length < max 1 (d.rd .HLT_WEEVIL_INFLIGHT)) ∧ (d.patrolChoice = some (op, i)))) ∧
    (∃ (s : State) (d : Dev) (w : Word) (x : Work), s.dev.met = d ∧ (((d.hlt.work.find? fun y => y.seq == w.toNat % 65536) = some x) ∧ (bits w.toNat 28 4 = 0))) ∧
    (∃ (s : State) (d : Dev) (w : Word) (x : Work), s.dev.met = d ∧ (((d.hlt.work.find? fun y => y.seq == w.toNat % 65536) = some x) ∧ (bits w.toNat 28 4 = 1))) ∧
    (∃ (s : State) (d : Dev) (w : Word), s.dev.met = d ∧ ((d.hlt.work.find? fun y => y.seq == w.toNat % 65536) = none)) ∧
    (∃ (s : State) (d : Dev) (n : Fin 65536) (x : Work) (after : Nat), s.dev.met.advance after = d ∧ (((d.hlt.work.find? fun w => w.seq == n.val % 65536 && (w.op == opJournal || w.op == opCheckpoint)) = some x) ∧ (d.waited (.work x.seq) (d.rd .HLT_JRNL_TMO * 1250000000) = true))) ∧
    (∃ (s : State) (d : Dev) (x : Work) (rest : List Work) (after : Nat), s.dev.met.advance after = d ∧ ((d.hlt.retry = x :: rest) ∧ (d.waited (.retry x.seq) 4500000000000 = true))) ∧
    (∃ (s : State) (d : Dev) (after : Nat), s.dev.met.advance after = d ∧ (d.waitFrom .checkpoint + max 1 (d.rd .HLT_JRNL_CKPT) * (60 * 1250000000) ≤ d.now)) ∧
    (∃ (s : State) (d : Dev) (h : Fin 128), s.dev.met = d ∧ ((d.rd .SRV_HSTAT_STATE h.val = unitServ) ∧ (d.calCauses h.val ≠ 0) ∧ (∀ x ∈ d.hlt.calReq, x.1 ≠ h.val) ∧ (d.hlt.calReq.length < 32))) :=
  ⟨⟨{ State.reset with dev := { wrf := { slots := [(8, { Wslot.init with emits := [{ anEmit with psa := mkPsa 9 5 2 1 }] })] } } }, _, 8, 2, none, { anEmit with psa := mkPsa 9 5 2 1 }, rfl, by decide +kernel⟩,
   ⟨{ State.reset with dev := { (mk [(.WRF_VCRIT2_MINMAG, 0, 0)]).dev with wrf := { slots := [(8, { Wslot.init with emits := [{ anEmit with psa := mkPsa 9 5 2 1 }] })] }, fsq := { seqs := [(8, { Seq.init with trailRes := [(2, ⟨0, 199, 0, 0⟩)] })] } } }, _, 8, 2, some [], { anEmit with psa := mkPsa 9 5 2 1 }, rfl, by decide +kernel⟩,
   ⟨{ State.reset with dev := { wrf := { slots := [(8, { Wslot.init with emits := [{ anEmit with psa := mkPsa 9 5 2 1, written := false }] })] } } }, _, 8, 2, none, { anEmit with psa := mkPsa 9 5 2 1, written := false }, rfl, by decide +kernel⟩,
   ⟨mk [], _, .mc 1, 5, rfl, by decide +kernel⟩,
   ⟨{ State.reset with dev := { (mk [(.CFG_STAT_RESTORED, 0, 1)]).dev with hlt := { reqs := [{ master := 3, surf := 9, track := 5, tag := 1, rst := false }] } } }, _, { master := 3, surf := 9, track := 5, tag := 1, rst := false }, [], rfl, by decide +kernel⟩,
   ⟨{ aZone with dev := { (aZone.dev.wr .CFG_STAT_RESTORED 0 1) with hlt := { reqs := [{ master := 3, surf := 9, track := 4, tag := 1, rst := true }], intents := [{ surf := 9, first := 4, ckpt := 0, adv := [], acked := true }] } } }, _, { master := 3, surf := 9, track := 4, tag := 1, rst := true }, [], aZone.dev.zoneEnt 0, rfl, by decide +kernel⟩,
   ⟨{ aZone with dev := { (aZone.dev.wr .CFG_STAT_RESTORED 0 1) with hlt := { reqs := [{ master := 3, surf := 9, track := 4, tag := 1, rst := true }] } } }, _, { master := 3, surf := 9, track := 4, tag := 1, rst := true }, [], aZone.dev.zoneEnt 0, rfl, by decide +kernel⟩,
   ⟨{ State.reset with dev := { (mk [(.HLT_CTL_ENABLE, 0, 1), (.HLT_CTL_WEEVIL, 0, 1)]).dev with hlt := { ws := [(7, { w0 := 512, w1 := 0, w2 := 0, w3 := 1, passed := [], locks := 0, used := 0, low := 255, dirty := false })] } } }, _, opScrub, 7, rfl, by decide +kernel⟩,
   ⟨{ State.reset with dev := { hlt := { work := [aWork] } } }, _, 3, aWork, rfl, by decide +kernel⟩,
   ⟨{ State.reset with dev := { hlt := { work := [aWork] } } }, _, 0x10000003, aWork, rfl, by decide +kernel⟩,
   ⟨mk [], _, 3, rfl, by decide +kernel⟩,
   ⟨{ State.reset with dev := { timers := [(.work 3, 0)], hlt := { work := [{ aWork with op := opJournal }] } } }, _, 3, { aWork with op := opJournal }, 40000000000000, rfl, by decide +kernel⟩,
   ⟨{ State.reset with dev := { timers := [(.retry 3, 0)], hlt := { retry := [aWork] } } }, _, aWork, [], 4500000000000, rfl, by decide +kernel⟩,
   ⟨mk [], _, 1000000000000000, rfl, by decide +kernel⟩,
   ⟨mk [(.SRV_HSTAT_STATE, 9, unitServ), (.HLT_POH_HOURS, 0, 0xFFFFFF)], _, 9, rfl, by decide +kernel⟩⟩

theorem witness_silicon_and_projection :
    (∃ (s : State) (d : Dev) (sl : List Int) (after : Nat), s.dev.met.advance after = d ∧ ((d.waitFrom .slack + 1250000000 ≤ d.now) ∧ (d.rd .HLT_AVSSTAT_VCODE < d.rd .HLT_AVS_VMAX) ∧ (d.rd .HLT_CTL_AVS ≠ 0) ∧ (d.hlt.avsBusy = false) ∧ (sl.foldl min (sl.headD 0) < (d.rd .HLT_AVS_GUARD : Int)))) ∧
    (∃ (s : State) (d : Dev), s.dev.met = d ∧ (d.hlt.avsBusy = true)) ∧
    (∃ (s : State) (d : Dev) (after : Nat), s.dev.met.advance after = d ∧ ((d.hlt.avsBusy = true) ∧ (d.waited .avs 1250000 = true))) ∧
    (∃ (s : State) (d : Dev) (ts : List Int) (after : Nat), s.dev.met.advance after = d ∧ (d.waitFrom .dieTemp + 125000000 ≤ d.now)) ∧
    (∃ (s : State) (d : Dev), s.dev.met = d ∧ ((d.rd .HLT_POH_HOURS ≠ 0 ∧ d.rd .HLT_POH_HOURS % 168 = 0) ∧ (d.hlt.history.head?.map Prod.fst ≠ some (d.rd .HLT_POH_HOURS)) ∧ (3 ≤ d.hlt.history.length))) ∧
    (∃ (s : State) (d : Dev) (after : Nat), s.dev.met.advance after = d ∧ (d.waitFrom .hour + 3600 * 1250000000 ≤ d.now)) ∧
    (∃ (s : State) (d : Dev) (after : Nat), s.dev.met.advance after = d ∧ (d.now < d.waitFrom .hour + 3600 * 1250000000)) :=
  ⟨⟨mk [(.HLT_CTL_AVS, 0, 1), (.HLT_AVS_VMAX, 0, 200), (.HLT_AVSSTAT_VCODE, 0, 100)], _, [-5], 1250000000, rfl, by decide +kernel⟩,
   ⟨{ State.reset with dev := { hlt := { avsBusy := true, avsWant := 7 } } }, _, rfl, by decide +kernel⟩,
   ⟨{ State.reset with dev := { timers := [(.avs, 0)], hlt := { avsBusy := true, avsWant := 7 } } }, _, 1250000, rfl, by decide +kernel⟩,
   ⟨mk [], _, [], 125000000, rfl, by decide +kernel⟩,
   ⟨{ State.reset with dev := { (mk [(.HLT_POH_HOURS, 0, 168)]).dev with hlt := { history := [(1, 1, 1), (2, 1, 1), (3, 1, 1)] } } }, _, rfl, by decide +kernel⟩,
   ⟨mk [], _, 4500000000000, rfl, by decide +kernel⟩,
   ⟨mk [], _, 3, rfl, by decide +kernel⟩⟩

theorem witness_caches_and_dram :
    (∃ (s : State) (d : Dev) (raw : BitVec 5) (rate : BitVec 2), s.dev.met = d ∧ (d.rd .SYS_STAT_HANDOVER = 0)) ∧
    (∃ (s : State) (d : Dev), s.dev.met = d ∧ (d.memx.training = true)) ∧
    (∃ (s : State) (d : Dev), s.dev.met = d ∧ (d.memx.training = true)) ∧
    (∃ (s : State) (d : Dev) (c : Fin 8), s.dev.met = d ∧ (d.rd .MEM_L1CTL_INVDONE c.val ≠ 0)) ∧
    (∃ (s : State) (d : Dev) (c : Fin 8) (ien den : Bool), s.dev.met = d ∧ ((d.rd .MEM_L1CTL_INVDONE c.val = 0) ∧ (ien = true) ∧ (den = false))) ∧
    (∃ (s : State) (d : Dev), s.dev.met = d ∧ (d.rd .MEM_L2CTL_INVALID ≠ 0)) ∧
    (∃ (s : State) (d : Dev), s.dev.met = d ∧ (d.rd .MEM_L2CTL_INVALID = 0)) ∧
    (∃ (s : State) (d : Dev), s.dev.met = d ∧ (d.rd .MEM_L2CTL_ENABLE ≠ 0)) ∧
    (∃ (s : State) (d : Dev), s.dev.met = d ∧ (d.rd .MEM_L2CTL_DISBUSY ≠ 0)) ∧
    (∃ (s : State) (d : Dev) (all : Bool) (set : Fin 32768) (way : Fin 16) (line : Option (BitVec 40)), s.dev.met = d ∧ (d.memx.maint = none)) ∧
    (∃ (s : State) (d : Dev) (all : Bool) (set : Fin 32768) (way : Fin 16) (line : Option (BitVec 40)), s.dev.met = d ∧ (d.memx.maint.isSome = true)) ∧
    (∃ (s : State) (d : Dev) (all : Bool) (set : Fin 32768) (way : Fin 16) (line : Option (BitVec 40)), s.dev.met = d ∧ (d.memx.maint = none)) ∧
    (∃ (s : State) (d : Dev) (all : Bool) (set : Fin 32768) (way : Fin 16) (line : Option (BitVec 40)), s.dev.met = d ∧ (d.memx.maint = none)) ∧
    (∃ (s : State) (d : Dev) (m : Maint), s.dev.met = d ∧ ((d.memx.maint = some m) ∧ (d.rd .MEM_L2CTL_ENABLE = 0) ∧ (m.op ≠ 1) ∧ (m.lines = none))) ∧
    (∃ (s : State) (d : Dev) (m : Maint) (l : List Nat), s.dev.met = d ∧ ((d.memx.maint = some m) ∧ (d.rd .MEM_L2CTL_ENABLE ≠ 0) ∧ (m.lines = some l))) ∧
    (∃ (s : State) (d : Dev) (c : Fin 8) (a : BitVec 40), s.dev.met = d ∧ ((arrayOf a.toNat = 0) ∧ (d.memExists a.toNat = true))) ∧
    (∃ (s : State) (d : Dev) (c : Fin 8) (a : BitVec 40), s.dev.met = d ∧ ((arrayOf a.toNat = 0) ∧ (d.memExists a.toNat = true))) ∧
    (∃ (s : State) (d : Dev) (c : Fin 8) (a : BitVec 40), s.dev.met = d ∧ ((arrayOf a.toNat = 0) ∧ (d.memExists a.toNat = true))) ∧
    (∃ (s : State) (d : Dev) (c : Fin 8) (a : BitVec 40), s.dev.met = d ∧ ((d.memExists a.toNat = true) ∧ (¬ (arrayOf a.toNat = 5 ∨ arrayOf a.toNat = 6)))) ∧
    (∃ (s : State) (d : Dev) (c : Fin 8) (a : BitVec 40), s.dev.met = d ∧ (d.memExists a.toNat = false)) ∧
    (∃ (s : State) (d : Dev) (c : Fin 8) (a : BitVec 40), s.dev.met = d ∧ ((d.memExists a.toNat = true) ∧ (arrayOf a.toNat = 5 ∨ arrayOf a.toNat = 6))) :=
  ⟨⟨mk [], _, 3, 1, rfl, by decide +kernel⟩,
   ⟨{ State.reset with dev := { memx := { training := true } } }, _, rfl, by decide +kernel⟩,
   ⟨{ State.reset with dev := { memx := { training := true } } }, _, rfl, by decide +kernel⟩,
   ⟨mk [(.MEM_L1CTL_INVDONE, 3, 1)], _, 3, rfl, by decide +kernel⟩,
   ⟨mk [], _, 3, true, false, rfl, by decide +kernel⟩,
   ⟨mk [(.MEM_L2CTL_INVALID, 0, 1)], _, rfl, by decide +kernel⟩,
   ⟨mk [(.MEM_L2CTL_INVALID, 0, 0)], _, rfl, by decide +kernel⟩,
   ⟨mk [(.MEM_L2CTL_ENABLE, 0, 1)], _, rfl, by decide +kernel⟩,
   ⟨mk [(.MEM_L2CTL_ENABLE, 0, 1), (.MEM_L2CTL_DISBUSY, 0, 1)], _, rfl, by decide +kernel⟩,
   ⟨mk [], _, false, 5, 3, none, rfl, by decide +kernel⟩,
   ⟨{ State.reset with dev := { memx := { maint := some { op := 1, lines := none } } } }, _, false, 5, 3, none, rfl, by decide +kernel⟩,
   ⟨mk [], _, false, 5, 3, none, rfl, by decide +kernel⟩,
   ⟨mk [], _, true, 5, 3, none, rfl, by decide +kernel⟩,
   ⟨{ State.reset with dev := { memx := { maint := some { op := 2, lines := none } } } }, _, { op := 2, lines := none }, rfl, by decide +kernel⟩,
   ⟨{ State.reset with dev := { (mk [(.MEM_L2CTL_ENABLE, 0, 1)]).dev with memx := { maint := some { op := 1, lines := some [dramBase] } } } }, _, { op := 1, lines := some [dramBase] }, [dramBase], rfl, by decide +kernel⟩,
   ⟨mk [(.MEM_DRSTAT_CAP, 0, 8)], _, 2, 0x1000000040, rfl, by decide +kernel⟩,
   ⟨mk [(.MEM_DRSTAT_CAP, 0, 8)], _, 2, 0x1000000040, rfl, by decide +kernel⟩,
   ⟨mk [(.MEM_DRSTAT_CAP, 0, 8)], _, 2, 0x1000000040, rfl, by decide +kernel⟩,
   ⟨mk [(.MEM_DRSTAT_CAP, 0, 8)], _, 2, 0x1000000040, rfl, by decide +kernel⟩,
   ⟨mk [], _, 2, 0x1000000040, rfl, by decide +kernel⟩,
   ⟨mk [], _, 2, 0x4000000, rfl, by decide +kernel⟩⟩

theorem witness_memory_errors_and_tests :
    (∃ (s : State) (d : Dev) (after : Nat), s.dev.met.advance after = d ∧ ((d.waitFrom .leak + max 1 (d.rd .MEM_LEAK_PERIOD) * 1250000000 ≤ d.now) ∧ (max 1 (d.rd .MEM_LEAK_THRESH) ≤ (d.wr .MEM_BUCKET_DRAM 0 (d.rd .MEM_BUCKET_DRAM - 1)).rd .MEM_BUCKET_DRAM) ∧ (max 1 (d.rd .MEM_LEAK_THRESH) ≤ ((d.wr .MEM_BUCKET_DRAM 0 (d.rd .MEM_BUCKET_DRAM - 1)).wr .MEM_BUCKET_CACHE 0 (d.rd .MEM_BUCKET_CACHE - 1)).rd .MEM_BUCKET_CACHE))) ∧
    (∃ (s : State) (d : Dev) (w : Word), s.dev.met = d ∧ ((bit w.toNat 30 = false) ∧ (d.rd .MEM_FLIPCTL_ARM = 0))) ∧
    (∃ (s : State) (d : Dev) (w : Word), s.dev.met = d ∧ ((bit w.toNat 30 = false) ∧ (d.rd .MEM_FLIPCTL_ARM ≠ 0))) ∧
    (∃ (s : State) (d : Dev) (words : Nat) (errs : List MemErr), s.dev.met = d ∧ ((d.rd .MEM_SCRUB_EN ≠ 0) ∧ ((errs.foldl (fun x e => x.memError reqScrub e.array.val e.addr.toNat e.hard) d).memx.scrub + words < (errs.foldl (fun x e => x.memError reqScrub e.array.val e.addr.toNat e.hard) d).scrubWords))) ∧
    (∃ (s : State) (d : Dev) (words : Nat) (errs : List MemErr), s.dev.met = d ∧ (d.rd .MEM_SCRUB_EN = 0)) :=
  ⟨⟨mk [(.MEM_LEAK_PERIOD, 0, 1), (.MEM_BUCKET_DRAM, 0, 200), (.MEM_BUCKET_CACHE, 0, 200), (.MEM_LEAK_THRESH, 0, 20)], _, 1250000000, rfl, by decide +kernel⟩,
   ⟨mk [], _, 0x80000003, rfl, by decide +kernel⟩,
   ⟨mk [(.MEM_FLIPCTL_ARM, 0, 1)], _, 0x80000003, rfl, by decide +kernel⟩,
   ⟨mk [(.MEM_SCRUB_EN, 0, 1)], _, 9, [{ addr := 0x4000000, array := 5, hard := true }], rfl, by decide +kernel⟩,
   ⟨mk [(.MEM_SCRUB_EN, 0, 0)], _, 9, [], rfl, by decide +kernel⟩⟩

theorem witness_fault_collection :
    (∃ (s : State) (d : Dev), s.dev.met = d ∧ ((d.rd .FLT_STAT_SAFEACT ≠ 0) ∧ (d.allParked = true) ∧ (d.rd .SPN_STAT_STATE = 0 ∨ d.rd .SPN_STAT_STATE = 1 ∨ d.rd .SPN_STAT_STATE = 5 ∨ d.rd .SPN_STAT_STATE = 6))) ∧
    (∃ (s : State) (d : Dev) (n : Fin 41) (after : Nat), s.dev.met.advance after = d ∧ ((d.flt.timers.contains n.val = true) ∧ (d.rd .FLT_CFG_RECTMO ≠ 0) ∧ (d.waited (.recov n.val) (d.rd .FLT_CFG_RECTMO * 1250000) = true) ∧ (d.rd .FLT_SRCSTAT_EFFSEV n.val < 3))) ∧
    (∃ (s : State) (d : Dev), s.dev.met = d ∧ ((d.topSev < 3) ∧ (d.rd .FLT_STAT_HOLD ≠ 0))) ∧
    (∃ (s : State) (d : Dev), s.dev.met = d ∧ (3 ≤ d.topSev)) ∧
    (∃ (s : State) (d : Dev) (n : Fin 41) (w : Word), s.dev.met = d ∧ (d.rd .FLT_CTL_LOCK = 0)) ∧
    (∃ (s : State) (d : Dev) (w : Word), s.dev.met = d ∧ (d.rd .FLT_CTL_LOCK = 0)) ∧
    (∃ (s : State) (d : Dev) (w : Word), s.dev.met = d ∧ (d.rd .FLT_CTL_LOCK = 0)) ∧
    (∃ (s : State) (d : Dev) (r : FltReg) (w : Word), s.dev.met = d ∧ (d.rd .FLT_CTL_LOCK ≠ 0)) ∧
    (∃ (s : State) (d : Dev) (c : Fin 8) (w : Word), s.dev.met = d ∧ ((d.rd .FLT_WDCTL_EN c.val = 0) ∧ (bit w.toNat 31 = true))) ∧
    (∃ (s : State) (d : Dev) (c : Fin 8) (w : Word), s.dev.met = d ∧ (d.rd .FLT_WDCTL_EN c.val ≠ 0)) ∧
    (∃ (s : State) (d : Dev) (c : Fin 8) (key : Byte), s.dev.met = d ∧ (key = 0xA5)) ∧
    (∃ (s : State) (d : Dev) (m : Master) (c : Fin 8) (key : Byte), s.dev.met = d ∧ (m.id ≠ 2 + c.val)) ∧
    (∃ (s : State) (d : Dev) (after : Nat), s.dev.met.advance after = d ∧ ((d.waitFrom .cricket + 625000 ≤ d.now) ∧ (d.crkRuns = true))) :=
  ⟨⟨mk [(.FLT_STAT_SAFEACT, 0, 1)], _, rfl, by decide +kernel⟩,
   ⟨{ State.reset with dev := { (mk [(.FLT_CFG_RECTMO, 0, 5), (.FLT_SRCSTAT_EFFSEV, 8, 2)]).dev with flt := { timers := [8] }, timers := [(.recov 8, 0)] } }, _, 8, 6250000, rfl, by decide +kernel⟩,
   ⟨mk [(.FLT_STAT_HOLD, 0, 1)], _, rfl, by decide +kernel⟩,
   ⟨mk [(.FLT_STAT_HOLD, 0, 1), (.FLT_PEND0_PEND, 0, 256), (.FLT_SRCSTAT_EFFSEV, 8, 3)], _, rfl, by decide +kernel⟩,
   ⟨mk [], _, 8, 0x3102, rfl, by decide +kernel⟩,
   ⟨mk [], _, 7, rfl, by decide +kernel⟩,
   ⟨mk [], _, 7, rfl, by decide +kernel⟩,
   ⟨mk [(.FLT_CTL_LOCK, 0, 1)], _, .cfg, 7, rfl, by decide +kernel⟩,
   ⟨mk [], _, 2, 0x80000005, rfl, by decide +kernel⟩,
   ⟨mk [(.FLT_WDCTL_EN, 2, 1)], _, 2, 5, rfl, by decide +kernel⟩,
   ⟨mk [], _, 2, 0xA5, rfl, by decide +kernel⟩,
   ⟨mk [], _, .svc, 2, 0xA5, rfl, by decide +kernel⟩,
   ⟨{ State.reset with dev := { flt := { crkOn := true } } }, _, 1250000, rfl, by decide +kernel⟩⟩

theorem witness_event_recorder :
    (∃ (s : State) (d : Dev) (e : EvtIn) (q : List EvtIn), s.dev.met = d ∧ (d.evt.queue = e :: q)) ∧
    (∃ (s : State) (d : Dev), s.dev.met = d ∧ (d.evt.queue = [])) ∧
    (∃ (s : State) (d : Dev) (n : Fin 41) (after : Nat), s.dev.met.advance after = d ∧ (d.waitFrom (.bucket n.val) + d.refillOf n.val * 1250000 ≤ d.now)) ∧
    (∃ (s : State) (d : Dev) (i : Fin 32) (after : Nat), s.dev.met.advance after = d ∧ (d.waitFrom (.bucket (128 + i.val)) + d.refillOf (128 + i.val) * 1250000 ≤ d.now)) ∧
    (∃ (s : State) (d : Dev) (after : Nat), s.dev.met.advance after = d ∧ (d.waitFrom (.bucket 64) + d.refillOf 64 * 1250000 ≤ d.now)) ∧
    (∃ (s : State) (d : Dev) (after : Nat), s.dev.met.advance after = d ∧ (d.waited .page (max 1 (d.rd .EVT_CFG_PAGETMO) * 1250000000) = false)) ∧
    (∃ (s : State) (d : Dev) (after : Nat), s.dev.met.advance after = d ∧ ((d.waited .page (max 1 (d.rd .EVT_CFG_PAGETMO) * 1250000000) = true) ∧ (d.evt.page ≠ []))) ∧
    (∃ (s : State) (d : Dev), s.dev.met = d ∧ (d.evt.page ≠ [])) ∧
    (∃ (s : State) (d : Dev) (ok : Bool) (p : List Nat) (ps : List (List Nat)), s.dev.met = d ∧ ((d.rd .SYS_STAT_HANDOVER ≠ 0) ∧ (d.rd .EVT_CTL_NORLOG ≠ 0) ∧ (256 ≤ d.rd .EVT_NORERASED_BYTES) ∧ (d.spn.running = false) ∧ (d.evt.closed = p :: ps))) ∧
    (∃ (s : State) (d : Dev) (ok : Bool), s.dev.met = d ∧ ((d.rd .SYS_STAT_HANDOVER ≠ 0) ∧ (d.rd .EVT_CTL_NORLOG ≠ 0) ∧ (d.rd .EVT_NORERASED_BYTES + 4096 ≤ d.logSize) ∧ (d.spn.running = false))) ∧
    (∃ (s : State) (d : Dev) (on : Bool), s.dev.met = d ∧ (on = true ∨ d.rd .SYS_STAT_HANDOVER = 0)) ∧
    (∃ (s : State) (d : Dev), s.dev.met = d ∧ (d.rd .SYS_STAT_HANDOVER ≠ 0)) ∧
    (∃ (s : State) (d : Dev) (m : Master) (w : Word), s.dev.met = d ∧ (0xC000 ≤ w.toNat % 65536)) ∧
    (∃ (s : State) (d : Dev) (m : Master) (w : Word), s.dev.met = d ∧ (w.toNat % 65536 < 0xC000)) :=
  ⟨⟨{ State.reset with dev := { evt := { queue := [anEvt] } } }, _, anEvt, [], rfl, by decide +kernel⟩,
   ⟨mk [], _, rfl, by decide +kernel⟩,
   ⟨mk [], _, 3, 1250000000, rfl, by decide +kernel⟩,
   ⟨mk [], _, 3, 1250000000, rfl, by decide +kernel⟩,
   ⟨mk [], _, 1250000000, rfl, by decide +kernel⟩,
   ⟨mk [], _, 0, rfl, by decide +kernel⟩,
   ⟨{ State.reset with dev := { evt := { page := [3] }, timers := [(.page, 0)] } }, _, 300000000000, rfl, by decide +kernel⟩,
   ⟨{ State.reset with dev := { evt := { page := [3] } } }, _, rfl, by decide +kernel⟩,
   ⟨{ State.reset with dev := { (mk [(.SYS_STAT_HANDOVER, 0, 1), (.EVT_CTL_NORLOG, 0, 1), (.EVT_NORERASED_BYTES, 0, 4096)]).dev with evt := { closed := [[3]] } } }, _, true, [3], [], rfl, by decide +kernel⟩,
   ⟨mk [(.SYS_STAT_HANDOVER, 0, 1), (.EVT_CTL_NORLOG, 0, 1), (.EVT_NORERASED_BYTES, 0, 4096), (.EVT_NORSIZE_VALUE, 0, 64)], _, true, rfl, by decide +kernel⟩,
   ⟨mk [], _, true, rfl, by decide +kernel⟩,
   ⟨mk [(.SYS_STAT_HANDOVER, 0, 1)], _, rfl, by decide +kernel⟩,
   ⟨mk [], _, .mc 1, 0xC123, rfl, by decide +kernel⟩,
   ⟨mk [], _, .mc 1, 0x123, rfl, by decide +kernel⟩⟩

theorem witness_dma_channels :
    (∃ (s : State) (d : Dev) (m : Master) (c : Fin 64), s.dev.met = d ∧ ((d.rd .DMA_CSTAT_STATE c.val = 0) ∧ (d.rd .DMA_STAT_BERR = 0) ∧ (d.rd .DMA_CTL_ENABLE ≠ 0))) ∧
    (∃ (s : State) (d : Dev) (m : Master) (c : Fin 64), s.dev.met = d ∧ (d.rd .DMA_CSTAT_STATE c.val ≠ 0)) ∧
    (∃ (s : State) (d : Dev) (c : Fin 64), s.dev.met = d ∧ (d.rd .DMA_CSTAT_STATE c.val = 3)) ∧
    (∃ (s : State) (d : Dev) (c : Fin 64), s.dev.met = d ∧ ((d.rd .DMA_CSTAT_STATE c.val = 1) ∧ ((d.dmaCh c.val).moved ≠ 0))) ∧
    (∃ (s : State) (d : Dev) (c : Fin 64), s.dev.met = d ∧ ((d.rd .DMA_CSTAT_STATE c.val = 3) ∧ (d.rd .DMA_STAT_BERR = 0))) ∧
    (∃ (s : State) (d : Dev) (c : Fin 64), s.dev.met = d ∧ (d.rd .DMA_CSTAT_STATE c.val ≠ 3)) ∧
    (∃ (s : State) (d : Dev) (c : Fin 64), s.dev.met = d ∧ ((d.dmaRuns c.val = true) ∧ ((d.dmaCh c.val).words = []) ∧ (arrayOf (d.dmaCh c.val).desc = 0 ∨ arrayOf (d.dmaCh c.val).desc = 5) ∧ ((d.readCheck reqDma (d.dmaCh c.val).desc 32).2 = true))) ∧
    (∃ (s : State) (d : Dev) (c : Fin 64) (after : Nat), s.dev.met.advance after = d ∧ ((d.dmaRuns c.val = true) ∧ (d.rd .DMA_CCFG_PACE c.val ≠ 0) ∧ (d.dmaUnpaced c.val = false) ∧ (d.dmaPaced c.val = true))) ∧
    (∃ (s : State) (d : Dev) (c : Fin 64) (after : Nat), s.dev.met.advance after = d ∧ ((d.dmaRuns c.val = true) ∧ (d.rd .DMA_CCFG_PACE c.val ≠ 0) ∧ (d.dmaUnpaced c.val = false) ∧ (d.dmaPaced c.val = true) ∧ ((d.dmaCh c.val).wait = false))) ∧
    (∃ (s : State) (d : Dev) (c : Fin 64) (after : Nat), s.dev.met.advance after = d ∧ ((d.dmaRuns c.val = true) ∧ (d.rd .DMA_CCFG_PACE c.val ≠ 0) ∧ (d.dmaUnpaced c.val = false) ∧ (d.dmaPaced c.val = true) ∧ ((d.dmaCh c.val).wait = true))) ∧
    (∃ (s : State) (d : Dev) (c : Fin 64) (after : Nat), s.dev.met.advance after = d ∧ ((d.dmaRuns c.val = true) ∧ (d.rd .DMA_CCFG_PACE c.val ≠ 0) ∧ (d.dmaUnpaced c.val = false) ∧ ((d.dmaCh c.val).wait = true))) ∧
    (∃ (s : State) (d : Dev) (c : Fin 64), s.dev.met = d ∧ ((d.dmaRuns c.val = true) ∧ (d.rd .DMA_CCFG_PACE c.val ≠ 0) ∧ ((d.dmaCh c.val).words ≠ []) ∧ ((d.dmaCh c.val).left = 0) ∧ (d.rd .DMA_CSTAT_STATE c.val = 1) ∧ (d.rd .DMA_CCFG_MODE c.val ≠ 1) ∧ ((d.dmaCh c.val).last = true))) ∧
    (∃ (s : State) (d : Dev) (c : Fin 64) (n : Nat) (write : Bool), s.dev.met = d ∧ ((d.dmaRuns c.val = true) ∧ ((d.dmaMove c.val (min n (d.dmaCh c.val).left)).dmaRuns c.val = true) ∧ (((d.dmaMove c.val (min n (d.dmaCh c.val).left)).dmaCh c.val).words ≠ []))) ∧
    (∃ (s : State) (d : Dev), s.dev.met = d ∧ (d.dma.failed = true)) :=
  ⟨⟨mk [(.DMA_CTL_ENABLE, 0, 1)], _, .mc 1, 7, rfl, by decide +kernel⟩,
   ⟨mk [(.DMA_CSTAT_STATE, 7, 1)], _, .mc 1, 7, rfl, by decide +kernel⟩,
   ⟨mk [(.DMA_CSTAT_STATE, 7, 3)], _, 7, rfl, by decide +kernel⟩,
   ⟨{ State.reset with dev := { (mk [(.DMA_CSTAT_STATE, 7, 1)]).dev with dma := { chans := [(7, { moved := 4 })] } } }, _, 7, rfl, by decide +kernel⟩,
   ⟨mk [(.DMA_CSTAT_STATE, 7, 3)], _, 7, rfl, by decide +kernel⟩,
   ⟨mk [], _, 7, rfl, by decide +kernel⟩,
   ⟨{ State.reset with dev := { (mk [(.DMA_CSTAT_STATE, 7, 1), (.DMA_CTL_ENABLE, 0, 1)]).dev with dma := { chans := [(7, { desc := tableSram })] } } }, _, 7, rfl, by decide +kernel⟩,
   ⟨{ State.reset with dev := { (mk [(.DMA_CSTAT_STATE, 7, 1), (.DMA_CTL_ENABLE, 0, 1), (.DMA_CCFG_PACE, 7, 2)]).dev with ang := { cmpAt := [(0, 5)] } } }, _, 7, 10, rfl, by decide +kernel⟩,
   ⟨{ State.reset with dev := { (mk [(.DMA_CSTAT_STATE, 7, 1), (.DMA_CTL_ENABLE, 0, 1), (.DMA_CCFG_PACE, 7, 2)]).dev with ang := { cmpAt := [(0, 5)] } } }, _, 7, 10, rfl, by decide +kernel⟩,
   ⟨{ State.reset with dev := { (mk [(.DMA_CSTAT_STATE, 7, 1), (.DMA_CTL_ENABLE, 0, 1), (.DMA_CCFG_PACE, 7, 2)]).dev with ang := { cmpAt := [(0, 5)] }, dma := { chans := [(7, { wait := true })] } } }, _, 7, 10, rfl, by decide +kernel⟩,
   ⟨{ State.reset with dev := { (mk [(.DMA_CSTAT_STATE, 7, 1), (.DMA_CTL_ENABLE, 0, 1), (.DMA_CCFG_PACE, 7, 1)]).dev with dma := { chans := [(7, { wait := true })] } } }, _, 7, 0, rfl, by decide +kernel⟩,
   ⟨{ State.reset with dev := { (mk [(.DMA_CSTAT_STATE, 7, 1), (.DMA_CTL_ENABLE, 0, 1), (.DMA_CCFG_PACE, 7, 1)]).dev with dma := { chans := [(7, { desc := tableSram, words := [0, 0, 0, 0, 2 ^ 30, 0, 0, 0] })] } } }, _, 7, rfl, by decide +kernel⟩,
   ⟨{ State.reset with dev := { (mk [(.DMA_CSTAT_STATE, 7, 1), (.DMA_CTL_ENABLE, 0, 1), (.DMA_CCFG_PACE, 7, 1)]).dev with dma := { chans := [(7, { desc := tableSram, words := [0, 0, 0, 0, 2 ^ 30 + 8, 0, 0, 0] })] } } }, _, 7, 0, true, rfl, by decide +kernel⟩,
   ⟨{ State.reset with dev := { dma := { failed := true } } }, _, rfl, by decide +kernel⟩⟩

theorem witness_core_accesses :
    (∃ (s : State) (d : Dev) (c : Fin 8) (a : BitVec 40) (size : Fin 4) (v : BitVec 64) (err : Option MemErr), s.dev.met = d ∧ ((arrayOf a.toNat ≠ 7) ∧ ((d.readMem (coreMaster c) a.toNat (2 ^ size.val) err).2 = true))) ∧
    (∃ (s : State) (d : Dev) (c : Fin 8) (a : BitVec 40) (size : Fin 4) (v : BitVec 64) (err : Option MemErr), s.dev.met = d ∧ ((arrayOf a.toNat ≠ 7) ∧ ((d.readMem (coreMaster c) a.toNat (2 ^ size.val) err).2 = false))) ∧
    (∃ (s : State) (d : Dev) (c : Fin 8) (a : BitVec 40) (size : Fin 4) (v : BitVec 64) (err : Option MemErr), s.dev.met = d ∧ ((arrayOf a.toNat ≠ 7) ∧ (d.rangeExists a.toNat (2 ^ size.val) = true))) ∧
    (∃ (s : State) (d : Dev) (c : Fin 8) (a : BitVec 40) (size : Fin 4) (v : BitVec 64) (err : Option MemErr), s.dev.met = d ∧ ((arrayOf a.toNat ≠ 7) ∧ (d.rangeExists a.toNat (2 ^ size.val) = false))) ∧
    (∃ (s : State) (d : Dev) (c : Fin 8) (op : CoreAmo) (a : BitVec 40) (size : Fin 4) (v : BitVec 64) (err : Option MemErr), s.dev.met = d ∧ ((arrayOf a.toNat ≠ 7) ∧ ((d.readMem (coreMaster c) a.toNat (2 ^ size.val) err).2 = true))) ∧
    (∃ (s : State) (d : Dev) (c : Fin 8) (a : BitVec 40) (size : Fin 4) (v : BitVec 64) (err : Option MemErr), s.dev.met = d ∧ ((d.memExists (l1Line a.toNat) = true) ∧ (d.rd .MEM_L1CTL_IEN c.val = 0) ∧ ((d.readMem (coreMaster c) (l1Line a.toNat) 64 err).2 = true))) ∧
    (∃ (s : State) (d : Dev) (c : Fin 8) (a : BitVec 40) (size : Fin 4) (v : BitVec 64) (err : Option MemErr), s.dev.met = d ∧ (d.memExists (l1Line a.toNat) = false)) :=
  ⟨⟨mk [], _, 3, 0x4000010, 2, 0, none, rfl, by decide +kernel⟩,
   ⟨mk [], _, 3, 0x1000000000, 2, 0, none, rfl, by decide +kernel⟩,
   ⟨mk [], _, 3, 0x4000010, 2, 0x1234, none, rfl, by decide +kernel⟩,
   ⟨mk [], _, 3, 0x1000000000, 2, 0, none, rfl, by decide +kernel⟩,
   ⟨mk [], _, 3, .add, 0x4000010, 2, 0x1234, none, rfl, by decide +kernel⟩,
   ⟨mk [], _, 3, 0x4000010, 2, 0, none, rfl, by decide +kernel⟩,
   ⟨mk [], _, 3, 0x1000000000, 2, 0, none, rfl, by decide +kernel⟩⟩

theorem witness_reservations :
    (∃ (s : State) (d : Dev) (m : Master) (w : Word), s.dev.met = d ∧ ((bits w.toNat 0 6 ≠ 0) ∧ (bits w.toNat 0 6 ≤ 32) ∧ (bit w.toNat 7 = true ∨ (d.ovlOf (d.loHalf m.id .SCH_RQLO 0)).isSome = true))) ∧
    (∃ (s : State) (d : Dev) (m : Master) (w : Word), s.dev.met = d ∧ (bits w.toNat 0 6 = 0)) ∧
    (∃ (s : State) (d : Dev) (f : BitVec 32), s.dev.met = d ∧ (d.clears f.toNat = true)) ∧
    (∃ (s : State) (d : Dev) (f : BitVec 32), s.dev.met = d ∧ (d.clears f.toNat = false)) ∧
    (∃ (s : State) (d : Dev) (r : ResReq) (base handle : Nat), s.dev.met = d ∧ ((d.rd .SCH_STAT_STATE ≠ 8) ∧ (bestOf d.reqBefore (d.sch.reqs.filter ResReq.cleared) = some r) ∧ (d.firstFit r.gran = some base) ∧ (d.freeHandle r.internal = some handle) ∧ (d.granulesAllow r.internal r.gran = true))) ∧
    (∃ (s : State) (d : Dev) (surf : Fin 32) (track : Fin 1048576) (x : SJob), s.dev.met = d ∧ ((d.rd .SCH_STAT_STATE ≠ 8) ∧ (Tab.look d.sch.locks (lockKey surf.val track.val) = none) ∧ (bestOf d.lockBefore (d.sch.jobs.filter fun x => x.ready.isNone && x.job.surf == surf.val && x.job.track == track.val && d.lockable x.job && (x.job.kind != 1 || (d.on .CFG_STAT_RESTORED && d.dataReady x.job))) = some x) ∧ (x.job.kind ≠ 1))) ∧
    (∃ (s : State) (d : Dev) (f : BitVec 32) (o : Ovl) (after : Nat), s.dev.met.advance after = d ∧ ((d.ovlOf f.toNat = some o) ∧ (o.rank ≠ 0) ∧ (o.time + d.rd .SCH_AGE_LIMIT * 12500000 ≤ d.now))) ∧
    (∃ (s : State) (d : Dev) (k : Nat) (after : Nat), s.dev.met.advance after = d ∧ (d.waited (.resv k) (d.rd .SCH_AGE_INTAGE * 1250000000) = true)) :=
  ⟨⟨mk [], _, .mc 1, 0x381, rfl, by decide +kernel⟩,
   ⟨mk [], _, .mc 1, 0x300, rfl, by decide +kernel⟩,
   ⟨{ State.reset with dev := { sch := { ovl := [anOvl] } } }, _, 5, rfl, by decide +kernel⟩,
   ⟨mk [], _, 5, rfl, by decide +kernel⟩,
   ⟨{ State.reset with dev := { (mk [(.SCH_BUFCFG_SIZE, 0, 64), (.SCH_BUFINT_INTMAX, 0, 16)]).dev with sch := { reqs := [aReq] } } }, _, aReq, 0, 65536, rfl, by decide +kernel⟩,
   ⟨{ State.reset with dev := { sch := { jobs := [aWaiter] } } }, _, 9, 5, aWaiter, rfl, by decide +kernel⟩,
   ⟨{ State.reset with dev := { sch := { ovl := [anOvl] } } }, _, 5, anOvl, 12500000000000, rfl, by decide +kernel⟩,
   ⟨{ State.reset with dev := { timers := [(.resv 65536, 0)] } }, _, 65536, 1250000000000000, rfl, by decide +kernel⟩⟩

theorem witness_dispatch_and_calibration :
    (∃ (s : State) (d : Dev) (x : SJob) (a q m : Nat), s.dev.met = d ∧ (d.nextDispatch = some (x, a, q, m))) ∧
    (∃ (s : State) (d : Dev), s.dev.met = d ∧ (d.nextDispatch = none)) ∧
    (∃ (s : State) (d : Dev) (a : Fin 4) (x : SJob), s.dev.met = d ∧ ((d.schRuns = true) ∧ (d.actIdle a.val = true) ∧ (d.rd .SRV_STAT_MODE a.val = 2) ∧ (d.seekJob a.val = some x) ∧ (({ d with sch := { d.sch with seekFor := Tab.put d.sch.seekFor a.val x.job.order } } : Dev).movePower = true) ∧ (({ d with sch := { d.sch with seekFor := Tab.put d.sch.seekFor a.val x.job.order } } : Dev).powerTurn x = true))) ∧
    (∃ (s : State) (d : Dev) (x : Nat × Nat), s.dev.met = d ∧ (bestOf (fun (x y : Nat × Nat) => decide (calRank x.2 < calRank y.2)) (d.hlt.calReq.filter fun c => !(d.sch.cal.any fun r => r.head == c.1)) = some x)) ∧
    (∃ (s : State) (d : Dev) (r : CalReq) (after : Nat), s.dev.met.advance after = d ∧ ((d.indexSince (d.waitFrom .take) = true) ∧ ((d.beginWait .take).countIndex.forcePick = some r))) ∧
    (∃ (s : State) (d : Dev) (a : Fin 4) (k : Nat) (r : CalReq) (after : Nat), s.dev.met.advance after = d ∧ ((Tab.look d.sch.forced a.val = some k) ∧ (d.indexSince (d.drainedAt a.val) = true) ∧ (d.actIdle a.val = true) ∧ (d.sch.revOn.contains a.val = false) ∧ ((d.sch.cal.find? fun r => r.head == k) = some r))) ∧
    (∃ (s : State) (d : Dev) (a : Fin 4) (after : Nat), s.dev.met.advance after = d ∧ ((d.indexSince (d.waitFrom (.forced a.val)) = true) ∧ (d.sch.revOn.contains a.val = true))) ∧
    (∃ (s : State) (d : Dev) (n : Fin 64) (after : Nat), s.dev.met.advance after = d ∧ ((d.indexSince (d.waitFrom (.joining (.lane n))) = true) ∧ (d.rd .LANE_STAT_STATE n.val = unitJoin))) ∧
    (∃ (s : State) (d : Dev) (n : Fin 128) (after : Nat), s.dev.met.advance after = d ∧ ((d.indexSince (d.waitFrom (.joining (.head n))) = true) ∧ (d.rd .SRV_HSTAT_STATE n.val = unitJoin))) :=
  ⟨⟨dispatching [(.SRV_MACFG_STROKE, 0, 50)], _, aPicked, 0, 3, 5, rfl, by decide +kernel⟩,
   ⟨mk [], _, rfl, by decide +kernel⟩,
   ⟨dispatching [(.SRV_MACFG_STROKE, 0, 3)], _, 0, aPicked, rfl, by decide +kernel⟩,
   ⟨{ State.reset with dev := { hlt := { calReq := [(9, 1), (5, 4)] } } }, _, (5, 4), rfl, by decide +kernel⟩,
   ⟨{ State.reset with dev := { (mk [(.ANG_STAT_STATE, 0, 2), (.SCH_STAT_STATE, 0, 4), (.SRV_STAT_SVC, 0, unitServ), (.SRV_HSTAT_STATE, 9, unitServ)]).dev with now := 1, ang := { rate := some 65536 }, sch := { cal := [{ head := 9, cause := 1, waited := 100000, granted := false }] } } }, _, { head := 9, cause := 1, waited := 100001, granted := false }, 0, rfl, by decide +kernel⟩,
   ⟨{ State.reset with dev := { (mk [(.ANG_STAT_STATE, 0, 2), (.SCH_STAT_STATE, 0, 4)]).dev with now := 1, timers := [(.drained 0, 0)], ang := { rate := some 65536 }, sch := { forced := [(0, 9)], cal := [{ head := 9, cause := 1, waited := 100000, granted := false }] } } }, _, 0, 9, { head := 9, cause := 1, waited := 100000, granted := false }, 0, rfl, by decide +kernel⟩,
   ⟨{ State.reset with dev := { (mk [(.ANG_STAT_STATE, 0, 2)]).dev with now := 1, ang := { rate := some 65536 }, sch := { forced := [(0, 9)], revOn := [0] } } }, _, 0, 0, rfl, by decide +kernel⟩,
   ⟨{ State.reset with dev := { (mk [(.ANG_STAT_STATE, 0, 2), (.LANE_STAT_STATE, 4, unitJoin)]).dev with now := 1, ang := { rate := some 65536 } } }, _, 4, 0, rfl, by decide +kernel⟩,
   ⟨{ State.reset with dev := { (mk [(.ANG_STAT_STATE, 0, 2), (.SRV_HSTAT_STATE, 4, unitJoin)]).dev with now := 1, ang := { rate := some 65536 } } }, _, 4, 0, rfl, by decide +kernel⟩⟩

theorem witness_drive_states :
    (∃ (s : State) (d : Dev), s.dev.met = d ∧ (d.rd .SCH_STAT_STATE ≠ 0)) ∧
    (∃ (s : State) (d : Dev), s.dev.met = d ∧ ((d.rd .SCH_STAT_STATE = 0) ∧ (d.rd .SPN_STAT_INRANGE = 0) ∧ (d.rd .SPN_MEAS_SPEED < 90000))) ∧
    (∃ (s : State) (d : Dev), s.dev.met = d ∧ (d.rd .SCH_STAT_STATE = 8)) ∧
    (∃ (s : State) (d : Dev), s.dev.met = d ∧ (d.rd .SCH_STAT_STATE ≠ 8)) ∧
    (∃ (s : State) (d : Dev), s.dev.met = d ∧ ((d.rd .SCH_STAT_STATE = 1) ∧ (d.rck.hold = true) ∧ (d.sch.spin = false))) ∧
    (∃ (s : State) (d : Dev), s.dev.met = d ∧ ((d.sch.spin = true) ∧ (d.rd .SPN_STAT_INRANGE ≠ 0))) ∧
    (∃ (s : State) (d : Dev) (after : Nat), s.dev.met.advance after = d ∧ ((d.sch.spin = true) ∧ (d.rd .SPN_STAT_INRANGE = 0) ∧ (d.waited .spinup (d.rd .SCH_SOLO_SPINTO * 1250000000) = true))) ∧
    (∃ (s : State) (d : Dev), s.dev.met = d ∧ ((d.rd .SCH_STAT_STATE = 5) ∧ (d.sch.wake = false) ∧ (d.allParked = true) ∧ (d.itb.ctx = []))) ∧
    (∃ (s : State) (d : Dev), s.dev.met = d ∧ ((d.sch.wake = true) ∧ (d.rd .SCH_STAT_STATE = 6))) ∧
    (∃ (s : State) (d : Dev), s.dev.met = d ∧ ((d.sch.wake = true) ∧ (d.rd .SCH_STAT_STATE = 5) ∧ (d.allParked = true))) ∧
    (∃ (s : State) (d : Dev), s.dev.met = d ∧ ((d.rd .SCH_STAT_STATE = 6) ∧ (d.wantsWake = true))) :=
  ⟨⟨mk [(.SCH_STAT_STATE, 0, 4)], _, rfl, by decide +kernel⟩,
   ⟨mk [], _, rfl, by decide +kernel⟩,
   ⟨mk [(.SCH_STAT_STATE, 0, 8)], _, rfl, by decide +kernel⟩,
   ⟨mk [], _, rfl, by decide +kernel⟩,
   ⟨{ State.reset with dev := { (mk [(.SCH_STAT_STATE, 0, 1)]).dev with rck := { hold := true } } }, _, rfl, by decide +kernel⟩,
   ⟨{ State.reset with dev := { (mk [(.SCH_STAT_STATE, 0, 4), (.SPN_STAT_INRANGE, 0, 1)]).dev with sch := { spin := true } } }, _, rfl, by decide +kernel⟩,
   ⟨{ State.reset with dev := { (mk [(.SCH_STAT_STATE, 0, 2)]).dev with sch := { spin := true }, timers := [(.spinup, 0)] } }, _, 10000000000000, rfl, by decide +kernel⟩,
   ⟨mk [(.SCH_STAT_STATE, 0, 5)], _, rfl, by decide +kernel⟩,
   ⟨{ State.reset with dev := { (mk [(.SCH_STAT_STATE, 0, 6)]).dev with sch := { wake := true } } }, _, rfl, by decide +kernel⟩,
   ⟨{ State.reset with dev := { (mk [(.SCH_STAT_STATE, 0, 5)]).dev with sch := { wake := true } } }, _, rfl, by decide +kernel⟩,
   ⟨{ State.reset with dev := { (mk [(.SCH_STAT_STATE, 0, 6)]).dev with hlt := { ws := [(7, { w0 := 512, w1 := 0, w2 := 0, w3 := 1, passed := [], locks := 0, used := 0, low := 255, dirty := false })] } } }, _, rfl, by decide +kernel⟩⟩

theorem witness_rack_frames_received :
    (∃ (s : State) (d : Dev) (src : Fin 512), s.dev.met = d ∧ ((d.rd .RCK_CTL_ENABLE ≠ 0) ∧ (d.rd .RCK_STAT_BUSOFF = 0) ∧ (src.val ≠ d.rd .RCK_CFG_NODE) ∧ (d.rd .RCK_STAT_SOLO = 0))) ∧
    (∃ (s : State) (d : Dev) (src : Fin 512) (x : BitVec 24) (num : Byte), s.dev.met = d ∧ ((d.rd .RCK_CTL_ENABLE ≠ 0) ∧ (d.rd .RCK_STAT_BUSOFF = 0) ∧ (src.val ≠ d.rd .RCK_CFG_NODE) ∧ (d.rd .RCK_STAT_SOLO = 0) ∧ (d.rck.master = some src.val) ∧ (d.rck.taken = none))) ∧
    (∃ (s : State) (d : Dev) (src : Fin 512) (x : BitVec 24) (num : Byte) (t : Beacon), s.dev.met = d ∧ ((d.rd .RCK_CTL_ENABLE ≠ 0) ∧ (d.rd .RCK_STAT_BUSOFF = 0) ∧ (src.val ≠ d.rd .RCK_CFG_NODE) ∧ (d.rd .RCK_STAT_SOLO = 0) ∧ (d.rck.master = some src.val) ∧ (d.rck.taken = some t) ∧ ((t.num + 1) % 256 = num.toNat))) ∧
    (∃ (s : State) (d : Dev) (src dst : Fin 512) (seq : BitVec 16), s.dev.met = d ∧ ((d.rd .RCK_CTL_ENABLE ≠ 0) ∧ (d.rd .RCK_STAT_BUSOFF = 0) ∧ (src.val ≠ d.rd .RCK_CFG_NODE) ∧ (d.rd .RCK_STAT_SOLO = 0) ∧ (dst.val = d.rd .RCK_CFG_NODE) ∧ (src.val = d.steward) ∧ (seq.toNat = d.rck.seq))) ∧
    (∃ (s : State) (d : Dev) (src : Fin 512) (seq : BitVec 16), s.dev.met = d ∧ ((d.rd .RCK_CTL_ENABLE ≠ 0) ∧ (d.rd .RCK_STAT_BUSOFF = 0) ∧ (src.val ≠ d.rd .RCK_CFG_NODE) ∧ (d.rd .RCK_STAT_SOLO = 0) ∧ (d.isSteward = true))) ∧
    (∃ (s : State) (d : Dev) (src : Fin 512), s.dev.met = d ∧ ((d.rd .RCK_CTL_ENABLE ≠ 0) ∧ (d.rd .RCK_STAT_BUSOFF = 0) ∧ (src.val ≠ d.rd .RCK_CFG_NODE) ∧ (d.rd .RCK_STAT_SOLO = 0) ∧ (d.rck.holds.contains src.val = false))) ∧
    (∃ (s : State) (d : Dev) (src : Fin 512), s.dev.met = d ∧ ((d.rd .RCK_CTL_ENABLE ≠ 0) ∧ (d.rd .RCK_STAT_BUSOFF = 0) ∧ (src.val ≠ d.rd .RCK_CFG_NODE) ∧ (d.rd .RCK_STAT_SOLO = 0))) ∧
    (∃ (s : State) (d : Dev) (src : Fin 512) (flags : Byte), s.dev.met = d ∧ ((d.rd .RCK_CTL_ENABLE ≠ 0) ∧ (d.rd .RCK_STAT_BUSOFF = 0) ∧ (src.val ≠ d.rd .RCK_CFG_NODE) ∧ (d.rd .RCK_STAT_SOLO = 0))) ∧
    (∃ (s : State) (d : Dev) (src : Fin 512), s.dev.met = d ∧ ((d.rd .RCK_CTL_ENABLE ≠ 0) ∧ (d.rd .RCK_STAT_BUSOFF = 0) ∧ (src.val ≠ d.rd .RCK_CFG_NODE) ∧ (d.rd .RCK_STAT_SOLO = 0))) :=
  ⟨⟨mk [(.RCK_CTL_ENABLE, 0, 1), (.RCK_CFG_NODE, 0, 7)], _, 3, rfl, by decide +kernel⟩,
   ⟨{ State.reset with dev := { (mk [(.RCK_CTL_ENABLE, 0, 1), (.RCK_CFG_NODE, 0, 7)]).dev with rck := { master := some 3 } } }, _, 3, 5, 6, rfl, by decide +kernel⟩,
   ⟨{ State.reset with dev := { (mk [(.RCK_CTL_ENABLE, 0, 1), (.RCK_CFG_NODE, 0, 7)]).dev with rck := { master := some 3, taken := some { num := 5, frac := 0, cycle := 0, prev := none } } } }, _, 3, 5, 6, { num := 5, frac := 0, cycle := 0, prev := none }, rfl, by decide +kernel⟩,
   ⟨{ State.reset with dev := { (mk [(.RCK_CTL_ENABLE, 0, 1), (.RCK_CFG_NODE, 0, 7)]).dev with rck := { heard := [(3, 0)], want := true, seq := 4 } } }, _, 3, 7, 4, rfl, by decide +kernel⟩,
   ⟨mk [(.RCK_CTL_ENABLE, 0, 1), (.RCK_CFG_NODE, 0, 7)], _, 9, 4, rfl, by decide +kernel⟩,
   ⟨mk [(.RCK_CTL_ENABLE, 0, 1), (.RCK_CFG_NODE, 0, 7)], _, 9, rfl, by decide +kernel⟩,
   ⟨mk [(.RCK_CTL_ENABLE, 0, 1), (.RCK_CFG_NODE, 0, 7)], _, 9, rfl, by decide +kernel⟩,
   ⟨mk [(.RCK_CTL_ENABLE, 0, 1), (.RCK_CFG_NODE, 0, 7)], _, 9, 1, rfl, by decide +kernel⟩,
   ⟨mk [(.RCK_CTL_ENABLE, 0, 1), (.RCK_CFG_NODE, 0, 7)], _, 9, rfl, by decide +kernel⟩⟩

theorem witness_rack_frames_sent :
    (∃ (s : State) (d : Dev) (f : RackFrame) (q : List RackFrame), s.dev.met = d ∧ ((d.rd .RCK_CTL_ENABLE ≠ 0) ∧ (d.rd .RCK_STAT_BUSOFF = 0) ∧ (d.rck.queue = f :: q) ∧ (d.rd .RCK_STAT_SOLO = 0) ∧ (f.type ≠ fBeacon))) ∧
    (∃ (s : State) (d : Dev) (f : RackFrame) (q : List RackFrame), s.dev.met = d ∧ ((d.rd .RCK_CTL_ENABLE ≠ 0) ∧ (d.rd .RCK_STAT_BUSOFF = 0) ∧ (d.rck.queue = f :: q) ∧ (d.rd .RCK_STAT_SOLO = 0) ∧ (128 ≤ d.rck.txerr) ∧ (f.tries < 15))) ∧
    (∃ (s : State) (d : Dev), s.dev.met = d ∧ ((d.rd .RCK_STAT_BUSOFF ≠ 0) ∧ (d.rd .RCK_CTL_MANREC = 0 ∨ d.rck.restart = true))) ∧
    (∃ (s : State) (d : Dev), s.dev.met = d ∧ ((d.rd .RCK_STAT_BUSOFF ≠ 0) ∧ (d.rd .RCK_CTL_MANREC ≠ 0))) ∧
    (∃ (s : State) (d : Dev) (after : Nat), s.dev.met.advance after = d ∧ ((d.rck.delay = true) ∧ (d.rck.endAt ≤ d.now))) ∧
    (∃ (s : State) (d : Dev) (after : Nat), s.dev.met.advance after = d ∧ ((d.waitFrom .hello + 1250000000 ≤ d.now) ∧ (d.rd .RCK_CTL_ENABLE ≠ 0))) ∧
    (∃ (s : State) (d : Dev) (after : Nat), s.dev.met.advance after = d ∧ ((d.rd .RCK_CTL_ENABLE ≠ 0) ∧ (d.rck.want = true) ∧ (d.rd .RCK_STAT_SOLO = 0) ∧ (d.waited .tokReq 1250000000 = true))) ∧
    (∃ (s : State) (d : Dev) (after : Nat), s.dev.met.advance after = d ∧ ((d.rd .RCK_CTL_ENABLE ≠ 0) ∧ (d.waited .tokHold 312500000 = true) ∧ (d.rck.hold = true))) ∧
    (∃ (s : State) (d : Dev) (n : Fin 512) (after : Nat), s.dev.met.advance after = d ∧ (d.waited (.heard n.val) 2500000000 = true)) ∧
    (∃ (s : State) (d : Dev) (n q : Nat) (rs : List (Nat × Nat)) (after : Nat), s.dev.met.advance after = d ∧ ((d.rck.reqs = (n, q) :: rs) ∧ (d.mayGrant = true) ∧ (n ≠ d.node))) ∧
    (∃ (s : State) (d : Dev) (n : Fin 512) (after : Nat), s.dev.met.advance after = d ∧ (d.waited (.holder n.val) 1250000000 = true)) ∧
    (∃ (s : State) (d : Dev) (after : Nat), s.dev.met.advance after = d ∧ ((d.rd .RCK_CTL_ENABLE ≠ 0) ∧ (d.rd .RCK_STAT_BUSOFF = 0) ∧ (d.rck.choice ≠ d.rck.master) ∧ (d.waited .choice 2500000000 = true))) ∧
    (∃ (s : State) (d : Dev) (x : Nat) (after : Nat), s.dev.met.advance after = d ∧ ((d.rd .RCK_CTL_ENABLE ≠ 0) ∧ (d.rd .RCK_STAT_BUSOFF = 0) ∧ (d.rck.master = some (d.rd .RCK_CFG_NODE)) ∧ (d.fellSince d.phaseTarget (d.waitFrom .beacon + 1024) = true) ∧ (d.rck.mine = some x))) ∧
    (∃ (s : State) (d : Dev), s.dev.met = d ∧ (d.rd .RCK_STAT_ALERTOUT = 0)) ∧
    (∃ (s : State) (d : Dev) (after : Nat), s.dev.met.advance after = d ∧ ((d.spn.running = false) ∧ (d.rck.alertTill ≤ d.now))) ∧
    (∃ (s : State) (d : Dev), s.dev.met = d ∧ ((d.rd .RCK_CTL_ENABLE ≠ 0) ∧ (d.rd .RCK_STAT_BUSOFF = 0))) ∧
    (∃ (s : State) (d : Dev) (major : Bool), s.dev.met = d ∧ ((d.rd .RCK_CTL_ENABLE ≠ 0) ∧ (d.rd .RCK_STAT_BUSOFF = 0))) :=
  ⟨⟨{ State.reset with dev := { (mk [(.RCK_CTL_ENABLE, 0, 1)]).dev with rck := { queue := [{ type := fHello, dst := 0, bytes := [], tries := 0 }] } } }, _, { type := fHello, dst := 0, bytes := [], tries := 0 }, [], rfl, by decide +kernel⟩,
   ⟨{ State.reset with dev := { (mk [(.RCK_CTL_ENABLE, 0, 1)]).dev with rck := { txerr := 128, queue := [{ type := fHello, dst := 0, bytes := [], tries := 0 }] } } }, _, { type := fHello, dst := 0, bytes := [], tries := 0 }, [], rfl, by decide +kernel⟩,
   ⟨mk [(.RCK_STAT_BUSOFF, 0, 1)], _, rfl, by decide +kernel⟩,
   ⟨mk [(.RCK_STAT_BUSOFF, 0, 1), (.RCK_CTL_MANREC, 0, 1)], _, rfl, by decide +kernel⟩,
   ⟨{ State.reset with dev := { (mk [(.SCH_STAT_STATE, 0, 1)]).dev with rck := { delay := true } } }, _, 0, rfl, by decide +kernel⟩,
   ⟨mk [(.RCK_CTL_ENABLE, 0, 1)], _, 1250000000, rfl, by decide +kernel⟩,
   ⟨{ State.reset with dev := { (mk [(.RCK_CTL_ENABLE, 0, 1)]).dev with rck := { want := true }, timers := [(.tokReq, 0)] } }, _, 1250000000, rfl, by decide +kernel⟩,
   ⟨{ State.reset with dev := { (mk [(.RCK_CTL_ENABLE, 0, 1)]).dev with rck := { hold := true }, timers := [(.tokHold, 0)] } }, _, 312500000, rfl, by decide +kernel⟩,
   ⟨{ State.reset with dev := { timers := [(.heard 3, 0)], rck := { heard := [(3, 0)] } } }, _, 3, 2500000000, rfl, by decide +kernel⟩,
   ⟨{ State.reset with dev := { (mk [(.RCK_CTL_ENABLE, 0, 1)]).dev with rck := { reqs := [(9, 4)], stewardAt := some 0 } } }, _, 9, 4, [], 5000000000, rfl, by decide +kernel⟩,
   ⟨{ State.reset with dev := { timers := [(.holder 3, 0)], rck := { holds := [3] } } }, _, 3, 1250000000, rfl, by decide +kernel⟩,
   ⟨{ State.reset with dev := { (mk [(.RCK_CTL_ENABLE, 0, 1)]).dev with rck := { heard := [(3, 7)], choice := some 3 }, timers := [(.choice, 0)] } }, _, 2500000000, rfl, by decide +kernel⟩,
   ⟨{ State.reset with dev := { (mk [(.RCK_CTL_ENABLE, 0, 1), (.RCK_CFG_NODE, 0, 7), (.ANG_STAT_STATE, 0, 2)]).dev with ang := { rate := some 65536, val := 2 ^ 24 - 2000 }, rck := { master := some 7, mine := some 5 } } }, _, 5, 2000, rfl, by decide +kernel⟩,
   ⟨mk [], _, rfl, by decide +kernel⟩,
   ⟨mk [], _, 0, rfl, by decide +kernel⟩,
   ⟨mk [(.RCK_CTL_ENABLE, 0, 1)], _, rfl, by decide +kernel⟩,
   ⟨mk [(.RCK_CTL_ENABLE, 0, 1)], _, true, rfl, by decide +kernel⟩⟩

theorem witness_start_up_and_handover :
    (∃ (s : State) (d : Dev) (n : NorImage) (after : Nat), s.dev.met = d ∧ ((d.rd .SYS_STAT_HANDOVER = 0) ∧ (d.rd .CFG_STAT_STATE = 0) ∧ (n.fit = true))) ∧
    (∃ (s : State) (d : Dev) (n : NorImage) (after : Nat), s.dev.met = d ∧ ((d.rd .SYS_STAT_HANDOVER = 0) ∧ (d.rd .CFG_STAT_STATE = 0) ∧ (n.fit = false))) ∧
    (∃ (s : State) (d : Dev) (after : Nat), s.dev.met.advance after = d ∧ ((d.rd .SYS_STAT_HANDOVER = 0) ∧ (d.rd .CFG_STAT_STATE = 0) ∧ (d.cfg.began + 12500000 ≤ d.now))) ∧
    (∃ (s : State) (d : Dev), s.dev.met = d ∧ ((d.rd .SYS_STAT_HANDOVER = 0) ∧ (d.rd .CFG_STAT_STATE = 3))) ∧
    (∃ (s : State) (d : Dev) (after : Nat), s.dev.met.advance after = d ∧ ((d.cfg.kind = 1) ∧ (d.cfg.quiet = true) ∧ (d.waited .flush 12500000 = true ∨ d.flushed = true))) ∧
    (∃ (s : State) (d : Dev), s.dev.met = d ∧ ((d.rd .SYS_STAT_HANDOVER ≠ 0) ∧ (mapSorted d.defectMap = true) ∧ (d.bitmapAgrees d.defectMap = true))) ∧
    (∃ (s : State) (d : Dev), s.dev.met = d ∧ ((d.rd .SYS_STAT_HANDOVER ≠ 0) ∧ (mapSorted d.defectMap = false ∨ d.bitmapAgrees d.defectMap = false))) :=
  ⟨⟨mk [], _, { fit := true, density := 0, runs := [], train := [] }, 5, rfl, by decide +kernel⟩,
   ⟨mk [], _, { fit := false, density := 0, runs := [], train := [] }, 5, rfl, by decide +kernel⟩,
   ⟨mk [], _, 12500000, rfl, by decide +kernel⟩,
   ⟨mk [(.CFG_STAT_STATE, 0, 3)], _, rfl, by decide +kernel⟩,
   ⟨{ State.reset with dev := { cfg := { kind := 1, quiet := true }, timers := [(.flush, 0)] } }, _, 12500000, rfl, by decide +kernel⟩,
   ⟨mk [(.SYS_STAT_HANDOVER, 0, 1)], _, rfl, by decide +kernel⟩,
   ⟨{ State.reset with dev := { (mk [(.SYS_STAT_HANDOVER, 0, 1), (.TPE_DEFBMP_BASE, 0, 0)]).dev.stBytes tableSram [1] with out := [] } }, _, rfl, by decide +kernel⟩⟩

theorem witness_nor_commands :
    (∃ (s : State) (d : Dev) (len : BitVec 24), s.dev.met = d ∧ ((d.cfg.nor = none) ∧ (d.norBarred (d.rd .CFG_NORADDR_ADDR) len.toNat = false) ∧ (d.norBuffer (d.rd .CFG_NORBUFLO_ADDR + d.rd .CFG_NORBUFHI_ADDR * 2 ^ 32) len.toNat = true))) ∧
    (∃ (s : State) (d : Dev) (len : BitVec 24), s.dev.met = d ∧ ((d.cfg.nor = none) ∧ (d.norBarred (d.rd .CFG_NORADDR_ADDR) len.toNat = false) ∧ (d.norBuffer (d.rd .CFG_NORBUFLO_ADDR + d.rd .CFG_NORBUFHI_ADDR * 2 ^ 32) len.toNat = true))) ∧
    (∃ (s : State) (d : Dev), s.dev.met = d ∧ ((d.cfg.nor = none) ∧ (d.norBarred (d.rd .CFG_NORADDR_ADDR / 4096 * 4096) 4096 = false))) ∧
    (∃ (s : State) (d : Dev), s.dev.met = d ∧ ((d.cfg.nor = none) ∧ (d.norBarred (d.rd .CFG_NORADDR_ADDR / 65536 * 65536) 65536 = false))) ∧
    (∃ (s : State) (d : Dev), s.dev.met = d ∧ ((d.cfg.nor = none) ∧ (d.norBarred (d.rd .CFG_NORADDR_ADDR / 4096 * 4096) 4096 = true))) ∧
    (∃ (s : State) (d : Dev) (ok : Bool) (data : List Byte) (x : NorCmd), s.dev.met = d ∧ ((d.cfg.nor = some x) ∧ (ok = true))) ∧
    (∃ (s : State) (d : Dev) (ok : Bool) (data : List Byte) (x : NorCmd), s.dev.met = d ∧ ((d.cfg.nor = some x) ∧ (ok = false))) :=
  ⟨⟨mk [(.CFG_NORBUFLO_ADDR, 0, 0x4000000)], _, 0, rfl, by decide +kernel⟩,
   ⟨mk [(.CFG_NORBUFLO_ADDR, 0, 0x4000000)], _, 0, rfl, by decide +kernel⟩,
   ⟨mk [], _, rfl, by decide +kernel⟩,
   ⟨mk [], _, rfl, by decide +kernel⟩,
   ⟨mk [(.SYS_STAT_HANDOVER, 0, 1), (.EVT_NORBASE_VALUE, 0, 1), (.CFG_NORADDR_ADDR, 0, 4096), (.EVT_NORSIZE_VALUE, 0, 4)], _, rfl, by decide +kernel⟩,
   ⟨{ State.reset with dev := { cfg := { nor := some { op := 1, addr := 0, buf := 0, len := 0 } } } }, _, true, [], { op := 1, addr := 0, buf := 0, len := 0 }, rfl, by decide +kernel⟩,
   ⟨{ State.reset with dev := { cfg := { nor := some { op := 1, addr := 0, buf := 0, len := 0 } } } }, _, false, [], { op := 1, addr := 0, buf := 0, len := 0 }, rfl, by decide +kernel⟩⟩

theorem witness_service_port_connection :
    (∃ (s : State) (d : Dev), s.dev.met = d ∧ ((d.rd .SVC_CFG_MODE ≠ 0) ∧ (d.rd .SVC_STAT_STATE = 0) ∧ (d.svc.offTill ≤ d.now))) ∧
    (∃ (s : State) (d : Dev), s.dev.met = d ∧ ((d.rd .SVC_CFG_MODE = 0) ∧ (d.rd .SVC_STAT_STATE ≠ 0))) ∧
    (∃ (s : State) (d : Dev), s.dev.met = d ∧ (d.rd .SVC_STAT_STATE ≠ 0)) ∧
    (∃ (s : State) (d : Dev) (hs : Bool), s.dev.met = d ∧ ((d.rd .SVC_STAT_STATE ≠ 0) ∧ (d.svc.vbus = true))) ∧
    (∃ (s : State) (d : Dev), s.dev.met = d ∧ ((1 ≤ d.rd .SVC_STAT_STATE) ∧ (d.rd .SVC_STAT_STATE ≤ 4))) ∧
    (∃ (s : State) (d : Dev), s.dev.met = d ∧ (d.rd .SVC_STAT_STATE = 5)) ∧
    (∃ (s : State) (d : Dev) (v i l : BitVec 16), s.dev.met = d ∧ ((2 ≤ d.rd .SVC_STAT_STATE) ∧ (d.rd .SVC_STAT_STATE ≤ 3) ∧ (v.toNat < 128))) ∧
    (∃ (s : State) (d : Dev) (v i l : BitVec 16), s.dev.met = d ∧ ((3 ≤ d.rd .SVC_STAT_STATE) ∧ (d.rd .SVC_STAT_STATE ≤ 4) ∧ (v.toNat ≤ 1))) ∧
    (∃ (s : State) (d : Dev) (i l : BitVec 16), s.dev.met = d ∧ ((2 ≤ d.rd .SVC_STAT_STATE) ∧ (d.rd .SVC_STAT_STATE ≤ 4))) ∧
    (∃ (s : State) (d : Dev) (x : Setup), s.dev.met = d ∧ ((2 ≤ d.rd .SVC_STAT_STATE) ∧ (d.rd .SVC_STAT_STATE ≤ 4) ∧ (12 < x.request.toNat))) :=
  ⟨⟨mk [(.SVC_CFG_MODE, 0, 1)], _, rfl, by decide +kernel⟩,
   ⟨mk [(.SVC_CFG_MODE, 0, 0), (.SVC_STAT_STATE, 0, 4)], _, rfl, by decide +kernel⟩,
   ⟨mk [(.SVC_STAT_STATE, 0, 4)], _, rfl, by decide +kernel⟩,
   ⟨{ State.reset with dev := { (mk [(.SVC_STAT_STATE, 0, 4)]).dev with svc := { vbus := true } } }, _, true, rfl, by decide +kernel⟩,
   ⟨mk [(.SVC_STAT_STATE, 0, 4)], _, rfl, by decide +kernel⟩,
   ⟨mk [(.SVC_STAT_STATE, 0, 5)], _, rfl, by decide +kernel⟩,
   ⟨mk [(.SVC_STAT_STATE, 0, 2)], _, 9, 0, 0, rfl, by decide +kernel⟩,
   ⟨mk [(.SVC_STAT_STATE, 0, 3)], _, 1, 0, 0, rfl, by decide +kernel⟩,
   ⟨mk [(.SVC_STAT_STATE, 0, 2)], _, 0, 18, rfl, by decide +kernel⟩,
   ⟨mk [(.SVC_STAT_STATE, 0, 2)], _, { type := 0xC0, request := 0x30, value := 0, index := 0, length := 0 }, rfl, by decide +kernel⟩⟩

theorem witness_service_port_requests :
    (∃ (s : State) (d : Dev) (off : Word) (len : BitVec 16), s.dev.met = d ∧ ((d.usbTalks = true) ∧ (d.svcAbandon.regRefusal false off.toNat len.toNat = none))) ∧
    (∃ (s : State) (d : Dev) (off : Word) (len : BitVec 16) (x : Nat), s.dev.met = d ∧ ((d.usbTalks = true) ∧ (d.svcAbandon.regRefusal false off.toNat len.toNat = some x))) ∧
    (∃ (s : State) (d : Dev) (off : Word) (words : List Word), s.dev.met = d ∧ ((d.usbTalks = true) ∧ (d.svcAbandon.regRefusal true off.toNat (4 * words.length) = none))) ∧
    (∃ (s : State) (d : Dev), s.dev.met = d ∧ (d.usbTalks = true)) ∧
    (∃ (s : State) (d : Dev) (len : BitVec 16) (err : Option MemErr), s.dev.met = d ∧ ((d.usbTalks = true) ∧ (d.svcAbandon.memRefusal false len.toNat = none) ∧ ((d.svcAbandon.readMem 1 d.svcAbandon.maddr len.toNat err).2 = true))) ∧
    (∃ (s : State) (d : Dev) (len : BitVec 16) (err : Option MemErr), s.dev.met = d ∧ ((d.usbTalks = true) ∧ (d.svcAbandon.memRefusal false len.toNat = none) ∧ ((d.svcAbandon.readMem 1 d.svcAbandon.maddr len.toNat err).2 = false))) ∧
    (∃ (s : State) (d : Dev) (bytes : List Byte), s.dev.met = d ∧ ((d.usbTalks = true) ∧ (d.svcAbandon.memRefusal true bytes.length = none))) ∧
    (∃ (s : State) (d : Dev) (kind : BitVec 16), s.dev.met = d ∧ ((d.usbTalks = true) ∧ (kind.toNat = 1 ∨ kind.toNat = 2) ∧ (d.svcAbandon.svcAdmits false true = true))) ∧
    (∃ (s : State) (d : Dev) (sel : BitVec 16) (bytes : List Byte), s.dev.met = d ∧ ((d.usbTalks = true) ∧ (sel.toNat ≤ 3) ∧ (d.svcAbandon.svcAdmits false true = true) ∧ (d.svcAbandon.rd .CFG_STAT_STATE = 6 ∨ d.svcAbandon.rd .SVC_CFG_FUSE ≠ 0) ∧ (bytes.length = (if sel.toNat < 2 then 48 else 1)) ∧ (d.svcAbandon.fuseAccepts sel.toNat (ofBytesBE bytes) = true))) ∧
    (∃ (s : State) (d : Dev) (rivals : List (List RegWrite)) (off : Nat) (words : List Nat), s.dev.met = d ∧ (d.svc.staged = some (.regwr off words))) ∧
    (∃ (s : State) (d : Dev) (rivals : List (List RegWrite)) (bytes : List Byte), s.dev.met = d ∧ ((d.svc.staged = some (.memwr bytes)) ∧ (d.svcReaches d.maddr bytes.length = true))) ∧
    (∃ (s : State) (d : Dev) (rivals : List (List RegWrite)) (full : Bool), s.dev.met = d ∧ (d.svc.staged = some (.reset full))) ∧
    (∃ (s : State) (d : Dev) (rivals : List (List RegWrite)) (sel val : Nat), s.dev.met = d ∧ ((d.svc.staged = some (.fuse sel val)) ∧ (d.fuseAccepts sel val = true))) ∧
    (∃ (s : State) (d : Dev) (x : EvtRec), s.dev.met = d ∧ ((d.rd .SVC_STAT_STATE = 4) ∧ (d.svc.halts.contains 0x81 = false) ∧ ((d.unsent.take 4).getLast? = some x))) ∧
    (∃ (s : State) (d : Dev), s.dev.met = d ∧ ((d.rd .SVC_STAT_STATE = 4) ∧ (d.svc.halts.contains 0x82 = false) ∧ (d.svc.told ≠ some d.watched))) ∧
    (∃ (s : State) (d : Dev) (src : Fin 512), s.dev.met = d ∧ ((d.rd .RCK_CTL_ENABLE ≠ 0) ∧ (d.rd .RCK_STAT_BUSOFF = 0) ∧ (src.val ≠ d.rd .RCK_CFG_NODE) ∧ (d.rd .RCK_STAT_SOLO = 0) ∧ (∀ t, Tab.look d.rck.replied src.val = some t → t + 125000000 ≤ d.now))) :=
  ⟨⟨mk [(.SVC_STAT_STATE, 0, 4), (.SYS_STAT_HANDOVER, 0, 1), (.SVC_CFG_MODE, 0, 2)], _, 0, 8, rfl, by decide +kernel⟩,
   ⟨mk [(.SVC_STAT_STATE, 0, 4), (.SYS_STAT_HANDOVER, 0, 1), (.SVC_CFG_MODE, 0, 2)], _, 0, 6, 3, rfl, by decide +kernel⟩,
   ⟨mk [(.SVC_STAT_STATE, 0, 4), (.SYS_STAT_HANDOVER, 0, 1), (.SVC_CFG_MODE, 0, 2)], _, 0, [1], rfl, by decide +kernel⟩,
   ⟨mk [(.SVC_STAT_STATE, 0, 4)], _, rfl, by decide +kernel⟩,
   ⟨mk [(.SVC_STAT_STATE, 0, 4), (.SYS_STAT_HANDOVER, 0, 1), (.SVC_CFG_MODE, 0, 2), (.SVC_MADDRLO_ADDR, 0, 0x4000000)], _, 4, none, rfl, by decide +kernel⟩,
   ⟨mk [(.SVC_STAT_STATE, 0, 4), (.SYS_STAT_HANDOVER, 0, 1), (.SVC_CFG_MODE, 0, 2), (.SVC_MADDRLO_ADDR, 0, 0x4000000)], _, 4, some { addr := 0x4000000, array := 5, hard := false }, rfl, by decide +kernel⟩,
   ⟨mk [(.SVC_STAT_STATE, 0, 4), (.SYS_STAT_HANDOVER, 0, 1), (.SVC_CFG_MODE, 0, 2), (.SVC_MADDRLO_ADDR, 0, 0x4000000)], _, [1, 2], rfl, by decide +kernel⟩,
   ⟨mk [(.SVC_STAT_STATE, 0, 4), (.SYS_STAT_HANDOVER, 0, 1), (.SVC_CFG_MODE, 0, 2)], _, 2, rfl, by decide +kernel⟩,
   ⟨mk [(.SVC_STAT_STATE, 0, 4), (.SYS_STAT_HANDOVER, 0, 1), (.SVC_CFG_MODE, 0, 2), (.SVC_CFG_FUSE, 0, 1)], _, 2, [3], rfl, by decide +kernel⟩,
   ⟨{ State.reset with dev := { svc := { staged := some (.regwr 0 [1]) } } }, _, [], 0, [1], rfl, by decide +kernel⟩,
   ⟨{ State.reset with dev := { (mk [(.SVC_MADDRLO_ADDR, 0, 0x4000000)]).dev with svc := { staged := some (.memwr [1]) } } }, _, [], [1], rfl, by decide +kernel⟩,
   ⟨{ State.reset with dev := { svc := { staged := some (.reset true) } } }, _, [], true, rfl, by decide +kernel⟩,
   ⟨{ State.reset with dev := { svc := { staged := some (.fuse 3 1) } } }, _, [], 3, 1, rfl, by decide +kernel⟩,
   ⟨{ State.reset with dev := { (mk [(.SVC_STAT_STATE, 0, 4), (.EVT_SEQ_NEXT, 0, 8), (.EVT_NEWEST_VALID, 0, 1)]).dev with evt := { buf := [(0, anRec)] } } }, _, anRec, rfl, by decide +kernel⟩,
   ⟨mk [(.SVC_STAT_STATE, 0, 4)], _, rfl, by decide +kernel⟩,
   ⟨mk [(.RCK_CTL_ENABLE, 0, 1), (.RCK_CFG_NODE, 0, 7)], _, 3, rfl, by decide +kernel⟩⟩

theorem witness_micro_arithmetic :
    (∃ (s : State) (d : Dev) (e : Fin 12) (w : Nat), s.dev.met = d ∧ ((d.microReady e.val w = true) ∧ (uOpc w = 1) ∧ (uFn w = 0))) ∧
    (∃ (s : State) (d : Dev) (e : Fin 12) (w : Nat), s.dev.met = d ∧ ((d.microReady e.val w = true) ∧ (uOpc w = 1) ∧ (uFn w = 1))) ∧
    (∃ (s : State) (d : Dev) (e : Fin 12) (w : Nat), s.dev.met = d ∧ ((d.microReady e.val w = true) ∧ (uOpc w = 1) ∧ (uFn w = 2))) ∧
    (∃ (s : State) (d : Dev) (e : Fin 12) (w : Nat), s.dev.met = d ∧ ((d.microReady e.val w = true) ∧ (uOpc w = 1) ∧ (uFn w = 3))) ∧
    (∃ (s : State) (d : Dev) (e : Fin 12) (w : Nat), s.dev.met = d ∧ ((d.microReady e.val w = true) ∧ (uOpc w = 1) ∧ (uFn w = 4))) ∧
    (∃ (s : State) (d : Dev) (e : Fin 12) (w : Nat), s.dev.met = d ∧ ((d.microReady e.val w = true) ∧ (uOpc w = 1) ∧ (uFn w = 5))) ∧
    (∃ (s : State) (d : Dev) (e : Fin 12) (w : Nat), s.dev.met = d ∧ ((d.microReady e.val w = true) ∧ (uOpc w = 1) ∧ (uFn w = 6))) ∧
    (∃ (s : State) (d : Dev) (e : Fin 12) (w : Nat), s.dev.met = d ∧ ((d.microReady e.val w = true) ∧ (uOpc w = 1) ∧ (uFn w = 7))) ∧
    (∃ (s : State) (d : Dev) (e : Fin 12) (w : Nat), s.dev.met = d ∧ ((d.microReady e.val w = true) ∧ (uOpc w = 1) ∧ (uFn w = 8))) ∧
    (∃ (s : State) (d : Dev) (e : Fin 12) (w : Nat), s.dev.met = d ∧ ((d.microReady e.val w = true) ∧ (uOpc w = 1) ∧ (uFn w = 9))) ∧
    (∃ (s : State) (d : Dev) (e : Fin 12) (w : Nat), s.dev.met = d ∧ ((d.microReady e.val w = true) ∧ (uOpc w = 1) ∧ (uFn w = 10))) ∧
    (∃ (s : State) (d : Dev) (e : Fin 12) (w : Nat), s.dev.met = d ∧ ((d.microReady e.val w = true) ∧ (uOpc w = 1) ∧ (uFn w = 11))) ∧
    (∃ (s : State) (d : Dev) (e : Fin 12) (w : Nat), s.dev.met = d ∧ ((d.microReady e.val w = true) ∧ (uOpc w = 1) ∧ (uFn w = 12))) ∧
    (∃ (s : State) (d : Dev) (e : Fin 12) (w : Nat), s.dev.met = d ∧ ((d.microReady e.val w = true) ∧ (uOpc w = 1) ∧ (uFn w = 13))) ∧
    (∃ (s : State) (d : Dev) (e : Fin 12) (w : Nat), s.dev.met = d ∧ ((d.microReady e.val w = true) ∧ (uOpc w = 1) ∧ (uFn w = 14))) ∧
    (∃ (s : State) (d : Dev) (e : Fin 12) (w : Nat), s.dev.met = d ∧ ((d.microReady e.val w = true) ∧ (uOpc w = 1) ∧ (uFn w = 15))) ∧
    (∃ (s : State) (d : Dev) (e : Fin 12) (w : Nat), s.dev.met = d ∧ ((d.microReady e.val w = true) ∧ (uOpc w = 1) ∧ (uFn w = 16))) ∧
    (∃ (s : State) (d : Dev) (e : Fin 12) (w : Nat), s.dev.met = d ∧ ((d.microReady e.val w = true) ∧ (uOpc w = 1) ∧ (uFn w = 17))) ∧
    (∃ (s : State) (d : Dev) (e : Fin 12) (w : Nat), s.dev.met = d ∧ ((d.microReady e.val w = true) ∧ (uOpc w = 1) ∧ (uFn w = 18))) ∧
    (∃ (s : State) (d : Dev) (e : Fin 12) (w : Nat), s.dev.met = d ∧ ((d.microReady e.val w = true) ∧ (uOpc w = 2))) ∧
    (∃ (s : State) (d : Dev) (e : Fin 12) (w : Nat), s.dev.met = d ∧ ((d.microReady e.val w = true) ∧ (uOpc w = 3))) ∧
    (∃ (s : State) (d : Dev) (e : Fin 12) (w : Nat), s.dev.met = d ∧ ((d.microReady e.val w = true) ∧ (uOpc w = 4))) ∧
    (∃ (s : State) (d : Dev) (e : Fin 12) (w : Nat), s.dev.met = d ∧ ((d.microReady e.val w = true) ∧ (uOpc w = 5))) ∧
    (∃ (s : State) (d : Dev) (e : Fin 12) (w : Nat), s.dev.met = d ∧ ((d.microReady e.val w = true) ∧ (uOpc w = 6))) ∧
    (∃ (s : State) (d : Dev) (e : Fin 12) (w : Nat), s.dev.met = d ∧ ((d.microReady e.val w = true) ∧ (uOpc w = 7))) ∧
    (∃ (s : State) (d : Dev) (e : Fin 12) (w : Nat), s.dev.met = d ∧ ((d.microReady e.val w = true) ∧ (uOpc w = 17) ∧ (uImm w = 0))) ∧
    (∃ (s : State) (d : Dev) (e : Fin 12) (w : Nat), s.dev.met = d ∧ ((d.microReady e.val w = true) ∧ (uOpc w = 17) ∧ (uImm w = 1))) ∧
    (∃ (s : State) (d : Dev) (e : Fin 12) (w : Nat), s.dev.met = d ∧ ((d.microReady e.val w = true) ∧ (uOpc w = 0))) ∧
    (∃ (s : State) (d : Dev) (e : Fin 12), s.dev.met = d ∧ ((d.rd .VE_ESTAT_STATE e.val = 2) ∧ ((d.eng e.val).run.isSome = true) ∧ ((d.eng e.val).pos = 0) ∧ (stepLegal (d.stepAt e.val (d.rd .VE_EPC_PC e.val)) = false))) :=
  ⟨⟨veAt (2216826880) { Eng.init with run := some aTrig, g := [(2, 5), (3, 7)] } [], _, 0, 2216826880, rfl, by decide +kernel⟩,
   ⟨veAt (2216826944) { Eng.init with run := some aTrig, g := [(2, 5), (3, 7)] } [], _, 0, 2216826944, rfl, by decide +kernel⟩,
   ⟨veAt (2216827008) { Eng.init with run := some aTrig, g := [(2, 5), (3, 7)] } [], _, 0, 2216827008, rfl, by decide +kernel⟩,
   ⟨veAt (2216827072) { Eng.init with run := some aTrig, g := [(2, 5), (3, 7)] } [], _, 0, 2216827072, rfl, by decide +kernel⟩,
   ⟨veAt (2216827136) { Eng.init with run := some aTrig, g := [(2, 5), (3, 7)] } [], _, 0, 2216827136, rfl, by decide +kernel⟩,
   ⟨veAt (2216827200) { Eng.init with run := some aTrig, g := [(2, 5), (3, 7)] } [], _, 0, 2216827200, rfl, by decide +kernel⟩,
   ⟨veAt (2216827264) { Eng.init with run := some aTrig, g := [(2, 5), (3, 7)] } [], _, 0, 2216827264, rfl, by decide +kernel⟩,
   ⟨veAt (2216827328) { Eng.init with run := some aTrig, g := [(2, 5), (3, 7)] } [], _, 0, 2216827328, rfl, by decide +kernel⟩,
   ⟨veAt (2216827392) { Eng.init with run := some aTrig, g := [(2, 5), (3, 7)] } [], _, 0, 2216827392, rfl, by decide +kernel⟩,
   ⟨veAt (2216827456) { Eng.init with run := some aTrig, g := [(2, 5), (3, 7)] } [], _, 0, 2216827456, rfl, by decide +kernel⟩,
   ⟨veAt (2216827520) { Eng.init with run := some aTrig, g := [(2, 5), (3, 7)] } [], _, 0, 2216827520, rfl, by decide +kernel⟩,
   ⟨veAt (2216827584) { Eng.init with run := some aTrig, g := [(2, 5), (3, 7)] } [], _, 0, 2216827584, rfl, by decide +kernel⟩,
   ⟨veAt (2216827648) { Eng.init with run := some aTrig, g := [(2, 5), (3, 7)] } [], _, 0, 2216827648, rfl, by decide +kernel⟩,
   ⟨veAt (2216827712) { Eng.init with run := some aTrig, g := [(2, 5), (3, 7)] } [], _, 0, 2216827712, rfl, by decide +kernel⟩,
   ⟨veAt (2216827776) { Eng.init with run := some aTrig, g := [(2, 5), (3, 7)] } [], _, 0, 2216827776, rfl, by decide +kernel⟩,
   ⟨veAt (2216827840) { Eng.init with run := some aTrig, g := [(2, 5), (3, 7)] } [], _, 0, 2216827840, rfl, by decide +kernel⟩,
   ⟨veAt (2216827904) { Eng.init with run := some aTrig, g := [(2, 5), (3, 7)] } [], _, 0, 2216827904, rfl, by decide +kernel⟩,
   ⟨veAt (2216827968) { Eng.init with run := some aTrig, g := [(2, 5), (3, 7)] } [], _, 0, 2216827968, rfl, by decide +kernel⟩,
   ⟨veAt (2216828032) { Eng.init with run := some aTrig, g := [(2, 5), (3, 7)] } [], _, 0, 2216828032, rfl, by decide +kernel⟩,
   ⟨veAt (2283929609) { Eng.init with run := some aTrig, g := [(2, 5)] } [], _, 0, 2283929609, rfl, by decide +kernel⟩,
   ⟨veAt (2351038473) { Eng.init with run := some aTrig, g := [(2, 5)] } [], _, 0, 2351038473, rfl, by decide +kernel⟩,
   ⟨veAt (2418147337) { Eng.init with run := some aTrig, g := [(2, 5)] } [], _, 0, 2418147337, rfl, by decide +kernel⟩,
   ⟨veAt (2485256201) { Eng.init with run := some aTrig, g := [(2, 5)] } [], _, 0, 2485256201, rfl, by decide +kernel⟩,
   ⟨veAt (2552365065) { Eng.init with run := some aTrig, g := [(2, 5)] } [], _, 0, 2552365065, rfl, by decide +kernel⟩,
   ⟨veAt (2619473929) { Eng.init with run := some aTrig, g := [(2, 5)] } [], _, 0, 2619473929, rfl, by decide +kernel⟩,
   ⟨veAt (3290562560) { Eng.init with run := some aTrig } [], _, 0, 3290562560, rfl, by decide +kernel⟩,
   ⟨veAt (3290562561) { Eng.init with run := some aTrig } [], _, 0, 3290562561, rfl, by decide +kernel⟩,
   ⟨veAt (2147483648) { Eng.init with run := some aTrig } [], _, 0, 2147483648, rfl, by decide +kernel⟩,
   ⟨veAt (2 ^ 31 + 0x16 * 2 ^ 26) { Eng.init with run := some aTrig } [], _, 0, rfl, by decide +kernel⟩⟩

theorem witness_micro_memory :
    (∃ (s : State) (d : Dev) (e : Fin 12) (w : Nat) (a k : Nat), s.dev.met = d ∧ ((d.microReady e.val w = true) ∧ (uOpc w = 8) ∧ ((d.eng e.val).effective w = some a) ∧ (d.veWindow a 4 = some k) ∧ (k = 1 ∨ k = 2))) ∧
    (∃ (s : State) (d : Dev) (e : Fin 12) (w : Nat), s.dev.met = d ∧ ((d.microReady e.val w = true) ∧ (uOpc w = 8) ∧ ((d.eng e.val).effective w = none ∨ ∃ a, (d.eng e.val).effective w = some a ∧ d.veWindow a 4 = none))) ∧
    (∃ (s : State) (d : Dev) (e : Fin 12) (w : Nat) (a k : Nat), s.dev.met = d ∧ ((d.microReady e.val w = true) ∧ (uOpc w = 9) ∧ ((d.eng e.val).effective w = some a) ∧ (d.veWindow a 8 = some k) ∧ (k = 1 ∨ k = 2))) ∧
    (∃ (s : State) (d : Dev) (e : Fin 12) (w : Nat), s.dev.met = d ∧ ((d.microReady e.val w = true) ∧ (uOpc w = 9) ∧ ((d.eng e.val).effective w = none ∨ ∃ a, (d.eng e.val).effective w = some a ∧ d.veWindow a 8 = none))) ∧
    (∃ (s : State) (d : Dev) (e : Fin 12) (w : Nat) (a : Nat), s.dev.met = d ∧ ((d.microReady e.val w = true) ∧ (uOpc w = 8) ∧ ((d.eng e.val).effective w = some a) ∧ (d.veWindow a 4 = some 3) ∧ (d.busRefuses (10 + e.val) a 4 = false))) ∧
    (∃ (s : State) (d : Dev) (e : Fin 12) (w : Nat) (a k : Nat), s.dev.met = d ∧ ((d.microReady e.val w = true) ∧ (uOpc w = 10) ∧ ((d.eng e.val).effective w = some a) ∧ (d.veWindow a 4 = some k))) ∧
    (∃ (s : State) (d : Dev) (e : Fin 12) (w : Nat) (a k : Nat), s.dev.met = d ∧ ((d.microReady e.val w = true) ∧ (uOpc w = 11) ∧ ((d.eng e.val).effective w = some a) ∧ (d.veWindow a 8 = some k))) ∧
    (∃ (s : State) (d : Dev) (e : Fin 12) (w : Nat) (a : Nat), s.dev.met = d ∧ ((d.microReady e.val w = true) ∧ (uOpc w = 12) ∧ (uFn w = 0) ∧ ((d.eng e.val).reg (uA w) = a) ∧ ((d.veCommit e.val).veState e.val = 2) ∧ (a % 8 = 0) ∧ (arrayOf a = 5) ∧ (((d.veCommit e.val).readCheck (10 + e.val) a 8).2 = true))) ∧
    (∃ (s : State) (d : Dev) (e : Fin 12) (w : Nat) (a : Nat), s.dev.met = d ∧ ((d.microReady e.val w = true) ∧ (uOpc w = 12) ∧ (uFn w = 1) ∧ ((d.eng e.val).reg (uA w) = a) ∧ ((d.veCommit e.val).veState e.val = 2) ∧ (a % 8 = 0) ∧ (arrayOf a = 5) ∧ (((d.veCommit e.val).readCheck (10 + e.val) a 8).2 = true))) ∧
    (∃ (s : State) (d : Dev) (e : Fin 12) (w : Nat) (a : Nat), s.dev.met = d ∧ ((d.microReady e.val w = true) ∧ (uOpc w = 12) ∧ (uFn w = 2) ∧ ((d.eng e.val).reg (uA w) = a) ∧ ((d.veCommit e.val).veState e.val = 2) ∧ (a % 8 = 0) ∧ (arrayOf a = 5) ∧ (((d.veCommit e.val).readCheck (10 + e.val) a 8).2 = true))) ∧
    (∃ (s : State) (d : Dev) (e : Fin 12) (k : Fin 4) (err : Option MemErr) (l : Load), s.dev.met = d ∧ (((d.eng e.val).loads[k.val]? = some l) ∧ (l.size ≠ 0) ∧ (((d.setEng e.val { d.eng e.val with loads := (d.eng e.val).loads.eraseIdx k.val }).readMem (10 + e.val) l.addr l.size err).2 = true))) ∧
    (∃ (s : State) (d : Dev) (e : Fin 12) (k : Fin 4) (err : Option MemErr) (l : Load), s.dev.met = d ∧ (((d.eng e.val).loads[k.val]? = some l) ∧ (l.size = 0))) ∧
    (∃ (s : State) (d : Dev) (e : Fin 12) (k : Fin 4) (err : Option MemErr) (l : Load), s.dev.met = d ∧ (((d.eng e.val).loads[k.val]? = some l) ∧ (l.size ≠ 0) ∧ (((d.setEng e.val { d.eng e.val with loads := (d.eng e.val).loads.eraseIdx k.val }).readMem (10 + e.val) l.addr l.size err).2 = false))) :=
  ⟨⟨veAt (2686582784) { Eng.init with run := some aTrig, g := [(2, 0x4000000)] } [], _, 0, 2686582784, 0x4000000, 1, rfl, by decide +kernel⟩,
   ⟨veAt (2686582784) { Eng.init with run := some aTrig, g := [(2, 0x3000000)] } [], _, 0, 2686582784, rfl, by decide +kernel⟩,
   ⟨veAt (2753691648) { Eng.init with run := some aTrig, g := [(2, 0x4000000)] } [], _, 0, 2753691648, 0x4000000, 1, rfl, by decide +kernel⟩,
   ⟨veAt (2753691648) { Eng.init with run := some aTrig, g := [(2, 0x3000000)] } [], _, 0, 2753691648, rfl, by decide +kernel⟩,
   ⟨veAt (2686582784) { Eng.init with run := some aTrig, g := [(2, 0xF0000000)] } [(.SYS_STAT_HANDOVER, 0, 1)], _, 0, 2686582784, 0xF0000000, rfl, by decide +kernel⟩,
   ⟨veAt (2820800512) { Eng.init with run := some aTrig, g := [(2, 0x4000000)] } [], _, 0, 2820800512, 0x4000000, 1, rfl, by decide +kernel⟩,
   ⟨veAt (2887909376) { Eng.init with run := some aTrig, g := [(2, 0x4000000)] } [], _, 0, 2887909376, 0x4000000, 1, rfl, by decide +kernel⟩,
   ⟨veAt (2955024384) { Eng.init with run := some aTrig, g := [(2, 0x4000008), (3, 1)] } [], _, 0, 2955024384, 0x4000008, rfl, by decide +kernel⟩,
   ⟨veAt (2955024448) { Eng.init with run := some aTrig, g := [(2, 0x4000008), (3, 1)] } [], _, 0, 2955024448, 0x4000008, rfl, by decide +kernel⟩,
   ⟨veAt (2955024512) { Eng.init with run := some aTrig, g := [(2, 0x4000008), (3, 1)] } [], _, 0, 2955024512, 0x4000008, rfl, by decide +kernel⟩,
   ⟨veAt 0 { Eng.init with run := some aTrig, loads := [{ reg := 1, val := 5, addr := 0x4000000, size := 4 }] } [], _, 0, 0, none, { reg := 1, val := 5, addr := 0x4000000, size := 4 }, rfl, by decide +kernel⟩,
   ⟨veAt 0 { Eng.init with run := some aTrig, loads := [{ reg := 1, val := 5, addr := 0, size := 0 }] } [], _, 0, 0, none, { reg := 1, val := 5, addr := 0, size := 0 }, rfl, by decide +kernel⟩,
   ⟨veAt 0 { Eng.init with run := some aTrig, loads := [{ reg := 1, val := 5, addr := 0x4000000, size := 4 }] } [], _, 0, 0, some { addr := 0x4000000, array := 5, hard := false }, { reg := 1, val := 5, addr := 0x4000000, size := 4 }, rfl, by decide +kernel⟩⟩

theorem witness_micro_control :
    (∃ (s : State) (d : Dev) (e : Fin 12) (w : Nat), s.dev.met = d ∧ ((d.microReady e.val w = true) ∧ (uOpc w = 13))) ∧
    (∃ (s : State) (d : Dev) (e : Fin 12) (w : Nat), s.dev.met = d ∧ ((d.microReady e.val w = true) ∧ (uOpc w = 14) ∧ (condHolds (uCond w) ((d.eng e.val).reg (uBrA w)) = true))) ∧
    (∃ (s : State) (d : Dev) (e : Fin 12) (w : Nat), s.dev.met = d ∧ ((d.microReady e.val w = true) ∧ (uOpc w = 14) ∧ (condHolds (uCond w) ((d.eng e.val).reg (uBrA w)) = false))) ∧
    (∃ (s : State) (d : Dev) (e : Fin 12) (w : Nat), s.dev.met = d ∧ ((d.microReady e.val w = true) ∧ (uOpc w = 15) ∧ (condHolds (uCond w) ((d.eng e.val).reg (uBrA w)) = true))) ∧
    (∃ (s : State) (d : Dev) (e : Fin 12) (w : Nat), s.dev.met = d ∧ ((d.microReady e.val w = true) ∧ (uOpc w = 15) ∧ (condHolds (uCond w) ((d.eng e.val).reg (uBrA w)) = false))) ∧
    (∃ (s : State) (d : Dev) (e : Fin 12) (w : Nat), s.dev.met = d ∧ ((d.microReady e.val w = true) ∧ (uOpc w = 16))) ∧
    (∃ (s : State) (d : Dev) (e : Fin 12) (w : Nat), s.dev.met = d ∧ ((d.microReady e.val w = true) ∧ (uOpc w = 20))) ∧
    (∃ (s : State) (d : Dev) (e : Fin 12) (w : Nat), s.dev.met = d ∧ ((d.microReady e.val w = true) ∧ (uOpc w = 21) ∧ ((d.veCommit e.val).veState e.val = 2))) ∧
    (∃ (s : State) (d : Dev) (e : Fin 12) (t : Trig), s.dev.met = d ∧ ((d.rd .VE_ESTAT_STATE e.val = 1) ∧ (d.nextTrigger e.val = some t))) ∧
    (∃ (s : State) (d : Dev) (e : Fin 12) (k : Fin 4), s.dev.met = d ∧ (d.rd .VE_ESTAT_STATE e.val = 2)) :=
  ⟨⟨veAt (3021996039) { Eng.init with run := some aTrig } [], _, 0, 3021996039, rfl, by decide +kernel⟩,
   ⟨veAt (3089104903) { Eng.init with run := some aTrig } [], _, 0, 3089104903, rfl, by decide +kernel⟩,
   ⟨veAt (3089629191) { Eng.init with run := some aTrig } [], _, 0, 3089629191, rfl, by decide +kernel⟩,
   ⟨veAt (3156213760) { Eng.init with run := some aTrig, stack := [9] } [], _, 0, 3156213760, rfl, by decide +kernel⟩,
   ⟨veAt (3156738048) { Eng.init with run := some aTrig, stack := [9] } [], _, 0, 3156738048, rfl, by decide +kernel⟩,
   ⟨veAt (3221356544) { Eng.init with run := some aTrig } [], _, 0, 3221356544, rfl, by decide +kernel⟩,
   ⟨veAt (3489660928) { Eng.init with run := some aTrig } [], _, 0, 3489660928, rfl, by decide +kernel⟩,
   ⟨veAt (3556769792) { Eng.init with run := some aTrig } [], _, 0, 3556769792, rfl, by decide +kernel⟩,
   ⟨{ State.reset with dev := { (mk [(.VE_ESTAT_STATE, 0, 1)]).dev with ve := { engs := [(0, { Eng.init with queues := [aTrig] })] } } }, _, 0, aTrig, rfl, by decide +kernel⟩,
   ⟨mk [(.VE_ESTAT_STATE, 3, 2)], _, 3, 1, rfl, by decide +kernel⟩⟩

theorem witness_micro_posts :
    (∃ (s : State) (d : Dev) (e : Fin 12) (w : Nat), s.dev.met = d ∧ ((d.microReady e.val w = true) ∧ (uOpc w = 18))) ∧
    (∃ (s : State) (d : Dev) (e : Fin 12) (w : Nat), s.dev.met = d ∧ ((d.microReady e.val w = true) ∧ (uOpc w = 19) ∧ (uImm w % 16 = 0) ∧ (d.postOp e.val w = 0 ∨ 3 < d.postOp e.val w))) ∧
    (∃ (s : State) (d : Dev) (e : Fin 12) (w : Nat), s.dev.met = d ∧ ((d.microReady e.val w = true) ∧ (uOpc w = 19) ∧ (uImm w % 16 = 0) ∧ (d.postOp e.val w = 1))) ∧
    (∃ (s : State) (d : Dev) (e : Fin 12) (w : Nat), s.dev.met = d ∧ ((d.microReady e.val w = true) ∧ (uOpc w = 19) ∧ (uImm w % 16 = 0) ∧ (d.postOp e.val w = 2))) ∧
    (∃ (s : State) (d : Dev) (e : Fin 12) (w : Nat), s.dev.met = d ∧ ((d.microReady e.val w = true) ∧ (uOpc w = 19) ∧ (uImm w % 16 = 0) ∧ (d.postOp e.val w = 3))) ∧
    (∃ (s : State) (d : Dev) (e : Fin 12) (w : Nat), s.dev.met = d ∧ ((d.microReady e.val w = true) ∧ (uOpc w = 19) ∧ (uImm w % 16 = 1))) ∧
    (∃ (s : State) (d : Dev) (e : Fin 12) (w : Nat), s.dev.met = d ∧ ((d.microReady e.val w = true) ∧ (uOpc w = 19) ∧ (uImm w % 16 = 2))) ∧
    (∃ (s : State) (d : Dev) (e : Fin 12) (w : Nat), s.dev.met = d ∧ ((d.microReady e.val w = true) ∧ (uOpc w = 19) ∧ (uImm w % 16 = 3))) :=
  ⟨⟨veAt (3355574272) { Eng.init with run := some aTrig } [], _, 0, 3355574272, rfl, by decide +kernel⟩,
   ⟨postAt 0 (3422683136) { Eng.init with run := some aTrig, g := [(2, 64)] } [], _, 0, 3422683136, rfl, by decide +kernel⟩,
   ⟨postAt 1 (3422683136) { Eng.init with run := some aTrig, g := [(2, 64)] } [], _, 0, 3422683136, rfl, by decide +kernel⟩,
   ⟨postAt 2 (3422683136) { Eng.init with run := some aTrig, g := [(2, 64)] } [], _, 0, 3422683136, rfl, by decide +kernel⟩,
   ⟨postAt 3 (3422683136) { Eng.init with run := some aTrig, g := [(2, 64)] } [], _, 0, 3422683136, rfl, by decide +kernel⟩,
   ⟨veAt (3422683137) { Eng.init with run := some aTrig, g := [(2, 64)] } [], _, 0, 3422683137, rfl, by decide +kernel⟩,
   ⟨veAt (3422683138) { Eng.init with run := some aTrig, g := [(2, 64)] } [], _, 0, 3422683138, rfl, by decide +kernel⟩,
   ⟨veAt (3422683139) { Eng.init with run := some aTrig, g := [(2, 64)] } [], _, 0, 3422683139, rfl, by decide +kernel⟩⟩

theorem witness_host_ports_and_resets :
    (∃ (s : State) (d : Dev) (p : Fin 2) (speed : Fin 6) (width : Fin 5), s.dev.met = d ∧ ((d.portExists p.val = true) ∧ (d.rd .HIF_LNKSTAT_UP p.val = 0))) ∧
    (∃ (s : State) (d : Dev) (p : Fin 2), s.dev.met = d ∧ ((d.portExists p.val = true) ∧ (d.rd .HIF_LNKSTAT_UP p.val ≠ 0))) ∧
    (∃ (s : State) (d : Dev) (p : Fin 2), s.dev.met = d ∧ (d.portExists p.val = true)) ∧
    (∃ (s : State) (d : Dev) (p : Fin 2) (cc aqa : Word) (asq acq : BitVec 64), s.dev.met = d ∧ ((d.portExists p.val = true) ∧ (bit (d.port p.val).cc 0 = false) ∧ (bit cc.toNat 0 = true))) ∧
    (∃ (s : State) (d : Dev) (p : Fin 2), s.dev.met = d ∧ (bit (d.port p.val).cc 0 = true)) ∧
    (∃ (s : State) (d : Dev) (p : Fin 2), s.dev.met = d ∧ ((d.portExists p.val = true) ∧ (d.rd .HIF_LNKSTAT_UP p.val ≠ 0))) ∧
    (∃ (s : State) (d : Dev) (p : Fin 2), s.dev.met = d ∧ ((d.portExists p.val = true) ∧ (bit (d.port p.val).cc 0 = true) ∧ ((d.port p.val).quiet = false))) ∧
    (∃ (s : State) (d : Dev) (p : Fin 2), s.dev.met = d ∧ ((d.portExists p.val = true) ∧ (bit (d.port p.val).cc 0 = true))) ∧
    (∃ (s : State) (d : Dev) (p : Fin 2) (u : Bool), s.dev.met = d ∧ (d.portExists p.val = true)) ∧
    (∃ (s : State) (d : Dev) (p : Fin 2) (q : Fin 257) (v : BitVec 16) (x : Sq), s.dev.met = d ∧ ((d.ctrlReady p.val = true) ∧ (Tab.look (d.port p.val).sqs q.val = some x) ∧ (v.toNat < x.size))) ∧
    (∃ (s : State) (d : Dev) (p : Fin 2) (q : Fin 257) (v : BitVec 16) (x : Cq), s.dev.met = d ∧ ((d.ctrlReady p.val = true) ∧ (Tab.look (d.port p.val).cqs q.val = some x) ∧ (v.toNat < x.size))) ∧
    (∃ (s : State) (d : Dev) (p : Fin 2) (q : Fin 257) (cq : Bool) (v : BitVec 16), s.dev.met = d ∧ ((d.ctrlReady p.val = true) ∧ ((if cq then (Tab.look (d.port p.val).cqs q.val).isNone else (Tab.look (d.port p.val).sqs q.val).isNone) = true))) ∧
    (∃ (s : State) (d : Dev) (p : Fin 2) (v : Fin 257) (after : Nat), s.dev.met.advance after = d ∧ (((d.port p.val).cqs.any (fun e => e.2.vec == v.val && e.2.agg != 0) = true) ∧ (d.waited (.coalesce p.val v.val) ((d.port p.val).feat 8 / 256 % 256 * 125000) = true))) ∧
    (∃ (s : State) (d : Dev) (p : Fin 2) (k : Fin 1024), s.dev.met = d ∧ ((d.portExists p.val = true) ∧ (d.rd .HIF_LNKSTAT_UP p.val ≠ 0))) ∧
    (∃ (s : State) (d : Dev) (p : Fin 2) (k : Fin 1024) (v : Word), s.dev.met = d ∧ ((d.portExists p.val = true) ∧ (d.rd .HIF_LNKSTAT_UP p.val ≠ 0))) ∧
    (∃ (s : State) (d : Dev) (p : Fin 2) (k : Fin 1028), s.dev.met = d ∧ ((d.portExists p.val = true) ∧ (d.rd .HIF_LNKSTAT_UP p.val ≠ 0))) ∧
    (∃ (s : State) (d : Dev) (p : Fin 2) (k : Fin 1028) (v : Word), s.dev.met = d ∧ ((d.portExists p.val = true) ∧ (d.rd .HIF_LNKSTAT_UP p.val ≠ 0))) ∧
    (∃ (s : State) (d : Dev), s.dev.met = d ∧ ((d.rd .SCH_STAT_STATE = 4) ∧ (d.cicadaHolds d.hostRests = true))) :=
  ⟨⟨mk [], _, 0, 4, 2, rfl, by decide +kernel⟩,
   ⟨mk [(.HIF_LNKSTAT_UP, 0, 1)], _, 0, rfl, by decide +kernel⟩,
   ⟨mk [], _, 0, rfl, by decide +kernel⟩,
   ⟨mk [], _, 0, 0x460001, 0x000F000F, 0x1000, 0x2000, rfl, by decide +kernel⟩,
   ⟨portUp [], _, 0, rfl, by decide +kernel⟩,
   ⟨mk [(.HIF_LNKSTAT_UP, 0, 1)], _, 0, rfl, by decide +kernel⟩,
   ⟨portUp [], _, 0, rfl, by decide +kernel⟩,
   ⟨portUp [], _, 0, rfl, by decide +kernel⟩,
   ⟨mk [], _, 0, true, rfl, by decide +kernel⟩,
   ⟨portUp [], _, 0, 1, 3, aSq, rfl, by decide +kernel⟩,
   ⟨portUp [], _, 0, 1, 3, aCq, rfl, by decide +kernel⟩,
   ⟨portUp [], _, 0, 9, false, 3, rfl, by decide +kernel⟩,
   ⟨{ State.reset with dev := { hif := { ports := [(0, { cqs := [(1, { aCq with agg := 2 })] })] }, timers := [(.coalesce 0 1, 0)] } }, _, 0, 1, 12500000, rfl, by decide +kernel⟩,
   ⟨mk [(.HIF_LNKSTAT_UP, 0, 1)], _, 0, 1, rfl, by decide +kernel⟩,
   ⟨mk [(.HIF_LNKSTAT_UP, 0, 1)], _, 0, 1, 6, rfl, by decide +kernel⟩,
   ⟨mk [(.HIF_LNKSTAT_UP, 0, 1)], _, 0, 1, rfl, by decide +kernel⟩,
   ⟨mk [(.HIF_LNKSTAT_UP, 0, 1)], _, 0, 1, 6, rfl, by decide +kernel⟩,
   ⟨cicadaAt, _, rfl, by decide +kernel⟩⟩

theorem witness_host_fetch_and_io_commands :
    (∃ (s : State) (d : Dev) (e0 e1 : List Word) (x : Sq), s.dev.met = d ∧ (((d.advance d.toFetch).portExists 1 = false) ∧ ((d.advance d.toFetch).fetches 0 = true) ∧ (Tab.look ((d.advance d.toFetch).port 0).sqs 0 = some x) ∧ (x.waits = true) ∧ ((d.advance d.toFetch).admRoom = true))) ∧
    (∃ (s : State) (d : Dev) (fseq : BitVec 32) (x : Cmd) (k : Nat), s.dev.met = d ∧ ((d.cmdOf fseq.toNat = some x) ∧ (x.phase = .fetched) ∧ (sqeOp x.sqe = 1) ∧ (d.ioRefusal (d.port x.port) x.sqe = none) ∧ (d.fewest (fun t => t.type == tCmd) = some k))) ∧
    (∃ (s : State) (d : Dev) (fseq : BitVec 32) (x : Cmd) (k : Nat), s.dev.met = d ∧ ((d.cmdOf fseq.toNat = some x) ∧ (x.phase = .fetched) ∧ (sqeOp x.sqe = 2) ∧ (d.ioRefusal (d.port x.port) x.sqe = none) ∧ (d.fewest (fun t => t.type == tCmd) = some k))) ∧
    (∃ (s : State) (d : Dev) (fseq : BitVec 32) (x : Cmd) (k : Nat), s.dev.met = d ∧ ((d.cmdOf fseq.toNat = some x) ∧ (x.phase = .fetched) ∧ (sqeOp x.sqe = 8) ∧ (d.ioRefusal (d.port x.port) x.sqe = none) ∧ (d.fewest (fun t => t.type == tCmd) = some k))) ∧
    (∃ (s : State) (d : Dev) (fseq : BitVec 32) (x : Cmd) (k : Nat), s.dev.met = d ∧ ((d.cmdOf fseq.toNat = some x) ∧ (x.phase = .fetched) ∧ (sqeOp x.sqe = 12) ∧ (d.ioRefusal (d.port x.port) x.sqe = none) ∧ (d.fewest (fun t => t.type == tCmd) = some k))) ∧
    (∃ (s : State) (d : Dev) (fseq : BitVec 32) (x : Cmd) (k : Nat), s.dev.met = d ∧ ((d.cmdOf fseq.toNat = some x) ∧ (x.phase = .fetched) ∧ (sqeOp x.sqe = 121) ∧ (sqeZsa x.sqe = 3) ∧ (d.ioRefusal (d.port x.port) x.sqe = none) ∧ (d.fewest (fun t => t.type == tCmd) = some k))) ∧
    (∃ (s : State) (d : Dev) (fseq : BitVec 32) (x : Cmd) (k : Nat), s.dev.met = d ∧ ((d.cmdOf fseq.toNat = some x) ∧ (x.phase = .fetched) ∧ (sqeOp x.sqe = 121) ∧ (sqeZsa x.sqe = 1) ∧ (d.ioRefusal (d.port x.port) x.sqe = none) ∧ (d.fewest (fun t => t.type == tCmd) = some k))) ∧
    (∃ (s : State) (d : Dev) (fseq : BitVec 32) (x : Cmd) (k : Nat), s.dev.met = d ∧ ((d.cmdOf fseq.toNat = some x) ∧ (x.phase = .fetched) ∧ (sqeOp x.sqe = 121) ∧ (sqeZsa x.sqe = 2) ∧ (d.ioRefusal (d.port x.port) x.sqe = none) ∧ (d.fewest (fun t => t.type == tCmd) = some k))) ∧
    (∃ (s : State) (d : Dev) (fseq : BitVec 32) (x : Cmd) (k : Nat), s.dev.met = d ∧ ((d.cmdOf fseq.toNat = some x) ∧ (x.phase = .fetched) ∧ (sqeOp x.sqe = 121) ∧ (sqeZsa x.sqe = 4) ∧ (d.ioRefusal (d.port x.port) x.sqe = none) ∧ (d.fewest (fun t => t.type == tCmd) = some k))) ∧
    (∃ (s : State) (d : Dev) (fseq : BitVec 32) (x : Cmd) (k : Nat), s.dev.met = d ∧ ((d.cmdOf fseq.toNat = some x) ∧ (x.phase = .fetched) ∧ (sqeOp x.sqe = 121) ∧ (sqeZsa x.sqe = 5) ∧ (d.ioRefusal (d.port x.port) x.sqe = none) ∧ (d.fewest (fun t => t.type == tCmd) = some k))) ∧
    (∃ (s : State) (d : Dev) (fseq : BitVec 32) (x : Cmd) (k : Nat), s.dev.met = d ∧ ((d.cmdOf fseq.toNat = some x) ∧ (x.phase = .fetched) ∧ (sqeOp x.sqe = 122) ∧ (d.ioRefusal (d.port x.port) x.sqe = none) ∧ (d.fewest (fun t => t.type == tCmd) = some k))) ∧
    (∃ (s : State) (d : Dev) (fseq : BitVec 32) (x : Cmd) (k : Nat), s.dev.met = d ∧ ((d.cmdOf fseq.toNat = some x) ∧ (x.phase = .fetched) ∧ (sqeOp x.sqe = 125) ∧ (d.ioRefusal (d.port x.port) x.sqe = none) ∧ (d.fewest (fun t => t.type == tCmd) = some k))) ∧
    (∃ (s : State) (d : Dev) (fseq : BitVec 32) (x : Cmd) (k : Nat), s.dev.met = d ∧ ((d.cmdOf fseq.toNat = some x) ∧ (x.phase = .fetched) ∧ (sqeOp x.sqe = 132) ∧ (d.ioRefusal (d.port x.port) x.sqe = none) ∧ (d.fewest (fun t => t.type == tCmd) = some k))) ∧
    (∃ (s : State) (d : Dev) (fseq : BitVec 32) (x : Cmd), s.dev.met = d ∧ ((d.cmdOf fseq.toNat = some x) ∧ (x.phase = .fetched) ∧ (sqeOp x.sqe = 0) ∧ (d.ioRefusal (d.port x.port) x.sqe = none))) ∧
    (∃ (s : State) (d : Dev) (fseq : BitVec 32) (x : Cmd) (st : Nat), s.dev.met = d ∧ ((d.cmdOf fseq.toNat = some x) ∧ (x.phase = .fetched) ∧ (sqeOp x.sqe = 2) ∧ (d.ioRefusal (d.port x.port) x.sqe = some st))) ∧
    (∃ (s : State) (d : Dev) (fseq : BitVec 32) (x : Cmd), s.dev.met = d ∧ ((d.cmdOf fseq.toNat = some x) ∧ (x.phase = .fetched) ∧ (sqeOp x.sqe = 2) ∧ (d.ioRefusal (d.port x.port) x.sqe = none) ∧ (d.fewest (fun t => t.type == tCmd) = none))) ∧
    (∃ (s : State) (d : Dev) (fseq : BitVec 32) (data md : List (List Byte)) (x : Cmd) (first count buf rtlba : Nat), s.dev.met = d ∧ ((d.cmdOf fseq.toNat = some x) ∧ (x.ask = some (first, count, buf, rtlba)) ∧ (d.bufferHere x buf count = true) ∧ (d.cmdNs x = none))) ∧
    (∃ (s : State) (d : Dev) (fseq : BitVec 32) (data md : List (List Byte)) (x : Cmd) (n : Ns) (first count buf rtlba : Nat), s.dev.met = d ∧ ((d.cmdOf fseq.toNat = some x) ∧ (x.ask = some (first, count, buf, rtlba)) ∧ (d.bufferHere x buf count = true) ∧ (d.cmdNs x = some n))) ∧
    (∃ (s : State) (d : Dev) (fseq : BitVec 32) (x : Cmd), s.dev.met = d ∧ ((d.cmdOf fseq.toNat = some x) ∧ (x.moving ≠ 0))) ∧
    (∃ (s : State) (d : Dev) (fseq : BitVec 32) (x : Cmd), s.dev.met = d ∧ ((d.cmdOf fseq.toNat = some x) ∧ (sqeOp x.sqe = 2 ∨ sqeOp x.sqe = 0x0C) ∧ (d.nsFeat (sqeNs x.sqe) 5 fseq.toNat % 65536 ≠ 0))) :=
  ⟨⟨portUp [(.HIF_LNKSTAT_UP, 0, 1)], _, [], [], { aSq with tail := 1 }, rfl, by decide +kernel⟩,
   ⟨ioAt 0 1 0, _, 7, aCmd 1 0, 0, rfl, by decide +kernel⟩,
   ⟨ioAt 0 2 0, _, 7, aCmd 2 0, 0, rfl, by decide +kernel⟩,
   ⟨ioAt 0 8 0, _, 7, aCmd 8 0, 0, rfl, by decide +kernel⟩,
   ⟨ioAt 0 12 0, _, 7, aCmd 12 0, 0, rfl, by decide +kernel⟩,
   ⟨ioAt 2 121 3, _, 7, aCmd 121 3, 0, rfl, by decide +kernel⟩,
   ⟨ioAt 2 121 1, _, 7, aCmd 121 1, 0, rfl, by decide +kernel⟩,
   ⟨ioAt 2 121 2, _, 7, aCmd 121 2, 0, rfl, by decide +kernel⟩,
   ⟨ioAt 2 121 4, _, 7, aCmd 121 4, 0, rfl, by decide +kernel⟩,
   ⟨ioAt 2 121 5, _, 7, aCmd 121 5, 0, rfl, by decide +kernel⟩,
   ⟨ioAt 2 122 0, _, 7, aCmd 122 0, 0, rfl, by decide +kernel⟩,
   ⟨ioAt 2 125 0, _, 7, aCmd 125 0, 0, rfl, by decide +kernel⟩,
   ⟨ioAt 2 132 0, _, 7, aCmd 132 0, 0, rfl, by decide +kernel⟩,
   ⟨ioAt 0 0 0, _, 7, aCmd 0 0, rfl, by decide +kernel⟩,
   ⟨ioAt 15 2 0, _, 7, aCmd 2 0, status 0 0x0B true, rfl, by decide +kernel⟩,
   ⟨heldAt, _, 7, aCmd 2 0, rfl, by decide +kernel⟩,
   ⟨askAt, _, 7, [], [], { aCmd 0 0 with ask := some (0, 1, 0x4000000, 0) }, 0, 1, 0x4000000, 0, rfl, by decide +kernel⟩,
   ⟨askIn, _, 7, [], [], { aCmd 1 0 with ask := some (0, 1, 0x4000000, 0) }, aNs, 0, 1, 0x4000000, 0, rfl, by decide +kernel⟩,
   ⟨{ State.reset with dev := { hif := { cmds := [{ aCmd 2 0 with moving := 1 }] } } }, _, 7, { aCmd 2 0 with moving := 1 }, rfl, by decide +kernel⟩,
   ⟨{ State.reset with dev := { hif := { cmds := [aCmd 2 0], feats := [{ ns := 1, fid := 5, fseq := 1, val := 3 }] } } }, _, 7, aCmd 2 0, rfl, by decide +kernel⟩⟩

theorem witness_host_queues_and_abort :
    (∃ (s : State) (d : Dev) (a : Adm), s.dev.met = d ∧ ((d.admFront = some a) ∧ (sqeOp a.sqe = 5) ∧ (1 ≤ sqeDw a.sqe 10 % 65536) ∧ (sqeDw a.sqe 10 % 65536 ≤ ((d.ringAdm a).port a.port).maxCq) ∧ ((Tab.look ((d.ringAdm a).port a.port).cqs (sqeDw a.sqe 10 % 65536)).isSome = false) ∧ (1 ≤ sqeDw a.sqe 10 / 65536) ∧ (sqeDw a.sqe 10 / 65536 ≤ 1023) ∧ (bit (sqeDw a.sqe 11) 0 = true) ∧ (sqeDw a.sqe 6 % 4096 = 0) ∧ (sqeDw a.sqe 11 / 65536 ≤ 256))) ∧
    (∃ (s : State) (d : Dev) (a : Adm), s.dev.met = d ∧ ((d.admFront = some a) ∧ (sqeOp a.sqe = 5) ∧ ((Tab.look ((d.ringAdm a).port a.port).cqs (sqeDw a.sqe 10 % 65536)).isSome = true) ∧ (1 ≤ sqeDw a.sqe 10 % 65536))) ∧
    (∃ (s : State) (d : Dev) (a : Adm), s.dev.met = d ∧ ((d.admFront = some a) ∧ (sqeOp a.sqe = 1) ∧ (1 ≤ sqeDw a.sqe 10 % 65536) ∧ (sqeDw a.sqe 10 % 65536 ≤ ((d.ringAdm a).port a.port).maxSq) ∧ ((Tab.look ((d.ringAdm a).port a.port).sqs (sqeDw a.sqe 10 % 65536)).isSome = false) ∧ (1 ≤ sqeDw a.sqe 10 / 65536) ∧ (sqeDw a.sqe 10 / 65536 ≤ 1023) ∧ (bit (sqeDw a.sqe 11) 0 = true) ∧ (sqeDw a.sqe 6 % 4096 = 0) ∧ (1 ≤ sqeDw a.sqe 11 / 65536) ∧ ((Tab.look ((d.ringAdm a).port a.port).cqs (sqeDw a.sqe 11 / 65536)).isSome = true))) ∧
    (∃ (s : State) (d : Dev) (a : Adm), s.dev.met = d ∧ ((d.admFront = some a) ∧ (sqeOp a.sqe = 4) ∧ (1 ≤ sqeDw a.sqe 10 % 65536) ∧ ((Tab.look ((d.ringAdm a).port a.port).cqs (sqeDw a.sqe 10 % 65536)).isSome = true) ∧ (((d.ringAdm a).port a.port).sqs.any (fun s => s.2.cq == sqeDw a.sqe 10 % 65536) = false))) ∧
    (∃ (s : State) (d : Dev) (a : Adm) (x : Sq) (i : Nat), s.dev.met = d ∧ ((d.admFront = some a) ∧ (sqeOp a.sqe = 0) ∧ (sqeDw a.sqe 10 % 65536 ≠ 0) ∧ (Tab.look ((d.ringAdm a).port a.port).sqs (sqeDw a.sqe 10 % 65536) = some x) ∧ (((d.ringAdm a).hif.adm.find? fun b => b.fseq == a.fseq).bind Adm.ring = some i))) ∧
    (∃ (s : State) (d : Dev) (a : Adm) (x : Cmd), s.dev.met = d ∧ ((d.admFront = some a) ∧ (sqeOp a.sqe = 8) ∧ ((Tab.look ((d.ringAdm a).port a.port).sqs (sqeDw a.sqe 10 % 65536)).isSome = true) ∧ (sqeDw a.sqe 10 % 65536 ≠ 0) ∧ (((d.ringAdm a).hif.cmds.find? fun c => c.port == a.port && c.sq == sqeDw a.sqe 10 % 65536 && c.cid == sqeDw a.sqe 10 / 65536) = some x))) ∧
    (∃ (s : State) (d : Dev) (a : Adm), s.dev.met = d ∧ ((d.admFront = some a) ∧ (sqeOp a.sqe = 8) ∧ ((Tab.look ((d.ringAdm a).port a.port).sqs (sqeDw a.sqe 10 % 65536)).isSome = true) ∧ (sqeDw a.sqe 10 % 65536 ≠ 0) ∧ (((d.ringAdm a).hif.cmds.find? fun c => c.port == a.port && c.sq == sqeDw a.sqe 10 % 65536 && c.cid == sqeDw a.sqe 10 / 65536) = none))) ∧
    (∃ (s : State) (d : Dev) (a : Adm), s.dev.met = d ∧ ((d.admFront = some a) ∧ (sqeOp a.sqe = 12) ∧ (((d.ringAdm a).port a.port).aers.length < 4) ∧ (((d.ringAdm a).port a.port).aes = []))) ∧
    (∃ (s : State) (d : Dev) (a : Adm) (w v : Nat) (rest : List (Nat × Nat)), s.dev.met = d ∧ ((d.admFront = some a) ∧ (sqeOp a.sqe = 12) ∧ (((d.ringAdm a).port a.port).aers.length < 4) ∧ (((d.ringAdm a).port a.port).aes = (w, v) :: rest))) :=
  ⟨⟨admAt 5 (1 + 15 * 2 ^ 16) 3, _, anAdm 5 (1 + 15 * 2 ^ 16) 3, rfl, by decide +kernel⟩,
   ⟨admQ 5 1 0, _, anAdm 5 1 0, rfl, by decide +kernel⟩,
   ⟨admQ 1 (2 + 15 * 2 ^ 16) (1 + 2 ^ 16), _, anAdm 1 (2 + 15 * 2 ^ 16) (1 + 2 ^ 16), rfl, by decide +kernel⟩,
   ⟨admQ 4 2 0, _, anAdm 4 2 0, rfl, by decide +kernel⟩,
   ⟨admQ 0 1 0, _, anAdm 0 1 0, aSq, 0, rfl, by decide +kernel⟩,
   ⟨abortAt, _, anAdm 8 (1 + 4 * 2 ^ 16) 0, aCmd 2 0, rfl, by decide +kernel⟩,
   ⟨admQ 8 (1 + 4 * 2 ^ 16) 0, _, anAdm 8 (1 + 4 * 2 ^ 16) 0, rfl, by decide +kernel⟩,
   ⟨admAt 0x0C 0 0, _, anAdm 0x0C 0 0, rfl, by decide +kernel⟩,
   ⟨{ admAt 0x0C 0 0 with dev := { hif := { adm := [anAdm 0x0C 0 0], ports := [(0, { aes := [(2, 9)] })] } } }, _, anAdm 0x0C 0 0, 2, 9, [], rfl, by decide +kernel⟩⟩

theorem witness_host_features_and_pages :
    (∃ (s : State) (d : Dev) (a : Adm), s.dev.met = d ∧ ((d.admFront = some a) ∧ (sqeOp a.sqe = 9) ∧ ((d.ringAdm a).setRefusal ((d.ringAdm a).port a.port) a.sqe = 0) ∧ (sqeDw a.sqe 10 % 256 ≠ 5) ∧ (sqeDw a.sqe 10 % 256 ≠ 7) ∧ (sqeDw a.sqe 10 % 256 ≠ 2))) ∧
    (∃ (s : State) (d : Dev) (a : Adm), s.dev.met = d ∧ ((d.admFront = some a) ∧ (sqeOp a.sqe = 9) ∧ ((d.ringAdm a).setRefusal ((d.ringAdm a).port a.port) a.sqe = 0) ∧ (sqeDw a.sqe 10 % 256 = 5))) ∧
    (∃ (s : State) (d : Dev) (a : Adm) (st : Nat), s.dev.met = d ∧ ((d.admFront = some a) ∧ (sqeOp a.sqe = 9) ∧ ((d.ringAdm a).setRefusal ((d.ringAdm a).port a.port) a.sqe = st) ∧ (st ≠ 0))) ∧
    (∃ (s : State) (d : Dev) (a : Adm), s.dev.met = d ∧ ((d.admFront = some a) ∧ (sqeOp a.sqe = 10) ∧ (featIds.contains (sqeDw a.sqe 10 % 256) = true) ∧ (bits (sqeDw a.sqe 10) 8 3 = 0) ∧ (sqeDw a.sqe 10 % 256 ≠ 5) ∧ (sqeDw a.sqe 10 % 256 ≠ 4) ∧ (sqeDw a.sqe 10 % 256 ≠ 9))) ∧
    (∃ (s : State) (d : Dev) (a : Adm) (l : List (Nat × Nat × Nat)), s.dev.met = d ∧ ((d.admFront = some a) ∧ (sqeOp a.sqe = 6) ∧ ((d.ringAdm a).identData a = (0, l)))) ∧
    (∃ (s : State) (d : Dev) (a : Adm) (st : Nat) (l : List (Nat × Nat × Nat)), s.dev.met = d ∧ ((d.admFront = some a) ∧ (sqeOp a.sqe = 6) ∧ ((d.ringAdm a).identData a = (st, l)) ∧ (st ≠ 0))) ∧
    (∃ (s : State) (d : Dev) (a : Adm) (i : Nat), s.dev.met = d ∧ ((d.admFront = some a) ∧ (sqeOp a.sqe = 16) ∧ (((d.ringAdm a).hif.adm.find? fun b => b.fseq == a.fseq).bind Adm.ring = some i))) ∧
    (∃ (s : State) (d : Dev) (a : Adm) (i : Nat), s.dev.met = d ∧ ((d.admFront = some a) ∧ (sqeOp a.sqe = 17) ∧ (((d.ringAdm a).hif.adm.find? fun b => b.fseq == a.fseq).bind Adm.ring = some i))) ∧
    (∃ (s : State) (d : Dev) (base : BitVec 40) (page : List Byte) (a : Adm) (i : Nat), s.dev.met = d ∧ ((d.admFront = some a) ∧ (sqeOp a.sqe = 2) ∧ (((d.ringAdm a).hif.adm.find? fun b => b.fseq == a.fseq).bind Adm.ring = some i))) ∧
    (∃ (s : State) (d : Dev) (base : BitVec 40) (page : List Byte) (a : Adm) (i : Nat), s.dev.met = d ∧ ((d.admFront = some a) ∧ (sqeOp a.sqe = 2) ∧ (((d.ringAdm a).hif.adm.find? fun b => b.fseq == a.fseq).bind Adm.ring = some i) ∧ (sqeDw a.sqe 10 % 256 = 3) ∧ (sqeDw a.sqe 10 / 65536 = 0) ∧ (sqeDw a.sqe 11 % 65536 = 0) ∧ (sqeDw a.sqe 12 = 0) ∧ (sqeDw a.sqe 13 = 0))) ∧
    (∃ (s : State) (d : Dev) (base : BitVec 40) (a : Adm) (i : Nat), s.dev.met = d ∧ ((d.admFront = some a) ∧ (sqeOp a.sqe = 198) ∧ (((d.ringAdm a).hif.adm.find? fun b => b.fseq == a.fseq).bind Adm.ring = some i))) ∧
    (∃ (s : State) (d : Dev) (k : Fin 1024) (data : List Byte) (a : Adm), s.dev.met = d ∧ ((d.hif.adm.find? fun a => a.ring == some k.val && [0x02, 0x10, 0x11, 0xC6].contains (sqeOp a.sqe)) = some a)) ∧
    (∃ (s : State) (d : Dev) (a : Adm), s.dev.met = d ∧ ((d.admFront = some a) ∧ (sqeOp a.sqe = 196) ∧ (1 ≤ sqeDw a.sqe 10 % 4096) ∧ (sqeDw a.sqe 10 % 4096 ≤ 3600) ∧ ((d.ringAdm a).rd .SYS_BAR2CTL_DISABLE = 0))) ∧
    (∃ (s : State) (d : Dev) (a : Adm), s.dev.met = d ∧ ((d.admFront = some a) ∧ (sqeOp a.sqe = 196) ∧ (sqeDw a.sqe 10 % 4096 = 0))) :=
  ⟨⟨admAt 9 8 0x105, _, anAdm 9 8 0x105, rfl, by decide +kernel⟩,
   ⟨{ State.reset with dev := { hif := { adm := [setTler] } } }, _, setTler, rfl, by decide +kernel⟩,
   ⟨admAt 9 3 0, _, anAdm 9 3 0, invalidField, rfl, by decide +kernel⟩,
   ⟨admAt 0x0A 8 0, _, anAdm 0x0A 8 0, rfl, by decide +kernel⟩,
   ⟨admAt 6 0x1C 0, _, anAdm 6 0x1C 0, [(0, 8, 5)], rfl, by decide +kernel⟩,
   ⟨admAt 6 0x55 0, _, anAdm 6 0x55 0, invalidField, [], rfl, by decide +kernel⟩,
   ⟨admAt 0x10 0 0, _, anAdm 0x10 0 0, 0, rfl, by decide +kernel⟩,
   ⟨admAt 0x11 0 0, _, anAdm 0x11 0 0, 0, rfl, by decide +kernel⟩,
   ⟨admAt 2 3 0, _, 0x1000000000, [7], anAdm 2 3 0, 0, rfl, by decide +kernel⟩,
   ⟨admAt 2 3 0, _, 0x1000000000, [7], anAdm 2 3 0, 0, rfl, by decide +kernel⟩,
   ⟨admAt 0xC6 0 0, _, 0x1000000000, anAdm 0xC6 0 0, 0, rfl, by decide +kernel⟩,
   ⟨{ State.reset with dev := { hif := { adm := [{ anAdm 2 3 0 with ring := some 0 }] } } }, _, 0, [], { anAdm 2 3 0 with ring := some 0 }, rfl, by decide +kernel⟩,
   ⟨admAt 0xC4 60 0, _, anAdm 0xC4 60 0, rfl, by decide +kernel⟩,
   ⟨admAt 0xC4 0 0, _, anAdm 0xC4 0 0, rfl, by decide +kernel⟩⟩

theorem witness_step_and_queue :
    (∃ (s : State) (c : Instr) (rest : List Instr), s.pending = c :: rest) ∧ (∃ s : State, s.pending = []) :=
  ⟨⟨{ State.reset with pending := [.powerOnReset false, .slowWriteCommit] }, .powerOnReset false, [.slowWriteCommit], rfl⟩, State.reset, rfl⟩

theorem witness_step_keeps_gates_safe : ∃ s t : State, step s = .next t ∧ s.test = false :=
  ⟨{ State.reset with pending := [.abuEnable] }, _, rfl, rfl⟩

theorem witness_step_shows_cricket : ∃ s t : State, step s = .next t ∧ s.test = false :=
  ⟨{ State.reset with pending := [.slowWriteCommit] }, _, rfl, rfl⟩

theorem witness_access_codes :
    (Fld.VE_ECFG_MAXRST ∈ Reg.VE_ECFG.info.flds ∧ Fld.VE_ECFG_MAXRST.info.acc = .rw) ∧
    (Fld.SYS_RSTCAUSE_POR ∈ Reg.SYS_RSTCAUSE.info.flds ∧ Fld.SYS_RSTCAUSE_POR.info.acc = .w1c) ∧
    (Fld.SYS_ID_VENDOR ∈ Reg.SYS_ID.info.flds → 0 = 0 → Fld.SYS_ID_VENDOR.info.acc ≠ .rw ∧ Fld.SYS_ID_VENDOR.info.acc ≠ .w1c) ∧
    (∀ f ∈ Reg.SYS_STAT.info.flds, 31 < f.info.lo ∨ f.info.lo + f.info.w ≤ 31) ∧
    (∃ (s : State) (x : RegWrite), s.dev.met.busRefuses x.master.id x.addr 4 = false ∧
      targetOf x.master.id (regOffset x.addr) = .reg .SYS_RSTCAUSE 0) :=
  ⟨by decide, by decide, by decide, by decide, State.reset, { master := .cfg, addr := regBase + 0x24, data := 1 },
   by decide +kernel, by decide +kernel⟩

theorem witness_reset_key :
    (∃ (s : State) (x : RegWrite), s.dev.met.busRefuses x.master.id x.addr 4 = false ∧
      targetOf x.master.id (regOffset x.addr) = .reg .SYS_RSTCTL 0 ∧ bits x.data.toNat 8 8 ≠ 0x5A) ∧
    (∃ key : BitVec 8, key ≠ 0x5A) ∧
    (∃ (s : State) (x : RegWrite), s.dev.met.busRefuses x.master.id x.addr 4 = false ∧
      targetOf x.master.id (regOffset x.addr) = .reg .SYS_RSTCTL 0 ∧ bits x.data.toNat 8 8 = 0x5A ∧ bit x.data.toNat 1 = true ∧
      bit x.data.toNat 0 = true) :=
  ⟨⟨State.reset, { master := .cfg, addr := regBase + 0x20, data := 0x5B03 }, by decide +kernel, by decide +kernel, by decide⟩,
   ⟨0x5B, by decide⟩, State.reset, { master := .cfg, addr := regBase + 0x20, data := 0x5A03 }, by decide +kernel, by decide +kernel,
   by decide, by decide, by decide⟩

theorem witness_register_holes :
    (∃ (s : State) (m : Master) (a : BitVec 40) (b : Block), s.dev.met.admits m.id = true ∧ inRegs a.toNat = true ∧
      a.toNat % 4 = 0 ∧ blockAt (regOffset a.toNat) = some b ∧ (regOffset a.toNat < 0x38000 ∨ 0x40000 ≤ regOffset a.toNat) ∧
      ∀ r ∈ b.regs, r.at (foldAlias (regOffset a.toNat)) = none) ∧
    (∃ a : BitVec 40, blockAt (regOffset a.toNat) = none) :=
  ⟨⟨State.reset, .cfg, 0xF010FFFC, .ANG, by decide +kernel, by decide, by decide, by decide +kernel, by decide, by decide +kernel⟩,
   0xF0040000, by decide +kernel⟩

theorem witness_fuse_programming :
    (∃ (s : State) (sel val : Nat), sel < 4 ∧ s.dev.met.svc.staged = some (.fuse sel val) ∧ s.dev.met.fuseAccepts sel val = false) ∧
    (∃ (s : State) (sel val : Nat), sel < 4 ∧ s.dev.met.svc.staged = some (.fuse sel val) ∧ s.dev.met.fuseAccepts sel val = true) ∧
    (∃ (s : State) (after : Nat), (s.dev.met.advance after).resetDue 2 = true) :=
  ⟨⟨{ State.reset with dev := { svc := { staged := some (.fuse 3 2) } } }, 3, 2, by decide, by decide +kernel, by decide +kernel⟩,
   ⟨{ State.reset with dev := { svc := { staged := some (.fuse 2 7) } } }, 2, 7, by decide, by decide +kernel, by decide +kernel⟩,
   { State.reset with dev := { cfg := { kind := 2, quiet := true }, timers := [(.flush, 0)] } }, 12500000, by decide +kernel⟩

theorem witness_micro_registers : ∃ (s : State) (e : Fin 12) (t : Trig), s.dev.met.rd .VE_ESTAT_STATE e.val = 1 ∧
    s.dev.met.nextTrigger e.val = some t ∧ t.type < 32 ∧ t.prio < 4 ∧ t.src < 256 ∧ t.restarts < 256 ∧ t.a0 < 2 ^ 32 ∧
    t.a1 < 2 ^ 32 ∧ t.a2 < 2 ^ 32 ∧ t.a3 < 2 ^ 32 :=
  ⟨{ State.reset with dev := { (mk [(.VE_ESTAT_STATE, 0, 1)]).dev with ve := { engs := [(0, { Eng.init with queues := [aTrig] })] } } },
   0, aTrig, by decide +kernel, by decide +kernel, by decide, by decide, by decide, by decide, by decide, by decide, by decide, by decide⟩

theorem witness_micro_conditions :
    (∃ (s : State) (e : Fin 12) (w : Nat), s.dev.met.microReady e.val w = true ∧ uOpc w = 0x0D ∧ uEnd w = true ∧ uCond w ≠ 7) ∧
    (∃ (s : State) (e : Fin 12), s.dev.met.veState e.val = 2 ∧ (s.dev.met.eng e.val).run.isSome = true ∧
      (s.dev.met.eng e.val).pos = 0 ∧
      (let w := s.dev.met.ld32 (uopAddr e.val (s.dev.met.rd .VE_EPC_PC e.val))
       (uOpc w = 0x0D ∨ uOpc w = 0x0E ∨ uOpc w = 0x0F) ∧ uCond w = 7)) :=
  ⟨⟨veAt 3021996039 { Eng.init with run := some aTrig } [], 0, 3021996039, by decide +kernel, by decide, by decide, by decide⟩,
   veAt (2 ^ 31 + 0x0D * 2 ^ 26 + 7 * 2 ^ 18) { Eng.init with run := some aTrig } [], 0, by decide +kernel, by decide +kernel,
   by decide +kernel, by decide +kernel⟩

theorem witness_passing_cycle : ∃ (s : State) (d : Dev), s.test = false ∧ d.atRest = true :=
  ⟨State.reset, State.reset.dev, rfl, by decide +kernel⟩

theorem witness_register_frames : ∃ s t : State, exec .faultLock s = .next t := ⟨State.reset, _, rfl⟩

theorem witness_sequencer_frames : ∃ (s : State) (q : Fin 32), s.dev.met.fieldReady q.val .c0 [1] = true :=
  ⟨fsqAt (2 ^ 36) { Seq.init with job := some { aJob with kind := 0 } } [], 8, by decide +kernel⟩

theorem witness_micro_frames : ∃ (s : State) (e : Fin 12) (w : Nat), s.dev.met.microReady e.val w = true :=
  ⟨veAt 2216826880 { Eng.init with run := some aTrig } [], 0, 2216826880, by decide +kernel⟩

theorem witness_store_frames :
    (∃ (s : State) (e : Fin 12) (w a k : Nat), s.dev.met.microReady e.val w = true ∧ uOpc w = 0x0A ∧
      (s.dev.met.eng e.val).effective w = some a ∧ s.dev.met.veWindow a 4 = some k ∧ k ≠ 3 ∧ s.dev.met.rd .VE_ESTAT_COMMITTED e.val ≠ 0) ∧
    (∃ (s : State) (e : Fin 12) (w a k : Nat), s.dev.met.microReady e.val w = true ∧ uOpc w = 0x0B ∧
      (s.dev.met.eng e.val).effective w = some a ∧ s.dev.met.veWindow a 8 = some k ∧ s.dev.met.rd .VE_ESTAT_COMMITTED e.val = 0 ∧
      (s.dev.met.eng e.val).buffer.length < 64) ∧
    (∃ (s : State) (a : BitVec 40), arrayOf a.toNat ≠ 7 ∧ s.dev.met.rangeExists a.toNat 8 = true) ∧
    (∃ (s : State) (a : BitVec 40), s.dev.met.rangeExists a.toNat 8 = false ∧ arrayOf a.toNat ≠ 7) :=
  ⟨⟨veAt 2820800512 { Eng.init with run := some aTrig, g := [(2, 0x4000000)] } [(.VE_ESTAT_COMMITTED, 0, 1)], 0, 2820800512, 0x4000000, 1,
    by decide +kernel, by decide, by decide +kernel, by decide +kernel, by decide, by decide +kernel⟩,
   ⟨veAt 2887909376 { Eng.init with run := some aTrig, g := [(2, 0x4000000)] } [], 0, 2887909376, 0x4000000, 1, by decide +kernel, by decide,
    by decide +kernel, by decide +kernel, by decide +kernel, by decide +kernel⟩,
   ⟨State.reset, 0x57FFFF8, by decide, by decide +kernel⟩, State.reset, 0x57FFFFC, by decide +kernel, by decide⟩

end Sys2Proof.Tests
end

section
/-! Accesses of register space: what a read or a write does once its address has been decoded, and what a plain write leaves in
each field. -/

namespace Sys2Proof.Machine

/-! ### The commands of register space -/

theorem exec_registerWrite (l : List RegWrite) (reads : List RegRead) (s : State) :
    exec (.registerWrite l reads) s = .next (s.after (s.dev.met.busAccesses l reads)) := rfl

theorem exec_snapshotRead (m : Master) (a : BitVec 40) (size : Nat) (s : State) :
    exec (.snapshotRead m a size) s = .next (s.after (s.dev.met.busRead m.id a.toNat size)) := rfl

theorem exec_clearOnRead (m : Master) (a : BitVec 40) (size : Nat) (s : State) :
    exec (.clearOnRead m a size) s = .next (s.after (s.dev.met.busRead m.id a.toNat size)) := rfl

theorem exec_slowWriteCommit (s : State) : exec .slowWriteCommit s = .next (s.after s.dev.met.slowCommit) := rfl

theorem exec_compareTargetWrite (m : Master) (u : Fin 16) (w : Word) (s : State) :
    exec (.compareTargetWrite m u w) s = .next (s.after (s.dev.met.regWrite m.id .ANG_CMPTGTHI u.val w.toNat)) := rfl

/-! ### Accesses -/

@[simp] theorem Dev.busAccesses_writes (d : Dev) (l : List RegWrite) : d.busAccesses l [] = d.busWrites l := rfl

@[simp] theorem Dev.busAccesses_read (d : Dev) (l : List RegWrite) (y : RegRead) :
    d.busAccesses l [y] = (d.busRead y.master.id y.addr 4).busWrites l := rfl

theorem Dev.busRead_refused {d : Dev} {m a size : Nat} (h : d.busRefuses m a size = true) :
    d.busRead m a size = d.emit (.busError m) := if_pos h

theorem Dev.busRead_accepted {d : Dev} {m a size : Nat} (h : d.busRefuses m a size = false) :
    d.busRead m a size = d.regRead m (regOffset a) true := if_neg (by simp [h])

theorem Dev.busRead_word {d : Dev} {m a size : Nat} {r : Reg} {i : Nat} (h : d.busRefuses m a size = false)
    (ht : targetOf m (regOffset a) = .reg r i) (hs : r.snapped = false) :
    d.busRead m a size = ((d.capture m r i).clearRc r i).emit (.data m (d.word r i)) :=
  (Dev.busRead_accepted h).trans (Dev.regRead_word ht hs true)

theorem Dev.busRead_snapped {d : Dev} {m a size : Nat} {r : Reg} {i : Nat} (h : d.busRefuses m a size = false)
    (ht : targetOf m (regOffset a) = .reg r i) (hs : r.snapped = true) :
    d.busRead m a size = ((d.capture m r i).clearRc r i).emit (.data m (Tab.getD d.bus.hold (holdKey m r i) 0)) :=
  (Dev.busRead_accepted h).trans (Dev.regRead_snapped ht hs true)

theorem Dev.busRead_hole {d : Dev} {m a size : Nat} (h : d.busRefuses m a size = false)
    (ht : targetOf m (regOffset a) = .hole) : d.busRead m a size = d.emit (.data m 0) :=
  (Dev.busRead_accepted h).trans (Dev.regRead_hole ht true)

theorem Dev.busWrites_reg {d : Dev} {x : RegWrite} {r : Reg} {i : Nat} (h : d.busRefuses x.master.id x.addr 4 = false)
    (ht : targetOf x.master.id (regOffset x.addr) = .reg r i) :
    d.busWrites [x] = d.regWrite x.master.id r i x.data.toNat :=
  (Dev.busWrites_one h).trans (Dev.offsetWrite_reg ht)

/-! ### The slow domain (R55) -/

theorem Dev.slowCommit_none {d : Dev} (h : d.bus.slow = none) : d.slowCommit = d := by
  simp [Dev.slowCommit, h]

theorem Dev.slowCommit_some {d : Dev} {p : PendW} (h : d.bus.slow = some p) :
    d.slowCommit = ({ d with bus := { d.bus with slow := none } }).plainWrite p.reg p.idx p.word.toNat := by
  simp [Dev.slowCommit, h]

/-! ### What a write that is not refused does -/

/-- The registers whose write a rule can close or hold back: for the format and the loaded image (R196), for the owner of the software
context (R554), for DMA channels in IDLE (R539), and those with a buffer or an apply rule of their own (R58, R111). -/
def Reg.guarded (r : Reg) : Bool :=
  formatRegs.contains r || imageRegs.contains r || chkRegs.contains r || dmaRegs.contains r || r.hiOf.isSome ||
    [Reg.EVT_SWDATA0, .EVT_SWDATA1, .EVT_SWDATA2].contains r || r == .LNX_ROUTE || r == .ANG_GEOM || r.info.app != .immediate

/-- A write of any other register acts at once, whoever its master is. -/
theorem Dev.regWrite_direct (d : Dev) {r : Reg} (m i w : Nat) (h : r.guarded = false) :
    d.regWrite m r i w = r.loOf.elim (d.regEffect m r i w) fun lo => d.hiWrite m lo r i w := by
  simp only [Reg.guarded, Bool.or_eq_false_iff] at h
  obtain ⟨⟨⟨⟨⟨⟨⟨⟨hformat, himage⟩, hchk⟩, hdma⟩, hlo⟩, hdata⟩, hroute⟩, hgeom⟩, happ⟩ := h
  simp only [Dev.regWrite, hformat, himage, hchk, hdma, hlo, hdata, hroute, hgeom, happ, Bool.false_and, Bool.or_self,
    Bool.false_eq_true, if_false]
  cases r.loOf <;> rfl

/-- The HI half of a compare target commits both halves (R58). -/
theorem Dev.regWrite_compareTarget (d : Dev) (m i w : Nat) :
    d.regWrite m .ANG_CMPTGTHI i w = d.commitHalves m .ANG_CMPTGTLO .ANG_CMPTGTHI i w :=
  Dev.regWrite_direct d m i w (by decide)

/-- IMMEDIATE registers whose write has no action of its own. -/
def plainRegs : List Reg :=
  [.SYS_STAT, .SYS_CLKSTAT, .SYS_RSTCAUSE, .FLT_STAT, .ANG_STAT, .LANE_STAT, .ITB_STAT, .TPE_STAT, .VE_ECFG, .HIF_STAT, .MEM_STAT,
    .SPN_STAT, .EVT_STAT]

theorem Reg.guarded_of_plain : ∀ r ∈ plainRegs, r.guarded = false ∧ r.loOf = none := by decide

theorem Dev.regEffect_of_plain {r : Reg} (hr : r ∈ plainRegs) (d : Dev) (m i w : Nat) : d.regEffect m r i w = d.plainWrite r i w := by
  simp only [plainRegs, List.mem_cons, List.not_mem_nil, or_false] at hr
  rcases hr with rfl | rfl | rfl | rfl | rfl | rfl | rfl | rfl | rfl | rfl | rfl | rfl | rfl <;> rfl

theorem Dev.regWrite_of_plain {r : Reg} (hr : r ∈ plainRegs) (d : Dev) (m i w : Nat) : d.regWrite m r i w = d.plainWrite r i w := by
  obtain ⟨hg, hlo⟩ := Reg.guarded_of_plain r hr
  rw [Dev.regWrite_direct d m i w hg, hlo, Option.elim_none, Dev.regEffect_of_plain hr]

/-! ### Plain writes (R14) -/

/-- What a write of `w` leaves in a field of an IMMEDIATE register that held `old` (R14). -/
def Fld.afterWrite (f : Fld) (w old : Nat) : Nat :=
  match f.info.acc with
  | .rw => bits w f.info.lo f.info.w
  | .w1c => (old ^^^ (old &&& bits w f.info.lo f.info.w)) % 2 ^ f.info.w
  | _ => old

theorem Fld.afterWrite_rw {f : Fld} (h : f.info.acc = .rw) (w old : Nat) : f.afterWrite w old = bits w f.info.lo f.info.w := by
  simp only [Fld.afterWrite, h]

theorem Fld.afterWrite_w1c {f : Fld} (h : f.info.acc = .w1c) (w old : Nat) :
    f.afterWrite w old = (old ^^^ (old &&& bits w f.info.lo f.info.w)) % 2 ^ f.info.w := by
  simp only [Fld.afterWrite, h]

theorem Fld.afterWrite_other {f : Fld} (hrw : f.info.acc ≠ .rw) (hw1c : f.info.acc ≠ .w1c) (w old : Nat) :
    f.afterWrite w old = old := by
  unfold Fld.afterWrite
  split <;> simp_all

theorem bit_eq_testBit (n k : Nat) : bit n k = n.testBit k := by
  rw [bit, Nat.testBit_eq_decide_div_mod_eq]
  rfl

theorem testBit_bits (n lo w k : Nat) : (bits n lo w).testBit k = (decide (k < w) && n.testBit (lo + k)) := by
  rw [bits, Nat.testBit_mod_two_pow, Nat.testBit_div_two_pow, Nat.add_comm]

theorem Fld.bit_afterWrite_w1c {f : Fld} (h : f.info.acc = .w1c) (w old : Nat) {k : Nat} (hk : k < f.info.w) :
    bit (f.afterWrite w old) k = (bit old k && !bit w (f.info.lo + k)) := by
  simp only [Fld.afterWrite_w1c h, bit_eq_testBit, Nat.testBit_mod_two_pow, Nat.testBit_xor, Nat.testBit_and, testBit_bits, hk,
    decide_true, Bool.true_and]
  cases old.testBit k <;> simp

theorem Dev.rd_fieldWrite_self (d : Dev) (i w : Nat) (f : Fld) : (d.fieldWrite i w f).rd f i = f.afterWrite w (d.rd f i) := by
  unfold Dev.fieldWrite
  split
  case h_1 hrw => rw [Fld.afterWrite_rw hrw, Dev.rd_wr_self, Fld.slice, bits, Nat.mod_mod]
  case h_2 hw1c => rw [Fld.afterWrite_w1c hw1c, Dev.rd_wr_self]; rfl
  case h_3 hrw hw1c => rw [Fld.afterWrite_other hrw hw1c]

theorem Dev.rd_fieldWrite_ne (d : Dev) {i j : Nat} (w : Nat) {f g : Fld} (h : ¬(g = f ∧ j = i)) :
    (d.fieldWrite i w f).rd g j = d.rd g j := by
  unfold Dev.fieldWrite
  split
  case h_1 | h_2 => exact Dev.rd_wr_ne d _ h
  case h_3 => rfl

theorem Dev.fieldWrite_regs (d : Dev) (i w : Nat) (f : Fld) : ∃ t, d.fieldWrite i w f = { d with regs := t } := by
  unfold Dev.fieldWrite
  split <;> exact ⟨_, rfl⟩

/-- Writing fields one after another leaves a field that is none of them, and every field at another index. -/
theorem Dev.rd_fieldWrites_ne (fs : List Fld) (d : Dev) {i j : Nat} (w : Nat) {g : Fld} (h : g ∈ fs → j ≠ i) :
    (fs.foldl (fun d f => d.fieldWrite i w f) d).rd g j = d.rd g j := by
  induction fs generalizing d with
  | nil => rfl
  | cons f fs ih =>
    rw [List.foldl_cons, ih _ fun hg => h (List.mem_cons_of_mem _ hg),
      Dev.rd_fieldWrite_ne d w fun e => h (List.mem_cons.mpr (.inl e.1)) e.2]

/-- Of fields written one after another each receives its own part. -/
theorem Dev.rd_fieldWrites_mem {fs : List Fld} (hfs : fs.Nodup) (d : Dev) (i w : Nat) {g : Fld} (h : g ∈ fs) :
    (fs.foldl (fun d f => d.fieldWrite i w f) d).rd g i = g.afterWrite w (d.rd g i) := by
  induction fs generalizing d with
  | nil => cases h
  | cons f fs ih =>
    obtain ⟨hf, hrest⟩ := List.nodup_cons.mp hfs
    rw [List.foldl_cons]
    rcases List.mem_cons.mp h with rfl | hg
    · rw [Dev.rd_fieldWrites_ne fs _ w fun hg => absurd hg hf, Dev.rd_fieldWrite_self]
    · have hne : g ≠ f := fun e => hf (e ▸ hg)
      rw [ih hrest _ hg, Dev.rd_fieldWrite_ne d w fun e => hne e.1]

theorem Dev.fieldWrites_regs (fs : List Fld) (d : Dev) (i w : Nat) :
    ∃ t, fs.foldl (fun d f => d.fieldWrite i w f) d = { d with regs := t } := by
  induction fs generalizing d with
  | nil => exact ⟨_, rfl⟩
  | cons f fs ih =>
    obtain ⟨t, ht⟩ := d.fieldWrite_regs i w f
    obtain ⟨u, hu⟩ := ih { d with regs := t }
    exact ⟨u, by rw [List.foldl_cons, ht, hu]⟩

theorem Reg.flds_nodup (r : Reg) : r.info.flds.Nodup := by
  refine r.flds_descend.imp fun {f g} hle heq => ?_
  subst heq
  have := f.in_word
  omega

theorem Dev.rd_plainWrite_mem (d : Dev) {r : Reg} (i w : Nat) {f : Fld} (h : f ∈ r.info.flds) :
    (d.plainWrite r i w).rd f i = f.afterWrite w (d.rd f i) := Dev.rd_fieldWrites_mem r.flds_nodup d i w h

theorem Dev.rd_plainWrite_ne (d : Dev) {r : Reg} {i j : Nat} (w : Nat) {f : Fld} (h : f ∈ r.info.flds → j ≠ i) :
    (d.plainWrite r i w).rd f j = d.rd f j := Dev.rd_fieldWrites_ne r.info.flds d w h

/-- A plain write changes register fields only. -/
theorem Dev.plainWrite_regs (d : Dev) (r : Reg) (i w : Nat) : d.plainWrite r i w = { d with regs := (d.plainWrite r i w).regs } := by
  obtain ⟨t, ht⟩ : ∃ t, d.plainWrite r i w = { d with regs := t } := Dev.fieldWrites_regs r.info.flds d i w
  rw [ht]

/-! ### Reserved bits (R15) -/

/-- A field's value placed below what is composed so far: the bits outside the field stay. -/
theorem testBit_add_field {acc lo w v k : Nat} (hacc : 2 ^ (lo + w) ∣ acc) (hk : k < lo ∨ lo + w ≤ k) :
    (acc + v % 2 ^ w * 2 ^ lo).testBit k = acc.testBit k := by
  obtain ⟨q, rfl⟩ := hacc
  have hlt : v % 2 ^ w * 2 ^ lo < 2 ^ (lo + w) := by
    rw [Nat.add_comm lo, Nat.pow_add]
    exact Nat.mul_lt_mul_of_pos_right (Nat.mod_lt _ (Nat.two_pow_pos w)) (Nat.two_pow_pos lo)
  rw [Nat.testBit_two_pow_mul_add _ hlt, Nat.testBit_two_pow_mul]
  rcases hk with hk | hk
  · have hw : k < lo + w := by omega
    simp [hw, Nat.testBit_mul_two_pow, Nat.not_le.mpr hk, Nat.not_le.mpr hw]
  · simp [hk, Nat.not_lt.mpr hk]

/-- Fields listed from the highest bit down leave the bits that none of them covers as they were. -/
theorem testBit_composeFrom {fs : List Fld} (hfs : fs.Pairwise fun f g => g.info.lo + g.info.w ≤ f.info.lo) (val : Fld → Nat) {k : Nat}
    (hk : ∀ f ∈ fs, k < f.info.lo ∨ f.info.lo + f.info.w ≤ k) {acc : Nat} (hacc : ∀ f ∈ fs, 2 ^ (f.info.lo + f.info.w) ∣ acc) :
    (fs.foldl (fun acc f => acc + val f % 2 ^ f.info.w * 2 ^ f.info.lo) acc).testBit k = acc.testBit k := by
  induction fs generalizing acc with
  | nil => rfl
  | cons f fs ih =>
    obtain ⟨hbelow, hrest⟩ := List.pairwise_cons.mp hfs
    obtain ⟨hkf, hkrest⟩ := List.forall_mem_cons.mp hk
    obtain ⟨haccf, haccrest⟩ := List.forall_mem_cons.mp hacc
    have hdvd : ∀ g ∈ fs, 2 ^ (g.info.lo + g.info.w) ∣ acc + val f % 2 ^ f.info.w * 2 ^ f.info.lo := fun g hg =>
      (haccrest g hg).add ((Nat.pow_dvd_pow 2 (hbelow g hg)).mul_left _)
    rw [List.foldl_cons, ih hrest hkrest hdvd, testBit_add_field haccf hkf]

theorem Dev.bit_word_reserved (d : Dev) (r : Reg) (i : Nat) {k : Nat}
    (h : ∀ f ∈ r.info.flds, k < f.info.lo ∨ f.info.lo + f.info.w ≤ k) : bit (d.word r i) k = false := by
  rw [bit_eq_testBit, Dev.word, composeWord, testBit_composeFrom r.flds_descend _ h fun _ _ => dvd_zero _, Nat.zero_testBit]

end Sys2Proof.Machine
end

section
/-! The statements of 00_scope that hold. -/

namespace Sys2Proof.Machine

/-- Settles O15: each clause is one rule of an access, after its address has been decoded. -/
theorem registerAccesses : Obligations.RegisterAccesses := by
  unfold Obligations.RegisterAccesses
  refine ⟨?oneWrite, ?twoWrites, ?refusedWrite, ?readThenWrite, ?snapshotRead, ?refusedRead, ?wordRead, ?holeRead, ?slowCommit,
    ?slowIdle, ?compareTarget⟩
  case oneWrite =>
    rintro s _ x r i rfl hok htarget
    rw [exec_registerWrite, Dev.busAccesses_writes, Dev.busWrites_reg hok htarget]
  case twoWrites =>
    rintro s _ x y r i rfl hlt ⟨hcx, hcy⟩ hokx hoky htx hty
    rw [exec_registerWrite, Dev.busAccesses_writes, Dev.busWrites_two hlt hcx hcy hokx hoky htx hty, Dev.offsetWrite_reg htx]
  case refusedWrite =>
    rintro s _ x rfl hbad
    rw [exec_registerWrite, Dev.busAccesses_writes, Dev.busWrites_refused hbad]
  case readThenWrite =>
    rintro s _ x y r i rfl hoky hty hword hokx htx
    rw [exec_registerWrite, Dev.busAccesses_read, Dev.busRead_word hoky hty hword, Dev.busWrites_reg hokx htx]
  case snapshotRead =>
    rintro s _ m a size r i rfl hok htarget hsnap
    rw [exec_snapshotRead, Dev.busRead_snapped hok htarget hsnap]
  case refusedRead =>
    rintro s _ m a size rfl hbad
    rw [exec_snapshotRead, Dev.busRead_refused hbad]
  case wordRead =>
    rintro s _ m a size r i rfl hok htarget hword
    rw [exec_clearOnRead, Dev.busRead_word hok htarget hword]
  case holeRead =>
    rintro s _ m a size rfl hok htarget
    rw [exec_clearOnRead, Dev.busRead_hole hok htarget]
  case slowCommit =>
    rintro s _ p rfl hslow
    rw [exec_slowWriteCommit, Dev.slowCommit_some hslow]
  case slowIdle =>
    rintro s _ rfl hslow
    rw [exec_slowWriteCommit, Dev.slowCommit_none hslow]
  case compareTarget =>
    rintro s _ m u w rfl
    rw [exec_compareTargetWrite, Dev.regWrite_compareTarget]
    rfl

/-- Settles O48: a plain write is a fold over fields that do not repeat, so each is written once, by its own access code; and a word
is composed of fields that do not overlap. -/
theorem accessCodes : Obligations.AccessCodes := by
  unfold Obligations.AccessCodes
  refine ⟨?rwField, ?w1cField, ?otherField, ?registersOnly, ?reservedBits, ?plainRegister⟩
  case rwField =>
    intro d r i w f hf hacc
    rw [Dev.rd_plainWrite_mem d i w hf, Fld.afterWrite_rw hacc]
  case w1cField =>
    intro d r i w k f hf hacc hk
    rw [Dev.rd_plainWrite_mem d i w hf, Fld.bit_afterWrite_w1c hacc _ _ hk]
  case otherField =>
    intro d r i w j f hother
    by_cases hwritten : f ∈ r.info.flds ∧ j = i
    · obtain ⟨hf, rfl⟩ := hwritten
      obtain ⟨hrw, hw1c⟩ := hother hf rfl
      rw [Dev.rd_plainWrite_mem d j w hf, Fld.afterWrite_other hrw hw1c]
    · exact Dev.rd_plainWrite_ne d w fun hf hj => hwritten ⟨hf, hj⟩
  case registersOnly => exact Dev.plainWrite_regs
  case reservedBits =>
    intro d r i k hk
    exact d.bit_word_reserved r i hk
  case plainRegister =>
    rintro s _ x r i rfl hok htarget hplain
    rw [exec_registerWrite, Dev.busAccesses_writes, Dev.busWrites_reg hok htarget, Dev.regWrite_of_plain hplain]

end Sys2Proof.Machine
end

section
/-! The disks' safety while the angle base is not valid (R21, R87): settling a device establishes it, whatever the device was. -/

namespace Sys2Proof.Machine

/-- Safety speaks of the angle base's state, the sequencers, the lanes and the writers' DRIVING bits alone. -/
theorem State.Safe.of_same_gates {s t : State} (hs : s.Safe) (hvalid : t.dev.angValid = s.dev.angValid)
    (hfsq : t.dev.fsq = s.dev.fsq) (hlanes : t.dev.lanes = s.dev.lanes)
    (hdriving : ∀ h, t.dev.rd .WRF_SSTAT_DRIVING h = s.dev.rd .WRF_SSTAT_DRIVING h) : t.Safe := by
  unfold State.Safe Dev.lane at *
  simpa only [hvalid, hfsq, hlanes, hdriving] using hs

/-- A device on which the interlock has acted leaves the disks alone or has a valid angle base. -/
theorem State.safe_of_interlock {s : State} {d : Dev} (hs : s.dev = d.interlock) : s.Safe := by
  unfold State.Safe
  rw [hs]
  by_cases hvalid : d.angValid = true
  · have hstill : d.interlock = d := by rw [Dev.interlock, if_pos hvalid]
    exact .inl (hstill.symm ▸ hvalid)
  · exact .inr (Dev.interlock_shut hvalid)

/-- Showing CRICKET's run condition moves no gate, so settling is as safe as the interlock within it. -/
theorem State.safe_of_settle {s : State} {d : Dev} (hs : s.dev = d.settle) : s.Safe := by
  have hinterlock : ({ s with dev := d.interlock } : State).Safe := State.safe_of_interlock rfl
  refine hinterlock.of_same_gates ?valid (by rw [hs]; rfl) (by rw [hs]; rfl) fun h => ?driving
  case valid => simp [hs, Dev.settle, Dev.angValid, Dev.wrb]
  case driving => simp [hs, Dev.settle, Dev.wrb]

/-- Dropping a safe device's outputs, as TEST_MODE does (R706), leaves it safe. -/
theorem State.safe_of_held {s t : State} (hs : s.Safe) (ht : t.dev = { s.dev with out := [] }) : t.Safe :=
  hs.of_same_gates (by rw [ht]; rfl) (by rw [ht]) (by rw [ht]) fun h => by rw [ht]; rfl

end Sys2Proof.Machine
end

section
/-! The statements of 01_architecture that hold. -/

namespace Sys2Proof.Machine

/-- Settles O46: a step ends in a settled device, which the interlock has made safe, or in the device TEST_MODE holds, which was safe. -/
theorem stepKeepsGatesSafe : Obligations.StepKeepsGatesSafe := by
  unfold Obligations.StepKeepsGatesSafe
  intro s t hstep hbefore
  rcases step_settled hstep with ⟨d, hsettled⟩ | ⟨htest, hheld⟩
  · exact State.safe_of_settle hsettled
  · have hsafe : s.Safe := hbefore.resolve_left (by simp [htest])
    exact State.safe_of_held hsafe hheld

end Sys2Proof.Machine
end

section
/-! Addresses in register space at which no register stands (R50, R51), and what writing there does. -/

namespace Sys2Proof.Machine

/-- In a block window, outside the event buffer's, an offset that no register of the block stands at is a hole. -/
theorem targetOf_hole {o : Nat} {b : Block} (hblock : blockAt o = some b) (hevt : o < 0x38000 ∨ 0x40000 ≤ o)
    (hnone : ∀ r ∈ b.regs, r.at (foldAlias o) = none) (m : Nat) : targetOf m o = .hole := by
  have hwindow : ¬(0x38000 ≤ o ∧ o < 0x40000) := by omega
  have hregs : b.regs.findSome? (fun r => (r.at (foldAlias o)).map fun i => (r, i)) = none :=
    List.findSome?_eq_none_iff.mpr fun r hr => by rw [hnone r hr, Option.map_none]
  simp only [targetOf, hblock, hwindow, if_false, hregs]

/-- An offset in no block window is unassigned. -/
theorem targetOf_unassigned {o : Nat} (hblock : blockAt o = none) (m : Nat) : targetOf m o = .busError := by
  simp only [targetOf, hblock]

/-- Register space refuses every access to an unassigned range. -/
theorem Dev.busRefuses_unassigned (d : Dev) {m a : Nat} (htarget : targetOf m (regOffset a) = .busError) (size : Nat) :
    d.busRefuses m a size = true := by
  simp [Dev.busRefuses, htarget]

/-- It takes an aligned word access of an admitted master to any other place. -/
theorem Dev.busRefuses_word {d : Dev} {m a : Nat} (hadmits : d.admits m = true) (hregs : inRegs a = true) (halign : a % 4 = 0)
    (htarget : targetOf m (regOffset a) ≠ .busError) : d.busRefuses m a 4 = false := by
  simp [Dev.busRefuses, regAligned, hadmits, hregs, halign, htarget]

/-- A hole ignores writes. -/
theorem Dev.busWrites_hole {d : Dev} {x : RegWrite} (hok : d.busRefuses x.master.id x.addr 4 = false)
    (htarget : targetOf x.master.id (regOffset x.addr) = .hole) : d.busWrites [x] = d := by
  rw [Dev.busWrites_one hok, Dev.offsetWrite, htarget]

end Sys2Proof.Machine
end

section
/-! The reset register (R64), the quiesce and the resets (R649-R651, R666). -/

namespace Sys2Proof.Machine

theorem exec_warmResetRequest (key : BitVec 8) (s : State) :
    exec (.warmResetRequest key) s = .next (s.after (s.dev.met.rstCtl (key.toNat * 256 + 1))) := rfl

theorem exec_fullResetRequest (key : BitVec 8) (s : State) :
    exec (.fullResetRequest key) s = .next (s.after (s.dev.met.rstCtl (key.toNat * 256 + 2))) := rfl

theorem exec_quiesceEnd (after : Nat) (s : State) :
    exec (.quiesceEnd after) s = .next (s.after (s.dev.met.advance after).quiesceDone) := rfl

theorem exec_fullReset (after : Nat) (s : State) :
    exec (.fullReset after) s = .next (s.after (s.dev.met.advance after).fullResetNow) := rfl

/-! ### The reset register -/

/-- A write of SYS_RSTCTL with a wrong key changes nothing. -/
theorem Dev.rstCtl_wrongKey (d : Dev) {w : Nat} (hkey : bits w 8 8 ≠ 0x5A) : d.rstCtl w = d := by
  simp [Dev.rstCtl, hkey]

/-- With the right key, FULL requests the full reset, whatever WARM is. -/
theorem Dev.rstCtl_full (d : Dev) {w : Nat} (hkey : bits w 8 8 = 0x5A) (hfull : bit w 1 = true) :
    d.rstCtl w = (d.wr .SYS_RSTCTL_FULL 0 1).resetRequest 2 4 := by
  simp [Dev.rstCtl, hkey, hfull]

/-- With the right key, WARM alone requests the warm reset. -/
theorem Dev.rstCtl_warm (d : Dev) {w : Nat} (hkey : bits w 8 8 = 0x5A) (hfull : bit w 1 = false) (hwarm : bit w 0 = true) :
    d.rstCtl w = (d.wr .SYS_RSTCTL_WARM 0 1).resetRequest 1 1 := by
  simp [Dev.rstCtl, hkey, hfull, hwarm]

/-- The word of a reset request carries its key in bits [15:8]. -/
theorem bits_resetWord (key : BitVec 8) {n : Nat} (hn : n < 256) : bits (key.toNat * 256 + n) 8 8 = key.toNat := by
  have := key.isLt
  simp only [bits]
  omega

theorem bits_resetWord_ne {key : BitVec 8} (hkey : key ≠ 0x5A) {n : Nat} (hn : n < 256) : bits (key.toNat * 256 + n) 8 8 ≠ 0x5A := by
  rw [bits_resetWord key hn]
  exact fun h => hkey (BitVec.eq_of_toNat_eq h)

/-- A write of SYS_RSTCTL acts at once. -/
theorem Dev.regWrite_rstCtl (d : Dev) (m w : Nat) : d.regWrite m .SYS_RSTCTL 0 w = d.rstCtl w :=
  Dev.regWrite_direct d m 0 w (by decide)

/-! ### The quiesce and the full reset -/

/-- A reset of kind `kind` stands as requested, with the started units it waits for: the quiesce has begun and jobs stop at their atomic
units (R666). -/
def Dev.quiesceBegun (d : Dev) (kind cause : Nat) (units : Tab PfUnit) : Dev :=
  (({ d with cfg := { d.cfg with kind := kind, cause := cause, quiet := false, units := units } }).beginWait .quiesce).stopAtUnits fun _ => true

/-- A request of a higher kind than what waits is taken; the quiesce ends at once in the safe state, while the angle base is invalid, and
where an earlier one was over (R651, R666). -/
theorem Dev.resetRequest_taken {d : Dev} {kind : Nat} (cause : Nat) (hkind : d.cfg.kind < kind) {e : Dev}
    (he : e = d.quiesceBegun kind cause
      (if kind = 2 ∧ d.on .FLT_STAT_SAFE then [] else if d.cfg.kind = 0 then d.unitsNow else d.cfg.units)) :
    d.resetRequest kind cause = if d.cfg.quiet || d.on .FLT_STAT_SAFE || !e.angValid then e.quiesceEnd false else e := by
  rw [Dev.resetRequest, if_neg (Nat.not_le.mpr hkind), he]
  rfl

/-- Outside the safe state a first request waits for the units that have started, unless the angle base is invalid (R666). -/
theorem Dev.resetRequest_first {d : Dev} {kind cause : Nat} (hsafe : d.rd .FLT_STAT_SAFE = 0) (hnone : d.cfg.kind = 0)
    (hquiet : d.cfg.quiet = false) (hkind : 0 < kind) {e : Dev} (he : e = d.quiesceBegun kind cause d.unitsNow) :
    d.resetRequest kind cause = if e.angValid then e else e.quiesceEnd false := by
  have hon : d.on .FLT_STAT_SAFE = false := by simp [Dev.on, hsafe]
  rw [Dev.resetRequest_taken cause (hnone ▸ hkind) (e := e) (by simp [he, hon, hnone]), hquiet, hon]
  cases e.angValid <;> rfl

/-- In the safe state a full reset runs no quiesce (R651). -/
theorem Dev.resetRequest_safe {d : Dev} {cause : Nat} (hsafe : d.rd .FLT_STAT_SAFE ≠ 0) (hkind : d.cfg.kind ≤ 1) :
    d.resetRequest 2 cause = (d.quiesceBegun 2 cause []).quiesceEnd false := by
  have hon : d.on .FLT_STAT_SAFE = true := by simp [Dev.on, hsafe]
  rw [Dev.resetRequest_taken cause (Nat.lt_succ_of_le hkind) (e := d.quiesceBegun 2 cause []) (by simp [hon]), hon, Bool.or_true,
    Bool.true_or, if_pos rfl]

/-- The quiesce ends with its records once the units have passed or its 100 ms have (R666). -/
theorem Dev.quiesceDone_due {d : Dev} (hkind : d.cfg.kind ≠ 0) (hquiet : d.cfg.quiet = false)
    (hdue : d.waited .quiesce 125000000 = true ∨ ∀ e ∈ d.cfg.units, e.2.whole = true) : d.quiesceDone = d.quiesceEnd true := by
  have hpassed : (d.waited .quiesce 125000000 || d.unitsPassed) = true := by
    simpa [Dev.unitsPassed] using hdue
  simp [Dev.quiesceDone, hkind, hquiet, hpassed]

/-- A full reset acts once the quiesce, the retracts and the flush, or its 10 ms, are over (R651). -/
theorem Dev.fullResetNow_due {d : Dev} (hkind : d.cfg.kind = 2) (hquiet : d.cfg.quiet = true)
    (hretracted : ∀ a, a < 4 → (d.act a).retract = false) (hflush : d.waited .flush 12500000 = true ∨ d.flushed = true) :
    d.fullResetNow = d.fullReset := by
  have hdue : d.resetDue 2 = true := by
    simpa [Dev.resetDue, hkind, hquiet, hflush] using hretracted
  rw [Dev.fullResetNow, if_pos hdue]

end Sys2Proof.Machine
end

section
/-! The state after reset (R650). -/

namespace Sys2Proof.Machine

/-- At reset no register field is listed, so each reads its reset value (R650). -/
theorem State.rd_reset (f : Fld) (i : Nat) : State.reset.dev.rd f i = f.reset i := rfl

/-- No sequencer, lane or writer is listed as acting at reset, though the angle base is OFF. -/
theorem State.reset_safe : State.reset.Safe := by
  refine .inr ⟨?sequencers, ?lanes, ?writers⟩
  case sequencers => exact fun _ _ hmem => absurd hmem List.not_mem_nil
  case lanes => exact fun _ => ⟨rfl, rfl⟩
  case writers => exact fun _ _ => rfl

/-- No handover has started CRICKET at reset. -/
theorem State.reset_cricketShown : State.reset.CricketShown := by
  have hoff : State.reset.dev.flt.crkOn = false := rfl
  have hshown : State.reset.dev.rd .FLT_STAT_CRKRUN = 0 := rfl
  simp [State.CricketShown, hoff, hshown]

end Sys2Proof.Machine
end

section
/-! The host windows (R66-R71), route writes (R109-R112) and the format's registers (R196). -/

namespace Sys2Proof.Machine

theorem exec_bar2Write (p : Fin 2) (off size : Nat) (w : Word) (others : List RegWrite) (s : State) :
    exec (.bar2Write p off size w others) s = .next (s.after (s.dev.met.bar2Write p off size w others)) := rfl

theorem exec_bar2Read (p : Fin 2) (off size : Nat) (s : State) :
    exec (.bar2Read p off size) s = .next (s.after (s.dev.met.bar2Read p off size)) := rfl

theorem exec_bar2Relock (p : Fin 2) (s : State) :
    exec (.bar2Relock p) s = .next (s.after (s.dev.met.lockBar2 p.val 1)) := rfl

theorem exec_bar2WindowExpiry (p : Fin 2) (after : Nat) (s : State) :
    exec (.bar2WindowExpiry p after) s = .next (s.after ((s.dev.met.advance after).windowExpiry p.val)) := rfl

theorem exec_laneRouteWrite (l : List RouteWrite) (granted : List (Fin 64)) (s : State) :
    exec (.laneRouteWrite l granted) s = .next (s.after (s.dev.met.routeWrites l granted)) := rfl

theorem exec_tpeLockedWrite (m : Master) (k : Fin 8) (w : Word) (s : State) :
    exec (.tpeLockedWrite m k w) s =
      .next (s.after (s.dev.met.regWrite m.id (formatRegs.getD k.val .TPE_ZONEBASE) 0 w.toNat)) := rfl

/-! ### The host windows -/

theorem Master.id_bar2 (p : Fin 2) : (Master.bar2 p).id = 22 + p.val := rfl

/-- A write that the window discards is counted and recorded, behind what other masters write in its cycle. -/
theorem Dev.bar2Write_discarded {d : Dev} {p : Fin 2} {off size : Nat} (h : d.bar2Discards p.val off size = true) (w : Word)
    (others : List RegWrite) : d.bar2Write p off size w others =
      ((d.busWrites others).stick (wdropFld p.val)).event 0x302 p.val off w.toNat 0 := if_pos h

/-- Any other is a write of the port's master. -/
theorem Dev.bar2Write_taken {d : Dev} {p : Fin 2} {off size : Nat} (h : d.bar2Discards p.val off size = false) (w : Word)
    (others : List RegWrite) : d.bar2Write p off size w others =
      d.busWrites ({ master := .bar2 p, addr := regBase + off, data := w } :: others) := if_neg (by simp [h])

/-- A read that is not a single aligned DWORD is not supported (R71). -/
theorem Dev.bar2Read_unsupported {d : Dev} {p : Fin 2} {off size : Nat} (h : regAligned off size = false) :
    d.bar2Read p off size = d.emit (.unsupported p.val) := by
  simp [Dev.bar2Read, h]

/-- An aligned read of an unassigned range, or before the port's master is admitted, is aborted (R63, R71). -/
theorem Dev.bar2Read_aborted {d : Dev} {p : Fin 2} {off size : Nat} (hport : d.portExists p.val = true)
    (halign : regAligned off size = true) (hoff : off < 2 ^ 24)
    (h : d.admits (22 + p.val) = false ∨ targetOf (22 + p.val) off = .busError) :
    d.bar2Read p off size = d.emit (.completerAbort p.val) := by
  have hin : ¬2 ^ 24 ≤ off := Nat.not_le.mpr hoff
  have hbad : (!d.admits (22 + p.val) || targetOf (22 + p.val) off == .busError) = true := by simpa using h
  simp only [Dev.bar2Read, hport, halign, hin, hbad, decide_false, Bool.not_true, Bool.or_self, Bool.false_eq_true, if_false, if_true]

/-- Any other read is one of the port's master, without side effects while the window is locked (R68). -/
theorem Dev.bar2Read_taken {d : Dev} {p : Fin 2} {off size : Nat} (hport : d.portExists p.val = true)
    (hadmits : d.admits (22 + p.val) = true) (halign : regAligned off size = true) (hoff : off < 2 ^ 24)
    (htarget : targetOf (22 + p.val) off ≠ .busError) :
    d.bar2Read p off size = d.regRead (22 + p.val) off (Tab.look d.bus.unlock p.val).isSome := by
  have hin : ¬2 ^ 24 ≤ off := Nat.not_le.mpr hoff
  have hgood : (!d.admits (22 + p.val) || targetOf (22 + p.val) off == .busError) = false := by simpa [hadmits] using htarget
  simp only [Dev.bar2Read, hport, halign, hin, hgood, decide_false, Bool.not_true, Bool.or_self, Bool.false_eq_true, if_false]

/-- The window of a port locks, and is recorded with a cause, where it was unlocked (R69). -/
theorem Dev.lockBar2_unlocked {d : Dev} {p : Nat} (h : (Tab.look d.bus.unlock p).isSome = true) (cause : Nat) :
    d.lockBar2 p cause = ({ d with bus := { d.bus with unlock := Tab.del d.bus.unlock p } }).event 0x301 p cause 0 0 :=
  if_neg (by simpa [Option.isSome_iff_ne_none] using h)

theorem Dev.windowExpiry_due {d : Dev} {p : Nat} (h : d.waited (.bar2 p) (Tab.getD d.bus.unlock p 0 * 1250000000) = true) :
    d.windowExpiry p = d.lockBar2 p 0 := if_pos h

/-! ### Route writes -/

/-- Without a dropped write no conflict is recorded. -/
@[simp] theorem Dev.conflict_nil (d : Dev) : d.conflict [] = d := rfl

/-- The address of LNX_ROUTE of a lane names that lane. -/
theorem lane_of_routeAddr (l : Fin 64) : regOffset (regBase + 0x110100 + 4 * l.val) % 0x100 / 4 = l.val := by
  have := l.isLt
  simp only [regOffset, regBase]
  omega

/-- One admitted write of LNX_ROUTE is checked and made pending or refused (R111). -/
theorem Dev.routeWrites_one {d : Dev} {x : RouteWrite} (h : d.admits x.master.id = true) (granted : List (Fin 64)) :
    d.routeWrites [x] granted = d.routeWrite x.lane.val x.data.toNat ((granted.map Fin.val).contains x.lane.val) := by
  simp only [Dev.routeWrites, List.map_cons, List.map_nil, busCycles_single, List.foldl_nil]
  simp only [List.filter, h, Bool.not_true, beatenBy_single, List.filterMap, Option.map_none, Option.isNone_none, List.foldl,
    List.mergeSort, Dev.conflict_nil, lane_of_routeAddr]

/-- A route that no check refuses is buffered. -/
theorem Dev.routeWrite_passed {d : Dev} {l w : Nat} {granted : Bool} (h : d.routeCheck l w granted = (false, false, false)) :
    d.routeWrite l w granted = d.buffer .LNX_ROUTE l (BitVec.ofNat 32 (w % 2048)) := by
  simp [Dev.routeWrite, h]

/-- One that a check refuses is recorded with the checks' bits. -/
theorem Dev.routeWrite_refused {d : Dev} {l w : Nat} {granted : Bool} {v : Bool × Bool × Bool} (hcheck : d.routeCheck l w granted = v)
    (h : (v.1 || v.2.1 || v.2.2) = true) : d.routeWrite l w granted = d.refuseRoute l w v := by
  simp only [Dev.routeWrite, hcheck, h, Bool.not_true, Bool.false_eq_true, if_false]

/-! ### The format's registers -/

theorem Dev.handed_iff (d : Dev) : d.handed = true ↔ d.rd .SYS_STAT_HANDOVER ≠ 0 := by
  simp [Dev.handed, Dev.on]

/-- After handover a write of a format register is ignored, with TPE_STAT.WIGN (R196). -/
theorem Dev.regWrite_format_closed {d : Dev} {r : Reg} (hr : r ∈ formatRegs) (h : d.handed = true) (m i w : Nat) :
    d.regWrite m r i w = d.stick .TPE_STAT_WIGN := by
  have hformat : formatRegs.contains r = true := List.contains_iff_mem.mpr hr
  simp only [Dev.regWrite, hformat, h, Bool.and_self, if_true]

/-- Before handover the base of the zone table is written as any register. -/
theorem Dev.regWrite_zoneBase {d : Dev} (h : d.handed = false) (m i w : Nat) :
    d.regWrite m .TPE_ZONEBASE i w = d.plainWrite .TPE_ZONEBASE i w := by
  rw [Dev.regWrite, h]
  rfl

theorem formatRegs_getD (k : Fin 8) : formatRegs.getD k.val .TPE_ZONEBASE ∈ formatRegs := by
  revert k; decide

end Sys2Proof.Machine
end

section
/-! Strobes (R45-R47), reader inputs (R108, R142) and lanes (R120-R137). -/

namespace Sys2Proof.Machine

theorem exec_deferredApply (after : Nat) (s : State) :
    exec (.deferredApply after) s = .next (s.after (s.dev.met.advance after).strobesNow) := rfl

theorem exec_routeApply (after : Nat) (s : State) :
    exec (.routeApply after) s = .next (s.after (s.dev.met.advance after).strobesNow) := rfl

theorem exec_rdiCtlWrite (n : Fin 256) (w : Word) (s : State) :
    exec (.rdiCtlWrite n w) s = .next (s.after (s.dev.met.rdiCtl n.val w.toNat)) := rfl

theorem exec_readerInputFault (n : Fin 256) (isOpen : Bool) (s : State) :
    exec (.readerInputFault n isOpen) s = .next (s.after (s.dev.met.inputFault n.val isOpen)) := rfl

theorem exec_readerInputFaultClear (n : Fin 256) (isOpen : Bool) (s : State) :
    exec (.readerInputFaultClear n isOpen) s = .next (s.after (s.dev.met.inputClear n.val isOpen)) := rfl

theorem exec_overrange (l : Fin 64) (first last : Nat) (s : State) :
    exec (.overrange l first last) s = .next (s.after (s.dev.met.overrange l.val first last)) := rfl

theorem exec_laneForceout (n : Fin 64) (s : State) :
    exec (.laneForceout n) s = .next (s.after (s.dev.met.laneForceout n.val)) := rfl

theorem exec_laneReadmit (n : Fin 64) (s : State) :
    exec (.laneReadmit n) s = .next (s.after (s.dev.met.laneReadmit n.val)) := rfl

theorem exec_laneRecal (n : Fin 64) (s : State) : exec (.laneRecal n) s = .next (s.after (s.dev.met.laneRecal n.val)) := rfl

theorem exec_deferredRecal (n : Fin 64) (s : State) :
    exec (.deferredRecal n) s = .next (s.after (s.dev.met.deferredRecal n.val)) := rfl

theorem exec_laneFault (n : Fin 64) (k : LaneFault) (s : State) :
    exec (.laneFault n k) s = .next (s.after (s.dev.met.laneFault n.val k)) := rfl

theorem exec_laneCalibrationEnd (n : Fin 64) (m : LaneCal) (s : State) :
    exec (.laneCalibrationEnd n m) s = .next (s.after (s.dev.met.laneCalEnd n m)) := rfl

theorem exec_servoGateOpen (l : Fin 64) (s : State) :
    exec (.servoGateOpen l) s = .next (s.after (s.dev.met.servoGateOpen l.val)) := rfl

theorem exec_servoGateClose (l : Fin 64) (s : State) :
    exec (.servoGateClose l) s = .next (s.after (s.dev.met.servoGateClose l.val)) := rfl

/-! ### Strobes -/

theorem Dev.angValid_iff (d : Dev) : d.angValid = true ↔ d.rd .ANG_STAT_STATE = 2 := by
  simp [Dev.angValid, abuLocked]

theorem Dev.angValid_eq_false {d : Dev} (h : d.rd .ANG_STAT_STATE ≠ 2) : d.angValid = false :=
  Bool.eq_false_iff.mpr fun hvalid => h (d.angValid_iff.mp hvalid)

/-- No strobe falls while the angle base is not valid (R47, R92). -/
theorem Dev.strobesNow_invalid {d : Dev} (h : d.rd .ANG_STAT_STATE ≠ 2) : d.strobesNow = d := by
  have hnone : ∀ o, d.strobeNow o = none := fun o => by simp [Dev.strobeNow, h]
  simp [Dev.strobesNow, hnone]

/-- What is due at a strobe, routes first. -/
def Dev.dueNow (d : Dev) (x : Strobe) : List PendW := routesFirst (d.bus.pend.filter (d.due x))

/-- The device without the buffered values that are due at a strobe. -/
def Dev.dueTaken (d : Dev) (x : Strobe) : Dev :=
  { d with bus := { d.bus with pend := d.bus.pend.filter fun p => !(d.dueNow x).contains p } }

/-- The device with a strobe's values applied, all at once (R46). -/
def Dev.applyDue (d : Dev) (x : Strobe) : Dev := (d.dueNow x).foldl (fun y p => y.applyOne (d.dueNow x) p) (d.dueTaken x)

/-- Each pair that gets a route at a strobe is looked at again (R110, R113). -/
def Dev.routesTaken (d : Dev) (x : Strobe) (e : Dev) : Dev :=
  (((d.dueNow x).filter fun p => p.reg == .LNX_ROUTE).map fun p => p.idx / 2).foldl (fun y m => (y.evalDual m).guideTaken m) e

/-- At a strobe that leaves every writer its owner, what is due applies. -/
theorem Dev.strobe_unbound {d : Dev} {x : Strobe} (hvalid : d.angValid = true) (hbind : (d.dueTaken x).bindWriter x.owner = d.dueTaken x) :
    d.strobe x = d.routesTaken x (d.applyDue x) := by
  have hfalls : d.strobe x =
      d.routesTaken x ((d.dueNow x).foldl (fun y p => y.applyOne (d.dueNow x) p) ((d.dueTaken x).bindWriter x.owner)) :=
    if_neg (by simp [hvalid])
  rw [hfalls, hbind]
  rfl

/-- A head that no slot is bound to takes no writer. -/
theorem Dev.bindWriter_free {d : Dev} {h : Fin 128} (hslot : d.slotOfHead h.val = none) : d.bindWriter (.head h) = d := by
  rw [Dev.bindWriter, hslot]

/-- The strobe of a head that no slot is bound to, alone in its cycle. -/
theorem Dev.strobesNow_head {d : Dev} {x : Strobe} {h : Fin 128}
    (hone : allOwners.filterMap (fun o => (d.strobeNow o).map fun w => ({ owner := o, index := w == 0 } : Strobe)) = [x])
    (howner : x.owner = .head h) (hvalid : d.rd .ANG_STAT_STATE = 2) (hslot : d.slotOfHead h.val = none) :
    d.strobesNow = d.routesTaken x (d.applyDue x) := by
  have hbind : (d.dueTaken x).bindWriter x.owner = d.dueTaken x := by
    rw [howner]
    exact Dev.bindWriter_free hslot
  have hhead : (x.owner == .ref) = false := by rw [howner]; rfl
  simp only [Dev.strobesNow, hone, List.foldl_cons, List.foldl_nil, Dev.strobeAll, hhead, Bool.false_and, Bool.false_eq_true, if_false]
  exact Dev.strobe_unbound (d.angValid_iff.mpr hvalid) hbind

/-- Without routes the order of what is due stays. -/
theorem routesFirst_of_no_route {l : List PendW} (h : ∀ p ∈ l, p.reg ≠ .LNX_ROUTE) : routesFirst l = l := by
  have hroutes : ((List.range 64).flatMap fun n => l.filter fun p => p.reg == .LNX_ROUTE && p.idx == n) = [] := by
    simp only [List.flatMap_eq_nil_iff, List.filter_eq_nil_iff]
    intro n _ p hp
    simp [h p hp]
  have hrest : (l.filter fun p => p.reg != .LNX_ROUTE) = l :=
    List.filter_eq_self.mpr fun p hp => by simpa using h p hp
  rw [routesFirst, hroutes, hrest, List.nil_append]

/-- Without routes pending, a strobe gives no pair one. -/
theorem Dev.routesTaken_none {d : Dev} (h : ∀ p ∈ d.bus.pend, p.reg ≠ .LNX_ROUTE) (x : Strobe) (e : Dev) : d.routesTaken x e = e := by
  have hplain : ∀ p ∈ d.bus.pend.filter (d.due x), p.reg ≠ .LNX_ROUTE := fun p hp => h p (List.mem_of_mem_filter hp)
  have hnone : (d.dueNow x).filter (fun p => p.reg == .LNX_ROUTE) = [] := by
    rw [Dev.dueNow, routesFirst_of_no_route hplain]
    exact List.filter_eq_nil_iff.mpr fun p hp => by simpa using hplain p hp
  rw [Dev.routesTaken, hnone]
  rfl

/-! ### Reader inputs -/

/-- A write of RDI_CTL is taken while no lane holds the input (R142). -/
theorem Dev.rdiCtl_free {d : Dev} {n : Nat} (h : (List.range 64).any (fun l => d.holdsInput l n) = false) (w : Nat) :
    d.rdiCtl n w = ((d.wrb .RDI_CTL_DECL n (bit w 0)).wrb .RDI_CTL_TERM n (bit w 1)).wrb .RDI_CTL_INVERT n (bit w 2) :=
  if_neg (by simp [h])

/-- While one does, it is ignored with WIGN. -/
theorem Dev.rdiCtl_held {d : Dev} {n : Nat} (h : (List.range 64).any (fun l => d.holdsInput l n) = true) (w : Nat) :
    d.rdiCtl n w = d.stick .RDI_STAT_WIGN n := if_pos h

/-! ### Overrange -/

/-- The edge of lane `l` at which a run of overrange samples with the grid indices `first` to `last` began. -/
def Dev.runStart (d : Dev) (l first last : Nat) : Nat :=
  let spr := max 1 (d.spr (l / 2))
  d.edgeAt l last - (last % spr + spr - first % spr) % spr

/-- A run of overrange samples from edge `x` to `y` is noted, and the outputs it reaches are flagged (R126, R127). -/
def Dev.overNoted (d : Dev) (l x y : Nat) : Dev :=
  let overs := runsKept (max 1 (d.spr (l / 2))) x (d.lane l).overs ++ [{ first := x, last := y }]
  ((d.setLane l { d.lane l with ovrEnd := some y, overs := overs }).stick .LANE_STAT_OVR l).flagRun l x (y + 24)

/-- A run that begins at edge `x` of lane `l` is an event of its own: none came before, or more than 24 samples earlier (R126). -/
def Dev.startsEvent (d : Dev) (l x : Nat) : Bool :=
  match (d.lane l).ovrEnd with
  | some e => decide (e + 24 < x)
  | none => true

theorem Dev.startsEvent_first {d : Dev} {l : Nat} (h : (d.lane l).ovrEnd = none) (x : Nat) : d.startsEvent l x = true := by
  simp only [Dev.startsEvent, h]

theorem Dev.startsEvent_near {d : Dev} {l x prev : Nat} (h : (d.lane l).ovrEnd = some prev) (hnear : x ≤ prev + 24) :
    d.startsEvent l x = false := by
  simp only [Dev.startsEvent, h, decide_eq_false_iff_not, Nat.not_lt, hnear]

/-- A run of a sampling lane is noted, and counted in its track's record where it is an event (R126-R128). -/
theorem Dev.overrange_sampling {d : Dev} {l : Nat} (h : d.sampling l = true) (first last : Nat) :
    d.overrange l first last =
      (if d.startsEvent l (d.runStart l first last) then
          ((d.overNoted l (d.runStart l first last) (d.edgeAt l last)).count .LANE_OVRCNT_EVENTS l).ledgerOverrange l
        else d.overNoted l (d.runStart l first last) (d.edgeAt l last)).disturb l (d.runStart l first last) (d.edgeAt l last) :=
  if_neg (by simp [h])

/-- A lane that takes no samples notes nothing. -/
theorem Dev.overrange_idle {d : Dev} {l : Nat} (h : d.sampling l = false) (first last : Nat) : d.overrange l first last = d :=
  if_pos (by simp [h])

/-! ### Lane states -/

theorem Dev.laneForceout_acts {d : Dev} {n : Nat} (hoff : d.rd .LANE_STAT_STATE n ≠ 0) (hout : d.rd .LANE_STAT_STATE n ≠ 4) :
    d.laneForceout n = d.laneOut n := by
  simp [Dev.laneForceout, unitOff, unitOut, hoff, hout]

/-- A lane that is to calibrate is held by no grant (R134, R140). -/
theorem Dev.laneState_calibrating (d : Dev) (n : Nat) :
    d.laneState n unitCal = ((d.wr .LANE_STAT_STATE n 1).wr .LANE_STAT_HELD n 0).evalDual (n / 2) := rfl

theorem Dev.laneReadmit_out {d : Dev} {n : Nat} (h : d.rd .LANE_STAT_STATE n = 4) : d.laneReadmit n = d.laneState n unitCal :=
  if_pos (by simp [h, unitOut])

theorem Dev.laneRecal_free {d : Dev} {n : Nat} (hserv : d.rd .LANE_STAT_STATE n = 3) (hfree : d.rd .LANE_STAT_HELD n = 0) :
    d.laneRecal n = d.laneState n unitCal := by
  simp [Dev.laneRecal, Dev.on, hserv, hfree, unitServ]

theorem Dev.laneRecal_held {d : Dev} {n : Nat} (hserv : d.rd .LANE_STAT_STATE n = 3) (hheld : d.rd .LANE_STAT_HELD n ≠ 0) :
    d.laneRecal n = d.wr .LANE_STAT_RECALPEND n 1 := by
  simp [Dev.laneRecal, Dev.on, hserv, hheld, unitServ]

theorem Dev.deferredRecal_released {d : Dev} {n : Nat} (hserv : d.rd .LANE_STAT_STATE n = 3) (hfree : d.rd .LANE_STAT_HELD n = 0)
    (hpend : d.rd .LANE_STAT_RECALPEND n ≠ 0) :
    d.deferredRecal n = (d.wr .LANE_STAT_RECALPEND n 0).laneState n unitCal := by
  simp [Dev.deferredRecal, Dev.on, hserv, hfree, hpend, unitServ]

/-! ### Lane faults -/

/-- The status bit of a fault of one lane. -/
def faultFld : LaneFault → Fld
  | .stuck => .LANE_STAT_STUCK
  | .noclk => .LANE_STAT_NOCLK
  | .bankflt => .LANE_STAT_BANKFLT

/-- A fault of one lane in SERVICE puts it out and raises LANEFAIL (R136). -/
theorem Dev.laneFault_one {d : Dev} {n : Nat} {k : LaneFault} (hone : k ≠ .bankflt) (hserv : d.rd .LANE_STAT_STATE n = 3)
    (hmet : d.faultable n k = true) {e : Dev} (he : e = (d.wr (faultFld k) n 1).laneOut n) :
    d.laneFault n k = e.raise 2 n (e.word .LANE_STAT n) := by
  subst he
  cases k with
  | bankflt => exact absurd rfl hone
  | stuck | noclk => exact if_neg (by simp [hserv, hmet, unitServ])

/-- A bank fault puts out every lane of the bank that is in use, with one raise for them (R136, R618). -/
theorem Dev.laneFault_bank {d : Dev} {n l : Nat} {rest : List Nat}
    (h : (bankLanes (n / 4)).filter (fun k => d.rd .LANE_STAT_STATE k != 0 && d.rd .LANE_STAT_STATE k != 4) = l :: rest) {e : Dev}
    (he : e = (l :: rest).foldl (fun y k => (y.wr .LANE_STAT_BANKFLT k 1).laneOut k) d) :
    d.laneFault n .bankflt = e.raiseMany 2 l (rest.length + 1) (e.word .LANE_STAT l) 0 0 false := by
  subst he
  simp only [Dev.laneFault, unitOff, unitOut, h]
  rfl

/-! ### Calibration -/

/-- A lane in CALIBRATING whose bank is quiet and whose every step passes goes on to JOINING (R137, R139). -/
theorem Dev.laneCalEnd_passed {d : Dev} {n : Fin 64} {m : LaneCal} (hcal : d.rd .LANE_STAT_STATE n.val = 1)
    (hquiet : d.bankQuiet n.val = true)
    (hpass : m.offset.natAbs ≤ 8 ∧ m.tone.natAbs ≤ 10 ∧ m.dnl ≤ 32 ∧ m.corner = true ∧ m.reference = true) :
    d.laneCalEnd n m =
      ((((((d.wr .LANE_CAL_PASS n.val 15).wr .LANE_CAL_DNL n.val m.dnl).wr .LANE_CAL_TONE n.val (unsigned 8 m.tone)).wr
        .LANE_CAL_OFFSET n.val (unsigned 8 m.offset)).removeRoute n.val).laneState n.val unitJoin).beginWait (.joining (.lane n)) := by
  obtain ⟨hoffset, htone, hdnl, hcorner, hreference⟩ := hpass
  have hsteps : calSteps m true = [true, true, true, true] := by
    simp [calSteps, stepsPassed, hoffset, htone, hdnl, hcorner, hreference]
  simp only [Dev.laneCalEnd, hcal, hquiet, hsteps]
  rfl

/-- A residual offset above half an LSB fails the first step, and with it the lane (R137). -/
theorem Dev.laneCalEnd_offsetFails {d : Dev} {n : Fin 64} {m : LaneCal} (hcal : d.rd .LANE_STAT_STATE n.val = 1)
    (hoffset : 8 < m.offset.natAbs) {e : Dev}
    (he : e = (((((d.wr .LANE_CAL_PASS n.val 0).wr .LANE_CAL_DNL n.val m.dnl).wr .LANE_CAL_TONE n.val (unsigned 8 m.tone)).wr
        .LANE_CAL_OFFSET n.val (unsigned 8 m.offset)).wr .LANE_STAT_CALFAIL n.val 1).laneOut n.val) :
    d.laneCalEnd n m = e.raise 2 n.val (e.word .LANE_STAT n.val) := by
  have hfails : ¬m.offset.natAbs ≤ 8 := Nat.not_le.mpr hoffset
  have hsteps : ∀ four, calSteps m four = [false, false, false, false] := fun four => by
    simp [calSteps, stepsPassed, hfails]
  subst he
  simp only [Dev.laneCalEnd, hcal, hsteps]
  cases d.bankQuiet n.val <;> rfl

/-! ### Servo gates -/

/-- The servo gate of an even lane on a routed input opens at its place (R120). -/
theorem Dev.servoGateOpen_due {d : Dev} {l : Nat} (heven : l % 2 = 0) (hvalid : d.rd .ANG_STAT_STATE = 2)
    (hroute : d.rd .LNX_ROUTE_EN l ≠ 0) (hclosed : (d.lane l).servoAt = none)
    (hdue : d.servoDue l (fun j => rev - j.spg) = true) {e : Dev} (he : e = d.loopsRun l none) :
    d.servoGateOpen l = (e.setLane l { e.lane l with servoAt := some (e.laneEdge l) }).showFilter l := by
  subst he
  exact if_pos (by simp [heven, d.angValid_iff.mpr hvalid, Dev.on, hroute, hclosed, hdue])

/-- No servo gate opens while the angle base is not valid (R21). -/
theorem Dev.servoGateOpen_invalid {d : Dev} {l : Nat} (h : d.rd .ANG_STAT_STATE ≠ 2) : d.servoGateOpen l = d :=
  if_neg (by simp [Dev.angValid_eq_false h])

/-- An open servo gate closes at its place, and the equaliser restarts (R120, R123). -/
theorem Dev.servoGateClose_due {d : Dev} {l g : Nat} (hopen : (d.lane l).servoAt = some g) (hdue : d.servoDue l Job.svt = true) :
    d.servoGateClose l =
      (d.setLane l { (d.lane l).closeServo (d.laneEdge l) with loopAt := d.laneEdge l }).showFilter l := by
  rw [Dev.servoGateClose, if_pos hdue, Dev.endServo, hopen]
  rfl

end Sys2Proof.Machine
end

section
/-! The cycle that a command takes in a device at rest: each part of it leaves the device as it is, but for flags that show what waits
and whether CRICKET runs. -/

namespace Sys2Proof.Machine

/-- The fields that show what waits in SCH and whether CRICKET runs (R628, SCH_STAT). -/
def flagFlds : List Fld := [.SCH_STAT_ACWAIT, .SCH_STAT_PWRWAIT, .FLT_STAT_CRKRUN]

/-- `e` is `d` but for the flags: every other field reads the same, and nothing beside the register file differs. -/
def Dev.SameButFlags (d e : Dev) : Prop :=
  e = { d with regs := e.regs } ∧ ∀ (f : Fld) (i : Nat), f ∉ flagFlds → e.rd f i = d.rd f i

theorem Dev.SameButFlags.refl (d : Dev) : d.SameButFlags d := ⟨rfl, fun _ _ _ => rfl⟩

theorem Dev.SameButFlags.trans {a b c : Dev} (hab : a.SameButFlags b) (hbc : b.SameButFlags c) : a.SameButFlags c := by
  obtain ⟨hb, hrdb⟩ := hab
  obtain ⟨hc, hrdc⟩ := hbc
  refine ⟨?_, fun f i hf => (hrdc f i hf).trans (hrdb f i hf)⟩
  rw [hb] at hc
  exact hc

theorem Dev.sameButFlags_wr_flag (d : Dev) {f : Fld} (hf : f ∈ flagFlds) (i v : Nat) : d.SameButFlags (d.wr f i v) :=
  ⟨rfl, fun _ j hg => Dev.rd_wr_of_ne d i j v fun e => hg (e ▸ hf)⟩

theorem Dev.SameButFlags.of_onlyRegs {d e : Dev} (h : d.onlyRegs e []) : d.SameButFlags e :=
  ⟨h.1, fun f i _ => h.2 f i List.not_mem_nil⟩

/-- Whether a device rests does not depend on the flags. -/
theorem Dev.SameButFlags.atRest_eq {d e : Dev} (h : d.SameButFlags e) : e.atRest = d.atRest := by
  obtain ⟨he, hrd⟩ := h
  generalize e.regs = t at he
  subst he
  simp [Dev.atRest, Dev.beaconChoice, Dev.ownFit, Dev.node, Dev.angValid, Dev.svcStays, Dev.preempts, Dev.veState, Dev.on,
    Dev.trigQueue, Dev.engNow, Dev.eng, Dev.schState, Dev.portList, Dev.portExists, Dev.ctrlReady, Dev.gatesSafe, Dev.quietDisk,
    Dev.lane, hrd, flagFlds]

/-- What `Dev.atRest` says, part by part. -/
structure Dev.Resting (d : Dev) : Prop where
  angStill : d.ang.rate = none
  noSlots : d.wrf.slots = []
  noMoves : d.tpe.moves = []
  choiceStands : d.beaconChoice = d.rck.choice
  portStays : d.svcStays = true
  noPreempts : ∀ e, e < 12 → d.preempts e = false
  noPowerFail : d.spn.running = false
  noJobs : d.sch.jobs = []
  noDrains : d.sch.drainFor = []
  noForced : d.sch.forced = []
  noLoads : d.sch.loads = []
  noWithdrawn : ∀ o ∈ d.sch.ovl, o.withdrawn = false
  notLoading : d.schState ≠ 3
  noCharge : d.sch.charge = false
  noAdmin : d.hif.adm = []
  noCmds : d.hif.cmds = []
  noReady : ∀ p ∈ d.portList, d.ctrlReady p = false
  noShutdown : ∀ p ∈ d.portList, d.rd .HIF_NVMSTAT_SHST p ≠ 1
  notDriving : ∀ s, s < 32 → d.rd .WRF_SSTAT_DRIVING s = 0
  gatesSafe : d.gatesSafe = true

theorem Dev.resting {d : Dev} (h : d.atRest = true) : d.Resting := by
  simp only [Dev.atRest, Bool.and_eq_true, Option.isNone_iff_eq_none, List.isEmpty_iff, beq_iff_eq, List.all_eq_true, List.mem_range,
    Bool.not_eq_true', bne_iff_ne] at h
  obtain ⟨⟨⟨⟨⟨⟨⟨⟨⟨⟨⟨⟨⟨⟨⟨⟨⟨⟨hang, hslots⟩, hmoves⟩, hchoice⟩, hsvc⟩, hpre⟩, hpf⟩, hjobs⟩, hdrain⟩, hforced⟩, hloads⟩, hovl⟩, hsch⟩,
    hcharge⟩, hadm⟩, hcmds⟩, hports⟩, hdriving⟩, hgates⟩ := h
  exact ⟨hang, hslots, hmoves, hchoice, hsvc, hpre, hpf, hjobs, hdrain, hforced, hloads, hovl, hsch, hcharge, hadm, hcmds,
    fun p hp => (hports p hp).1, fun p hp => (hports p hp).2, hdriving, hgates⟩

/-- A fold whose every step leaves the start as it is. -/
theorem foldl_eq_of_fixed {α β : Type} {f : α → β → α} {a : α} {l : List β} (h : ∀ b ∈ l, f a b = a) : l.foldl f a = a := by
  induction l with
  | nil => rfl
  | cons b l ih =>
    obtain ⟨hb, hl⟩ := List.forall_mem_cons.mp h
    rw [List.foldl_cons, hb, ih hl]

/-! ### Time -/

/-- One cycle passes while ANG stands still. -/
def Dev.tick (d : Dev) : Dev := { d with now := d.now + 1, ang := { d.ang with prev := d.ang.val } }

theorem Dev.advance_resting {d : Dev} (h : d.Resting) : d.advance 1 = d.tick := by
  have helapse : d.elapse 1 = d.tick := by simp [Dev.elapse, h.angStill, Dev.tick]
  have hslots : d.tick.wrf.slots = [] := h.noSlots
  rw [Dev.advance, helapse, Dev.writersPass, hslots, List.foldl_nil]

theorem Dev.tick_atRest (d : Dev) : d.tick.atRest = d.atRest := rfl

/-! ### Engines and the power-fail sequence -/

theorem Dev.preemptAll_resting {d : Dev} (h : d.Resting) : d.preemptAll = d :=
  foldl_eq_of_fixed fun e he => if_pos (by simp [h.noPreempts e (List.mem_range.mp he)])

theorem Dev.pfUpdate_resting {d : Dev} (h : d.Resting) : d.pfUpdate = d := if_pos (by simp [h.noPowerFail])

/-! ### SCH -/

theorem Dev.moveWaiting_resting {d : Dev} (h : d.Resting) : d.moveWaiting = d := by
  rw [Dev.moveWaiting, h.noMoves]
  rfl

theorem Dev.drains_resting {d : Dev} (h : d.Resting) : d.drains = d := by
  have htop : d.topRanked = none := by simp [Dev.topRanked, h.noJobs, bestOf]
  have hkept : ({ d with sch := { d.sch with drainFor := [] } } : Dev) = d := by rw [← h.noDrains]
  simp only [Dev.drains, h.noDrains, List.filter_nil, hkept, htop]

theorem Dev.dropWithdrawn_resting {d : Dev} (h : d.Resting) : d.dropWithdrawn = d := by
  have hnone : d.sch.ovl.filter (fun o => o.withdrawn && !d.stillWrites o.fseq) = [] :=
    List.filter_eq_nil_iff.mpr fun o ho => by simp [h.noWithdrawn o ho]
  rw [Dev.dropWithdrawn, hnone, List.foldl_nil]

theorem Dev.drainOver_resting {d : Dev} (h : d.Resting) (a : Nat) : d.drainOver a = d := by
  simp [Dev.drainOver, h.noForced, Tab.look]

theorem Dev.schUpdate_resting {d : Dev} (h : d.Resting) : d.schUpdate = d.waitFlags := by
  have hdrained : (List.range 4).foldl Dev.drainOver d = d := foldl_eq_of_fixed fun a _ => Dev.drainOver_resting h a
  simp only [Dev.schUpdate, Dev.moveWaiting_resting h, h.noJobs, List.foldl_nil, Dev.drains_resting h, Dev.dropWithdrawn_resting h,
    beq_eq_false_iff_ne.mpr h.notLoading, h.noCharge, Bool.false_and, Bool.false_eq_true, if_false, hdrained]

theorem Dev.waitFlags_same (d : Dev) : d.SameButFlags d.waitFlags :=
  (Dev.sameButFlags_wr_flag d (by decide) 0 _).trans (Dev.sameButFlags_wr_flag _ (by decide) 0 _)

/-! ### HIF -/

theorem Dev.transferAgain_resting {d : Dev} (h : d.Resting) : d.transferAgain = d := by
  have hnone : ∀ i, d.cmdAt i = none := fun i => by rw [Dev.cmdAt, h.noCmds, List.find?_nil]
  have hwaiting : d.hif.again.filterMap (fun r => (d.cmdAt r.idx).map fun c => (c, r)) = [] := by simp [hnone]
  rw [Dev.transferAgain, hwaiting, List.foldl_nil]

theorem Dev.warnings_resting {d : Dev} (h : d.Resting) {p : Nat} (hp : p ∈ d.portList) : d.warnings p = d :=
  if_pos (by simp [h.noReady p hp])

theorem Dev.shutdownStep_resting {d : Dev} (h : d.Resting) {p : Nat} (hp : p ∈ d.portList) : d.shutdownStep p = d :=
  if_pos (by simpa using h.noShutdown p hp)

theorem Dev.hostUpdate_resting {d : Dev} (h : d.Resting) : d.hostUpdate = d := by
  have hports : d.portList.foldl (fun d p => (d.warnings p).shutdownStep p) d = d :=
    foldl_eq_of_fixed fun p hp => by rw [Dev.warnings_resting h hp, Dev.shutdownStep_resting h hp]
  simp only [Dev.hostUpdate, h.noAdmin, List.length_nil, Dev.dropUnknown, Dev.hifUpdate, h.noCmds, List.filter_nil, ite_self,
    List.foldl_nil, Dev.transferAgain_resting h, hports]

/-! ### The writers and the interlock -/

theorem Dev.Resting.still {d : Dev} (h : d.Resting) : d.still (List.range 32) :=
  ⟨h.noSlots, fun s hs => h.notDriving s (List.mem_range.mp hs)⟩

theorem Dev.checkFences_resting {d : Dev} (h : d.Resting) : d.SameButFlags d.checkFences :=
  .of_onlyRegs (Dev.foldl_still (fun _ _ hstill hs => Dev.checkFence_still hstill hs) _ (fun _ hs => hs) d h.still)

theorem Dev.settle_resting {d : Dev} (h : d.Resting) : d.SameButFlags d.settle :=
  (Dev.SameButFlags.of_onlyRegs (Dev.interlock_still h.still h.gatesSafe)).trans (Dev.sameButFlags_wr_flag _ (by decide) 0 _)

/-! ### The rack link and the service port -/

theorem Dev.rackUpdate_resting {d : Dev} (h : d.Resting) : d.rackUpdate = d := if_pos (by simp [h.choiceStands])

theorem Dev.svcConnect_resting {d : Dev} (h : d.Resting) : d.svcConnect = d := by
  have hstays := h.portStays
  unfold Dev.svcStays at hstays
  unfold Dev.svcConnect
  split at hstays
  case isTrue hoff =>
    have hkept : d.rd .SVC_CFG_MODE = 0 ∨ d.svc.vbus = false := by simpa using hstays
    rw [if_pos hoff, if_neg (by rcases hkept with hmode | hvbus <;> simp [*])]
  case isFalse hon =>
    rw [if_neg hon, if_neg (by simpa using hstays)]

/-! ### The cycle -/

/-- The cycle that a command takes leaves a resting device, a cycle later, the same but for the flags. -/
theorem Dev.leave_resting {d : Dev} (h : d.atRest = true) : d.tick.SameButFlags d.leave := by
  have htick : d.tick.atRest = true := d.tick_atRest.trans h
  have hsch : d.tick.SameButFlags d.tick.waitFlags := Dev.waitFlags_same _
  have hschRests := hsch.atRest_eq.trans htick
  have hfences := Dev.checkFences_resting (Dev.resting hschRests)
  have hfencesRest := hfences.atRest_eq.trans hschRests
  have hsettle := Dev.settle_resting (Dev.resting hfencesRest)
  rw [Dev.leave, Dev.advance_resting (Dev.resting h), Dev.preemptAll_resting (Dev.resting htick),
    Dev.pfUpdate_resting (Dev.resting htick), Dev.schUpdate_resting (Dev.resting htick), Dev.hostUpdate_resting (Dev.resting hschRests),
    Dev.rackUpdate_resting (Dev.resting hfencesRest), Dev.svcConnect_resting (Dev.resting hfencesRest)]
  exact (hsch.trans hfences).trans hsettle

end Sys2Proof.Machine
end

section
/-! The statements of 02_register_conventions that hold. -/

namespace Sys2Proof.Machine

/-- Settles O45: a step is `exec` by definition, and every command is its own effect and the cycle it takes, which touches no queue. -/
theorem stepAndQueue : Obligations.StepAndQueue := by
  unfold Obligations.StepAndQueue
  refine ⟨?front, ?idle, ?every⟩
  case front =>
    intro s c rest hqueue
    rw [step, hqueue]
  case idle =>
    intro s hqueue
    rw [step, hqueue]
    rfl
  case every =>
    intro c s
    have hnext : ∃ t, exec c s = .next t := by
      rcases exec_after c s with ⟨d, hd⟩ | ⟨b, _, hd⟩ <;> exact ⟨_, hd⟩
    obtain ⟨t, ht⟩ := hnext
    exact ⟨t, ht, exec_pending ht⟩

/-- Settles O49: a write that reaches SYS_RSTCTL is `rstCtl`, which looks at the key first and at FULL before WARM. -/
theorem resetKey : Obligations.ResetKey := by
  unfold Obligations.ResetKey
  refine ⟨?wrongKey, ?wrongKeyRequest, ?fullOverWarm⟩
  case wrongKey =>
    rintro s _ x rfl hok htarget hkey
    rw [exec_registerWrite, Dev.busAccesses_writes, Dev.busWrites_reg hok htarget, Dev.regWrite_rstCtl, Dev.rstCtl_wrongKey _ hkey]
  case wrongKeyRequest =>
    intro s key hkey
    rw [exec_warmResetRequest, exec_fullResetRequest, Dev.rstCtl_wrongKey _ (bits_resetWord_ne hkey (by decide)),
      Dev.rstCtl_wrongKey _ (bits_resetWord_ne hkey (by decide))]
    exact ⟨rfl, rfl⟩
  case fullOverWarm =>
    rintro s _ x rfl hok htarget hkey hfull _
    rw [exec_registerWrite, Dev.busAccesses_writes, Dev.busWrites_reg hok htarget, Dev.regWrite_rstCtl, Dev.rstCtl_full _ hkey hfull]

/-- Settles O50: an offset without a register decodes to a hole, and one in no window to a bus error, whoever its master is. -/
theorem registerHoles : Obligations.RegisterHoles := by
  unfold Obligations.RegisterHoles
  refine ⟨?hole, ?unassigned⟩
  case hole =>
    rintro s _ m a b rfl hadmits hregs halign hblock hevt hnone
    have htarget := targetOf_hole hblock hevt hnone m.id
    have hok := Dev.busRefuses_word hadmits hregs halign (by simp [htarget])
    refine ⟨by rw [exec_clearOnRead, Dev.busRead_hole hok htarget], fun w => ?_⟩
    rw [exec_registerWrite, Dev.busAccesses_writes, Dev.busWrites_hole hok htarget]
  case unassigned =>
    rintro s _ m a size rfl hblock
    have hbad := s.dev.met.busRefuses_unassigned (targetOf_unassigned hblock m.id)
    refine ⟨by rw [exec_clearOnRead, Dev.busRead_refused (hbad size)], fun w => ?_⟩
    rw [exec_registerWrite, Dev.busAccesses_writes, Dev.busWrites_refused (hbad 4)]

/-- Settles O54: nothing is listed in any table of the reset state, so every field and every unit is as it is without an entry. -/
theorem resetIsSafe : Obligations.ResetIsSafe := by
  unfold Obligations.ResetIsSafe
  refine ⟨State.reset_safe, State.reset_cricketShown, rfl, rfl, ?atRest, State.rd_reset, rfl, ?cause, rfl, ?readers, rfl, rfl, rfl, rfl⟩
  case atRest => decide
  case cause => decide
  case readers => exact fun r _ => State.rd_reset .ANG_REFOFF_OFF r

/-- Settles O13: a request begins the quiesce or ends it at once, and each reset acts as its own rule says once it is due. -/
theorem resetRequestsAndQuiesce : Obligations.ResetRequestsAndQuiesce := by
  unfold Obligations.ResetRequestsAndQuiesce
  refine ⟨?warm, ?wrongKey, ?fullInSafe, ?full, ?quiesceEnd, ?fullReset, ?powerOn, ?supplyTrip⟩
  case warm =>
    rintro s _ rfl hkind hquiet hsafe
    have hsafe' : (s.dev.met.wr .SYS_RSTCTL_WARM 0 1).rd .FLT_STAT_SAFE = 0 := by simpa using hsafe
    rw [exec_warmResetRequest, Dev.rstCtl_warm _ (by decide) (by decide) (by decide),
      Dev.resetRequest_first hsafe' hkind hquiet (by decide) rfl]
    rfl
  case wrongKey =>
    rintro s _ key rfl hkey
    rw [exec_warmResetRequest, Dev.rstCtl_wrongKey _ (bits_resetWord_ne hkey (by decide))]
  case fullInSafe =>
    rintro s _ rfl hkind hsafe
    have hsafe' : (s.dev.met.wr .SYS_RSTCTL_FULL 0 1).rd .FLT_STAT_SAFE ≠ 0 := by simpa using hsafe
    rw [exec_fullResetRequest, Dev.rstCtl_full _ (by decide) (by decide), Dev.resetRequest_safe hsafe' hkind]
    rfl
  case full =>
    rintro s _ rfl hkind hquiet hsafe
    have hsafe' : (s.dev.met.wr .SYS_RSTCTL_FULL 0 1).rd .FLT_STAT_SAFE = 0 := by simpa using hsafe
    rw [exec_fullResetRequest, Dev.rstCtl_full _ (by decide) (by decide),
      Dev.resetRequest_first hsafe' hkind hquiet (by decide) rfl]
    rfl
  case quiesceEnd =>
    rintro s _ after rfl hkind hquiet hdue
    rw [exec_quiesceEnd, Dev.quiesceDone_due hkind hquiet hdue]
    rfl
  case fullReset =>
    rintro s _ after rfl hkind hquiet hretracted hflush
    rw [exec_fullReset, Dev.fullResetNow_due hkind hquiet hretracted hflush]
    rfl
  case powerOn =>
    rintro s _ b rfl
    rfl
  case supplyTrip =>
    rintro s _ rfl
    rfl

/-- Settles O16: each clause is one rule of the windows, of a route write or of a format register, once its condition is decided. -/
theorem hostWindowsAndLockedWrites : Obligations.HostWindowsAndLockedWrites := by
  unfold Obligations.HostWindowsAndLockedWrites
  refine ⟨?discarded, ?taken, ?lockedRead, ?unsupported, ?aborted, ?relock, ?expiry, ?route, ?refusedRoute, ?closed, ?zoneBase⟩
  case discarded =>
    rintro s _ p off size w l rfl hbad
    rw [exec_bar2Write, Dev.bar2Write_discarded hbad]
  case taken =>
    rintro s _ p off size w r i rfl hgood hok htarget
    rw [exec_bar2Write, Dev.bar2Write_taken hgood,
      Dev.busWrites_reg (x := { master := .bar2 p, addr := regBase + off, data := w }) hok htarget, Master.id_bar2]
  case lockedRead =>
    rintro s _ p off size r i rfl hport hadmits halign hoff htarget hword hlocked
    rw [exec_bar2Read, Dev.bar2Read_taken hport hadmits halign hoff (by simp [htarget]), hlocked, Dev.regRead_word htarget hword]
    rfl
  case unsupported =>
    rintro s _ p off size rfl halign
    rw [exec_bar2Read, Dev.bar2Read_unsupported halign]
  case aborted =>
    rintro s _ p off size rfl hport halign hoff hbad
    rw [exec_bar2Read, Dev.bar2Read_aborted hport halign hoff hbad]
  case relock =>
    rintro s _ p rfl hunlocked
    rw [exec_bar2Relock, Dev.lockBar2_unlocked hunlocked]
  case expiry =>
    rintro s _ p after rfl hunlocked hdue
    rw [exec_bar2WindowExpiry, Dev.windowExpiry_due hdue, Dev.lockBar2_unlocked hunlocked]
  case route =>
    rintro s _ x granted rfl hadmits hcheck
    rw [exec_laneRouteWrite, Dev.routeWrites_one hadmits, Dev.routeWrite_passed hcheck]
  case refusedRoute =>
    rintro s _ x granted v rfl hadmits hcheck hv
    rw [exec_laneRouteWrite, Dev.routeWrites_one hadmits, Dev.routeWrite_refused hcheck hv]
  case closed =>
    rintro s _ m k w rfl hhanded
    rw [exec_tpeLockedWrite, Dev.regWrite_format_closed (formatRegs_getD k) (s.dev.met.handed_iff.mpr hhanded)]
    rfl
  case zoneBase =>
    rintro s _ m w rfl hhanded
    have hopen : s.dev.met.handed = false := by simp [Dev.handed, Dev.on, hhanded]
    exact congrArg (fun d => Host.Outcome.next (s.after d)) (Dev.regWrite_zoneBase hopen m.id 0 w.toNat)

/-- Settles O4: each clause is one rule of a strobe, of a reader input or of a lane, once its condition is decided. -/
theorem lanesAndReaderInputs : Obligations.LanesAndReaderInputs := by
  unfold Obligations.LanesAndReaderInputs
  refine ⟨?strobe, ?noStrobe, ?routes, ?inputFree, ?inputHeld, ?inputOpen, ?inputShort, ?inputClear, ?overFirst, ?overNear, ?overIdle,
    ?forceout, ?readmit, ?recal, ?recalWaits, ?recalActs, ?stuck, ?noclk, ?bank, ?calPassed, ?calFails, ?gateOpens, ?gateBarred,
    ?gateCloses⟩
  case strobe =>
    rintro s _ x h after rfl hone howner hvalid hslot hplain
    have hsame : (s.dev.met.advance after).dueNow x = (s.dev.met.advance after).bus.pend.filter ((s.dev.met.advance after).due x) :=
      routesFirst_of_no_route fun p hp => hplain p (List.mem_of_mem_filter hp)
    rw [exec_deferredApply, Dev.strobesNow_head hone howner hvalid hslot, Dev.routesTaken_none hplain, Dev.applyDue, Dev.dueTaken, hsame]
  case noStrobe =>
    rintro s _ after rfl hinvalid
    rw [exec_deferredApply, Dev.strobesNow_invalid hinvalid]
  case routes =>
    rintro s _ x h after rfl hone howner hvalid hslot
    rw [exec_routeApply, Dev.strobesNow_head hone howner hvalid hslot]
    rfl
  case inputFree =>
    rintro s _ n w rfl hfree
    rw [exec_rdiCtlWrite, Dev.rdiCtl_free hfree]
    rfl
  case inputHeld =>
    rintro s _ n w rfl hheld
    rw [exec_rdiCtlWrite, Dev.rdiCtl_held hheld]
    rfl
  case inputOpen =>
    rintro s _ n rfl
    rw [exec_readerInputFault]
    rfl
  case inputShort =>
    rintro s _ n rfl
    rw [exec_readerInputFault]
    rfl
  case inputClear =>
    rintro s _ n isOpen rfl
    rw [exec_readerInputFaultClear]
    cases isOpen <;> rfl
  case overFirst =>
    rintro s _ l first last rfl hsampling hnone
    rw [exec_overrange, Dev.overrange_sampling hsampling, Dev.startsEvent_first hnone]
    rfl
  case overNear =>
    rintro s _ l first last prev rfl hsampling hprev hnear
    have hevent : s.dev.met.startsEvent l.val (s.dev.met.runStart l.val first last) = false := Dev.startsEvent_near hprev hnear
    rw [exec_overrange, Dev.overrange_sampling hsampling, hevent]
    rfl
  case overIdle =>
    rintro s _ l first last rfl hidle
    rw [exec_overrange, Dev.overrange_idle hidle]
  case forceout =>
    rintro s _ n rfl hoff hout
    rw [exec_laneForceout, Dev.laneForceout_acts hoff hout]
  case readmit =>
    rintro s _ n rfl hout
    rw [exec_laneReadmit, Dev.laneReadmit_out hout, Dev.laneState_calibrating]
  case recal =>
    rintro s _ n rfl hserv hfree
    rw [exec_laneRecal, Dev.laneRecal_free hserv hfree, Dev.laneState_calibrating]
  case recalWaits =>
    rintro s _ n rfl hserv hheld
    rw [exec_laneRecal, Dev.laneRecal_held hserv hheld]
  case recalActs =>
    rintro s _ n rfl hserv hfree hpend
    rw [exec_deferredRecal, Dev.deferredRecal_released hserv hfree hpend, Dev.laneState_calibrating]
  case stuck =>
    rintro s _ n g rfl hserv hgate hlong
    have hmet : s.dev.met.faultable n.val .stuck = true := by simp [Dev.faultable, hgate, hlong]
    rw [exec_laneFault, Dev.laneFault_one (by decide) hserv hmet rfl]
    rfl
  case noclk =>
    rintro s _ n g rfl hserv hgate hruns
    have hmet : s.dev.met.faultable n.val .noclk = true := by simp [Dev.faultable, hgate, hruns]
    rw [exec_laneFault, Dev.laneFault_one (by decide) hserv hmet rfl]
    rfl
  case bank =>
    rintro s _ n l rest rfl hhit
    rw [exec_laneFault, Dev.laneFault_bank hhit rfl]
  case calPassed =>
    rintro s _ n m rfl hcal hquiet hpass
    rw [exec_laneCalibrationEnd, Dev.laneCalEnd_passed hcal hquiet hpass]
    rfl
  case calFails =>
    rintro s _ n m rfl hcal hoffset
    rw [exec_laneCalibrationEnd, Dev.laneCalEnd_offsetFails hcal hoffset rfl]
  case gateOpens =>
    rintro s _ l rfl heven hvalid hroute hclosed hdue
    rw [exec_servoGateOpen, Dev.servoGateOpen_due heven hvalid hroute hclosed hdue rfl]
  case gateBarred =>
    rintro s _ l rfl hinvalid
    rw [exec_servoGateOpen, Dev.servoGateOpen_invalid hinvalid]
  case gateCloses =>
    rintro s _ l g rfl hopen hdue
    rw [exec_servoGateClose, Dev.servoGateClose_due hopen hdue]

/-- Settles O55: the flags and the fields that already read 0 are all that the parts of the cycle write, and neither decides whether a
device rests, so the parts can be taken one after another. -/
theorem passingCycle : Obligations.PassingCycle := by
  unfold Obligations.PassingCycle
  intro s d htest hrest
  rw [State.after_dev d htest]
  exact Dev.leave_resting hrest

end Sys2Proof.Machine
end

section
/-! The angle base: its states and lock (R80, R84, R87), its readers (R73-R78, R88), the wrap (R81), the compare units (R95, R97) and
the range of the synthesisers (R101). -/

namespace Sys2Proof.Machine

theorem exec_abuEnable (s : State) : exec .abuEnable s = .next (s.after (s.dev.met.abuEnable true)) := rfl

theorem exec_abuDisable (s : State) : exec .abuDisable s = .next (s.after (s.dev.met.abuEnable false)) := rfl

theorem exec_abuReacquire (s : State) : exec .abuReacquire s = .next (s.after s.dev.met.abuReacquire) := rfl

theorem exec_autoReacquire (s : State) : exec .autoReacquire s = .next (s.after s.dev.met.autoReacquire) := rfl

theorem exec_angleLock (s : State) : exec .angleLock s = .next (s.after s.dev.met.lockIndex) := rfl

theorem exec_angleWrap (s : State) : exec .angleWrap s = .next (s.after s.dev.met.toWrap) := rfl

theorem exec_readerUse (r : Fin 4) (use : Bool) (s : State) :
    exec (.readerUse r use) s = .next (s.after (s.dev.met.readerUse r.val use)) := rfl

theorem exec_readerForceout (r : Fin 4) (s : State) :
    exec (.readerForceout r) s = .next (s.after (s.dev.met.readerForceout r.val)) := rfl

theorem exec_readerReadmit (r : Fin 4) (s : State) :
    exec (.readerReadmit r) s = .next (s.after (s.dev.met.readerReadmit r.val)) := rfl

theorem exec_readerCalibrationEnd (r : Fin 4) (off : Nat) (corr : List Int) (after : Nat) (s : State) :
    exec (.readerCalibrationEnd r off corr after) s = .next (s.after ((s.dev.met.advance after).readerCalEnd r.val off corr)) := rfl

theorem exec_referenceFrame (x : RefFrame) (s : State) :
    exec (.referenceFrame x) s = .next (s.after (s.dev.met.referenceFrame x)) := rfl

theorem exec_angleCompareArm (u : Fin 16) (w : Word) (s : State) :
    exec (.angleCompareArm u w) s = .next (s.after (s.dev.met.compareArm u.val w.toNat)) := rfl

theorem exec_angleCompareFire_ang (u : Fin 16) (after : Nat) (s : State) :
    exec (.angleCompareFire (.ang u) after) s = .next (s.after ((s.dev.met.advance after).compareFire u.val)) := rfl

theorem exec_angleCompareFire_fsq (q : Fin 32) (b : Bool) (after : Nat) (s : State) :
    exec (.angleCompareFire (.fsq q b) after) s = .next (s.after ((s.dev.met.advance after).seqCompareFire q.val b)) := rfl

theorem exec_synthOutOfRange (k : Fin 64) (s : State) :
    exec (.synthOutOfRange k) s = .next (s.after (s.dev.met.checkRange k.val)) := rfl

theorem exec_synthRangeReturn (k : Fin 64) (s : State) :
    exec (.synthRangeReturn k) s = .next (s.after (s.dev.met.checkRange k.val)) := rfl

/-! ### States of the angle base -/

theorem Dev.abuEnable_idle {d : Dev} (h : d.rd .ANG_STAT_STATE = 0) : d.abuEnable true = (d.wr .ANG_CTL_ENABLE 0 1).toAcquire :=
  if_pos (by simp [Dev.wrb, h, abuIdle])

theorem Dev.abuEnable_running {d : Dev} (h : d.rd .ANG_STAT_STATE ≠ 0) : d.abuEnable true = d.wr .ANG_CTL_ENABLE 0 1 :=
  if_neg (by simp [Dev.wrb, h, abuIdle])

theorem Dev.abuDisable_locked {d : Dev} (h : d.rd .ANG_STAT_STATE = 2) : d.abuEnable false = (d.wr .ANG_CTL_ENABLE 0 0).angDrop 0 :=
  if_pos (by simp [Dev.wrb, Dev.angValid_iff, h])

theorem Dev.abuDisable_invalid {d : Dev} (h : d.rd .ANG_STAT_STATE ≠ 2) :
    d.abuEnable false = (d.wr .ANG_CTL_ENABLE 0 0).wr .ANG_STAT_STATE 0 0 :=
  if_neg (by simp [Dev.wrb, Dev.angValid_iff, h])

theorem Dev.abuReacquire_lost {d : Dev} (h : d.rd .ANG_STAT_STATE = 3) : d.abuReacquire = d.toAcquire :=
  if_pos (by simp [h, abuLost])

theorem Dev.abuReacquire_other {d : Dev} (h : d.rd .ANG_STAT_STATE ≠ 3) : d.abuReacquire = d :=
  if_neg (by simp [h, abuLost])

theorem Dev.autoReacquire_lost {d : Dev} (hlost : d.rd .ANG_STAT_STATE = 3) (hauto : d.rd .ANG_CTL_AUTO ≠ 0)
    (hreaders : 2 ≤ d.usableDeclared) : d.autoReacquire = d.toAcquire :=
  if_pos (by simp [Dev.on, Dev.redundancy, hlost, hauto, hreaders, abuLost])

theorem Dev.lockReady_of {d : Dev} (hacquire : d.rd .ANG_STAT_STATE = 1) (htrack : 2 ≤ d.trackers) (hagree : 16 ≤ d.ang.agree)
    (hspeed : d.rd .ANG_STAT_SPEED ≠ 0) (hreaders : 2 ≤ d.usableDeclared) : d.lockReady = true := by
  simp [Dev.lockReady, Dev.on, Dev.redundancy, hacquire, htrack, hagree, hspeed, hreaders, abuAcquire]

theorem Dev.acquire_of_lockReady {d : Dev} (h : d.lockReady = true) : d.rd .ANG_STAT_STATE = 1 := by
  simp only [Dev.lockReady, Bool.and_eq_true, beq_iff_eq] at h
  obtain ⟨⟨⟨⟨hacquire, _⟩, _⟩, _⟩, _⟩ := h
  exact hacquire

/-- ANG at the whole revolution that the lock moves it to (R80). -/
def Dev.angleAligned (d : Dev) (v : Nat) : Dev := { d with ang := { d.ang with val := v, prev := v, sub := 0, nolook := 0, split := 0 } }

/-- The lock with its conditions met and ANG short of its wrap (R80, R84). -/
theorem Dev.angleLock_ready {d : Dev} (hready : d.lockReady = true) {v : Nat} (hv : (d.ang.val + (rev - 1)) / rev * rev = v)
    (hshort : v < 2 ^ 48) {e : Dev} (he : e = ((d.angleAligned v).wr .ANG_STAT_STATE 0 2).tally .ANG_STAT_EPOCH) :
    d.angleLock = e.event 0x201 0 (e.word .ANG_STAT) 0 0 := by
  have hmod : mod48 v = v := Nat.mod_eq_of_lt hshort
  subst he
  simp only [Dev.angleLock, hready, hv, hmod, hshort]
  rfl

/-- At the index that ends ACQUIRE the angle base becomes valid, and the index is strobed (R47, R80). -/
theorem Dev.lockIndex_ready {d : Dev} (hready : d.lockReady = true) {v : Nat} (hv : (d.ang.val + (rev - 1)) / rev * rev = v)
    (hshort : v < 2 ^ 48) {e : Dev} (he : e = ((d.angleAligned v).wr .ANG_STAT_STATE 0 2).tally .ANG_STAT_EPOCH) :
    d.lockIndex = (e.event 0x201 0 (e.word .ANG_STAT) 0 0).strobeAll { owner := .ref, index := true } := by
  have hwas : d.angValid = false := Dev.angValid_eq_false (by simp [Dev.acquire_of_lockReady hready])
  have hvalid : (e.event 0x201 0 (e.word .ANG_STAT) 0 0).angValid = true := by
    have hevent : (e.event 0x201 0 (e.word .ANG_STAT) 0 0).rd .ANG_STAT_STATE = e.rd .ANG_STAT_STATE := rfl
    rw [Dev.angValid_iff, hevent, he, Dev.tally, Dev.rd_wr_of_ne _ _ _ _ (by decide), Dev.rd_wr_self]
    rfl
  simp [Dev.lockIndex, Dev.angleLock_ready hready hv hshort he, hwas, hvalid]

/-! ### The wrap -/

/-- The cycles that a distance takes at a rate cover it. -/
theorem le_rate_mul_cycles (y : Nat) {r : Nat} (hr : 0 < r) : y ≤ r * ((y + (r - 1)) / r) := by
  have hlt := Nat.lt_mul_div_succ (y + (r - 1)) hr
  rw [Nat.mul_succ] at hlt
  omega

/-- Cycles that take ANG past its end wrap it (R79, R81). -/
theorem Dev.elapse_wraps {d : Dev} {n r t : Nat} (hrate : d.ang.rate = some r) (hn : n ≠ 0)
    (ht : d.ang.val * 65536 + d.ang.sub + r * n = t) (hwrap : 2 ^ 64 ≤ t) :
    d.elapse n = ({ d with now := d.now + n, ang := { d.ang with
      val := mod48 (t / 65536), sub := t % 65536, prev := mod48 ((t - r) / 65536) } } : Dev).wrapped := by
  have hpast : ¬t / 65536 < 2 ^ 48 := by omega
  simp only [Dev.elapse, hn, hrate, ht, hpast, if_false]

/-- The cycles that the wrap waits for take ANG past its end. -/
theorem Dev.toWrap_wraps {d : Dev} {r n t : Nat} (hrate : d.ang.rate = some r) (hr : 0 < r) (hval : d.ang.val < 2 ^ 48)
    (hsub : d.ang.sub < 65536) (hn : (2 ^ 64 - (d.ang.val * 65536 + d.ang.sub) + (r - 1)) / r = n)
    (ht : d.ang.val * 65536 + d.ang.sub + r * n = t) :
    d.toWrap = ({ d with now := d.now + n, ang := { d.ang with
      val := mod48 (t / 65536), sub := t % 65536, prev := mod48 ((t - r) / 65536) } } : Dev).wrapped := by
  have hcover : 2 ^ 64 - (d.ang.val * 65536 + d.ang.sub) ≤ r * n := hn ▸ le_rate_mul_cycles _ hr
  have hpos : n ≠ 0 := by
    rintro rfl
    omega
  have hwait : d.toWrap = d.elapse n := by
    simp only [Dev.toWrap, hrate, hr.ne', if_false]
    exact congrArg d.elapse hn
  rw [hwait, Dev.elapse_wraps hrate hpos ht (by omega)]

/-! ### Readers -/

/-- A change of USE clears what is kept of the reader and gives it the state `st` (R77). -/
theorem Dev.readerUse_changes {d : Dev} {r st : Nat} {b : Bool} (hb : (b == bit (d.rd .ANG_REFCTL_USE) r) = false)
    {e : Dev} (he : e = d.wrBit .ANG_REFCTL_USE 0 r b) (hst : (if !b then 0 else if e.angValid then 5 else 1) = st) :
    d.readerUse r b =
      ((({ e with ang := { e.ang with readers := Tab.put e.ang.readers r {} } }).wr (readerFld r) 0 st).refReplace
        d.usableDeclared).checkFewref := by
  subst he hst
  exact if_neg (by simp [hb])

theorem Dev.readerForceout_acts {d : Dev} {r : Nat} (hoff : d.rd (readerFld r) ≠ 0) (hout : d.rd (readerFld r) ≠ 4) :
    d.readerForceout r = (((d.wr (readerFld r) 0 4).reffail [r]).refReplace d.usableDeclared).checkFewref :=
  if_neg (by simp [hoff, hout])

theorem Dev.readerReadmit_failed {d : Dev} {r : Nat} (h : d.rd (readerFld r) = 4) : d.readerReadmit r = d.wr (readerFld r) 0 5 :=
  if_pos (by simp [h])

theorem Dev.readerReadmit_other {d : Dev} {r : Nat} (h : d.rd (readerFld r) ≠ 4) : d.readerReadmit r = d :=
  if_neg (by simp [h])

/-- A calibration that passes gives the reader, at an index, the values measured (R78). -/
theorem Dev.readerCalEnd_passed {d : Dev} {r off : Nat} {corr : List Int} (hcal : d.rd (readerFld r) = 5) (hindex : d.indexNow = true)
    (htrack : 1 ≤ d.trackers) (hnear : apart (signed 24 (subMod 24 off (d.rd .ANG_REFOFF_OFF r))) 0 (d.rd .ANG_TOL_DIS) = false)
    {e : Dev} (he : e = (List.range 64).foldl (fun y k => y.wr .ANG_RRO_CORR (r * 64 + k) (unsigned 16 (corr.getD k 0)))
      ((d.wr .ANG_REFOFF_OFF r off).wr (readerFld r) 0 2)) :
    d.readerCalEnd r off corr = { e with ang := { e.ang with readers := Tab.put e.ang.readers r {} } } := by
  subst he
  simp only [Dev.readerCalEnd, hcal, hindex, htrack, hnear]
  rfl

/-- Without a reader in TRACK to measure against, a calibration fails (R77, R78). -/
theorem Dev.readerCalEnd_alone {d : Dev} {r : Nat} (hcal : d.rd (readerFld r) = 5) (halone : d.trackers = 0) (off : Nat)
    (corr : List Int) : d.readerCalEnd r off corr = (d.wr (readerFld r) 0 4).reffail [r] := by
  simp only [Dev.readerCalEnd, hcal, halone]
  rfl

/-! ### A frame slot that two readers share -/

/-- What is kept of a reader in TRACK whose frame is good: its bad frames of the last revolution. -/
def Dev.trackKept (d : Dev) (r : Nat) : Reader :=
  { Tab.getD d.ang.readers r {} with badAt := (Tab.getD d.ang.readers r {}).badAt.filter fun k => d.ang.slots + 1 < k + 16384 }

/-- The first two readers are in TRACK and the others out of use, and both read a frame that passes R74's own tests. -/
structure Dev.PairReads (d : Dev) (x : RefFrame) (o0 o1 : ReaderObs) : Prop where
  stateA : d.rd .ANG_REFSTAT_REFA = 2
  stateB : d.rd .ANG_REFSTAT_REFB = 2
  stateC : d.rd .ANG_REFSTAT_REFC = 0
  stateD : d.rd .ANG_REFSTAT_REFD = 0
  readA : x.obs[0]? = some o0
  readB : x.obs[1]? = some o1
  plainA : framePlain o0 x.f = true
  plainB : framePlain o1 x.f = true

theorem apart_eq_false {x y : Int} {dis : Nat} (hx : x - y ≤ dis) (hy : y - x ≤ dis) : apart x y dis = false := by
  simp [apart, hx, hy]

/-- Of two readings that agree neither is discarded (R75). -/
theorem combineReadings_agree {p q : Nat × Int} {dis : Nat} (h : apart p.2 q.2 dis = false) :
    combineReadings [p, q] dis = ([p, q], [], false) := by
  simp [combineReadings, h]

/-- A good frame keeps a reader in TRACK (R77). -/
theorem Reader.judge_track_good (x : Reader) (slot badrev : Nat) (agrees : Bool) :
    x.judge 2 slot badrev true agrees = ({ x with badAt := x.badAt.filter fun k => slot < k + 16384 }, 2) := rfl

theorem Dev.frameResult_pair {d : Dev} {x : RefFrame} {o0 o1 : ReaderObs} (h : d.PairReads x o0 o1)
    (hagree : apart (d.readingOff 0 x.f o0.phase x.pred) (d.readingOff 1 x.f o1.phase x.pred) (d.rd .ANG_TOL_DIS) = false) :
    d.frameResult x =
      { judged := [(0, true, d.trackKept 0, 2), (1, true, d.trackKept 1, 2)],
        left := [(0, d.readingOff 0 x.f o0.phase x.pred), (1, d.readingOff 1 x.f o1.phase x.pred)], both := false } := by
  have hrange : List.range 4 = [0, 1, 2, 3] := rfl
  simp [Dev.frameResult, hrange, readerFld, judgedState, h.stateA, h.stateB, h.stateC, h.stateD, h.readA, h.readB, h.plainA, h.plainB,
    combineReadings_agree, hagree, Reader.judge_track_good, Dev.trackKept]

/-- What one frame slot's result leaves for the loop: its readers judged, the readings combined, the rate and the speed taken. -/
def Dev.frameSpeed (d : Dev) (x : RefFrame) (v : FrameResult) : Dev :=
  let e := v.judged.foldl Dev.readerJudged { d with ang := { d.ang with slots := d.ang.slots + 1 } }
  let e := { e with ang := { e.ang with
    comb := combinedAngle e.ang.comb x.pred (v.left.map Prod.snd), agree := if 2 ≤ v.left.length then e.ang.agree + 1 else 0,
    nolook := if v.left.isEmpty then e.ang.nolook + 1 else 0, split := if v.both then e.ang.split + 1 else 0 } }
  (if v.left.isEmpty then e else e.takeRate x.rate).wrb .ANG_STAT_SPEED 0 (decide (1600 ≤ x.rpm) && decide (x.rpm ≤ 8000))

/-- The causes of loss that a slot with a reading left and none discarded for each other can have (R85). -/
def Dev.lossCauses (d : Dev) (x : RefFrame) : Nat :=
  bnat (!d.redundancy) + 8 * bnat (decide (d.rd .ANG_TOL_PERR * 16 < x.phaseErr)) +
    16 * bnat (!(decide (1600 ≤ x.rpm) && decide (x.rpm ≤ 8000)))

/-- A slot away from the index that leaves a reading and puts no reader out. -/
theorem Dev.frameTakes_held {d e : Dev} {x : RefFrame} {v : FrameResult} (hindex : x.f ≠ 0) (hleft : v.left.isEmpty = false)
    (hboth : v.both = false) (hfailed : (v.judged.filter fun y => y.2.2.2 == 4) = []) (he : e = d.frameSpeed x v) :
    d.frameTakes x v = (e.refReplace d.usableDeclared).angLoss (e.lossCauses x) := by
  obtain ⟨judged, left, both⟩ := v
  dsimp only at hleft hboth hfailed
  obtain ⟨p, l, rfl⟩ := List.exists_cons_of_ne_nil (List.isEmpty_eq_false_iff.mp hleft)
  subst hboth
  have hno : (decide (x.f = 0) && !(p :: l).isEmpty) = false := by simp [hindex]
  have hstages : d.frameTakes x ⟨judged, p :: l, false⟩ =
      (let e' := if (decide (x.f = 0) && !(p :: l).isEmpty) = true then e.indexPassed else e
       ((e'.reffail ((judged.filter fun y => y.2.2.2 == 4).map Prod.fst)).refReplace d.usableDeclared).angLoss (e'.lossCauses x)) := by
    subst he
    rfl
  rw [hstages, hno, hfailed]
  rfl

/-- The device with the two readers judged: each good, each still in TRACK. -/
def Dev.pairJudged (d : Dev) (x0 x1 : Reader) : Dev :=
  (({ d with ang := { d.ang with slots := d.ang.slots + 1 } } : Dev).readerJudged (0, true, x0, 2)).readerJudged (1, true, x1, 2)

/-- The mean of the two readings becomes the combined angle (R75), and the loop takes its new rate (R82). -/
def Dev.pairCombined (d : Dev) (x : RefFrame) (a b : Int) : Dev :=
  (({ d with ang := { d.ang with
    comb := some (unsigned 24 ((x.pred : Int) + (a + b) / 2)), agree := d.ang.agree + 1, nolook := 0, split := 0 } } : Dev).takeRate
    x.rate).wrb .ANG_STAT_SPEED 0 (decide (1600 ≤ x.rpm) && decide (x.rpm ≤ 8000))

theorem Dev.frameSpeed_pair (d : Dev) (x : RefFrame) (x0 x1 : Reader) (a b : Int) :
    d.frameSpeed x { judged := [(0, true, x0, 2), (1, true, x1, 2)], left := [(0, a), (1, b)], both := false } =
      (d.pairJudged x0 x1).pairCombined x a b := by
  have hcomb : ∀ old, combinedAngle old x.pred [a, b] = some (unsigned 24 ((x.pred : Int) + (a + b) / 2)) := fun old => by
    simp [combinedAngle]
  rw [Dev.pairCombined, ← hcomb (d.pairJudged x0 x1).ang.comb]
  rfl

/-! ### Compare units -/

/-- A unit that fires sets FIRED, and LATE where its target had passed when it was armed (R95). -/
def Dev.fireNoted (d : Dev) (u : Nat) : Dev :=
  let e := if Tab.getD d.ang.cmpHit u false then (d.wr .ANG_CMPSTAT_FIRED u 1).wr .ANG_CMPSTAT_LATE u 1 else d.wr .ANG_CMPSTAT_FIRED u 1
  { e with ang := { e.ang with cmpHit := Tab.put e.ang.cmpHit u false, cmpAt := Tab.put e.ang.cmpAt u e.now } }

theorem Dev.fireNoted_rd (d : Dev) (u : Nat) {f : Fld} (i : Nat) (hfired : f ≠ .ANG_CMPSTAT_FIRED) (hlate : f ≠ .ANG_CMPSTAT_LATE) :
    (d.fireNoted u).rd f i = d.rd f i := by
  have hparts : (d.fireNoted u).rd f i =
      (if Tab.getD d.ang.cmpHit u false then (d.wr .ANG_CMPSTAT_FIRED u 1).wr .ANG_CMPSTAT_LATE u 1
        else d.wr .ANG_CMPSTAT_FIRED u 1).rd f i := rfl
  rw [hparts]
  split <;> simp [hfired, hlate]

/-- An armed unit whose condition is met while the angle base is valid (R97). -/
def Dev.compareDue (d : Dev) (u : Nat) : Prop := d.rd .ANG_CMPCTL_ARM u ≠ 0 ∧ d.rd .ANG_STAT_STATE = 2 ∧ d.unitMet u = true

/-- A unit that fires goes on to its next target or is disarmed, and shows an interrupt if it is to (R95). -/
theorem Dev.compareFire_due {d e : Dev} {u : Nat} (hdue : d.compareDue u)
    (he : e = if d.on .ANG_CMPCTL_PERIODIC u then (d.fireNoted u).setCmpTarget u (mod48 ((d.fireNoted u).cmpTarget u + rev))
      else (d.fireNoted u).wr .ANG_CMPCTL_ARM u 0) :
    d.compareFire u = if d.on .ANG_CMPCTL_IRQ u then e.emit (.irq .ANG u) else e := by
  obtain ⟨harm, hvalid, hmet⟩ := hdue
  have hperiodic : (d.fireNoted u).on .ANG_CMPCTL_PERIODIC u = d.on .ANG_CMPCTL_PERIODIC u := by
    simp [Dev.on, Dev.fireNoted_rd]
  have hirq : e.on .ANG_CMPCTL_IRQ u = d.on .ANG_CMPCTL_IRQ u := by
    rw [he]
    split <;> simp [Dev.on, Dev.setCmpTarget, Dev.fireNoted_rd]
  have hfires : d.compareFire u =
      (let e' := if (d.fireNoted u).on .ANG_CMPCTL_PERIODIC u
          then (d.fireNoted u).setCmpTarget u (mod48 ((d.fireNoted u).cmpTarget u + rev)) else (d.fireNoted u).wr .ANG_CMPCTL_ARM u 0
       if e'.on .ANG_CMPCTL_IRQ u then e'.emit (.irq .ANG u) else e') :=
    if_neg (by simp [Dev.on, harm, d.angValid_iff.mpr hvalid, hmet])
  rw [hfires, hperiodic, ← he]
  dsimp only
  rw [hirq]

/-- A unit whose condition was not yet met when it was armed is not late. -/
theorem Dev.fireNoted_early {d : Dev} {u : Nat} (h : Tab.getD d.ang.cmpHit u false = false) {e : Dev}
    (he : e = d.wr .ANG_CMPSTAT_FIRED u 1) :
    d.fireNoted u = { e with ang := { e.ang with cmpHit := Tab.put e.ang.cmpHit u false, cmpAt := Tab.put e.ang.cmpAt u e.now } } := by
  subst he
  simp only [Dev.fireNoted, h, Bool.false_eq_true, if_false]

theorem Dev.fireNoted_late {d : Dev} {u : Nat} (h : Tab.getD d.ang.cmpHit u false = true) {e : Dev}
    (he : e = (d.wr .ANG_CMPSTAT_FIRED u 1).wr .ANG_CMPSTAT_LATE u 1) :
    d.fireNoted u = { e with ang := { e.ang with cmpHit := Tab.put e.ang.cmpHit u false, cmpAt := Tab.put e.ang.cmpAt u e.now } } := by
  subst he
  simp only [Dev.fireNoted, h, if_true]

/-- The flag that an angle compare of a sequencer sets as it fires. -/
theorem acFlds_fired (b : Bool) : (acFlds b).1 = if b then .FSQ_CMPSTAT_ACBF else .FSQ_CMPSTAT_ACAF := by
  cases b <;> rfl

/-- An armed angle compare of a sequencer that is bound to no edges fires as its target is met (R97, R259). -/
theorem Dev.seqCompareFire_met {d : Dev} {q : Nat} {b : Bool} (harmed : ((d.seq q).ac b).armed = true)
    (hearly : ((d.seq q).ac b).late = false) (hvalid : d.rd .ANG_STAT_STATE = 2)
    (hmet : d.cmpMet ((d.seq q).ac b).frame (d.jobHead q) ((d.seq q).ac b).target = true)
    (hfree : d.boundTo q ((d.seq q).ac b).frame = none) :
    d.seqCompareFire q b = (d.setSeq q ((d.seq q).setAc b { (d.seq q).ac b with armed := false })).wr (acFlds b).1 q 1 := by
  simp only [Dev.seqCompareFire, harmed, d.angValid_iff.mpr hvalid, hmet, hfree, hearly]
  rfl

/-! ### The range of the synthesisers -/

theorem Dev.checkRange_leaves {d : Dev} {k : Nat} (hon : d.rd (synEnable k).1 (synEnable k).2 ≠ 0) (hout : d.inRange k = false)
    (hnew : d.ang.ranged.contains k = false) :
    d.checkRange k = ({ d with ang := { d.ang with ranged := d.ang.ranged ++ [k] } } : Dev).wr (synRange k).1 (synRange k).2 1 :=
  if_pos (by simpa [Dev.on, hon, hout] using hnew)

theorem Dev.checkRange_within {d : Dev} {k : Nat} (hin : d.inRange k = true) :
    d.checkRange k =
      if d.ang.ranged.contains k then { d with ang := { d.ang with ranged := d.ang.ranged.filter (· != k) } } else d := by
  simp [Dev.checkRange, hin]

end Sys2Proof.Machine
end

section
/-! The statements of 03_angle_base that hold. -/

namespace Sys2Proof.Machine

/-- Settles O1: each clause is one rule of the angle base's state or of a reader's, once its condition is decided. -/
theorem angleBaseStates : Obligations.AngleBaseStates := by
  unfold Obligations.AngleBaseStates
  refine ⟨?enable, ?enableAgain, ?disable, ?disableInvalid, ?reacquire, ?reacquireOther, ?auto, ?useEnds, ?useBegins, ?forceout, ?readmit,
    ?readmitOther, ?calPassed, ?calAlone⟩
  case enable =>
    rintro s _ rfl hidle
    rw [exec_abuEnable, Dev.abuEnable_idle hidle]
    rfl
  case enableAgain =>
    rintro s _ rfl hruns
    rw [exec_abuEnable, Dev.abuEnable_running hruns]
  case disable =>
    rintro s _ rfl hlocked
    rw [exec_abuDisable, Dev.abuDisable_locked hlocked]
  case disableInvalid =>
    rintro s _ rfl hinvalid
    rw [exec_abuDisable, Dev.abuDisable_invalid hinvalid]
  case reacquire =>
    rintro s _ rfl hlost
    rw [exec_abuReacquire, Dev.abuReacquire_lost hlost]
    rfl
  case reacquireOther =>
    rintro s _ rfl hother
    rw [exec_abuReacquire, Dev.abuReacquire_other hother]
  case auto =>
    rintro s _ rfl hlost hauto hreaders
    rw [exec_autoReacquire, Dev.autoReacquire_lost hlost hauto hreaders]
    rfl
  case useEnds =>
    rintro s _ r rfl hused
    rw [exec_readerUse, Dev.readerUse_changes (by simp [hused]) rfl rfl]
    rfl
  case useBegins =>
    rintro s _ r rfl hunused
    rw [exec_readerUse, Dev.readerUse_changes (by simp [hunused]) rfl rfl]
    simp only [Dev.angValid_iff]
    rfl
  case forceout =>
    rintro s _ r rfl hoff hout
    rw [exec_readerForceout, Dev.readerForceout_acts hoff hout]
  case readmit =>
    rintro s _ r rfl hfailed
    rw [exec_readerReadmit, Dev.readerReadmit_failed hfailed]
  case readmitOther =>
    rintro s _ r rfl hother
    rw [exec_readerReadmit, Dev.readerReadmit_other hother]
  case calPassed =>
    rintro s _ r off corr after rfl hcal hindex htrack hnear
    rw [exec_readerCalibrationEnd, Dev.readerCalEnd_passed hcal hindex htrack hnear rfl]
  case calAlone =>
    rintro s _ r off corr after rfl hcal halone
    rw [exec_readerCalibrationEnd, Dev.readerCalEnd_alone hcal halone]

/-- Settles O2: each clause is one rule of the lock, of the wrap, of a compare unit or of a synthesiser, once its condition is decided. -/
theorem angleAndCompares : Obligations.AngleAndCompares := by
  unfold Obligations.AngleAndCompares
  refine ⟨?lock, ?wrap, ?arm, ?fireOnce, ?fireAgain, ?fireSequencer, ?leavesRange, ?staysWithin, ?returns⟩
  case lock =>
    rintro s _ rfl hacquire htrack hagree hspeed hreaders hshort
    rw [exec_angleLock, Dev.lockIndex_ready (Dev.lockReady_of hacquire htrack hagree hspeed hreaders) rfl hshort rfl]
    rfl
  case wrap =>
    rintro s _ r rfl hrate hr hval hsub
    rw [exec_angleWrap, Dev.toWrap_wraps hrate hr hval hsub rfl rfl]
  case arm =>
    rintro s _ u w rfl
    rw [exec_angleCompareArm]
    rfl
  case fireOnce =>
    rintro s _ u after rfl harm honce hsilent hvalid hmet hearly
    rw [exec_angleCompareFire_ang, Dev.compareFire_due ⟨harm, hvalid, hmet⟩ rfl, Dev.fireNoted_early hearly rfl]
    simp only [Dev.on, honce, hsilent]
    rfl
  case fireAgain =>
    rintro s _ u after rfl harm hperiodic hirq hvalid hmet hlate
    rw [exec_angleCompareFire_ang, Dev.compareFire_due ⟨harm, hvalid, hmet⟩ rfl, Dev.fireNoted_late hlate rfl,
      if_pos (by simpa [Dev.on] using hirq), if_pos (by simpa [Dev.on] using hperiodic)]
  case fireSequencer =>
    rintro s _ q b after rfl harmed hearly hvalid hmet hfree
    rw [exec_angleCompareFire_fsq, Dev.seqCompareFire_met harmed hearly hvalid hmet hfree, acFlds_fired]
  case leavesRange =>
    rintro s _ k rfl hon hout hnew
    rw [exec_synthOutOfRange, Dev.checkRange_leaves hon hout hnew]
  case staysWithin =>
    rintro s _ k rfl hin hnew
    rw [exec_synthOutOfRange, Dev.checkRange_within hin, hnew]
    rfl
  case returns =>
    rintro s _ k rfl hin hlisted
    rw [exec_synthRangeReturn, Dev.checkRange_within hin, hlisted]
    rfl

/-- Settles O3: both readings pass and agree, so the slot's result is known, and it takes effect with no reader put out. -/
theorem referenceFrames : Obligations.ReferenceFrames := by
  unfold Obligations.ReferenceFrames
  rintro s _ x o0 o1 rfl hA hB hC hD hindex hreadA hreadB hplainA hplainB hab hba
  have hpair : s.dev.met.PairReads x o0 o1 := ⟨hA, hB, hC, hD, hreadA, hreadB, hplainA, hplainB⟩
  have hagree := apart_eq_false hab hba
  rw [exec_referenceFrame, Dev.referenceFrame, Dev.frameResult_pair hpair hagree,
    Dev.frameTakes_held hindex rfl rfl rfl (Dev.frameSpeed_pair ..).symm]
  rfl

end Sys2Proof.Machine
end

section
/-! What the commands that write registers alone leave unchanged: a write of a listed field keeps to the list, and each command is
a few such writes. -/

namespace Sys2Proof.Machine

/-! ### Keeping to a list of fields -/

theorem Dev.onlyRegs_self (d : Dev) (l : List (Fld × Nat)) : d.onlyRegs d l := ⟨rfl, fun _ _ _ => rfl⟩

theorem Dev.onlyRegs.mono {d e : Dev} {l k : List (Fld × Nat)} (h : d.onlyRegs e l) (hlk : l ⊆ k) : d.onlyRegs e k :=
  ⟨h.1, fun f i hf => h.2 f i fun hl => hf (hlk hl)⟩

theorem Dev.onlyRegs.wr {d e : Dev} {l : List (Fld × Nat)} (h : d.onlyRegs e l) {f : Fld} {i : Nat} (hf : (f, i) ∈ l) (v : Nat) :
    d.onlyRegs (e.wr f i v) l := by
  obtain ⟨hrest, hrd⟩ := h
  refine ⟨congrArg (·.wr f i v) hrest, fun g j hg => (Dev.rd_wr_ne e v ?_).trans (hrd g j hg)⟩
  rintro ⟨rfl, rfl⟩
  exact hg hf

theorem Dev.onlyRegs_wr (d : Dev) (f : Fld) (i v : Nat) : d.onlyRegs (d.wr f i v) [(f, i)] :=
  (d.onlyRegs_self _).wr (List.mem_singleton_self _) v

/-- Writing a register's fields from a word keeps to those fields. -/
theorem Dev.putFields_onlyRegs (d : Dev) (r : Reg) (i w : Nat) :
    d.onlyRegs (d.putFields r i w) (r.info.flds.map fun f => (f, i)) := by
  refine List.foldlRecOn (motive := fun e => d.onlyRegs e _) r.info.flds _ (d.onlyRegs_self _) fun e he f hf => ?_
  have hlisted : (f, i) ∈ r.info.flds.map fun f => (f, i) := List.mem_map_of_mem hf
  split
  case h_1 | h_2 | h_3 => exact he.wr hlisted _
  case h_4 => exact he

/-! ### Sequencers and control stores -/

theorem exec_fsqEnable (q : Fin 32) (on : Bool) (s : State) :
    exec (.fsqEnable q on) s = .next (s.after (s.dev.met.wrb .FSQ_CTL_ENABLE q.val on)) := rfl

theorem exec_fsqResume (q : Fin 32) (s : State) : exec (.fsqResume q) s = .next (s.after (s.dev.met.fsqResume q.val)) := rfl

theorem exec_fsqStoreOpen (a : Fin 4) (on : Bool) (s : State) :
    exec (.fsqStoreOpen a on) s = .next (s.after (s.dev.met.storeOpen a.val on)) := rfl

theorem exec_veStoreOpen (k : Fin 12) (on : Bool) (s : State) :
    exec (.veStoreOpen k on) s = .next (s.after (s.dev.met.veStoreOpen k.val on)) := rfl

/-- RESUME moves the state of its own sequencer (R243). -/
theorem Dev.fsqResume_onlyRegs (d : Dev) (q : Nat) : d.onlyRegs (d.fsqResume q) [(.FSQ_STAT_STATE, q)] := by
  unfold Dev.fsqResume
  split
  · exact d.onlyRegs_wr _ _ _
  · exact d.onlyRegs_self _

/-- Opening or closing a sequencers' control store writes its OPEN, OPENED and DRAINING (R276). -/
theorem Dev.storeOpen_onlyRegs (d : Dev) (a : Nat) (on : Bool) :
    d.onlyRegs (d.storeOpen a on) [(.FSQ_CSCTL_OPEN, a), (.FSQ_CSSTAT_OPENED, a), (.FSQ_CSSTAT_DRAINING, a)] := by
  have hopen : d.onlyRegs (d.wrb .FSQ_CSCTL_OPEN a on) [(.FSQ_CSCTL_OPEN, a), (.FSQ_CSSTAT_OPENED, a), (.FSQ_CSSTAT_DRAINING, a)] :=
    (d.onlyRegs_self _).wr (by simp) _
  cases on
  case false => exact (hopen.wr (by simp) _).wr (by simp) _
  case true =>
    simp only [Dev.storeOpen, if_true]
    split
    · exact hopen
    · exact hopen.wr (by simp) _

/-- Opening or closing an engine's control store writes its OPEN and OPENED (R391). -/
theorem Dev.veStoreOpen_onlyRegs (d : Dev) (k : Nat) (on : Bool) :
    d.onlyRegs (d.veStoreOpen k on) [(.VE_CSCTL_OPEN, k), (.VE_CSSTAT_OPENED, k)] := by
  have hopen : d.onlyRegs (d.wrb .VE_CSCTL_OPEN k on) [(.VE_CSCTL_OPEN, k), (.VE_CSSTAT_OPENED, k)] :=
    (d.onlyRegs_self _).wr (by simp) _
  dsimp only [Dev.veStoreOpen]
  split_ifs
  · exact hopen.wr (by simp) _
  · exact hopen.wr (by simp) _
  · exact hopen

/-! ### Heads and their guards -/

theorem exec_guardRelease (a : Fin 4) (s : State) : exec (.guardRelease a) s = .next (s.after (s.dev.met.guardRelease a.val)) := rfl

theorem exec_headReadmit (h : Fin 128) (s : State) : exec (.headReadmit h) s = .next (s.after (s.dev.met.headReadmit h.val)) := rfl

/-- The end of a guard's inhibit (R296). -/
theorem Dev.guardRelease_onlyRegs (d : Dev) (a : Nat) : d.onlyRegs (d.guardRelease a) [(.WRF_GSTAT_INHIBIT, a)] := by
  unfold Dev.guardRelease
  split
  · exact d.onlyRegs_wr _ _ _
  · exact d.onlyRegs_self _

/-- READMIT of a head clears what put it out and moves its state (R331). -/
theorem Dev.headReadmit_onlyRegs (d : Dev) (h : Nat) :
    d.onlyRegs (d.headReadmit h) [(.SRV_HSTAT_RDOUT, h), (.SRV_HSTAT_WROUT, h), (.SRV_HSTAT_STATE, h)] := by
  unfold Dev.headReadmit
  split
  · exact (((d.onlyRegs_self _).wr (by simp) _).wr (by simp) _).wr (by simp) _
  · exact d.onlyRegs_self _

/-! ### Faults, clocks, the scheduler, the rack link and the spindle -/

theorem exec_schHold (on : Bool) (s : State) : exec (.schHold on) s = .next (s.after (s.dev.met.wrb .SCH_CTL_HOLD 0 on)) := rfl

theorem exec_faultLock (s : State) : exec .faultLock s = .next (s.after (s.dev.met.wr .FLT_CTL_LOCK 0 1)) := rfl

theorem exec_faultConfigWrite (r : FltReg) (w : Word) (s : State) :
    exec (.faultConfigWrite r w) s = .next (s.after (s.dev.met.fltConfig r w.toNat)) := rfl

theorem exec_clockRelock (k : Fin 6) (s : State) :
    exec (.clockRelock k) s = .next (s.after (s.dev.met.wr (clockFld k.val) 0 1)) := rfl

theorem exec_foreignFrameReceive (s : State) :
    exec .foreignFrameReceive s =
      .next (s.after (if s.dev.met.rckRuns then s.dev.met.count .RCK_CNT_FOREIGN else s.dev.met)) := rfl

theorem exec_motorConfigWrite (w : Nat) (s : State) :
    exec (.motorConfigWrite w) s = .next (s.after (s.dev.met.motorConfig w)) := rfl

/-- A write of FLT_TEMP sets its two thresholds, or is refused with LOCKREF (R623). -/
theorem Dev.fltConfig_temp_onlyRegs (d : Dev) (w : Nat) :
    d.onlyRegs (d.fltConfig .temp w) [(.FLT_STAT_LOCKREF, 0), (.FLT_TEMP_CRIT, 0), (.FLT_TEMP_HOT, 0)] := by
  unfold Dev.fltConfig
  split
  · exact (d.onlyRegs_self _).wr (by simp) _
  · exact ((d.onlyRegs_self _).wr (by simp) _).wr (by simp) _

/-- A frame that is not the rack's is counted while the link runs (R690). -/
theorem Dev.countForeign_onlyRegs (d : Dev) :
    d.onlyRegs (if d.rckRuns then d.count .RCK_CNT_FOREIGN else d) [(.RCK_CNT_FOREIGN, 0)] := by
  split
  · exact d.onlyRegs_wr _ _ _
  · exact d.onlyRegs_self _

/-- A write of SPN_MOTOR sets its fields, or is refused with BADCFG (R387). -/
theorem Dev.motorConfig_onlyRegs (d : Dev) (w : Nat) :
    d.onlyRegs (d.motorConfig w) ((.SPN_STAT_BADCFG, 0) :: Reg.SPN_MOTOR.info.flds.map fun f => (f, 0)) := by
  dsimp only [Dev.motorConfig]
  split
  · exact (d.onlyRegs_self _).wr List.mem_cons_self _
  · exact (d.putFields_onlyRegs .SPN_MOTOR 0 w).mono (List.subset_cons_self _ _)

/-! ### The iteration bank and the track parity engine -/

theorem exec_itbNoborrow (on : Bool) (s : State) :
    exec (.itbNoborrow on) s = .next (s.after (s.dev.met.wrb .ITB_CTL_NOBORROW 0 on)) := rfl

theorem exec_tpeReconPermit (on : Bool) (s : State) :
    exec (.tpeReconPermit on) s = .next (s.after (s.dev.met.wrb .TPE_CTL_RECON 0 on)) := rfl

end Sys2Proof.Machine
end

section
/-! The iteration bank (R162-R190), sync results (R217-R220), the check of a sector (R546-R551), the track parity engine's
reconstructions (R227-R230), reallocations (R231-R233) and its defect map (R234-R237). -/

namespace Sys2Proof.Machine

theorem exec_syncDeclare (l : Fin 64) (cs : Codes) (after : Nat) (s : State) :
    exec (.syncDeclare l cs after) s = .next (s.after ((s.dev.met.advance after).syncDeclare l.val cs)) := rfl

theorem exec_sectorCapture (k : Fin 128) (lead trail : Codes) (parity : Bool) (after : Nat) (s : State) :
    exec (.sectorCapture k lead trail parity after) s =
      .next (s.after ((s.dev.met.advance after).sectorCapture k.val lead trail parity)) := rfl

theorem exec_acornPeriod (s : State) : exec .acornPeriod s = .next (s.after s.dev.met.acornPeriod) := rfl

theorem exec_localIterationEnd (e : Fin 48) (s : State) :
    exec (.localIterationEnd e) s = .next (s.after (s.dev.met.iterationEnd e.val)) := rfl

theorem exec_redetectionEnd (p : Fin 32) (s : State) :
    exec (.redetectionEnd p) s = .next (s.after (s.dev.met.redetectionEnd p.val)) := rfl

theorem exec_contextParityError (k : Fin 128) (s : State) :
    exec (.contextParityError k) s = .next (s.after (s.dev.met.ctxParity k.val)) := rfl

theorem exec_itbEnable (on : Bool) (s : State) : exec (.itbEnable on) s = .next (s.after (s.dev.met.itbEnable on)) := rfl

theorem exec_decodeEngineForceout (e : Fin 48) (s : State) :
    exec (.decodeEngineForceout e) s = .next (s.after (s.dev.met.engineForceout e.val)) := rfl

theorem exec_decodeEngineReadmit (e : Fin 48) (s : State) :
    exec (.decodeEngineReadmit e) s = .next (s.after (s.dev.met.engineReadmit e.val)) := rfl

theorem exec_decodeEngineFault (e : Fin 48) (k : EngineFault) (s : State) :
    exec (.decodeEngineFault e k) s = .next (s.after (s.dev.met.engineFault e.val k)) := rfl

theorem exec_engineSelftestEnd (e : Fin 48) (pass : Bool) (s : State) :
    exec (.engineSelftestEnd e pass) s = .next (s.after (s.dev.met.selftestEnd e pass)) := rfl

theorem exec_sectorCheck (s : State) : exec .sectorCheck s = .next (s.after s.dev.met.sectorCheck) := rfl

theorem exec_tpeEnable (on : Bool) (s : State) :
    exec (.tpeEnable on) s =
      .next (s.after ((s.dev.met.wr .TPE_CTL_ENABLE 0 (bnat on)).reconFeed s.dev.met.tpe.queue.length)) := rfl

theorem exec_reconstructionRequest (r : ReconReq) (s : State) :
    exec (.reconstructionRequest r) s = .next (s.after (s.dev.met.reconRequest r)) := rfl

theorem exec_reconstructionEnd (k : Fin 4) (s : State) :
    exec (.reconstructionEnd k) s = .next (s.after (s.dev.met.reconEnd k.val)) := rfl

theorem exec_tpeContextParityError (q : Fin 32) (k : Option (Fin 4)) (s : State) :
    exec (.tpeContextParityError q k) s = .next (s.after (s.dev.met.tpeParity q.val (k.map Fin.val))) := rfl

theorem exec_reallocation (surf : Fin 64) (track : Fin 1048576) (slot : Fin 1024) (gen : Fin 4096) (cmd : Option Word) (s : State) :
    exec (.reallocation surf track slot gen cmd) s =
      .next (s.after (s.dev.met.reallocate surf.val track.val slot.val gen.val (cmd.map BitVec.toNat))) := rfl

theorem exec_defectMapInsert (surf : Fin 64) (track : Fin 1048576) (slot : Fin 1024) (kind : Fin 4) (tsurf : Fin 64)
    (ttrack : Fin 1048576) (tslot : Fin 1024) (s : State) :
    exec (.defectMapInsert surf track slot kind tsurf ttrack tslot) s =
      .next (s.after (s.dev.met.defectInsert
        ⟨surf.val, track.val, slot.val, kind.val, tsurf.val, ttrack.val, tslot.val⟩)) := rfl

theorem Dev.on_eq_true {d : Dev} {f : Fld} {i : Nat} (h : d.rd f i ≠ 0) : d.on f i = true := by simpa [Dev.on] using h

theorem Dev.on_eq_false {d : Dev} {f : Fld} {i : Nat} (h : d.rd f i = 0) : d.on f i = false := by simp [Dev.on, h]

/-! ### Sync results -/

/-- A lane with an armed search declares its result once its last output of the window has come (R218). -/
theorem Dev.syncDeclare_ripe {d : Dev} {l q : Nat} {cs : Codes} {j : Job} {x : Search} {rest : List Search}
    (hslot : d.slotOfPair (l / 2) = some q) (hjob : (d.seq q).job = some j)
    (hsearch : (if l % 2 == 0 then (d.seq q).srchLead else (d.seq q).srchTrail) = x :: rest)
    (hlast : (d.window j x).last + 40 ≤ d.laneEdge l) :
    d.syncDeclare l cs =
      (({ d with free := d.free + 16 * cs.length }).loopsRun l (d.meanCode l ((d.window j x).e - 15) cs)).declareSync q j
        (l % 2 == 0) x.slot (d.searchResult l j x cs) := by
  simp only [Dev.syncDeclare, hslot, hjob, hsearch]
  exact if_neg (Nat.not_lt.mpr hlast)

/-- For a write job the trail lane's result is kept and decides no capture (R218). -/
theorem Dev.declareSync_write {d e : Dev} {j : Job} (hwrite : j.kind = 1) (q n : Nat) (r : SyncRes) (he : e = d.countSync j r.res) :
    d.declareSync q j false n r =
      e.setSeq q { e.seq q with srchTrail := (e.seq q).srchTrail.drop 1, foundT := r.res != 3,
                                trailRes := Tab.put (e.seq q).trailRes n r } := by
  subst he
  exact if_pos hwrite

/-- For any other job the lead lane's result is kept and decides the capture (R219). -/
theorem Dev.declareSync_lead {d e : Dev} {j : Job} (hother : j.kind ≠ 1) (q n : Nat) (r : SyncRes) (he : e = d.countSync j r.res) :
    d.declareSync q j true n r =
      (e.setSeq q { e.seq q with srchLead := (e.seq q).srchLead.drop 1, foundL := r.res != 3,
                                 leadRes := Tab.put (e.seq q).leadRes n r }).leadDeclared q j n r
        ((e.seq q).srchTrail.any fun y => y.slot == n) := by
  subst he
  exact if_neg hother

/-! ### The capture of a sector -/

/-- Without a usable code table a capture ends TBLERR (R182). -/
theorem Dev.sectorCapture_noTable {d : Dev} {k : Nat} {lead trail : Codes} {parity : Bool} {x : Ctx} {j : Job} (hctx : d.ctx? k = some x)
    (hfilling : x.phase = .filling) (hjob : (d.seq x.fsq).job = some j)
    (hnone : (if parity then none else d.codeOf x.prof x.metaBytes) = none) :
    d.sectorCapture k lead trail parity = ((d.endCtx k x 7).itbTable x.prof).entryMet x.fsq (psaSlot x.psa) := by
  simp only [Dev.sectorCapture, hctx, hfilling, beq_self_eq_true, if_true, hjob, hnone]

section Capture

variable {d : Dev} {k : Nat} {lead trail : Codes} {x x1 : Ctx} {j : Job} {pr : Profile} {code : Code} {el et : List Nat}

/-- Until the last combined value of the codeword can be formed, nothing is captured (R162). -/
theorem Dev.sectorCapture_early (hctx : d.ctx? k = some x) (hfilling : x.phase = .filling) (hjob : (d.seq x.fsq).job = some j)
    (hcode : d.codeOf x.prof x.metaBytes = some (pr, code))
    (hx : x1 = { x with dual := x.dual && !x.trailOnly && d.on .LANE_STAT_DUAL (2 * x.pair) })
    (hel : el = j.edges (d.spr x.pair) x.u0 x.k0 (codeBits code pr.short))
    (het : et = j.edges (d.spr x.pair) x.u0 x.k0T (codeBits code pr.short)) (hearly : d.formed x1 el et = false) :
    d.sectorCapture k lead trail false = d := by
  subst hx hel het
  have hphase : (x.phase == .filling) = true := beq_iff_eq.mpr hfilling
  simp only [Dev.sectorCapture, hctx, hphase, hjob, hcode, if_true, Bool.false_eq_true, if_false, hearly, Bool.not_false]

/-- Then the context is ready with its profile, code and combined values, the guarantee of 4 acorns and its place in the order of
captures (R155, R162, R170). -/
theorem Dev.sectorCapture_formed (hctx : d.ctx? k = some x) (hfilling : x.phase = .filling) (hjob : (d.seq x.fsq).job = some j)
    (hcode : d.codeOf x.prof x.metaBytes = some (pr, code))
    (hx : x1 = { x with dual := x.dual && !x.trailOnly && d.on .LANE_STAT_DUAL (2 * x.pair) })
    (hel : el = j.edges (d.spr x.pair) x.u0 x.k0 (codeBits code pr.short))
    (het : et = j.edges (d.spr x.pair) x.u0 x.k0T (codeBits code pr.short)) (hformed : d.formed x1 el et = true) {e : Dev}
    (he : e = { d.used with free := d.used.free + 16 * (lead.length + trail.length),
                            itb := { d.used.itb with capSeq := d.used.itb.capSeq + 1 } }) :
    ∃ (y : Ctx) (mean meanT : Option Nat) (soft : List (Nat × Soft)),
      y.phase = .ready ∧ y.guar = 4 ∧ y.grant = x.grant ∧ y.profile = pr ∧ y.code = code ∧ y.seq = d.itb.capSeq + 1 ∧
      y.dual = x1.dual ∧ y.first = channelVars code pr.short y.chan ∧ y.post = y.first ∧ y.msgs = [] ∧
      d.sectorCapture k lead trail false =
        ((if x.trailOnly then (e.loopsRun (2 * x.pair) mean).loopsRun (2 * x.pair + 1) meanT
          else ((e.loopsRun (2 * x.pair) mean).loopsRun (2 * x.pair + 1) meanT).delayed x.pair soft).setCtx k y).entryMet x.fsq
            (psaSlot x.psa) := by
  subst hx hel het he
  have hphase : (x.phase == .filling) = true := beq_iff_eq.mpr hfilling
  simp only [Dev.sectorCapture, hctx, hphase, hjob, hcode, if_true, Bool.false_eq_true, if_false, hformed, Bool.not_true]
  refine ⟨?y, ?mean, ?meanT, ?soft, ?phase, ?guar, ?grant, ?profile, ?code, ?seq, ?dual, ?first, ?post, ?msgs, ?result⟩
  case result => rfl
  all_goals rfl

end Capture

/-! ### The iteration bank -/

/-- Where no context waits for a re-detection path, none starts (R150). -/
theorem Dev.feedPaths_none {d : Dev} (h : d.itb.waitq = []) (n : Nat) : d.feedPaths n = d := by
  cases n with
  | zero => rfl
  | succ n => simp only [Dev.feedPaths, h]

/-- Without contexts none expires (R176). -/
theorem Dev.expire_none {d : Dev} (h : d.itb.ctx = []) : d.expire = d := by rw [Dev.expire, h, List.foldl_nil]

/-- Without requests nothing is granted (R174, R177). -/
theorem Dev.grants_none {d : Dev} (h : d.itb.queue = []) : (if d.on .ITB_CTL_NOBORROW then d else d.grantAll d.itb.queue) = d := by
  rw [h, Dev.grantAll, ite_self]

/-- Without requests none has waited too long (R176). -/
theorem Dev.expireWaits_none {d : Dev} (h : d.itb.queue = []) : d.expireWaits = d := by rw [Dev.expireWaits, h, List.foldl_nil]

/-- Without contexts no slot of the new period is taken (R171). -/
theorem Dev.fillSlots_none {d : Dev} (h : d.itb.ctx = []) : d.fillSlots = d := by
  have horder : d.runOrder = [] := by simp [Dev.runOrder, h, sortBy]
  simp [Dev.fillSlots, horder]

/-- A period boundary of a bank without contexts: the acorns granted and left over return, the period's guarantees flow in and the
number of engines in SERVICE takes effect (R173, R175). -/
theorem Dev.acornPeriod_empty {d : Dev} (hstarted : d.itb.started = true) (hctx : d.itb.ctx = []) (hqueue : d.itb.queue = [])
    (hwait : d.itb.waitq = []) :
    d.acornPeriod =
      (({ d with itb := { d.itb with ctx := [], ret := 0, guarRun := 0, cap := d.pcap d.servingEngines.length } }).wr
        .ITB_STAT_ESERV 0 d.servingEngines.length).wr .ITB_POOLLVL_LEVEL 0
        (min (min d.itb.cap (min d.itb.cap (d.rd .ITB_POOLLVL_LEVEL + d.itb.ret) + (d.rd .ITB_STAT_ESERV - d.itb.guarRun)))
          (d.pcap d.servingEngines.length)) := by
  rw [Dev.acornPeriod, if_neg (by simp [hstarted])]
  simp only [hctx, List.map_nil]
  rw [Dev.expire_none rfl, Dev.grants_none (by exact hqueue), Dev.expireWaits_none (by exact hqueue), Dev.fillSlots_none rfl,
    Dev.feedPaths_none (by exact hwait)]
  rfl

/-- An iteration that satisfies every check sends its codeword to CHK; any other leaves the context to go on (R166, R167). -/
theorem Dev.iterationEnd_running {d : Dev} {e k : Nat} {x : Ctx} (h : d.ctxInEngine e = some (k, x)) {r : Array Int × Array Int}
    (hr : r = minSum x.code x.profile.ofs
      (x.post.toArray, (x.msgs ++ List.replicate (256 * x.code.circs.length - x.msgs.length) 0).toArray))
    {c : Dev × Ctx} (hc : c = (d.count .ITB_ENGSTAT_ITERS e).chargeIteration x) {y : Ctx}
    (hy : y = { c.2 with post := r.1.toList, msgs := r.2.toList, usc := syndrome x.code r.1, phase := .ready }) :
    d.iterationEnd e = if syndrome x.code r.1 = 0 then (c.1.converge k y).feedPaths 32 else c.1.afterIteration k y := by
  subst hr hc hy
  simp only [Dev.iterationEnd, h]

/-- A re-detection replaces the channel inputs and keeps the messages (R150, R167). -/
theorem Dev.redetectionEnd_found {d : Dev} {p k : Nat} {x : Ctx}
    (h : d.itb.ctx.find? (fun y => y.2.phase == .redetect p) = some (k, x)) {looks : List Soft × List Soft}
    (hlooks : looks = x.detectLooks x.extrinsic x.extrinsic) {chan : List Soft}
    (hchan : chan = x.combined (lookExtrinsic looks.1 x.extrinsic) (lookExtrinsic looks.2 x.extrinsic)) :
    d.redetectionEnd p =
      (({ d with itb := { d.itb with paths := d.itb.paths.filter (· != p) } }).setCtx k
        { x with phase := .redone, globs := x.globs + 1, chan := chan,
                 post := (posterior x.code (channelVars x.code x.profile.short chan) x.msgs.toArray).toList }).feedPaths 32 := by
  subst hlooks hchan
  simp only [Dev.redetectionEnd, h]

/-- A parity error of a context ends it CTXERR and is raised (R182). -/
theorem Dev.ctxParity_held {d e : Dev} {k : Nat} {x : Ctx} (h : d.ctx? k = some x) (he : e = d.endCtx k x 6) :
    d.ctxParity k = (e.raise 5 x.pair (e.word .ITB_STAT)).feedPaths 32 := by
  subst he
  simp only [Dev.ctxParity, h]

/-! ### Decode engines -/

/-- An idle engine that goes out leaves every context as it is (R187). -/
theorem Dev.engineOut_idle {d : Dev} {e : Nat} (h : d.ctxInEngine e = none) : d.engineOut e = d.wr .ITB_ENGSTAT_STATE e 4 := by
  simp only [Dev.engineOut, h]
  rfl

/-- The iteration of an engine that goes out is discarded, and its context is ready again (R189). -/
theorem Dev.engineOut_running {d : Dev} {e k : Nat} {x : Ctx} (h : d.ctxInEngine e = some (k, x)) :
    d.engineOut e = (d.setCtx k { x with phase := .ready }).wr .ITB_ENGSTAT_STATE e 4 := by
  simp only [Dev.engineOut, h]
  rfl

/-- FORCEOUT acts in any state but OFF (R187). -/
theorem Dev.engineForceout_acts {d : Dev} {e : Nat} (h : d.rd .ITB_ENGSTAT_STATE e ≠ 0) : d.engineForceout e = d.engineOut e :=
  if_neg (by simpa [unitOff] using h)

/-- READMIT of an engine that is out has it calibrate (R187). -/
theorem Dev.engineReadmit_out {d : Dev} {e : Nat} (h : d.rd .ITB_ENGSTAT_STATE e = 4) :
    d.engineReadmit e = d.wr .ITB_ENGSTAT_STATE e 1 := if_pos (by simp [h, unitOut])

/-- The status bit of an engine's fault. -/
def engineFaultFld : EngineFault → Fld
  | .parerr => .ITB_ENGSTAT_PARERR
  | .timeout => .ITB_ENGSTAT_TIMEOUT

/-- A fault of an engine in SERVICE puts it out and raises ENGFAIL (R189). -/
theorem Dev.engineFault_serving {d e : Dev} {n : Nat} {k : EngineFault} (h : d.rd .ITB_ENGSTAT_STATE n = 3)
    (he : e = (d.wr (engineFaultFld k) n 1).engineOut n) : d.engineFault n k = e.raise 6 n (e.word .ITB_ENGSTAT n) := by
  subst he
  rw [Dev.engineFault, if_neg (by simp [h, unitServ])]
  cases k <;> rfl

/-- An engine that passes its self-test goes on to JOINING (R187, R190). -/
theorem Dev.selftestEnd_passed {d : Dev} {e : Fin 48} (h : d.rd .ITB_ENGSTAT_STATE e.val = 1) :
    d.selftestEnd e true = (d.wr .ITB_ENGSTAT_STATE e.val 2).beginWait (.joining (.engine e)) :=
  if_neg (by simp [h, unitCal])

/-- One that does not goes out with CALFAIL (R187, R190). -/
theorem Dev.selftestEnd_failed {d : Dev} {e : Fin 48} (h : d.rd .ITB_ENGSTAT_STATE e.val = 1) :
    d.selftestEnd e false = (d.wr .ITB_ENGSTAT_CALFAIL e.val 1).wr .ITB_ENGSTAT_STATE e.val 4 :=
  if_neg (by simp [h, unitCal])

/-! ### The check of a sector -/

/-- A sector that passes under its own generation goes to its buffer with status OK (R546, R549). -/
theorem Dev.sectorCheck_passed {d e : Dev} {z : Decoded} {rest : List Decoded} {fill : Nat} (hqueue : d.chk.queue = z :: rest)
    (hon : d.rd .CHK_CTL_ENABLE ≠ 0) (hjudge : z.judge = (0, psaGen z.psa, fill))
    (he : e = ((({ d with chk := { d.chk with queue := rest } }).mediaBytes z.buf (z.bytes.take (z.bytes.length - 6))).putStatus
      z.buf 0 0 fill z.psa).postDrec z.owner z.drec z.head z.cal) :
    d.sectorCheck = if z.cal then e else e.sectorGood z.fseq z.psa := by
  subst he
  simp only [Dev.sectorCheck, hqueue, Dev.on_eq_true hon, hjudge, Bool.not_true, Bool.false_eq_true, if_false, if_true,
    bne_self_eq_false, Bool.and_false]
  rfl

/-- A sector that passes under no generation and in no role fails with its PSA kept (R547, R549). -/
theorem Dev.sectorCheck_failed {d e : Dev} {z : Decoded} {rest : List Decoded} (hqueue : d.chk.queue = z :: rest)
    (hon : d.rd .CHK_CTL_ENABLE ≠ 0) (hjudge : z.judge = (1, 0, 0)) {first : Nat}
    (hfirst : first = withGen z.psa (z.gens.headD (psaGen z.psa)))
    (he : e = ((((((({ d with chk := { d.chk with queue := rest } }).count .CHK_CNT_FAIL).wr .CHK_STAT_FAIL 0 1).wr
      .CHK_FAILLO_PSA 0 first).wr .CHK_FAILHI_PSA 0 (first / 2 ^ 32)).putStatus z.buf 1 0 0 z.psa).postDrec z.owner z.drec z.head
        z.cal)) :
    d.sectorCheck =
      if z.cal then e else e.sectorFailed z.owner z.fseq z.psa z.head (some (bits (z.drec.getD 1 0) 16 16)) true := by
  subst hfirst he
  simp only [Dev.sectorCheck, hqueue, Dev.on_eq_true hon, hjudge]
  rfl

/-! ### Reconstructions -/

/-- What a reconstruction leaves of a request whose members have been read: the erased members in their buffers with status RECON, or
a failure (R227, R229). -/
def Dev.reconJudged (d : Dev) (z : Zone) (r : ReconReq) : Dev :=
  let away := erasedOf r
  let found := d.recover z r
  if found.2 && decide (away.length < z.ps) then
    let put := (away.zip found.1).foldl (fun y x => (y.mediaBytes x.1.buf (symbolBytes x.2)).putStatus x.1.buf 3 0 0 x.1.psa) d
    (put.recovDone r.owner (away.map Member.psa)).count .TPE_RECON_OK 0 away.length
  else (d.recovVain r.owner (away.map Member.psa)).count .TPE_RECON_FAIL

/-- A running reconstruction ends: its members are read, it is judged and reported, and waiting requests are taken up (R229,
R230). -/
theorem Dev.reconEnd_running {d e f : Dev} {k : Nat} {r : ReconReq} {z : Zone} (hrun : d.tpe.recon[k]? = some r)
    (he : e = { d with tpe := { d.tpe with recon := d.tpe.recon.eraseIdx k } }) (hzone : e.reconZone r = some z)
    {read : Dev × List Member} (hread : read = e.readMembers (4096 + metaSize z.metaSel) r.members)
    (hf : f = read.1.reconJudged z { r with members := read.2 }) :
    d.reconEnd k = (f.reconReport r.owner).reconFeed f.tpe.queue.length := by
  subst he hread hf
  simp only [Dev.reconEnd, hrun, hzone]
  rfl

/-- A parity error of an encode context abandons its job (R612). -/
theorem Dev.tpeParity_encode {d e : Dev} {q : Nat}
    (he : e = ({ (d.wr .TPE_STAT_ACCPAR 0 1) with tpe := { d.tpe with enc := Tab.del d.tpe.enc q } } : Dev).abandon q 1) :
    d.tpeParity q none =
      (e.raise 7 q (e.word .TPE_STAT)).reconFeed (e.raise 7 q (e.word .TPE_STAT)).tpe.queue.length := by
  subst he
  rfl

/-- One of a running reconstruction puts it back to wait (R612). -/
theorem Dev.tpeParity_recon {d e : Dev} {q k : Nat} {r : ReconReq} (hrun : d.tpe.recon[k]? = some r)
    (he : e = { (d.wr .TPE_STAT_ACCPAR 0 1) with
      tpe := { d.tpe with recon := d.tpe.recon.eraseIdx k, queue := d.tpe.queue ++ [r] } }) :
    d.tpeParity q (some k) =
      (e.raise 7 q (e.word .TPE_STAT)).reconFeed (e.raise 7 q (e.word .TPE_STAT)).tpe.queue.length := by
  subst he
  have hstuck : (d.stick .TPE_STAT_ACCPAR).tpe.recon[k]? = some r := hrun
  simp only [Dev.tpeParity, hstuck]
  rfl

/-! ### Reallocations and the defect map -/

/-- A member of a non-spare track that is not being moved already is taken up (R231). -/
theorem Dev.reallocate_fits {d : Dev} {surf track slot gen : Nat} {cmd : Option Nat} {z : Zone} {m : Move}
    (hrestored : d.rd .CFG_STAT_RESTORED ≠ 0) (hzone : d.zoneOf surf track = some z)
    (hfits : z.spareTrack track = false ∧ d.roleOf z surf track slot ≠ .spare)
    (hm : m = { surf := surf, track := track, slot := slot, gen := gen, cmd := cmd, tgt := none })
    (hnew : d.tpe.moves.any (fun x => x.member == m.member) = false) :
    d.reallocate surf track slot gen cmd =
      ({ d with tpe := { d.tpe with moves := d.tpe.moves ++ [m] },
                hlt := { d.hlt with cands := d.hlt.cands.filter fun p => p / 4096 != m.source / 4096 } }).moveStart m := by
  subst hm
  obtain ⟨hspare, hrole⟩ := hfits
  simp only [Dev.reallocate, hzone, Dev.on_eq_true hrestored, hspare, bne_iff_ne.mpr hrole, hnew]
  rfl

section Start

variable {d : Dev} {m : Move} {z : Zone} {surf track : Nat}

/-- It gets its target with the locks of both tracks (R232, R476). -/
theorem Dev.moveStart_locked (hsurf : m.surf = surf) (htrack : m.track = track) (hzone : d.zoneOf surf track = some z) {t n : Nat}
    (htarget : d.spareTarget z track = some (t, n)) (hlocks : d.mayLock m track = true ∧ d.mayLock m t = true) :
    d.moveStart m = ((d.lockFor m track).lockFor m t).setMove { m with tgt := some (t, n) } := by
  subst hsurf htrack
  simp only [Dev.moveStart, hzone, htarget, hlocks, Bool.and_self, if_true]

/-- With no target left the member stays in place, and HLT is told (R232, R605). -/
theorem Dev.moveStart_noTarget (hsurf : m.surf = surf) (htrack : m.track = track) (hzone : d.zoneOf surf track = some z)
    (htarget : d.spareTarget z track = none) :
    d.moveStart m = (((d.endMove m).noteNoSpare m).event 0x401 surf m.source (m.source / 2 ^ 32) 0).replace 1 := by
  subst hsurf htrack
  simp only [Dev.moveStart, hzone, htarget]

end Start

/-- After the restore an entry of the kinds 0 and 2 reaches the map (R234, R669). -/
theorem Dev.defectInsert_admitted {d : Dev} {x : MapEntry} (hrestored : d.rd .CFG_STAT_RESTORED ≠ 0) (hkind : x.kind = 0 ∨ x.kind = 2) :
    d.defectInsert x = d.mapInsert x (mkPsa x.surf x.track x.slot 0) :=
  if_pos (by simpa [Dev.on_eq_true hrestored] using hkind)

/-- Before it none does (R669). -/
theorem Dev.defectInsert_early {d : Dev} {x : MapEntry} (h : d.rd .CFG_STAT_RESTORED = 0) : d.defectInsert x = d :=
  if_neg (by simp [Dev.on_eq_false h])

/-- An entry for which the map has room is inserted with its bitmap bit (R235, R236). -/
theorem Dev.mapInsert_taken {d : Dev} {x : MapEntry} (h : (insertEntry x d.defectMap).length ≤ d.rd .TPE_DEFMAX_MAX) (member : Nat) :
    d.mapInsert x member = ((d.putMap (insertEntry x d.defectMap)).bitmapSet x.surf x.track).checkSpares :=
  if_pos (decide_eq_true h)

/-- At DEFMAX it is refused, and HLT is told of the member that stays (R237). -/
theorem Dev.mapInsert_full {d e : Dev} {x : MapEntry} (h : d.rd .TPE_DEFMAX_MAX < (insertEntry x d.defectMap).length) (member : Nat)
    (he : e = d.wr .TPE_STAT_DEFFULL 0 1) :
    d.mapInsert x member =
      { e with hlt := { e.hlt with
        unmoved := if e.hlt.unmoved.contains member then e.hlt.unmoved else e.hlt.unmoved ++ [member] } } := by
  subst he
  exact if_neg (by simpa [Dev.mapTakes] using h)

end Sys2Proof.Machine
end

section
/-! The statements of 05_detection_and_decoding that hold. -/

namespace Sys2Proof.Machine

/-- Settles O5: each clause is one rule of a sync search, the iteration bank, CHK, the decode engines or the track parity engine, once
its condition is decided. -/
theorem decodeAndTrackParity : Obligations.DecodeAndTrackParity := by
  unfold Obligations.DecodeAndTrackParity
  refine ⟨?syncWrite, ?syncLead, ?tableParity, ?noTable, ?capture, ?period, ?iteration, ?redetection, ?ctxParity, ?itbEnable,
    ?noborrow, ?forceoutIdle, ?forceoutRunning, ?readmit, ?parerr, ?timeout, ?selftestPassed, ?selftestFailed, ?checkPassed,
    ?checkFailed, ?tpeEnable, ?reconPermit, ?reconRequest, ?reconEnd, ?tpeParityEncode, ?tpeParityRecon, ?reallocate, ?moved,
    ?noTarget, ?mapInsert, ?mapEarly, ?mapFull⟩
  case syncWrite =>
    rintro s _ l cs q j x rest after rfl hodd hslot hjob hsearch hwrite hlast
    have htrail : (l.val % 2 == 0) = false := by simp [hodd]
    rw [exec_syncDeclare, Dev.syncDeclare_ripe hslot hjob (by simpa [htrail] using hsearch) hlast, htrail,
      Dev.declareSync_write hwrite _ _ _ rfl]
  case syncLead =>
    rintro s _ l cs q j x rest after rfl heven hslot hjob hsearch hother hlast
    have hlead : (l.val % 2 == 0) = true := by simp [heven]
    rw [exec_syncDeclare, Dev.syncDeclare_ripe hslot hjob (by simpa [hlead] using hsearch) hlast, hlead,
      Dev.declareSync_lead hother _ _ _ rfl]
  case tableParity =>
    rintro s _ k lead trail x j after rfl hctx hfilling hjob
    rw [exec_sectorCapture, Dev.sectorCapture_noTable hctx hfilling hjob (if_pos rfl)]
  case noTable =>
    rintro s _ k lead trail x j after rfl hctx hfilling hjob hcode
    rw [exec_sectorCapture, Dev.sectorCapture_noTable hctx hfilling hjob ((if_neg Bool.false_ne_true).trans hcode)]
  case capture =>
    rintro s _ k lead trail x j after rfl hctx hfilling hjob pr code hcode
    refine ⟨fun hearly => ?_, fun hformed => ?_⟩
    · rw [exec_sectorCapture, Dev.sectorCapture_early hctx hfilling hjob hcode rfl rfl rfl hearly]
    · obtain ⟨y, mean, meanT, soft, hphase, hguar, hgrant, hprofile, hctxCode, hseq, hdual, hfirst, hpost, hmsgs, hresult⟩ :=
        Dev.sectorCapture_formed (lead := lead) (trail := trail) hctx hfilling hjob hcode rfl rfl rfl hformed rfl
      refine ⟨y, mean, meanT, soft, hphase, hguar, hgrant, hprofile, hctxCode, hseq, hdual, hfirst, hpost, hmsgs, ?_⟩
      rw [exec_sectorCapture, hresult]
  case period =>
    rintro s _ rfl hstarted hctx hqueue hwait
    rw [exec_acornPeriod, Dev.acornPeriod_empty hstarted hctx hqueue hwait]
  case iteration =>
    rintro s _ e k x rfl hrunning
    rw [exec_localIterationEnd, Dev.iterationEnd_running hrunning rfl rfl rfl]
  case redetection =>
    rintro s _ p k x rfl hfound
    rw [exec_redetectionEnd, Dev.redetectionEnd_found hfound rfl rfl]
  case ctxParity =>
    rintro s _ k x rfl hctx
    rw [exec_contextParityError, Dev.ctxParity_held hctx rfl]
  case itbEnable =>
    rintro s _ on rfl
    rw [exec_itbEnable]
    rfl
  case noborrow =>
    rintro s _ on rfl
    rw [exec_itbNoborrow]
    rfl
  case forceoutIdle =>
    rintro s _ e rfl hoff hidle
    rw [exec_decodeEngineForceout, Dev.engineForceout_acts hoff, Dev.engineOut_idle hidle]
  case forceoutRunning =>
    rintro s _ e k x rfl hoff hrunning
    rw [exec_decodeEngineForceout, Dev.engineForceout_acts hoff, Dev.engineOut_running hrunning]
  case readmit =>
    rintro s _ e rfl hout
    rw [exec_decodeEngineReadmit, Dev.engineReadmit_out hout]
  case parerr =>
    rintro s _ e rfl hserving
    rw [exec_decodeEngineFault, Dev.engineFault_serving hserving rfl]
    rfl
  case timeout =>
    rintro s _ e rfl hserving
    rw [exec_decodeEngineFault, Dev.engineFault_serving hserving rfl]
    rfl
  case selftestPassed =>
    rintro s _ e rfl hcal
    rw [exec_engineSelftestEnd, Dev.selftestEnd_passed hcal]
  case selftestFailed =>
    rintro s _ e rfl hcal
    rw [exec_engineSelftestEnd, Dev.selftestEnd_failed hcal]
  case checkPassed =>
    rintro s _ z rest fill rfl hqueue hon hjudge
    rw [exec_sectorCheck, Dev.sectorCheck_passed hqueue hon hjudge rfl]
  case checkFailed =>
    rintro s _ z rest rfl hqueue hon hjudge
    rw [exec_sectorCheck, Dev.sectorCheck_failed hqueue hon hjudge rfl rfl]
  case tpeEnable =>
    rintro s _ on rfl
    rw [exec_tpeEnable]
  case reconPermit =>
    rintro s _ on rfl
    rw [exec_tpeReconPermit]
    rfl
  case reconRequest =>
    rintro s _ r rfl
    rw [exec_reconstructionRequest]
    rfl
  case reconEnd =>
    rintro s _ k r z rfl hrun hzone
    rw [exec_reconstructionEnd, Dev.reconEnd_running hrun rfl hzone rfl rfl]
    rfl
  case tpeParityEncode =>
    rintro s _ q rfl
    rw [exec_tpeContextParityError, Option.map_none, Dev.tpeParity_encode rfl]
  case tpeParityRecon =>
    rintro s _ q k r rfl hrun
    rw [exec_tpeContextParityError, Option.map_some, Dev.tpeParity_recon hrun rfl]
  case reallocate =>
    rintro s _ surf track slot gen cmd z rfl hrestored hzone hfits hnew
    rw [exec_reallocation, Dev.reallocate_fits hrestored hzone hfits rfl hnew]
  case moved =>
    rintro s _ surf track slot gen cmd z m d t n rfl hrestored hzone hfits hnew hm hd htarget hlocks
    have hzone' : d.zoneOf surf.val track.val = some z := by rw [hd]; exact hzone
    rw [exec_reallocation, Dev.reallocate_fits hrestored hzone hfits hm (by rw [hm]; exact hnew), ← hd,
      Dev.moveStart_locked (by rw [hm]) (by rw [hm]) hzone' htarget hlocks]
  case noTarget =>
    rintro s _ surf track slot gen cmd z m d rfl hrestored hzone hfits hnew hm hd htarget
    have hzone' : d.zoneOf surf.val track.val = some z := by rw [hd]; exact hzone
    rw [exec_reallocation, Dev.reallocate_fits hrestored hzone hfits hm (by rw [hm]; exact hnew), ← hd,
      Dev.moveStart_noTarget (by rw [hm]) (by rw [hm]) hzone' htarget]
  case mapInsert =>
    rintro s _ surf track slot kind tsurf ttrack tslot rfl hrestored hkind hroom
    have hkind' : kind.val = 0 ∨ kind.val = 2 := hkind.imp (congrArg Fin.val) (congrArg Fin.val)
    rw [exec_defectMapInsert, Dev.defectInsert_admitted hrestored hkind', Dev.mapInsert_taken hroom]
  case mapEarly =>
    rintro s _ surf track slot kind tsurf ttrack tslot rfl hearly
    rw [exec_defectMapInsert, Dev.defectInsert_early hearly]
  case mapFull =>
    rintro s _ surf track slot kind tsurf ttrack tslot rfl hrestored hkind hfull
    have hkind' : kind.val = 0 ∨ kind.val = 2 := hkind.imp (congrArg Fin.val) (congrArg Fin.val)
    rw [exec_defectMapInsert, Dev.defectInsert_admitted hrestored hkind', Dev.mapInsert_full hfull _ rfl]

/-- Settles O56: each command's effect is a few writes of the fields named for it, or none. -/
theorem registerFrames : Obligations.RegisterFrames := by
  unfold Obligations.RegisterFrames
  intro s
  refine ⟨?noborrow, ?recon, ?enable, ?resume, ?fsqStore, ?guard, ?readmit, ?veStore, ?hold, ?lock, ?temp, ?relock, ?foreign, ?motor⟩
  case noborrow => exact fun on => ⟨_, exec_itbNoborrow on s, Dev.onlyRegs_wr _ _ _ _⟩
  case recon => exact fun on => ⟨_, exec_tpeReconPermit on s, Dev.onlyRegs_wr _ _ _ _⟩
  case enable => exact fun q on => ⟨_, exec_fsqEnable q on s, Dev.onlyRegs_wr _ _ _ _⟩
  case resume => exact fun q => ⟨_, exec_fsqResume q s, Dev.fsqResume_onlyRegs _ _⟩
  case fsqStore => exact fun a on => ⟨_, exec_fsqStoreOpen a on s, Dev.storeOpen_onlyRegs _ _ _⟩
  case guard => exact fun a => ⟨_, exec_guardRelease a s, Dev.guardRelease_onlyRegs _ _⟩
  case readmit => exact fun h => ⟨_, exec_headReadmit h s, Dev.headReadmit_onlyRegs _ _⟩
  case veStore => exact fun k on => ⟨_, exec_veStoreOpen k on s, Dev.veStoreOpen_onlyRegs _ _ _⟩
  case hold => exact fun on => ⟨_, exec_schHold on s, Dev.onlyRegs_wr _ _ _ _⟩
  case lock => exact ⟨_, exec_faultLock s, Dev.onlyRegs_wr _ _ _ _⟩
  case temp => exact fun w => ⟨_, exec_faultConfigWrite .temp w s, Dev.fltConfig_temp_onlyRegs _ _⟩
  case relock => exact fun k => ⟨_, exec_clockRelock k s, Dev.onlyRegs_wr _ _ _ _⟩
  case foreign => exact ⟨_, exec_foreignFrameReceive s, Dev.countForeign_onlyRegs _⟩
  case motor => exact fun w => ⟨_, exec_motorConfigWrite w s, Dev.motorConfig_onlyRegs _ _⟩

end Sys2Proof.Machine
end

section
/-! The words of a format sequencer: what a field of the microword in issue does once its turn has come (R256-R261), and what becomes of
a word that does not issue (R260, R261, R275). -/

namespace Sys2Proof.Machine

/-- A command that runs `f` is known by what `f` makes of the device it meets. -/
theorem exec_of_met {c : Instr} {s : State} {d e : Dev} (f : Dev → Dev) (hmet : s.dev.met = d) (h : f d = e)
    (hrun : exec c s = s.run f := by rfl) : exec c s = .next (s.after e) := by
  rw [hrun, State.run, hmet, h]

/-! ### Fields in issue -/

/-- What a field does for the job of its sequencer, once its turn has come. -/
theorem Dev.fieldAct_job {d : Dev} {q : Nat} {f : MField} {codes : List Nat} {j : Job} {g : Dev → Nat → Job → Dev}
    (h : d.fieldReady q f codes = true) (hjob : (d.seq q).job = some j) :
    (d.fieldAct q f codes fun d w => d.withJob q fun j => g d w j) = g (d.acting q f) (d.mword q) j := by
  have hacting : ((d.acting q f).seq q).job = some j := by rw [Dev.seq_acting, hjob]
  rw [Dev.fieldAct_ready _ h, Dev.withJob, hacting]

/-- An illegal word is refused at its first field: FSQILL is raised and the job abandoned (R260, R275). -/
theorem Dev.fieldAct_illegal {d : Dev} {q : Nat} {f : MField} {codes : List Nat} {g : Dev → Nat → Dev} (hissue : d.issuing q = true)
    (hcode : f.code (d.mword q) ∈ codes) (hbreak : d.breakDue q (d.mword q) = false) (hturn : (d.seq q).turn (d.mword q) f = true)
    (hfirst : (d.seq q).acted = []) (hillegal : d.illegal q (d.mword q) = true) :
    d.fieldAct q f codes g = (d.raise 9 q (d.word .FSQ_PC q)).abandon q 4 := by
  have hnamed : codes.contains (f.code (d.mword q)) = true := List.contains_iff_mem.mpr hcode
  simp only [Dev.fieldAct, hissue, hnamed, hbreak, hturn, hfirst, hillegal]
  rfl

/-- A legal word that names a resource with no room waits at its first field, with QSTALL (R261). -/
theorem Dev.fieldAct_stalled {d : Dev} {q : Nat} {f : MField} {codes : List Nat} {g : Dev → Nat → Dev} (hissue : d.issuing q = true)
    (hcode : f.code (d.mword q) ∈ codes) (hbreak : d.breakDue q (d.mword q) = false) (hturn : (d.seq q).turn (d.mword q) f = true)
    (hfirst : (d.seq q).acted = []) (hlegal : d.illegal q (d.mword q) = false) (hstalls : d.stalls q (d.mword q) = true) :
    d.fieldAct q f codes g = d.wr .FSQ_STAT_QSTALL q 1 := by
  have hnamed : codes.contains (f.code (d.mword q)) = true := List.contains_iff_mem.mpr hcode
  simp only [Dev.fieldAct, hissue, hnamed, hbreak, hturn, hfirst, hlegal, hstalls]
  rfl

/-- While a field acts, the word's condition is the one its first field fixed, or else the one of this cycle (R256). -/
theorem Dev.issueCond_acting (d : Dev) (q : Nat) (f : MField) (w : Nat) :
    (d.acting q f).issueCond q w = (d.seq q).cond.getD (d.wordCond q (d.mword q)) := by
  rw [Dev.issueCond, Dev.seq_acting, Option.getD_some]

@[simp] theorem Dev.jobHead_acting (d : Dev) (q : Nat) (f : MField) : (d.acting q f).jobHead q = d.jobHead q := by
  simp [Dev.jobHead]

/-! ### SEQ (R256) -/

section Flow

variable {d : Dev} {q : Nat}

theorem Dev.seqBr_ready (h : d.fieldReady q .seq [1] = true) :
    d.seqBr q = (d.acting q .seq).nextWord q
      (if (d.seq q).cond.getD (d.wordCond q (d.mword q)) then mTgt (d.mword q) else (d.rd .FSQ_PC_PC q + 1) % 4096) := by
  rw [Dev.seqBr, Dev.fieldAct_ready _ h, Dev.issueCond_acting]
  rfl

/-- WAIT looks at the condition after the other fields have acted: where it holds the word ends. -/
theorem Dev.seqWait_passes (h : d.fieldReady q .seq [2] = true) (hcond : (d.acting q .seq).wordCond q (d.mword q) = true) :
    d.seqWait q = (d.acting q .seq).nextWord q ((d.rd .FSQ_PC_PC q + 1) % 4096) :=
  (Dev.fieldAct_ready _ h).trans (if_pos hcond)

/-- Where it does not hold, SEQ is to act again. -/
theorem Dev.seqWait_waits (h : d.fieldReady q .seq [2] = true) (hcond : (d.acting q .seq).wordCond q (d.mword q) = false) :
    d.seqWait q = (d.acting q .seq).setSeq q { (d.acting q .seq).seq q with
      acted := ((d.acting q .seq).seq q).acted.filter (· != MField.seq.num) } :=
  (Dev.fieldAct_ready _ h).trans (if_neg (by simp [hcond]))

theorem Dev.seqCall_taken (h : d.fieldReady q .seq [3] = true) (hcond : (d.seq q).cond.getD (d.wordCond q (d.mword q)) = true) :
    d.seqCall q = ((d.acting q .seq).setSeq q { (d.acting q .seq).seq q with
      stack := ((d.rd .FSQ_PC_PC q + 1) % 4096) :: ((d.acting q .seq).seq q).stack }).nextWord q (mTgt (d.mword q)) :=
  (Dev.fieldAct_ready _ h).trans (if_pos (by rw [Dev.issueCond_acting, hcond]))

theorem Dev.seqCall_passes (h : d.fieldReady q .seq [3] = true) (hcond : (d.seq q).cond.getD (d.wordCond q (d.mword q)) = false) :
    d.seqCall q = (d.acting q .seq).nextWord q ((d.rd .FSQ_PC_PC q + 1) % 4096) :=
  (Dev.fieldAct_ready _ h).trans (if_neg (by rw [Dev.issueCond_acting, hcond]; decide))

theorem Dev.seqRet_taken {p : Nat} {rest : List Nat} (h : d.fieldReady q .seq [4] = true) (hstack : (d.seq q).stack = p :: rest)
    (hcond : (d.seq q).cond.getD (d.wordCond q (d.mword q)) = true) :
    d.seqRet q = ((d.acting q .seq).setSeq q { (d.acting q .seq).seq q with stack := rest }).nextWord q p := by
  have hacting : ((d.acting q .seq).seq q).stack = p :: rest := by rw [Dev.seq_acting, hstack]
  rw [Dev.seqRet, Dev.fieldAct_ready _ h]
  simp only [hacting, Dev.issueCond_acting, hcond, if_true]

end Flow

/-! ### Gates (R262-R266) -/

section Gates

variable {d : Dev} {q : Nat} {j : Job}

/-- A read-gate action that the kind of job admits enters the queue (R262). -/
theorem Dev.rgAction_queued {opens : Bool} {codes : List Nat} (h : d.fieldReady q .rg codes = true) (hjob : (d.seq q).job = some j)
    (hadmitted : rgIgnored j.kind (MField.rg.code (d.mword q)) = false) {x : Seq} (hx : (d.acting q .rg).seq q = x) :
    d.rgAction q opens codes = (d.acting q .rg).setSeq q
      { x with rgq := x.rgq ++ [mkAct opens (x.gateTarget (MField.rg.code (d.mword q))) none] } := by
  subst hx
  exact (Dev.fieldAct_job h hjob).trans (if_neg (by simp [hadmitted]))

/-- Any other sets RGIGN (R263, R264). -/
theorem Dev.rgAction_ignored {opens : Bool} {codes : List Nat} (h : d.fieldReady q .rg codes = true) (hjob : (d.seq q).job = some j)
    (hignored : rgIgnored j.kind (MField.rg.code (d.mword q)) = true) :
    d.rgAction q opens codes = (d.acting q .rg).wr .FSQ_STAT_RGIGN q 1 :=
  (Dev.fieldAct_job h hjob).trans (if_pos hignored)

/-- A verify-gate action that the kind of job admits enters the queue (R262). -/
theorem Dev.vgAction_queued {opens : Bool} {codes : List Nat} (h : d.fieldReady q .vg codes = true) (hjob : (d.seq q).job = some j)
    (hadmitted : vgIgnored j.kind (MField.vg.code (d.mword q)) = false) {x : Seq} (hx : (d.acting q .vg).seq q = x) :
    d.vgAction q opens codes = (d.acting q .vg).setSeq q
      { x with vgq := x.vgq ++ [mkAct opens (x.gateTarget (MField.vg.code (d.mword q))) none] } := by
  subst hx
  exact (Dev.fieldAct_job h hjob).trans (if_neg (by simp [hadmitted]))

/-- Any other sets VGIGN (R263, R264). -/
theorem Dev.vgAction_ignored {opens : Bool} {codes : List Nat} (h : d.fieldReady q .vg codes = true) (hjob : (d.seq q).job = some j)
    (hignored : vgIgnored j.kind (MField.vg.code (d.mword q)) = true) :
    d.vgAction q opens codes = (d.acting q .vg).wr .FSQ_STAT_VGIGN q 1 :=
  (Dev.fieldAct_job h hjob).trans (if_pos hignored)

/-- OPEN at the first usable position of the next prepared slot enters the write gate's queue (R265). -/
theorem Dev.wgOpen_queued {n : Nat} (h : d.fieldReady q .wg [1, 4, 6] = true) (hjob : (d.seq q).job = some j)
    (htarget : (d.seq q).gateTarget (MField.wg.code (d.mword q)) = some (n * j.l)) (hslot : (d.acting q .wg).unnamed q = some n)
    {x : Seq} (hx : (d.acting q .wg).seq q = x) :
    d.wgOpen q = (d.acting q .wg).setSeq q { x with wgq := x.wgq ++ [mkAct true (some (n * j.l)) (some n)] } := by
  have hacting : x.gateTarget (MField.wg.code (d.mword q)) = some (n * j.l) := by
    rw [← hx, Dev.seq_acting, ← htarget]
    rfl
  rw [Dev.wgOpen, Dev.fieldAct_job h hjob]
  simp only [hx, hacting, hslot, if_true]

/-- With no slot prepared OPEN is a format error (R263). -/
theorem Dev.wgOpen_unprepared (h : d.fieldReady q .wg [1, 4, 6] = true) (hjob : (d.seq q).job = some j)
    (hnone : (d.acting q .wg).unnamed q = none) : d.wgOpen q = (d.acting q .wg).abandon q 3 := by
  rw [Dev.wgOpen, Dev.fieldAct_job h hjob]
  simp only [hnone]
  cases ((d.acting q .wg).seq q).gateTarget (MField.wg.code (d.mword q)) <;> rfl

/-- What the head of a gate's queue does in the present cycle. -/
def Dev.gateHeadActs (d : Dev) (s : Nat) (j : Job) : GateName → Dev
  | .rgLead => d.rgAct s j true
  | .rgTrail => d.rgAct s j false
  | .wg => d.wgAct s j
  | .vg => d.vgAct s j

theorem Dev.gateAct_valid (g : GateName) (hbusy : d.seqBusy q = true) (hvalid : d.rd .ANG_STAT_STATE = 2)
    (hjob : (d.seq q).job = some j) : d.gateAct q g = d.gateHeadActs q j g := by
  simp only [Dev.gateAct, hbusy, d.angValid_iff.mpr hvalid, Dev.withJob, hjob]
  cases g <;> rfl

/-- No gate moves while the angle base is not valid (R21). -/
theorem Dev.gateAct_invalid (g : GateName) (hinvalid : d.rd .ANG_STAT_STATE ≠ 2) : d.gateAct q g = d :=
  if_pos (by simp [Dev.angValid_eq_false hinvalid])

/-- A read gate's OPEN acts on the lead lane (R262, R265). -/
theorem Dev.rgAct_leadOpens {a : GateAct} {rest : List GateAct} {u k : Nat}
    (hhead : takeRg true ((d.seq q).routes == 2) (d.seq q).rgq = some (a, rest)) (hopens : a.opens = true)
    (hedge : d.actsAt q 0 a = some (u, k)) :
    d.rgAct q j true =
      (d.setSeq q { d.seq q with rgq := rest, rgLead := true, fromLead := u / max 1 j.l }).openGate (2 * j.pair) k := by
  simp only [Dev.rgAct, Bool.not_true, Bool.false_and, Bool.false_eq_true, if_false, if_true, hhead, hedge, hopens]

end Gates

/-! ### Servo gating and sync searches (R258, R264, R267) -/

section Searches

variable {d : Dev} {q : Nat} {j : Job}

theorem Dev.svgOff_calibration (h : d.fieldReady q .svg [2] = true) (hjob : (d.seq q).job = some j) (hkind : j.kind = 2) :
    d.svgOff q = (d.acting q .svg).setSeq q { (d.acting q .svg).seq q with svgOn := false } :=
  (Dev.fieldAct_job h hjob).trans (if_pos hkind)

/-- Outside a calibration job servo gating stays on, and SVIGN is set (R264). -/
theorem Dev.svgOff_ignored (h : d.fieldReady q .svg [2] = true) (hjob : (d.seq q).job = some j) (hkind : j.kind ≠ 2) :
    d.svgOff q = (d.acting q .svg).wr .FSQ_STAT_SVIGN q 1 :=
  (Dev.fieldAct_job h hjob).trans (if_neg hkind)

theorem Dev.synArmLead_arms (h : d.fieldReady q .syn [4] = true) (hjob : (d.seq q).job = some j) (hkind : j.kind ≠ 1) {x : Seq}
    (hx : (d.acting q .syn).seq q = x) :
    d.synArmLead q = (d.acting q .syn).setSeq q
      { x with srchLead := x.srchLead ++ [(d.acting q .syn).search (2 * j.pair) (d.rd .FSQ_ENTRY_SLOT q)] } := by
  subst hx
  exact (Dev.fieldAct_job h hjob).trans (if_neg hkind)

end Searches

/-! ### The entry list and writer data (R248, R249, R284) -/

section Entries

variable {d : Dev} {q : Nat} {j : Job}

/-- FETCH shows the next entry of the list (R248). -/
theorem Dev.jopFetch_entry {e : Entry} (h : d.fieldReady q .jop [1] = true) (hjob : (d.seq q).job = some j)
    (hentry : j.entries[(d.seq q).next]? = some e) {d1 : Dev}
    (hd1 : d1 = (d.acting q .jop).setSeq q { (d.acting q .jop).seq q with next := (d.seq q).next + 1 }) :
    d.jopFetch q = (((d1.wr .FSQ_ENTRY_VALID q 1).wr .FSQ_ENTRY_INDEX q (d.seq q).next).wr .FSQ_ENTRY_ROLE q e.role).wr
      .FSQ_ENTRY_SLOT q e.slot := by
  subst hd1
  rw [Dev.jopFetch, Dev.fieldAct_job h hjob]
  simp only [Dev.seq_acting, hentry]

/-- Past the list's end it sets LISTEND. -/
theorem Dev.jopFetch_end (h : d.fieldReady q .jop [1] = true) (hjob : (d.seq q).job = some j)
    (hend : j.entries[(d.seq q).next]? = none) : d.jopFetch q = (d.acting q .jop).wr .FSQ_ENTRY_LISTEND q 1 := by
  rw [Dev.jopFetch, Dev.fieldAct_job h hjob]
  simp only [Dev.seq_acting, hend]

/-- DONE marks the current entry, and commits it where its capture or its gate is over (R249). -/
theorem Dev.jopDone_marks (h : d.fieldReady q .jop [2] = true) (hvalid : d.rd .FSQ_ENTRY_VALID q ≠ 0)
    (hnew : (d.seq q).done.contains (d.rd .FSQ_ENTRY_INDEX q) = false) {x : Seq} (hx : (d.acting q .jop).seq q = x) :
    d.jopDone q = (d.acting q .jop).setSeq q { x with
      done := x.done ++ [d.rd .FSQ_ENTRY_INDEX q],
      committed := if x.met.contains (d.rd .FSQ_ENTRY_INDEX q) then x.committed ++ [d.rd .FSQ_ENTRY_INDEX q] else x.committed } := by
  have hon : (d.acting q .jop).on .FSQ_ENTRY_VALID q = true := Dev.on_eq_true hvalid
  have hopen : x.done.contains (d.rd .FSQ_ENTRY_INDEX q) = false := by rw [← hx, Dev.seq_acting, hnew]
  rw [Dev.jopDone, Dev.fieldAct_ready _ h]
  simp only [hx, hon, Dev.rd_acting, hopen, Bool.not_true, Bool.or_self, Bool.false_eq_true, if_false]

/-- RETURN gives the current entry back to the job's owner. -/
theorem Dev.jopReturn_gives (h : d.fieldReady q .jop [3] = true) (hjob : (d.seq q).job = some j)
    (hvalid : d.rd .FSQ_ENTRY_VALID q ≠ 0) (hnew : (d.seq q).returned.contains (d.rd .FSQ_ENTRY_INDEX q) = false) {x : Seq}
    (hx : (d.acting q .jop).seq q = x) {d1 : Dev}
    (hd1 : d1 = (d.acting q .jop).setSeq q { x with returned := x.returned ++ [d.rd .FSQ_ENTRY_INDEX q] }) :
    d.jopReturn q = ({ d1 with sch := { d1.sch with returned := Tab.put d1.sch.returned q [d.rd .FSQ_ENTRY_INDEX q] } } : Dev).ceTrigger
      j.owner tRet 0 j.desc 0 1 x.committed.length := by
  have hon : (d.acting q .jop).on .FSQ_ENTRY_VALID q = true := Dev.on_eq_true hvalid
  have hopen : x.returned.contains (d.rd .FSQ_ENTRY_INDEX q) = false := by rw [← hx, Dev.seq_acting, hnew]
  rw [Dev.jopReturn, Dev.fieldAct_job h hjob]
  simp only [hx, hon, Dev.rd_acting, hopen, ← hd1, Bool.not_true, Bool.or_self, Bool.false_eq_true, if_false]

/-- PREP in a write job prepares the current entry (R284). -/
theorem Dev.wdsPrep_prepares {attempt : Nat} {stored : Option StoredParity} {e : Entry} (h : d.fieldReady q .wds [1] = true)
    (hjob : (d.seq q).job = some j) (hkind : j.kind = 1) (hentry : j.entries[d.rd .FSQ_ENTRY_INDEX q]? = some e)
    (hvalid : d.rd .FSQ_ENTRY_VALID q ≠ 0) :
    d.wdsPrep q attempt stored = (d.acting q .wds).prepEntry q j e (d.rd .FSQ_ENTRY_INDEX q) attempt stored := by
  have hon : (d.acting q .wds).on .FSQ_ENTRY_VALID q = true := Dev.on_eq_true hvalid
  rw [Dev.wdsPrep, Dev.fieldAct_job h hjob, if_neg (by simp [hkind])]
  simp only [Dev.rd_acting, hentry, hon, if_true]

/-- In any other it is a format error (R264). -/
theorem Dev.wdsPrep_otherKind {attempt : Nat} {stored : Option StoredParity} (h : d.fieldReady q .wds [1] = true)
    (hjob : (d.seq q).job = some j) (hkind : j.kind ≠ 1) : d.wdsPrep q attempt stored = (d.acting q .wds).abandon q 3 :=
  (Dev.fieldAct_job h hjob).trans (if_pos (by simpa using hkind))

end Entries

/-! ### POST (R258, R279) -/

theorem Dev.postStatus_acting {d : Dev} {q : Nat} {j : Job} (f : MField) (hjob : (d.seq q).job = some j) :
    (d.acting q f).postStatus q = (d.acting q f).ceTrigger j.owner tMsg q (d.postWord q) 0 0 0 := by
  have hacting : ((d.acting q f).seq q).job = some j := by rw [Dev.seq_acting, hjob]
  rw [Dev.postStatus, Dev.withJob, hacting]
  rfl

/-! ### Compare units (R258, R259) -/

section Compares

variable {d : Dev} {q : Nat}

@[simp] theorem Dev.ac_acting (d : Dev) (q : Nat) (f : MField) (b : Bool) : ((d.acting q f).seq q).ac b = (d.seq q).ac b := by
  rw [Dev.seq_acting]
  rfl

@[simp] theorem Dev.pcu_acting (d : Dev) (q : Nat) (f : MField) (b : Bool) : ((d.acting q f).seq q).pcu b = (d.seq q).pcu b := by
  rw [Dev.seq_acting]
  rfl

/-- An angle compare unit armed for `target` in `frame`, its flags cleared: LATE if the target has passed (R258). -/
def Dev.acArmed (d : Dev) (q : Nat) (b : Bool) (frame target : Nat) : Dev :=
  let x : AngCmp := { target := target, frame := frame, armed := true, late := d.cmpMet frame (d.jobHead q) target }
  (((d.setSeq q ((d.seq q).setAc b x)).wr (acFlds b).1 q 0).wr (acFlds b).2.1 q 0).wr (acFlds b).2.2 q 0

theorem Dev.acLoad_ready {code t : Nat} {f : Dev → AngCmp → Nat → Nat} (h : d.fieldReady q .ac [code] = true)
    (ht : f (d.acting q .ac) ((d.seq q).ac (bit (d.mword q) 123)) (d.mword q) = t) :
    d.acLoad q code f =
      (d.acting q .ac).acArmed q (bit (d.mword q) 123) (bits (d.mword q) 118 2) (t % 2 ^ 48) := by
  rw [Dev.acLoad, Dev.fieldAct_ready _ h, ← ht, ← Dev.ac_acting d q .ac]
  rfl

theorem Seq.setAc_disarmed (x : Seq) (b : Bool) :
    x.setAc b { x.ac b with armed := false } =
      if b then { x with acb := { x.acb with armed := false } } else { x with aca := { x.aca with armed := false } } := by
  cases b <;> rfl

theorem Dev.acDisarm_ready (h : d.fieldReady q .ac [5] = true) {x : Seq} (hx : (d.acting q .ac).seq q = x) :
    d.acDisarm q = (d.acting q .ac).setSeq q
      (if bit (d.mword q) 123 then { x with acb := { x.acb with armed := false } }
       else { x with aca := { x.aca with armed := false } }) := by
  rw [← Seq.setAc_disarmed, ← hx]
  exact Dev.fieldAct_ready _ h

/-- A position compare unit armed for `target` of the counter `ctr`, its flag cleared (R258). -/
def Dev.pcArmed (d : Dev) (q : Nat) (b : Bool) (ctr target : Nat) : Dev :=
  (d.setSeq q ((d.seq q).setPcu b { target := target, ctr := ctr, armed := true })).wr (pcFld b) q 0

theorem Dev.pcLoad_ready {code : Nat} {t : Int} {j : Job} {f : Dev → Job → PosCmp → Int} (h : d.fieldReady q .pc [code] = true)
    (hjob : (d.seq q).job = some j) (ht : f (d.acting q .pc) j ((d.seq q).pcu (bit (d.mword q) 69)) = t) :
    d.pcLoad q code f =
      (d.acting q .pc).pcArmed q (bit (d.mword q) 69) (bits (d.mword q) 64 2)
        ((t + mImmP (d.mword q)) % (max 1 j.u : Nat)).toNat := by
  rw [Dev.pcLoad, Dev.fieldAct_job h hjob, ← ht, ← Dev.pcu_acting d q .pc]
  rfl

theorem Seq.setPcu_disarmed (x : Seq) (b : Bool) :
    x.setPcu b { x.pcu b with armed := false } =
      if b then { x with pcb := { x.pcb with armed := false } } else { x with pca := { x.pca with armed := false } } := by
  cases b <;> rfl

theorem Dev.pcDisarm_ready (h : d.fieldReady q .pc [5] = true) {x : Seq} (hx : (d.acting q .pc).seq q = x) :
    d.pcDisarm q = (d.acting q .pc).setSeq q
      (if bit (d.mword q) 69 then { x with pcb := { x.pcb with armed := false } }
       else { x with pca := { x.pca with armed := false } }) := by
  rw [← Seq.setPcu_disarmed, ← hx]
  exact Dev.fieldAct_ready _ h

/-- The counter of an armed unit reaches its target while the sequencer is busy (R259). -/
theorem Dev.pcMeet_met {b : Bool} (hbusy : d.seqBusy q = true) (harmed : ((d.seq q).pcu b).armed = true)
    (hmeets : d.meets q ((d.seq q).pcu b).ctr ((d.seq q).pcu b).target = true) : d.pcMeet q b = d.wr (pcFld b) q 1 :=
  if_pos (by simp [harmed, hbusy, hmeets])

end Compares

end Sys2Proof.Machine
end

section
/-! The states of a format sequencer (R243, R271, R275) and its control store (R276, R277). -/

namespace Sys2Proof.Machine

section States

variable {d : Dev} {q : Nat}

theorem Dev.fsqBreak_due (h : d.breakDue q (d.mword q) = true) :
    d.fsqBreak q = (d.setSeq q { d.seq q with brk := true }).wr .FSQ_STAT_STATE q 6 := if_pos h

theorem Dev.fetchParity_issuing (h : d.issuing q = true) {d1 : Dev}
    (hd1 : d1 = (d.wr .FSQ_PC_MCADDR q (d.rd .FSQ_PC_PC q)).wr .FSQ_CSSTAT_BADADDR (actOfSlot q) (d.rd .FSQ_PC_PC q)) :
    d.fetchParity q = (d1.raise 8 q (d1.word .FSQ_PC q)).abandon q 5 := by
  subst hd1
  exact if_neg (by simp [h])

theorem Dev.jobWatchdog_expired (h : max 1 (d.rd .FSQ_CFG_JOBREV q) ≤ (d.seq q).revs) : d.jobWatchdog q = d.abandon q 2 := if_pos h

/-- At the end of DRAIN the job ends, and with a calibration job the head's calibration (R243). -/
theorem Dev.drainEnd_drained {j : Job} (h : d.drained q = true) (hjob : (d.seq q).job = some j) :
    d.drainEnd q = if j.kind = 2 then (d.jobEnd q 1).headCalEnd j.head else d.jobEnd q 1 := by
  simp only [Dev.drainEnd, h, hjob, Bool.not_true, Bool.false_eq_true, if_false]

theorem Dev.drainEnd_waits (h : d.drained q = false) : d.drainEnd q = d := if_pos (by simp [h])

/-- CLRMCHK leaves MCHK. -/
theorem Dev.clrMchk_mchk (h : d.rd .FSQ_STAT_STATE q = 5) : d.clrMchk q = d.wr .FSQ_STAT_STATE q 1 := if_pos (by simp [h])

/-- STEP and RESUME act in HELD. -/
theorem Dev.fsqStep_held (h : d.rd .FSQ_STAT_STATE q = 6) : d.fsqStep q = d.setSeq q { d.seq q with step := true } :=
  if_pos (by simp [h])

theorem Dev.fsqResume_held (h : d.rd .FSQ_STAT_STATE q = 6) : d.fsqResume q = d.wr .FSQ_STAT_STATE q 2 := if_pos (by simp [h])

end States

section Stores

variable {d : Dev} {a : Nat}

/-- Closing the store takes effect at once; opening one that is not open yet waits for its sequencers (R276). -/
theorem Dev.storeOpen_changes {on : Bool} (h : on = false ∨ d.rd .FSQ_CSSTAT_OPENED a = 0) {d1 : Dev}
    (hd1 : d1 = d.wr .FSQ_CSCTL_OPEN a (bnat on)) :
    d.storeOpen a on = if on then d1.wr .FSQ_CSSTAT_DRAINING a 1 else (d1.wr .FSQ_CSSTAT_OPENED a 0).wr .FSQ_CSSTAT_DRAINING a 0 := by
  subst hd1
  cases on
  case false => rfl
  case true =>
    have hshut : d.rd .FSQ_CSSTAT_OPENED a = 0 := h.resolve_left (by decide)
    have hoff : (d.wrb .FSQ_CSCTL_OPEN a true).on .FSQ_CSSTAT_OPENED a = false := Dev.on_eq_false (by simpa [Dev.wrb] using hshut)
    simp only [Dev.storeOpen, hoff]
    rfl

/-- A store that waits opens once its eight sequencers are OFF, IDLE or in MCHK (R276). -/
theorem Dev.storeOpened_quiet (hdraining : d.rd .FSQ_CSSTAT_DRAINING a ≠ 0)
    (hquiet : ∀ k < 8, d.rd .FSQ_STAT_STATE (8 * a + k) = 0 ∨ d.rd .FSQ_STAT_STATE (8 * a + k) = 1 ∨
      d.rd .FSQ_STAT_STATE (8 * a + k) = 5) :
    d.storeOpened a = (d.wr .FSQ_CSSTAT_OPENED a 1).wr .FSQ_CSSTAT_DRAINING a 0 :=
  if_pos (by simpa [Dev.on_eq_true hdraining, or_assoc] using hquiet)

/-- A management core writes an open store (R276). -/
theorem Dev.fsqStoreWrite_open {k : Fin 8} {off size v : Nat} (haccess : storeAccess off size = true)
    (hopen : d.rd .FSQ_CSSTAT_OPENED a ≠ 0) :
    d.fsqStoreWrite (.mc k) a off size v = d.storeBytes (storeAddr a 0) (off % 0x20000) v 22 size := by
  simp only [Dev.fsqStoreWrite, haccess, Dev.on_eq_true hopen, Bool.not_true, Bool.false_eq_true, if_false, if_true]

/-- Its write to a closed store is dropped, with WDROP. -/
theorem Dev.fsqStoreWrite_closed {k : Fin 8} {off size v : Nat} (haccess : storeAccess off size = true)
    (hclosed : d.rd .FSQ_CSSTAT_OPENED a = 0) : d.fsqStoreWrite (.mc k) a off size v = d.wr .FSQ_CSSTAT_WDROP a 1 := by
  simp only [Dev.fsqStoreWrite, haccess, Dev.on_eq_false hclosed, Bool.not_true, Bool.false_eq_true, if_false]
  rfl

/-- It reads any store. -/
theorem Dev.fsqStoreRead_core {k : Fin 8} {off size : Nat} (bad : Bool) (haccess : storeAccess off size = true) {d1 : Dev}
    (hd1 : d1 = if bad then d.wr .FSQ_CSSTAT_RPERR a 1 else d) :
    d.fsqStoreRead (.mc k) a off size bad = d1.emit (.data (2 + k.val) (d1.ldN (storeAddr a 0 + off % 0x20000) size)) := by
  subst hd1
  exact if_neg (by simp [haccess])

/-- The service port reads none. -/
theorem Dev.fsqStoreRead_svc (d : Dev) (a off size : Nat) (bad : Bool) :
    d.fsqStoreRead .svc a off size bad = d.emit (.busError 1) := rfl

end Stores

end Sys2Proof.Machine
end

section
/-! The write path's own events (R286, R289-R291, R296). -/

namespace Sys2Proof.Machine

/-- A parity error in the codeword that the writer drives (R289). -/
theorem Dev.prepParity_driven {d : Dev} {q n : Nat} (hcur : (d.wslot q).cur = some n)
    (hdriven : (d.wslot q).emits.any (fun e => e.slot == n && e.driven) = true) {d1 d2 : Dev}
    (hd1 : d1 = d.setWslot q { ((d.wslot q).onEmit n fun e => { e with written := false }) with idleSlot := true })
    (hd2 : d2 = (d1.idleOutput q).wr .WRF_STAT_WRFPAR 0 1) : d.prepParity q = d2.raise 13 q (d2.word .WRF_SSTAT q) := by
  subst hd1 hd2
  simp only [Dev.prepParity, hcur, hdriven, Bool.not_true, Bool.false_eq_true, if_false]
  rfl

/-- A writer whose fence fails goes idle (R290). -/
theorem Dev.checkFence_fails {d : Dev} {q : Nat} {j : Job} (hjob : (d.seq q).job = some j) (hfence : d.fence q j = false) :
    d.checkFence q = d.goIdle q :=
  if_pos (by simp [Dev.fenceFails, hjob, hfence])

/-- Before the end of its codeword, that leaves the slot under it unwritten (R291). -/
theorem Dev.goIdle_unwritten {d d1 : Dev} {q n : Nat} {j : Job} (hd1 : d1 = d.idleOutput q) (hjob : (d1.seq q).job = some j)
    (hcur : (d1.wslot q).cur = some n) (hpast : d1.pastCode q j n = false) :
    d.goIdle q = d1.setWslot q { ((d1.wslot q).onEmit n fun e => { e with written := false }) with idleSlot := true } := by
  simp only [Dev.goIdle, ← hd1, hjob, hcur, hpast, Bool.false_eq_true, if_false]

/-- The inhibit ends once enough strobes have passed with no trip (R296). -/
theorem Dev.guardRelease_clean {d : Dev} {a : Nat} (h : d.rd .WRF_GUARD_HOLD a < Tab.getD d.wrf.clean a 0) :
    d.guardRelease a = d.wr .WRF_GSTAT_INHIBIT a 0 := if_pos h

end Sys2Proof.Machine
end

section
/-! What the compare and counter fields of a sequencer and STAMP leave unchanged: each is a few writes of the sequencer's own compare
units, stamp, counters and compare flags. -/

namespace Sys2Proof.Machine

/-- Gates, call stack, job and acted fields of a sequencer. -/
def Seq.gatesAndJob (x : Seq) : Bool × Bool × Bool × Bool × List Nat × Option Job × List Nat :=
  (x.rgLead, x.rgTrail, x.wg, x.vg, x.stack, x.job, x.acted)

@[simp] theorem Seq.gatesAndJob_setAc (x : Seq) (b : Bool) (y : AngCmp) : (x.setAc b y).gatesAndJob = x.gatesAndJob := by
  cases b <;> rfl

@[simp] theorem Seq.gatesAndJob_setPcu (x : Seq) (b : Bool) (y : PosCmp) : (x.setPcu b y).gatesAndJob = x.gatesAndJob := by
  cases b <;> rfl

/-- The counters of a sequencer and the flags of its angle compares. -/
def countFlds : List Fld :=
  [.FSQ_CNT_CNT0, .FSQ_CNT_CNT1, .FSQ_CMPSTAT_ACAF, .FSQ_CMPSTAT_ACALATE, .FSQ_CMPSTAT_ACALOST, .FSQ_CMPSTAT_ACBF,
    .FSQ_CMPSTAT_ACBLATE, .FSQ_CMPSTAT_ACBLOST]

theorem acFlds_mem (b : Bool) : (acFlds b).1 ∈ countFlds ∧ (acFlds b).2.1 ∈ countFlds ∧ (acFlds b).2.2 ∈ countFlds := by
  cases b <;> decide

/-- `e` differs from `d` in sequencer `q` alone, there in no gate, in no call, in no job and in no acted field, and in `q`'s counters and
angle compare flags. -/
structure Dev.CountsOnly (d e : Dev) (q : Nat) : Prop where
  elsewhere : e = { d with regs := e.regs, fsq := { d.fsq with seqs := e.fsq.seqs } }
  others : ∀ j, j ≠ q → e.seq j = d.seq j
  own : (e.seq q).gatesAndJob = (d.seq q).gatesAndJob
  fields : ∀ (g : Fld) (i : Nat), i ≠ q ∨ g ∉ countFlds → e.rd g i = d.rd g i

theorem Dev.CountsOnly.refl (d : Dev) (q : Nat) : d.CountsOnly d q := ⟨rfl, fun _ _ => rfl, rfl, fun _ _ _ => rfl⟩

theorem Dev.CountsOnly.setSeq {d e : Dev} {q : Nat} (h : d.CountsOnly e q) {x : Seq} (hx : x.gatesAndJob = (e.seq q).gatesAndJob) :
    d.CountsOnly (e.setSeq q x) q where
  elsewhere := congrArg (·.setSeq q x) h.elsewhere
  others j hj := (Dev.seq_setSeq_ne e x hj).trans (h.others j hj)
  own := by rw [Dev.seq_setSeq_self, hx, h.own]
  fields := h.fields

theorem Dev.CountsOnly.wr {d e : Dev} {q : Nat} (h : d.CountsOnly e q) {f : Fld} (hf : f ∈ countFlds) (v : Nat) :
    d.CountsOnly (e.wr f q v) q where
  elsewhere := congrArg (·.wr f q v) h.elsewhere
  others := h.others
  own := h.own
  fields g i hg := by
    refine (Dev.rd_wr_ne e v ?_).trans (h.fields g i hg)
    rintro ⟨rfl, rfl⟩
    exact hg.elim (· rfl) (· hf)

section Fields

variable {d : Dev} {q : Nat}

theorem Dev.acArmed_countsOnly (d : Dev) (q : Nat) (b : Bool) (frame target : Nat) : d.CountsOnly (d.acArmed q b frame target) q := by
  obtain ⟨hfired, hlate, hlost⟩ := acFlds_mem b
  exact ((((Dev.CountsOnly.refl d q).setSeq (Seq.gatesAndJob_setAc _ _ _)).wr hfired 0).wr hlate 0).wr hlost 0

theorem Dev.acLoad_countsOnly {code : Nat} (f : Dev → AngCmp → Nat → Nat) (h : d.fieldReady q .ac [code] = true) :
    (d.acting q .ac).CountsOnly (d.acLoad q code f) q := by
  rw [Dev.acLoad_ready h rfl]
  exact Dev.acArmed_countsOnly _ _ _ _ _

theorem Dev.acDisarm_countsOnly (h : d.fieldReady q .ac [5] = true) : (d.acting q .ac).CountsOnly (d.acDisarm q) q := by
  rw [Dev.acDisarm, Dev.fieldAct_ready _ h]
  exact (Dev.CountsOnly.refl _ q).setSeq (Seq.gatesAndJob_setAc _ _ _)

theorem Dev.pcDisarm_countsOnly (h : d.fieldReady q .pc [5] = true) : (d.acting q .pc).CountsOnly (d.pcDisarm q) q := by
  rw [Dev.pcDisarm, Dev.fieldAct_ready _ h]
  exact (Dev.CountsOnly.refl _ q).setSeq (Seq.gatesAndJob_setPcu _ _ _)

theorem Dev.cntOp_countsOnly {c1 : Bool} {code : Nat} (f : Nat → Nat → Nat)
    (h : d.fieldReady q (if c1 then .c1 else .c0) [code] = true) :
    (d.acting q (if c1 then .c1 else .c0)).CountsOnly (d.cntOp q c1 code f) q := by
  rw [Dev.cntOp, Dev.fieldAct_ready _ h]
  exact (Dev.CountsOnly.refl _ q).wr (by cases c1 <;> decide) _

theorem Dev.stampNow_countsOnly (h : d.fieldReady q .stamp [1] = true) : (d.acting q .stamp).CountsOnly (d.stampNow q) q := by
  rw [Dev.stampNow, Dev.fieldAct_ready _ h]
  exact (Dev.CountsOnly.refl _ q).setSeq rfl

end Fields

end Sys2Proof.Machine
end

section
/-! The statements of 07_format_sequencers that hold. -/

namespace Sys2Proof.Machine

/-- Settles O57: each of the fields keeps to its sequencer's compare units, stamp, counters and flags, and marking it as done changes only
the fields that have acted and the condition. -/
theorem sequencerFrames : Obligations.SequencerFrames := by
  unfold Obligations.SequencerFrames
  intro s d q f k c hmet hready hfield
  obtain ⟨e, hexec, helsewhere, hothers, hown, hfields⟩ :
      ∃ e, exec c s = .next (s.after e) ∧ (d.acting q.val f).CountsOnly e q.val := by
    simp only [List.mem_cons, Prod.mk.injEq, List.not_mem_nil, or_false] at hfield
    rcases hfield with ⟨rfl, rfl, rfl⟩ | ⟨rfl, rfl, rfl⟩ | ⟨rfl, rfl, rfl⟩ | ⟨rfl, rfl, rfl⟩ | ⟨rfl, rfl, rfl⟩ | ⟨rfl, rfl, rfl⟩ |
      ⟨rfl, rfl, rfl⟩ | ⟨rfl, rfl, rfl⟩ | ⟨rfl, rfl, rfl⟩ | ⟨rfl, rfl, rfl⟩ | ⟨rfl, rfl, rfl⟩ | ⟨rfl, rfl, rfl⟩ | ⟨rfl, rfl, rfl⟩
    · exact ⟨_, exec_of_met (fun d => d.acLoad q.val 1 fun d _ w => d.jstart q.val + mImmA w) hmet rfl,
        Dev.acLoad_countsOnly _ hready⟩
    · exact ⟨_, exec_of_met (fun d => d.acLoad q.val 2 fun _ x w => x.target + mImmA w) hmet rfl, Dev.acLoad_countsOnly _ hready⟩
    · exact ⟨_, exec_of_met (fun d => d.acLoad q.val 3 fun d _ w => d.frameAngle (bits w 118 2) (d.jobHead q.val) + mImmA w) hmet rfl,
        Dev.acLoad_countsOnly _ hready⟩
    · exact ⟨_, exec_of_met (fun d => d.acLoad q.val 4 fun _ _ w => mImmA w) hmet rfl, Dev.acLoad_countsOnly _ hready⟩
    · exact ⟨_, exec_of_met (·.acDisarm q.val) hmet rfl, Dev.acDisarm_countsOnly hready⟩
    · exact ⟨_, exec_of_met (·.pcDisarm q.val) hmet rfl, Dev.pcDisarm_countsOnly hready⟩
    · exact ⟨_, exec_of_met (fun d => d.cntOp q.val false 1 fun _ i => i) hmet rfl, Dev.cntOp_countsOnly (c1 := false) _ hready⟩
    · exact ⟨_, exec_of_met (fun d => d.cntOp q.val true 1 fun _ i => i) hmet rfl, Dev.cntOp_countsOnly (c1 := true) _ hready⟩
    · exact ⟨_, exec_of_met (fun d => d.cntOp q.val false 2 fun n _ => n - 1) hmet rfl, Dev.cntOp_countsOnly (c1 := false) _ hready⟩
    · exact ⟨_, exec_of_met (fun d => d.cntOp q.val true 2 fun n _ => n - 1) hmet rfl, Dev.cntOp_countsOnly (c1 := true) _ hready⟩
    · exact ⟨_, exec_of_met (fun d => d.cntOp q.val false 3 fun n _ => n + 1) hmet rfl, Dev.cntOp_countsOnly (c1 := false) _ hready⟩
    · exact ⟨_, exec_of_met (fun d => d.cntOp q.val true 3 fun n _ => n + 1) hmet rfl, Dev.cntOp_countsOnly (c1 := true) _ hready⟩
    · exact ⟨_, exec_of_met (·.stampNow q.val) hmet rfl, Dev.stampNow_countsOnly hready⟩
  simp only [Seq.gatesAndJob, Dev.seq_acting, Prod.mk.injEq] at hown
  obtain ⟨hlead, htrail, hwg, hvg, hstack, hjob, hacted⟩ := hown
  refine ⟨e, hexec, helsewhere, fun j hj => ?_, hlead, htrail, hwg, hvg, hstack, hjob, hacted, hfields⟩
  rw [hothers j hj, Dev.acting, Dev.seq_setSeq_ne _ _ hj]

/-- Settles O6: each clause is one rule of a word's issue, of a sequencer's state or of its store, once its condition is decided. -/
theorem sequencerFlow : Obligations.SequencerFlow := by
  unfold Obligations.SequencerFlow
  refine ⟨?cont, ?branch, ?waitPasses, ?waitWaits, ?callTaken, ?callPasses, ?ret, ?dispatch, ?ends, ?abandons, ?illegal, ?stalled,
    ?breakpoint, ?parity, ?watchdog, ?drained, ?draining, ?enable, ?stop, ?clrmchk, ?step, ?resume, ?storeOpen, ?storeOpened,
    ?writeOpen, ?writeClosed, ?coreRead, ?svcRead⟩
  case cont => exact fun s d q hmet h => exec_of_met (·.seqCont q.val) hmet (Dev.fieldAct_ready _ h)
  case branch => exact fun s d q hmet h => exec_of_met (·.seqBr q.val) hmet (Dev.seqBr_ready h)
  case waitPasses => exact fun s d q hmet h hcond => exec_of_met (·.seqWait q.val) hmet (Dev.seqWait_passes h hcond)
  case waitWaits => exact fun s d q hmet h hcond => exec_of_met (·.seqWait q.val) hmet (Dev.seqWait_waits h hcond)
  case callTaken => exact fun s d q hmet h hcond => exec_of_met (·.seqCall q.val) hmet (Dev.seqCall_taken h hcond)
  case callPasses => exact fun s d q hmet h hcond => exec_of_met (·.seqCall q.val) hmet (Dev.seqCall_passes h hcond)
  case ret => exact fun s d q p rest hmet h hstack hcond => exec_of_met (·.seqRet q.val) hmet (Dev.seqRet_taken h hstack hcond)
  case dispatch => exact fun s d q hmet h => exec_of_met (·.seqDisp q.val) hmet (Dev.fieldAct_ready _ h)
  case ends => exact fun s d q hmet h => exec_of_met (·.seqEnd q.val) hmet (Dev.fieldAct_ready _ h)
  case abandons => exact fun s d q hmet h => exec_of_met (·.seqAbandon q.val) hmet (Dev.fieldAct_ready _ h)
  case illegal =>
    intro s d q hmet hissue hcode hbreak hturn hfirst hillegal
    exact exec_of_met (·.seqCont q.val) hmet (Dev.fieldAct_illegal hissue (by simp [hcode]) hbreak hturn hfirst hillegal)
  case stalled =>
    intro s d q hmet hissue hcode hbreak hturn hfirst hlegal hstalls
    exact exec_of_met (·.wgClose q.val) hmet (Dev.fieldAct_stalled hissue (by simp [hcode]) hbreak hturn hfirst hlegal hstalls)
  case breakpoint => exact fun s d q hmet h => exec_of_met (·.fsqBreak q.val) hmet (Dev.fsqBreak_due h)
  case parity => exact fun s d q hmet h => exec_of_met (·.fetchParity q.val) hmet (Dev.fetchParity_issuing h rfl)
  case watchdog => exact fun s d q hmet h => exec_of_met (·.jobWatchdog q.val) hmet (Dev.jobWatchdog_expired h)
  case drained => exact fun s d q j hmet h hjob => exec_of_met (·.drainEnd q.val) hmet (Dev.drainEnd_drained h hjob)
  case draining => exact fun s d q hmet h => exec_of_met (·.drainEnd q.val) hmet (Dev.drainEnd_waits h)
  case enable => exact fun s d q on hmet => exec_of_met (·.wrb .FSQ_CTL_ENABLE q.val on) hmet rfl
  case stop => exact fun s d q hmet => exec_of_met (·.abandon q.val 1) hmet rfl
  case clrmchk => exact fun s d q hmet h => exec_of_met (·.clrMchk q.val) hmet (Dev.clrMchk_mchk h)
  case step => exact fun s d q hmet h => exec_of_met (·.fsqStep q.val) hmet (Dev.fsqStep_held h)
  case resume => exact fun s d q hmet h => exec_of_met (·.fsqResume q.val) hmet (Dev.fsqResume_held h)
  case storeOpen => exact fun s d a on hmet h => exec_of_met (·.storeOpen a.val on) hmet (Dev.storeOpen_changes h rfl)
  case storeOpened => exact fun s d a hmet h hquiet => exec_of_met (·.storeOpened a.val) hmet (Dev.storeOpened_quiet h hquiet)
  case writeOpen =>
    intro s d k a off size v hmet haccess hopen
    exact exec_of_met (·.fsqStoreWrite (.mc k) a.val off size v.toNat) hmet (Dev.fsqStoreWrite_open haccess hopen)
  case writeClosed =>
    intro s d k a off size v hmet haccess hclosed
    exact exec_of_met (·.fsqStoreWrite (.mc k) a.val off size v.toNat) hmet (Dev.fsqStoreWrite_closed haccess hclosed)
  case coreRead =>
    intro s d k a off size bad hmet haccess
    exact exec_of_met (·.fsqStoreRead (.mc k) a.val off size bad) hmet (Dev.fsqStoreRead_core bad haccess rfl)
  case svcRead =>
    intro s d a off size bad hmet
    exact exec_of_met (·.fsqStoreRead .svc a.val off size bad) hmet (Dev.fsqStoreRead_svc d a.val off size bad)

/-- Settles O7: a field acts on the job it finds, so each clause is one rule of a gate, a route, a search, the loops or a heater. -/
theorem sequencerGates : Obligations.SequencerGates := by
  unfold Obligations.SequencerGates
  refine ⟨?rgOpens, ?rgOpenIgnored, ?rgCloses, ?rgCloseIgnored, ?vgOpens, ?vgOpenIgnored, ?vgCloses, ?vgCloseIgnored, ?wgOpens,
    ?wgUnprepared, ?wgCloses, ?headActs, ?leadOpens, ?invalid, ?svgOn, ?svgOff, ?svgIgnored, ?route, ?routeLead, ?release, ?arm,
    ?armLead, ?restart, ?cancel, ?freeze, ?unfreeze, ?writeHeat, ?readHeat⟩
  case rgOpens =>
    intro s d q j hmet h hjob hadmitted
    exact exec_of_met (·.rgAction q.val true [1, 4, 6]) hmet (Dev.rgAction_queued h hjob hadmitted rfl)
  case rgOpenIgnored =>
    intro s d q j hmet h hjob hignored
    exact exec_of_met (·.rgAction q.val true [1, 4, 6]) hmet (Dev.rgAction_ignored h hjob hignored)
  case rgCloses =>
    intro s d q j hmet h hjob hadmitted
    exact exec_of_met (·.rgAction q.val false [2, 5, 7]) hmet (Dev.rgAction_queued h hjob hadmitted rfl)
  case rgCloseIgnored =>
    intro s d q j hmet h hjob hignored
    exact exec_of_met (·.rgAction q.val false [2, 5, 7]) hmet (Dev.rgAction_ignored h hjob hignored)
  case vgOpens =>
    intro s d q j hmet h hjob hadmitted
    exact exec_of_met (·.vgAction q.val true [1, 4, 6]) hmet (Dev.vgAction_queued h hjob hadmitted rfl)
  case vgOpenIgnored =>
    intro s d q j hmet h hjob hignored
    exact exec_of_met (·.vgAction q.val true [1, 4, 6]) hmet (Dev.vgAction_ignored h hjob hignored)
  case vgCloses =>
    intro s d q j hmet h hjob hadmitted
    exact exec_of_met (·.vgAction q.val false [2, 5, 7]) hmet (Dev.vgAction_queued h hjob hadmitted rfl)
  case vgCloseIgnored =>
    intro s d q j hmet h hjob hignored
    exact exec_of_met (·.vgAction q.val false [2, 5, 7]) hmet (Dev.vgAction_ignored h hjob hignored)
  case wgOpens =>
    intro s d q j n hmet h hjob htarget hslot
    exact exec_of_met (·.wgOpen q.val) hmet (Dev.wgOpen_queued h hjob htarget hslot rfl)
  case wgUnprepared => exact fun s d q j hmet h hjob hnone => exec_of_met (·.wgOpen q.val) hmet (Dev.wgOpen_unprepared h hjob hnone)
  case wgCloses => exact fun s d q hmet h => exec_of_met (·.wgClose q.val) hmet (Dev.fieldAct_ready _ h)
  case headActs =>
    rintro s _ q g j after rfl hbusy hvalid hjob
    exact exec_of_met (fun d => (d.advance after).gateAct q.val g) rfl
      ((Dev.gateAct_valid g hbusy hvalid hjob).trans (by cases g <;> rfl))
  case leadOpens =>
    rintro s _ q j a rest u k after rfl ⟨hbusy, hvalid⟩ hjob hhead hopens hedge
    exact exec_of_met (fun d => (d.advance after).gateAct q.val .rgLead) rfl
      ((Dev.gateAct_valid .rgLead hbusy hvalid hjob).trans (Dev.rgAct_leadOpens hhead hopens hedge))
  case invalid =>
    rintro s _ q g after rfl hinvalid
    exact exec_of_met (fun d => (d.advance after).gateAct q.val g) rfl (Dev.gateAct_invalid g hinvalid)
  case svgOn => exact fun s d q hmet h => exec_of_met (·.svgOn q.val) hmet (Dev.fieldAct_ready _ h)
  case svgOff => exact fun s d q j hmet h hjob hkind => exec_of_met (·.svgOff q.val) hmet (Dev.svgOff_calibration h hjob hkind)
  case svgIgnored => exact fun s d q j hmet h hjob hkind => exec_of_met (·.svgOff q.val) hmet (Dev.svgOff_ignored h hjob hkind)
  case route => exact fun s d q j hmet h hjob => exec_of_met (·.rteRoute q.val 1) hmet (Dev.fieldAct_job h hjob)
  case routeLead => exact fun s d q j hmet h hjob => exec_of_met (·.rteRoute q.val 2) hmet (Dev.fieldAct_job h hjob)
  case release => exact fun s d q j hmet h hjob => exec_of_met (·.rteRelease q.val) hmet (Dev.fieldAct_job h hjob)
  case arm => exact fun s d q j hmet h hjob => exec_of_met (·.synArm q.val) hmet (Dev.fieldAct_job h hjob)
  case armLead =>
    intro s d q j hmet h hjob hkind
    exact exec_of_met (·.synArmLead q.val) hmet (Dev.synArmLead_arms h hjob hkind rfl)
  case restart => exact fun s d q j hmet h hjob => exec_of_met (·.synRestart q.val) hmet (Dev.fieldAct_job h hjob)
  case cancel => exact fun s d q hmet h => exec_of_met (·.synCancel q.val) hmet (Dev.fieldAct_ready _ h)
  case freeze => exact fun s d q j hmet h hjob => exec_of_met (·.lfz q.val 1 true) hmet (Dev.fieldAct_job h hjob)
  case unfreeze => exact fun s d q j hmet h hjob => exec_of_met (·.lfz q.val 2 false) hmet (Dev.fieldAct_job h hjob)
  case writeHeat => exact fun s d q j hmet h hjob => exec_of_met (·.htr q.val 1) hmet (Dev.fieldAct_job h hjob)
  case readHeat => exact fun s d q j hmet h hjob => exec_of_met (·.htr q.val 2) hmet (Dev.fieldAct_job h hjob)

/-- Settles O8: each clause is one rule of the entry list, of the writer's data, of POST, of a compare unit or counter, or of the write
path. -/
theorem sequencerEntries : Obligations.SequencerEntries := by
  unfold Obligations.SequencerEntries
  refine ⟨?fetch, ?listEnd, ?done, ?gives, ?prep, ?prepOther, ?cancel, ?postStatus, ?postIrq, ?postEvent, ?postBoth, ?stamp, ?lds, ?ldr,
    ?ldn, ?ldi, ?acDisarm, ?pcLds, ?pcLde, ?pcLda, ?pcAdd, ?pcDisarm, ?meet, ?load0, ?load1, ?decrement0, ?decrement1, ?increment0,
    ?increment1, ?ready, ?parity, ?fence, ?enable, ?wen, ?guard⟩
  case fetch => exact fun s d q j e hmet h hjob hentry => exec_of_met (·.jopFetch q.val) hmet (Dev.jopFetch_entry h hjob hentry rfl)
  case listEnd => exact fun s d q j hmet h hjob hend => exec_of_met (·.jopFetch q.val) hmet (Dev.jopFetch_end h hjob hend)
  case done => exact fun s d q hmet h hvalid hnew => exec_of_met (·.jopDone q.val) hmet (Dev.jopDone_marks h hvalid hnew rfl)
  case gives =>
    intro s d q j hmet h hjob hvalid hnew
    exact exec_of_met (·.jopReturn q.val) hmet (Dev.jopReturn_gives h hjob hvalid hnew rfl rfl)
  case prep =>
    intro s d q attempt stored j e hmet h hjob hkind hentry hvalid
    exact exec_of_met (·.wdsPrep q.val attempt stored) hmet (Dev.wdsPrep_prepares h hjob hkind hentry hvalid)
  case prepOther =>
    intro s d q attempt stored j hmet h hjob hkind
    exact exec_of_met (·.wdsPrep q.val attempt stored) hmet (Dev.wdsPrep_otherKind h hjob hkind)
  case cancel => exact fun s d q hmet h => exec_of_met (·.wdsCancel q.val) hmet (Dev.fieldAct_ready _ h)
  case postStatus =>
    intro s d q j hmet h hjob
    exact exec_of_met (·.fsqPost q.val 1 true false false) hmet ((Dev.fieldAct_ready _ h).trans (Dev.postStatus_acting .post hjob))
  case postIrq => exact fun s d q hmet h => exec_of_met (·.fsqPost q.val 2 false true false) hmet (Dev.fieldAct_ready _ h)
  case postEvent => exact fun s d q hmet h => exec_of_met (·.fsqPost q.val 3 false false true) hmet (Dev.fieldAct_ready _ h)
  case postBoth =>
    intro s d q j hmet h hjob
    exact exec_of_met (·.fsqPost q.val 4 true true false) hmet
      ((Dev.fieldAct_ready _ h).trans (congrArg (·.postIrq q.val) (Dev.postStatus_acting .post hjob)))
  case stamp => exact fun s d q hmet h => exec_of_met (·.stampNow q.val) hmet (Dev.fieldAct_ready _ h)
  case lds =>
    intro s d q hmet h
    exact exec_of_met (fun d => d.acLoad q.val 1 fun d _ w => d.jstart q.val + mImmA w) hmet (Dev.acLoad_ready h rfl)
  case ldr =>
    intro s d q hmet h
    exact exec_of_met (fun d => d.acLoad q.val 2 fun _ x w => x.target + mImmA w) hmet (Dev.acLoad_ready h rfl)
  case ldn =>
    intro s d q hmet h
    exact exec_of_met (fun d => d.acLoad q.val 3 fun d _ w => d.frameAngle (bits w 118 2) (d.jobHead q.val) + mImmA w) hmet
      (Dev.acLoad_ready h (by rw [Dev.jobHead_acting]; rfl))
  case ldi => exact fun s d q hmet h => exec_of_met (fun d => d.acLoad q.val 4 fun _ _ w => mImmA w) hmet (Dev.acLoad_ready h rfl)
  case acDisarm => exact fun s d q hmet h => exec_of_met (·.acDisarm q.val) hmet (Dev.acDisarm_ready h rfl)
  case pcLds =>
    intro s d q j hmet h hjob
    exact exec_of_met (fun d => d.pcLoad q.val 1 fun d j _ => d.rd .FSQ_ENTRY_SLOT q.val * j.l) hmet (Dev.pcLoad_ready h hjob rfl)
  case pcLde =>
    intro s d q j hmet h hjob
    exact exec_of_met (fun d => d.pcLoad q.val 2 fun d j _ => (d.rd .FSQ_ENTRY_SLOT q.val + 1) * j.l) hmet
      (Dev.pcLoad_ready h hjob rfl)
  case pcLda =>
    intro s d q j hmet h hjob
    exact exec_of_met (fun d => d.pcLoad q.val 3 fun _ _ _ => 0) hmet (Dev.pcLoad_ready h hjob rfl)
  case pcAdd =>
    intro s d q j hmet h hjob
    exact exec_of_met (fun d => d.pcLoad q.val 4 fun _ _ x => x.target) hmet (Dev.pcLoad_ready h hjob rfl)
  case pcDisarm => exact fun s d q hmet h => exec_of_met (·.pcDisarm q.val) hmet (Dev.pcDisarm_ready h rfl)
  case meet =>
    rintro s _ q b after rfl hbusy harmed hmeets
    exact exec_of_met (fun d => (d.advance after).pcMeet q.val b) rfl (Dev.pcMeet_met hbusy harmed hmeets)
  case load0 => exact fun s d q hmet h => exec_of_met (fun d => d.cntOp q.val false 1 fun _ i => i) hmet (Dev.fieldAct_ready _ h)
  case load1 => exact fun s d q hmet h => exec_of_met (fun d => d.cntOp q.val true 1 fun _ i => i) hmet (Dev.fieldAct_ready _ h)
  case decrement0 =>
    intro s d q hmet h
    exact exec_of_met (fun d => d.cntOp q.val false 2 fun n _ => n - 1) hmet (Dev.fieldAct_ready _ h)
  case decrement1 =>
    intro s d q hmet h
    exact exec_of_met (fun d => d.cntOp q.val true 2 fun n _ => n - 1) hmet (Dev.fieldAct_ready _ h)
  case increment0 =>
    intro s d q hmet h
    exact exec_of_met (fun d => d.cntOp q.val false 3 fun n _ => n + 1) hmet (Dev.fieldAct_ready _ h)
  case increment1 =>
    intro s d q hmet h
    exact exec_of_met (fun d => d.cntOp q.val true 3 fun n _ => n + 1) hmet (Dev.fieldAct_ready _ h)
  case ready => exact fun s d q hmet => exec_of_met (·.prepReady q.val) hmet rfl
  case parity =>
    intro s d q n hmet hcur hdriven
    exact exec_of_met (·.prepParity q.val) hmet (Dev.prepParity_driven hcur hdriven rfl rfl)
  case fence =>
    rintro s _ q j n after rfl hjob hfence hjob' hcur hpast
    exact exec_of_met (fun d => (d.advance after).checkFence q.val) rfl
      ((Dev.checkFence_fails hjob hfence).trans (Dev.goIdle_unwritten rfl hjob' hcur hpast))
  case enable => exact fun s d on hmet => exec_of_met (fun d => (d.wrb .WRF_CTL_ENABLE 0 on).checkFences) hmet rfl
  case wen => exact fun s d on hmet => exec_of_met (fun d => (d.wrb .WRF_CTL_WEN 0 on).checkFences) hmet rfl
  case guard => exact fun s d a hmet h => exec_of_met (·.guardRelease a.val) hmet (Dev.guardRelease_clean h)

end Sys2Proof.Machine
end

section
/-! Servo samples (R293, R318), the losses of servo (R329, R330), and the voice-coil and microactuator outputs (R325-R328, R335). -/

namespace Sys2Proof.Machine

/-! ### Servo samples -/

section Samples

variable {d : Dev} {h : Nat} {x : ServoObs}

theorem Dev.servoSample_valid (hread : d.fieldRead h = true) (hvalid : (d.demod h x).valid = true) :
    d.servoSample h x = (d.guideSample h true).validSample h (d.demod h x) x := by
  simp only [Dev.servoSample, hread, hvalid, Bool.not_true, Bool.false_eq_true, if_false, if_true]

theorem Dev.servoSample_missed (hread : d.fieldRead h = true) (hmissed : (d.demod h x).valid = false) :
    d.servoSample h x = (d.guideSample h false).missedSample h (d.demod h x) x := by
  simp only [Dev.servoSample, hread, hmissed, Bool.not_true, Bool.false_eq_true, if_false]

/-- No valid record of a bound head's wedge has come in time: an off-track detection, once for the strobe (R293). -/
theorem Dev.sampleMiss_detects {r q w f k : Nat} (hstate : d.rd .ANG_STAT_STATE = 2) (hrate : d.ang.rate = some r)
    (hwedge : d.wedgeOf h = (w, f)) (hlate : 1875 * r ≤ f * 65536) (hlast : (d.head h).last.map Prod.fst ≠ some w)
    (hk : k = d.frameAngle 1 h / rev * d.wedges + w) (hnew : (d.head h).missed ≠ some k) (hslot : d.slotOfHead h = some q) :
    d.sampleMiss h = (d.setHead h { d.head h with missed := some k }).offTrack h q := by
  subst hk
  have hvalid : d.angValid = true := d.angValid_iff.mpr hstate
  simp [Dev.sampleMiss, hvalid, hrate, hwedge, hlate, hlast, hnew, hslot]

end Samples

/-! ### Losses of servo -/

section Losses

variable {d : Dev} {a : Nat}

theorem Dev.runaway_stands {k : Runaway} (h : d.runawayStands a k = true) : d.runaway a k = (d.noteRunaway a k).runaways a := if_pos h

theorem Dev.runaway_none {k : Runaway} (h : d.runawayStands a k = false) : d.runaway a k = d := if_neg (by simp [h])

/-- Two wedges and 1.5 µs without a valid sample in a mode that follows a track: servo loss, once (R330). -/
theorem Dev.servoLoss_lost (hmode : d.rd .SRV_STAT_MODE a = 1 ∨ d.rd .SRV_STAT_MODE a = 2 ∨ d.rd .SRV_STAT_MODE a = 3)
    (hgone : (d.act a).validAt + 1875 < d.now) (hticks : d.ticksPass (2 * rev) ((d.now - (d.act a).validAt - 1875) * d.wedges) = true)
    (hnew : (d.act a).lossFor ≠ some (d.act a).validAt) {d1 : Dev}
    (hd1 : d1 = (d.setAct a { d.act a with lossFor := some (d.act a).validAt }).wr .SRV_STAT_SRVLOSS a 1) :
    d.servoLoss a = (d1.raise 17 a (d1.word .SRV_STAT a)).loseHeads a := by
  subst hd1
  exact if_pos (by simp [or_assoc, hmode, hgone, hticks, hnew])

end Losses

/-! ### Outputs -/

section Outputs

variable {d : Dev} {a : Nat}

theorem Dev.vcmPoint_idle (h : (d.act a).retract = true ∨ d.updateDue a = false) : d.vcmPoint a = d := by
  rw [Dev.vcmPoint]
  split
  case isTrue hdue =>
    have hretract : (d.act a).retract = true := h.resolve_right (by simp [hdue])
    exact if_pos hretract
  case isFalse => rfl

/-- Without feed-forward the command is the wanted value, held within the limit (R326); an update without a new command is late. -/
theorem Dev.vcmUpdate_plain (hretract : (d.act a).retract = false) (hplain : d.rd .SRV_RVFF_EN a = 0) {want out : Int} {d1 : Dev}
    {y : Act} (hwant : want = signed 16 (d.rd .SRV_VCMCMD_CMD a)) (hout : out = holdWithin (d.rd .SRV_VCMLIM_LIM a) want)
    (hd1 : d1 = ((d.wr .SRV_VCMOUT_DAC a (unsigned 16 out)).wr .SRV_VCMOUT_CLAMP a (bnat (out != want))).watchVcm a)
    (hy : y = { d1.act a with updAt := d1.ang.val }) :
    d.vcmUpdate a =
      if y.cmdNew then d1.setAct a { y with cmdNew := false, late := 0, hist := (d.act a).hist }
      else
        let d2 := ((d1.setAct a { y with late := if y.late + 1 = 3 then 0 else y.late + 1, hist := (d.act a).hist }).count
          .SRV_CNT_LATE a).wr .SRV_STAT_LATE a 1
        if y.late + 1 = 3 then d2.raise 16 a (d2.word .SRV_CNT a) else d2 := by
  subst hy hd1 hout hwant
  simp only [Dev.vcmUpdate, hretract, Dev.on_eq_false hplain, Bool.false_eq_true, if_false, Int.add_zero]
  rfl

theorem Dev.vcmCommand_taken {w : Nat} (h : (d.act a).retract = false) :
    d.vcmCommand a w = (d.setAct a { d.act a with cmdNew := true }).wr .SRV_VCMCMD_CMD a w := if_neg (by simp [h])

theorem Dev.vcmCommand_retracting {w : Nat} (h : (d.act a).retract = true) : d.vcmCommand a w = d := if_pos h

section Heads

variable {h : Nat}

/-- A head that does not guide takes the clamped word; a late one is sent at once (R335). -/
theorem Dev.maWrite_unguided {w : Nat} (hguide : (d.act (actOfHead h)).guide ≠ some h) {v k : Int} {d1 : Dev} (hv : v = signed 12 w)
    (hk : k = holdWithin (d.rd .SRV_MACFG_MALIM (actOfHead h)) v)
    (hd1 : d1 = (d.setHead h { d.head h with clamped := k != v }).wr .SRV_MA_CODE h (unsigned 12 k)) :
    d.maWrite h w = if d1.maLate h then (d1.count .SRV_CNT_MALATE (actOfHead h)).maSendNow h else d1 := by
  subst hd1 hk hv
  have hfree : ((d.act (actOfHead h)).guide == some h) = false := beq_eq_false_iff_ne.mpr hguide
  simp only [Dev.maWrite, hfree, Bool.false_eq_true, if_false]

/-- A changed word that is not clamped goes out and ends the run of clamped ones (R335). -/
theorem Dev.maSendNow_changed (hnew : (d.head h).sentMa ≠ some (d.rd .SRV_MA_CODE h)) (hclamped : (d.head h).clamped = false) :
    d.maSendNow h = (d.armSend (actOfHead h) 4 (surfOfHead h) (surfOfHead h * 2 ^ 27 + d.rd .SRV_MA_CODE h)).setHead h
      { d.head h with sentMa := some (d.rd .SRV_MA_CODE h), out := 0 } := by
  simp [Dev.maSendNow, hnew, hclamped]

theorem Dev.maSendNow_unchanged (hsent : (d.head h).sentMa = some (d.rd .SRV_MA_CODE h)) : d.maSendNow h = d := if_pos (by simp [hsent])

theorem Dev.maPoint_reached (hstate : d.rd .ANG_STAT_STATE = 2)
    (hwedge : (d.wedgeNow (d.frameOff 1 h + d.rd .SRV_TIMING_MDLY (actOfHead h))).isSome = true) : d.maPoint h = d.maSendNow h :=
  if_pos (by simp [d.angValid_iff.mpr hstate, hwedge])

theorem Dev.maPoint_unchanged (hsent : (d.head h).sentMa = some (d.rd .SRV_MA_CODE h)) : d.maPoint h = d :=
  ite_eq_right_iff.mpr fun _ => Dev.maSendNow_unchanged hsent

end Heads

end Outputs

end Sys2Proof.Machine
end

section
/-! Verify records (R303-R307), rewrite requests (R582-R584), the work queue (R594, R596), patrol selection (R593) and calibration planning
(R600). -/

namespace Sys2Proof.Machine

/-! ### Verify records -/

/-- The counts and marks of head slot `q` for a verify result: a PASS, or a failure, whose cause is shown where no stream came or nothing
was written. -/
def Dev.resultShown (d : Dev) (q res : Nat) : Dev :=
  let d1 := d.wr .WRF_SSTAT_LASTRES q res
  if res = 0 then (d1.count .WRF_VCNT_PASS).count .WRF_SVCNT_PASS q
  else
    let d2 := (d1.count .WRF_VCNT_FAIL).count .WRF_SVCNT_FAIL q
    if res = 6 then (d2.wr .WRF_STAT_NOSTREAM 0 1).wr .WRF_SSTAT_NOSTREAM q 1
    else if res = 7 then d2.wr .WRF_SSTAT_NOTWR q 1 else d2

/-- What the record of a judged emission does beyond its head slot: HLT takes it, a move of the slot goes on with it, and the owner of the
job has it as a trigger. -/
def Dev.recordPosted (d : Dev) (e : Emit) (res : Nat) (v : Verdict) (ofs : Int) : Dev :=
  let d2 := d.hltVerify e res v
  let d3 := match d2.moveOf e.job.surf e.job.track e.slot with
    | some m => d2.moveJudged m e.job.track e.slot res
    | none => d2
  let r := vrecWords e res v ofs
  d3.ceTrigger e.job.owner tVrec 0 (r.getD 0 0) (r.getD 1 0) (r.getD 2 0) (r.getD 3 0)

section Verify

variable {d : Dev} {q n res : Nat} {stream : Option Codes} {e : Emit}

/-- An emission that passes, has no stream or was not written is taken off its head slot, shown there and posted; a PASS is noted
(R303-R305). -/
theorem Dev.verifyRecord_judged
    (hfind : ((d.wslot q).emits.find? fun e => e.slot == n && (d.wslot q).cur != some n) = some e) {r : Nat × Verdict × Int}
    (hr : r = d.judgeWrite q e stream) (hres : r.1 = res) (hhome : res = 0 ∨ res = 6 ∨ res = 7) {d1 : Dev}
    (hd1 : d1 = ((d.setWslot q { d.wslot q with emits := (d.wslot q).emits.erase e }).used).resultShown q res) :
    d.verifyRecord q n stream = (if res = 0 then d1.notePass q e else d1).recordPosted e res r.2.1 r.2.2 := by
  subst hd1 hres
  simp only [Dev.verifyRecord, hfind, ← hr]
  obtain ⟨res, v, ofs⟩ := r
  obtain rfl | rfl | rfl : res = 0 ∨ res = 6 ∨ res = 7 := hhome
  all_goals rfl

theorem exec_verifyRecord_judged {s : State} {q : Fin 32} {n : Fin 1024} (hmet : s.dev.met = d)
    (hfind : ((d.wslot q.val).emits.find? fun e => e.slot == n.val && (d.wslot q.val).cur != some n.val) = some e)
    {r : Nat × Verdict × Int} (hr : r = d.judgeWrite q.val e stream) (hres : r.1 = res) (hhome : res = 0 ∨ res = 6 ∨ res = 7)
    {d1 : Dev} (hd1 : d1 = ((d.setWslot q.val { d.wslot q.val with emits := (d.wslot q.val).emits.erase e }).used).resultShown q.val res) :
    exec (.verifyRecord q n stream) s =
      .next (s.after ((if res = 0 then d1.notePass q.val e else d1).recordPosted e res r.2.1 r.2.2).writesProven) :=
  exec_of_met (fun d => (d.verifyRecord q.val n.val stream).writesProven) hmet
    (congrArg Dev.writesProven (Dev.verifyRecord_judged hfind hr hres hhome hd1))

end Verify

/-! ### Rewrite requests -/

section Rewrites

variable {d : Dev} {r : RwReq} {rest : List RwReq}

/-- A request for a track that no refresh is ordered for joins the queue (R582). -/
theorem Dev.rewriteRequest_queued {m lo hi : Nat}
    (hr : r = { master := m, surf := bits lo 26 6, track := bits lo 0 20, tag := bits hi 0 8, rst := bit lo 20 })
    (hplain : (d.wsGet (ledgerIndex r.surf r.track)).refresh = false) :
    d.rewriteRequest m lo hi = { d with hlt := { d.hlt with reqs := d.hlt.reqs ++ [r] } } := by
  subst hr
  simp only [Dev.rewriteRequest, hplain, Bool.false_eq_true, if_false]

/-- The first request is off the queue, and no intent is waited for. -/
def Dev.requestServed (d : Dev) (rest : List RwReq) : Dev :=
  { d with hlt := { d.hlt with reqs := rest, waiting := false } }.wr .HLT_STAT_JWAIT 0 0

/-- A track outside every zone is refused (R583). -/
theorem Dev.rewriteServe_noZone (hrestored : d.rd .CFG_STAT_RESTORED ≠ 0) (hreqs : d.hlt.reqs = r :: rest)
    (hzone : d.zoneOf r.surf r.track = none) :
    d.rewriteServe = (d.requestServed rest).rewriteReply r.master r.tag (d.wsGet (ledgerIndex r.surf r.track)).w0 true := by
  simp only [Dev.rewriteServe, Dev.on_eq_true hrestored, hreqs, hzone, if_true]
  rfl

/-- A request for a track whose writing is complete, or that restarts it, is granted under an open intent and otherwise asks for one
(R583). -/
theorem Dev.rewriteServe_admitted {z : Zone} (hrestored : d.rd .CFG_STAT_RESTORED ≠ 0) (hreqs : d.hlt.reqs = r :: rest)
    (hzone : d.zoneOf r.surf r.track = some z)
    (hadmitted : d.stripesOf z ≤ (d.wsGet (ledgerIndex r.surf r.track)).bound ∨ r.rst = true) :
    d.rewriteServe =
      if d.hlt.intents.any (d.coversTrack r.surf r.track) then (d.requestServed rest).grantRewrite r
      else d.askIntent r.surf r.track := by
  have hnot : (decide ((d.wsGet (ledgerIndex r.surf r.track)).bound < d.stripesOf z) && !r.rst) = false := by
    rcases hadmitted with hcomplete | hrestart
    · simp [hcomplete]
    · simp [hrestart]
  simp only [Dev.rewriteServe, Dev.on_eq_true hrestored, hreqs, hzone, if_true]
  exact if_neg (by simp [hnot])

end Rewrites

/-! ### The work queue -/

section Queue

variable {d : Dev} {x : Work}

/-- The item has left the list of outstanding work, and its wait is over. -/
def Dev.workTaken (d : Dev) (x : Work) : Dev := ({ d with hlt := { d.hlt with work := d.hlt.work.erase x } }).endWait (.work x.seq)

/-- An acknowledged item leaves the queue with the effect of its operation, done or failed, and the ring goes on (R594, R596). -/
theorem Dev.workAck_found {v : Nat} (hfind : (d.hlt.work.find? fun y => y.seq == v % 65536) = some x) (hres : bits v 28 4 ≤ 1)
    {d1 : Dev} (hd1 : d1 = if bits v 28 4 = 0 then (d.workTaken x).workDone x else (d.workTaken x).workFailed x) :
    d.workAck v = d1.ringDrain d1.hlt.held.length := by
  subst hd1
  simp only [Dev.workAck, hfind, Nat.not_lt.mpr hres, if_false]
  rfl

theorem Dev.workAck_unknown {v : Nat} (hfind : (d.hlt.work.find? fun y => y.seq == v % 65536) = none) : d.workAck v = d := by
  simp only [Dev.workAck, hfind]

/-- A journal or checkpoint item that has waited TMO is shown as stalled and queued again (R596). -/
theorem Dev.workTimeout_stalled {seq : Nat}
    (hfind : (d.hlt.work.find? fun w => w.seq == seq % 65536 && (w.op == opJournal || w.op == opCheckpoint)) = some x)
    (hwaited : d.waited (.work x.seq) (d.rd .HLT_JRNL_TMO * 1250000000) = true) {d1 : Dev}
    (hd1 : d1 = (d.workTaken x).wr .HLT_STAT_HLTSTALL 0 1) :
    d.workTimeout seq =
      (d1.raiseMany 37 0 1 (d1.word .HLT_STAT) (x.op * 2 ^ 28 + x.surf * 2 ^ 20 + x.track) 0 false).queueWork x := by
  subst hd1
  simp only [Dev.workTimeout, hfind, hwaited, Bool.not_true, Bool.false_eq_true, if_false]
  rfl

/-- An hour after its failure a patrol is queued again (R594). -/
theorem Dev.workRetry_due {rest : List Work} (hretry : d.hlt.retry = x :: rest)
    (hwaited : d.waited (.retry x.seq) (3600 * 1250000000) = true) :
    d.workRetry = (({ d with hlt := { d.hlt with retry := rest } }).endWait (.retry x.seq)).queueWork x := by
  simp only [Dev.workRetry, hretry, hwaited, Bool.not_true, Bool.false_eq_true, if_false]

end Queue

/-! ### Patrol selection and calibration planning -/

section Planning

variable {d : Dev}

/-- The counters of a chosen track start anew for its patrol, where the working set holds it (R593). -/
def Dev.patrolOpened (d : Dev) (i : Nat) : Dev :=
  match Tab.look d.hlt.ws i with
  | some e => { d with hlt := { d.hlt with ws := Tab.put d.hlt.ws i { e with low := 255, hard := false } } }
  | none => d

/-- With fewer items outstanding than INFLIGHT the chosen track is queued (R593). -/
theorem Dev.patrolSelect_chosen {op i : Nat} (henable : d.rd .HLT_CTL_ENABLE ≠ 0) (hweevil : d.rd .HLT_CTL_WEEVIL ≠ 0)
    (hroom : ((d.hlt.held ++ d.hlt.work).filter fun w => decide (w.op ≤ opScrub)).length < max 1 (d.rd .HLT_WEEVIL_INFLIGHT))
    (hchoice : d.patrolChoice = some (op, i)) :
    d.patrolSelect = (d.patrolOpened i).workItem op (i / 1048576) (i % 1048576) 0 0 0 false := by
  simp only [Dev.patrolSelect, Dev.on_eq_true henable, Dev.on_eq_true hweevil, Nat.not_le.mpr hroom, hchoice, decide_false,
    Bool.and_self, Bool.not_true, Bool.or_self, Bool.false_eq_true, if_false]
  rfl

/-- A due head in service is planned once, while fewer than 32 requests stand (R600). -/
theorem Dev.calPlan_due {h : Nat} (hserving : d.rd .SRV_HSTAT_STATE h = unitServ) (hdue : d.calCauses h ≠ 0)
    (hnew : ∀ x ∈ d.hlt.calReq, x.1 ≠ h) (hroom : d.hlt.calReq.length < 32) :
    d.calPlan h = { d with hlt := { d.hlt with calReq := d.hlt.calReq ++ [(h, d.calCauses h)] } } := by
  have hfree : d.hlt.calReq.any (fun x => x.1 == h) = false := by simpa using hnew
  exact if_neg (by simp [hserving, hdue, hfree, hroom])

end Planning

end Sys2Proof.Machine
end

section
/-! The statements of 08_write_and_verify that hold. -/

namespace Sys2Proof.Machine

/-- Settles O9: each clause is one rule of a servo sample, of a loss of servo, or of an output at its update or send point. -/
theorem servoSamplesAndDrive : Obligations.ServoSamplesAndDrive := by
  unfold Obligations.ServoSamplesAndDrive
  refine ⟨?valid, ?missed, ?miss, ?runaway, ?noRunaway, ?loss, ?update, ?noUpdate, ?command, ?noCommand, ?word, ?send, ?unchanged⟩
  case valid =>
    rintro s _ h x after rfl hread hvalid
    exact exec_of_met (fun d => (d.advance after).servoSample h.val x) rfl (Dev.servoSample_valid hread hvalid)
  case missed =>
    rintro s _ h x after rfl hread hinvalid
    exact exec_of_met (fun d => (d.advance after).servoSample h.val x) rfl (Dev.servoSample_missed hread hinvalid)
  case miss =>
    rintro s _ h q r after rfl hstate hrate hlate hlast hnew hslot
    exact exec_of_met (fun d => (d.advance after).sampleMiss h.val) rfl
      (Dev.sampleMiss_detects hstate hrate rfl hlate hlast rfl hnew hslot)
  case runaway =>
    rintro s _ a k after rfl hstands
    exact exec_of_met (fun d => (d.advance after).runaway a.val k) rfl (Dev.runaway_stands hstands)
  case noRunaway =>
    rintro s _ a k after rfl hnone
    exact exec_of_met (fun d => (d.advance after).runaway a.val k) rfl (Dev.runaway_none hnone)
  case loss =>
    rintro s _ a after rfl hmode hgone hticks hnew
    exact exec_of_met (fun d => (d.advance after).servoLoss a.val) rfl (Dev.servoLoss_lost hmode hgone hticks hnew rfl)
  case update =>
    rintro s _ a after rfl hdue hretract hplain
    exact exec_of_met (fun d => (d.advance after).vcmPoint a.val) rfl
      ((if_pos hdue).trans (Dev.vcmUpdate_plain hretract hplain rfl rfl rfl rfl))
  case noUpdate =>
    rintro s _ a after rfl hidle
    exact exec_of_met (fun d => (d.advance after).vcmPoint a.val) rfl (Dev.vcmPoint_idle hidle)
  case command => exact fun s d a w hmet h => exec_of_met (·.vcmCommand a.val w.toNat) hmet (Dev.vcmCommand_taken h)
  case noCommand => exact fun s d a w hmet h => exec_of_met (·.vcmCommand a.val w.toNat) hmet (Dev.vcmCommand_retracting h)
  case word => exact fun s d h w hmet hguide => exec_of_met (·.maWrite h.val w.toNat) hmet (Dev.maWrite_unguided hguide rfl rfl rfl)
  case send =>
    rintro s _ h after rfl hstate hwedge hnew hclamped
    exact exec_of_met (fun d => (d.advance after).maPoint h.val) rfl
      ((Dev.maPoint_reached hstate hwedge).trans (Dev.maSendNow_changed hnew hclamped))
  case unchanged =>
    rintro s _ h after rfl hsent
    exact exec_of_met (fun d => (d.advance after).maPoint h.val) rfl (Dev.maPoint_unchanged hsent)

/-- Settles O20: each clause is one rule of a verify record, of a rewrite request, of the work queue, or of planning. -/
theorem verifyRewriteAndPatrol : Obligations.VerifyRewriteAndPatrol := by
  unfold Obligations.VerifyRewriteAndPatrol
  refine ⟨?noStream, ?passed, ?notWritten, ?request, ?noZone, ?grants, ?waits, ?select, ?done, ?failed, ?unknown, ?timeout, ?retry,
    ?checkpoint, ?flush, ?plan⟩
  case noStream => exact fun s d q n stream e hmet hfind hres => exec_verifyRecord_judged hmet hfind rfl hres (by decide) rfl
  case passed => exact fun s d q n stream e hmet hfind hres => exec_verifyRecord_judged hmet hfind rfl hres (by decide) rfl
  case notWritten => exact fun s d q n stream e hmet hfind hres => exec_verifyRecord_judged hmet hfind rfl hres (by decide) rfl
  case request =>
    intro s d m w hmet hplain
    exact exec_of_met (fun d => (d.dropLo m.id .HLT_RWLO 0).rewriteRequest m.id (d.loHalf m.id .HLT_RWLO 0) w.toNat) hmet
      (Dev.rewriteRequest_queued rfl hplain)
  case noZone =>
    intro s d r rest hmet hrestored hreqs hzone
    exact exec_of_met Dev.rewriteServe hmet (Dev.rewriteServe_noZone hrestored hreqs hzone)
  case grants =>
    intro s d r rest z hmet hrestored hreqs hzone hadmitted hcovered
    exact exec_of_met Dev.rewriteServe hmet ((Dev.rewriteServe_admitted hrestored hreqs hzone hadmitted).trans (if_pos hcovered))
  case waits =>
    intro s d r rest z hmet hrestored hreqs hzone hrst hopen
    exact exec_of_met Dev.rewriteServe hmet
      ((Dev.rewriteServe_admitted hrestored hreqs hzone (.inr hrst)).trans (if_neg (by simp [hopen])))
  case select =>
    intro s d op i hmet henable hweevil hroom hchoice
    exact exec_of_met Dev.patrolSelect hmet (Dev.patrolSelect_chosen henable hweevil hroom hchoice)
  case done =>
    intro s d w x hmet hfind hres
    exact exec_of_met (·.workAck w.toNat) hmet (Dev.workAck_found hfind (by simp [hres]) (if_pos hres).symm)
  case failed =>
    intro s d w x hmet hfind hres
    exact exec_of_met (·.workAck w.toNat) hmet (Dev.workAck_found hfind (by simp [hres]) (if_neg (by simp [hres])).symm)
  case unknown => exact fun s d w hmet hfind => exec_of_met (·.workAck w.toNat) hmet (Dev.workAck_unknown hfind)
  case timeout =>
    rintro s _ n x after rfl hfind hwaited
    exact exec_of_met (fun d => (d.advance after).workTimeout n.val) rfl (Dev.workTimeout_stalled hfind hwaited rfl)
  case retry =>
    rintro s _ x rest after rfl hretry hwaited
    exact exec_of_met (fun d => (d.advance after).workRetry) rfl (Dev.workRetry_due hretry hwaited)
  case checkpoint =>
    rintro s _ after rfl hdue
    exact exec_of_met (fun d => (d.advance after).checkpointDue) rfl (Dev.periodic_due hdue Dev.checkpoint)
  case flush => exact fun s d hmet => exec_of_met Dev.statFlush hmet rfl
  case plan =>
    intro s d h hmet hserving hdue hnew hroom
    exact exec_of_met (·.calPlan h.val) hmet (Dev.calPlan_due hserving hdue hnew hroom)

end Sys2Proof.Machine
end

section
/-! The motion modes and service states of actuators (R320-R324, R328) and of heads (R331). -/

namespace Sys2Proof.Machine

/-! ### Timeouts and the hardware retract -/

section Timeouts

variable {d : Dev} {a : Nat}

/-- A seek that has taken SEEKTO wedges ends in FOLLOW and is counted; the third in a row takes the actuator OUT (R323, R324). -/
theorem Dev.seekTimeout_over (hmode : d.rd .SRV_STAT_MODE a = 3) (hover : d.seekOver a = true) {n : Nat} (hn : n = (d.act a).seekTo + 1)
    {d1 : Dev} (hd1 : d1 = ((d.setAct a { d.act a with seekTo := n }).setMode a 2 1).wr .SRV_STAT_SEEKTO a 1) :
    d.seekTimeout a = if n < 3 then d1 else d1.actOut a := by
  subst hd1 hn
  exact if_neg (by simp [hmode, hover])

/-- LOADTO passes in LOADING: the actuator fails in its calibration and is parked otherwise (R320, R322, R323). -/
theorem Dev.loadTimeout_loading (hover : d.loadOver a = true) (hmode : d.rd .SRV_STAT_MODE a = 1) :
    d.loadTimeout a = if d.rd .SRV_STAT_SVC a == unitCal then d.actOut a else d.retract a := by
  simp only [Dev.loadTimeout, hover, hmode, Bool.not_true, Bool.false_eq_true, if_false]

theorem Dev.loadTimeout_unloading (hover : d.loadOver a = true) (hmode : d.rd .SRV_STAT_MODE a = 4) :
    d.loadTimeout a = d.setMode a 0 0 := by
  simp only [Dev.loadTimeout, hover, hmode, Bool.not_true, Bool.false_eq_true, if_false]

/-- The retract is over: the actuator is PARKED with its output at 0 (R328), and a reset that waits for it goes on. -/
theorem Dev.retractEnd_due (hretract : (d.act a).retract = true)
    (hpassed : (d.act a).modeAt + d.rd .SRV_RETRACT_TIME a * 12500 ≤ d.now) {d1 d2 d3 : Dev}
    (hd1 : d1 = d.setAct a { d.act a with retract := false, cmdNew := false })
    (hd2 : d2 = if d1.cfg.kind == 2 && d1.cfg.quiet then d1.beginWait .flush else d1)
    (hd3 : d3 = if d2.spn.running then d2.wrBit .SPN_PFSTAT_RETRACTED 0 a true else d2) :
    d.retractEnd a = (d3.wr .SRV_VCMOUT_DAC a 0).setMode a 0 0 := by
  subst hd3 hd2 hd1
  exact if_neg (by simp [hretract, hpassed])

theorem Dev.retractEnd_none (hnone : (d.act a).retract = false) : d.retractEnd a = d := if_pos (by simp [hnone])

end Timeouts

/-! ### DONE (R322, R323) -/

section Done

variable {d : Dev} {a : Nat}

/-- DONE in LOADING, once three samples have guided it, ends the load in FOLLOW; its heads' calibration counts begin at 0 (R323). -/
theorem Dev.servoDone_loaded (hmode : d.rd .SRV_STAT_MODE a = 1) (hguided : 3 ≤ (d.act a).guideOk) :
    d.servoDone a =
      ((List.range 32).foldl (fun d s => d.setHead (32 * a + s) { d.head (32 * a + s) with calOk := 0 }) d).setMode a 2 0 := by
  simp only [Dev.servoDone, hmode, hguided, if_true]

theorem Dev.servoDone_arrived (hmode : d.rd .SRV_STAT_MODE a = 3) :
    d.servoDone a = (d.setAct a { d.act a with seekTo := 0 }).setMode a 2 0 := by simp only [Dev.servoDone, hmode]

theorem Dev.servoDone_unloaded (hmode : d.rd .SRV_STAT_MODE a = 4) : d.servoDone a = d.setMode a 0 0 := by
  simp only [Dev.servoDone, hmode]

/-- In FOLLOW, DONE ends a calibration: the actuator joins where the firmware passes it and a head has followed, and fails otherwise. -/
theorem Dev.servoDone_calibrated (hmode : d.rd .SRV_STAT_MODE a = 2) (hcal : d.rd .SRV_STAT_SVC a = 1) :
    d.servoDone a =
      if d.on .SRV_CAL_PASS a && d.headsPass a then
        (d.wr .SRV_STAT_SVC a unitJoin).beginWait (.joining (.actuator (Fin.ofNat 4 a)))
      else d.actOut a := by
  simp only [Dev.servoDone, hmode]
  exact if_neg (by simp [hcal, unitCal])

end Done

/-! ### LOAD, UNLOAD, FORCEOUT and READMIT -/

section Requests

variable {d : Dev} {a : Nat}

/-- LOAD of a parked actuator that does not wait yet puts it behind those that wait (R323, R496). -/
theorem Dev.loadHeads_parked (hspindle : d.rd .SPN_STAT_INRANGE ≠ 0) (hstate : d.rd .ANG_STAT_STATE = 2)
    (hparked : d.parkedUnit a = true) (hnew : a ∉ d.sch.loads) :
    d.loadHeads a = ({ d with sch := { d.sch with loads := d.sch.loads ++ [a] } } : Dev).tryLoad a := by
  have hmay : d.mayLoad = true := by simp [Dev.mayLoad, Dev.on_eq_true hspindle, d.angValid_iff.mpr hstate]
  simp only [Dev.loadHeads, hmay, if_true, Dev.askLoad, hparked, List.contains_eq_mem, hnew, decide_false, Bool.not_true,
    Bool.false_eq_true, if_false]

theorem Dev.loadHeads_slow (hslow : d.rd .SPN_STAT_INRANGE = 0) : d.loadHeads a = d :=
  if_neg (by simp [Dev.mayLoad, Dev.on_eq_false hslow])

theorem Dev.unloadHeads_follow (hmode : d.rd .SRV_STAT_MODE a = 2) : d.unloadHeads a = (d.setMode a 4 0).endGuide a false :=
  if_pos (by simp [hmode])

theorem Dev.unloadHeads_other (hmode : d.rd .SRV_STAT_MODE a ≠ 2) : d.unloadHeads a = d := if_neg (by simp [hmode])

/-- An actuator that is neither OFF nor OUT goes OUT: its heads are LOST, it retracts, its guide ends and its failure is raised (R321). -/
theorem Dev.actOut_acts (hoff : d.rd .SRV_STAT_SVC a ≠ 0) (hout : d.rd .SRV_STAT_SVC a ≠ 4) {d1 : Dev}
    (hd1 : d1 = ((d.wr .SRV_STAT_SVC a 4).loseHeads a).retract a) :
    d.actOut a = ((d1.endGuide a false).raise 14 a (d1.word .SRV_STAT a)).replace 3 := by
  have hacts : (d.rd .SRV_STAT_SVC a == unitOff || d.rd .SRV_STAT_SVC a == unitOut) = false := by simp [hoff, hout, unitOff, unitOut]
  rw [Dev.actOut, hacts, if_neg Bool.false_ne_true, unitOut, ← hd1]

theorem Dev.actOut_out (hout : d.rd .SRV_STAT_SVC a = 4) : d.actOut a = d := if_pos (by simp [hout, unitOut])

theorem Dev.actReadmit_out (hout : d.rd .SRV_STAT_SVC a = 4) : d.actReadmit a = (d.wr .SRV_STAT_SVC a 1).askLoad a :=
  if_pos (by simp [hout, unitOut])

end Requests

section HeadRequests

variable {d : Dev} {h : Nat}

theorem Dev.headForce_acts (hoff : d.rd .SRV_HSTAT_STATE h ≠ 0) (hout : d.rd .SRV_HSTAT_STATE h ≠ 4) :
    d.headForce h = d.headGoesOut h := if_neg (by simp [hoff, hout, unitOff, unitOut])

theorem Dev.headReadmit_out (hout : d.rd .SRV_HSTAT_STATE h = 4) :
    d.headReadmit h = ((d.wr .SRV_HSTAT_RDOUT h 0).wr .SRV_HSTAT_WROUT h 0).wr .SRV_HSTAT_STATE h 1 :=
  if_pos (by simp [hout, unitOut])

theorem Dev.headReadmit_other (hother : d.rd .SRV_HSTAT_STATE h ≠ 4) : d.headReadmit h = d := if_neg (by simp [hother, unitOut])

end HeadRequests

end Sys2Proof.Machine
end

section
/-! The arm links: frames sent (R342), frames received (R297, R341, R346, R347), link states (R348, R349) and AFE register accesses
(R350). -/

namespace Sys2Proof.Machine

/-- A field of a field is a field of the whole word. -/
theorem bits_bits (v lo w : Nat) {k n : Nat} (h : k + n ≤ w) : bits (bits v lo w) k n = bits v (lo + k) n := by
  refine Nat.eq_of_testBit_eq fun i => ?_
  have hpos : i + k + lo = i + (lo + k) := by omega
  have hin : (i < n ∧ i + k < w) ↔ i < n := by omega
  simp only [bits, Nat.testBit_mod_two_pow, Nat.testBit_div_two_pow, ← Bool.and_assoc, ← Bool.decide_and, hpos, hin]

@[simp] theorem Dev.link_setLink_self (d : Dev) (a : Nat) (l : Link) : (d.setLink a l).link a = l := by simp [Dev.link, Dev.setLink]

@[simp] theorem Dev.link_count (d : Dev) (f : Fld) (i n a : Nat) : (d.count f i n).link a = d.link a := rfl

theorem Dev.linkUp_iff (d : Dev) (a : Nat) : d.linkUp a = true ↔ d.rd .ARM_STAT_LSTATE a = 2 := by simp [Dev.linkUp]

/-! ### Frames sent -/

section Sent

variable {d : Dev} {a : Nat} {f : ArmFrame} {rest : List ArmFrame}

/-- The frame first in the queue of a link that is UP goes out under the next tag and is kept under it (R342, R347). -/
theorem Dev.sendFrame_first {t : Nat} (hdown : (d.link a).down = f :: rest) (htype : f.type = t) (hup : d.rd .ARM_STAT_LSTATE a = 2)
    {l : Link} (hl : l = d.link a) {d1 : Dev}
    (hd1 : d1 = (d.emit (.armFrame a (armWord t l.tag f.payload))).setLink a
      { l with down := rest, resend := (l.resend.filter fun p => p.1 != l.tag) ++ [(l.tag, f)], tag := (l.tag + 1) % 16 }) :
    d.sendFrame a t = d1.frameSent a f := by
  subst hd1 hl htype
  simp only [Dev.sendFrame, hdown]
  exact if_neg (by simp [(d.linkUp_iff a).mpr hup])

theorem Dev.frameSent_safe (htype : f.type = 8) : d.frameSent a f = d.heatersOff a := by simp [Dev.frameSent, htype]

/-- The REGWR of the access outstanding completes it (R350). -/
theorem Dev.frameSent_regwr (htype : f.type = 5) (haccess : (d.link a).access = some f) :
    d.frameSent a f = ((d.setLink a { d.link a with access := none }).wr .ARM_REGCMD_GO a 0).wr .ARM_REGRSP_DONE a 1 := by
  simp only [Dev.frameSent, htype, haccess, beq_self_eq_true, if_true]
  rfl

theorem Dev.frameSent_plain (hregwr : f.type ≠ 5) (hsafe : f.type ≠ 8) : d.frameSent a f = d := by
  simp only [Dev.frameSent, hregwr, hsafe, if_false]

/-- Of the other types a frame's sending brings about nothing more. -/
theorem exec_frame_plain {c : Instr} {s : State} {t : Nat} (hregwr : t ≠ 5) (hsafe : t ≠ 8) (hmet : s.dev.met = d)
    (hdown : (d.link a).down = f :: rest) (htype : f.type = t) (hup : d.rd .ARM_STAT_LSTATE a = 2) {l : Link} (hl : l = d.link a)
    (hrun : exec c s = s.run (·.sendFrame a t) := by rfl) :
    exec c s = .next (s.after ((d.emit (.armFrame a (armWord t l.tag f.payload))).setLink a
      { l with down := rest, resend := (l.resend.filter fun p => p.1 != l.tag) ++ [(l.tag, f)], tag := (l.tag + 1) % 16 })) :=
  exec_of_met (·.sendFrame a t) hmet
    ((Dev.sendFrame_first hdown htype hup hl rfl).trans (Dev.frameSent_plain (htype ▸ hregwr) (htype ▸ hsafe))) hrun

end Sent

/-! ### Frames received -/

section Received

variable {d : Dev} {a v : Nat}

/-- A good frame ends the run of invalid ones and has its type's effect (R341, R348). -/
theorem Dev.uplink_good {t : Nat} (g : Dev → Nat → Nat → Dev) (hup : d.rd .ARM_STAT_LSTATE a = 2) (hdelim : bits v 48 2 = 2)
    (hcrc : bits v 0 8 = armCrc v) (htype : bits v 44 4 = t) :
    d.uplink a t v g = g (d.setLink a { d.link a with bad := 0 }) (bits v 8 32) (bits v 40 4) := by
  simp [Dev.uplink, (d.linkUp_iff a).mpr hup, hdelim, ← hcrc, htype]

theorem Dev.badUplink_delimiter (hup : d.rd .ARM_STAT_LSTATE a = 2) (hdelim : bits v 48 2 ≠ 2) :
    d.badUplink a v = (d.setLink a { d.link a with bad := (d.link a).bad + 1 }).count .ARM_ERR_DELIM a := by
  simp [Dev.badUplink, Dev.uplink, (d.linkUp_iff a).mpr hup, hdelim]

theorem Dev.badUplink_crc (hup : d.rd .ARM_STAT_LSTATE a = 2) (hdelim : bits v 48 2 = 2) (hcrc : bits v 0 8 ≠ armCrc v) :
    d.badUplink a v = (d.setLink a { d.link a with bad := (d.link a).bad + 1 }).count .ARM_ERR_UPCRC a := by
  simp [Dev.badUplink, Dev.uplink, (d.linkUp_iff a).mpr hup, hdelim, hcrc]

end Received

/-! ### What a good frame brings -/

section Effects

variable {d : Dev} {a v : Nat}

/-- A NAK of a frame that is kept counts and queues it again ahead of its type (R347). -/
theorem Dev.nakFrame_kept (hup : d.rd .ARM_STAT_LSTATE a = 2) (hdelim : bits v 48 2 = 2) (hcrc : bits v 0 8 = armCrc v)
    (htype : bits v 44 4 = 3) {x : Nat × ArmFrame}
    (hkept : (d.link a).resend.find? (fun y => y.1 == bits v 8 32 % 16) = some x) {d0 : Dev}
    (hd0 : d0 = d.setLink a { d.link a with bad := 0 }) :
    d.nakFrame a v = ((d0.count .ARM_ERR_NAK a).setLink a
      { d0.link a with down := resendInsert (d0.link a).down x.2 }).count .ARM_ERR_RESEND a := by
  subst hd0
  rw [Dev.nakFrame, Dev.uplink_good _ hup hdelim hcrc htype]
  simp only [Dev.link_count, Dev.link_setLink_self, hkept]

/-- The REGDATA of the read outstanding completes it (R350). -/
theorem Dev.regdataFrame_awaited (hup : d.rd .ARM_STAT_LSTATE a = 2) (hdelim : bits v 48 2 = 2) (hcrc : bits v 0 8 = armCrc v)
    (htype : bits v 44 4 = 4) {f : ArmFrame} (haccess : (d.link a).access = some f) (hread : f.type = 6)
    (htarget : f.target = bits v 32 8) {d0 : Dev} (hd0 : d0 = d.setLink a { d.link a with bad := 0 }) :
    d.regdataFrame a v = (((d0.setLink a { d0.link a with access := none }).wr .ARM_REGCMD_GO a 0).wr .ARM_REGRSP_DATA a
      (bits v 8 16)).wr .ARM_REGRSP_DONE a 1 := by
  have hwaits : (d0.link a).access = some f := by rw [hd0, Dev.link_setLink_self, haccess]
  rw [Dev.regdataFrame, Dev.uplink_good _ hup hdelim hcrc htype, ← hd0]
  simp only [hwaits, hread, htarget, bits_bits v 8 32 (show 24 + 8 ≤ 32 by decide), bits_bits v 8 32 (show 0 + 16 ≤ 32 by decide),
    beq_self_eq_true, decide_true, Bool.and_self, if_true]
  rfl

/-- A CONTACT of a head that is not OUT is acknowledged, shown and acted on (R339). -/
theorem Dev.contactFrame_acts (hup : d.rd .ARM_STAT_LSTATE a = 2) (hdelim : bits v 48 2 = 2) (hcrc : bits v 0 8 = armCrc v)
    (htype : bits v 44 4 = 5) {p h : Nat} (hp : p = bits v 8 32) (hh : h = 32 * a + bits p 27 5)
    (hin : d.rd .SRV_HSTAT_STATE h ≠ 4) {d0 d1 d2 : Dev} (hd0 : d0 = d.setLink a { d.link a with bad := 0 })
    (hd1 : d1 = ((d0.armAck a (bits v 40 4)).wr .ARM_CONTACT_VALID a 1).wr .ARM_CONTACT_SURF a (bits p 27 5))
    (hd2 : d2 = d1.wr .ARM_CONTACT_METRIC a (bits p 0 10)) :
    d.contactFrame a v = d2.contact h (((d2.head h).last.map Prod.snd).getD (d2.rd .SRV_HTGT_TRACK h)) := by
  have hstate : d2.rd .SRV_HSTAT_STATE h = d.rd .SRV_HSTAT_STATE h := by simp [hd2, hd1, hd0, Dev.armAck, Dev.armSend, Dev.armQueue]
  subst hd2 hd1 hd0 hh hp
  rw [Dev.contactFrame, Dev.uplink_good _ hup hdelim hcrc htype]
  exact if_neg (by simpa [hstate, unitOut] using hin)

end Effects

/-! ### Link states -/

section States

variable {d : Dev} {a : Nat}

/-- ENABLE alone changes no link state: it is written 0, or the link is not DOWN. -/
theorem Dev.armEnable_stays {on : Bool} (h : on = false ∨ d.rd .ARM_STAT_LSTATE a ≠ 0) :
    d.armEnable a on = d.wr .ARM_CTL_ENABLE a (bnat on) := by
  refine if_neg ?_
  obtain rfl | hstate := h
  · simp
  · simp [Dev.wrb, hstate]

/-- ENABLE trains a link that is DOWN (R348). -/
theorem Dev.armEnable_trains (hdown : d.rd .ARM_STAT_LSTATE a = 0) : d.armEnable a true = (d.wr .ARM_CTL_ENABLE a 1).toTrain a :=
  if_pos (by simp [Dev.wrb, hdown])

theorem Dev.armRetrain_failed (hfailed : d.rd .ARM_STAT_LSTATE a = 3) : d.armRetrain a = d.toTrain a := if_pos (by simp [hfailed])

theorem Dev.armRetrain_other (hother : d.rd .ARM_STAT_LSTATE a ≠ 3) : d.armRetrain a = d.linkLoss a true := if_neg (by simp [hother])

/-- The SELECT of a write channel whose sequencer has a job goes out again. -/
def Dev.selectAgain (d : Dev) (a k : Nat) : Dev :=
  match (d.seq (8 * a + k)).job with
  | some j => d.armSelect (8 * a + k) (surfOfHead j.head) (j.kind == 1)
  | none => d

/-- A surface's heater code, where it is not 0, and its last microactuator word go out again. -/
def Dev.headAgain (d : Dev) (a s : Nat) : Dev :=
  let x := d.head (32 * a + s)
  let d1 := if x.htr = 0 then d else d.armHeater a s x.htr
  match x.sentMa with
  | some c => d1.armSend a 4 s (s * 2 ^ 27 + c)
  | none => d1

theorem Dev.selectAgain_none {k : Nat} (hjob : (d.seq (8 * a + k)).job = none) : d.selectAgain a k = d := by
  simp only [Dev.selectAgain, hjob]

theorem Dev.headAgain_none {s : Nat} (h : (d.head (32 * a + s)).htr = 0 ∧ (d.head (32 * a + s)).sentMa = none) :
    d.headAgain a s = d := by
  simp only [Dev.headAgain, h, if_true]

/-- Training that ends well sends the current values again in a link that is UP (R348, R349). -/
theorem Dev.linkTrained_training (htrain : d.rd .ARM_STAT_LSTATE a = 1) {d1 d2 : Dev} (hd1 : d1 = d.wr .ARM_STAT_LSTATE a 2)
    (hd2 : d2 = ((List.range 8).foldl (fun d k => d.selectAgain a k) d1).armBias a (d.link a).bias) :
    d.linkTrained a = (List.range 32).foldl (fun d s => d.headAgain a s) d2 := by
  subst hd2 hd1
  exact if_neg (by simp [htrain])

/-- Where no sequencer has a job, no heater is on and no microactuator word went out, BIAS alone is sent. -/
theorem Dev.linkTrained_quiet (htrain : d.rd .ARM_STAT_LSTATE a = 1) (hjobs : ∀ k < 8, (d.seq (8 * a + k)).job = none)
    (hheads : ∀ k < 32, (d.head (32 * a + k)).htr = 0 ∧ (d.head (32 * a + k)).sentMa = none) :
    d.linkTrained a = (d.wr .ARM_STAT_LSTATE a 2).armBias a (d.link a).bias := by
  have hselects : (List.range 8).foldl (fun d k => d.selectAgain a k) (d.wr .ARM_STAT_LSTATE a 2) = d.wr .ARM_STAT_LSTATE a 2 :=
    foldl_eq_of_fixed fun k hk => Dev.selectAgain_none (hjobs k (List.mem_range.mp hk))
  rw [Dev.linkTrained_training htrain rfl rfl, hselects]
  exact foldl_eq_of_fixed fun s hs => Dev.headAgain_none (hheads s (List.mem_range.mp hs))

/-- 20 µs of training without success (R348, R349). -/
theorem Dev.trainTimeout_due (htrain : d.rd .ARM_STAT_LSTATE a = 1) (hwaited : d.waited (.train a) 25000 = true) {d1 : Dev}
    (hd1 : d1 = d.wr .ARM_STAT_LSTATE a 3) : d.trainTimeout a = (d1.raise 19 a (d1.word .ARM_STAT a)).actOut a := by
  subst hd1
  exact if_neg (by simp [htrain, hwaited])

/-- The writer of slot `j` has no head selected any more, and its fence is looked at. -/
def Dev.dropSelect (d : Dev) (a j : Nat) : Dev :=
  (d.setWslot (8 * a + j) { d.wslot (8 * a + j) with selHead := none }).checkFence (8 * a + j)

/-- A link leaves UP: the loss is recorded, the link trains again where it is to, its heads are LOST, and the fourth loss within a second
takes the actuator OUT (R349). -/
theorem Dev.linkLoss_up {train again : Bool} (hup : d.rd .ARM_STAT_LSTATE a = 2) (hagain : again = (train || d.on .ARM_CTL_AUTORT a))
    {recent : List Nat} (hrecent : recent = ((d.link a).lossAt.filter fun t => decide (d.now < t + 1250000000)) ++ [d.now])
    {d1 d2 d3 d4 : Dev} (hd1 : d1 = d.setLink a { d.link a with lossAt := recent, bad := 0 })
    (hd2 : d2 = (if again then d1.toTrain a else d1.wr .ARM_STAT_LSTATE a 0).count .ARM_STAT_LOSSES a)
    (hd3 : d3 = ((List.range 8).foldl (fun d j => d.dropSelect a j) (d2.wr .ARM_STAT_DOWN a 1)).loseHeads a)
    (hd4 : d4 = d3.event 0x221 a (d3.word .ARM_STAT a) (d3.word .ARM_ERR a) 0) :
    d.linkLoss a train = if recent.length < 4 then d4 else (d4.raise 19 a (d4.word .ARM_STAT a)).actOut a := by
  simp only [Dev.dropSelect] at hd3
  rw [Dev.linkLoss, (d.linkUp_iff a).mpr hup, Bool.not_true, if_neg Bool.false_ne_true]
  simp only [← hagain, ← hrecent, ← hd1, ← hd2, Dev.stick, ← hd3, ← hd4]

/-- The first loss within a second takes nothing OUT; with AUTORT the link trains again. -/
theorem Dev.linkLoss_first (hup : d.rd .ARM_STAT_LSTATE a = 2) (hfirst : (d.link a).lossAt = []) {d1 d2 d3 : Dev}
    (hd1 : d1 = d.setLink a { d.link a with lossAt := [d.now], bad := 0 })
    (hd2 : d2 = (if d.on .ARM_CTL_AUTORT a then d1.toTrain a else d1.wr .ARM_STAT_LSTATE a 0).count .ARM_STAT_LOSSES a)
    (hd3 : d3 = ((List.range 8).foldl (fun d j => d.dropSelect a j) (d2.wr .ARM_STAT_DOWN a 1)).loseHeads a) :
    d.linkLoss a false = d3.event 0x221 a (d3.word .ARM_STAT a) (d3.word .ARM_ERR a) 0 :=
  (Dev.linkLoss_up hup (Bool.false_or _).symm (by rw [hfirst]; rfl) hd1 hd2 hd3 rfl).trans (if_pos (show 1 < 4 by decide))

end States

/-! ### AFE registers (R350) -/

section Access

variable {d : Dev} {a w : Nat} {f : ArmFrame}

/-- The frame that a write of ARM_REGCMD sends. -/
def afeFrame (w : Nat) : ArmFrame :=
  let r := bits w 16 8
  if bit w 30 then { type := 5, target := r, payload := r * 2 ^ 24 + bits w 0 16, urgent := false }
  else { type := 6, target := r, payload := r * 2 ^ 24, urgent := false }

theorem Dev.afeAccess_starts (hfree : (d.link a).access = none) (hgo : bit w 31 = true) {d1 : Dev}
    (hd1 : d1 = ((d.wr .ARM_REGCMD_WR a (bnat (bit w 30))).wr .ARM_REGCMD_ADDR a (bits w 16 8)).wr .ARM_REGCMD_DATA a (bits w 0 16)) :
    d.afeAccess a w = (((d1.setLink a { d.link a with access := some (afeFrame w) }).beginWait (.afe a)).wr .ARM_REGCMD_GO a 1).armQueue a
      (afeFrame w) := by
  subst hd1
  simp only [Dev.afeAccess, hfree, hgo]
  rfl

theorem Dev.afeAccess_busy (hbusy : (d.link a).access.isSome = true) : d.afeAccess a w = d.wr .ARM_REGRSP_BUSY a 1 := if_pos hbusy

theorem Dev.afeTimeout_due (haccess : (d.link a).access = some f) (htype : f.type = 6) (hwaited : d.waited (.afe a) 2500 = true) :
    d.afeTimeout a =
      ((d.setLink a { d.link a with access := none }).wr .ARM_REGCMD_GO a 0).wr .ARM_REGRSP_TIMEOUT a 1 := by
  simp only [Dev.afeTimeout, haccess]
  exact if_pos (by simp [htype, hwaited])

end Access

end Sys2Proof.Machine
end

section
/-! The statements of 09_servo_and_actuators about actuators, heads and arm links. -/

namespace Sys2Proof.Machine

/-- Settles O10: each clause is one rule of a timeout, of DONE, or of a request to an actuator or a head. -/
theorem actuatorsAndHeads : Obligations.ActuatorsAndHeads := by
  unfold Obligations.ActuatorsAndHeads
  refine ⟨?seekAgain, ?seekThird, ?calTimeout, ?loadTimeout, ?unloadTimeout, ?retractEnds, ?noRetract, ?loaded, ?arrived, ?unloaded,
    ?calPassed, ?calFailed, ?load, ?slow, ?unload, ?noUnload, ?forceout, ?alreadyOut, ?readmit, ?headForceout, ?headReadmit,
    ?headOther⟩
  case seekAgain =>
    rintro s _ a after rfl hmode hover hfew
    exact exec_of_met (fun d => (d.advance after).seekTimeout a.val) rfl
      ((Dev.seekTimeout_over hmode hover rfl rfl).trans (if_pos (by omega)))
  case seekThird =>
    rintro s _ a after rfl hmode hover htwo
    exact exec_of_met (fun d => (d.advance after).seekTimeout a.val) rfl
      ((Dev.seekTimeout_over hmode hover (n := 3) (by rw [htwo]) rfl).trans (if_neg (by decide)))
  case calTimeout =>
    rintro s _ a after rfl hover hmode hcal
    exact exec_of_met (fun d => (d.advance after).loadTimeout a.val) rfl
      ((Dev.loadTimeout_loading hover hmode).trans (if_pos (by simp [hcal, unitCal])))
  case loadTimeout =>
    rintro s _ a after rfl hover hmode hother
    exact exec_of_met (fun d => (d.advance after).loadTimeout a.val) rfl
      ((Dev.loadTimeout_loading hover hmode).trans (if_neg (by simp [hother, unitCal])))
  case unloadTimeout =>
    rintro s _ a after rfl hover hmode
    exact exec_of_met (fun d => (d.advance after).loadTimeout a.val) rfl (Dev.loadTimeout_unloading hover hmode)
  case retractEnds =>
    rintro s _ a after rfl hretract hpassed
    exact exec_of_met (fun d => (d.advance after).retractEnd a.val) rfl (Dev.retractEnd_due hretract hpassed rfl rfl rfl)
  case noRetract =>
    rintro s _ a after rfl hnone
    exact exec_of_met (fun d => (d.advance after).retractEnd a.val) rfl (Dev.retractEnd_none hnone)
  case loaded =>
    exact fun s d a hmet hmode hguided => exec_of_met (·.servoDone a.val) hmet (Dev.servoDone_loaded hmode hguided)
  case arrived => exact fun s d a hmet hmode => exec_of_met (·.servoDone a.val) hmet (Dev.servoDone_arrived hmode)
  case unloaded => exact fun s d a hmet hmode => exec_of_met (·.servoDone a.val) hmet (Dev.servoDone_unloaded hmode)
  case calPassed =>
    intro s d a hmet hmode hcal hpass hheads
    exact exec_of_met (·.servoDone a.val) hmet
      ((Dev.servoDone_calibrated hmode hcal).trans (if_pos (by simp [Dev.on_eq_true hpass, hheads])))
  case calFailed =>
    intro s d a hmet hmode hcal hfail
    exact exec_of_met (·.servoDone a.val) hmet
      ((Dev.servoDone_calibrated hmode hcal).trans (if_neg (by simp [Dev.on_eq_false hfail])))
  case load =>
    intro s d a hmet hspindle hstate hparked hnew
    exact exec_of_met (·.loadHeads a.val) hmet (Dev.loadHeads_parked hspindle hstate hparked hnew)
  case slow => exact fun s d a hmet hslow => exec_of_met (·.loadHeads a.val) hmet (Dev.loadHeads_slow hslow)
  case unload => exact fun s d a hmet hmode => exec_of_met (·.unloadHeads a.val) hmet (Dev.unloadHeads_follow hmode)
  case noUnload => exact fun s d a hmet hmode => exec_of_met (·.unloadHeads a.val) hmet (Dev.unloadHeads_other hmode)
  case forceout => exact fun s d a hmet hoff hout => exec_of_met (·.actOut a.val) hmet (Dev.actOut_acts hoff hout rfl)
  case alreadyOut => exact fun s d a hmet hout => exec_of_met (·.actOut a.val) hmet (Dev.actOut_out hout)
  case readmit => exact fun s d a hmet hout => exec_of_met (·.actReadmit a.val) hmet (Dev.actReadmit_out hout)
  case headForceout => exact fun s d h hmet hoff hout => exec_of_met (·.headForce h.val) hmet (Dev.headForce_acts hoff hout)
  case headReadmit => exact fun s d h hmet hout => exec_of_met (·.headReadmit h.val) hmet (Dev.headReadmit_out hout)
  case headOther => exact fun s d h hmet hother => exec_of_met (·.headReadmit h.val) hmet (Dev.headReadmit_other hother)

/-- Settles O11: each clause is one rule of a frame sent or received, of a link's state, or of an AFE register access. -/
theorem armLinks : Obligations.ArmLinks := by
  unfold Obligations.ArmLinks
  refine ⟨?safe, ?ack, ?select, ?ma, ?heater, ?bias, ?regwr, ?regrd, ?stat, ?fault, ?nak, ?regdata, ?contact, ?mafault, ?delimiter,
    ?crc, ?enable, ?enableTrains, ?retrainFailed, ?retrainUp, ?request, ?trained, ?timeout, ?loss, ?noLoss, ?access, ?busy,
    ?accessTimeout⟩
  case safe =>
    intro s d a f rest hmet hdown htype hup
    exact exec_of_met (·.sendFrame a.val 8) hmet ((Dev.sendFrame_first hdown htype hup rfl rfl).trans (Dev.frameSent_safe htype))
  case ack =>
    exact fun s d a f rest hmet hdown htype hup => exec_frame_plain (by decide) (by decide) hmet hdown htype hup rfl
  case select =>
    exact fun s d a f rest hmet hdown htype hup => exec_frame_plain (by decide) (by decide) hmet hdown htype hup rfl
  case ma =>
    exact fun s d a f rest hmet hdown htype hup => exec_frame_plain (by decide) (by decide) hmet hdown htype hup rfl
  case heater =>
    exact fun s d a f rest hmet hdown htype hup => exec_frame_plain (by decide) (by decide) hmet hdown htype hup rfl
  case bias =>
    exact fun s d a f rest hmet hdown htype hup => exec_frame_plain (by decide) (by decide) hmet hdown htype hup rfl
  case regwr =>
    intro s d a f rest hmet hdown htype hup haccess
    exact exec_of_met (·.sendFrame a.val 5) hmet
      ((Dev.sendFrame_first hdown htype hup rfl rfl).trans (Dev.frameSent_regwr htype (by rw [Dev.link_setLink_self, haccess])))
  case regrd =>
    exact fun s d a f rest hmet hdown htype hup => exec_frame_plain (by decide) (by decide) hmet hdown htype hup rfl
  case stat =>
    intro s d a v hmet hup hdelim hcrc htype
    exact exec_of_met (·.statFrame a.val v.toNat) hmet (Dev.uplink_good _ hup hdelim hcrc htype)
  case fault =>
    intro s d a v hmet hup hdelim hcrc htype
    exact exec_of_met (·.faultFrame a.val v.toNat) hmet (Dev.uplink_good _ hup hdelim hcrc htype)
  case nak =>
    intro s d a v x hmet hup hdelim hcrc htype hkept
    exact exec_of_met (·.nakFrame a.val v.toNat) hmet (Dev.nakFrame_kept hup hdelim hcrc htype hkept rfl)
  case regdata =>
    intro s d a v f hmet hup hdelim hcrc htype haccess hread htarget
    exact exec_of_met (·.regdataFrame a.val v.toNat) hmet
      (Dev.regdataFrame_awaited hup hdelim hcrc htype haccess hread htarget rfl)
  case contact =>
    intro s d a v hmet hup hdelim hcrc htype hin
    exact exec_of_met (·.contactFrame a.val v.toNat) hmet (Dev.contactFrame_acts hup hdelim hcrc htype rfl rfl hin rfl rfl rfl)
  case mafault =>
    intro s d a v hmet hup hdelim hcrc htype
    exact exec_of_met (·.mafaultFrame a.val v.toNat) hmet (Dev.uplink_good _ hup hdelim hcrc htype)
  case delimiter =>
    exact fun s d a v hmet hup hdelim => exec_of_met (·.badUplink a.val v) hmet (Dev.badUplink_delimiter hup hdelim)
  case crc =>
    exact fun s d a v hmet hup hdelim hcrc => exec_of_met (·.badUplink a.val v) hmet (Dev.badUplink_crc hup hdelim hcrc)
  case enable => exact fun s d a on hmet h => exec_of_met (·.armEnable a.val on) hmet (Dev.armEnable_stays h)
  case enableTrains => exact fun s d a hmet hdown => exec_of_met (·.armEnable a.val true) hmet (Dev.armEnable_trains hdown)
  case retrainFailed => exact fun s d a hmet hfailed => exec_of_met (·.armRetrain a.val) hmet (Dev.armRetrain_failed hfailed)
  case retrainUp =>
    exact fun s d a hmet hup => exec_of_met (·.armRetrain a.val) hmet (Dev.armRetrain_other (by simp [hup]))
  case request => exact fun s d a hmet => exec_of_met (·.armSend a.val 8 0 0x5AFE) hmet rfl
  case trained =>
    exact fun s d a hmet htrain hjobs hheads => exec_of_met (·.linkTrained a.val) hmet (Dev.linkTrained_quiet htrain hjobs hheads)
  case timeout =>
    rintro s _ a after rfl htrain hwaited
    exact exec_of_met (fun d => (d.advance after).trainTimeout a.val) rfl (Dev.trainTimeout_due htrain hwaited rfl)
  case loss =>
    intro s d a hmet hup hbad hfirst
    exact exec_of_met (fun d => if 8 ≤ (d.link a.val).bad then d.linkLoss a.val false else d) hmet
      ((if_pos hbad).trans (Dev.linkLoss_first hup hfirst rfl rfl rfl))
  case noLoss =>
    intro s d a hmet hbad
    exact exec_of_met (fun d => if 8 ≤ (d.link a.val).bad then d.linkLoss a.val false else d) hmet (if_neg (Nat.not_le.mpr hbad))
  case access => exact fun s d a w hmet hfree hgo => exec_of_met (·.afeAccess a.val w.toNat) hmet (Dev.afeAccess_starts hfree hgo rfl)
  case busy => exact fun s d a w hmet hbusy => exec_of_met (·.afeAccess a.val w.toNat) hmet (Dev.afeAccess_busy hbusy)
  case accessTimeout =>
    rintro s _ a f after rfl haccess htype hwaited
    exact exec_of_met (fun d => (d.advance after).afeTimeout a.val) rfl (Dev.afeTimeout_due haccess htype hwaited)

end Sys2Proof.Machine
end

section
/-! The spindle controller: its states (R356-R361), detection and commutation (R362-R368), the speed, its regulator and its limits
(R369-R373), phase-lock (R381), and the measurement channels (R382-R385). -/

namespace Sys2Proof.Machine

/-! ### States of the spindle -/

section SpindleStates

variable {d : Dev}

/-- ENABLE takes the spindle out of OFF (R359). -/
theorem Dev.spnEnable_off (hoff : d.rd .SPN_STAT_STATE = 0) :
    d.spnEnable true = ((d.wr .SPN_CTL_ENABLE 0 1).spnState 1).spnStart := by
  simp only [Dev.spnEnable, if_true]
  exact if_pos (by simp [Dev.wrb, hoff])

/-- ENABLE written 0 leads to OFF, but from PFAIL (R360). -/
theorem Dev.spnEnable_clear (hstate : d.rd .SPN_STAT_STATE ≠ 7) : d.spnEnable false = (d.wr .SPN_CTL_ENABLE 0 0).spnState 0 := by
  simp only [Dev.spnEnable, Bool.false_eq_true, if_false]
  exact if_neg (by simp [Dev.wrb, hstate])

/-- RUN written 0 lets a turning spindle coast (R359). -/
theorem Dev.spnRun_clear (hturns : d.rd .SPN_STAT_STATE = 2 ∨ d.rd .SPN_STAT_STATE = 3 ∨ d.rd .SPN_STAT_STATE = 4) :
    d.spnRun false = (d.wr .SPN_CTL_RUN 0 0).spnState 5 := by
  simp only [Dev.spnRun, Bool.false_eq_true, if_false]
  exact if_pos (by simp [Dev.wrb, hturns])

theorem Dev.spnBrake_acts (hoff : d.rd .SPN_STAT_STATE ≠ 0) (hpfail : d.rd .SPN_STAT_STATE ≠ 7) : d.spnBrake = d.spnState 6 :=
  if_neg (by simp [hoff, hpfail])

/-- 2 s in COAST without a crossing stop the spindle (R359). -/
theorem Dev.coastTimeout_due (hcoasts : d.rd .SPN_STAT_STATE = 5) (hpassed : d.spn.zcAt + 2500000000 ≤ d.now) :
    d.coastTimeout = (d.spnState 1).spnStart := if_pos (by simp [hcoasts, hpassed])

end SpindleStates

/-! ### Detection and handover -/

section Detection

variable {d : Dev} {p q : Nat}

/-- 10 ms after a failed attempt the next one starts (R363). -/
theorem Dev.detectRetry_due (hdetects : d.rd .SPN_STAT_STATE = 2) (hretry : d.spn.retry = true)
    (hpassed : d.spn.retryAt + 12500000 ≤ d.now) : d.detectRetry = ({ d with spn := { d.spn with retry := false } } : Dev).toDetect :=
  if_pos (by simp [hdetects, hretry, hpassed])

/-- Peaks that differ give the rotor's polarity, and INJECT begins (R359, R363). -/
theorem Dev.detectEnd_found (hdetects : d.rd .SPN_STAT_STATE = 2) (hretry : d.spn.retry = false) (hpeaks : peaksClose p q = false) :
    d.detectEnd p q = d.spnState 3 :=
  (if_neg (by simp [hdetects, hretry])).trans (if_pos (by simp [hpeaks]))

/-- The third attempt in a row that fails gives the start up (R363). -/
theorem Dev.detectEnd_third (hdetects : d.rd .SPN_STAT_STATE = 2) (hretry : d.spn.retry = false) (hpeaks : peaksClose p q = true)
    (htwo : d.spn.attempts = 2) {d1 : Dev}
    (hd1 : d1 = ((({ d with spn := { d.spn with attempts := 3, retry := false, retryAt := d.now } } : Dev).wr .SPN_CTL_RUN 0 0).spnState
      1).wr .SPN_STAT_STARTFAIL 0 1) :
    d.detectEnd p q = d1.raise 21 0 (d1.word .SPN_STAT) := by
  have hstays : (d.rd .SPN_STAT_STATE != 2 || d.spn.retry) = false := by simp [hdetects, hretry]
  subst hd1
  simp only [Dev.detectEnd, hstays, hpeaks, htwo, Bool.not_true, Bool.false_eq_true, if_false]
  rfl

/-- INJECT hands over to BEMF from 1100 rpm on (R359). -/
theorem Dev.handoverBemf_due (hinject : d.rd .SPN_STAT_STATE = 3) (hfast : 110000 ≤ d.rd .SPN_MEAS_SPEED) :
    d.handoverBemf = d.toBemf := if_pos (by simp [hinject, hfast])

end Detection

/-! ### Crossings and commutation -/

section Crossings

variable {d : Dev} {k : Nat} {up : Bool}

/-- In BEMF the floating phase's crossing counts, behind the blanking and before 0.75 of the interval (R365, R366). -/
theorem Dev.zeroCrossing_bemf (hbemf : d.rd .SPN_STAT_STATE = 4) (hnew : d.spn.zc = false) (hfloats : (stepLegs d.spn.step).2.2 = k)
    (hblank : d.rd .SPN_BEMF_BLANK * d.spn.interval ≤ 256 * (d.now - d.spn.commAt))
    (hwindow : 4 * (d.now - d.spn.commAt) ≤ 3 * d.spn.interval) :
    d.zeroCrossing k up = { d with spn := { d.spn with zc := true, misses := 0, zcAt := d.now } } := by
  simp only [Dev.zeroCrossing, hbemf]
  exact if_neg (by simp [hnew, hfloats, Nat.not_lt.mpr hblank, Nat.not_lt.mpr hwindow])

theorem Dev.zeroCrossing_coast (hcoasts : d.rd .SPN_STAT_STATE = 5) {iv : List Nat}
    (hiv : iv = if d.spn.seen = 0 then [] else ((d.now - d.spn.zcAt) :: d.spn.ivals).take 2) :
    d.zeroCrossing k up = ({ d with spn := { d.spn with seen := d.spn.seen + 1, zcAt := d.now, ivals := iv } } : Dev).spnBySpeed := by
  simp only [Dev.zeroCrossing, hcoasts, hiv]

theorem Dev.zeroCrossing_pfail (hpfail : d.rd .SPN_STAT_STATE = 7) {leg : Nat → Leg}
    (hleg : leg = fun l => if l = k then (if up then .high else .low) else d.spn.rect.getD l .off) :
    d.zeroCrossing k up = ({ d with spn := { d.spn with rect := (List.range 3).map leg } } : Dev).showGates := by
  simp only [Dev.zeroCrossing, hpfail, hleg]

/-- At the commutation point the step advances; a step without a crossing is a miss, and ZCMISS of them lose the rotor (R366). -/
theorem Dev.commutate_due (hbemf : d.rd .SPN_STAT_STATE = 4) (hdue : d.commutesAt ≤ d.now) {n : Nat} (hn : n = d.commutesAt) {m : Nat}
    (hm : m = if d.spn.zc then d.spn.misses else d.spn.misses + 1) {d1 : Dev}
    (hd1 : d1 = { d with spn := { d.spn with step := (d.spn.step + 1) % 6, zc := false, misses := m, commAt := n,
                                             ivals := ((n - d.spn.commAt) :: d.spn.ivals).take 2 } }) :
    d.commutate =
      if !d.spn.zc && decide (max 1 (d.rd .SPN_BEMF_ZCMISS) ≤ m) then (d1.spnState 5).wr .SPN_STAT_ZCLOST 0 1
      else if d1.speedSource = 2 then d1.showGates.measureSpeed 0 false else d1.showGates := by
  subst hd1 hm hn
  exact if_neg (by simp [hbemf, hdue])

end Crossings

/-! ### Speed -/

section Speed

variable {d : Dev} {w v ms : Nat}

/-- A target within the range that differs from the one in force starts the count of revolutions again (R371, R372). -/
theorem Dev.speedTarget_new (hlow : 180000 ≤ w) (hhigh : w ≤ 720000) (hnew : w ≠ d.rd .SPN_SPEED_TARGET) :
    d.speedTarget w =
      ((({ d with spn := { d.spn with inTol := 0 } } : Dev).wr .SPN_SPEED_TARGET 0 w).wr .SPN_STAT_ATSPEED 0 0).setInRange.setOvsRef := by
  have hwhole : w % 2 ^ 20 = w := Nat.mod_eq_of_lt (by omega)
  simp only [Dev.speedTarget, hwhole]
  exact (if_neg (by simp [Nat.not_lt.mpr hlow, Nat.not_lt.mpr hhigh])).trans (if_neg hnew)

theorem Dev.speedTarget_refused (hout : w % 2 ^ 20 < 180000 ∨ 720000 < w % 2 ^ 20) : d.speedTarget w = d.wr .SPN_STAT_BADCFG 0 1 :=
  if_pos (by simpa using hout)

/-- In OFF and STOPPED SPN_MOTOR takes pole pairs from 2 to 8 and channels up to 23 (R387). -/
theorem Dev.motorConfig_taken (hstate : d.rd .SPN_STAT_STATE = 0 ∨ d.rd .SPN_STAT_STATE = 1)
    (hchan : bits w 24 5 ≤ 23 ∧ bits w 16 5 ≤ 23 ∧ bits w 8 5 ≤ 23) (hpoles : 2 ≤ bits w 0 4 ∧ bits w 0 4 ≤ 8) :
    d.motorConfig w = d.putFields .SPN_MOTOR 0 w := by
  obtain ⟨hvbus, hiv, hiu⟩ := hchan
  obtain ⟨hfew, hmany⟩ := hpoles
  have hstill : (d.rd .SPN_STAT_STATE != 0 && d.rd .SPN_STAT_STATE != 1) = false := by
    obtain h | h := hstate <;> simp [h]
  exact if_neg (by simp [hstill, hvbus, hiv, hiu, Nat.lt_of_succ_le hfew, hmany])

/-- Outside OFF and STOPPED a write of SPN_MOTOR is ignored (R387). -/
theorem Dev.motorConfig_refused (hstate : d.rd .SPN_STAT_STATE ≠ 0 ∧ d.rd .SPN_STAT_STATE ≠ 1) :
    d.motorConfig w = d.wr .SPN_STAT_BADCFG 0 1 := if_pos (by simp [hstate])

/-- In BEMF, at most 0.5% above the target, the regulator sets the duty (R371). -/
theorem Dev.regulate_bemf (hbemf : d.rd .SPN_STAT_STATE = 4) (hspeed : 1000 * d.rd .SPN_MEAS_SPEED ≤ 1005 * d.effTarget) {d1 : Dev}
    (hd1 : d1 = ({ d with spn := { d.spn with slow := false } } : Dev).showGates) {e full i : Int}
    (he : e = (d.effTarget : Int) - d.rd .SPN_MEAS_SPEED) (hfull : full = 100 * 2 ^ 20)
    (hi : i = max (-full) (min full (d1.spn.integ + d1.rd .SPN_REG_KI * e * ms))) :
    d.regulate ms = { d1 with spn := { d1.spn with duty := max 0 (min full (64 * d1.rd .SPN_REG_KP * e + i)), integ := i } } := by
  have hslow : decide (1005 * d.effTarget < 1000 * d.rd .SPN_MEAS_SPEED) = false := decide_eq_false (Nat.not_lt.mpr hspeed)
  rw [Dev.regulate, if_neg (by simp [hbemf])]
  simp only [hslow, Bool.false_eq_true, if_false, ← hd1, ← he, ← hfull, ← hi]

/-- More than 0.5% above the target the drive stops (R371). -/
theorem Dev.regulate_fast (hbemf : d.rd .SPN_STAT_STATE = 4) (hspeed : 1005 * d.effTarget < 1000 * d.rd .SPN_MEAS_SPEED) {d1 : Dev}
    (hd1 : d1 = ({ d with spn := { d.spn with slow := true } } : Dev).showGates) :
    d.regulate ms = { d1 with spn := { d1.spn with duty := 0 } } := by
  rw [Dev.regulate, if_neg (by simp [hbemf])]
  simp only [decide_eq_true hspeed, if_true, ← hd1]

end Speed

/-! ### Current limits and braking -/

section Limits

variable {d : Dev} {ma mv : Nat}

/-- A period that follows a cut one is shorter, by a factor that the spec leaves open (log 3); another keeps its duty (R357, R358). -/
theorem Dev.pwmPeriod_whole (hwhole : d.spn.cut = false) :
    d.pwmPeriod =
      ({ d with spn := { d.spn with pwmFreq := max 20 (min 160 (d.rd .SPN_PWM_FREQ)), pwmDead := 10 * max 4 (d.rd .SPN_PWM_DEAD),
                                    pwmLim := d.effLimit, cut := false } } : Dev).showGates := by
  simp only [Dev.pwmPeriod, hwhole, Bool.false_eq_true, if_false]

theorem Dev.pwmPeriod_cut (hcut : d.spn.cut = true) :
    d.pwmPeriod =
      ({ d.used with spn := { d.spn with pwmFreq := max 20 (min 160 (d.rd .SPN_PWM_FREQ)), pwmDead := 10 * max 4 (d.rd .SPN_PWM_DEAD),
                                         pwmLim := d.effLimit, cut := false,
                                         duty := d.spn.duty * Int.ofNat (d.fresh % 65536) / 65536 } } : Dev).showGates := by
  simp only [Dev.pwmPeriod, hcut, if_true]

/-- A driving period whose current exceeds its limit is cut (R357). -/
theorem Dev.phaseCurrent_drives (hdrives : d.rd .SPN_STAT_STATE = 3 ∨ d.rd .SPN_STAT_STATE = 4) (hslow : d.spn.slow = false)
    (hover : d.spn.pwmLim < ma) :
    d.phaseCurrent ma = (({ d with spn := { d.spn with cut := true } } : Dev).emit .pwmCut).showGates := by
  have hbrakes : (d.rd .SPN_STAT_STATE == 6 || (d.spn.slow && d.on .SPN_CTL_DECEL)) = false := by
    obtain h | h := hdrives <;> simp [h, hslow]
  exact if_pos (by simp [hbrakes, hover, hdrives])

/-- So is one of the brake, whose limit is its own (R373). -/
theorem Dev.phaseCurrent_brakes (hbrakes : d.rd .SPN_STAT_STATE = 6) (hover : d.rd .SPN_ILIM_BRK < ma) :
    d.phaseCurrent ma = (({ d with spn := { d.spn with cut := true } } : Dev).emit .pwmCut).showGates :=
  if_pos (by simp [hbrakes, hover])

/-- A braking window opens every 10 ms; the second in a row below 50 mV ends the brake (R373). -/
theorem Dev.brakeSense_due (hbrakes : d.rd .SPN_STAT_STATE = 6) (hdue : d.spn.senseAt + 12500000 ≤ d.now) {dead : Nat}
    (hdead : dead = max 40 d.spn.pwmDead) {d1 d2 : Dev}
    (hd1 : d1 = (d.emit (.gates (allLegs .off) dead)).emit (.gates d.spn.gates dead))
    (hd2 : d2 = { d1 with spn := { d1.spn with senseAt := d1.now } }) :
    d.brakeSense mv =
      if 50 ≤ mv then { d2 with spn := { d2.spn with stopWin := 0 } }
      else if d.spn.stopWin = 0 then { d2 with spn := { d2.spn with stopWin := 1 } } else (d2.spnState 1).spnStart := by
  subst hd2 hd1 hdead
  exact if_neg (by simp [hbrakes, hdue])

end Limits

/-! ### Phase-lock -/

section PhaseLock

variable {d : Dev}

/-- Eight marker periods without a usable marker end the lock, and the trim begins to return (R381). -/
theorem Dev.phaseTimeout_due {p : Nat} (hperiod : d.spn.markPer = some p) (hpassed : d.spn.markAt + 8 * p ≤ d.now) :
    d.phaseTimeout =
      (({ d with spn := { d.spn with phOk := 0, markPer := none,
                                     trimBack := some (signed 16 (d.rd .SPN_PHERR_TRIM), d.now) } } : Dev).wr
        .SPN_STAT_PHLOCKED 0 0).setOvsRef := by
  simp only [Dev.phaseTimeout, hperiod]
  exact if_neg (Nat.not_lt.mpr hpassed)

theorem Dev.phaseTimeout_unlocked (hperiod : d.spn.markPer = none) : d.phaseTimeout = d := by simp only [Dev.phaseTimeout, hperiod]

end PhaseLock

/-! ### Measurement channels -/

section Channels

variable {d : Dev} {c : Nat} {x : Int}

/-- An output that is due is counted; it is not valid while the filter fills, and its value is clipped to full scale (R382-R384). -/
theorem Dev.macSample_due (hmac : d.rd .MAC_CTL_ENABLE ≠ 0) (hchan : d.rd .MAC_CHCFG_EN c ≠ 0)
    (hdue : (d.chan c).at' + d.macPeriod c ≤ d.now) {fill : Nat} (hfill : fill = (d.chan c).fill - 1) {y : Chan}
    (hy : y = { d.chan c with fill := fill, at' := (d.chan c).at' + d.macPeriod c, outAt := some d.now }) {d1 : Dev}
    (hd1 : d1 = ({ d with mac := Tab.put d.mac c y } : Dev).tally .MAC_CHDATA_COUNT c) {v : Int}
    (hv : v = max (-32768) (min 32767 x)) {d2 : Dev}
    (hd2 : d2 = ((d1.wr .MAC_CHDATA_DATA c (unsigned 16 v)).wr .MAC_CHDATA_VALID c 1).wrb .MAC_CHDATA_CLIP c (v != x)) :
    d.macSample c x =
      if (d.chan c).fill != 0 then
        (((d1.wr .MAC_CHDATA_DATA c 0).wr .MAC_CHDATA_VALID c 0).wr .MAC_CHDATA_CLIP c 0).watchCurrent c
      else (((if v = x then d2 else d2.stick .MAC_CHSTAT_RANGE c).shockSample c v).busSample c v).watchCurrent c := by
  subst hd2 hv hd1 hy hfill
  exact if_neg (by simp [Dev.on_eq_true hmac, Dev.on_eq_true hchan, hdue])

/-- A reset fills the filter anew, unless one has done so in this cycle (R384). -/
theorem Dev.macReset_new (hnew : (d.chan c).fill ≠ 3 ∨ (d.chan c).at' ≠ d.now) :
    d.macReset c =
      ({ d with mac := Tab.put d.mac c { d.chan c with fill := 3, at' := d.now } } : Dev).count .MAC_CHSTAT_RESETS c :=
  if_neg (by simpa using imp_iff_not_or.mpr hnew)

/-- The event of an armed channel resets its filter, and disarms it without EACH (R385). -/
theorem Dev.macSync_armed (hevent : d.macEvent c = true) (harmed : (d.chan c).armed = true) (hstate : d.rd .ANG_STAT_STATE = 2) :
    d.macSync c =
      (if d.rd .MAC_CHSYNC_EACH c ≠ 0 then d
        else { d with mac := Tab.put d.mac c { d.chan c with armed := false } }).macReset c := by
  rw [Dev.macSync, if_neg (by simp [hevent, harmed, d.angValid_iff.mpr hstate])]
  simp only [Dev.on, bne_iff_ne]

end Channels

end Sys2Proof.Machine
end

section
/-! The power-fail sequence (R375-R378, R617, R641), the watchdogs (R626) and the State Digest command (R464). -/

namespace Sys2Proof.Machine

/-! ### The entry -/

section Entry

variable {d : Dev} {pin : Bool} {oks : List Bool}

/-- Power failure on the pin, or on two bus samples in a row: the writers stop at their units, the idle actuators retract and the
recorder is flushed (R375, R377, R641). -/
theorem Dev.powerFail_starts (hstate : d.rd .SPN_STAT_STATE ≠ 0) (hnew : d.spn.running = false) (hfails : pin = true ∨ 2 ≤ d.spn.pfLow)
    {units : Tab PfUnit} (hunits : units = d.unitsNow) {acts : List Nat} (hacts : acts = unitActs units) {d1 d2 d3 d4 d5 : Dev}
    (hd1 : d1 = { d with spn := { d.spn with running := true, pfAt := d.now, pfUnits := units, pfBusy := acts, pfVmin := false,
                                             pfRecs := false },
                         hif := { d.hif with log := { d.hif.log with pfails := d.hif.log.pfails + 1 } } })
    (hd2 : d2 = ((d1.spnState 7).stick .SPN_STAT_PFAIL).resetReg .SPN_PFSTAT 0)
    (hd3 : d3 = ((((d2.wr .SPN_PFSTAT_UNIT 0 (maskOf ((List.range 4).map acts.contains))).raise 23 0 (d2.word .SPN_STAT)).rackAlert
      1).schHalt).stopAtUnits fun _ => true)
    (hd4 : d4 = ((List.range 4).filter fun a => d3.actDeclared a && !acts.contains a).foldl
      (fun d a => (d.retract a).wrBit .SPN_PFSTAT_DONE 0 a true) d3)
    (hd5 : d5 = (d4.closePage.flushTrim).wr .EVT_STAT_PFFLUSH 0 1) :
    d.powerFail pin oks = ({ d5 with evt := { d5.evt with pfStep := 1 } } : Dev).flushPages oks := by
  have hstarts : (d.rd .SPN_STAT_STATE == 0 || d.spn.running || !(pin || decide (2 ≤ d.spn.pfLow))) = false := by
    obtain h | h := hfails <;> simp [hstate, hnew, h]
  rw [Dev.powerFail, hstarts, if_neg Bool.false_ne_true]
  simp only [← hunits, ← hacts, ← hd1, ← hd2, ← hd3, ← hd4, ← hd5]

end Entry

/-! ### The steps and the end -/

section Steps

variable {d : Dev} {oks : List Bool}

/-- Once every unit is over, or after 6 ms, the units' records are formed and flushed (R641). -/
theorem Dev.unitRecords_due (hruns : d.spn.running = true) (hnew : d.spn.pfRecs = false) (hbus : d.spn.pfVmin = false)
    (hover : d.spn.pfAt + 7500000 ≤ d.now ∨ d.spn.pfBusy = []) {d1 d2 : Dev}
    (hd1 : d1 = (List.range 4).foldl (fun d a => d.unitRecord a (unitsOfAct d.spn.pfUnits a) true) d)
    (hd2 : d2 = (d1.event 0x500 0 (d1.word .SPN_PFSTAT) 0 0).storeAll.closePage) :
    d.unitRecords oks =
      (({ d2 with spn := { d2.spn with pfRecs := true }, evt := { d2.evt with pfStep := 2 } } : Dev).flushPages oks).wr
        .EVT_STAT_PFFLUSH 0 0 := by
  have hdue : (decide (d.spn.pfAt + 7500000 ≤ d.now) || d.spn.pfBusy.isEmpty) = true := by simpa using hover
  subst hd2 hd1
  exact if_neg (by simp [hruns, hnew, hbus, hdue])

/-- After HOLD every step 3 that still runs ends (R377). -/
theorem Dev.holdEnd_due (hruns : d.spn.running = true) (hbus : d.spn.pfVmin = false)
    (hpassed : d.spn.pfAt + max 2 (d.rd .SPN_PFCFG_HOLD) * 1250000 ≤ d.now) : d.holdEnd = d.spn.pfBusy.foldl Dev.pfStepEnd d :=
  if_neg (by simp [hruns, hbus, Dev.holdOver, hpassed])

/-- Below VMIN every writer goes idle and every unfinished step stops (R378). -/
theorem Dev.belowVmin_due (hruns : d.spn.running = true) (hnew : d.spn.pfVmin = false)
    (hvalid : d.rd .MAC_CHDATA_VALID (d.rd .SPN_MOTOR_VBUS) ≠ 0)
    (hlow : signed 16 (d.rd .MAC_CHDATA_DATA (d.rd .SPN_MOTOR_VBUS)) < (d.rd .SPN_PFAIL_VMIN : Int)) {d1 d2 : Dev}
    (hd1 : d1 = (List.range 32).foldl (fun d s => (d.goIdle s).idleWriter s) d)
    (hd2 : d2 = { d1 with spn := { d1.spn with pfVmin := true, pfBusy := [] } }) :
    d.belowVmin = ((List.range 4).foldl Dev.stopRetract (d2.abandonAll 1)).wr .EVT_STAT_PFFLUSH 0 0 := by
  have hbus : d.busLow = true := by simp [Dev.busLow, Dev.on_eq_true hvalid, hlow]
  subst hd2 hd1
  exact if_neg (by simp [hruns, hnew, hbus])

/-- With the records written and no retract under way the sequence ends: the spindle brakes or coasts, and the reactions that waited
follow in raise order (R377, R617). -/
theorem Dev.pfEnd_over (hruns : d.spn.running = true) (hbusy : d.spn.pfBusy = []) (hrecs : d.spn.pfRecs = true)
    (hretracts : ∀ a, a < 4 → (d.act a).retract = false) {d1 d2 : Dev}
    (hd1 : d1 = d.wr .SPN_PFSTAT_ELAPSED 0 (min 65535 ((d.now - d.spn.pfAt) / 12500)))
    (hd2 : d2 = { d1 with spn := { d1.spn with running := false, pfLow := 0, pfUnits := [] }, flt := { d1.flt with deferred := [] },
                          evt := { d1.evt with pfStep := 0 } }) :
    d.pfEnd = d.flt.deferred.foldl (fun d e => d.react e.1 e.2) (d2.spnState (if d2.on .SPN_PFCFG_BRAKE then 6 else 5)) := by
  have hstill : ((List.range 4).any fun a => (d.act a).retract) = false := by simpa using hretracts
  have hover : d.pfOver = true := by simp [Dev.pfOver, hruns, hbusy, hrecs, hstill]
  subst hd2 hd1
  simp only [Dev.pfEnd, hover, Dev.wr_spn, hrecs, Bool.not_true, Bool.false_eq_true, if_false, if_true]
  rfl

end Steps

/-! ### Watchdogs and the digest -/

section Watchdogs

variable {d : Dev} {c : Nat}

/-- The second expiry in a row of a watchdog with ACT requests a warm reset (R626). -/
theorem Dev.watchdogExpiry_due (hruns : d.rd .FLT_WDCTL_EN c ≠ 0) (hover : d.wdRemain c = 0) {d1 : Dev} (hd1 : d1 = d.wdExpire c) :
    d.watchdogExpiry c =
      if 2 ≤ Tab.getD d1.flt.wdStreak c 0 ∧ d1.rd .FLT_WDCTL_ACT c ≠ 0 then d1.resetRequest 1 3 else d1 := by
  rw [Dev.watchdogExpiry, if_neg (by simp [Dev.on_eq_true hruns, hover])]
  simp only [← hd1, Dev.on, bne_iff_ne]

theorem Dev.watchdogExpiry_waits (hwaits : d.rd .FLT_WDCTL_EN c = 0 ∨ d.wdRemain c ≠ 0) : d.watchdogExpiry c = d :=
  if_pos (by simpa [Dev.on] using hwaits)

end Watchdogs

/-- The admin command at the front, where its opcode is the row's, enters the ring and is executed (R460). -/
theorem Dev.adminRow_front {d : Dev} {a : Adm} {op : Nat} (f : Dev → Adm → Dev) (hfront : d.admFront = some a)
    (hop : sqeOp a.sqe = op) : d.adminRow op f = f (d.ringAdm a) a := by
  simp only [Dev.adminRow, hfront, hop, if_true]

end Sys2Proof.Machine
end

section
/-! The statements of 10_spindle that hold. -/

namespace Sys2Proof.Machine

/-- Settles O12: each clause is one rule of the spindle's states, its speed, its limits, or a measurement channel. -/
theorem spindleAndChannels : Obligations.SpindleAndChannels := by
  unfold Obligations.SpindleAndChannels
  refine ⟨?enable, ?disable, ?run, ?coast, ?brake, ?target, ?targetRefused, ?motor, ?motorRefused, ?fault, ?faultClear, ?period, ?cutPeriod,
    ?retry, ?found, ?startFail, ?handover, ?bemfCrossing, ?coastCrossing, ?pfailCrossing, ?commutation, ?rotorLost, ?coastTimeout,
    ?speed, ?revolution, ?regulated, ?tooFast, ?driveLimit, ?brakeLimit, ?brakeTurns, ?brakeEnds, ?unlock, ?noMarker, ?output,
    ?filling, ?filterReset, ?syncReset⟩
  case enable => exact fun s d hmet hoff => exec_of_met (·.spnEnable true) hmet (Dev.spnEnable_off hoff)
  case disable => exact fun s d hmet hstate => exec_of_met (·.spnEnable false) hmet (Dev.spnEnable_clear hstate)
  case run => exact fun s d hmet => exec_of_met (·.spnRun true) hmet rfl
  case coast => exact fun s d hmet hturns => exec_of_met (·.spnRun false) hmet (Dev.spnRun_clear hturns)
  case brake => exact fun s d hmet hoff hpfail => exec_of_met (·.spnBrake) hmet (Dev.spnBrake_acts hoff hpfail)
  case target =>
    exact fun s d w hmet hlow hhigh hnew => exec_of_met (·.speedTarget w) hmet (Dev.speedTarget_new hlow hhigh hnew)
  case targetRefused => exact fun s d w hmet hout => exec_of_met (·.speedTarget w) hmet (Dev.speedTarget_refused hout)
  case motor =>
    exact fun s d w hmet hstate hchan hpoles => exec_of_met (·.motorConfig w) hmet (Dev.motorConfig_taken hstate hchan hpoles)
  case motorRefused => exact fun s d w hmet hstate => exec_of_met (·.motorConfig w) hmet (Dev.motorConfig_refused hstate)
  case fault => exact fun s d hmet => exec_of_met (·.powerStage) hmet rfl
  case faultClear => exact fun s d hmet => exec_of_met (·.powerStageClear) hmet rfl
  case period => exact fun s d hmet hwhole => exec_of_met (·.pwmPeriod) hmet (Dev.pwmPeriod_whole hwhole)
  case cutPeriod => exact fun s d hmet hcut => exec_of_met (·.pwmPeriod) hmet (Dev.pwmPeriod_cut hcut)
  case retry =>
    rintro s _ after rfl hdetects hretry hpassed
    exact exec_of_met (fun d => (d.advance after).detectRetry) rfl (Dev.detectRetry_due hdetects hretry hpassed)
  case found =>
    intro s d p q hmet hdetects hretry hpeaks
    exact exec_of_met (·.detectEnd p q) hmet (Dev.detectEnd_found hdetects hretry hpeaks)
  case startFail =>
    intro s d p q hmet hdetects hretry hpeaks htwo
    exact exec_of_met (·.detectEnd p q) hmet (Dev.detectEnd_third hdetects hretry hpeaks htwo rfl)
  case handover => exact fun s d hmet hinject hfast => exec_of_met (·.handoverBemf) hmet (Dev.handoverBemf_due hinject hfast)
  case bemfCrossing =>
    rintro s _ k up after rfl hbemf hnew hfloats hblank hwindow
    exact exec_of_met (fun d => (d.advance after).zeroCrossing k.val up) rfl
      (Dev.zeroCrossing_bemf hbemf hnew hfloats hblank hwindow)
  case coastCrossing =>
    rintro s _ k up after rfl hcoasts
    exact exec_of_met (fun d => (d.advance after).zeroCrossing k.val up) rfl (Dev.zeroCrossing_coast hcoasts rfl)
  case pfailCrossing =>
    rintro s _ k up after rfl hpfail
    exact exec_of_met (fun d => (d.advance after).zeroCrossing k.val up) rfl (Dev.zeroCrossing_pfail hpfail rfl)
  case commutation =>
    rintro s _ after rfl hbemf hcrossed hdue
    exact exec_of_met (fun d => (d.advance after).commutate) rfl
      ((Dev.commutate_due hbemf hdue rfl (if_pos hcrossed).symm rfl).trans (if_neg (by simp [hcrossed])))
  case rotorLost =>
    rintro s _ after rfl hbemf hmissed hdue hmisses
    exact exec_of_met (fun d => (d.advance after).commutate) rfl
      ((Dev.commutate_due hbemf hdue rfl (if_neg (by simp [hmissed])).symm rfl).trans (if_pos (by simpa [hmissed] using hmisses)))
  case coastTimeout =>
    rintro s _ after rfl hcoasts hpassed
    exact exec_of_met (fun d => (d.advance after).coastTimeout) rfl (Dev.coastTimeout_due hcoasts hpassed)
  case speed => exact fun s d v hmet => exec_of_met (·.measureSpeed v false) hmet rfl
  case revolution => exact fun s d v hmet => exec_of_met (·.measureSpeed v true) hmet rfl
  case regulated =>
    exact fun s d ms hmet hbemf hspeed => exec_of_met (·.regulate ms) hmet (Dev.regulate_bemf hbemf hspeed rfl rfl rfl rfl)
  case tooFast => exact fun s d ms hmet hbemf hspeed => exec_of_met (·.regulate ms) hmet (Dev.regulate_fast hbemf hspeed rfl)
  case driveLimit =>
    exact fun s d ma hmet hdrives hslow hover => exec_of_met (·.phaseCurrent ma) hmet (Dev.phaseCurrent_drives hdrives hslow hover)
  case brakeLimit =>
    exact fun s d ma hmet hbrakes hover => exec_of_met (·.phaseCurrent ma) hmet (Dev.phaseCurrent_brakes hbrakes hover)
  case brakeTurns =>
    rintro s _ mv after rfl hbrakes hdue hturns
    exact exec_of_met (fun d => (d.advance after).brakeSense mv) rfl
      ((Dev.brakeSense_due hbrakes hdue rfl rfl rfl).trans (if_pos hturns))
  case brakeEnds =>
    rintro s _ mv after rfl hbrakes hdue hstops hsecond
    exact exec_of_met (fun d => (d.advance after).brakeSense mv) rfl
      ((Dev.brakeSense_due hbrakes hdue rfl rfl rfl).trans ((if_neg (Nat.not_le.mpr hstops)).trans (if_neg hsecond)))
  case unlock =>
    rintro s _ p after rfl hperiod hpassed
    exact exec_of_met (fun d => (d.advance after).phaseTimeout) rfl (Dev.phaseTimeout_due hperiod hpassed)
  case noMarker =>
    rintro s _ after rfl hperiod
    exact exec_of_met (fun d => (d.advance after).phaseTimeout) rfl (Dev.phaseTimeout_unlocked hperiod)
  case output =>
    rintro s _ k x after rfl hmac hchan hdue hfull ⟨hmin, hmax⟩
    have hclip : x = max (-32768) (min 32767 x) := by omega
    refine exec_of_met (fun d => (d.advance after).macSample k.val x) rfl
      ((Dev.macSample_due hmac hchan hdue (fill := 0) (by rw [hfull]) rfl rfl hclip rfl).trans ((if_neg (by simp [hfull])).trans ?_))
    rw [if_pos rfl, Dev.wrb, bne_self_eq_false]
    rfl
  case filling =>
    rintro s _ k x after rfl hmac hchan hdue hfills
    exact exec_of_met (fun d => (d.advance after).macSample k.val x) rfl
      ((Dev.macSample_due hmac hchan hdue rfl rfl rfl rfl rfl).trans (if_pos (bne_iff_ne.mpr hfills)))
  case filterReset => exact fun s d k hmet hnew => exec_of_met (·.macReset k.val) hmet (Dev.macReset_new hnew)
  case syncReset =>
    exact fun s d k hmet hevent harmed hstate => exec_of_met (·.macSync k.val) hmet (Dev.macSync_armed hevent harmed hstate)

/-- Settles O14: each clause is one rule of the power-fail sequence, of a watchdog, or of the State Digest command. -/
theorem powerFailSequence : Obligations.PowerFailSequence := by
  unfold Obligations.PowerFailSequence
  refine ⟨?starts, ?records, ?hold, ?vmin, ?ends, ?expires, ?waits, ?digest⟩
  case starts =>
    intro s d pin oks hmet hstate hnew hfails
    exact exec_of_met (·.powerFail pin oks) hmet (Dev.powerFail_starts hstate hnew hfails rfl rfl rfl rfl rfl rfl rfl)
  case records =>
    rintro s _ oks after rfl hruns hnew hbus hover
    exact exec_of_met (fun d => (d.advance after).unitRecords oks) rfl (Dev.unitRecords_due hruns hnew hbus hover rfl rfl)
  case hold =>
    rintro s _ after rfl hruns hbus hpassed
    exact exec_of_met (fun d => (d.advance after).holdEnd) rfl (Dev.holdEnd_due hruns hbus hpassed)
  case vmin =>
    exact fun s d hmet hruns hnew hvalid hlow => exec_of_met (·.belowVmin) hmet (Dev.belowVmin_due hruns hnew hvalid hlow rfl rfl)
  case ends =>
    intro s d hmet hruns hbusy hrecs hretracts
    exact exec_of_met (·.pfEnd) hmet (Dev.pfEnd_over hruns hbusy hrecs hretracts rfl rfl)
  case expires =>
    rintro s _ c after rfl hruns hover
    exact exec_of_met (fun d => (d.advance after).watchdogExpiry c.val) rfl (Dev.watchdogExpiry_due hruns hover rfl)
  case waits =>
    rintro s _ c after rfl hwaits
    exact exec_of_met (fun d => (d.advance after).watchdogExpiry c.val) rfl (Dev.watchdogExpiry_waits hwaits)
  case digest =>
    exact fun s d a hmet hfront hop => exec_of_met (·.stateDigest) hmet (Dev.adminRow_front _ hfront hop)

end Sys2Proof.Machine
end

section
/-! The vertical engines as the device holds them, and their general registers: one written (R398), and the results of a step written
together (R392). -/

namespace Sys2Proof.Machine

/-! ### Engines -/

@[simp] theorem Dev.eng_setEng_self (d : Dev) (e : Nat) (x : Eng) : (d.setEng e x).eng e = x := by simp [Dev.eng, Dev.setEng]

theorem Dev.eng_setEng_ne (d : Dev) {e k : Nat} (x : Eng) (h : k ≠ e) : (d.setEng e x).eng k = d.eng k := by
  simp [Dev.eng, Dev.setEng, Tab.getD_put_ne _ _ _ h]

@[simp] theorem Dev.eng_wr (d : Dev) (f : Fld) (i v e : Nat) : (d.wr f i v).eng e = d.eng e := rfl

@[simp] theorem Dev.eng_beginWait (d : Dev) (t : Timer) (e : Nat) : (d.beginWait t).eng e = d.eng e := rfl

/-! ### General registers -/

@[simp] theorem Eng.reg_zero (x : Eng) : x.reg 0 = 0 := rfl

@[simp] theorem Eng.put_zero (x : Eng) (v : Nat) : x.put 0 v = x := rfl

theorem Eng.put_of_ne (x : Eng) {n : Nat} (v : Nat) (h : n ≠ 0) : x.put n v = { x with g := Tab.store x.g 0 n (v % 2 ^ 48) } := if_neg h

theorem Eng.reg_put_self (x : Eng) {n : Nat} (v : Nat) (h : n ≠ 0) : (x.put n v).reg n = v % 2 ^ 48 := by
  rw [Eng.put_of_ne x v h, Eng.reg, if_neg h]
  exact Tab.getD_store_self _ _ _ _

theorem Eng.reg_put_ne (x : Eng) {n k : Nat} (v : Nat) (h : k ≠ n) : (x.put n v).reg k = x.reg k := by
  unfold Eng.put Eng.reg
  split
  · rfl
  · split
    · rfl
    · exact Tab.getD_store_ne _ _ _ _ h

/-- A write of a general register changes the registers alone. -/
theorem Eng.put_rest (x : Eng) (n v : Nat) : x.put n v = { x with g := (x.put n v).g } := by
  unfold Eng.put
  split <;> rfl

/-- The engine with the results of a step in its registers (R392). -/
def Eng.putAll (x : Eng) (l : List (Nat × Nat)) : Eng := l.foldl (fun x r => x.put r.1 r.2) x

theorem Eng.putAll_rest (x : Eng) (l : List (Nat × Nat)) : x.putAll l = { x with g := (x.putAll l).g } := by
  induction l generalizing x with
  | nil => rfl
  | cons r l ih =>
    have hcons : x.putAll (r :: l) = (x.put r.1 r.2).putAll l := rfl
    rw [hcons, ih, Eng.put_rest]

@[simp] theorem Eng.putAll_pos (x : Eng) (l : List (Nat × Nat)) : (x.putAll l).pos = x.pos := by rw [Eng.putAll_rest]

@[simp] theorem Eng.putAll_buffer (x : Eng) (l : List (Nat × Nat)) : (x.putAll l).buffer = x.buffer := by rw [Eng.putAll_rest]

theorem Eng.reg_putAll (x : Eng) {l : List (Nat × Nat)} {n : Nat} (h : n ∉ l.map Prod.fst) : (x.putAll l).reg n = x.reg n := by
  induction l generalizing x with
  | nil => rfl
  | cons r l ih =>
    obtain ⟨hr, hl⟩ := not_or.mp (List.mem_cons.not.mp h)
    exact (ih _ hl).trans (Eng.reg_put_ne x _ hr)

end Sys2Proof.Machine
end

section
/-! What a micro-op does once its turn has come (R392-R397), and what it leaves as it was. -/

namespace Sys2Proof.Machine

section Turn

variable {d : Dev} {e w : Nat}

/-- An engine in which the turn of a micro-op has come runs a routine. -/
theorem Dev.microReady_runs (h : d.microReady e w = true) : d.veState e = 2 ∧ (d.eng e).run.isSome = true := by
  simp only [Dev.microReady, Bool.and_eq_true, beq_iff_eq] at h
  obtain ⟨⟨⟨hstate, hrun⟩, -⟩, -⟩ := h
  exact ⟨hstate, hrun⟩

/-- A micro-op known by its opcode acts once its turn has come. -/
theorem Dev.uop_opcode {k : Nat} (f : Dev → Nat → Dev) (hready : d.microReady e w = true) (hopc : uOpc w = k) :
    d.uop e (fun _ w => uOpc w == k) f = f d w :=
  Dev.uop_ready _ f hready (beq_iff_eq.mpr hopc)

/-- So does one known by its opcode and a code within it. -/
theorem Dev.uop_opcode_code {k n : Nat} (code : Nat → Nat) (f : Dev → Nat → Dev) (hready : d.microReady e w = true) (hopc : uOpc w = k)
    (hcode : code w = n) : d.uop e (fun _ w => uOpc w == k && code w == n) f = f d w :=
  Dev.uop_ready _ f hready (by simp [hopc, hcode])

/-- A command either acts by its micro-op or leaves the device as it is. -/
theorem Dev.uop_ready_or (mine : Dev → Nat → Bool) (f : Dev → Nat → Dev) (hready : d.microReady e w = true) :
    d.uop e mine f = f d w ∨ d.uop e mine f = d := by
  cases hmine : mine d w
  · exact .inr (Dev.uop_other mine f hready hmine)
  · exact .inl (Dev.uop_ready mine f hready hmine)

/-! ### The step's end -/

/-- At END the results of the step take effect, and the next step begins at the target or after this one. -/
theorem Dev.uNext_end (hstate : d.veState e = 2) (hrun : (d.eng e).run.isSome = true) (hend : uEnd w = true) (target : Option Nat) :
    d.uNext e w target = (d.setEng e { (d.eng e).putAll (d.eng e).res with pos := 0, res := [] }).wr .VE_EPC_PC e
      (target.getD (d.rd .VE_EPC_PC e + (d.eng e).pos + 1)) := by
  have hruns : (d.veState e != 2 || (d.eng e).run.isNone) = false := by simp [hstate, ← Option.not_isSome, hrun]
  rw [Dev.uNext, if_neg (by rw [hruns]; decide), if_neg (by simp [hend]), ← Eng.putAll_pos]
  rfl

/-- After a micro-op the engine is as it was but for its place in the step, or its step has ended. -/
theorem Dev.uNext_cases (d : Dev) (e w : Nat) (target : Option Nat) :
    d.uNext e w target = d ∨ d.uNext e w target = d.setEng e { d.eng e with pos := (d.eng e).pos + 1 } ∨
      ∃ pc, d.uNext e w target = (d.setEng e { (d.eng e).putAll (d.eng e).res with pos := 0, res := [] }).wr .VE_EPC_PC e pc := by
  cases hstop : d.veState e != 2 || (d.eng e).run.isNone
  case true => exact .inl (if_pos hstop)
  case false =>
    obtain ⟨hstate, hrun⟩ : d.veState e = 2 ∧ (d.eng e).run.isSome = true := by
      simpa [← Option.not_isSome] using hstop
    cases hend : uEnd w
    case true => exact .inr (.inr ⟨_, Dev.uNext_end hstate hrun hend target⟩)
    case false => exact .inr (.inl ((if_neg (by simp [hstop])).trans (if_pos (by simp [hend]))))

@[simp] theorem Dev.uNext_mem (d : Dev) (e w : Nat) (target : Option Nat) : (d.uNext e w target).mem = d.mem := by
  rcases d.uNext_cases e w target with h | h | ⟨pc, h⟩ <;> rw [h] <;> rfl

theorem Dev.uNext_buffer (d : Dev) (e w : Nat) (target : Option Nat) : ((d.uNext e w target).eng e).buffer = (d.eng e).buffer := by
  rcases d.uNext_cases e w target with h | h | ⟨pc, h⟩
  · rw [h]
  · rw [h, Dev.eng_setEng_self]
  · rw [h, Dev.eng_wr, Dev.eng_setEng_self]
    exact Eng.putAll_buffer _ _

/-! ### Computing (R395, R396) -/

theorem bnat_decide (p : Prop) [Decidable p] : bnat (decide p) = if p then 1 else 0 := by simp [bnat]

/-- A command that runs an ALU micro-op answers the result of its function on the registers before the step. -/
theorem exec_alu {c : Instr} {s : State} {e : Fin 12} (fn : Nat) (g : Nat → Nat → Nat → Nat) {v : Nat} (hmet : s.dev.met = d)
    (hready : d.microReady e.val w = true) (hopc : uOpc w = 1) (hfn : uFn w = fn)
    (hv : g (uSh w) ((d.eng e.val).reg (uA w)) ((d.eng e.val).reg (uB w)) = v)
    (hrun : exec c s = s.run (·.uAlu e.val fn g) := by rfl) :
    exec c s = .next (s.after ((d.uResult e.val (uD w) v).uNext e.val w none)) := by
  subst hv
  exact exec_of_met (·.uAlu e.val fn g) hmet (Dev.uop_opcode_code uFn _ hready hopc hfn) hrun

/-- So does one that runs an immediate micro-op. -/
theorem exec_immediate {c : Instr} {s : State} {e : Fin 12} (k : Nat) (g : Nat → Nat → Nat) {v : Nat} (hmet : s.dev.met = d)
    (hready : d.microReady e.val w = true) (hopc : uOpc w = k) (hv : g ((d.eng e.val).reg (uA w)) w = v)
    (hrun : exec c s = s.run (·.uImmOp e.val k g) := by rfl) :
    exec c s = .next (s.after ((d.uResult e.val (uD w) v).uNext e.val w none)) := by
  subst hv
  exact exec_of_met (·.uImmOp e.val k g) hmet (Dev.uop_opcode _ hready hopc) hrun

/-- ANGR. -/
theorem Dev.uAngr_ready {k : Nat} (hready : d.microReady e w = true) (hopc : uOpc w = 17) (himm : uImm w = k) :
    d.uAngr e k = (d.uResult e (uD w) (if k = 0 then d.ang.val else d.time)).uNext e w none :=
  Dev.uop_opcode_code uImm _ hready hopc himm

/-! ### Control (R395, R397) -/

theorem Dev.uCall_taken (hready : d.microReady e w = true) (hopc : uOpc w = 14)
    (hcond : condHolds (uCond w) ((d.eng e).reg (uBrA w)) = true) :
    d.uCall e = (d.setEng e { d.eng e with stack := (d.rd .VE_EPC_PC e + (d.eng e).pos + 1) % 32768 :: (d.eng e).stack }).uNext e w
      (some (uTgt w)) :=
  (Dev.uop_opcode _ hready hopc).trans (if_neg (by simp [hcond]))

theorem Dev.uCall_passes (hready : d.microReady e w = true) (hopc : uOpc w = 14)
    (hcond : condHolds (uCond w) ((d.eng e).reg (uBrA w)) = false) : d.uCall e = d.uNext e w none :=
  (Dev.uop_opcode _ hready hopc).trans (if_pos (by simp [hcond]))

theorem Dev.uReturn_taken (hready : d.microReady e w = true) (hopc : uOpc w = 15)
    (hcond : condHolds (uCond w) ((d.eng e).reg (uBrA w)) = true) :
    d.uReturn e = (d.setEng e { d.eng e with stack := (d.eng e).stack.tail }).uNext e w (d.eng e).stack.head? :=
  (Dev.uop_opcode _ hready hopc).trans (if_neg (by simp [hcond]))

theorem Dev.uReturn_passes (hready : d.microReady e w = true) (hopc : uOpc w = 15)
    (hcond : condHolds (uCond w) ((d.eng e).reg (uBrA w)) = false) : d.uReturn e = d.uNext e w none :=
  (Dev.uop_opcode _ hready hopc).trans (if_pos (by simp [hcond]))

/-- What COND tests of a value (R397). -/
theorem condHolds_iff {c a : Nat} {v : Int} (hc : c < 7) (hv : signed 48 a = v) :
    condHolds c a = true ↔
      (c = 0 ∨ (c = 1 ∧ v = 0) ∨ (c = 2 ∧ v ≠ 0) ∨ (c = 3 ∧ v < 0) ∨ (c = 4 ∧ 0 ≤ v) ∨ (c = 5 ∧ 0 < v) ∨ (c = 6 ∧ v ≤ 0)) := by
  subst hv
  interval_cases c <;> simp [condHolds]

/-! ### Illegal steps (R393) -/

/-- A step begins with the word its address holds. -/
theorem Dev.stepAt_head (d : Dev) (e pc : Nat) : ∃ rest, d.stepAt e pc = d.ld32 (uopAddr e pc) :: rest := by
  unfold Dev.stepAt Dev.stepWords
  dsimp only
  split
  · exact ⟨_, rfl⟩
  · exact ⟨_, rfl⟩

theorem stepLegal_of_head {w : Nat} {rest : List Nat} (h : uLegal w = false) : stepLegal (w :: rest) = false := by
  simp [stepLegal, h]

/-- COND code 7 is reserved. -/
theorem uLegal_reserved_cond {w : Nat} (hopc : uOpc w = 0x0D ∨ uOpc w = 0x0E ∨ uOpc w = 0x0F) (hcond : uCond w = 7) :
    uLegal w = false := by
  rcases hopc with hopc | hopc | hopc <;> simp [uLegal, hopc, hcond]

end Turn

end Sys2Proof.Machine
end

section
/-! What the register and control micro-ops leave unchanged (R392, R395): every effect of theirs is on the engine itself and its program
counter. -/

namespace Sys2Proof.Machine

/-- `f` differs from `d` in engine `e` and its program counter alone, and of the engine neither in its triggers, its commit buffer and its
outstanding loads nor in a general register outside `l`. -/
structure Dev.MicroOnly (d f : Dev) (e : Nat) (l : List Nat) : Prop where
  elsewhere : f = { d with regs := f.regs, ve := { d.ve with engs := f.ve.engs } }
  others : ∀ k, k ≠ e → f.eng k = d.eng k
  fields : ∀ (g : Fld) (i : Nat), (g, i) ≠ (.VE_EPC_PC, e) → f.rd g i = d.rd g i
  queues : (f.eng e).queues = (d.eng e).queues
  buffer : (f.eng e).buffer = (d.eng e).buffer
  loads : (f.eng e).loads = (d.eng e).loads
  regs : ∀ n, n ∉ l → (f.eng e).reg n = (d.eng e).reg n

theorem Dev.MicroOnly.refl (d : Dev) (e : Nat) (l : List Nat) : d.MicroOnly d e l :=
  ⟨rfl, fun _ _ => rfl, fun _ _ _ => rfl, rfl, rfl, rfl, fun _ _ => rfl⟩

/-- Moving to another place in the step, or changing the call stack or the results that wait. -/
theorem Dev.MicroOnly.setEng {d f : Dev} {e : Nat} {l : List Nat} (h : d.MicroOnly f e l) {x : Eng}
    (hx : (x.queues, x.buffer, x.loads) = ((f.eng e).queues, (f.eng e).buffer, (f.eng e).loads))
    (hregs : ∀ n, n ∉ l → x.reg n = (f.eng e).reg n) : d.MicroOnly (f.setEng e x) e l := by
  simp only [Prod.mk.injEq] at hx
  obtain ⟨hqueues, hbuffer, hloads⟩ := hx
  refine ⟨congrArg (·.setEng e x) h.elsewhere, fun k hk => (f.eng_setEng_ne x hk).trans (h.others k hk), h.fields, ?_, ?_, ?_,
    fun n hn => ?_⟩
  · rw [f.eng_setEng_self, hqueues, h.queues]
  · rw [f.eng_setEng_self, hbuffer, h.buffer]
  · rw [f.eng_setEng_self, hloads, h.loads]
  · rw [f.eng_setEng_self, hregs n hn, h.regs n hn]

theorem Dev.MicroOnly.wrPc {d f : Dev} {e : Nat} {l : List Nat} (h : d.MicroOnly f e l) (pc : Nat) :
    d.MicroOnly (f.wr .VE_EPC_PC e pc) e l where
  elsewhere := congrArg (·.wr .VE_EPC_PC e pc) h.elsewhere
  others := h.others
  fields g i hg := (f.rd_wr_ne pc fun ⟨hf, hi⟩ => hg (by rw [hf, hi])).trans (h.fields g i hg)
  queues := h.queues
  buffer := h.buffer
  loads := h.loads
  regs := h.regs

/-- A step's end changes the registers that its results name. -/
theorem Dev.MicroOnly.uNext {d f : Dev} {e : Nat} {l : List Nat} (h : d.MicroOnly f e l) (hres : (f.eng e).res.map Prod.fst ⊆ l) (w : Nat)
    (target : Option Nat) : d.MicroOnly (f.uNext e w target) e l := by
  rcases f.uNext_cases e w target with hnext | hnext | ⟨pc, hnext⟩ <;> rw [hnext]
  · exact h
  · exact h.setEng rfl fun _ _ => rfl
  · refine (h.setEng ?_ fun n hn => ?_).wrPc pc
    · rw [Eng.putAll_rest]
    · exact (f.eng e).reg_putAll fun hin => hn (hres hin)

section Families

variable {d : Dev} {e w : Nat}

/-- The registers that a micro-op's step may have changed by its end: its destination, and those of the step's earlier micro-ops. -/
def Dev.stepDests (d : Dev) (e w : Nat) : List Nat := uD w :: (d.eng e).res.map Prod.fst

theorem Dev.uNext_microOnly (d : Dev) (e w : Nat) (target : Option Nat) : d.MicroOnly (d.uNext e w target) e (d.stepDests e w) :=
  (Dev.MicroOnly.refl d e _).uNext (List.subset_cons_self _ _) w target

theorem Dev.uCompute_microOnly (d : Dev) (e w : Nat) (g : Eng → Nat) : d.MicroOnly (d.uCompute e w g) e (d.stepDests e w) := by
  have hresult : d.MicroOnly (d.uResult e (uD w) (g (d.eng e))) e (d.stepDests e w) :=
    (Dev.MicroOnly.refl d e _).setEng rfl fun _ _ => rfl
  refine hresult.uNext ?_ w none
  rw [Dev.uResult, Dev.eng_setEng_self]
  simp [Dev.stepDests]

/-- The call stack changes with a CALL or a RET. -/
theorem Dev.stack_microOnly (d : Dev) (e w : Nat) (stack : List Nat) (target : Option Nat) :
    d.MicroOnly ((d.setEng e { d.eng e with stack := stack }).uNext e w target) e (d.stepDests e w) := by
  have hstack : d.MicroOnly (d.setEng e { d.eng e with stack := stack }) e (d.stepDests e w) :=
    (Dev.MicroOnly.refl d e _).setEng rfl fun _ _ => rfl
  refine hstack.uNext ?_ w target
  rw [Dev.eng_setEng_self]
  exact List.subset_cons_self _ _

/-- A command keeps to the engine where its micro-op does. -/
theorem Dev.uop_microOnly (hready : d.microReady e w = true) (mine : Dev → Nat → Bool) {f : Dev → Nat → Dev}
    (hf : d.MicroOnly (f d w) e (d.stepDests e w)) : d.MicroOnly (d.uop e mine f) e (d.stepDests e w) := by
  rcases Dev.uop_ready_or mine f hready with h | h <;> rw [h]
  · exact hf
  · exact Dev.MicroOnly.refl d e _

theorem Dev.uNop_microOnly (hready : d.microReady e w = true) : d.MicroOnly (d.uNop e) e (d.stepDests e w) :=
  Dev.uop_microOnly hready _ (d.uNext_microOnly _ _ _)

theorem Dev.uAlu_microOnly (hready : d.microReady e w = true) (fn : Nat) (g : Nat → Nat → Nat → Nat) :
    d.MicroOnly (d.uAlu e fn g) e (d.stepDests e w) := Dev.uop_microOnly hready _ (d.uCompute_microOnly _ _ _)

theorem Dev.uImmOp_microOnly (hready : d.microReady e w = true) (opc : Nat) (g : Nat → Nat → Nat) :
    d.MicroOnly (d.uImmOp e opc g) e (d.stepDests e w) := Dev.uop_microOnly hready _ (d.uCompute_microOnly _ _ _)

theorem Dev.uAngr_microOnly (hready : d.microReady e w = true) (k : Nat) : d.MicroOnly (d.uAngr e k) e (d.stepDests e w) :=
  Dev.uop_microOnly hready _ (d.uCompute_microOnly _ _ _)

theorem Dev.uBranch_microOnly (hready : d.microReady e w = true) : d.MicroOnly (d.uBranch e) e (d.stepDests e w) :=
  Dev.uop_microOnly hready _ (d.uNext_microOnly _ _ _)

theorem Dev.uJump_microOnly (hready : d.microReady e w = true) : d.MicroOnly (d.uJump e) e (d.stepDests e w) :=
  Dev.uop_microOnly hready _ (d.uNext_microOnly _ _ _)

theorem Dev.uCall_microOnly (hready : d.microReady e w = true) : d.MicroOnly (d.uCall e) e (d.stepDests e w) := by
  refine Dev.uop_microOnly hready _ ?_
  dsimp only
  split
  · exact d.uNext_microOnly e w none
  · exact d.stack_microOnly e w _ _

theorem Dev.uReturn_microOnly (hready : d.microReady e w = true) : d.MicroOnly (d.uReturn e) e (d.stepDests e w) := by
  refine Dev.uop_microOnly hready _ ?_
  dsimp only
  split
  · exact d.uNext_microOnly e w none
  · exact d.stack_microOnly e w _ _

/-- A command whose effect keeps to the engine. -/
theorem exec_microOnly {c : Instr} {s : State} {l : List Nat} (f : Dev → Dev) (hmet : s.dev.met = d) (hf : d.MicroOnly (f d) e l)
    (hrun : exec c s = s.run f := by rfl) : ∃ d1, exec c s = .next (s.after d1) ∧ d.MicroOnly d1 e l :=
  ⟨f d, exec_of_met f hmet rfl hrun, hf⟩

end Families

end Sys2Proof.Machine
end

section
/-! Memory micro-ops and the commit buffer (R395, R399, R404, R405), and the bytes that stores change. -/

namespace Sys2Proof.Machine

section Memory

variable {d : Dev} {e w a : Nat}

/-! ### Loads -/

/-- A load from table SRAM or DRAM is issued with the value that the routine's own buffered stores leave. -/
theorem Dev.uLoadOp_memory {opc n k : Nat} (hready : d.microReady e w = true) (hopc : uOpc w = opc)
    (hat : (d.eng e).effective w = some a) (hwindow : d.veWindow a n = some k) (hk : k = 1 ∨ k = 2) :
    d.uLoadOp e opc n =
      (d.uIssue e { reg := uD w, val := (d.overlay (d.eng e).buffer).ldN a n % 2 ^ 48, addr := a, size := n }).uNext e w none := by
  rw [Dev.uLoadOp, Dev.uop_opcode _ hready hopc]
  rcases hk with rfl | rfl <;> simp only [hat, hwindow]

/-- A load from register space is a read of the engine's own master. -/
theorem Dev.uLoadOp_register {opc n : Nat} (hready : d.microReady e w = true) (hopc : uOpc w = opc)
    (hat : (d.eng e).effective w = some a) (hwindow : d.veWindow a n = some 3) (hok : d.busRefuses (10 + e) a 4 = false) :
    d.uLoadOp e opc n = ((d.readEffect (10 + e) (regOffset a) true).uIssue e
      { reg := uD w, val := (d.readValue (10 + e) (regOffset a)).getD 0, addr := 0, size := 0 }).uNext e w none := by
  rw [Dev.uLoadOp, Dev.uop_opcode _ hready hopc]
  simp only [hat, hwindow]
  exact if_neg (by simp [veMaster, hok])

/-- A load outside the windows ends the routine with the cause WINDOW. -/
theorem Dev.uLoadOp_outside {opc n : Nat} (hready : d.microReady e w = true) (hopc : uOpc w = opc)
    (hout : (d.eng e).effective w = none ∨ ∃ a, (d.eng e).effective w = some a ∧ d.veWindow a n = none) :
    d.uLoadOp e opc n = d.veEnd e 4 := by
  rw [Dev.uLoadOp, Dev.uop_opcode _ hready hopc]
  rcases hout with hat | ⟨a, hat, hwindow⟩
  · simp only [hat]
  · simp only [hat, hwindow]

/-- The data of a load returns: its memory's check passes, and the register takes the value, or an error ends the routine. -/
theorem Dev.loadReturn_memory {i : Nat} {err : Option MemErr} {l : Load} (hload : (d.eng e).loads[i]? = some l) (hsize : l.size ≠ 0)
    {r : Dev × Bool}
    (hr : r = (d.setEng e { d.eng e with loads := (d.eng e).loads.eraseIdx i }).readMem (10 + e) l.addr l.size err) :
    d.loadReturn e i err = if r.2 then r.1.setEng e ((r.1.eng e).put l.reg l.val) else r.1.veEnd e 2 := by
  subst hr
  simp only [Dev.loadReturn, hload, if_neg hsize, veMaster]

/-- A register's value is at hand. -/
theorem Dev.loadReturn_register {i : Nat} {err : Option MemErr} {l : Load} (hload : (d.eng e).loads[i]? = some l) (hsize : l.size = 0)
    {d1 : Dev} (hd1 : d1 = d.setEng e { d.eng e with loads := (d.eng e).loads.eraseIdx i }) :
    d.loadReturn e i err = d1.setEng e ((d1.eng e).put l.reg l.val) := by
  subst hd1
  simp only [Dev.loadReturn, hload, if_pos hsize, if_true]

/-! ### Stores -/

/-- A store in a window goes to the commit buffer, or acts at once. -/
theorem Dev.uStoreOp_window {opc n k : Nat} (hready : d.microReady e w = true) (hopc : uOpc w = opc)
    (hat : (d.eng e).effective w = some a) (hwindow : d.veWindow a n = some k) :
    d.uStoreOp e opc n = (d.veDo e (.store a (wide ((d.eng e).reg (uD w)) % 2 ^ (8 * n)) n)).uNext e w none := by
  rw [Dev.uStoreOp, Dev.uop_opcode _ hready hopc]
  simp only [hat, hwindow]

/-- STW and STD are one operation on 4 and 8 bytes. -/
theorem exec_store {c : Instr} {e : Fin 12} {w n : Nat} (h : (c, uOpc w, n) ∈ [(.stw e, 0x0A, 4), (.std e, 0x0B, 8)]) :
    ∃ opc, uOpc w = opc ∧ ∀ s, exec c s = s.run (·.uStoreOp e.val opc n) := by
  simp only [List.mem_cons, Prod.mk.injEq, List.not_mem_nil, or_false] at h
  rcases h with ⟨rfl, hopc, rfl⟩ | ⟨rfl, hopc, rfl⟩
  · exact ⟨_, hopc, fun _ => rfl⟩
  · exact ⟨_, hopc, fun _ => rfl⟩

/-- Before COMMIT an effect takes an entry of the commit buffer (R404). -/
theorem Dev.veDo_buffered {b : Buffered} (hopen : d.rd .VE_ESTAT_COMMITTED e = 0) (hroom : (d.eng e).buffer.length < 64) :
    d.veDo e b = d.setEng e { d.eng e with buffer := (d.eng e).buffer ++ [b] } := by
  rw [Dev.veDo, if_neg (by simp [Dev.on_eq_false hopen]), if_neg (Nat.not_le.mpr hroom)]

/-- After it a store outside register space changes memory at once (R405). -/
theorem Dev.veDo_committed {v n : Nat} (hcommitted : d.rd .VE_ESTAT_COMMITTED e ≠ 0) (hmem : inRegs a = false) :
    d.veDo e (.store a v n) = d.mstN a v n := by
  rw [Dev.veDo, if_pos (Dev.on_eq_true hcommitted)]
  simp only [Dev.veEffect, hmem, Bool.false_eq_true, if_false]

/-- Register space holds no memory (R35). -/
theorem arrayOf_regs (h : inRegs a = true) : arrayOf a = 7 := by
  rw [inRegs, Bool.and_eq_true, decide_eq_true_eq, decide_eq_true_eq, regBase] at h
  rw [arrayOf, if_neg (by omega), if_neg (by omega), if_neg (by omega), if_neg (by omega)]

/-- A window of memory lies outside register space (R399). -/
theorem Dev.veWindow_memory {n k : Nat} (h : d.veWindow a n = some k) (hk : k ≠ 3) : inRegs a = false := by
  refine Bool.eq_false_iff.mpr fun hregs => ?_
  unfold Dev.veWindow at h
  rw [arrayOf_regs hregs] at h
  split_ifs at h with halign htable hdram
  · exact absurd htable (by decide)
  · exact hdram.1.elim
  · exact hk (Option.some.inj h).symm

theorem Dev.ldN_congr {f : Dev} (h : f.mem = d.mem) (a n : Nat) : f.ldN a n = d.ldN a n := by
  induction n generalizing a with
  | zero => rfl
  | succ n ih => rw [Dev.ldN, Dev.ldN, ih, Dev.ld8, Dev.ld8, h]

/-- What a master's store of `n` bytes leaves in memory: the low bytes of its value where none is closed, and every byte outside it or
closed as it was (R196, R234). -/
theorem Dev.stored_of_mstN {f : Dev} {v n : Nat} (h : f.mem = (d.mstN a v n).mem) :
    ((∀ b, a ≤ b → b < a + n → d.closed b = false) → f.ldN a n = v % 256 ^ n) ∧
      ∀ b, ((b < a ∨ a + n ≤ b) ∨ d.closed b = true) → f.ld8 b = d.ld8 b := by
  refine ⟨fun hopen => ?_, fun b hb => ?_⟩
  · rw [Dev.ldN_congr h, Dev.mstN_open d v hopen, Dev.ldN_stN]
  · rw [Dev.ld8, h]
    exact Dev.ld8_mstN_out d v hb

/-! ### Atomic operations -/

/-- An AMO commits, and reads and replaces the 64-bit word of table SRAM at A. -/
theorem Dev.uAmo_acts {fn : Nat} (hready : d.microReady e w = true) (hopc : uOpc w = 12) (hfn : uFn w = fn)
    (hat : (d.eng e).reg (uA w) = a) {c : Dev} (hc : c = d.veCommit e) (hruns : c.veState e = 2) (halign : a % 8 = 0)
    (hsram : arrayOf a = 5) {r : Dev × Bool} (hr : r = c.readCheck (10 + e) a 8) (hread : r.2 = true) :
    d.uAmo e fn =
      ((r.1.mstN a (amoNew fn (r.1.ldN a 8) (wide ((d.eng e).reg (uB w))) (wide ((d.eng e).reg (uD w)))) 8).uResult e (uD w)
        (r.1.ldN a 8 % 2 ^ 48)).uNext e w none := by
  subst hat hc hr
  rw [Dev.uAmo, Dev.uop_opcode_code uFn _ hready hopc hfn]
  exact (if_neg (by simp [hruns])).trans ((if_neg (by simp [halign, hsram])).trans (if_neg (by simpa [veMaster] using hread)))

/-! ### EMIT and POST -/

/-- A POST with a code that the command takes. -/
theorem Dev.uPost_ready {k : Nat} {mine : Dev → Nat → Bool} (hready : d.microReady e w = true) (hopc : uOpc w = 19)
    (hcode : uImm w % 16 = k) (hmine : mine d w = true) :
    d.uPost e mine = (d.veDo e (.post k ((d.eng e).reg (uA w)))).uNext e w none := by
  subst hcode
  exact Dev.uop_ready _ _ hready (by simp [hopc, hmine])

theorem postIs_code {k : Nat} (d : Dev) (hcode : uImm w % 16 = k) : postIs k d w = true := beq_iff_eq.mpr hcode

theorem hifIs_op {p : Nat → Bool} (hcode : uImm w % 16 = 0) (hop : p (d.postOp e w) = true) : hifIs e p d w = true := by
  simp [hifIs, hcode, hop]

end Memory

/-! ### Other stores -/

/-- A core's store to memory that exists. -/
theorem Dev.coreStore_memory {d : Dev} {c : Fin 8} {a n v : Nat} (harray : arrayOf a ≠ 7) (hexists : d.rangeExists a n = true) :
    d.coreStore c a n v = d.mstN a v n := by
  rw [Dev.coreStore, if_neg harray, if_pos hexists]

/-- One to memory that does not leaves every byte. -/
theorem Dev.coreStore_missing_mem {d : Dev} {c : Fin 8} {a n v : Nat} (harray : arrayOf a ≠ 7) (hmissing : d.rangeExists a n = false) :
    (d.coreStore c a n v).mem = d.mem := by
  rw [Dev.coreStore, if_neg harray, if_neg (by simp [hmissing])]
  rfl

/-- A write of an engine's control store changes the word addressed alone (R391). -/
theorem Dev.veStoreWrite_ld8 (d : Dev) (m : Master) (e off size v : Nat) {b : Nat}
    (hb : b < uopAddr e (off / 4) ∨ uopAddr e (off / 4) + 4 ≤ b) : (d.veStoreWrite m e off size v).ld8 b = d.ld8 b := by
  unfold Dev.veStoreWrite
  split_ifs
  · rfl
  · exact Dev.ld8_stN_out d v hb
  · rfl

/-- The bytes of a microword location change within the access alone. -/
theorem Dev.storeBytes_ld8 (d : Dev) (base off v used n : Nat) {b : Nat} (hb : b < base + off ∨ base + off + n ≤ b) :
    (d.storeBytes base off v used n).ld8 b = d.ld8 b := by
  induction n generalizing d off v with
  | zero => rfl
  | succ n ih =>
    rw [Dev.storeBytes, ih _ _ _ (by omega)]
    split
    · exact Dev.ld8_st8_ne d _ (by omega)
    · rfl

/-- A write of a sequencers' control store changes the bytes addressed alone (R276). -/
theorem Dev.fsqStoreWrite_ld8 (d : Dev) (m : Master) (a off size v : Nat) {b : Nat}
    (hb : b < storeAddr a 0 + off % 0x20000 ∨ storeAddr a 0 + off % 0x20000 + size ≤ b) :
    (d.fsqStoreWrite m a off size v).ld8 b = d.ld8 b := by
  have hput := d.storeBytes_ld8 (storeAddr a 0) (off % 0x20000) v 22 size hb
  unfold Dev.fsqStoreWrite
  split
  · rfl
  · cases m
    case mc =>
      dsimp only
      split
      · exact hput
      · rfl
    case cfg =>
      dsimp only
      split
      · rfl
      · exact hput
    all_goals rfl

end Sys2Proof.Machine
end

section
/-! The vertical engines around their micro-ops: dispatch (R400, R402), timers and mailboxes (R403), the control-store window and the
general registers (R391, R419), and the states (R406-R410). -/

namespace Sys2Proof.Machine

section Engines

variable {d : Dev} {e : Nat}

/-! ### Dispatch, DONE and a parity error -/

/-- Loading a trigger changes the general registers alone. -/
theorem Eng.loadTrigger_rest (x : Eng) (t : Trig) : x.loadTrigger t = { x with g := (x.loadTrigger t).g } := by
  dsimp only [Eng.loadTrigger]
  rw [Eng.put_rest, Eng.put_rest _ 30, Eng.put_rest _ 29, Eng.put_rest _ 28, Eng.put_rest _ 27]

/-- G27 holds what the trigger is, and G28 to G31 its arguments (R400). -/
theorem Eng.reg_loadTrigger_source (x : Eng) (t : Trig) :
    (x.loadTrigger t).reg 27 = (t.type % 32 + t.prio % 4 * 2 ^ 8 + t.src % 256 * 2 ^ 16 + t.restarts % 256 * 2 ^ 24) % 2 ^ 48 := by
  simp only [Eng.loadTrigger, Eng.reg_put_ne, Eng.reg_put_self, ne_eq, Nat.reduceEqDiff, OfNat.ofNat_ne_zero, not_false_eq_true]

theorem Eng.reg_loadTrigger_args (x : Eng) (t : Trig) :
    (x.loadTrigger t).reg 28 = t.a0 % 2 ^ 32 % 2 ^ 48 ∧ (x.loadTrigger t).reg 29 = t.a1 % 2 ^ 32 % 2 ^ 48 ∧
      (x.loadTrigger t).reg 30 = t.a2 % 2 ^ 32 % 2 ^ 48 ∧ (x.loadTrigger t).reg 31 = t.a3 % 2 ^ 32 % 2 ^ 48 := by
  simp only [Eng.loadTrigger, Eng.reg_put_ne, Eng.reg_put_self, ne_eq, Nat.reduceEqDiff, OfNat.ofNat_ne_zero, not_false_eq_true,
    and_self]

/-- The registers below G27 stay. -/
theorem Eng.reg_loadTrigger_low (x : Eng) (t : Trig) {n : Nat} (hn : n < 27) : (x.loadTrigger t).reg n = x.reg n := by
  dsimp only [Eng.loadTrigger]
  rw [Eng.reg_put_ne _ _ (by omega), Eng.reg_put_ne _ _ (by omega), Eng.reg_put_ne _ _ (by omega), Eng.reg_put_ne _ _ (by omega),
    Eng.reg_put_ne _ _ (by omega)]

/-- An idle engine dispatches its next trigger. -/
theorem Dev.dispatchTrigger_next {t : Trig} (hidle : d.rd .VE_ESTAT_STATE e = 1) (hnext : d.nextTrigger e = some t) {y : Eng}
    (hy : y = Eng.loadTrigger { d.eng e with
      queues := (d.eng e).queues.erase t, run := some t, stack := [], pos := 0, res := [], buffer := [], refNext := false,
      noPre := decide (d.rd .VE_ECFG_MAXRST e ≤ t.restarts) } t) :
    d.dispatchTrigger e = ((((d.setEng e { y with g0 := y.g }).wr .VE_ESTAT_STATE e 2).wr .VE_ESTAT_COMMITTED e 0).wr .VE_EPC_PC e
      (t.type % 32 * 8)).beginWait (.routine e) := by
  subst hy
  rw [Dev.dispatchTrigger, if_neg (by simp [Dev.veState, hidle]), hnext]

/-- DONE commits, and its routine ends unless the commit has ended it (R405, R408). -/
theorem Dev.uDone_ends {w : Nat} (hready : d.microReady e w = true) (hopc : uOpc w = 21) {c : Dev} (hc : c = d.veCommit e)
    (hruns : c.veState e = 2) {y : Eng} (hy : y = (c.eng e).putAll (c.eng e).res) {f : Dev}
    (hf : f = (((c.setEng e { y with run := none, stack := [], pos := 0, res := [], noPre := false, halting := false }).wr
      .VE_ESTAT_COMMITTED e 0).count .VE_ECNT_ROUTINES e).wr .VE_ESTAT_STATE e (if (c.eng e).halting then 3 else 1)) :
    d.uDone e = if (c.eng e).halting && decide (4 ≤ e) then (f.adoptWith (e - 4) none).checkCeAll else f := by
  subst hc hy hf
  exact (Dev.uop_opcode _ hready hopc).trans (if_neg (by simp [hruns]))

theorem Dev.uopParity_runs {k : Nat} (hruns : d.rd .VE_ESTAT_STATE e = 2) {a : Nat} (ha : a = (d.rd .VE_EPC_PC e + k) % 32768) :
    d.uopParity e k = ((d.wr .VE_EPC_MCADDR e a).wr .VE_CSSTAT_BADADDR e a).veEnd e 9 := by
  subst ha
  exact if_neg (by simp [Dev.veState, hruns])

/-! ### Timers and mailboxes -/

/-- An expired timer queues TIMER unless one is queued or runs (R403). -/
theorem Dev.veTimer_due (hpassed : d.waited (.veTimer e) (d.rd .VE_ETIMER_PERIOD e * 1250) = true) :
    d.veTimer e =
      if !d.on .VE_ETIMER_PERIOD e || ((d.eng e).queues.any (fun t => t.type == tTimer) ||
        ((d.eng e).run.map fun t => t.type == tTimer).getD false) then d.nextPeriod (.veTimer e) (d.rd .VE_ETIMER_PERIOD e * 1250)
      else (d.nextPeriod (.veTimer e) (d.rd .VE_ETIMER_PERIOD e * 1250)).trigger e tTimer 0 0 0 0 0 :=
  if_neg (by simp [hpassed])

/-- A mailbox write queues MSG where the engine has room. -/
theorem Dev.mailbox_room {lo hi : Nat} (hroom : (d.eng e).queues.length < queueRoom e) :
    d.mailbox e lo hi =
      ((d.wr .VE_MBOXLO_DATA e lo).wr .VE_MBOXHI_DATA e hi).trigger e tMsg 0 (lo % 2 ^ 32) (hi % 2 ^ 16) 0 0 :=
  if_neg (Nat.not_le.mpr hroom)

theorem Dev.mailbox_full {lo hi : Nat} (hfull : queueRoom e ≤ (d.eng e).queues.length) :
    d.mailbox e lo hi = ((d.wr .VE_MBOXLO_DATA e lo).wr .VE_MBOXHI_DATA e hi).wr .VE_ESTAT_MBFULL e 1 :=
  if_pos hfull

/-! ### The control-store window and the general registers -/

/-- The store opens in OFF, HALTED and MCHK (R391). -/
theorem Dev.veStoreOpen_stopped
    (hstate : d.rd .VE_ESTAT_STATE e = 0 ∨ d.rd .VE_ESTAT_STATE e = 3 ∨ d.rd .VE_ESTAT_STATE e = 4) :
    d.veStoreOpen e true = (d.wr .VE_CSCTL_OPEN e 1).wr .VE_CSSTAT_OPENED e 1 := by
  have hstopped : ((d.wr .VE_CSCTL_OPEN e 1).veState e == 0 || (d.wr .VE_CSCTL_OPEN e 1).veState e == 3 ||
      (d.wr .VE_CSCTL_OPEN e 1).veState e == 4) = true := by
    simpa [Dev.veState, or_assoc] using hstate
  exact if_pos hstopped

theorem Dev.veStoreWrite_open {m : Master} {off size v : Nat} (hadmits : d.veAdmits m off size = true)
    (hopen : m = .cfg ∨ d.rd .VE_CSSTAT_OPENED e ≠ 0) : d.veStoreWrite m e off size v = d.st32 (uopAddr e (off / 4)) v := by
  have hpass : (m == .cfg || d.csOpened e) = true := by
    rcases hopen with rfl | hopen
    · rfl
    · simp [Dev.csOpened, Dev.on_eq_true hopen]
  rw [Dev.veStoreWrite, if_neg (by simp [hadmits]), if_pos hpass]

/-- A core's write to a closed store is dropped, with WDROP. -/
theorem Dev.veStoreWrite_closed {c : Fin 8} {off size v : Nat} (hsize : size = 4) (halign : off % 4 = 0)
    (hclosed : d.rd .VE_CSSTAT_OPENED e = 0) : d.veStoreWrite (.mc c) e off size v = d.wr .VE_CSSTAT_WDROP e 1 := by
  have hadmits : d.veAdmits (.mc c) off size = true := by simp [Dev.veAdmits, hsize, halign]
  have hdrop : (Master.mc c == .cfg || d.csOpened e) = false := by
    rw [Dev.csOpened, Dev.on_eq_false hclosed]
    rfl
  rw [Dev.veStoreWrite, if_neg (by simp [hadmits]), if_neg (by simp [hdrop])]
  rfl

theorem Dev.veStoreWrite_refused {m : Master} {off size v : Nat} (hrefused : d.veAdmits m off size = false) :
    d.veStoreWrite m e off size v = d.emit (.busError m.id) := if_pos (by simp [hrefused])

theorem Dev.veStoreRead_admitted {m : Master} {off size : Nat} {bad : Bool} (hadmits : d.veAdmits m off size = true) :
    d.veStoreRead m e off size bad =
      (if bad then d.wr .VE_CSSTAT_RPERR e 1 else d).emit (.data m.id (d.ld32 (uopAddr e (off / 4)))) :=
  if_neg (by simp [hadmits])

/-- A general register is written in HALTED (R419). -/
theorem Dev.veRegWrite_halted {g lo hi : Nat} (hhalted : d.rd .VE_ESTAT_STATE e = 3) :
    d.veRegWrite e g lo hi = d.setEng e ((d.eng e).put g (lo % 2 ^ 32 + hi % 2 ^ 16 * 2 ^ 32)) :=
  if_neg (by simp [Dev.veState, hhalted])

/-- A write of VE_GHI commits a general register with the low half that its master has buffered, or with the register's own (R58, R419). -/
def Dev.generalWrite (d : Dev) (m : Master) (e : Fin 12) (g : Fin 32) (w : Word) : Dev :=
  (d.dropLo m.id .VE_GLO (32 * e.val + g.val)).veRegWrite e.val g.val
    (Tab.getD d.bus.loBuf (holdKey m.id .VE_GLO (32 * e.val + g.val)) ((d.eng e.val).reg g.val % 2 ^ 32)) w.toNat

/-! ### HALT, RESUME and CLRMCHK (R391, R408, R410) -/

theorem Dev.haltBarred_ce (d : Dev) (hce : 4 ≤ e) : d.haltBarred e = false := by
  simp [Dev.haltBarred, Nat.not_lt.mpr hce]

theorem Dev.veHalt_barred (hbarred : d.haltBarred e = true) : d.veHalt e = d.wr .VE_ESTAT_HIGN e 1 := if_pos hbarred

theorem Dev.veHalt_idle (hfree : d.haltBarred e = false) (hidle : d.rd .VE_ESTAT_STATE e = 1) :
    d.veHalt e = if e < 4 then d.wr .VE_ESTAT_STATE e 3 else ((d.wr .VE_ESTAT_STATE e 3).adoptWith (e - 4) none).checkCeAll := by
  simp only [Dev.veHalt, hfree, Dev.veState, hidle, Bool.false_eq_true, if_false]

/-- HALT waits for the end of a committed routine. -/
theorem Dev.veHalt_committed (hfree : d.haltBarred e = false) (hruns : d.rd .VE_ESTAT_STATE e = 2)
    (hcommitted : d.rd .VE_ESTAT_COMMITTED e ≠ 0) : d.veHalt e = d.setEng e { d.eng e with halting := true } := by
  simp only [Dev.veHalt, hfree, Dev.veState, hruns, Dev.on_eq_true hcommitted, Bool.false_eq_true, if_false, if_true]

theorem Dev.veResume_halted (hclosed : d.rd .VE_CSSTAT_OPENED e = 0) (hhalted : d.rd .VE_ESTAT_STATE e = 3) :
    d.veResume e = if e < 4 then d.wr .VE_ESTAT_STATE e 1 else (d.wr .VE_ESTAT_STATE e 1).ceBack := by
  rw [Dev.veResume, if_neg (by simp [Dev.csOpened, Dev.on_eq_false hclosed]), if_neg (by simp [Dev.veState, hhalted])]

theorem Dev.veResume_open (hopen : d.rd .VE_CSSTAT_OPENED e ≠ 0) : d.veResume e = d.wr .VE_CSSTAT_RESREF e 1 :=
  if_pos (Dev.on_eq_true hopen)

theorem Dev.veClrMchk_checked (hclosed : d.rd .VE_CSSTAT_OPENED e = 0) (hchecked : d.rd .VE_ESTAT_STATE e = 4) {d1 : Dev}
    (hd1 : d1 = (d.wr .VE_ESTAT_STATE e 1).trigger e tInit 0 0 0 0 0) : d.veClrMchk e = if e < 4 then d1 else d1.ceBack := by
  subst hd1
  rw [Dev.veClrMchk, if_neg (by simp [Dev.csOpened, Dev.on_eq_false hclosed]), if_neg (by simp [Dev.veState, hchecked])]

/-! ### The time limit (R406, R407) -/

/-- A routine that runs its limit before its COMMIT is abandoned: its registers are as at its dispatch, and it runs again unless its
faults have reached their limit. -/
theorem Dev.routineTimeout_abandons {t : Trig}
    (hpassed : d.waited (.routine e) (max 1 (d.rd .VE_ECFG_RTLIM e) * 1280) = true) (hrun : (d.eng e).run = some t)
    (hruns : d.rd .VE_ESTAT_STATE e = 2) (hopen : d.rd .VE_ESTAT_COMMITTED e = 0) (htype : t.type ≠ tFault) {d1 d2 : Dev}
    (hd1 : d1 = (d.setEng e { (d.eng e).clear with g := (d.eng e).g0 }).wr .VE_ESTAT_COMMITTED e 0)
    (hd2 : d2 = ((d1.count .VE_ECNT_ABANDONS e).wr .VE_ESTAT_CAUSE e 3).wr .VE_ESTAT_STATE e 1) :
    d.routineTimeout e =
      if t.flts + 1 < max 1 (d2.rd .VE_ECFG_FLTRST e) then
        d2.setEng e ((d2.eng e).requeue { t with restarts := min 255 (t.restarts + 1), flts := t.flts + 1 })
      else d2.faultTrigger e t 3 := by
  subst hd1 hd2
  have hplain : (t.type == tFault && decide (2 ≤ 3) && decide (3 ≤ 5)) = false := by simp [htype]
  rw [Dev.routineTimeout, if_pos hpassed]
  simp only [Dev.veEnd, hrun, Dev.veState, hruns, Dev.on_eq_false hopen, hplain]
  rfl

end Engines

end Sys2Proof.Machine
end

section
/-! HIF's fetch (R429, R430), the I/O commands on their way to a command engine (R412, R433, R458) and the data asked of the host
(R442, R443). -/

namespace Sys2Proof.Machine

section Fetch

variable {d : Dev} {x : Sq} {p : Nat}

/-- A controller's part of a fetch cycle is its admin queue's, where a command waits there and the ring has room. -/
theorem Dev.fetchPort_admin (hfetches : d.fetches p = true) (hqueue : Tab.look (d.port p).sqs 0 = some x) (hwaits : x.waits = true)
    (hroom : d.admRoom = true) (dws : List Nat) : d.fetchPort p dws = d.fetchAdmin p x dws := by
  simp only [Dev.fetchPort, hfetches, hqueue, Option.filter_some, hwaits, hroom, Bool.not_true, Bool.false_eq_true, if_false, if_true]

theorem Dev.fetchAdmin_portExists (d : Dev) (p : Nat) (x : Sq) (dws : List Nat) (k : Nat) :
    (d.fetchAdmin p x dws).portExists k = d.portExists k := by
  have hmode : (d.fetchAdmin p x dws).rd .HIF_PORTCFG_MODE 0 = d.rd .HIF_PORTCFG_MODE 0 := Dev.rd_wr_of_ne d 0 0 _ (by decide)
  simp only [Dev.portExists, Dev.on, hmode]

/-- With one controller a fetch cycle that takes an admin command does nothing else. -/
theorem Dev.fetchCycle_admin (hone : d.portExists 1 = false) (hfetches : d.fetches 0 = true)
    (hqueue : Tab.look (d.port 0).sqs 0 = some x) (hwaits : x.waits = true) (hroom : d.admRoom = true) (dws0 dws1 : List Nat) :
    d.fetchCycle dws0 dws1 = d.fetchAdmin 0 x dws0 := by
  obtain ⟨a, hadm⟩ : ∃ a, (d.fetchAdmin 0 x dws0).hif.adm = d.hif.adm ++ [a] := ⟨_, rfl⟩
  have hexists : (d.fetchAdmin 0 x dws0).portExists 1 = false := (d.fetchAdmin_portExists 0 x dws0 1).trans hone
  simp only [Dev.fetchCycle, Dev.fetchPort_admin hfetches hqueue hwaits hroom, hexists, Bool.false_eq_true, if_false, hadm,
    List.drop_left]

end Fetch

section IoCommands

variable {d : Dev} {x : Cmd} {fseq op k : Nat} {zsa : Option Nat}

/-- The device with a command offered to command engine `k` (R412). -/
def Dev.offeredTo (d : Dev) (x : Cmd) (k : Nat) : Dev :=
  let d1 := d.setCmd { x with phase := .offered, owner := d.ownerId k }
  d1.trigger (4 + k) tCmd 0 (d1.recordOfs x.idx) x.fseq (x.cid + (x.sq - 1) * 65536 + x.port * 2 ^ 24) 0

theorem Dev.offer_some (hengine : d.fewest (fun t => t.type == tCmd) = some k) : d.offer x = d.offeredTo x k := by
  simp only [Dev.offer, hengine]
  rfl

theorem Dev.offer_none (hnone : d.fewest (fun t => t.type == tCmd) = none) : d.offer x = d.setCmd { x with phase := .held } := by
  simp only [Dev.offer, hnone]

/-- A fetched command that its checks pass is handed over; HIF ends a Flush itself (R452). -/
theorem Dev.ioCommand_passed (hcmd : d.cmdOf fseq = some x) (hphase : x.phase = .fetched) (hop : sqeOp x.sqe = op)
    (hzsa : (zsa.all fun a => sqeZsa x.sqe == a) = true) (hok : d.ioRefusal (d.port x.port) x.sqe = none) :
    d.ioCommand fseq op zsa = if op = opFlush then d.complete x 0 0 0 else d.offer x := by
  simp only [Dev.ioCommand, hcmd, hok]
  exact if_neg (by simp [hphase, hop, hzsa])

/-- One that fails a check ends with that check's status (R433). -/
theorem Dev.ioCommand_refused {st : Nat} (hcmd : d.cmdOf fseq = some x) (hphase : x.phase = .fetched) (hop : sqeOp x.sqe = op)
    (hzsa : (zsa.all fun a => sqeZsa x.sqe == a) = true) (hrefused : d.ioRefusal (d.port x.port) x.sqe = some st) :
    d.ioCommand fseq op zsa = d.complete x st 0 0 := by
  simp only [Dev.ioCommand, hcmd, hrefused]
  exact if_neg (by simp [hphase, hop, hzsa])

/-- A command of the table that hands a command over offers it to the engine with the fewest CMD triggers. -/
theorem exec_offered {c : Instr} {s : State} {seq : BitVec 32} (op : Nat) (zsa : Option Nat) (hmet : s.dev.met = d)
    (hcmd : d.cmdOf seq.toNat = some x) (hphase : x.phase = .fetched) (hop : sqeOp x.sqe = op)
    (hok : d.ioRefusal (d.port x.port) x.sqe = none) (hengine : d.fewest (fun t => t.type == tCmd) = some k)
    (hzsa : (zsa.all fun a => sqeZsa x.sqe == a) = true := by rfl) (hflush : op ≠ opFlush := by decide)
    (hrun : exec c s = s.run (·.ioCommand seq.toNat op zsa) := by rfl) : exec c s = .next (s.after (d.offeredTo x k)) :=
  exec_of_met (·.ioCommand seq.toNat op zsa) hmet
    ((Dev.ioCommand_passed hcmd hphase hop hzsa hok).trans ((if_neg hflush).trans (Dev.offer_some hengine))) hrun

end IoCommands

section Data

/-- Bytes cut or filled with 0 to `k`. -/
def fillTo (l : List Byte) (k : Nat) : List Byte := (l ++ List.replicate k 0).take k

/-- Block `i` of the data asked of the host is checked and stored; the first check that fails is kept with its block (R442, R443). -/
def Ns.storeBlock (n : Ns) (x : Cmd) (first buf rtlba : Nat) (data md : List (List Byte)) (y : Dev × Nat × Nat) (i : Nat) :
    Dev × Nat × Nat :=
  let b := fillTo (data.getD i []) 4096
  let m := fillTo (md.getD i []) n.meta
  let k := if sqePract x.sqe then 0 else n.piFails (sqePrchk x.sqe) (sqeApp x.sqe) (sqeMask x.sqe) (n.refOf x.sqe (first + i)) b m
  (y.1.mputBytes (buf + i * n.stride) (b ++ n.blockIn x.sqe (first + i) rtlba b m), if y.2.1 = 0 then (k, first + i) else y.2)

variable {d : Dev} {x : Cmd} {fseq first count buf rtlba : Nat} {data md : List (List Byte)}

/-- The command with the blocks that have arrived. -/
def Cmd.arrived (x : Cmd) (first count : Nat) : Cmd := { x with got := x.got ++ (List.range count).map (first + ·) }

/-- Data of a command without a namespace is stored as it comes. -/
theorem Dev.dataIn_plain (hcmd : d.cmdOf fseq = some x) (hask : x.ask = some (first, count, buf, rtlba))
    (hhere : d.bufferHere x buf count = true) (hnone : d.cmdNs x = none) :
    d.dataIn fseq data md =
      ((List.range count).foldl (fun y i => y.mputBytes (buf + i * 4096) (fillTo (data.getD i []) 4096)) d).offerData
        (x.arrived first count) 0 := by
  have hfold : (List.range count).foldl
        (fun (y : Dev × Nat × Nat) i => (y.1.mputBytes (buf + i * 4096) (fillTo (data.getD i []) 4096), y.2)) (d, 0, 0) =
      ((List.range count).foldl (fun y i => y.mputBytes (buf + i * 4096) (fillTo (data.getD i []) 4096)) d, 0, 0) :=
    List.foldl_hom (fun y : Dev => (y, 0, 0)) fun _ _ => rfl
  unfold fillTo at hfold ⊢
  simp only [Dev.dataIn, hcmd, hask, hhere, hnone, Bool.not_true, Bool.false_eq_true, if_false, hfold, if_true, Cmd.arrived]

/-- That of a command with one is checked and remapped. -/
theorem Dev.dataIn_checked {n : Ns} (hcmd : d.cmdOf fseq = some x) (hask : x.ask = some (first, count, buf, rtlba))
    (hhere : d.bufferHere x buf count = true) (hns : d.cmdNs x = some n) {r : Dev × Nat × Nat}
    (hr : r = (List.range count).foldl (n.storeBlock x first buf rtlba data md) (d, 0, 0)) :
    d.dataIn fseq data md =
      r.1.offerData (if r.2.1 = 0 then x.arrived first count else { x.arrived first count with piAt := r.2.2 }) r.2.1 := by
  subst hr
  unfold Ns.storeBlock fillTo
  simp only [Dev.dataIn, Cmd.arrived, hcmd, hask, hhere, hns, Bool.not_true, Bool.false_eq_true, if_false, Option.map_some,
    Option.getD_some]

/-- A transfer that the link has accepted is no longer under way. -/
theorem Dev.transferDone_moving (hcmd : d.cmdOf fseq = some x) (hmoving : x.moving ≠ 0) :
    d.transferDone fseq = (d.setCmd { x with moving := x.moving - 1 }).retryIo x.port := by
  simp only [Dev.transferDone, hcmd, hmoving, if_false]

/-- The recovery time limit is noted for a Read or Verify to which one applies (R453). -/
theorem Dev.tlerPasses_limit (hcmd : d.cmdOf fseq = some x) (hreads : sqeOp x.sqe = 2 ∨ sqeOp x.sqe = 0x0C)
    (hlimit : d.nsFeat (sqeNs x.sqe) 5 fseq % 65536 ≠ 0) : d.tlerPasses fseq = d.setCmd { x with limit := true } := by
  simp only [Dev.tlerPasses, hcmd]
  exact if_pos (by simpa [opRead, opVerify, hlimit] using hreads)

end Data

end Sys2Proof.Machine
end

section
/-! The statements of 11_vertical_engines that hold. -/

namespace Sys2Proof.Machine

/-- Settles O52: writing a register and reading it back, and a dispatch as a few such writes. -/
theorem microRegisters : Obligations.MicroRegisters := by
  unfold Obligations.MicroRegisters
  refine ⟨fun x v => ⟨x.reg_zero, x.put_zero v⟩, fun x n v hpos _ => ⟨x.reg_put_self v (by omega), fun k hk => x.reg_put_ne v hk⟩, ?_⟩
  intro s d e t hmet hidle hnext htype hprio hsrc hrestarts ha0 ha1 ha2 ha3
  obtain ⟨y, hy⟩ : ∃ y, y = Eng.loadTrigger { d.eng e.val with
      queues := (d.eng e.val).queues.erase t, run := some t, stack := [], pos := 0, res := [], buffer := [], refNext := false,
      noPre := decide (d.rd .VE_ECFG_MAXRST e.val ≤ t.restarts) } t := ⟨_, rfl⟩
  obtain ⟨hargs0, hargs1, hargs2, hargs3⟩ : y.reg 28 = _ ∧ y.reg 29 = _ ∧ y.reg 30 = _ ∧ y.reg 31 = _ :=
    hy ▸ Eng.reg_loadTrigger_args _ t
  have hsource : y.reg 27 = _ := hy ▸ Eng.reg_loadTrigger_source _ t
  have hlow : ∀ n, n < 27 → y.reg n = (d.eng e.val).reg n := fun n hn => by
    rw [hy, Eng.reg_loadTrigger_low _ t hn]
    rfl
  have hstack : y.stack = [] := by rw [hy, Eng.loadTrigger_rest]
  refine ⟨_, exec_of_met (·.dispatchTrigger e.val) hmet (Dev.dispatchTrigger_next hidle hnext hy), ?_⟩
  simp only [Dev.beginWait_rd, Dev.eng_beginWait, Dev.eng_wr, Dev.eng_setEng_self]
  refine ⟨?state, ?pc, hstack, hsource.trans ?_, hargs0.trans ?_, hargs1.trans ?_, hargs2.trans ?_, hargs3.trans ?_, hlow,
    fun k hk => Dev.eng_setEng_ne d _ hk⟩
  case state =>
    rw [Dev.rd_wr_of_ne _ _ _ _ (by decide), Dev.rd_wr_of_ne _ _ _ _ (by decide), Dev.rd_wr_self]
    rfl
  case pc =>
    rw [Dev.rd_wr_self]
    show t.type % 32 * 8 % 2 ^ 15 = t.type * 8
    omega
  all_goals omega

/-- Settles O53: the condition decides between the target and the next word, and the reserved code makes the step illegal. -/
theorem microConditions : Obligations.MicroConditions := by
  unfold Obligations.MicroConditions
  refine ⟨?branch, ?reserved, fun e => rfl⟩
  case branch =>
    intro s d e w c v hmet hready hopc hend hcode hc hv
    obtain ⟨hstate, hrun⟩ := Dev.microReady_runs hready
    have hlt : c < 7 := by
      have hbits : uCond w < 2 ^ 3 := Nat.mod_lt _ (by decide)
      omega
    refine ⟨_, exec_of_met (·.uBranch e.val) hmet ((Dev.uop_opcode _ hready hopc).trans (Dev.uNext_end hstate hrun hend _)), ?_⟩
    rw [Dev.rd_wr_self, ← condHolds_iff hlt hv, ← hcode]
    refine ⟨fun hcond => ?_, fun hcond => ?_⟩
    · rw [if_pos hcond]
      exact Nat.mod_eq_of_lt (Nat.mod_lt _ (by decide))
    · rw [if_neg hcond]
      rfl
  case reserved =>
    intro s d e hmet hstate hrun hpos ⟨hopc, hcond⟩
    obtain ⟨rest, hstep⟩ := d.stepAt_head e.val (d.rd .VE_EPC_PC e.val)
    have hillegal : stepLegal (d.stepAt e.val (d.rd .VE_EPC_PC e.val)) = false := by
      rw [hstep]
      exact stepLegal_of_head (uLegal_reserved_cond hopc hcond)
    exact ⟨exec_of_met (·.uBranch e.val) hmet (Dev.uop_illegal _ _ hstate hrun hpos hillegal),
      exec_of_met (·.uCall e.val) hmet (Dev.uop_illegal _ _ hstate hrun hpos hillegal),
      exec_of_met (·.uReturn e.val) hmet (Dev.uop_illegal _ _ hstate hrun hpos hillegal)⟩

/-- Settles O58: each of the micro-ops is a result, a place in the step or the call stack of its own engine. -/
theorem microFrames : Obligations.MicroFrames := by
  unfold Obligations.MicroFrames
  intro s d e w c hmet hready hc
  obtain ⟨f, hexec, helsewhere, hothers, hfields, hqueues, hbuffer, hloads, hregs⟩ :
      ∃ f, exec c s = .next (s.after f) ∧ d.MicroOnly f e.val (d.stepDests e.val w) := by
    simp only [List.mem_cons, List.not_mem_nil, or_false] at hc
    rcases hc with rfl | rfl | rfl | rfl | rfl | rfl | rfl | rfl | rfl | rfl | rfl | rfl | rfl | rfl | rfl | rfl | rfl | rfl | rfl | rfl |
      rfl | rfl | rfl | rfl | rfl | rfl | rfl | rfl | rfl | rfl | rfl | rfl
    · exact exec_microOnly (·.uNop e.val) hmet (Dev.uNop_microOnly hready)
    · exact exec_microOnly (·.uAlu e.val 0 fnAdd) hmet (Dev.uAlu_microOnly hready _ _)
    · exact exec_microOnly (·.uAlu e.val 1 fnSub) hmet (Dev.uAlu_microOnly hready _ _)
    · exact exec_microOnly (·.uAlu e.val 2 fnAnd) hmet (Dev.uAlu_microOnly hready _ _)
    · exact exec_microOnly (·.uAlu e.val 3 fnOr) hmet (Dev.uAlu_microOnly hready _ _)
    · exact exec_microOnly (·.uAlu e.val 4 fnXor) hmet (Dev.uAlu_microOnly hready _ _)
    · exact exec_microOnly (·.uAlu e.val 5 fnShl) hmet (Dev.uAlu_microOnly hready _ _)
    · exact exec_microOnly (·.uAlu e.val 6 fnShr) hmet (Dev.uAlu_microOnly hready _ _)
    · exact exec_microOnly (·.uAlu e.val 7 fnSra) hmet (Dev.uAlu_microOnly hready _ _)
    · exact exec_microOnly (·.uAlu e.val 8 fnShli) hmet (Dev.uAlu_microOnly hready _ _)
    · exact exec_microOnly (·.uAlu e.val 9 fnShri) hmet (Dev.uAlu_microOnly hready _ _)
    · exact exec_microOnly (·.uAlu e.val 10 fnSrai) hmet (Dev.uAlu_microOnly hready _ _)
    · exact exec_microOnly (·.uAlu e.val 11 fnSlt) hmet (Dev.uAlu_microOnly hready _ _)
    · exact exec_microOnly (·.uAlu e.val 12 fnSltu) hmet (Dev.uAlu_microOnly hready _ _)
    · exact exec_microOnly (·.uAlu e.val 13 fnMin) hmet (Dev.uAlu_microOnly hready _ _)
    · exact exec_microOnly (·.uAlu e.val 14 fnMax) hmet (Dev.uAlu_microOnly hready _ _)
    · exact exec_microOnly (·.uAlu e.val 15 fnMul) hmet (Dev.uAlu_microOnly hready _ _)
    · exact exec_microOnly (·.uAlu e.val 16 fnMulh) hmet (Dev.uAlu_microOnly hready _ _)
    · exact exec_microOnly (·.uAlu e.val 17 fnClz) hmet (Dev.uAlu_microOnly hready _ _)
    · exact exec_microOnly (·.uAlu e.val 18 fnPopc) hmet (Dev.uAlu_microOnly hready _ _)
    · exact exec_microOnly (·.uImmOp e.val 2 immAdd) hmet (Dev.uImmOp_microOnly hready _ _)
    · exact exec_microOnly (·.uImmOp e.val 3 immAnd) hmet (Dev.uImmOp_microOnly hready _ _)
    · exact exec_microOnly (·.uImmOp e.val 4 immOr) hmet (Dev.uImmOp_microOnly hready _ _)
    · exact exec_microOnly (·.uImmOp e.val 5 immXor) hmet (Dev.uImmOp_microOnly hready _ _)
    · exact exec_microOnly (·.uImmOp e.val 6 immX) hmet (Dev.uImmOp_microOnly hready _ _)
    · exact exec_microOnly (·.uImmOp e.val 7 immSlt) hmet (Dev.uImmOp_microOnly hready _ _)
    · exact exec_microOnly (·.uAngr e.val 0) hmet (Dev.uAngr_microOnly hready _)
    · exact exec_microOnly (·.uAngr e.val 1) hmet (Dev.uAngr_microOnly hready _)
    · exact exec_microOnly (·.uBranch e.val) hmet (Dev.uBranch_microOnly hready)
    · exact exec_microOnly (·.uCall e.val) hmet (Dev.uCall_microOnly hready)
    · exact exec_microOnly (·.uReturn e.val) hmet (Dev.uReturn_microOnly hready)
    · exact exec_microOnly (·.uJump e.val) hmet (Dev.uJump_microOnly hready)
  exact ⟨f, hexec, helsewhere, hothers, hfields, hqueues, hbuffer, hloads,
    fun n hd hres => hregs n (List.mem_cons.not.mpr (not_or.mpr ⟨hd, hres⟩))⟩

/-- Settles O59: a store that acts is a master's store of its bytes, one before COMMIT waits in the buffer, and a write of a store window
keeps to the word. -/
theorem storeFrames : Obligations.StoreFrames := by
  unfold Obligations.StoreFrames
  refine ⟨?committed, ?buffered, ?core, ?missing, ?veStore, ?fsqStore⟩
  case committed =>
    intro s d e w a k n c hmet hready hc hat hwindow hk hcommitted
    obtain ⟨f, hexec, hmem⟩ : ∃ f, exec c s = .next (s.after f) ∧
        f.mem = (d.mstN a (wide ((d.eng e.val).reg (uD w)) % 2 ^ (8 * n)) n).mem := by
      obtain ⟨opc, hopc, hrun⟩ := exec_store hc
      refine ⟨_, exec_of_met (·.uStoreOp e.val opc n) hmet (Dev.uStoreOp_window hready hopc hat hwindow) (hrun s), ?_⟩
      rw [Dev.uNext_mem, Dev.veDo_committed hcommitted (Dev.veWindow_memory hwindow hk)]
    obtain ⟨hstored, hkept⟩ := Dev.stored_of_mstN hmem
    refine ⟨f, hexec, fun hopen => (hstored hopen).trans ?_, hkept⟩
    rw [Nat.pow_mul]
    exact Nat.mod_mod _ _
  case buffered =>
    intro s d e w a k n c hmet hready hc hat hwindow hopen hroom
    obtain ⟨opc, hopc, hrun⟩ := exec_store hc
    refine ⟨_, exec_of_met (·.uStoreOp e.val opc n) hmet (Dev.uStoreOp_window hready hopc hat hwindow) (hrun s), ?_⟩
    rw [Dev.veDo_buffered hopen hroom, Dev.uNext_mem, Dev.uNext_buffer, Dev.eng_setEng_self]
    exact ⟨rfl, rfl⟩
  case core =>
    intro s d c a size v err hmet harray hexists
    exact ⟨_, exec_of_met (·.coreAccess c .store a.toNat size.val v.toNat err) hmet (Dev.coreStore_memory harray hexists),
      Dev.stored_of_mstN rfl⟩
  case missing =>
    intro s d c a size v err hmet hmissing harray
    exact ⟨_, exec_of_met (·.coreAccess c .store a.toNat size.val v.toNat err) hmet rfl, Dev.coreStore_missing_mem harray hmissing⟩
  case veStore =>
    exact fun s m e off size v => ⟨_, exec_of_met (·.veStoreWrite m e.val off size v.toNat) rfl rfl,
      fun b hb => Dev.veStoreWrite_ld8 _ _ _ _ _ _ hb⟩
  case fsqStore =>
    exact fun s m a off size v => ⟨_, exec_of_met (·.fsqStoreWrite m a.val off size v.toNat) rfl rfl,
      fun b hb => Dev.fsqStoreWrite_ld8 _ _ _ _ _ _ hb⟩

/-- Settles O17: each clause is one rule of a timer, a mailbox, a store window or a general register. -/
theorem engineTimersMailboxesAndStores : Obligations.EngineTimersMailboxesAndStores := by
  unfold Obligations.EngineTimersMailboxesAndStores
  refine ⟨?timer, ?timerWaits, ?mailbox, ?mailboxFull, ?opened, ?shut, ?written, ?dropped, ?refused, ?read, ?register, ?zero⟩
  case timer =>
    rintro s _ e after rfl hpassed hperiod hqueued hrun
    refine exec_of_met (fun d => (d.advance after).veTimer e.val) rfl ((Dev.veTimer_due hpassed).trans (if_neg ?_))
    have hnone : (((s.dev.met.advance after).eng e.val).run.map fun t => t.type == tTimer).getD false = false := by
      cases hr : ((s.dev.met.advance after).eng e.val).run with
      | none => rfl
      | some t => exact beq_eq_false_iff_ne.mpr (hrun t hr)
    simpa [Dev.on_eq_true hperiod, hnone] using hqueued
  case timerWaits =>
    rintro s _ e after rfl hpassed hqueued
    exact exec_of_met (fun d => (d.advance after).veTimer e.val) rfl ((Dev.veTimer_due hpassed).trans (if_pos (by simp [hqueued])))
  case mailbox =>
    rintro s d m e w hmet hroom
    exact exec_of_met (fun d => (d.dropLo m.id .VE_MBOXLO e.val).mailbox e.val (d.loHalf m.id .VE_MBOXLO e.val) w.toNat) hmet
      (Dev.mailbox_room hroom)
  case mailboxFull =>
    rintro s d m e w hmet hfull
    exact exec_of_met (fun d => (d.dropLo m.id .VE_MBOXLO e.val).mailbox e.val (d.loHalf m.id .VE_MBOXLO e.val) w.toNat) hmet
      (Dev.mailbox_full hfull)
  case opened => exact fun s d e hmet hstate => exec_of_met (·.veStoreOpen e.val true) hmet (Dev.veStoreOpen_stopped hstate)
  case shut => exact fun s d e hmet => exec_of_met (·.veStoreOpen e.val false) hmet rfl
  case written =>
    exact fun s d m e off size v hmet hadmits hopen =>
      exec_of_met (·.veStoreWrite m e.val off size v.toNat) hmet (Dev.veStoreWrite_open hadmits hopen)
  case dropped =>
    exact fun s d c e off size v hmet hsize halign hclosed =>
      exec_of_met (·.veStoreWrite (.mc c) e.val off size v.toNat) hmet (Dev.veStoreWrite_closed hsize halign hclosed)
  case refused =>
    exact fun s d m e off size v hmet hrefused =>
      exec_of_met (·.veStoreWrite m e.val off size v.toNat) hmet (Dev.veStoreWrite_refused hrefused)
  case read =>
    exact fun s d m e off size bad hmet hadmits =>
      exec_of_met (·.veStoreRead m e.val off size bad) hmet (Dev.veStoreRead_admitted hadmits)
  case register =>
    intro s d m e g w hmet hhalted hg
    exact exec_of_met (·.generalWrite m e g w) hmet
      ((Dev.veRegWrite_halted (d := d.dropLo m.id .VE_GLO (32 * e.val + g.val)) hhalted).trans (congrArg _ (Eng.put_of_ne _ _ hg)))
  case zero => exact fun s d m e w hmet hhalted => exec_of_met (·.generalWrite m e 0 w) hmet (Dev.veRegWrite_halted hhalted)

/-- Settles O18: each clause is one rule of HALT, RESUME, CLRMCHK or the time limit. -/
theorem engineStates : Obligations.EngineStates := by
  unfold Obligations.EngineStates
  refine ⟨?barred, ?servoIdle, ?commandIdle, ?committed, ?resume, ?resumeOpen, ?clrmchk, ?limit⟩
  case barred => exact fun s d e hmet _ hbarred => exec_of_met (·.veHalt e.val) hmet (Dev.veHalt_barred hbarred)
  case servoIdle =>
    exact fun s d e hmet hservo hfree hidle =>
      exec_of_met (·.veHalt e.val) hmet ((Dev.veHalt_idle hfree hidle).trans (if_pos hservo))
  case commandIdle =>
    exact fun s d e hmet hce hidle => exec_of_met (·.veHalt e.val) hmet
      ((Dev.veHalt_idle (d.haltBarred_ce hce) hidle).trans (if_neg (Nat.not_lt.mpr hce)))
  case committed =>
    exact fun s d e hmet hfree hruns hcommitted =>
      exec_of_met (·.veHalt e.val) hmet (Dev.veHalt_committed hfree hruns hcommitted)
  case resume =>
    exact fun s d e hmet hclosed hhalted => exec_of_met (·.veResume e.val) hmet (Dev.veResume_halted hclosed hhalted)
  case resumeOpen => exact fun s d e hmet hopen => exec_of_met (·.veResume e.val) hmet (Dev.veResume_open hopen)
  case clrmchk =>
    exact fun s d e hmet hclosed hchecked =>
      exec_of_met (·.veClrMchk e.val) hmet (Dev.veClrMchk_checked hclosed hchecked rfl)
  case limit =>
    rintro s _ e t after rfl hpassed hrun hruns hopen htype
    exact exec_of_met (fun d => (d.advance after).routineTimeout e.val) rfl
      (Dev.routineTimeout_abandons hpassed hrun hruns hopen htype rfl rfl)

/-- Settles O37: each ALU and immediate command runs its function on the registers before the step. -/
theorem microArithmetic : Obligations.MicroArithmetic := by
  unfold Obligations.MicroArithmetic
  refine ⟨?add, ?sub, ?and, ?or, ?xor, ?shl, ?shr, ?sra, ?shli, ?shri, ?srai, ?slt, ?sltu, ?min, ?max, ?mul, ?mulh, ?clz, ?popc,
    ?addi, ?andi, ?ori, ?xori, ?immx, ?slti, ?angle, ?time, ?nop, ?illegal⟩
  case add => exact fun s d e w hmet hready hopc hfn => exec_alu 0 fnAdd hmet hready hopc hfn rfl
  case sub => exact fun s d e w hmet hready hopc hfn => exec_alu 1 fnSub hmet hready hopc hfn rfl
  case and => exact fun s d e w hmet hready hopc hfn => exec_alu 2 fnAnd hmet hready hopc hfn rfl
  case or => exact fun s d e w hmet hready hopc hfn => exec_alu 3 fnOr hmet hready hopc hfn rfl
  case xor => exact fun s d e w hmet hready hopc hfn => exec_alu 4 fnXor hmet hready hopc hfn rfl
  case shl => exact fun s d e w hmet hready hopc hfn => exec_alu 5 fnShl hmet hready hopc hfn rfl
  case shr => exact fun s d e w hmet hready hopc hfn => exec_alu 6 fnShr hmet hready hopc hfn rfl
  case sra => exact fun s d e w hmet hready hopc hfn => exec_alu 7 fnSra hmet hready hopc hfn rfl
  case shli => exact fun s d e w hmet hready hopc hfn => exec_alu 8 fnShli hmet hready hopc hfn rfl
  case shri => exact fun s d e w hmet hready hopc hfn => exec_alu 9 fnShri hmet hready hopc hfn rfl
  case srai => exact fun s d e w hmet hready hopc hfn => exec_alu 10 fnSrai hmet hready hopc hfn rfl
  case slt => exact fun s d e w hmet hready hopc hfn => exec_alu 11 fnSlt hmet hready hopc hfn (bnat_decide _)
  case sltu => exact fun s d e w hmet hready hopc hfn => exec_alu 12 fnSltu hmet hready hopc hfn (bnat_decide _)
  case min => exact fun s d e w hmet hready hopc hfn => exec_alu 13 fnMin hmet hready hopc hfn rfl
  case max => exact fun s d e w hmet hready hopc hfn => exec_alu 14 fnMax hmet hready hopc hfn rfl
  case mul => exact fun s d e w hmet hready hopc hfn => exec_alu 15 fnMul hmet hready hopc hfn rfl
  case mulh => exact fun s d e w hmet hready hopc hfn => exec_alu 16 fnMulh hmet hready hopc hfn rfl
  case clz => exact fun s d e w hmet hready hopc hfn => exec_alu 17 fnClz hmet hready hopc hfn rfl
  case popc => exact fun s d e w hmet hready hopc hfn => exec_alu 18 fnPopc hmet hready hopc hfn rfl
  case addi => exact fun s d e w hmet hready hopc => exec_immediate 2 immAdd hmet hready hopc rfl
  case andi => exact fun s d e w hmet hready hopc => exec_immediate 3 immAnd hmet hready hopc rfl
  case ori => exact fun s d e w hmet hready hopc => exec_immediate 4 immOr hmet hready hopc rfl
  case xori => exact fun s d e w hmet hready hopc => exec_immediate 5 immXor hmet hready hopc rfl
  case immx => exact fun s d e w hmet hready hopc => exec_immediate 6 immX hmet hready hopc rfl
  case slti => exact fun s d e w hmet hready hopc => exec_immediate 7 immSlt hmet hready hopc (bnat_decide _)
  case angle => exact fun s d e w hmet hready hopc himm => exec_of_met (·.uAngr e.val 0) hmet (Dev.uAngr_ready hready hopc himm)
  case time => exact fun s d e w hmet hready hopc himm => exec_of_met (·.uAngr e.val 1) hmet (Dev.uAngr_ready hready hopc himm)
  case nop => exact fun s d e w hmet hready hopc => exec_of_met (·.uNop e.val) hmet (Dev.uop_opcode _ hready hopc)
  case illegal =>
    exact fun s d e hmet hruns hrun hpos hillegal =>
      exec_of_met (·.uNop e.val) hmet (Dev.uop_illegal _ _ hruns hrun hpos hillegal)

/-- Settles O38: each clause is one rule of a load, a store, an atomic operation or a load's return. -/
theorem microMemory : Obligations.MicroMemory := by
  unfold Obligations.MicroMemory
  refine ⟨?ldw, ?ldwOut, ?ldd, ?lddOut, ?ldwRegister, ?stw, ?std, ?swap, ?add, ?cas, ?returns, ?returnsRegister, ?returnFails⟩
  case ldw =>
    exact fun s d e w a k hmet hready hopc hat hwindow hk =>
      exec_of_met (·.uLoadOp e.val 8 4) hmet (Dev.uLoadOp_memory hready hopc hat hwindow hk)
  case ldwOut =>
    exact fun s d e w hmet hready hopc hout => exec_of_met (·.uLoadOp e.val 8 4) hmet (Dev.uLoadOp_outside hready hopc hout)
  case ldd =>
    exact fun s d e w a k hmet hready hopc hat hwindow hk =>
      exec_of_met (·.uLoadOp e.val 9 8) hmet (Dev.uLoadOp_memory hready hopc hat hwindow hk)
  case lddOut =>
    exact fun s d e w hmet hready hopc hout => exec_of_met (·.uLoadOp e.val 9 8) hmet (Dev.uLoadOp_outside hready hopc hout)
  case ldwRegister =>
    exact fun s d e w a hmet hready hopc hat hwindow hok =>
      exec_of_met (·.uLoadOp e.val 8 4) hmet (Dev.uLoadOp_register hready hopc hat hwindow hok)
  case stw =>
    exact fun s d e w a k hmet hready hopc hat hwindow =>
      exec_of_met (·.uStoreOp e.val 10 4) hmet (Dev.uStoreOp_window hready hopc hat hwindow)
  case std =>
    exact fun s d e w a k hmet hready hopc hat hwindow =>
      exec_of_met (·.uStoreOp e.val 11 8) hmet (Dev.uStoreOp_window hready hopc hat hwindow)
  case swap =>
    exact fun s d e w a hmet hready hopc hfn hat hruns halign hsram hread =>
      exec_of_met (·.uAmo e.val 0) hmet (Dev.uAmo_acts hready hopc hfn hat rfl hruns halign hsram rfl hread)
  case add =>
    exact fun s d e w a hmet hready hopc hfn hat hruns halign hsram hread =>
      exec_of_met (·.uAmo e.val 1) hmet (Dev.uAmo_acts hready hopc hfn hat rfl hruns halign hsram rfl hread)
  case cas =>
    exact fun s d e w a hmet hready hopc hfn hat hruns halign hsram hread =>
      exec_of_met (·.uAmo e.val 2) hmet (Dev.uAmo_acts hready hopc hfn hat rfl hruns halign hsram rfl hread)
  case returns =>
    exact fun s d e k err l hmet hload hsize hread =>
      exec_of_met (·.loadReturn e.val k.val err) hmet ((Dev.loadReturn_memory hload hsize rfl).trans (if_pos hread))
  case returnsRegister =>
    exact fun s d e k err l hmet hload hsize =>
      exec_of_met (·.loadReturn e.val k.val err) hmet (Dev.loadReturn_register hload hsize rfl)
  case returnFails =>
    exact fun s d e k err l hmet hload hsize hread =>
      exec_of_met (·.loadReturn e.val k.val err) hmet ((Dev.loadReturn_memory hload hsize rfl).trans (if_neg (by simp [hread])))

/-- Settles O39: each clause is one control micro-op, the dispatch, COMMIT, DONE or a parity error. -/
theorem microControl : Obligations.MicroControl := by
  unfold Obligations.MicroControl
  refine ⟨?branch, ?call, ?callPasses, ?ret, ?retPasses, ?jump, ?commit, ?done, ?dispatch, ?parity⟩
  case branch => exact fun s d e w hmet hready hopc => exec_of_met (·.uBranch e.val) hmet (Dev.uop_opcode _ hready hopc)
  case call =>
    exact fun s d e w hmet hready hopc hcond => exec_of_met (·.uCall e.val) hmet (Dev.uCall_taken hready hopc hcond)
  case callPasses =>
    exact fun s d e w hmet hready hopc hcond => exec_of_met (·.uCall e.val) hmet (Dev.uCall_passes hready hopc hcond)
  case ret =>
    exact fun s d e w hmet hready hopc hcond => exec_of_met (·.uReturn e.val) hmet (Dev.uReturn_taken hready hopc hcond)
  case retPasses =>
    exact fun s d e w hmet hready hopc hcond => exec_of_met (·.uReturn e.val) hmet (Dev.uReturn_passes hready hopc hcond)
  case jump => exact fun s d e w hmet hready hopc => exec_of_met (·.uJump e.val) hmet (Dev.uop_opcode _ hready hopc)
  case commit => exact fun s d e w hmet hready hopc => exec_of_met (·.uCommit e.val) hmet (Dev.uop_opcode _ hready hopc)
  case done =>
    exact fun s d e w hmet hready hopc hruns => exec_of_met (·.uDone e.val) hmet (Dev.uDone_ends hready hopc rfl hruns rfl rfl)
  case dispatch =>
    exact fun s d e t hmet hidle hnext => exec_of_met (·.dispatchTrigger e.val) hmet (Dev.dispatchTrigger_next hidle hnext rfl)
  case parity => exact fun s d e k hmet hruns => exec_of_met (·.uopParity e.val k.val) hmet (Dev.uopParity_runs hruns rfl)

/-- Settles O40: EMIT and each POST hand one effect to the commit buffer, or to its unit at once. -/
theorem microPosts : Obligations.MicroPosts := by
  unfold Obligations.MicroPosts
  refine ⟨?emit, ?complete, ?toHostComplete, ?fromHost, ?toHost, ?event, ?interrupt, ?release⟩
  case emit => exact fun s d e w hmet hready hopc => exec_of_met (·.uEmit e.val) hmet (Dev.uop_opcode _ hready hopc)
  case complete =>
    exact fun s d e w hmet hready hopc hcode hop => exec_of_met (·.uPost e.val (hifIs e.val fun k => k == 0 || decide (3 < k))) hmet
      (Dev.uPost_ready hready hopc hcode (hifIs_op hcode (by simpa using hop)))
  case toHostComplete =>
    exact fun s d e w hmet hready hopc hcode hop => exec_of_met (·.uPost e.val (hifIs e.val fun k => k == 1)) hmet
      (Dev.uPost_ready hready hopc hcode (hifIs_op hcode (beq_iff_eq.mpr hop)))
  case fromHost =>
    exact fun s d e w hmet hready hopc hcode hop => exec_of_met (·.uPost e.val (hifIs e.val fun k => k == 2)) hmet
      (Dev.uPost_ready hready hopc hcode (hifIs_op hcode (beq_iff_eq.mpr hop)))
  case toHost =>
    exact fun s d e w hmet hready hopc hcode hop => exec_of_met (·.uPost e.val (hifIs e.val fun k => k == 3)) hmet
      (Dev.uPost_ready hready hopc hcode (hifIs_op hcode (beq_iff_eq.mpr hop)))
  case event =>
    exact fun s d e w hmet hready hopc hcode =>
      exec_of_met (·.uPost e.val (postIs 1)) hmet (Dev.uPost_ready hready hopc hcode (postIs_code d hcode))
  case interrupt =>
    exact fun s d e w hmet hready hopc hcode =>
      exec_of_met (·.uPost e.val (postIs 2)) hmet (Dev.uPost_ready hready hopc hcode (postIs_code d hcode))
  case release =>
    exact fun s d e w hmet hready hopc hcode =>
      exec_of_met (·.uPost e.val (postIs 3)) hmet (Dev.uPost_ready hready hopc hcode (postIs_code d hcode))

/-- Settles O42: each clause is a fetch cycle, one I/O command's checks and hand-over, or the data and the limits of one command. -/
theorem hostFetchAndIoCommands : Obligations.HostFetchAndIoCommands := by
  unfold Obligations.HostFetchAndIoCommands
  refine ⟨?fetch, ?fetchAdmin, ?write, ?read, ?zeroes, ?verify, ?zoneOpen, ?zoneClose, ?zoneFinish, ?zoneReset, ?zoneOffline,
    ?zoneReceive, ?append, ?zoneAttribute, ?flush, ?refused, ?held, ?dataPlain, ?dataChecked, ?transferDone, ?limit⟩
  case fetch =>
    exact fun s d e0 e1 hmet =>
      exec_of_met (fun d => (d.advance d.toFetch).fetchCycle (e0.map BitVec.toNat) (e1.map BitVec.toNat)) hmet rfl
  case fetchAdmin =>
    exact fun s d e0 e1 x hmet hone hfetches hqueue hwaits hroom =>
      exec_of_met (fun d => (d.advance d.toFetch).fetchCycle (e0.map BitVec.toNat) (e1.map BitVec.toNat)) hmet
        (Dev.fetchCycle_admin hone hfetches hqueue hwaits hroom _ _)
  case write => exact fun s d fseq x k hmet hcmd hphase hop hok hk => exec_offered opWrite none hmet hcmd hphase hop hok hk
  case read => exact fun s d fseq x k hmet hcmd hphase hop hok hk => exec_offered opRead none hmet hcmd hphase hop hok hk
  case zeroes => exact fun s d fseq x k hmet hcmd hphase hop hok hk => exec_offered opWriteZeroes none hmet hcmd hphase hop hok hk
  case verify => exact fun s d fseq x k hmet hcmd hphase hop hok hk => exec_offered opVerify none hmet hcmd hphase hop hok hk
  case zoneOpen =>
    exact fun s d fseq x k hmet hcmd hphase hop hzsa hok hk =>
      exec_offered opZoneSend (some 3) hmet hcmd hphase hop hok hk (beq_iff_eq.mpr hzsa)
  case zoneClose =>
    exact fun s d fseq x k hmet hcmd hphase hop hzsa hok hk =>
      exec_offered opZoneSend (some 1) hmet hcmd hphase hop hok hk (beq_iff_eq.mpr hzsa)
  case zoneFinish =>
    exact fun s d fseq x k hmet hcmd hphase hop hzsa hok hk =>
      exec_offered opZoneSend (some 2) hmet hcmd hphase hop hok hk (beq_iff_eq.mpr hzsa)
  case zoneReset =>
    exact fun s d fseq x k hmet hcmd hphase hop hzsa hok hk =>
      exec_offered opZoneSend (some 4) hmet hcmd hphase hop hok hk (beq_iff_eq.mpr hzsa)
  case zoneOffline =>
    exact fun s d fseq x k hmet hcmd hphase hop hzsa hok hk =>
      exec_offered opZoneSend (some 5) hmet hcmd hphase hop hok hk (beq_iff_eq.mpr hzsa)
  case zoneReceive => exact fun s d fseq x k hmet hcmd hphase hop hok hk => exec_offered opZoneReceive none hmet hcmd hphase hop hok hk
  case append => exact fun s d fseq x k hmet hcmd hphase hop hok hk => exec_offered opZoneAppend none hmet hcmd hphase hop hok hk
  case zoneAttribute =>
    exact fun s d fseq x k hmet hcmd hphase hop hok hk => exec_offered opZoneAttribute none hmet hcmd hphase hop hok hk
  case flush =>
    exact fun s d fseq x hmet hcmd hphase hop hok => exec_of_met (·.ioCommand fseq.toNat opFlush none) hmet
      ((Dev.ioCommand_passed hcmd hphase hop rfl hok).trans (if_pos rfl))
  case refused =>
    exact fun s d fseq x st hmet hcmd hphase hop hrefused => exec_of_met (·.ioCommand fseq.toNat opRead none) hmet
      (Dev.ioCommand_refused hcmd hphase hop rfl hrefused)
  case held =>
    exact fun s d fseq x hmet hcmd hphase hop hok hnone => exec_of_met (·.ioCommand fseq.toNat opRead none) hmet
      ((Dev.ioCommand_passed hcmd hphase hop rfl hok).trans ((if_neg (by decide)).trans (Dev.offer_none hnone)))
  case dataPlain =>
    exact fun s d fseq data md x first count buf rtlba hmet hcmd hask hhere hnone =>
      exec_of_met (·.dataIn fseq.toNat data md) hmet (Dev.dataIn_plain hcmd hask hhere hnone)
  case dataChecked =>
    exact fun s d fseq data md x n first count buf rtlba hmet hcmd hask hhere hns =>
      exec_of_met (·.dataIn fseq.toNat data md) hmet (Dev.dataIn_checked hcmd hask hhere hns rfl)
  case transferDone =>
    exact fun s d fseq x hmet hcmd hmoving => exec_of_met (·.transferDone fseq.toNat) hmet (Dev.transferDone_moving hcmd hmoving)
  case limit =>
    exact fun s d fseq x hmet hcmd hreads hlimit =>
      exec_of_met (·.tlerPasses fseq.toNat) hmet (Dev.tlerPasses_limit hcmd hreads hlimit)

end Sys2Proof.Machine
end

section
/-! Links and controllers: what a controller is enabled with (R425, R426), shutdown (R428), doorbells (R424), aggregated completions
(R434), configuration space and the MSI-X table (R421, R422), and the entry to Cicada (R502). -/

namespace Sys2Proof.Machine

/-! ### The commands of links and resets -/

theorem exec_pcieLinkUp (p : Fin 2) (speed : Fin 6) (width : Fin 5) (s : State) :
    exec (.pcieLinkUp p speed width) s = .next (s.after (
      if !s.dev.met.portExists p.val || s.dev.met.on .HIF_LNKSTAT_UP p.val then s.dev.met
      else ((s.dev.met.wr .HIF_LNKSTAT_UP p.val 1).wr .HIF_LNKSTAT_SPEED p.val speed.val).wr .HIF_LNKSTAT_WIDTH p.val width.val)) := rfl

theorem exec_linkDown (p : Fin 2) (s : State) :
    exec (.linkDown p) s = .next (s.after (
      if !s.dev.met.portExists p.val || !s.dev.met.on .HIF_LNKSTAT_UP p.val then s.dev.met
      else ((s.dev.met.controllerReset p.val 3).linkDown p.val).count .HIF_PERR_LINKDOWN p.val)) := rfl

theorem exec_functionLevelReset (p : Fin 2) (s : State) :
    exec (.functionLevelReset p) s = .next (s.after (
      if s.dev.met.portExists p.val then (s.dev.met.controllerReset p.val 2).configReset p.val else s.dev.met)) := rfl

theorem exec_controllerReset (p : Fin 2) (s : State) :
    exec (.controllerReset p) s = .next (s.after (
      if bit (s.dev.met.port p.val).cc 0 then s.dev.met.controllerReset p.val 2 else s.dev.met)) := rfl

theorem exec_fundamentalReset (p : Fin 2) (s : State) :
    exec (.fundamentalReset p) s = .next (s.after (
      if !s.dev.met.portExists p.val then s.dev.met
      else (((if s.dev.met.on .HIF_LNKSTAT_UP p.val then s.dev.met.count .HIF_PERR_LINKDOWN p.val
        else s.dev.met).controllerReset p.val 3).configReset p.val).linkDown p.val)) := rfl

theorem exec_pcieError (p : Fin 2) (u : Bool) (s : State) :
    exec (.pcieError p u) s = .next (s.after (
      if !s.dev.met.portExists p.val then s.dev.met
      else if u then s.dev.met.count .HIF_PERR_UNCOR p.val else s.dev.met.count .HIF_PERR_CORR p.val)) := rfl

/-! ### Controllers -/

section Controllers

variable {d : Dev} {p : Nat}

/-- The admin submission queue that ASQ and AQA describe, empty. -/
def adminSq (aqa asq : Nat) : Sq :=
  { base := asq / 4096 * 4096, size := bits aqa 0 12 + 1, head := 0, tail := 0, cq := 0, prio := 0, inflight := 0, stop := false }

/-- The admin completion queue that ACQ and AQA describe, empty. -/
def adminCq (aqa acq : Nat) : Cq :=
  { base := acq / 4096 * 4096, size := bits aqa 16 12 + 1, head := 0, tail := 0, vec := 0, agg := 0, phase := true, ien := true }

/-- A controller with its registers written and its admin queues begun. -/
def Port.begun (x : Port) (cc aqa asq acq : Nat) : Port :=
  { x with cc := cc, aqa := aqa, asq := asq, acq := acq, sqs := [(0, adminSq aqa asq)], cqs := [(0, adminCq aqa acq)] }

/-- A controller that is disabled is enabled, with CFS where R425 does not admit its CC (R425, R426). -/
theorem Dev.controllerEnable_disabled {cc : Nat} (hexists : d.portExists p = true) (hoff : bit (d.port p).cc 0 = false)
    (hon : bit cc 0 = true) (aqa asq acq : Nat) {x : Port} (hx : x = (d.port p).begun cc aqa asq acq) :
    d.controllerEnable p cc aqa asq acq =
      if goodCc cc then d.setPort p { x with warn := d.critical x }
      else (d.setPort p { x with warn := d.critical x }).wr .HIF_NVMSTAT_CFS p 1 := by
  subst hx
  exact if_neg (by simp [hexists, hoff, hon])

/-- A normal shutdown stops the fetching of an enabled controller (R428). -/
theorem Dev.normalShutdown_enabled (hexists : d.portExists p = true) (hon : bit (d.port p).cc 0 = true)
    (hfetching : (d.port p).quiet = false) {x : Port} (hx : x = d.port p) :
    d.normalShutdown p =
      (d.setPort p { x with quiet := true, cc := x.cc / 2 ^ 16 * 2 ^ 16 + x.cc % 2 ^ 14 + 2 ^ 14 }).wr .HIF_NVMSTAT_SHST p 1 := by
  subst hx
  exact if_neg (by simp [hexists, hon, hfetching])

/-- An abrupt one resets it at once (R428). -/
theorem Dev.abruptShutdown_enabled (hexists : d.portExists p = true) (hon : bit (d.port p).cc 0 = true) :
    d.abruptShutdown p = (d.controllerReset p 2).wr .HIF_NVMSTAT_SHST p 2 :=
  if_neg (by simp [hexists, hon])

/-- READY leaves for IDLING, and every actuator unloads (R501, R502). -/
theorem Dev.cicadaEntry_holds {resting : Bool} (hready : d.rd .SCH_STAT_STATE = 4) (hholds : d.cicadaHolds resting = true) :
    d.cicadaEntry resting = (List.range 4).foldl Dev.unloadHeads (d.toSch 5) :=
  if_pos (by simp [Dev.schState, hready, hholds])

end Controllers

/-! ### Doorbells and aggregated completions -/

section Doorbells

variable {d : Dev} {p q v : Nat}

/-- A tail doorbell moves the tail of its submission queue (R424). -/
theorem Dev.doorbell_tail {x : Sq} (hready : d.ctrlReady p = true) (hqueue : Tab.look (d.port p).sqs q = some x) (hv : v < x.size) :
    d.doorbell p q false v = d.setPort p { d.port p with sqs := Tab.put (d.port p).sqs q { x with tail := v } } := by
  simp only [Dev.doorbell, hready, hqueue, Nat.not_le.mpr hv, Bool.not_true, Bool.false_eq_true, if_false]

/-- A head doorbell moves the head of its completion queue, and what waited for room in it is posted (R424). -/
theorem Dev.doorbell_head {x : Cq} (hready : d.ctrlReady p = true) (hqueue : Tab.look (d.port p).cqs q = some x) (hv : v < x.size) :
    d.doorbell p q true v =
      (((d.setPort p { d.port p with cqs := Tab.put (d.port p).cqs q { x with head := v } }).drainAdmin p).retryIo p).drainAdmin p := by
  simp only [Dev.doorbell, hready, hqueue, Nat.not_le.mpr hv, Bool.not_true, Bool.false_eq_true, if_false, if_true]

/-- A doorbell of a queue that does not exist raises an error event (R424). -/
theorem Dev.doorbell_noQueue {cq : Bool} (hready : d.ctrlReady p = true)
    (hnone : (if cq then (Tab.look (d.port p).cqs q).isNone else (Tab.look (d.port p).sqs q).isNone) = true) :
    d.doorbell p q cq v = d.asyncEvent p 0 0 1 0 := by
  cases cq with
  | false =>
    have hsq : Tab.look (d.port p).sqs q = none := Option.isNone_iff_eq_none.mp hnone
    simp only [Dev.doorbell, hready, hsq, Bool.not_true, Bool.false_eq_true, if_false, Dev.badDoorbell]
  | true =>
    have hcq : Tab.look (d.port p).cqs q = none := Option.isNone_iff_eq_none.mp hnone
    simp only [Dev.doorbell, hready, hcq, Bool.not_true, Bool.false_eq_true, if_false, if_true, Dev.badDoorbell]

/-- What the queues of a vector have gathered is signalled once its aggregation time is over (R434). -/
theorem Dev.coalesceTimeout_over (hgathered : (d.port p).cqs.any (fun e => e.2.vec == v && e.2.agg != 0) = true)
    (hover : d.waited (.coalesce p v) ((d.port p).feat 8 / 256 % 256 * 125000) = true) {cqs : Tab Cq}
    (hcqs : cqs = (d.port p).cqs.map fun e => if e.2.vec = v then (e.1, { e.2 with agg := 0 }) else e) :
    d.coalesceTimeout p v = (d.setPort p { d.port p with cqs := cqs }).interrupt p v := by
  subst hcqs
  exact if_neg (by simp [hgathered, hover])

end Doorbells

/-- An access to configuration space or the MSI-X table goes through while the port's link is up (R421). -/
theorem Dev.configAccess_guard {d : Dev} {p : Nat} (hexists : d.portExists p = true) (hup : d.rd .HIF_LNKSTAT_UP p ≠ 0) :
    (!d.portExists p || !d.on .HIF_LNKSTAT_UP p) ≠ true := by
  simp [hexists, Dev.on_eq_true hup]

end Sys2Proof.Machine
end

section
/-! The admin commands that HIF executes itself: queues (R424, R432, R456), Abort and Asynchronous Event Request (R432, R455), features
(R434-R436), Identify (R447) and Diagnostic Window Unlock (R461). -/

namespace Sys2Proof.Machine

variable {d : Dev} {a : Adm}

/-- A command of the table that a row of R432 executes runs the row on the device with the admin command in the ring. -/
theorem exec_admin {c : Instr} {s : State} {e : Dev} (op : Nat) (f : Dev → Adm → Dev) (hmet : s.dev.met = d)
    (hfront : d.admFront = some a) (hop : sqeOp a.sqe = op) (h : f (d.ringAdm a) a = e)
    (hrun : exec c s = s.run (·.adminRow op f) := by rfl) : exec c s = .next (s.after e) :=
  exec_of_met (·.adminRow op f) hmet ((Dev.adminRow_front f hfront hop).trans h) hrun

/-! ### Queues -/

theorem isIoQueue_of_absent {α : Type} {t : Tab α} {q : Nat} (hnone : (Tab.look t q).isSome = false) : isIoQueue t q = false := by
  simp [isIoQueue, hnone]

theorem isIoQueue_of_present {α : Type} {t : Tab α} {q : Nat} (hq : 1 ≤ q) (hsome : (Tab.look t q).isSome = true) :
    isIoQueue t q = true := by
  simp [isIoQueue, hsome, Nat.one_le_iff_ne_zero.mp hq]

/-- What both creations check of a command: a free identifier up to `most`, an admitted size, contiguity, and the alignment of the
queue's base (R432). -/
structure QueueFits {α : Type} (e : List Nat) (t : Tab α) (most : Nat) : Prop where
  low : 1 ≤ sqeDw e 10 % 65536
  high : sqeDw e 10 % 65536 ≤ most
  free : (Tab.look t (sqeDw e 10 % 65536)).isSome = false
  entries : 1 ≤ sqeDw e 10 / 65536
  size : sqeDw e 10 / 65536 ≤ 1023
  contiguous : bit (sqeDw e 11) 0 = true
  aligned : sqeDw e 6 % 4096 = 0

/-- The completion queue that a command describes, empty. -/
def newCq (e : List Nat) : Cq :=
  { base := sqeDw e 6 + sqeDw e 7 * 2 ^ 32, size := sqeDw e 10 / 65536 + 1, head := 0, tail := 0, vec := sqeDw e 11 / 65536, agg := 0,
    phase := true, ien := bit (sqeDw e 11) 1 }

/-- The submission queue that a command describes, empty. -/
def newSq (e : List Nat) : Sq :=
  { base := sqeDw e 6 + sqeDw e 7 * 2 ^ 32, size := sqeDw e 10 / 65536 + 1, head := 0, tail := 0, cq := sqeDw e 11 / 65536,
    prio := bits (sqeDw e 11) 1 2, inflight := 0, stop := false }

section Queues

variable {q : Nat}

/-- A completion queue whose fields pass the checks is created (R432). -/
theorem Dev.createCq_fits (hfits : QueueFits a.sqe (d.port a.port).cqs (d.port a.port).maxCq) (hvec : sqeDw a.sqe 11 / 65536 ≤ 256) :
    d.createCq a = (d.setPort a.port { d.port a.port with
      cqs := Tab.put (d.port a.port).cqs (sqeDw a.sqe 10 % 65536) (newCq a.sqe) }).endOwn a 0 0 0 := by
  obtain ⟨hlow, hhigh, hfree, hsome, hsize, hcontiguous, haligned⟩ := hfits
  simp only [Dev.createCq, newCq, isIoQueue_of_absent hfree, hcontiguous, haligned, Nat.one_le_iff_ne_zero.mp hlow,
    Nat.not_lt.mpr hhigh, Nat.one_le_iff_ne_zero.mp hsome, Nat.not_lt.mpr hsize, Nat.not_lt.mpr hvec, Bool.not_true,
    Bool.false_eq_true, ne_eq, not_true_eq_false, or_self, if_false, if_true]

/-- One whose identifier is taken is not (R424). -/
theorem Dev.createCq_taken (hq : sqeDw a.sqe 10 % 65536 = q) (hlow : 1 ≤ q) (htaken : (Tab.look (d.port a.port).cqs q).isSome = true) :
    d.createCq a = d.endOwn a (status 1 1 true) 0 0 := by
  simp only [Dev.createCq, hq, isIoQueue_of_present hlow htaken, or_true, if_true]
  rfl

/-- A submission queue whose fields pass the checks, and whose completion queue exists, is created (R432). -/
theorem Dev.createSq_fits (hfits : QueueFits a.sqe (d.port a.port).sqs (d.port a.port).maxSq)
    (hcq : isIoQueue (d.port a.port).cqs (sqeDw a.sqe 11 / 65536) = true) :
    d.createSq a = (d.setPort a.port { d.port a.port with
      sqs := Tab.put (d.port a.port).sqs (sqeDw a.sqe 10 % 65536) (newSq a.sqe) }).endOwn a 0 0 0 := by
  obtain ⟨hlow, hhigh, hfree, hsome, hsize, hcontiguous, haligned⟩ := hfits
  simp only [Dev.createSq, newSq, isIoQueue_of_absent hfree, hcontiguous, haligned, hcq, Nat.one_le_iff_ne_zero.mp hlow,
    Nat.not_lt.mpr hhigh, Nat.one_le_iff_ne_zero.mp hsome, Nat.not_lt.mpr hsize, Bool.not_true, Bool.false_eq_true, ne_eq,
    not_true_eq_false, or_self, if_false, if_true]

/-- A completion queue to which no submission queue maps is deleted (R432). -/
theorem Dev.deleteCq_unmapped (hq : sqeDw a.sqe 10 % 65536 = q) (hcq : isIoQueue (d.port a.port).cqs q = true)
    (hunmapped : (d.port a.port).sqs.any (fun s => s.2.cq == q) = false) :
    d.deleteCq a = (d.setPort a.port { d.port a.port with cqs := Tab.del (d.port a.port).cqs q }).endOwn a 0 0 0 := by
  simp only [Dev.deleteCq, hq, hcq, hunmapped, Bool.not_true, Bool.false_eq_true, if_false, if_true]

/-- A submission queue that is deleted stops, and its commands in flight are treated as by an Abort (R456). -/
theorem Dev.deleteSq_stops {x : Sq} {i : Nat} (hq : sqeDw a.sqe 10 % 65536 = q) (hio : q ≠ 0)
    (hqueue : Tab.look (d.port a.port).sqs q = some x)
    (hring : (d.hif.adm.find? fun b => b.fseq == a.fseq).bind Adm.ring = some i) {y : Port}
    (hy : y = { d.port a.port with
      sqs := Tab.put (d.port a.port).sqs q { x with stop := true }, dels := (d.port a.port).dels ++ [(q, a.fseq)] }) :
    d.deleteSq a =
      (((d.markAdm i 0 0 0).hif.cmds.filter fun c => c.port == a.port && c.sq == q).foldl
        (fun z c => (z.abortCmd c a.fseq (status 0 8 false)).1) ((d.markAdm i 0 0 0).setPort a.port y)).deletions a.port := by
  subst hy
  simp only [Dev.deleteSq, hq, hio, hqueue, hring, if_false]

end Queues

/-! ### Abort and Asynchronous Event Request -/

section Aborts

variable {q cid : Nat}

/-- An Abort of an I/O command in flight stops it, unless it runs to its end (R455). -/
theorem Dev.abort_inFlight {x : Cmd} (hq : sqeDw a.sqe 10 % 65536 = q) (hcid : sqeDw a.sqe 10 / 65536 = cid)
    (hqueue : (Tab.look (d.port a.port).sqs q).isSome = true) (hio : q ≠ 0)
    (hcmd : (d.hif.cmds.find? fun c => c.port == a.port && c.sq == q && c.cid == cid) = some x) {r : Dev × Bool}
    (hr : r = d.abortCmd x a.fseq (status 0 7 false)) :
    d.abort a = if r.2 then (r.1.endOwn a 0 1 0).count .HIF_ABCNT_NOTABORTED a.port
      else (r.1.endOwn a 0 0 0).count .HIF_ABCNT_ABORTED a.port := by
  have hexists : (Tab.look (d.port a.port).sqs q).isNone = false := by simpa using hqueue
  simp only [Dev.abort, hq, hcid, hexists, hio, hcmd, ← hr, Bool.false_eq_true, if_false]

/-- One that is not in flight is marked, to be aborted when it is fetched (R455). -/
theorem Dev.abort_unfetched (hq : sqeDw a.sqe 10 % 65536 = q) (hcid : sqeDw a.sqe 10 / 65536 = cid)
    (hqueue : (Tab.look (d.port a.port).sqs q).isSome = true) (hio : q ≠ 0)
    (hcmd : (d.hif.cmds.find? fun c => c.port == a.port && c.sq == q && c.cid == cid) = none) :
    d.abort a = (d.setPort a.port { d.port a.port with marks := (d.port a.port).marks ++ [(q, cid)] }).endOwn a 0 0 0 := by
  have hexists : (Tab.look (d.port a.port).sqs q).isNone = false := by simpa using hqueue
  simp only [Dev.abort, hq, hcid, hexists, hio, hcmd, Bool.false_eq_true, if_false]

/-- An event request waits while no event does (R432). -/
theorem Dev.eventRequest_waits (hroom : (d.port a.port).aers.length < 4) (hnone : (d.port a.port).aes = []) :
    d.eventRequest a = d.setPort a.port { d.port a.port with aers := (d.port a.port).aers ++ [a.fseq] } := by
  simp only [Dev.eventRequest, Nat.not_le.mpr hroom, hnone, if_false]

/-- It completes with an event that waits, whose type is then masked. -/
theorem Dev.eventRequest_completes {w v : Nat} {rest : List (Nat × Nat)} (hroom : (d.port a.port).aers.length < 4)
    (hevent : (d.port a.port).aes = (w, v) :: rest) :
    d.eventRequest a =
      (d.setPort a.port { d.port a.port with aes := rest, masked := (d.port a.port).masked ++ [w % 8] }).endOwn a 0 w v := by
  simp only [Dev.eventRequest, Nat.not_le.mpr hroom, hevent, if_false]

end Aborts

/-! ### Features -/

section Features

variable {fid v : Nat}

/-- A Set Features that a check refuses ends with its status (R434, R435). -/
theorem Dev.setFeatures_refused {st : Nat} (hrefused : d.setRefusal (d.port a.port) a.sqe = st) (hst : st ≠ 0) :
    d.setFeatures a = d.endOwn a st 0 0 := by
  simp only [Dev.setFeatures, hrefused, hst, ne_eq, not_false_eq_true, if_true]

/-- A value of one namespace is kept with the fetch from which it applies (R435). -/
theorem Dev.setFeatures_namespace (hok : d.setRefusal (d.port a.port) a.sqe = 0) (hfid : sqeDw a.sqe 10 % 256 = 5) {e : NsFeat}
    (he : e = { ns := sqeNs a.sqe, fid := 5, fseq := a.fseq, val := sqeDw a.sqe 11 % 2 ^ 17 }) :
    d.setFeatures a = ({ d with hif := { d.hif with feats := d.hif.feats ++ [e] } } : Dev).endOwn a 0 0 0 := by
  subst he
  simp only [Dev.setFeatures, hok, hfid, ne_eq, not_true_eq_false, if_false, if_true, featMask]

/-- A value of a controller is kept under its identifier (R434); Number of Queues and Power Management do more. -/
theorem Dev.setFeatures_controller (hok : d.setRefusal (d.port a.port) a.sqe = 0) (hfid : sqeDw a.sqe 10 % 256 = fid)
    (hv : sqeDw a.sqe 11 = v) (hnamespace : fid ≠ 5) (hqueues : fid ≠ 7) (hpower : fid ≠ 2) :
    d.setFeatures a = (d.setPort a.port { d.port a.port with
      feats := Tab.put (d.port a.port).feats (featKey fid v) (featMask fid v) }).endOwn a 0 0 0 := by
  simp only [Dev.setFeatures, hok, hfid, hv, hnamespace, hqueues, beq_false_of_ne hqueues, beq_false_of_ne hpower, Bool.or_false,
    Bool.false_and, Bool.false_eq_true, ne_eq, not_true_eq_false, if_false]

/-- The present value of a feature of a controller, without a selector of its own (R434). -/
theorem Dev.getFeatures_current (hserved : featIds.contains (sqeDw a.sqe 10 % 256) = true) (hsel : bits (sqeDw a.sqe 10) 8 3 = 0)
    (hnamespace : sqeDw a.sqe 10 % 256 ≠ 5) (hthreshold : sqeDw a.sqe 10 % 256 ≠ 4) (hvector : sqeDw a.sqe 10 % 256 ≠ 9) :
    d.getFeatures a = d.endOwn a 0 (d.featNow (d.port a.port) a.sqe a.fseq) 0 := by
  simp only [Dev.getFeatures, hserved, hsel, hnamespace, hthreshold, hvector, beq_self_eq_true, Bool.true_or, Bool.not_true,
    Bool.or_self, Bool.false_eq_true, false_and, or_self, if_false, if_true]

end Features

/-! ### Identify and Diagnostic Window Unlock -/

theorem Dev.identify_answers {l : List (Nat × Nat × Nat)} (hdata : d.identData a = (0, l)) :
    d.identify a = (d.emit (.hostData a.port a.fseq 4096 l)).endOwn a 0 0 0 := by
  simp only [Dev.identify, hdata, if_true]

theorem Dev.identify_refused {st : Nat} {l : List (Nat × Nat × Nat)} (hdata : d.identData a = (st, l)) (hst : st ≠ 0) :
    d.identify a = d.endOwn a st 0 0 := by
  simp only [Dev.identify, hdata, hst, if_false]

/-- The window of the command's port opens for its duration, and that is recorded (R461). -/
theorem Dev.windowUnlock_opens {n : Nat} (hn : sqeDw a.sqe 10 % 4096 = n) (hsome : 1 ≤ n) (hmost : n ≤ 3600)
    (hallowed : d.rd .SYS_BAR2CTL_DISABLE = 0) :
    d.windowUnlock a =
      ((({ d with bus := { d.bus with unlock := Tab.put d.bus.unlock a.port n } } : Dev).event 0x300 a.port n 0 0).endOwn a
        0 0 0).beginWait (.bar2 a.port) := by
  simp only [Dev.windowUnlock, hn, Nat.not_lt.mpr hmost, Nat.one_le_iff_ne_zero.mp hsome, Dev.on_eq_false hallowed, Bool.false_eq_true,
    if_false]

/-- A duration of 0 locks it (R461). -/
theorem Dev.windowUnlock_locks (hzero : sqeDw a.sqe 10 % 4096 = 0) : d.windowUnlock a = (d.lockBar2 a.port 5).endOwn a 0 0 0 := by
  simp only [Dev.windowUnlock, hzero, Nat.not_lt_zero, if_false, if_true]

end Sys2Proof.Machine
end

section
/-! The admin commands that firmware serves (R438, R460, R462): what each does with its ring entry. -/

namespace Sys2Proof.Machine

variable {d : Dev} {a : Adm} {i : Nat}

/-- The command enters the ring, and firmware acts on its entry (R460). -/
theorem exec_firmware {c : Instr} {s : State} {e : Dev} (op : Nat) (f : Dev → Adm → Nat → Dev) (hmet : s.dev.met = d)
    (hfront : d.admFront = some a) (hop : sqeOp a.sqe = op)
    (hring : ((d.ringAdm a).hif.adm.find? fun b => b.fseq == a.fseq).bind Adm.ring = some i) (h : f (d.ringAdm a) a i = e)
    (hrun : exec c s = s.run (·.firmwareRow op f) := by rfl) : exec c s = .next (s.after e) :=
  exec_of_met (·.firmwareRow op f) hmet
    ((Dev.adminRow_front _ hfront hop).trans (by simp only [hring, h])) hrun

/-- The first dword of the Firmware Slot page is firmware's, as it stands. -/
theorem Dev.getLogPage_firmwareSlot (hlid : sqeDw a.sqe 10 % 256 = 3) (hcount : sqeDw a.sqe 10 / 65536 = 0)
    (hupper : sqeDw a.sqe 11 % 65536 = 0) (hofs : sqeDw a.sqe 12 = 0) (hofsHigh : sqeDw a.sqe 13 = 0) (base : Nat) (page : List Byte) :
    d.getLogPage a i base page = (d.putBytes base ((page ++ List.replicate 4 0).take 4)).firmwareEntry i 0 base 4 := by
  have hserved : 3 ∈ logPages := by decide
  simp [Dev.getLogPage, Dev.logPage, hlid, hcount, hupper, hofs, hofsHigh, hserved]

/-- Word of a ring entry at byte `k`. -/
def Dev.admWord (d : Dev) (i k : Nat) : Nat := d.ld32 (d.admAddr i + k)

/-- Base of the data that an entry names. -/
def Dev.admBase (d : Dev) (i : Nat) : Nat := d.admWord i 96 + d.admWord i 100 * 2 ^ 32

/-- HIF moves an entry's data, and completes it with the dwords that firmware has put there (R460). -/
theorem Dev.adminDone_entry (data : List Byte)
    (hentry : (d.hif.adm.find? fun b => b.ring == some i && [0x02, 0x10, 0x11, 0xC6].contains (sqeOp b.sqe)) = some a) :
    d.adminDone i data =
      (if d.admWord i 104 = 0 ∨ sqeOp a.sqe = 0x10 then d
        else if sqeOp a.sqe = 0x11 then d.putBytes (d.admBase i) (data.take (d.admWord i 104))
        else d.emit (.hostBytes a.port a.fseq (d.ldBytes (d.admBase i) (d.admWord i 104)))).endAdmin a (d.admWord i 88 / 2 ^ 17)
          (d.admWord i 80) (d.admWord i 84) := by
  rw [Dev.adminDone, hentry]
  rfl

end Sys2Proof.Machine
end

section
/-! The statements of 12_host_interface that hold. -/

namespace Sys2Proof.Machine

/-- Settles O41: each clause is one rule of a link, a reset, a shutdown, a doorbell or an access to configuration space. -/
theorem hostPortsAndResets : Obligations.HostPortsAndResets := by
  unfold Obligations.HostPortsAndResets
  refine ⟨?linkUp, ?linkDown, ?functionReset, ?enable, ?reset, ?subsystemReset, ?perst, ?normal, ?abrupt, ?error, ?pause, ?tail, ?head,
    ?badDoorbell, ?coalesce, ?configRead, ?configWrite, ?tableRead, ?tableWrite, ?cicada⟩
  case linkUp =>
    rintro s _ p speed width rfl hexists hdown
    rw [exec_pcieLinkUp, if_neg (by simp [hexists, Dev.on_eq_false hdown])]
  case linkDown =>
    rintro s _ p rfl hexists hup
    rw [exec_linkDown, if_neg (by simp [hexists, Dev.on_eq_true hup])]
    rfl
  case functionReset =>
    rintro s _ p rfl hexists
    rw [exec_functionLevelReset, if_pos hexists]
    rfl
  case enable =>
    exact fun s d p cc aqa asq acq hmet hexists hoff hon =>
      exec_of_met (·.controllerEnable p.val cc.toNat aqa.toNat asq.toNat acq.toNat) hmet
        (Dev.controllerEnable_disabled hexists hoff hon _ _ _ rfl)
  case reset =>
    rintro s _ p rfl hon
    rw [exec_controllerReset, if_pos hon]
  case subsystemReset =>
    rintro s _ rfl
    rfl
  case perst =>
    rintro s _ p rfl hexists hup
    rw [exec_fundamentalReset, if_neg (by simp [hexists]), if_pos (Dev.on_eq_true hup)]
  case normal =>
    exact fun s d p hmet hexists hon hfetching =>
      exec_of_met (·.normalShutdown p.val) hmet (Dev.normalShutdown_enabled hexists hon hfetching rfl)
  case abrupt =>
    exact fun s d p hmet hexists hon => exec_of_met (·.abruptShutdown p.val) hmet (Dev.abruptShutdown_enabled hexists hon)
  case error =>
    rintro s _ p u rfl hexists
    rw [exec_pcieError, if_neg (by simp [hexists])]
  case pause => exact fun s d on hmet => exec_of_met (·.wrb .HIF_CTL_PAUSE 0 on) hmet rfl
  case tail =>
    exact fun s d p q v x hmet hready hqueue hv =>
      exec_of_met (·.doorbell p.val q.val false v.toNat) hmet (Dev.doorbell_tail hready hqueue hv)
  case head =>
    exact fun s d p q v x hmet hready hqueue hv =>
      exec_of_met (·.doorbell p.val q.val true v.toNat) hmet (Dev.doorbell_head hready hqueue hv)
  case badDoorbell =>
    exact fun s d p q cq v hmet hready hnone =>
      exec_of_met (·.doorbell p.val q.val cq v.toNat) hmet (Dev.doorbell_noQueue hready hnone)
  case coalesce =>
    rintro s _ p v after rfl hgathered hover
    exact exec_of_met (fun d => (d.advance after).coalesceTimeout p.val v.val) rfl (Dev.coalesceTimeout_over hgathered hover rfl)
  case configRead =>
    exact fun s d p k hmet hexists hup =>
      exec_of_met (·.configAccess p.val (.read k)) hmet (if_neg (Dev.configAccess_guard hexists hup))
  case configWrite =>
    exact fun s d p k v hmet hexists hup =>
      exec_of_met (·.configAccess p.val (.write k v)) hmet (if_neg (Dev.configAccess_guard hexists hup))
  case tableRead =>
    exact fun s d p k hmet hexists hup =>
      exec_of_met (·.configAccess p.val (.tableRead k)) hmet (if_neg (Dev.configAccess_guard hexists hup))
  case tableWrite =>
    exact fun s d p k v hmet hexists hup =>
      exec_of_met (·.configAccess p.val (.tableWrite k v)) hmet (if_neg (Dev.configAccess_guard hexists hup))
  case cicada =>
    exact fun s d hmet hready hholds =>
      exec_of_met (fun d => d.cicadaEntry d.hostRests) hmet (Dev.cicadaEntry_holds hready hholds)

/-- Settles O43: each clause is one row of R432 on the device with the command in the ring. -/
theorem hostQueuesAndAbort : Obligations.HostQueuesAndAbort := by
  unfold Obligations.HostQueuesAndAbort
  refine ⟨?createCq, ?createCqTaken, ?createSq, ?deleteCq, ?deleteSq, ?abort, ?abortUnfetched, ?eventWaits, ?eventCompletes⟩
  case createCq =>
    exact fun s d a hmet hfront hop hlow hhigh hfree hsome hsize hcontiguous haligned hvec => exec_admin 0x05 Dev.createCq hmet hfront hop
      (Dev.createCq_fits ⟨hlow, hhigh, hfree, hsome, hsize, hcontiguous, haligned⟩ hvec)
  case createCqTaken =>
    exact fun s d a hmet hfront hop htaken hlow =>
      exec_admin 0x05 Dev.createCq hmet hfront hop (Dev.createCq_taken rfl hlow htaken)
  case createSq =>
    exact fun s d a hmet hfront hop hlow hhigh hfree hsome hsize hcontiguous haligned hcqLow hcq => exec_admin 0x01 Dev.createSq hmet
      hfront hop (Dev.createSq_fits ⟨hlow, hhigh, hfree, hsome, hsize, hcontiguous, haligned⟩ (isIoQueue_of_present hcqLow hcq))
  case deleteCq =>
    exact fun s d a hmet hfront hop hlow hcq hunmapped => exec_admin 0x04 Dev.deleteCq hmet hfront hop
      (Dev.deleteCq_unmapped rfl (isIoQueue_of_present hlow hcq) hunmapped)
  case deleteSq =>
    exact fun s d a x i hmet hfront hop hio hqueue hring =>
      exec_admin 0x00 Dev.deleteSq hmet hfront hop (Dev.deleteSq_stops rfl hio hqueue hring rfl)
  case abort =>
    exact fun s d a x hmet hfront hop hqueue hio hcmd =>
      exec_admin 0x08 Dev.abort hmet hfront hop (Dev.abort_inFlight rfl rfl hqueue hio hcmd rfl)
  case abortUnfetched =>
    exact fun s d a hmet hfront hop hqueue hio hcmd =>
      exec_admin 0x08 Dev.abort hmet hfront hop (Dev.abort_unfetched rfl rfl hqueue hio hcmd)
  case eventWaits =>
    exact fun s d a hmet hfront hop hroom hnone =>
      exec_admin 0x0C Dev.eventRequest hmet hfront hop (Dev.eventRequest_waits hroom hnone)
  case eventCompletes =>
    exact fun s d a w v rest hmet hfront hop hroom hevent =>
      exec_admin 0x0C Dev.eventRequest hmet hfront hop (Dev.eventRequest_completes hroom hevent)

/-- Settles O44: each clause is one row of R432 on the device with the command in the ring, or firmware's part of one. -/
theorem hostFeaturesAndPages : Obligations.HostFeaturesAndPages := by
  unfold Obligations.HostFeaturesAndPages
  refine ⟨?set, ?setNamespace, ?setRefused, ?get, ?identify, ?identifyRefused, ?commit, ?download, ?logPage, ?firmwareSlot, ?ledger,
    ?done, ?unlock, ?lock⟩
  case set =>
    exact fun s d a hmet hfront hop hok hnamespace hqueues hpower => exec_admin 0x09 Dev.setFeatures hmet hfront hop
      (Dev.setFeatures_controller hok rfl rfl hnamespace hqueues hpower)
  case setNamespace =>
    exact fun s d a hmet hfront hop hok hfid =>
      exec_admin 0x09 Dev.setFeatures hmet hfront hop (Dev.setFeatures_namespace hok hfid rfl)
  case setRefused =>
    exact fun s d a st hmet hfront hop hrefused hst =>
      exec_admin 0x09 Dev.setFeatures hmet hfront hop (Dev.setFeatures_refused hrefused hst)
  case get =>
    exact fun s d a hmet hfront hop hserved hsel hnamespace hthreshold hvector => exec_admin 0x0A Dev.getFeatures hmet hfront hop
      (Dev.getFeatures_current hserved hsel hnamespace hthreshold hvector)
  case identify =>
    exact fun s d a l hmet hfront hop hdata => exec_admin 0x06 Dev.identify hmet hfront hop (Dev.identify_answers hdata)
  case identifyRefused =>
    exact fun s d a st l hmet hfront hop hdata hst => exec_admin 0x06 Dev.identify hmet hfront hop (Dev.identify_refused hdata hst)
  case commit =>
    exact fun s d a i hmet hfront hop hring => exec_firmware 0x10 (fun d _ _ => d) hmet hfront hop hring rfl
  case download =>
    exact fun s d a i hmet hfront hop hring => exec_firmware 0x11 (fun d _ _ => d) hmet hfront hop hring rfl
  case logPage =>
    exact fun s d base page a i hmet hfront hop hring =>
      exec_firmware 0x02 (fun d a i => d.getLogPage a i base.toNat page) hmet hfront hop hring rfl
  case firmwareSlot =>
    exact fun s d base page a i hmet hfront hop hring hlid hcount hupper hofs hofsHigh =>
      exec_firmware 0x02 (fun d a i => d.getLogPage a i base.toNat page) hmet hfront hop hring
        (Dev.getLogPage_firmwareSlot hlid hcount hupper hofs hofsHigh base.toNat page)
  case ledger =>
    exact fun s d base a i hmet hfront hop hring =>
      exec_firmware 0xC6 (fun d a i => d.ledgerRead a i base.toNat) hmet hfront hop hring rfl
  case done =>
    exact fun s d k data a hmet hentry => exec_of_met (·.adminDone k.val data) hmet (Dev.adminDone_entry data hentry)
  case unlock =>
    exact fun s d a hmet hfront hop hsome hmost hallowed =>
      exec_admin 0xC4 Dev.windowUnlock hmet hfront hop (Dev.windowUnlock_opens rfl hsome hmost hallowed)
  case lock =>
    exact fun s d a hmet hfront hop hzero => exec_admin 0xC4 Dev.windowUnlock hmet hfront hop (Dev.windowUnlock_locks hzero)

end Sys2Proof.Machine
end

section
/-! Periodic events: the device that an event acts on once it is due. -/

namespace Sys2Proof.Machine

/-- The next interval of periodic timer `t` counts from the end of this one. -/
def Dev.nextInterval (d : Dev) (t : Timer) (n : Nat) : Dev :=
  { d with timers := (d.timers.filter fun x => x.1 != t) ++ [(t, d.waitFrom t + n)] }

/-- A periodic event that is due acts on the device with its next interval begun. -/
theorem Dev.periodic_acts {d : Dev} {t : Timer} {n : Nat} (h : d.waitFrom t + n ≤ d.now) (f : Dev → Dev) :
    d.periodic t n f = f (d.nextInterval t n) := Dev.periodic_due h f

end Sys2Proof.Machine
end

section
/-! Reservations, overlap and track locks (R467-R490). -/

namespace Sys2Proof.Machine

section Reservations

variable {d : Dev}

/-- A request of 1 to 32 granules for a command that overlap knows, or an internal one, waits (R471). -/
theorem Dev.resRequest_waits {m fseq w : Nat} (hsome : bits w 0 6 ≠ 0) (hfits : bits w 0 6 ≤ 32)
    (hknown : bit w 7 = true ∨ (d.ovlOf fseq).isSome = true) {r : ResReq}
    (hr : r = { master := m, tag := bits w 8 8, gran := bits w 0 6, fseq := fseq, order := d.sch.order, internal := bit w 7,
                cleared := bit w 7 }) :
    d.resRequest m fseq w = { d with sch := { d.sch with reqs := d.sch.reqs ++ [r], order := d.sch.order + 1 } } := by
  subst hr
  have hproper : ¬(bits w 0 6 = 0 ∨ 32 < bits w 0 6 ∨ (!bit w 7 && (d.ovlOf fseq).isNone) = true) := by
    rintro (hnone | hlong | hunknown)
    · exact hsome hnone
    · exact absurd hfits (Nat.not_le.mpr hlong)
    · rcases hknown with hinternal | hlisted
      · simp [hinternal] at hunknown
      · simp [Option.isNone_iff_eq_none] at hunknown
        simp [hunknown.2] at hlisted
  exact if_neg hproper

theorem Dev.resRequest_empty {w : Nat} (hnone : bits w 0 6 = 0) (m fseq : Nat) :
    d.resRequest m fseq w = d.resReply m (bits w 8 8) 0 0 true := if_pos (.inl hnone)

theorem Dev.schGrants_of {d : Dev} (h : d.rd .SCH_STAT_STATE ≠ 8) : d.schGrants = true := by simpa [Dev.schGrants, Dev.schState] using h

/-- The request of reservation `r` has left the queue, and the reservation `v` stands (R474). -/
def Dev.reserved (d : Dev) (r : ResReq) (v : Resv) : Dev :=
  let d1 := { d with sch := { d.sch with reqs := d.sch.reqs.erase r, resv := d.sch.resv ++ [v] } }
  if r.internal then d1.beginWait (.resv v.handle) else d1

/-- The first cleared request is granted where granules and a handle are free and the limits allow (R473, R474). -/
theorem Dev.resGrant_fits {r : ResReq} {base handle : Nat} (hgrants : d.schGrants = true)
    (hbest : bestOf d.reqBefore (d.sch.reqs.filter ResReq.cleared) = some r) (hfit : d.firstFit r.gran = some base)
    (hhandle : d.freeHandle r.internal = some handle) (hallow : d.granulesAllow r.internal r.gran = true) {v : Resv}
    (hv : v = { handle := handle, base := base, gran := r.gran, fseq := r.fseq, internal := r.internal, aged := false }) {d1 : Dev}
    (hd1 : d1 = d.reserved r v) :
    d.resGrant = d1.resReply r.master r.tag handle (d1.rd .SCH_BUFLO_ADDR + d1.rd .SCH_BUFHI_ADDR * 2 ^ 16 + base) false := by
  subst hd1 hv
  simp only [Dev.resGrant, hgrants, hbest, hfit, hhandle, hallow, Bool.not_true, Bool.false_eq_true, if_false]
  rfl

/-- The first job that waits for a free lock gets it, and is ready (R476); a write needs an entry of the working set besides. -/
theorem Dev.lockGrant_free {surf track : Nat} {x : SJob} (hgrants : d.schGrants = true)
    (hfree : Tab.look d.sch.locks (lockKey surf track) = none)
    (hbest : bestOf d.lockBefore (d.sch.jobs.filter fun x => x.ready.isNone && x.job.surf == surf && x.job.track == track &&
      d.lockable x.job && (x.job.kind != 1 || (d.on .CFG_STAT_RESTORED && d.dataReady x.job))) = some x)
    (hkind : x.job.kind ≠ 1) :
    d.lockGrant surf track =
      ({ d with sch := { d.sch with locks := Tab.put d.sch.locks (lockKey surf track) (d.lockBy x.job) } }).makeReady x.job := by
  simp only [Dev.lockGrant, hgrants, hfree, hbest, bne_iff_ne.mpr hkind, Bool.not_true, Option.isSome_none, Bool.or_self,
    Bool.false_eq_true, if_false, if_true]

/-- A HOST command that has waited LIMIT is promoted and counted (R490). -/
theorem Dev.promote_aged {f : Nat} {o : Ovl} (hknown : d.ovlOf f = some o) (hrank : o.rank ≠ 0)
    (hage : o.time + d.rd .SCH_AGE_LIMIT * 12500000 ≤ d.now) :
    d.promote f =
      ({ d with sch := { d.sch with ovl := d.sch.ovl.map fun (e : Ovl) => if e.fseq == f then { e with promoted := true } else e } }).count
        .SCH_CNT_PROMOTED := by
  have hwaited : ¬(o.rank = 0 ∨ d.now < o.time + d.rd .SCH_AGE_LIMIT * 12500000) := by omega
  simp only [Dev.promote, hknown, hwaited, if_false]

end Reservations

/-- Settles O28: each clause is one rule of a request, of overlap, of a grant or of ageing, once its condition is decided. -/
theorem reservations : Obligations.Reservations := by
  unfold Obligations.Reservations
  refine ⟨?waits, ?refused, ?clears, ?barred, ?grant, ?lock, ?hostAges, ?internalAges⟩
  case waits =>
    intro s d m w hmet hsome hfits hknown
    exact exec_of_met (fun d => (d.dropLo m.id .SCH_RQLO 0).resRequest m.id (d.loHalf m.id .SCH_RQLO 0) w.toNat) hmet
      (Dev.resRequest_waits (d := d.dropLo m.id .SCH_RQLO 0) hsome hfits hknown rfl)
  case refused =>
    intro s d m w hmet hnone
    exact exec_of_met (fun d => (d.dropLo m.id .SCH_RQLO 0).resRequest m.id (d.loHalf m.id .SCH_RQLO 0) w.toNat) hmet
      (Dev.resRequest_empty hnone _ _)
  case clears => exact fun s d f hmet hclears => exec_of_met (·.overlapClear f.toNat) hmet (if_neg (by simp [hclears]))
  case barred => exact fun s d f hmet hbarred => exec_of_met (·.overlapClear f.toNat) hmet (if_pos (by simp [hbarred]))
  case grant =>
    intro s d r base handle hmet hstate hbest hfit hhandle hallow
    exact exec_of_met Dev.resGrant hmet (Dev.resGrant_fits (Dev.schGrants_of hstate) hbest hfit hhandle hallow rfl rfl)
  case lock =>
    intro s d surf track x hmet hstate hfree hbest hkind
    exact exec_of_met (·.lockGrant surf.val track.val) hmet (Dev.lockGrant_free (Dev.schGrants_of hstate) hfree hbest hkind)
  case hostAges =>
    rintro s _ f o after rfl hknown hrank hage
    exact exec_of_met (fun d => (d.advance after).promote f.toNat) rfl (Dev.promote_aged hknown hrank hage)
  case internalAges =>
    rintro s _ k after rfl hwaited
    exact exec_of_met (fun d => (d.advance after).ageInternal k) rfl (if_neg (by simp [hwaited]))

end Sys2Proof.Machine
end

section
/-! Dispatch, seeks, calibration windows and joining (R469-R506, R600). -/

namespace Sys2Proof.Machine

section Dispatch

variable {d : Dev} {a : Nat}

/-- The link's frame that selects a head waits beside the registers. -/
@[simp] theorem Dev.armSelect_rd (d : Dev) (q surf : Nat) (wen : Bool) (f : Fld) (i : Nat) : (d.armSelect q surf wen).rd f i = d.rd f i := rfl

/-- The job as it is dispatched: with its zone, head, pair, start angle, urgency and guarantee load (R481, R487). -/
def Dev.dispatchedJob (d : Dev) (x : SJob) (a m : Nat) : Job :=
  let k : Job := match d.zoneOf x.job.surf x.job.track with | some z => d.withZone x.job z | none => x.job
  { k with head := 32 * a + x.job.surf, pair := m, start := d.startAngle x a, urg := d.jobRank x == 0, gl := (d.loadOf x).getD 0 }

/-- Dispatch takes the job off the list, grants lanes and target, selects the head, adds the load and hands the job to its slot
(R480-R487). -/
theorem Dev.dispatch_eq (d : Dev) (x : SJob) (a q m : Nat) {j : Job} (hj : j = d.dispatchedJob x a m) {d1 d2 d3 d4 : Dev}
    (hd1 : d1 = ((d.noteWait x).dropJob x).recovTake x.job)
    (hd2 : d2 = { d1 with sch := { d1.sch with turn := a }, hlt := { d1.hlt with jobFirst := d1.hlt.jobFirst.filter (· != j.desc) } })
    (hd3 : d3 = (d2.grantLanes q (32 * a + x.job.surf) m j.kind j.spr).grantTarget (32 * a + x.job.surf) j.track (j.kind == 1))
    (hd4 : d4 = ((d3.setAct a { d3.act a with ref := none }).wr .SRV_HSTAT_BOUND (32 * a + x.job.surf) 1).armSelect q x.job.surf
      (j.kind == 1)) :
    d.dispatch x a q m =
      ((d4.wr .SCH_ACORN_LOAD 0 (d4.rd .SCH_ACORN_LOAD + (d.loadOf x).getD 0)).wrBit .SCH_ASTAT_BUSY a (q % 8) true).loadSeq q j := by
  subst hd4 hd3 hd2 hd1 hj
  cases hzone : d.zoneOf x.job.surf x.job.track with
  | none => simp only [Dev.dispatch, Dev.dispatchedJob, hzone, Dev.armSelect_rd]
  | some z => simp only [Dev.dispatch, Dev.dispatchedJob, hzone, Dev.armSelect_rd]

theorem Dev.jobDispatch_some {x : SJob} {q m : Nat} (hnext : d.nextDispatch = some (x, a, q, m)) : d.jobDispatch = d.dispatch x a q m := by
  simp only [Dev.jobDispatch, hnext]

theorem Dev.jobDispatch_none (hnone : d.nextDispatch = none) : d.jobDispatch = d.schAct := by simp only [Dev.jobDispatch, hnone]

/-- The actuator seeks for job `x`. -/
def Dev.seekNoted (d : Dev) (a : Nat) (x : SJob) : Dev := { d with sch := { d.sch with seekFor := Tab.put d.sch.seekFor a x.job.order } }

/-- An idle actuator in following mode seeks for its job when power allows and it is the job's turn (R485, R486). -/
theorem Dev.seekGrant_allowed {x : SJob} (hruns : d.schRuns = true) (hidle : d.actIdle a = true) (hmode : d.rd .SRV_STAT_MODE a = 2)
    (hjob : d.seekJob a = some x) (hpower : (d.seekNoted a x).movePower = true) (hturn : (d.seekNoted a x).powerTurn x = true) {d1 : Dev}
    (hd1 : d1 = { d.seekNoted a x with sch := { (d.seekNoted a x).sch with drainFor := Tab.del (d.seekNoted a x).sch.drainFor a } }) :
    d.seekGrant a =
      ((d1.setAct a { d1.act a with ref := some (32 * a + x.job.surf) }).vcmTarget a x.job.track).grantTarget (32 * a + x.job.surf)
        x.job.track (x.job.kind == 1) := by
  subst hd1
  unfold Dev.seekNoted at hpower hturn ⊢
  simp only [Dev.seekGrant, hruns, hidle, hmode, hjob, hpower, hturn, Bool.not_true, Bool.or_self, bne_self_eq_false, Bool.false_eq_true,
    if_false]

end Dispatch

section Calibration

variable {d : Dev} {a : Nat}

/-- The best request of a head that SCH has not heard of is submitted (R498). -/
theorem Dev.calSubmit_best {x : Nat × Nat}
    (hbest : bestOf (fun (x y : Nat × Nat) => decide (calRank x.2 < calRank y.2))
      (d.hlt.calReq.filter fun c => !(d.sch.cal.any fun r => r.head == c.1)) = some x) :
    d.calSubmit =
      { d with sch := { d.sch with cal := d.sch.cal ++ [{ head := x.1, cause := x.2, waited := 0, granted := false }] } } := by
  simp only [Dev.calSubmit, hbest]

/-- At an index a request that has waited too long is forced (R499). -/
theorem Dev.forcedTake_picks {r : CalReq} (hindex : d.indexSince (d.waitFrom .take) = true) {d1 : Dev}
    (hd1 : d1 = (d.beginWait .take).countIndex) (hpick : d1.forcePick = some r) :
    d.forcedTake = { d1 with sch := { d1.sch with forced := Tab.put d1.sch.forced (actOfHead r.head) r.head } } := by
  subst hd1
  simp only [Dev.forcedTake, hindex, hpick, Bool.not_true, Bool.false_eq_true, if_false]

/-- The forced revolution of a drained actuator begins, is counted and is granted (R499). -/
theorem Dev.forcedStart_grants {k : Nat} {r : CalReq} (hforced : Tab.look d.sch.forced a = some k)
    (hindex : d.indexSince (d.drainedAt a) = true) (hidle : d.actIdle a = true) (hnew : d.sch.revOn.contains a = false)
    (hfind : (d.sch.cal.find? fun r => r.head == k) = some r) {d1 : Dev} (hd1 : d1 = (d.endWait (.drained a)).beginWait (.forced a)) :
    d.forcedStart a = (({ d1 with sch := { d.sch with revOn := d.sch.revOn ++ [a] } } : Dev).count .SCH_CNT_FORCED).calGrant r := by
  subst hd1
  have hnow : (!d.indexSince (d.drainedAt a) || !d.actIdle a || d.sch.revOn.contains a) = false := by
    rw [hindex, hidle, hnew]
    rfl
  simp only [Dev.forcedStart, hforced, hnow, Bool.false_eq_true, if_false]
  split
  case h_1 found hfound => rw [Option.some.inj (hfound.symm.trans hfind)]; rfl
  case h_2 hnone => cases hfind.symm.trans hnone

/-- It ends at the next index: the calibrations still under way are abandoned (R499). -/
theorem Dev.forcedOver_ends (hindex : d.indexSince (d.waitFrom (.forced a)) = true) (hon : d.sch.revOn.contains a = true) {d1 : Dev}
    (hd1 : d1 = ((d.busySlots a).filter fun q => ((d.seq q).job.map fun j => j.kind == 2).getD false).foldl (fun x q => x.abandon q 1) d) :
    d.forcedOver a =
      { d1 with sch := { d1.sch with forced := Tab.del d1.sch.forced a
                                     revOn := d1.sch.revOn.filter (· != a)
                                     forceAt := Tab.put d1.sch.forceAt a d1.now } } := by
  subst hd1
  exact (if_pos hindex).trans (if_neg (by rw [hon]; decide))

/-- A lane that joins enters SERVICE at the next index, and so does a head (R506). -/
theorem Dev.unitJoins_lane {n : Fin 64} (hindex : d.indexSince (d.waitFrom (.joining (.lane n))) = true)
    (hjoins : d.rd .LANE_STAT_STATE n.val = unitJoin) :
    d.unitJoins (.lane n) = (d.endWait (.joining (.lane n))).laneState n.val unitServ := if_neg (by simp [hindex, hjoins])

theorem Dev.unitJoins_head {n : Fin 128} (hindex : d.indexSince (d.waitFrom (.joining (.head n))) = true)
    (hjoins : d.rd .SRV_HSTAT_STATE n.val = unitJoin) :
    d.unitJoins (.head n) = (d.endWait (.joining (.head n))).wr .SRV_HSTAT_STATE n.val unitServ := if_neg (by simp [hindex, hjoins])

end Calibration

/-- Settles O29: each clause is one rule of dispatch, of a seek, of a calibration window or of joining. -/
theorem dispatchAndCalibration : Obligations.DispatchAndCalibration := by
  unfold Obligations.DispatchAndCalibration
  refine ⟨?dispatch, ?idle, ?seek, ?submit, ?take, ?start, ?ends, ?lane, ?head⟩
  case dispatch =>
    intro s d x a q m hmet hnext
    exact exec_of_met Dev.jobDispatch hmet ((Dev.jobDispatch_some hnext).trans (Dev.dispatch_eq d x a q m rfl rfl rfl rfl rfl))
  case idle => exact fun s d hmet hnone => exec_of_met Dev.jobDispatch hmet (Dev.jobDispatch_none hnone)
  case seek =>
    intro s d a x hmet hruns hidle hmode hjob hpower hturn
    exact exec_of_met (·.seekGrant a.val) hmet (Dev.seekGrant_allowed hruns hidle hmode hjob hpower hturn rfl)
  case submit => exact fun s d x hmet hbest => exec_of_met Dev.calSubmit hmet (Dev.calSubmit_best hbest)
  case take =>
    rintro s _ r after rfl hindex hpick
    exact exec_of_met (fun d => (d.advance after).forcedTake) rfl (Dev.forcedTake_picks hindex rfl hpick)
  case start =>
    rintro s _ a k r after rfl hforced hindex hidle hnew hfind
    exact exec_of_met (fun d => (d.advance after).forcedStart a.val) rfl
      (Dev.forcedStart_grants hforced hindex hidle hnew hfind rfl)
  case ends =>
    rintro s _ a after rfl hindex hon
    exact exec_of_met (fun d => (d.advance after).forcedOver a.val) rfl (Dev.forcedOver_ends hindex hon rfl)
  case lane =>
    rintro s _ n after rfl hindex hjoins
    exact exec_of_met (fun d => (d.advance after).unitJoins (.lane n)) rfl (Dev.unitJoins_lane hindex hjoins)
  case head =>
    rintro s _ n after rfl hindex hjoins
    exact exec_of_met (fun d => (d.advance after).unitJoins (.head n)) rfl (Dev.unitJoins_head hindex hjoins)

end Sys2Proof.Machine
end

section
/-! Enabling, spin-up, Cicada idle and waking (R497-R503, R595). -/

namespace Sys2Proof.Machine

section Drive

variable {d : Dev}

theorem Dev.schEnable_running (hstate : d.rd .SCH_STAT_STATE ≠ 0) : d.schEnable true = d.wr .SCH_CTL_ENABLE 0 1 :=
  if_neg (by simpa [Dev.schState, Dev.wrb] using hstate)

/-- Enabling a stopped drive asks for a spin-up token (R501). -/
theorem Dev.schEnable_stopped (hstate : d.rd .SCH_STAT_STATE = 0) (hrange : d.rd .SPN_STAT_INRANGE = 0)
    (hslow : d.rd .SPN_MEAS_SPEED < 90000) : d.schEnable true = ((d.wr .SCH_CTL_ENABLE 0 1).toSch 1).askToken := by
  have hstarts : d.schEnable true = (d.wr .SCH_CTL_ENABLE 0 1).schStart := if_pos (by simpa [Dev.schState, Dev.wrb] using hstate)
  have hoff : (d.wr .SCH_CTL_ENABLE 0 1).on .SPN_STAT_INRANGE = false := Dev.on_eq_false (by simpa using hrange)
  have hstands : ¬ 90000 ≤ (d.wr .SCH_CTL_ENABLE 0 1).rd .SPN_MEAS_SPEED := by simpa using hslow
  rw [hstarts, Dev.schStart, if_neg (by simp [hoff]), if_neg hstands]

theorem Dev.schRestart_stopped (hstate : d.rd .SCH_STAT_STATE = 8) : d.schRestart = d.toSch 0 := if_pos (by simp [Dev.schState, hstate])

theorem Dev.schRestart_other (hstate : d.rd .SCH_STAT_STATE ≠ 8) : d.schRestart = d := if_neg (by simpa [Dev.schState] using hstate)

/-- The spindle has its target and the grant of a token that is held, and the spin-up is timed (R502). -/
def Dev.spinningUp (d : Dev) : Dev :=
  let d1 := { d with sch := { d.sch with spin := true, charge := true }, rck := { d.rck with alone := false } }
  ((d1.speedTarget (d1.rd .SCH_SPIN_TARGET)).spnGrant (d.rd .SCH_SPNGRANT_SPINMA)).beginWait .spinup

theorem Dev.tokenObtained_held (hstate : d.rd .SCH_STAT_STATE = 1) (hhold : d.rck.hold = true) (hnew : d.sch.spin = false) :
    d.tokenObtained = if d.spinningUp.rd .SCH_STAT_STATE = 1 then d.spinningUp.toSch 2 else d.spinningUp := by
  have hasks : ¬((!(d.schState == 1 || d.schState == 7) || !(d.rck.hold || d.rck.freed) || d.sch.spin) = true) := by
    simp [Dev.schState, hstate, hhold, hnew]
  rw [Dev.tokenObtained, if_neg hasks]
  simp only [Dev.spinningUp, Dev.schState, hhold, Bool.not_true, if_true, beq_iff_eq]

/-- In range the token goes back and the heads are loaded, with the units on again after Cicada idle (R502, R503). -/
theorem Dev.spindleInRange_loads (hspin : d.sch.spin = true) (hrange : d.rd .SPN_STAT_INRANGE ≠ 0) {d1 : Dev}
    (hd1 : d1 = ((({ d with sch := { d.sch with spin := false } } : Dev).releaseToken).spnGrant (d.rd .SCH_SPNGRANT_RUNMA)).toSch 3) :
    d.spindleInRange = (List.range 4).foldl Dev.askLoad (if d.flt.wdHold.isSome then d1.cicadaExit else d1) := by
  subst hd1
  exact if_neg (by simp [hspin, Dev.on_eq_true hrange])

theorem Dev.spinupTimeout_stops (hspin : d.sch.spin = true) (hslow : d.rd .SPN_STAT_INRANGE = 0)
    (hwaited : d.waited .spinup (d.rd .SCH_SOLO_SPINTO * 1250000000) = true) {d1 : Dev}
    (hd1 : d1 = { d with sch := { d.sch with spin := false, charge := false } }) :
    d.spinupTimeout = (((d1.raise 24 0 (d1.word .SPN_MEAS)).spnGrant 0).releaseToken).toSch 0 := by
  subst hd1
  exact if_neg (by simp [hspin, Dev.on_eq_false hslow, hwaited])

/-- An idling drive with its heads parked and no iteration under way reaches CICADA (R503). -/
theorem Dev.cicadaReached_parked (hstate : d.rd .SCH_STAT_STATE = 5) (hasleep : d.sch.wake = false) (hparked : d.allParked = true)
    (hnone : d.itb.ctx = []) :
    d.cicadaReached =
      ((({ d with flt := { d.flt with wdHold := some d.now } } : Dev).unitsOff).speedTarget 180000).toSch 6 :=
  if_neg (by simp [Dev.schState, hstate, hasleep, hparked, hnone])

theorem Dev.cicadaWake_idle (hwake : d.sch.wake = true) (hstate : d.rd .SCH_STAT_STATE = 6) : d.cicadaWake = (d.toSch 7).askToken :=
  (if_neg (by simp [hwake])).trans (if_pos (by simp [Dev.schState, hstate]))

/-- One that is still on its way loads its heads again. -/
theorem Dev.cicadaWake_entering (hwake : d.sch.wake = true) (hstate : d.rd .SCH_STAT_STATE = 5) (hparked : d.allParked = true) :
    d.cicadaWake = (List.range 4).foldl Dev.askLoad (({ d with sch := { d.sch with wake := false } } : Dev).toSch 3) := by
  have hentering : (d.schState == 5 && d.allParked) = true := by simp [Dev.schState, hstate, hparked]
  rw [Dev.cicadaWake, if_neg (by simp [hwake]), if_neg (by simp [Dev.schState, hstate]), if_pos hentering]

theorem Dev.hltWake_due (hstate : d.rd .SCH_STAT_STATE = 6) (hcause : d.wantsWake = true) :
    d.hltWake = { d with sch := { d.sch with wake := true } } :=
  (if_pos (by simp [Dev.schState, hstate, hcause])).trans (if_pos (by simp [Dev.schState, hstate]))

end Drive

/-- Settles O30: each clause is one transition of SCH's state, once its condition is decided. -/
theorem driveStates : Obligations.DriveStates := by
  unfold Obligations.DriveStates
  refine ⟨?enable, ?start, ?hold, ?restart, ?noRestart, ?token, ?inRange, ?timeout, ?reached, ?wakeIdle, ?wakeEntering, ?hltWake⟩
  case enable => exact fun s d hmet hstate => exec_of_met (·.schEnable true) hmet (Dev.schEnable_running hstate)
  case start =>
    exact fun s d hmet hstate hrange hslow => exec_of_met (·.schEnable true) hmet (Dev.schEnable_stopped hstate hrange hslow)
  case hold => exact fun s d on hmet => exec_of_met (·.wrb .SCH_CTL_HOLD 0 on) hmet rfl
  case restart => exact fun s d hmet hstate => exec_of_met Dev.schRestart hmet (Dev.schRestart_stopped hstate)
  case noRestart => exact fun s d hmet hstate => exec_of_met Dev.schRestart hmet (Dev.schRestart_other hstate)
  case token =>
    exact fun s d hmet hstate hhold hnew => exec_of_met Dev.tokenObtained hmet (Dev.tokenObtained_held hstate hhold hnew)
  case inRange =>
    exact fun s d hmet hspin hrange => exec_of_met Dev.spindleInRange hmet (Dev.spindleInRange_loads hspin hrange rfl)
  case timeout =>
    rintro s _ after rfl hspin hslow hwaited
    exact exec_of_met (fun d => (d.advance after).spinupTimeout) rfl (Dev.spinupTimeout_stops hspin hslow hwaited rfl)
  case reached =>
    intro s d hmet hstate hasleep hparked hnone
    exact exec_of_met Dev.cicadaReached hmet (Dev.cicadaReached_parked hstate hasleep hparked hnone)
  case wakeIdle => exact fun s d hmet hwake hstate => exec_of_met Dev.cicadaWake hmet (Dev.cicadaWake_idle hwake hstate)
  case wakeEntering =>
    exact fun s d hmet hwake hstate hparked => exec_of_met Dev.cicadaWake hmet (Dev.cicadaWake_entering hwake hstate hparked)
  case hltWake => exact fun s d hmet hstate hcause => exec_of_met Dev.hltWake hmet (Dev.hltWake_due hstate hcause)

end Sys2Proof.Machine
end

section
/-! DRAM initialisation (R514), the caches and their maintenance (R515-R525). -/

namespace Sys2Proof.Machine

section Caches

variable {d : Dev} {c a : Nat} {m : Maint}

/-- A core's L1 caches go on and off freely once they have been invalidated (R519). -/
theorem Dev.l1Enable_invalidated (hdone : d.rd .MEM_L1CTL_INVDONE c ≠ 0) (ien den : Bool) :
    d.l1Enable c ien den = (d.wrb .MEM_L1CTL_IEN c ien).wrb .MEM_L1CTL_DEN c den := by
  have hset : (d.wrb .MEM_L1CTL_IEN c ien).rd .MEM_L1CTL_INVDONE c ≠ 0 := by simpa [Dev.wrb] using hdone
  simp only [Dev.l1Enable, Dev.on_eq_true hdone, Dev.on_eq_true hset, Bool.not_true, Bool.and_false, Bool.false_eq_true, if_false]

/-- Before that an instruction cache is refused, and a data cache that stays off is taken. -/
theorem Dev.l1Enable_refused (hnot : d.rd .MEM_L1CTL_INVDONE c = 0) :
    d.l1Enable c true false = (d.wr .MEM_STAT_ENREF 0 1).wr .MEM_L1CTL_DEN c 0 := by
  simp only [Dev.l1Enable, Dev.on_eq_false hnot, Bool.not_false, Bool.and_self, Bool.false_and, Bool.false_eq_true, if_true, if_false]
  rfl

/-- A maintenance operation waits for its end with the lines it names, or with all (R523). -/
theorem Dev.l2Maint_begins (hfree : d.memx.maint = none) (op : Nat) (all : Bool) (set way : Nat) (line : Option Nat) {d1 : Dev}
    (hd1 : d1 = ((((d.wr .MEM_L2MAINT_OP 0 op).wrb .MEM_L2MAINT_ALL 0 all).wr .MEM_L2MAINT_SET 0 set).wr .MEM_L2MAINT_WAY 0 way).wr
      .MEM_L2MAINT_GO 0 1) {lines : Option (List Nat)}
    (hlines : lines = if all then none else some ((line.map lineOf).toList.filter fun l => l / 128 % 32768 == set)) :
    d.l2Maint op all set way line = { d1 with memx := { d1.memx with maint := some { op := op, lines := lines } } } := by
  subst hd1 hlines
  exact if_neg (by simp [hfree])

/-- The operation is over. -/
def Dev.maintTaken (d : Dev) : Dev := ({ d with memx := { d.memx with maint := none } }).wr .MEM_L2MAINT_GO 0 0

@[simp] theorem Dev.maintTaken_rd (d : Dev) {f : Fld} (i : Nat) (h : f ≠ .MEM_L2MAINT_GO) : d.maintTaken.rd f i = d.rd f i :=
  Dev.rd_wr_of_ne _ _ _ _ h

/-- With the L2 off, an invalidation of everything leaves it invalid (R523). -/
theorem Dev.l2MaintEnd_invalidates (hmaint : d.memx.maint = some m) (hoff : d.rd .MEM_L2CTL_ENABLE = 0) (hop : m.op ≠ 1)
    (hall : m.lines = none) : d.l2MaintEnd = d.maintTaken.wr .MEM_L2CTL_INVALID 0 1 := by
  have hstill : d.maintTaken.on .MEM_L2CTL_ENABLE = false := Dev.on_eq_false (by simpa using hoff)
  have hwhole : m.op ≠ 1 ∧ m.lines.isNone = true := ⟨hop, by simp [hall]⟩
  unfold Dev.maintTaken at hstill ⊢
  simp only [Dev.l2MaintEnd, hmaint, hstill, if_pos hwhole, Bool.false_eq_true, if_false]

/-- With the L2 on, an operation on lines writes them back (R523). -/
theorem Dev.l2MaintEnd_lines {l : List Nat} (hmaint : d.memx.maint = some m) (hon : d.rd .MEM_L2CTL_ENABLE ≠ 0) (hlines : m.lines = some l) :
    d.l2MaintEnd = l.foldl Dev.cleanLine d.maintTaken := by
  have hstill : d.maintTaken.on .MEM_L2CTL_ENABLE = true := Dev.on_eq_true (by simpa using hon)
  unfold Dev.maintTaken at hstill ⊢
  simp only [Dev.l2MaintEnd, hmaint, hstill, hlines, if_true]

/-- A cache-block operation on DRAM writes its line back (R525). -/
theorem Dev.cboClean_dram (hdram : arrayOf a = 0) (hexists : d.memExists a = true) : d.cboClean a = d.cleanLine (lineOf a) :=
  if_pos ⟨hdram, hexists⟩

/-- cbo.zero clears its line in memory that holds data, faults where there is none, and leaves other memory (R525). -/
theorem Dev.cboZero_clears (hexists : d.memExists a = true) (harray : ¬(arrayOf a = 5 ∨ arrayOf a = 6)) :
    d.cboZero c a = d.mputBytes (l1Line a) (List.replicate 64 0) :=
  (if_neg (by simp [hexists])).trans (if_neg harray)

theorem Dev.cboZero_missing (hmissing : d.memExists a = false) : d.cboZero c a = d.emit (.coreFault c 7) := if_pos (by simp [hmissing])

theorem Dev.cboZero_ignored (hexists : d.memExists a = true) (harray : arrayOf a = 5 ∨ arrayOf a = 6) : d.cboZero c a = d :=
  (if_neg (by simp [hexists])).trans (if_pos harray)

end Caches

/-- Settles O22: each clause is one rule of the DRAM's training, of a cache's state or of an operation on lines. -/
theorem cachesAndDram : Obligations.CachesAndDram := by
  unfold Obligations.CachesAndDram
  refine ⟨?train, ?ready, ?failed, ?refresh, ?invalidate, ?l1On, ?l1Refused, ?l2On, ?l2Refused, ?l2Off, ?l2OffEnd, ?clean, ?busy, ?inval,
    ?cleanInval, ?endAll, ?endLines, ?cboClean, ?cboFlush, ?cboInval, ?zero, ?zeroFault, ?zeroIgnored, ?fence⟩
  case train =>
    intro s d raw rate hmet hearly
    exact exec_of_met (·.dramInit raw.toNat rate.toNat) hmet (if_neg (by simp [Dev.handed_iff, hearly]))
  case ready => exact fun s d hmet htrains => exec_of_met (·.dramReady true) hmet (if_neg (by simp [htrains]))
  case failed => exact fun s d hmet htrains => exec_of_met (·.dramReady false) hmet (if_neg (by simp [htrains]))
  case refresh => exact fun s d hmet => exec_of_met id hmet rfl
  case invalidate => exact fun s d c hmet => exec_of_met (·.l1Invalidate c.val) hmet rfl
  case l1On => exact fun s d c hmet hdone => exec_of_met (·.l1Enable c.val true true) hmet (Dev.l1Enable_invalidated hdone true true)
  case l1Refused =>
    rintro s d c _ _ hmet hnot rfl rfl
    exact exec_of_met (·.l1Enable c.val true false) hmet (Dev.l1Enable_refused hnot)
  case l2On => exact fun s d hmet hinvalid => exec_of_met Dev.l2Enable hmet (if_neg (by simp [Dev.on_eq_true hinvalid]))
  case l2Refused => exact fun s d hmet hvalid => exec_of_met Dev.l2Enable hmet (if_pos (by simp [Dev.on_eq_false hvalid]))
  case l2Off => exact fun s d hmet hon => exec_of_met Dev.l2Disable hmet (if_pos (Dev.on_eq_true hon))
  case l2OffEnd => exact fun s d hmet hbusy => exec_of_met Dev.l2Disabled hmet (if_neg (by simp [Dev.on_eq_true hbusy]))
  case clean =>
    intro s d all set way line hmet hfree
    exact exec_of_met (·.l2Maint 1 all set.val way.val (line.map BitVec.toNat)) hmet (Dev.l2Maint_begins hfree _ _ _ _ _ rfl rfl)
  case busy =>
    intro s d all set way line hmet hbusy
    exact exec_of_met (·.l2Maint 1 all set.val way.val (line.map BitVec.toNat)) hmet (if_pos hbusy)
  case inval =>
    intro s d all set way line hmet hfree
    exact exec_of_met (·.l2Maint 2 all set.val way.val (line.map BitVec.toNat)) hmet (Dev.l2Maint_begins hfree _ _ _ _ _ rfl rfl)
  case cleanInval =>
    intro s d all set way line hmet hfree
    exact exec_of_met (·.l2Maint 3 all set.val way.val (line.map BitVec.toNat)) hmet (Dev.l2Maint_begins hfree _ _ _ _ _ rfl rfl)
  case endAll =>
    intro s d m hmet hmaint hoff hop hall
    exact exec_of_met Dev.l2MaintEnd hmet (Dev.l2MaintEnd_invalidates hmaint hoff hop hall)
  case endLines =>
    intro s d m l hmet hmaint hon hlines
    exact exec_of_met Dev.l2MaintEnd hmet (Dev.l2MaintEnd_lines hmaint hon hlines)
  case cboClean | cboFlush | cboInval =>
    exact fun s d c a hmet hdram hexists => exec_of_met (·.cboClean a.toNat) hmet (Dev.cboClean_dram hdram hexists)
  case zero =>
    exact fun s d c a hmet hexists harray => exec_of_met (·.cboZero c.val a.toNat) hmet (Dev.cboZero_clears hexists harray)
  case zeroFault => exact fun s d c a hmet hmissing => exec_of_met (·.cboZero c.val a.toNat) hmet (Dev.cboZero_missing hmissing)
  case zeroIgnored =>
    exact fun s d c a hmet hexists harray => exec_of_met (·.cboZero c.val a.toNat) hmet (Dev.cboZero_ignored hexists harray)
  case fence => exact fun s d c hmet => exec_of_met (·.fenceI c.val) hmet rfl

end Sys2Proof.Machine
end

section
/-! The leaky buckets (R527), the flip-mask test (R529) and the scrubber (R530-R532). -/

namespace Sys2Proof.Machine

section Tests

variable {d : Dev}

theorem Dev.leakThresh_wr (d : Dev) {f : Fld} (i v : Nat) (h : Fld.MEM_LEAK_THRESH ≠ f) : (d.wr f i v).leakThresh = d.leakThresh := by
  simp [Dev.leakThresh, h]

/-- A leak that leaves both buckets at the threshold or above re-arms neither (R527). -/
theorem Dev.bucketLeak_above {d1 d2 : Dev} (hd1 : d1 = d.wr .MEM_BUCKET_DRAM 0 (d.rd .MEM_BUCKET_DRAM - 1))
    (hd2 : d2 = d1.wr .MEM_BUCKET_CACHE 0 (d.rd .MEM_BUCKET_CACHE - 1)) (hdram : d.leakThresh ≤ d1.rd .MEM_BUCKET_DRAM)
    (hcache : d.leakThresh ≤ d2.rd .MEM_BUCKET_CACHE) : d.bucketLeak = d2 := by
  have hrd : d1.rd .MEM_BUCKET_CACHE = d.rd .MEM_BUCKET_CACHE := by simp [hd1]
  have hthresh1 : d1.leakThresh = d.leakThresh := by simp [hd1, Dev.leakThresh_wr]
  have hthresh2 : d2.leakThresh = d.leakThresh := by simp [hd2, Dev.leakThresh_wr, hthresh1]
  rw [← hrd] at hd2
  simp only [Dev.bucketLeak, if_true, ← hd1, hthresh1, Nat.not_lt.mpr hdram, if_false, one_ne_zero, ← hd2, hthresh2,
    Nat.not_lt.mpr hcache]

/-- While the test is armed a write of FLIPCTL that clears nothing changes nothing; while it is not, it takes the write (R529). -/
theorem Dev.flipCtl_kept {w : Nat} (hkeep : bit w 30 = false) :
    d.flipCtl w = if d.on .MEM_FLIPCTL_ARM then d else (d.wr .MEM_FLIPCTL_TARGET 0 (w % 8)).wrb .MEM_FLIPCTL_ARM 0 (bit w 31) := by
  simp only [Dev.flipCtl, hkeep, Bool.false_eq_true, if_false]

/-- A read within the pass handles the errors it finds and shows how far the pass is (R531). -/
theorem Dev.scrubRead_within {n : Nat} {errs : List (Nat × Nat × Bool)} (hon : d.rd .MEM_SCRUB_EN ≠ 0) {d1 : Dev}
    (hd1 : d1 = errs.foldl (fun d e => d.memError reqScrub e.1 e.2.1 e.2.2) d) (hwithin : d1.memx.scrub + n < d1.scrubWords) :
    d.scrubRead n errs =
      ({ d1 with memx := { d1.memx with scrub := d1.memx.scrub + n } }).wr .MEM_SCRUBSTAT_PROGRESS 0
        (100 * (d1.memx.scrub + n) / max 1 d1.scrubWords) := by
  subst hd1
  exact (if_neg (by simp [Dev.on_eq_true hon])).trans (if_pos hwithin)

theorem Dev.scrubRead_off (hoff : d.rd .MEM_SCRUB_EN = 0) (n : Nat) (errs : List (Nat × Nat × Bool)) : d.scrubRead n errs = d :=
  if_pos (by simp [Dev.on_eq_false hoff])

end Tests

/-- Settles O23: each clause is one rule of a leak, of the flip-mask test's control or of a scrubber's read. -/
theorem memoryErrorsAndTests : Obligations.MemoryErrorsAndTests := by
  unfold Obligations.MemoryErrorsAndTests
  refine ⟨?leak, ?arms, ?armed, ?scrub, ?off⟩
  case leak =>
    rintro s _ after rfl hdue hdram hcache
    exact exec_of_met (fun d => (d.advance after).leakDue) rfl
      ((Dev.periodic_acts hdue Dev.bucketLeak).trans (Dev.bucketLeak_above rfl rfl hdram hcache))
  case arms =>
    intro s d w hmet hkeep hfree
    exact exec_of_met (·.flipCtl w.toNat) hmet ((Dev.flipCtl_kept hkeep).trans (if_neg (by simp [Dev.on_eq_false hfree])))
  case armed =>
    intro s d w hmet hkeep harmed
    exact exec_of_met (·.flipCtl w.toNat) hmet ((Dev.flipCtl_kept hkeep).trans (if_pos (Dev.on_eq_true harmed)))
  case scrub =>
    intro s d words errs hmet hon hwithin
    exact exec_of_met (·.scrubRead words (errs.map fun e => (e.array.val, e.addr.toNat, e.hard))) hmet
      (Dev.scrubRead_within hon (by rw [List.foldl_map]) hwithin)
  case off =>
    intro s d words errs hmet hoff
    exact exec_of_met (·.scrubRead words (errs.map fun e => (e.array.val, e.addr.toNat, e.hard))) hmet (Dev.scrubRead_off hoff _ _)

end Sys2Proof.Machine
end

section
/-! The DMA channels (R533-R540). -/

namespace Sys2Proof.Machine

section Channels

variable {d : Dev} {c : Nat}

/-! ### Starting, stopping and resuming (R533, R534) -/

theorem Dev.dmaStart_idle (m : Nat) (hidle : d.rd .DMA_CSTAT_STATE c = 0) (hclear : d.rd .DMA_STAT_BERR = 0)
    (hon : d.rd .DMA_CTL_ENABLE ≠ 0) {desc : Nat}
    (hdesc : desc = d.rd .DMA_CDESCLO_ADDR c * 32 + d.rd .DMA_CDESCHI_ADDR c * 2 ^ 32) :
    d.dmaStart m c = (d.setDmaCh c { desc := desc, master := m }).wr .DMA_CSTAT_STATE c 1 := by
  subst hdesc
  exact if_pos ⟨hidle, by simp [Dev.on_eq_false hclear], Dev.on_eq_true hon⟩

theorem Dev.dmaStart_ignored (m : Nat) (hbusy : d.rd .DMA_CSTAT_STATE c ≠ 0) : d.dmaStart m c = d.wr .DMA_CSTAT_CFGIGN c 1 :=
  if_neg fun hstart => hbusy hstart.1

theorem Dev.dmaStop_halted (hhalted : d.rd .DMA_CSTAT_STATE c = 3) :
    d.dmaStop c = (d.wr .DMA_CSTAT_STATE c 0).wr .DMA_CSTAT_STOPPED c 1 := if_pos (.inl hhalted)

/-- A running channel that has moved words drains first (R534). -/
theorem Dev.dmaStop_drains (hruns : d.rd .DMA_CSTAT_STATE c = 1) (hmoved : (d.dmaCh c).moved ≠ 0) :
    d.dmaStop c = d.wr .DMA_CSTAT_STATE c 2 := by
  have hnot : ¬(d.dmaState c = 3 ∨ (d.dmaState c = 1 ∧ d.dmaUnpaced c ∧ (d.dmaCh c).moved = 0)) := by
    rintro (hhalted | ⟨_, _, hnone⟩)
    · exact absurd (hruns.symm.trans hhalted) (by decide)
    · exact hmoved hnone
  exact (if_neg hnot).trans (if_pos hruns)

theorem Dev.dmaResume_halted (hhalted : d.rd .DMA_CSTAT_STATE c = 3) (hclear : d.rd .DMA_STAT_BERR = 0) :
    d.dmaResume c = d.wr .DMA_CSTAT_STATE c 1 := if_pos ⟨hhalted, by simp [Dev.on_eq_false hclear]⟩

theorem Dev.dmaResume_ignored (hother : d.rd .DMA_CSTAT_STATE c ≠ 3) : d.dmaResume c = d.wr .DMA_CSTAT_CFGIGN c 1 :=
  if_neg fun hresume => hother hresume.1

/-! ### Descriptors (R535, R537) -/

/-- A readable descriptor is taken, or is shown as bad and stops the channel (R535). -/
theorem Dev.dmaFetch_read (hruns : d.dmaRuns c = true) {x : DmaCh} (hx : x = d.dmaCh c) (hnone : x.words = [])
    (harray : arrayOf x.desc = 0 ∨ arrayOf x.desc = 5) (hok : (d.readCheck reqDma x.desc 32).2 = true) {r : Dev}
    (hr : r = (d.readCheck reqDma x.desc 32).1) {y : DmaCh}
    (hy : y = { x with words := (List.range 8).map fun (k : Nat) => r.ld32 (x.desc + 4 * k), moved := 0 }) :
    d.dmaFetch c =
      if y.bad then
        (((r.wr .DMA_CSTAT_DESCERR c 1).dmaFlag c .DMA_CSTAT_ERR .DMA_CCFG_IEERR).wr .DMA_CSTAT_STATE c 0).setDmaCh c
          { y with words := [] }
      else r.setDmaCh c y := by
  subst hx hr hy
  have hnow : ¬((!d.dmaRuns c || !(d.dmaCh c).words.isEmpty) = true) := by simp [hruns, hnone]
  have hreach : ¬(arrayOf (d.dmaCh c).desc ≠ 0 ∧ arrayOf (d.dmaCh c).desc ≠ 5) := by omega
  exact (if_neg hnow).trans ((if_neg hreach).trans (if_neg (by simp [hok])))

/-- The last descriptor of a channel that is neither circular nor stopping writes its status, sets DONE and stops it (R537). -/
theorem Dev.dmaFinish_last (hruns : d.rd .DMA_CSTAT_STATE c = 1) (hmode : d.rd .DMA_CCFG_MODE c ≠ 1) (hlast : (d.dmaCh c).last = true) :
    d.dmaFinish c =
      ((d.mstN ((d.dmaCh c).desc + 28) 0x80000000 4).dmaFlag c .DMA_CSTAT_DONE .DMA_CCFG_IEDONE).wr .DMA_CSTAT_STATE c 0 := by
  have hgoes : (d.dmaState c == 2) = false := by simp [Dev.dmaState, hruns]
  have hline : (d.mstN ((d.dmaCh c).desc + 28) 0x80000000 4).dmaCirc c = false := by
    rw [Dev.dmaCirc, Dev.mstN_rd _ _ _ _ _ (by decide)]
    exact beq_eq_false_iff_ne.mpr hmode
  simp only [Dev.dmaFinish, hgoes, hline, hlast, Bool.not_false, Bool.and_self, Bool.or_true, Bool.false_eq_true, if_true, if_false]

theorem Dev.dmaEnd_last (hruns : d.dmaRuns c = true) (hpaced : d.rd .DMA_CCFG_PACE c ≠ 0) (htaken : (d.dmaCh c).words ≠ [])
    (hover : (d.dmaCh c).left = 0) : d.dmaEnd c = d.dmaFinish c := by
  have hnow : ¬((!d.dmaRuns c || (d.dmaCh c).words.isEmpty) = true) := by simp [hruns, htaken]
  refine (if_neg hnow).trans ?_
  rw [if_neg hpaced, if_pos (by simp [hruns, hover])]

/-! ### Pace events (R538) -/

/-- Pace events reach a running channel with a pace source that exists. -/
structure Dev.Paced (d : Dev) (c : Nat) : Prop where
  runs : d.dmaRuns c = true
  pace : d.rd .DMA_CCFG_PACE c ≠ 0
  known : d.dmaUnpaced c = false

/-- A pace event of a channel whose source has fired moves a block, waits, or is dropped. -/
theorem Dev.dmaPace_event (h : d.Paced c) (hfired : d.dmaPaced c = true) :
    d.dmaPace c .idle = (d.beginWait (.pace c)).dmaMove c (4 * max 1 (d.rd .DMA_CCFG_BLK c)) ∧
      d.dmaPace c .busy = if (d.dmaCh c).wait then (d.beginWait (.pace c)).wr .DMA_CSTAT_PACEOVR c 1
        else (d.beginWait (.pace c)).setDmaCh c { d.dmaCh c with wait := true } := by
  obtain ⟨hruns, hpace, hknown⟩ := h
  have hnow : ∀ k : PaceAt,
      (!d.dmaRuns c || d.rd .DMA_CCFG_PACE c == 0 || d.dmaUnpaced c || (k != .served && !d.dmaPaced c)) = false := by
    intro k
    simp [hruns, hpace, hknown, hfired]
  constructor <;> simp only [Dev.dmaPace, hnow, Bool.false_eq_true, if_false] <;> rfl

/-- The block that waited moves when the channel is free. -/
theorem Dev.dmaPace_served (h : d.Paced c) (hwaits : (d.dmaCh c).wait = true) :
    d.dmaPace c .served = (d.setDmaCh c { d.dmaCh c with wait := false }).dmaMove c (4 * max 1 (d.rd .DMA_CCFG_BLK c)) := by
  obtain ⟨hruns, hpace, hknown⟩ := h
  have hnow : ¬((!d.dmaRuns c || d.rd .DMA_CCFG_PACE c == 0 || d.dmaUnpaced c || (PaceAt.served != .served && !d.dmaPaced c)) = true) := by
    simp [hruns, hpace, hknown]
  exact (if_neg hnow).trans (if_pos hwaits)

/-! ### Bus errors (R539, R540) -/

/-- A bus error ends the movement at the words before it and is recorded with its address. -/
theorem Dev.dmaFault_moving (n : Nat) (write : Bool) (hruns : d.dmaRuns c = true) {d1 : Dev}
    (hd1 : d1 = d.dmaMove c (min n (d.dmaCh c).left)) (hgoes : d1.dmaRuns c = true) (htaken : (d1.dmaCh c).words ≠ []) {x : DmaCh}
    (hx : x = d1.dmaCh c) :
    d.dmaFault c n write =
      if write then d1.dmaBusError c (if x.dfix then x.dst else x.dst + x.moved) true
      else d1.dmaBusError c (if x.sfix then x.src else x.src + x.moved) false := by
  subst hx hd1
  exact (if_neg (by simp [hruns])).trans ((if_neg (by simp [hgoes])).trans (if_neg (by simpa using htaken)))

/-- After a bus error every channel that runs or drains halts (R540). -/
theorem Dev.dmaHalt_failed (hfailed : d.dma.failed = true) {d1 : Dev}
    (hd1 : d1 = (List.range 64).foldl (fun x c => if x.dmaState c = 1 ∨ x.dmaState c = 2 then x.wr .DMA_CSTAT_STATE c 3 else x) d) :
    d.dmaHalt [] = { d1 with dma := { d1.dma with failed := false } } := by
  simp only [Dev.dmaHalt, hfailed, hd1, List.foldl_nil, Bool.not_true, Bool.false_eq_true, if_false]

end Channels

/-- Settles O26: each clause is one rule of a channel's control, of a descriptor, of a pace event or of a bus error. -/
theorem dmaChannels : Obligations.DmaChannels := by
  unfold Obligations.DmaChannels
  refine ⟨?start, ?startIgnored, ?stop, ?drain, ?resume, ?resumeIgnored, ?fetch, ?moves, ?waits, ?dropped, ?served, ?finish, ?fault, ?halt⟩
  case start =>
    exact fun s d m c hmet hidle hclear hon => exec_of_met (·.dmaStart m.id c.val) hmet (Dev.dmaStart_idle m.id hidle hclear hon rfl)
  case startIgnored => exact fun s d m c hmet hbusy => exec_of_met (·.dmaStart m.id c.val) hmet (Dev.dmaStart_ignored m.id hbusy)
  case stop => exact fun s d c hmet hhalted => exec_of_met (·.dmaStop c.val) hmet (Dev.dmaStop_halted hhalted)
  case drain => exact fun s d c hmet hruns hmoved => exec_of_met (·.dmaStop c.val) hmet (Dev.dmaStop_drains hruns hmoved)
  case resume => exact fun s d c hmet hhalted hclear => exec_of_met (·.dmaResume c.val) hmet (Dev.dmaResume_halted hhalted hclear)
  case resumeIgnored => exact fun s d c hmet hother => exec_of_met (·.dmaResume c.val) hmet (Dev.dmaResume_ignored hother)
  case fetch =>
    intro s d c hmet hruns hnone harray hok
    exact exec_of_met (·.dmaFetch c.val) hmet (Dev.dmaFetch_read hruns rfl hnone harray hok rfl rfl)
  case moves =>
    rintro s _ c after rfl hruns hpace hknown hfired
    exact exec_of_met (fun d => (d.advance after).dmaPace c.val .idle) rfl (Dev.dmaPace_event ⟨hruns, hpace, hknown⟩ hfired).1
  case waits =>
    rintro s _ c after rfl hruns hpace hknown hfired hfree
    exact exec_of_met (fun d => (d.advance after).dmaPace c.val .busy) rfl
      ((Dev.dmaPace_event ⟨hruns, hpace, hknown⟩ hfired).2.trans (if_neg (by simp [hfree])))
  case dropped =>
    rintro s _ c after rfl hruns hpace hknown hfired hwaits
    exact exec_of_met (fun d => (d.advance after).dmaPace c.val .busy) rfl
      ((Dev.dmaPace_event ⟨hruns, hpace, hknown⟩ hfired).2.trans (if_pos hwaits))
  case served =>
    rintro s _ c after rfl hruns hpace hknown hwaits
    exact exec_of_met (fun d => (d.advance after).dmaPace c.val .served) rfl (Dev.dmaPace_served ⟨hruns, hpace, hknown⟩ hwaits)
  case finish =>
    intro s d c hmet hruns hpaced htaken hover hstate hmode hlast
    exact exec_of_met (·.dmaEnd c.val) hmet
      ((Dev.dmaEnd_last hruns hpaced htaken hover).trans (Dev.dmaFinish_last hstate hmode hlast))
  case fault =>
    intro s d c n write hmet hruns hgoes htaken
    exact exec_of_met (·.dmaFault c.val n write) hmet (Dev.dmaFault_moving n write hruns rfl hgoes htaken rfl)
  case halt => exact fun s d hmet hfailed => exec_of_met (·.dmaHalt []) hmet (Dev.dmaHalt_failed hfailed rfl)

end Sys2Proof.Machine
end

section
/-! A management core's accesses (R518-R528). -/

namespace Sys2Proof.Machine

section Accesses

variable {d : Dev} {c : Fin 8} {a n : Nat} {err : Option MemErr}

/-- A load of memory that can be read returns its bytes. -/
theorem Dev.coreLoad_read (harray : arrayOf a ≠ 7) (hok : (d.readMem (coreMaster c) a n err).2 = true) {r : Dev}
    (hr : r = (d.readMem (coreMaster c) a n err).1) : d.coreLoad c a n err = r.emit (.data (coreMaster c) (r.ldN a n)) := by
  subst hr
  exact (if_neg harray).trans (if_pos hok)

/-- One of memory that cannot faults (R528). -/
theorem Dev.coreLoad_fault (harray : arrayOf a ≠ 7) (hbad : (d.readMem (coreMaster c) a n err).2 = false) :
    d.coreLoad c a n err = (d.readMem (coreMaster c) a n err).1.emit (.coreFault c.val 5) :=
  (if_neg harray).trans (if_neg (by simp [hbad]))

/-- A store to memory that does not exist is recorded and raises the core's local interrupt (R528). -/
theorem Dev.coreStore_missing (harray : arrayOf a ≠ 7) (hmissing : d.rangeExists a n = false) (v : Nat) :
    d.coreStore c a n v = d.coreStoreError c a :=
  (if_neg harray).trans (if_neg (by simp [hmissing]))

/-- An atomic operation answers what it read and writes its result there. -/
theorem Dev.coreAmo_read (harray : arrayOf a ≠ 7) (hok : (d.readMem (coreMaster c) a n err).2 = true) (op : CoreAmo) (v : Nat) {r : Dev}
    (hr : r = (d.readMem (coreMaster c) a n err).1) :
    d.coreAmo c op a n v err =
      (r.mstN a (amoResult op n (r.ldN a n) (v % 2 ^ (8 * n))) n).emit (.data (coreMaster c) (r.ldN a n)) := by
  subst hr
  exact (if_neg harray).trans (if_neg (by simp [hok]))

/-- With its L1 instruction cache off a core fetches the line from memory. -/
theorem Dev.fetchLine_uncached (hoff : d.rd .MEM_L1CTL_IEN c.val = 0) (hok : (d.readMem (coreMaster c) a 64 err).2 = true) {r : Dev}
    (hr : r = (d.readMem (coreMaster c) a 64 err).1) : d.fetchLine c a err = (r, some (r.ldBytes a 64)) := by
  subst hr
  simp [Dev.fetchLine, Dev.on_eq_false hoff, hok]

theorem Dev.coreFetch_uncached (hexists : d.memExists (l1Line a) = true) (hoff : d.rd .MEM_L1CTL_IEN c.val = 0)
    (hok : (d.readMem (coreMaster c) (l1Line a) 64 err).2 = true) {r : Dev}
    (hr : r = (d.readMem (coreMaster c) (l1Line a) 64 err).1) :
    d.coreFetch c a n err =
      r.emit (.data (coreMaster c) ((((r.ldBytes (l1Line a) 64).drop (a % 64)).take n).foldr (fun b v => b.toNat + 256 * v) 0)) := by
  simp only [Dev.coreFetch, hexists, Bool.not_true, Bool.false_eq_true, if_false, Dev.fetchLine_uncached hoff hok hr]

theorem Dev.coreFetch_missing (hmissing : d.memExists (l1Line a) = false) : d.coreFetch c a n err = d.emit (.coreFault c.val 1) :=
  if_pos (by simp [hmissing])

end Accesses

/-- Settles O27: each clause is one kind of access, whose memory answers, does not exist or cannot be read. -/
theorem coreAccesses : Obligations.CoreAccesses := by
  unfold Obligations.CoreAccesses
  refine ⟨?load, ?loadFault, ?store, ?storeError, ?amo, ?fetch, ?fetchFault⟩
  case load =>
    intro s d c a size v err hmet harray hok
    exact exec_of_met (·.coreAccess c .load a.toNat size.val v.toNat err) hmet (Dev.coreLoad_read harray hok rfl)
  case loadFault =>
    intro s d c a size v err hmet harray hbad
    exact exec_of_met (·.coreAccess c .load a.toNat size.val v.toNat err) hmet (Dev.coreLoad_fault harray hbad)
  case store =>
    intro s d c a size v err hmet harray hexists
    exact exec_of_met (·.coreAccess c .store a.toNat size.val v.toNat err) hmet (Dev.coreStore_memory harray hexists)
  case storeError =>
    intro s d c a size v err hmet harray hmissing
    exact exec_of_met (·.coreAccess c .store a.toNat size.val v.toNat err) hmet (Dev.coreStore_missing harray hmissing v.toNat)
  case amo =>
    intro s d c op a size v err hmet harray hok
    exact exec_of_met (·.coreAccess c (.amo op) a.toNat size.val v.toNat err) hmet (Dev.coreAmo_read harray hok op v.toNat rfl)
  case fetch =>
    intro s d c a size v err hmet hexists hoff hok
    exact exec_of_met (·.coreAccess c .fetch a.toNat size.val v.toNat err) hmet (Dev.coreFetch_uncached hexists hoff hok rfl)
  case fetchFault =>
    intro s d c a size v err hmet hmissing
    exact exec_of_met (·.coreAccess c .fetch a.toNat size.val v.toNat err) hmet (Dev.coreFetch_missing hmissing)

end Sys2Proof.Machine
end

section
/-! The software check context (R554-R557) and the compression engine (R558-R564). -/

namespace Sys2Proof.Machine

section Context

variable {d : Dev} {m : Nat}

theorem Dev.chkClaim_free (hfree : d.rd .CHK_SWOWN_OWNED = 0) :
    d.chkClaim m = (d.wr .CHK_SWOWN_OWNED 0 1).wr .CHK_SWOWN_OWNER 0 m := if_neg (by simp [Dev.on_eq_false hfree])

theorem Dev.chkClaim_refused (howned : d.rd .CHK_SWOWN_OWNED ≠ 0) (hother : d.rd .CHK_SWOWN_OWNER ≠ m) :
    d.chkClaim m = d.wr .CHK_STAT_CLAIMREF 0 1 := by
  have hnot : d.owns m = false := by simp [Dev.owns, hother]
  exact (if_pos (Dev.on_eq_true howned)).trans (if_neg (by simp [hnot]))

/-- The owner releases the context, and so do the safety path and the service port (R554). -/
theorem Dev.chkRelease_owned (howned : d.rd .CHK_SWOWN_OWNED ≠ 0) (hmay : d.rd .CHK_SWOWN_OWNER = m ∨ m = 0 ∨ m = 1) :
    d.chkRelease m = (d.wr .CHK_SWOWN_OWNED 0 0).wr .CHK_SWOWN_OWNER 0 0 := by
  have hon := Dev.on_eq_true howned
  have hadmits : (d.owns m || m == 0 || m == 1) = true := by simpa [Dev.owns, hon, or_assoc] using hmay
  exact (if_neg (by simp [hon])).trans (if_pos hadmits)

theorem Dev.chkCompute_starts {w : Nat} (howns : d.owns m = true) (hidle : d.rd .CHK_SWSTAT_BUSY = 0) (hgo : bit w 31 = true) {d1 : Dev}
    (hd1 : d1 = d.wr .CHK_SWCTL_ALG 0 w) :
    d.chkCompute m w = { d1.wr .CHK_SWSTAT_BUSY 0 1 with chk := { d1.chk with run := some d1.chkArgs } } := by
  subst hd1
  exact (if_neg (by simp [howns])).trans ((if_neg (by simp [Dev.on_eq_false hidle])).trans (if_pos hgo))

theorem Dev.chkCompute_refused (hnot : d.owns m = false) (w : Nat) : d.chkCompute m w = d.wr .CHK_STAT_CLAIMREF 0 1 :=
  if_pos (by simp [hnot])

/-- The computation is no longer under way. -/
def Dev.computeOver (d : Dev) : Dev := { d.wr .CHK_SWSTAT_BUSY 0 0 with chk := { d.chk with run := none } }

/-- A computation over bytes that can be read ends with its value (R555, R556). -/
theorem Dev.chkEnd_value {x : ChkRun} (hbusy : d.rd .CHK_SWSTAT_BUSY ≠ 0) (hrun : d.chk.run = some x)
    (hread : (d.computeOver.readCheck reqMedia x.src x.len).2 = true) (harray : arrayOf x.src ≠ 1) {r : Dev}
    (hr : r = (d.computeOver.readCheck reqMedia x.src x.len).1) {v : Nat}
    (hv : v = chkValue x.alg x.seed x.fold (r.ldBytes x.src x.len)) :
    d.chkEnd = ((r.wr .CHK_SWRESLO_RES 0 v).wr .CHK_SWRESHI_RES 0 (v / 2 ^ 32)).wr .CHK_SWSTAT_DONE 0 1 := by
  subst hr hv
  unfold Dev.computeOver at hread ⊢
  simp only [Dev.chkEnd, Dev.on_eq_true hbusy, hrun, Option.getD_some, hread, bne_iff_ne.mpr harray, Bool.and_self, Bool.not_true,
    Bool.false_eq_true, if_false, if_true]

end Context

section Compression

variable {d : Dev} {j : CmpJob}

theorem Dev.cmpSubmit_queues (m desc : Nat) (hon : d.rd .CMP_CTL_ENABLE ≠ 0) (hroom : d.cmp.queue.length < 64) :
    d.cmpSubmit m desc = { d with cmp := { d.cmp with queue := d.cmp.queue ++ [{ desc := desc, master := m }] } } :=
  if_neg (by simp [Dev.on_eq_true hon, hroom])

/-- The first job of the queue starts when it is of the operation and fewer than four run (R560). -/
theorem Dev.cmpStart_first {rest : List CmpJob} {op : Nat} (hqueue : d.cmp.queue = j :: rest) (hroom : d.cmp.running.length < 4)
    (hop : bits (d.ld32 j.desc) 28 4 = op) :
    d.cmpStart op = { d with cmp := { queue := rest, running := d.cmp.running ++ [j] } } := by
  simp only [Dev.cmpStart, hqueue]
  exact if_neg (by simp [hroom, hop])

/-- A job whose descriptor, input and output are good ends with its result (R559). -/
theorem Dev.cmpJobEnd_good {outs : List (List Byte)} {r : CmpResult} {c : CmpDesc} (hc : c = d.cmpDesc j.desc) (hgood : c.bad = false)
    (hread : (d.cmpAccess c).2 = true) {e : Dev} (he : e = (d.cmpAccess c).1) (hrun : e.cmpRun c outs = some r)
    (hfits : ∀ x ∈ r.out, e.rangeExists x.1 x.2.length = true) : d.cmpJobEnd j outs = some (e.cmpFinish j c r) := by
  subst hc he
  simp only [Dev.cmpJobEnd, hgood, hread, hrun, List.all_eq_true.mpr hfits, Bool.not_true, Bool.false_eq_true, if_false, if_true]

/-- A result without an error is written, counted, noted where it is a packed zone, and signalled (R559, R563, R564). -/
theorem Dev.cmpFinish_success {r : CmpResult} (hstatus : r.status = 0) (c : CmpDesc) {d1 : Dev}
    (hd1 : d1 = ((((r.out.foldl (fun x e => x.mputBytes e.1 e.2) d).st32 (j.desc + 28) (r.len % 2 ^ 24)).count .CMP_CNT_JOBS).count
      .CMP_CNT_RAW 0 r.raw)) :
    d.cmpFinish j c r = (if c.op = 0 then d1.notePacked c.src c.word1 (16 * c.group) c.blocks else d1).cmpSignal j c.tag 0 := by
  subst hd1
  simp only [Dev.cmpFinish, hstatus, and_true, if_true, Nat.zero_mul, Nat.zero_add]

/-- Job `k` of the running ones is taken off. -/
def Dev.runningTaken (d : Dev) (k : Nat) : Dev := { d with cmp := { d.cmp with running := d.cmp.running.eraseIdx k } }

theorem Dev.cmpEnd_running {k : Nat} {outs : List (List Byte)} {e : Dev} (hrunning : d.cmp.running[k]? = some j)
    (hend : (d.runningTaken k).cmpJobEnd j outs = some e) : d.cmpEnd k outs = e := by
  unfold Dev.runningTaken at hend
  simp only [Dev.cmpEnd, hrunning, hend, Option.getD_some]

end Compression

/-- Settles O19: each clause is one rule of the context's ownership, of a computation, or of a compression job. -/
theorem checkContextAndCompression : Obligations.CheckContextAndCompression := by
  unfold Obligations.CheckContextAndCompression
  refine ⟨?claim, ?claimRefused, ?release, ?compute, ?computeRefused, ?computeEnd, ?submit, ?pack, ?unpack, ?deflate, ?inflate, ?finish⟩
  case claim => exact fun s d m hmet hfree => exec_of_met (·.chkClaim m.id) hmet (Dev.chkClaim_free hfree)
  case claimRefused =>
    exact fun s d m hmet howned hother => exec_of_met (·.chkClaim m.id) hmet (Dev.chkClaim_refused howned hother)
  case release => exact fun s d m hmet howned hmay => exec_of_met (·.chkRelease m.id) hmet (Dev.chkRelease_owned howned hmay)
  case compute =>
    exact fun s d m w hmet howns hidle hgo => exec_of_met (·.chkCompute m.id w.toNat) hmet (Dev.chkCompute_starts howns hidle hgo rfl)
  case computeRefused => exact fun s d m w hmet hnot => exec_of_met (·.chkCompute m.id w.toNat) hmet (Dev.chkCompute_refused hnot _)
  case computeEnd =>
    intro s d x hmet hbusy hrun hread harray
    exact exec_of_met Dev.chkEnd hmet (Dev.chkEnd_value hbusy hrun hread harray rfl rfl)
  case submit =>
    intro s d m w hmet hon hroom
    have hon' : (((d.dropLo m.id .CMP_SUBLO 0).wr .CMP_SUBLO_ADDR 0 (d.loHalf m.id .CMP_SUBLO 0 / 32 * 32 / 32)).wr .CMP_SUBHI_ADDR 0
        w.toNat).rd .CMP_CTL_ENABLE ≠ 0 := by simpa using hon
    exact exec_of_met (fun d => (((d.dropLo m.id .CMP_SUBLO 0).wr .CMP_SUBLO_ADDR 0 (d.loHalf m.id .CMP_SUBLO 0 / 32 * 32 / 32)).wr
      .CMP_SUBHI_ADDR 0 w.toNat).cmpSubmit m.id (d.loHalf m.id .CMP_SUBLO 0 / 32 * 32 + w.toNat % 256 * 2 ^ 32)) hmet
      (Dev.cmpSubmit_queues _ _ hon' hroom)
  case pack => exact fun s d j rest hmet hqueue hroom hop => exec_of_met (·.cmpStart 0) hmet (Dev.cmpStart_first hqueue hroom hop)
  case unpack => exact fun s d j rest hmet hqueue hroom hop => exec_of_met (·.cmpStart 1) hmet (Dev.cmpStart_first hqueue hroom hop)
  case deflate => exact fun s d j rest hmet hqueue hroom hop => exec_of_met (·.cmpStart 2) hmet (Dev.cmpStart_first hqueue hroom hop)
  case inflate => exact fun s d j rest hmet hqueue hroom hop => exec_of_met (·.cmpStart 3) hmet (Dev.cmpStart_first hqueue hroom hop)
  case finish =>
    intro s d k outs j r hmet hrunning hgood hread hrun hstatus hfits
    have hend := Dev.cmpJobEnd_good (d := d.runningTaken k.val) (j := j) (c := d.cmpDesc j.desc) rfl hgood hread rfl hrun hfits
    exact exec_of_met (·.cmpEnd k.val outs) hmet ((Dev.cmpEnd_running hrunning hend).trans (Dev.cmpFinish_success hstatus _ rfl))

end Sys2Proof.Machine
end

section
/-! Delay monitors, regulators and die sensors (R601-R605), the weekly projection (R574, R607) and powered hours. -/

namespace Sys2Proof.Machine

section Silicon

variable {d : Dev}

/-- A monitor below the guard band orders one step of the voltage more, where the regulator is free and not at its highest (R602). -/
theorem Dev.slackReading_raises {sl : List Int} {worst : Int} (hworst : worst = sl.foldl min (sl.headD 0))
    (hroom : d.rd .HLT_AVSSTAT_VCODE < d.rd .HLT_AVS_VMAX) (hon : d.rd .HLT_CTL_AVS ≠ 0) (hfree : d.hlt.avsBusy = false)
    (hlow : worst < (d.rd .HLT_AVS_GUARD : Int)) {d1 : Dev}
    (hd1 : d1 = ({ d with hlt := { d.hlt with slack := (List.range 32).map fun k => (k, unsigned 32 (sl.getD k 0)) } } : Dev).wr
      .HLT_AVSSTAT_WSLACK 0 (unsigned 16 worst)) :
    d.slackReading sl =
      ({ d1 with hlt := { d1.hlt with calm := 0, tooSlow := false, avsBusy := true,
                                      avsWant := d.rd .HLT_AVSSTAT_VCODE + 1 } }).beginWait .avs := by
  have hrd : ∀ (h : Hlt) (f : Fld), ({ d1 with hlt := h } : Dev).rd f = d1.rd f := fun _ _ => rfl
  have hkept : ∀ f : Fld, f ≠ .HLT_AVSSTAT_WSLACK → d1.rd f = d.rd f := by
    intro f hf
    rw [hd1, Dev.rd_wr_of_ne _ _ _ _ hf]
    rfl
  have hfree1 : d1.hlt.avsBusy = false := by rw [hd1]; exact hfree
  have hon1 : ∀ h : Hlt, ({ d1 with hlt := h } : Dev).on .HLT_CTL_AVS = true := fun h =>
    Dev.on_eq_true (by rw [hrd, hkept _ (by decide)]; exact hon)
  have hnotCalm : ¬((d.rd .HLT_AVS_GUARD + d1.rd .HLT_AVS_HYST : Int) < worst) := by omega
  simp only [Dev.slackReading, ← hworst, ← hd1, hrd, hkept .HLT_AVS_GUARD (by decide), hkept .HLT_AVSSTAT_VCODE (by decide),
    hkept .HLT_AVS_VMAX (by decide), hnotCalm, hlow, hroom, Nat.not_le.mpr hroom, hon1, hfree1, decide_true, decide_false, Bool.and_false,
    Bool.false_and, Bool.not_true, Bool.or_self, Bool.false_eq_true, if_false, if_true]
  rfl

theorem Dev.avsAck_busy (hbusy : d.hlt.avsBusy = true) :
    d.avsAck = ({ d with hlt := { d.hlt with avsBusy := false } } : Dev).wr .HLT_AVSSTAT_VCODE 0 d.hlt.avsWant := if_neg (by simp [hbusy])

/-- A regulator that does not answer in 1 ms ends the command with a fault (R603). -/
theorem Dev.avsTimeout_waited (hbusy : d.hlt.avsBusy = true) (hwaited : d.waited .avs 1250000 = true) {d1 : Dev}
    (hd1 : d1 = ({ d with hlt := { d.hlt with avsBusy := false } } : Dev).wr .HLT_STAT_AVSFAIL 0 1) :
    d.avsTimeout = d1.raise 39 0 (d1.word .HLT_AVSSTAT) := by
  subst hd1
  exact if_neg (by simp [hbusy, hwaited])

/-- The samples that the projection looks at: the week's own and the 15 before it (R607). -/
def Dev.weekHistory (d : Dev) : List (Nat × Nat × Nat) :=
  ((d.rd .HLT_POH_HOURS, d.mediaStat, d.rd .HLT_AVSSTAT_VCODE) :: d.hlt.history).take 16

/-- The week's sample is kept, as the first one where none was, and the part used is shown anew. -/
def Dev.weekSampled (d : Dev) : Dev :=
  let d1 := { d with hlt := { d.hlt with
    history := d.weekHistory
    vfirst := some (d.hlt.vfirst.getD (d.rd .HLT_AVSSTAT_VCODE))
    mfirst := some (d.hlt.mfirst.getD d.mediaStat) } }
  d1.wr .HLT_REPL_PCTUSED 0 d1.percentUsed

/-- A projection onto a limit, cut to a word. -/
def hoursLeft (l : List (Int × Int)) (limit : Nat) (falls : Bool) : Nat := min (2 ^ 32 - 1) ((hoursTo l limit falls).getD (2 ^ 32 - 1))

/-- A new week with at least three samples before it is projected, and the triggers and the spares are looked at (R607, R574). -/
theorem Dev.weekly_projects (hweek : d.rd .HLT_POH_HOURS ≠ 0 ∧ d.rd .HLT_POH_HOURS % 168 = 0)
    (hnew : d.hlt.history.head?.map Prod.fst ≠ some (d.rd .HLT_POH_HOURS)) (henough : 3 ≤ d.hlt.history.length) {a b : Nat}
    (ha : a = hoursLeft (d.weekHistory.reverse.map fun x => ((x.1 : Int), (x.2.1 : Int))) (d.weekSampled.rd .HLT_MLIM_FLOOR) true)
    (hb : b = hoursLeft (d.weekHistory.reverse.map fun x => ((x.1 : Int), (x.2.2 : Int))) (d.weekSampled.rd .HLT_AVS_VMAX) false) :
    d.weekly = ((d.weekSampled.wr .HLT_PROJ_HOURS 0 (min a b)).wrb .HLT_REPL_SOURCE 0 (decide (b < a))).checkTriggers := by
  have hnow : ¬(d.rd .HLT_POH_HOURS = 0 ∨ d.rd .HLT_POH_HOURS % 168 ≠ 0 ∨
      (d.hlt.history.head?.map Prod.fst) = some (d.rd .HLT_POH_HOURS)) := by
    obtain ⟨hsome, hwhole⟩ := hweek
    simp [hsome, hwhole, hnew]
  have hfour : 4 ≤ d.weekHistory.length := by
    rw [Dev.weekHistory, List.length_take, List.length_cons]
    omega
  unfold Dev.weekSampled at ha hb ⊢
  subst ha hb
  unfold Dev.weekHistory at hfour ⊢
  simp only [Dev.weekly, hnow, hfour, decide_true, if_false, if_true]
  rfl

end Silicon

/-- Settles O21: each clause is one rule of a reading, of the regulator, of the projection or of the hours. -/
theorem siliconAndProjection : Obligations.SiliconAndProjection := by
  unfold Obligations.SiliconAndProjection
  refine ⟨?slack, ?acknowledged, ?timedOut, ?temperature, ?weekly, ?hour, ?early⟩
  case slack =>
    rintro s _ sl after rfl hdue hroom hon hfree hlow
    exact exec_of_met (fun d => (d.advance after).periodic .slack 1250000000 fun d => d.slackReading sl) rfl
      ((Dev.periodic_acts hdue fun d => d.slackReading sl).trans
        (Dev.slackReading_raises (d := (s.dev.met.advance after).nextInterval .slack 1250000000) rfl hroom hon hfree hlow rfl))
  case acknowledged => exact fun s d hmet hbusy => exec_of_met Dev.avsAck hmet (Dev.avsAck_busy hbusy)
  case timedOut =>
    rintro s _ after rfl hbusy hwaited
    exact exec_of_met (fun d => (d.advance after).avsTimeout) rfl (Dev.avsTimeout_waited hbusy hwaited rfl)
  case temperature =>
    rintro s _ ts after rfl hdue
    exact exec_of_met (fun d => (d.advance after).periodic .dieTemp 125000000 fun d => d.temperature ts) rfl
      (Dev.periodic_acts hdue fun d => d.temperature ts)
  case weekly =>
    exact fun s d hmet hweek hnew henough => exec_of_met Dev.weekly hmet (Dev.weekly_projects hweek hnew henough rfl rfl)
  case hour =>
    rintro s _ after rfl hdue
    exact exec_of_met (fun d => (d.advance after).periodic .hour (3600 * 1250000000) Dev.poweredHour) rfl
      (Dev.periodic_acts hdue Dev.poweredHour)
  case early =>
    rintro s _ after rfl hearly
    exact exec_of_met (fun d => (d.advance after).periodic .hour (3600 * 1250000000) Dev.poweredHour) rfl
      (Dev.periodic_early hearly Dev.poweredHour)

end Sys2Proof.Machine
end

section
/-! CRICKET's run condition (R614, R628): settling a device shows it, whatever the device was. -/

namespace Sys2Proof.Machine

/-- When CRICKET runs, condition by condition. -/
theorem Dev.crkRuns_iff (d : Dev) :
    d.crkRuns = true ↔ d.flt.crkOn = true ∧ d.rd .FLT_STAT_HOLD = 0 ∧ d.rd .FLT_STAT_SAFEACT = 0 ∧
      ∀ n ∈ d.pendingSources, d.rd .FLT_SRCSTAT_EFFSEV n < min 4 (d.rd .FLT_CFG_CRKSEV) := by
  simp [Dev.crkRuns, Dev.on, and_assoc, -lt_inf_iff, -inf_le_iff]

/-- CRICKET is shown as it runs: the flag is the run condition's bit. -/
theorem State.cricketShown_iff (s : State) : s.CricketShown ↔ s.dev.rd .FLT_STAT_CRKRUN = bnat s.dev.crkRuns := by
  simp only [State.CricketShown, ← Dev.crkRuns_iff]
  cases s.dev.crkRuns <;> simp [bnat] <;> omega

/-- The flag is none of the fields that the run condition looks at. -/
theorem Dev.crkRuns_shown (d : Dev) (b : Bool) : (d.wrb .FLT_STAT_CRKRUN 0 b).crkRuns = d.crkRuns := by
  have hrd : ∀ (f : Fld) (i : Nat), f ≠ .FLT_STAT_CRKRUN → (d.wrb .FLT_STAT_CRKRUN 0 b).rd f i = d.rd f i :=
    fun f i hf => d.rd_wr_of_ne 0 i _ hf
  have hpend : (d.wrb .FLT_STAT_CRKRUN 0 b).fltPend = d.fltPend := by
    funext n
    simp [Dev.fltPend, hrd]
  simp [Dev.crkRuns, Dev.pendingSources, hpend, Dev.on, hrd]

theorem Dev.rd_wrb_self (d : Dev) (f : Fld) (i : Nat) (b : Bool) : (d.wrb f i b).rd f i = bnat b % 2 ^ f.info.w := d.rd_wr_self f i _

theorem State.cricketShown_of_settle {s : State} {d : Dev} (hs : s.dev = d.settle) : s.CricketShown := by
  rw [State.cricketShown_iff, hs, Dev.settle, Dev.crkRuns_shown, Dev.rd_wrb_self]
  cases d.interlock.crkRuns <;> rfl

/-- Dropping the outputs, as TEST_MODE does (R706), leaves what is shown. -/
theorem State.cricketShown_of_held {s t : State} (hs : s.CricketShown) (ht : t.dev = { s.dev with out := [] }) : t.CricketShown := by
  rw [State.cricketShown_iff] at hs ⊢
  rw [ht]
  exact hs

/-- Settles O47: a step ends in a settled device, which shows the run condition, or in the device TEST_MODE holds, which showed it. -/
theorem stepShowsCricket : Obligations.StepShowsCricket := by
  unfold Obligations.StepShowsCricket
  intro s t hstep hbefore
  rcases step_settled hstep with ⟨d, hsettled⟩ | ⟨htest, hheld⟩
  · exact State.cricketShown_of_settle hsettled
  · have hshown : s.CricketShown := hbefore.resolve_left (by simp [htest])
    exact State.cricketShown_of_held hshown hheld

end Sys2Proof.Machine
end

section
/-! Faults, the hold, the configuration lock, clocks, watchdogs and CRICKET (R612-R628). -/

namespace Sys2Proof.Machine

section Faults

variable {d : Dev}

/-- The safe state is reached with the heads parked and the spindle off, stopped, braked or coasting (R616). -/
theorem Dev.safeReached_parked (hact : d.rd .FLT_STAT_SAFEACT ≠ 0) (hparked : d.allParked = true)
    (hspindle : d.rd .SPN_STAT_STATE = 0 ∨ d.rd .SPN_STAT_STATE = 1 ∨ d.rd .SPN_STAT_STATE = 5 ∨ d.rd .SPN_STAT_STATE = 6) :
    d.safeReached = d.wr .FLT_STAT_SAFE 0 1 :=
  if_pos (by simpa [Dev.on_eq_true hact, hparked, or_assoc] using hspindle)

/-- A recovery that has not come in time contains its fault at severity 3 (R620). -/
theorem Dev.recoveryTimeout_contains {n : Nat} (htimed : d.flt.timers.contains n = true) (hon : d.rd .FLT_CFG_RECTMO ≠ 0)
    (hwaited : d.waited (.recov n) (d.rd .FLT_CFG_RECTMO * 1250000) = true) (hlow : d.rd .FLT_SRCSTAT_EFFSEV n < 3) {d1 : Dev}
    (hd1 : d1 = ({ d with flt := { d.flt with timers := d.flt.timers.filter (· != n), expired := d.flt.expired ++ [n] } } : Dev).wr
      .FLT_SRCSTAT_EFFSEV n 3) {x : Nat × Nat × Nat} (hx : x = Tab.getD d.flt.lastData n (0, 0, 0)) :
    d.recoveryTimeout n =
      (d1.record n (d1.rd .FLT_SRCSTAT_INST n) 0 3 false true true x.1 x.2.1 x.2.2).react n 3 := by
  subst hd1 hx
  have hnow : ¬((!d.flt.timers.contains n || d.rd .FLT_CFG_RECTMO == 0 ||
      !d.waited (.recov n) (d.rd .FLT_CFG_RECTMO * 1250000)) = true) := by
    rw [htimed, hwaited, beq_eq_false_iff_ne.mpr hon]
    decide
  exact (if_neg hnow).trans (if_neg (Nat.not_le.mpr hlow))

/-- The hold is released while no source of severity 3 or more is pending, and else the release is refused (R616). -/
theorem Dev.holdRelease_held (hlow : d.topSev < 3) (hheld : d.rd .FLT_STAT_HOLD ≠ 0) :
    d.holdRelease = (d.wr .FLT_STAT_HOLD 0 0).event 0x512 0 0 0 0 :=
  (if_neg (Nat.not_le.mpr hlow)).trans (if_pos (Dev.on_eq_true hheld))

/-- While the configuration is not locked, each of its registers takes a write (R621). -/
theorem Dev.fltConfig_open (hopen : d.rd .FLT_CTL_LOCK = 0) (w : Nat) :
    (∀ (n : Fin 41) (d1 : Dev),
        d1 = ((d.wr .FLT_SRCCFG_BURST n.val (bits w 12 4)).wr .FLT_SRCCFG_NOESC n.val (bits w 8 1)).wr .FLT_SRCCFG_SEV n.val (bits w 0 3) →
        d.fltConfig (.src n) w = d1.setTokens n.val (min (d.tokensOf n.val) (bits w 12 4))) ∧
      d.fltConfig .cfg w =
        ((d.wr .FLT_CFG_CRKSEV 0 (bits w 24 3)).wr .FLT_CFG_RECTMO 0 (bits w 16 8)).wr .FLT_CFG_RLREFILL 0 (bits w 0 16) ∧
      d.fltConfig .temp w = (d.wr .FLT_TEMP_CRIT 0 (bits w 8 8)).wr .FLT_TEMP_HOT 0 (bits w 0 8) := by
  have hnot : ¬(d.on .FLT_CTL_LOCK = true) := by simp [Dev.on_eq_false hopen]
  refine ⟨fun n d1 hd1 => ?_, if_neg hnot, if_neg hnot⟩
  subst hd1
  exact if_neg hnot

theorem Dev.fltConfig_locked (hlocked : d.rd .FLT_CTL_LOCK ≠ 0) (r : FltReg) (w : Nat) : d.fltConfig r w = d.wr .FLT_STAT_LOCKREF 0 1 :=
  if_pos (Dev.on_eq_true hlocked)

/-- A watchdog that does not run yet takes its configuration and starts with EN (R623). -/
theorem Dev.wdCtl_starts {c w : Nat} (hoff : d.rd .FLT_WDCTL_EN c = 0) (hen : bit w 31 = true) {d1 : Dev}
    (hd1 : d1 = (d.wr .FLT_WDCTL_ACT c (bits w 8 1)).wr .FLT_WDCTL_PERIOD c (bits w 0 7)) :
    d.wdCtl c w = (({ d1 with flt := { d1.flt with wdStreak := Tab.del d1.flt.wdStreak c } } : Dev).wr .FLT_WDCTL_EN c 1).wdRestart c := by
  subst hd1
  exact (if_neg (by simp [Dev.on_eq_false hoff])).trans (if_pos hen)

theorem Dev.wdCtl_running {c : Nat} (hon : d.rd .FLT_WDCTL_EN c ≠ 0) (w : Nat) : d.wdCtl c w = d := if_pos (Dev.on_eq_true hon)

/-- The key of its own core restarts a watchdog, and a write of another master is shown (R623). -/
theorem Dev.wdKick_own (c : Nat) :
    d.wdKick (2 + c) c 0xA5 = ({ d with flt := { d.flt with wdStreak := Tab.del d.flt.wdStreak c } } : Dev).wdRestart c :=
  if_neg (by simp)

theorem Dev.wdKick_other {m c : Nat} (hother : m ≠ 2 + c) (key : Nat) : d.wdKick m c key = d.wr .FLT_WDSTAT_WRONG c 1 :=
  if_pos (by simpa using hother)

/-- What CRICKET's turn does at its end of the interval (R628). -/
def Dev.cricketTurn (d : Dev) : Dev := if d.crkRuns then { d with flt := { d.flt with crk := !d.flt.crk } } else d

theorem Dev.cricket_eq (d : Dev) : d.cricket = d.periodic .cricket 625000 Dev.cricketTurn := rfl

end Faults

/-- Settles O24: each clause is one rule of a fault source, of the hold, of the lock, of a clock, of a watchdog or of CRICKET. -/
theorem faultCollection : Obligations.FaultCollection := by
  unfold Obligations.FaultCollection
  refine ⟨?safe, ?recovery, ?acknowledge, ?force, ?release, ?releaseRefused, ?lock, ?source, ?config, ?temp, ?locked, ?clockLost,
    ?clockBack, ?wdStart, ?wdRuns, ?kick, ?wrongKick, ?cricket⟩
  case safe =>
    exact fun s d hmet hact hparked hspindle => exec_of_met Dev.safeReached hmet (Dev.safeReached_parked hact hparked hspindle)
  case recovery =>
    rintro s _ n after rfl htimed hon hwaited hlow
    exact exec_of_met (fun d => (d.advance after).recoveryTimeout n.val) rfl
      (Dev.recoveryTimeout_contains htimed hon hwaited hlow rfl rfl)
  case acknowledge => exact fun s d m hi w hmet => exec_of_met (·.ackWrite m.id hi w.toNat) hmet rfl
  case force => exact fun s d hi w hmet => exec_of_met (·.forceWrite hi w.toNat) hmet rfl
  case release => exact fun s d hmet hlow hheld => exec_of_met Dev.holdRelease hmet (Dev.holdRelease_held hlow hheld)
  case releaseRefused => exact fun s d hmet hhigh => exec_of_met Dev.holdRelease hmet (if_pos hhigh)
  case lock => exact fun s d hmet => exec_of_met (·.wr .FLT_CTL_LOCK 0 1) hmet rfl
  case source =>
    exact fun s d n w hmet hopen => exec_of_met (·.fltConfig (.src n) w.toNat) hmet ((Dev.fltConfig_open hopen w.toNat).1 n _ rfl)
  case config =>
    exact fun s d w hmet hopen => exec_of_met (·.fltConfig .cfg w.toNat) hmet (Dev.fltConfig_open hopen w.toNat).2.1
  case temp =>
    exact fun s d w hmet hopen => exec_of_met (·.fltConfig .temp w.toNat) hmet (Dev.fltConfig_open hopen w.toNat).2.2
  case locked => exact fun s d r w hmet hlocked => exec_of_met (·.fltConfig r w.toNat) hmet (Dev.fltConfig_locked hlocked r w.toNat)
  case clockLost => exact fun s d k hmet => exec_of_met (·.clockLoss k.val) hmet rfl
  case clockBack => exact fun s d k hmet => exec_of_met (·.wr (clockFld k.val) 0 1) hmet rfl
  case wdStart => exact fun s d c w hmet hoff hen => exec_of_met (·.wdCtl c.val w.toNat) hmet (Dev.wdCtl_starts hoff hen rfl)
  case wdRuns => exact fun s d c w hmet hon => exec_of_met (·.wdCtl c.val w.toNat) hmet (Dev.wdCtl_running hon w.toNat)
  case kick =>
    rintro s d c _ hmet rfl
    exact exec_of_met (·.wdKick (2 + c.val) c.val 0xA5) hmet (Dev.wdKick_own c.val)
  case wrongKick =>
    exact fun s d m c key hmet hother => exec_of_met (·.wdKick m.id c.val key.toNat) hmet (Dev.wdKick_other hother key.toNat)
  case cricket =>
    rintro s _ after rfl hdue hruns
    have hturn := (Dev.cricket_eq _).trans (Dev.periodic_acts hdue Dev.cricketTurn)
    exact exec_of_met (fun d => (d.advance after).cricket) rfl (hturn.trans (if_pos hruns))

end Sys2Proof.Machine
end

section
/-! The event recorder, its pages and its NOR log (R631-R643). -/

namespace Sys2Proof.Machine

section Recorder

variable {d : Dev}

theorem Dev.eventStore_queued {e : EvtIn} {q : List EvtIn} (hqueue : d.evt.queue = e :: q) :
    d.eventStore = (({ d with evt := { d.evt with queue := q } } : Dev).storeOne e).checkSaved := by
  simp only [Dev.eventStore, hqueue]

theorem Dev.eventStore_empty (hqueue : d.evt.queue = []) : d.eventStore = d.storeLost := by simp only [Dev.eventStore, hqueue]

/-- A bucket whose refill is due gains a token, up to its burst (R635). -/
theorem Dev.tokenRefill_due {b : Nat} (hdue : d.waitFrom (.bucket b) + d.refillOf b * 1250000 ≤ d.now) {d1 : Dev}
    (hd1 : d1 = d.nextInterval (.bucket b) (d.refillOf b * 1250000)) :
    d.tokenRefill b = d1.setTokens b (min (d1.burstOf b) (d1.tokensOf b + 1)) := by
  subst hd1
  exact Dev.periodic_acts hdue fun d => d.setTokens b (min (d.burstOf b) (d.tokensOf b + 1))

/-- An open page closes (R637). -/
theorem Dev.closePage_open (hopen : d.evt.page ≠ []) :
    d.closePage = ({ d with evt := { d.evt with page := [], closed := d.evt.closed ++ [d.evt.page] } } : Dev).endWait .page :=
  if_neg (by simpa using hopen)

/-- The NOR log is on after handover, while no power-fail sequence runs (R638). -/
structure Dev.Logging (d : Dev) : Prop where
  handed : d.rd .SYS_STAT_HANDOVER ≠ 0
  norlog : d.rd .EVT_CTL_NORLOG ≠ 0
  powered : d.spn.running = false

/-- The first closed page is programmed into erased space, and leaves the list when that succeeds (R638). -/
theorem Dev.pageProgram_first {p : List Nat} {ps : List (List Nat)} (h : d.Logging) (herased : 256 ≤ d.rd .EVT_NORERASED_BYTES)
    (hclosed : d.evt.closed = p :: ps) (ok : Bool) {d1 : Dev}
    (hd1 : d1 = (d.emit (.norProgram (d.logAddr (d.rd .EVT_NORWP_OFFSET)) (d.pageWords p))).logStep) :
    d.pageProgram ok =
      if ok then ({ d1 with evt := { d1.evt with closed := ps } } : Dev).checkSaved else d1.wr .EVT_STAT_NORERR 0 1 := by
  subst hd1
  obtain ⟨hhanded, hlog, hpowered⟩ := h
  have hnow : ¬((!d.handed || !d.on .EVT_CTL_NORLOG || decide (d.rd .EVT_NORERASED_BYTES < 256) || d.spn.running) = true) := by
    simp [d.handed_iff.mpr hhanded, Dev.on_eq_true hlog, hpowered, herased]
  rw [Dev.pageProgram, if_neg hnow, Dev.programPage, hclosed]
  rfl

/-- The next sector is erased ahead while the log has room (R639). -/
theorem Dev.sectorErase_room (h : d.Logging) (hroom : d.rd .EVT_NORERASED_BYTES + 4096 ≤ d.logSize) (ok : Bool) {d1 : Dev}
    (hd1 : d1 = d.emit (.norErase (d.logAddr (d.rd .EVT_NORWP_OFFSET + d.rd .EVT_NORERASED_BYTES)) 4096)) :
    d.sectorErase ok =
      if ok then d1.wr .EVT_NORERASED_BYTES 0 (d.rd .EVT_NORERASED_BYTES + 4096) else d1.wr .EVT_STAT_NORERR 0 1 := by
  subst hd1
  obtain ⟨hhanded, hlog, hpowered⟩ := h
  exact if_neg (by simp [d.handed_iff.mpr hhanded, Dev.on_eq_true hlog, hpowered, hroom])

/-- The log goes on at any time, and off before handover, as a plain write. -/
theorem Dev.norLog_plain {on : Bool} (h : on = true ∨ d.rd .SYS_STAT_HANDOVER = 0) : d.norLog on = d.wrb .EVT_CTL_NORLOG 0 on := by
  refine if_neg ?_
  rcases h with rfl | hearly
  · simp
  · simp [Dev.handed, Dev.on, Dev.wrb, hearly]

/-- Off after handover it drops what has not been programmed. -/
theorem Dev.norLog_drops (h : d.rd .SYS_STAT_HANDOVER ≠ 0) : d.norLog false = (d.wr .EVT_CTL_NORLOG 0 0).dropUnflushed :=
  if_pos (by simpa [Dev.handed, Dev.on, Dev.wrb] using h)

/-- A record of firmware's codes takes the data words its master has buffered (R643). -/
theorem Dev.swCode_valid {m w x0 x1 x2 : Nat} (hcode : 0xC000 ≤ w % 65536) (hx0 : x0 = d.loHalf m .EVT_SWDATA0 0)
    (hx1 : x1 = d.loHalf m .EVT_SWDATA1 0) (hx2 : x2 = d.loHalf m .EVT_SWDATA2 0) {d1 d2 : Dev}
    (hd1 : d1 = ((d.dropLo m .EVT_SWDATA0 0).dropLo m .EVT_SWDATA1 0).dropLo m .EVT_SWDATA2 0)
    (hd2 : d2 = ((((d1.wr .EVT_SWDATA0_DATA 0 x0).wr .EVT_SWDATA1_DATA 0 x1).wr .EVT_SWDATA2_DATA 0 x2).wr .EVT_SWCODE_INST 0
      (bits w 24 8)).wr .EVT_SWCODE_CODE 0 (w % 65536)) :
    d.swCode m w = d2.record (w % 65536) (bits w 24 8) m 7 false false false x0 x1 x2 := by
  subst hd2 hd1 hx0 hx1 hx2
  exact if_neg (Nat.not_lt.mpr hcode)

end Recorder

/-- Settles O25: each clause is one rule of the record queue, of a bucket, of the open page, of the NOR log or of a firmware record. -/
theorem eventRecorder : Obligations.EventRecorder := by
  unfold Obligations.EventRecorder
  refine ⟨?queued, ?owed, ?srcRefill, ?slotRefill, ?defaultRefill, ?pageStays, ?pageExpires, ?flush, ?program, ?erase, ?logOn, ?logOff,
    ?record, ?badCode⟩
  case queued => exact fun s d e q hmet hqueue => exec_of_met Dev.eventStore hmet (Dev.eventStore_queued hqueue)
  case owed => exact fun s d hmet hqueue => exec_of_met Dev.eventStore hmet (Dev.eventStore_empty hqueue)
  case srcRefill =>
    rintro s _ n after rfl hdue
    exact exec_of_met (fun d => (d.advance after).tokenRefill n.val) rfl (Dev.tokenRefill_due hdue rfl)
  case slotRefill =>
    rintro s _ i after rfl hdue
    exact exec_of_met (fun d => (d.advance after).tokenRefill (128 + i.val)) rfl (Dev.tokenRefill_due hdue rfl)
  case defaultRefill =>
    rintro s _ after rfl hdue
    exact exec_of_met (fun d => (d.advance after).tokenRefill 64) rfl (Dev.tokenRefill_due hdue rfl)
  case pageStays =>
    rintro s _ after rfl hearly
    exact exec_of_met (fun d => (d.advance after).pageTimeout) rfl (if_neg (by simp [hearly]))
  case pageExpires =>
    rintro s _ after rfl hwaited hopen
    exact exec_of_met (fun d => (d.advance after).pageTimeout) rfl ((if_pos hwaited).trans (Dev.closePage_open hopen))
  case flush => exact fun s d hmet hopen => exec_of_met Dev.closePage hmet (Dev.closePage_open hopen)
  case program =>
    intro s d ok p ps hmet hhanded hlog herased hpowered hclosed
    exact exec_of_met (·.pageProgram ok) hmet (Dev.pageProgram_first ⟨hhanded, hlog, hpowered⟩ herased hclosed ok rfl)
  case erase =>
    intro s d ok hmet hhanded hlog hroom hpowered
    exact exec_of_met (·.sectorErase ok) hmet (Dev.sectorErase_room ⟨hhanded, hlog, hpowered⟩ hroom ok rfl)
  case logOn => exact fun s d on hmet h => exec_of_met (·.norLog on) hmet (Dev.norLog_plain h)
  case logOff => exact fun s d hmet hhanded => exec_of_met (·.norLog false) hmet (Dev.norLog_drops hhanded)
  case record =>
    exact fun s d m w hmet hcode => exec_of_met (·.swCode m.id w.toNat) hmet (Dev.swCode_valid hcode rfl rfl rfl rfl rfl)
  case badCode => exact fun s d m w hmet hcode => exec_of_met (·.swCode m.id w.toNat) hmet (if_pos hcode)

end Sys2Proof.Machine
end

section
/-! The full path, handover, the warm path and the end of the restore (R652-R671). -/

namespace Sys2Proof.Machine

section Paths

variable {d : Dev}

theorem Dev.cfgIdle_of (hearly : d.rd .SYS_STAT_HANDOVER = 0) (hstate : d.rd .CFG_STAT_STATE = 0) : d.cfgIdle = true := by
  simp [Dev.cfgIdle, Dev.handed, Dev.on_eq_false hearly, hstate]

/-- From RESET the path goes on once the clocks lock, with what the NOR says of itself (R653, R656). -/
theorem Dev.imageLoad_started (hidle : d.cfgIdle = true) {n : NorImage} {after : Nat} {d1 : Dev}
    (hd1 : d1 = (((d.elapse after).clocksLock).wr .CFG_NORINFO_DENSITY 0 n.density.val).wrb .CFG_NORINFO_SUSP 0 n.fit) :
    d.imageLoad n after =
      if n.fit then
        let d2 := (d1.wr .CFG_NORINFO_QUAD 0 1).wr .CFG_NORINFO_DIV 0 24
        let b := norRead n 0 64
        let d3 := if dirValid b then d2.wr .CFG_SLOT_ACTIVE 0 (fieldLE b 24 1) else d2.cfgErr 1 0 0
        let d4 := d3.trySlots n (fieldLE b 26 1) (candidates b n.density.val)
        if d4.rd .CFG_STAT_STATE = 3 then d4.logScan n else d4
      else (d1.wr .CFG_STAT_STATE 0 6).cfgErr 12 0 0 := by
  subst hd1
  rw [Dev.imageLoad, if_neg (by simp [hidle])]
  cases n.fit <;> rfl

theorem Dev.clockTimeout_due (hidle : d.cfgIdle = true) (hdue : d.cfg.began + 12500000 ≤ d.now) :
    d.clockTimeout = (d.wr .CFG_STAT_STATE 0 6).cfgErr 12 0 0 := if_pos (by simp [hidle, hdue])

theorem Dev.handoverNow_ready (hearly : d.rd .SYS_STAT_HANDOVER = 0) (hstate : d.rd .CFG_STAT_STATE = 3) : d.handoverNow = d.handover :=
  if_pos (by simp [Dev.handed, Dev.on_eq_false hearly, hstate])

/-- A warm reset acts once the quiesce and the flush, or its 10 ms, are over (R667). -/
theorem Dev.warmReset_due (hkind : d.cfg.kind = 1) (hquiet : d.cfg.quiet = true)
    (hflush : d.waited .flush 12500000 = true ∨ d.flushed = true) : d.warmReset = d.warmBlocks.reapply.handover := by
  have hdue : d.resetDue 1 = true := by simpa [Dev.resetDue, hkind, hquiet] using hflush
  exact if_pos hdue

/-- The restore ends well with a sorted map that agrees with the bitmap, and else with both marks of an error (R671). -/
theorem Dev.restoreDone_checked (hhanded : d.rd .SYS_STAT_HANDOVER ≠ 0) :
    d.restoreDone =
      if mapSorted d.defectMap && d.bitmapAgrees d.defectMap then (d.wr .CFG_STAT_RESTORED 0 1).wr .HLT_STAT_READY 0 1
      else (d.stick .CFG_STAT_RESTERR).stick .TPE_STAT_MAPERR :=
  if_neg (by simp [d.handed_iff.mpr hhanded])

end Paths

/-- Settles O33: each clause is one path from the state it starts in, or the end of the restore. -/
theorem startUpAndHandover : Obligations.StartUpAndHandover := by
  unfold Obligations.StartUpAndHandover
  refine ⟨?load, ?unfit, ?noClock, ?handover, ?warm, ?restored, ?restoreError⟩
  case load =>
    intro s d n after hmet hearly hstate hfit
    exact exec_of_met (·.imageLoad n after) hmet ((Dev.imageLoad_started (Dev.cfgIdle_of hearly hstate) rfl).trans (by rw [hfit]; rfl))
  case unfit =>
    intro s d n after hmet hearly hstate hfit
    exact exec_of_met (·.imageLoad n after) hmet ((Dev.imageLoad_started (Dev.cfgIdle_of hearly hstate) rfl).trans (by rw [hfit]; rfl))
  case noClock =>
    rintro s _ after rfl hearly hstate hdue
    exact exec_of_met (fun d => (d.advance after).clockTimeout) rfl (Dev.clockTimeout_due (Dev.cfgIdle_of hearly hstate) hdue)
  case handover =>
    intro s d hmet hearly hstate
    exact exec_of_met Dev.handoverNow hmet
      ((Dev.handoverNow_ready hearly hstate).trans (by simp only [Dev.handover, Dev.checkTriggers]))
  case warm =>
    rintro s _ after rfl hkind hquiet hflush
    exact exec_of_met (fun d => (d.advance after).warmReset) rfl (Dev.warmReset_due hkind hquiet hflush)
  case restored =>
    intro s d hmet hhanded hsorted hagrees
    exact exec_of_met Dev.restoreDone hmet ((Dev.restoreDone_checked hhanded).trans (if_pos (by simp [hsorted, hagrees])))
  case restoreError =>
    intro s d hmet hhanded hbad
    have hnot : ¬((mapSorted d.defectMap && d.bitmapAgrees d.defectMap) = true) := by
      rcases hbad with hunsorted | hdisagrees
      · simp [hunsorted]
      · simp [hdisagrees]
    exact exec_of_met Dev.restoreDone hmet ((Dev.restoreDone_checked hhanded).trans (if_neg hnot))

end Sys2Proof.Machine
end

section
/-! The NOR access registers (R676). -/

namespace Sys2Proof.Machine

/-! ### The parts of a command word -/

section Word

variable {w op len : Nat} (hw : w = 2 ^ 31 + op * 2 ^ 28 + len)

include hw

theorem bits_norWord_op (hop : op < 8) (hlen : len < 2 ^ 24) : bits w 28 3 = op := by
  rw [bits]
  omega

theorem bits_norWord_len (hlen : len < 2 ^ 24) : bits w 0 24 = len := by
  rw [bits]
  omega

theorem bit_norWord_go (hop : op < 8) (hlen : len < 2 ^ 24) : bit w 31 = true := by
  rw [bit, beq_iff_eq]
  omega

end Word

/-! ### Commands -/

/-- The buffer address that the registers hold. -/
def Dev.norBuf (d : Dev) : Nat := d.rd .CFG_NORBUFLO_ADDR + d.rd .CFG_NORBUFHI_ADDR * 2 ^ 32

/-- The command register shows the command. -/
def Dev.norShown (d : Dev) (op len : Nat) : Dev := (d.wr .CFG_NORCMD_OP 0 op).wr .CFG_NORCMD_LEN 0 len

/-- The command is sent and under way. -/
def Dev.norStarted (d : Dev) (x : NorCmd) : Dev :=
  { d.norSend x.op x.addr x.len x.buf with cfg := { d.cfg with nor := some x } }

section Commands

variable {d : Dev} {w op len a n : Nat}

theorem Dev.norShown_rd (d : Dev) (op len : Nat) {f : Fld} (i : Nat) (hop : f ≠ .CFG_NORCMD_OP) (hlen : f ≠ .CFG_NORCMD_LEN) :
    (d.norShown op len).rd f i = d.rd f i := by
  rw [Dev.norShown, Dev.rd_wr_of_ne _ _ _ _ hlen, Dev.rd_wr_of_ne _ _ _ _ hop]

@[simp] theorem Dev.norBarred_norShown (d : Dev) (op len a n : Nat) : (d.norShown op len).norBarred a n = d.norBarred a n := by
  have hrd : ∀ f : Fld, f ≠ .CFG_NORCMD_OP → f ≠ .CFG_NORCMD_LEN → (d.norShown op len).rd f = d.rd f := fun f hop hlen =>
    d.norShown_rd op len 0 hop hlen
  rw [Dev.norBarred, Dev.norBarred, Dev.handed, Dev.handed, Dev.on, Dev.on, Dev.logSize, Dev.logSize, hrd _ (by decide) (by decide),
    hrd _ (by decide) (by decide), hrd _ (by decide) (by decide)]

@[simp] theorem Dev.norBuffer_norShown (d : Dev) (op len a n : Nat) : (d.norShown op len).norBuffer a n = d.norBuffer a n := by
  simp [Dev.norBuffer, Dev.rangeExists, Dev.memExists, Dev.on, Dev.norShown_rd]

/-- With GO a command that has no other before it is refused in the log area, refused without its buffer, or sent. -/
theorem Dev.norCommand_go (hnone : d.cfg.nor = none) (hw : w = 2 ^ 31 + op * 2 ^ 28 + len) (hop : op < 4) (hlen : len < 2 ^ 24)
    (hspan : norSpan op (d.rd .CFG_NORADDR_ADDR) len = (a, n)) :
    d.norCommand w =
      let d1 := d.norShown op len
      if d.norBarred a n then d1.stick .CFG_NORSTAT_PROT
      else if op < 2 ∧ !d.norBuffer d.norBuf n then d1.stick .CFG_NORSTAT_ERR
      else d1.norStarted { op := op, addr := a, buf := d.norBuf, len := n } := by
  have hknown : op < 8 := by omega
  have haddr : (d.norShown op len).rd .CFG_NORADDR_ADDR = d.rd .CFG_NORADDR_ADDR := Dev.norShown_rd _ _ _ _ (by decide) (by decide)
  have hbuf : (d.norShown op len).norBuf = d.norBuf := by simp [Dev.norBuf, Dev.norShown_rd]
  rw [← Dev.norBarred_norShown d op len a n, ← Dev.norBuffer_norShown d op len, ← hbuf]
  rw [← haddr] at hspan
  unfold Dev.norBuf
  unfold Dev.norShown at hspan ⊢
  simp only [Dev.norCommand, hnone, Option.isSome_none, bits_norWord_op hw hknown hlen, bits_norWord_len hw hlen,
    bit_norWord_go hw hknown hlen, hspan, Nat.not_le.mpr hop, Bool.not_true, Bool.false_eq_true, if_false]
  rfl

/-- A command outside the log area, with its buffer where it has one, is sent. -/
theorem Dev.norCommand_sent (hnone : d.cfg.nor = none) (hw : w = 2 ^ 31 + op * 2 ^ 28 + len) (hop : op < 4) (hlen : len < 2 ^ 24)
    (hspan : norSpan op (d.rd .CFG_NORADDR_ADDR) len = (a, n)) (hfree : d.norBarred a n = false)
    (hbuffer : op < 2 → d.norBuffer d.norBuf n = true) :
    d.norCommand w = (d.norShown op len).norStarted { op := op, addr := a, buf := d.norBuf, len := n } := by
  have hgood : ¬(op < 2 ∧ (!d.norBuffer d.norBuf n) = true) := fun hbad => by simp [hbuffer hbad.1] at hbad
  rw [Dev.norCommand_go hnone hw hop hlen hspan]
  exact (if_neg (by simp [hfree])).trans (if_neg hgood)

/-- One in the log area after handover is refused. -/
theorem Dev.norCommand_barred (hnone : d.cfg.nor = none) (hw : w = 2 ^ 31 + op * 2 ^ 28 + len) (hop : op < 4) (hlen : len < 2 ^ 24)
    (hspan : norSpan op (d.rd .CFG_NORADDR_ADDR) len = (a, n)) (hbarred : d.norBarred a n = true) :
    d.norCommand w = (d.norShown op len).stick .CFG_NORSTAT_PROT := by
  rw [Dev.norCommand_go hnone hw hop hlen hspan]
  exact if_pos hbarred

/-- The end of the command shows how it went; what was read is in its buffer. -/
theorem Dev.norEnd_running {x : NorCmd} (hrunning : d.cfg.nor = some x) (ok : Bool) (data : List Byte) {d1 : Dev}
    (hd1 : d1 = { d with cfg := { d.cfg with nor := none } }) :
    d.norEnd ok data =
      if ok then (if x.op = 0 then d1.mputBytes x.buf (data.take x.len) else d1).stick .CFG_NORSTAT_DONE
      else d1.stick .CFG_NORSTAT_ERR := by
  subst hd1
  simp only [Dev.norEnd, hrunning]
  cases ok <;> rfl

end Commands

/-- Settles O34: each clause is one command's word, sent or refused, or the end of a command. -/
theorem norCommands : Obligations.NorCommands := by
  unfold Obligations.NorCommands
  refine ⟨?read, ?program, ?erase4k, ?erase64k, ?barred, ?done, ?error⟩
  case read =>
    intro s d len hmet hnone hfree hbuffer
    exact exec_of_met (·.norCommand (2 ^ 31 + len.toNat)) hmet
      (Dev.norCommand_sent (op := 0) hnone (by omega) (by decide) len.isLt rfl hfree fun _ => hbuffer)
  case program =>
    intro s d len hmet hnone hfree hbuffer
    exact exec_of_met (·.norCommand (2 ^ 31 + 2 ^ 28 + len.toNat)) hmet
      (Dev.norCommand_sent (op := 1) hnone (by omega) (by decide) len.isLt rfl hfree fun _ => hbuffer)
  case erase4k =>
    intro s d hmet hnone hfree
    exact exec_of_met (·.norCommand (2 ^ 31 + 2 * 2 ^ 28)) hmet
      (Dev.norCommand_sent (op := 2) (len := 0) hnone (by omega) (by decide) (by decide) rfl hfree fun h => absurd h (by decide))
  case erase64k =>
    intro s d hmet hnone hfree
    exact exec_of_met (·.norCommand (2 ^ 31 + 3 * 2 ^ 28)) hmet
      (Dev.norCommand_sent (op := 3) (len := 0) hnone (by omega) (by decide) (by decide) rfl hfree fun h => absurd h (by decide))
  case barred =>
    intro s d hmet hnone hbarred
    exact exec_of_met (·.norCommand (2 ^ 31 + 2 * 2 ^ 28)) hmet
      (Dev.norCommand_barred (op := 2) (len := 0) hnone (by omega) (by decide) (by decide) rfl hbarred)
  case done =>
    rintro s d _ data x hmet hrunning rfl
    exact exec_of_met (·.norEnd true data) hmet (Dev.norEnd_running hrunning true data rfl)
  case error =>
    rintro s d _ data x hmet hrunning rfl
    exact exec_of_met (·.norEnd false data) hmet (Dev.norEnd_running hrunning false data rfl)

end Sys2Proof.Machine
end

section
/-! The service port's FUSE request (R681). -/

namespace Sys2Proof.Machine

/-- The bits of a word after a value has been added to it, where the request selects that word. -/
theorem testBit_lor_if (old val : Nat) (p : Bool) (k : Nat) :
    (if p then Nat.lor old val else old).testBit k = (old.testBit k || (p && val.testBit k)) := by
  cases p
  · simp
  · exact (Nat.testBit_or old val k).trans (by simp)

/-- A program request leaves the values in effect and adds its bits to the programmed words. -/
theorem Dev.fuseProgram_cfg (d : Dev) {sel : Nat} (hsel : sel < 4) (val : Nat) :
    (d.fuseProgram sel val).cfg = { d.cfg with blown :=
      { d.cfg.blown with
        hash0 := if sel == 0 then Nat.lor d.cfg.blown.hash0 val else d.cfg.blown.hash0
        hash1 := if sel == 1 then Nat.lor d.cfg.blown.hash1 val else d.cfg.blown.hash1
        minSvn := if sel == 2 then Nat.lor d.cfg.blown.minSvn val else d.cfg.blown.minSvn
        revoke0 := d.cfg.blown.revoke0 || sel == 3 } } := by
  obtain rfl | rfl | rfl | rfl : sel = 0 ∨ sel = 1 ∨ sel = 2 ∨ sel = 3 := by omega
  all_goals simp [Dev.fuseProgram]

/-- The staged request has been taken and counted (R680). -/
def Dev.commitTaken (d : Dev) : Dev := ({ d with svc := { d.svc with staged := none } } : Dev).count .SVC_CNT_COMMITS

theorem Dev.outCommit_fuse {d : Dev} {sel val : Nat} (hstaged : d.svc.staged = some (.fuse sel val)) (rivals : List (List RegWrite)) :
    d.outCommit rivals = if d.fuseAccepts sel val then d.commitTaken.fuseProgram sel val else d.commitTaken := by
  simp only [Dev.outCommit, hstaged]
  rfl

/-- Settles O51: a commit programs by or-ing into the selected word, and both resets load what is programmed. -/
theorem fuseProgramming : Obligations.FuseProgramming := by
  unfold Obligations.FuseProgramming
  refine ⟨?accepted, ?refused, ?programmed, ?powerOn, ?fullReset⟩
  case accepted =>
    intro d val
    simp [Dev.fuseAccepts]
  case refused =>
    intro s d rivals sel val hmet hsel hstaged hrefused
    have hcommit : d.outCommit rivals = d.commitTaken := by rw [Dev.outCommit_fuse hstaged, hrefused]; rfl
    exact ⟨_, exec_of_met (·.outCommit rivals) hmet hcommit, rfl⟩
  case programmed =>
    intro s d rivals sel val hmet hsel hstaged haccepted
    have hcommit : d.outCommit rivals = d.commitTaken.fuseProgram sel val := by rw [Dev.outCommit_fuse hstaged, haccepted]; rfl
    refine ⟨_, exec_of_met (·.outCommit rivals) hmet hcommit, ?_⟩
    rw [Dev.fuseProgram_cfg _ hsel]
    exact ⟨rfl, rfl, testBit_lor_if _ val _, testBit_lor_if _ val _, testBit_lor_if _ val _, rfl⟩
  case powerOn =>
    rintro s _ b rfl
    exact ⟨_, rfl, rfl, rfl⟩
  case fullReset =>
    rintro s _ after rfl hdue
    exact ⟨_, exec_of_met (fun d => (d.advance after).fullResetNow) rfl (if_pos hdue), rfl, rfl⟩

end Sys2Proof.Machine
end

section
/-! What a valid frame of another node does (R688-R701). -/

namespace Sys2Proof.Machine

/-- A node that runs, is on the bus and is not alone hears another. -/
structure Dev.Hears (d : Dev) (src : Nat) : Prop where
  enabled : d.rd .RCK_CTL_ENABLE ≠ 0
  onBus : d.rd .RCK_STAT_BUSOFF = 0
  other : src ≠ d.rd .RCK_CFG_NODE
  notSolo : d.rd .RCK_STAT_SOLO = 0

/-- A command that brings a frame of another node does what the frame says, once the receive error counter is lower. -/
theorem exec_received {c : Instr} {s : State} {d e : Dev} {src : Nat} (f : Dev → Dev) (hmet : s.dev.met = d) (hears : d.Hears src)
    (h : f d.heardOnce = e) (hrun : exec c s = s.run fun d => d.received src f := by rfl) : exec c s = .next (s.after e) := by
  refine exec_of_met (fun d => d.received src f) hmet ?_ hrun
  rw [Dev.received_other f (Dev.rckRuns_of hears.enabled hears.onBus) hears.other hears.notSolo, h]

section Frames

variable {d : Dev} {src : Nat}

/-- The first beacon of the master is taken as it comes (R699). -/
theorem Dev.beaconTake_first (hmaster : d.rck.master = some src) (hnone : d.rck.taken = none) (x num : Nat) :
    d.beaconTake src x num =
      { d with rck := { d.rck with taken := some { num := num, frac := d.ang.val % rev, cycle := d.now, prev := none } } } := by
  simp only [Dev.beaconTake, hmaster, hnone, bne_self_eq_false, Bool.false_eq_true, if_false]

/-- The next one in order gives the phase of the one before it (R699). -/
theorem Dev.beaconTake_next {t : Beacon} (hmaster : d.rck.master = some src) (htaken : d.rck.taken = some t) {num : Nat}
    (hnext : (t.num + 1) % 256 = num) (x : Nat) {u : Beacon}
    (hu : u = { num := num, frac := d.ang.val % rev, cycle := d.now, prev := some t.cycle }) {d1 : Dev}
    (hd1 : d1 = { d with rck := { d.rck with taken := some u } }) :
    d.beaconTake src x num = (d1.count .RCK_CNT_MARKERS).phaseMarker (subMod 24 t.frac x) (t.prev.map fun p => t.cycle - p) := by
  subst hd1 hu
  simp only [Dev.beaconTake, hmaster, htaken, hnext, bne_self_eq_false, Bool.false_eq_true, if_false]

/-- The steward's grant for the waiting request gives the token (R692). -/
theorem Dev.tokGrant_waiting {dst seq : Nat} (hdst : dst = d.node) (hsrc : src = d.steward) (hseq : seq = d.rck.seq) :
    d.tokGrant src dst seq = d.tokTake := if_pos ⟨hdst, hsrc, hseq⟩

theorem Dev.tokReq_steward (h : d.isSteward = true) (seq : Nat) : d.tokReq src seq = d.stewardQueue src seq := if_pos h

/-- A node that holds a token is noted as a holder from its first TOKHOLD on (R693). -/
theorem Dev.tokHold_new (hnew : d.rck.holds.contains src = false) {d1 : Dev} (hd1 : d1 = d.beginWait (.holder src)) :
    d.tokHold src = { d1 with rck := { d.rck with holds := d.rck.holds ++ [src] } } := by
  subst hd1
  refine if_neg fun hold => ?_
  exact absurd (hnew.symm.trans hold) (by decide)

end Frames

/-- Settles O31: each clause is what one frame does to the device that has heard it. -/
theorem rackFramesReceived : Obligations.RackFramesReceived := by
  unfold Obligations.RackFramesReceived
  refine ⟨?alert, ?firstBeacon, ?nextBeacon, ?grant, ?request, ?hold, ?release, ?hello, ?digest⟩
  case alert =>
    intro s d src hmet hon hbus hother hsolo
    exact exec_received Dev.alerted hmet ⟨hon, hbus, hother, hsolo⟩ rfl
  case firstBeacon =>
    intro s d src x num hmet hon hbus hother hsolo hmaster hnone
    exact exec_received (·.beaconTake src.val x.toNat num.toNat) hmet ⟨hon, hbus, hother, hsolo⟩
      (Dev.beaconTake_first (d := d.heardOnce) hmaster hnone _ _)
  case nextBeacon =>
    intro s d src x num t hmet hon hbus hother hsolo hmaster htaken hnext
    exact exec_received (·.beaconTake src.val x.toNat num.toNat) hmet ⟨hon, hbus, hother, hsolo⟩
      (Dev.beaconTake_next (d := d.heardOnce) hmaster htaken hnext _ rfl rfl)
  case grant =>
    intro s d src dst seq hmet hon hbus hother hsolo hdst hsrc hseq
    exact exec_received (·.tokGrant src.val dst.val seq.toNat) hmet ⟨hon, hbus, hother, hsolo⟩
      (Dev.tokGrant_waiting (d := d.heardOnce) hdst hsrc hseq)
  case request =>
    intro s d src seq hmet hon hbus hother hsolo hsteward
    exact exec_received (·.tokReq src.val seq.toNat) hmet ⟨hon, hbus, hother, hsolo⟩
      (Dev.tokReq_steward (d := d.heardOnce) hsteward seq.toNat)
  case hold =>
    intro s d src hmet hon hbus hother hsolo hnew
    exact exec_received (·.tokHold src.val) hmet ⟨hon, hbus, hother, hsolo⟩ (Dev.tokHold_new (d := d.heardOnce) hnew rfl)
  case release =>
    intro s d src hmet hon hbus hother hsolo
    exact exec_received (·.tokFree src.val) hmet ⟨hon, hbus, hother, hsolo⟩ rfl
  case hello =>
    intro s d src flags hmet hon hbus hother hsolo
    exact exec_received (·.helloFrom src.val flags.toNat) hmet ⟨hon, hbus, hother, hsolo⟩ rfl
  case digest =>
    intro s d src hmet hon hbus hother hsolo
    exact exec_received id hmet ⟨hon, hbus, hother, hsolo⟩ rfl

end Sys2Proof.Machine
end

section
/-! Sending, bus errors, the steward, RACK_ALERT and the beacon master (R688-R700). -/

namespace Sys2Proof.Machine

section Sending

variable {d : Dev} {f : RackFrame} {q : List RackFrame}

theorem Dev.frameTransmit_first (hruns : d.rckRuns = true) (hqueue : d.rck.queue = f :: q) (r : TxResult) :
    d.frameTransmit r = match r with
      | .acked => d.rackSent f d.beaconD
      | .unacked => d.frameUnacked f
      | .error => if d.on .RCK_STAT_SOLO then d.dropFrame.txError else d.txError := by
  cases r <;> simp only [Dev.frameTransmit, hruns, hqueue, Bool.not_true, Bool.false_eq_true, if_false]

/-- An acknowledged frame that is no BEACON leaves the queue and lowers the transmit error counter (R695, R697). -/
theorem Dev.rackSent_plain (hqueue : d.rck.queue = f :: q) (hsolo : d.rd .RCK_STAT_SOLO = 0) (hplain : f.type ≠ fBeacon) (frac : Nat) :
    d.rackSent f frac =
      ({ d with rck := { d.rck with queue := q, txerr := d.rck.txerr - 1 } } : Dev).emit
        (.rackFrame f.type (d.rd .RCK_CFG_NODE) f.dst f.bytes) := by
  obtain rfl : q = d.rck.queue.tail := by rw [hqueue, List.tail_cons]
  have hstays : ∀ e : Dev, e.rd .RCK_STAT_SOLO = 0 → e.soloOver = e := fun e h => if_pos (by simp [Dev.on_eq_false h])
  rw [Dev.rackSent, if_neg hplain]
  exact hstays _ hsolo

/-- A frame that nobody acknowledges is tried again, 16 times at most (R695). -/
theorem Dev.frameUnacked_again (hqueue : d.rck.queue = f :: q) (hsolo : d.rd .RCK_STAT_SOLO = 0) (hpassive : 128 ≤ d.rck.txerr)
    (htries : f.tries < 15) :
    d.frameUnacked f = { d with rck := { d.rck with queue := { f with tries := f.tries + 1 } :: q } } := by
  have hagain : f.tries + 1 < 16 := by omega
  rw [Dev.frameUnacked, if_neg (by simp [Dev.on_eq_false hsolo]), if_neg (Nat.not_lt.mpr hpassive), if_pos hagain, hqueue, List.tail_cons]

theorem Dev.busoffEnd_recovers (hoff : d.rd .RCK_STAT_BUSOFF ≠ 0) (hmay : d.rd .RCK_CTL_MANREC = 0 ∨ d.rck.restart = true) :
    d.busoffEnd = ({ d with rck := { d.rck with txerr := 0, rxerr := 0, restart := false } } : Dev).wr .RCK_STAT_BUSOFF 0 0 := by
  refine if_neg ?_
  rcases hmay with hauto | hrestart
  · simp [Dev.on_eq_true hoff, Dev.on_eq_false hauto]
  · simp [Dev.on_eq_true hoff, hrestart]

theorem Dev.delayEnd_due (hdelay : d.rck.delay = true) (hend : d.rck.endAt ≤ d.now) :
    d.delayEnd = ({ d with rck := { d.rck with delay := false, freed := true } } : Dev).tokenObtained := if_pos (by simp [hdelay, hend])

/-- HELLO is sent every second (R690). -/
theorem Dev.helloDue_sends (hdue : d.waitFrom .hello + second ≤ d.now) (hon : d.rd .RCK_CTL_ENABLE ≠ 0) :
    d.helloDue = (d.nextInterval .hello second).sendHello :=
  (Dev.periodic_acts hdue fun d => if d.on .RCK_CTL_ENABLE then d.sendHello else d).trans (if_pos (Dev.on_eq_true hon))

/-- A waiting request is repeated every second (R692). -/
theorem Dev.tokReqDue_sends (hon : d.rd .RCK_CTL_ENABLE ≠ 0) (hwant : d.rck.want = true) (hsolo : d.rd .RCK_STAT_SOLO = 0)
    (hwaited : d.waited .tokReq second = true) : d.tokReqDue = d.sendTokReq :=
  if_pos (by simp [Dev.on_eq_true hon, hwant, Dev.on_eq_false hsolo, hwaited])

/-- TOKHOLD is repeated while the token is held (R693). -/
theorem Dev.tokHoldDue_sends (hon : d.rd .RCK_CTL_ENABLE ≠ 0) (hwaited : d.waited .tokHold 312500000 = true) (hhold : d.rck.hold = true) :
    d.tokHoldDue = (d.beginWait .tokHold).rackSend fTokHold 0 (leBytes d.rck.seq 2 ++ [0, 0]) :=
  (if_pos (by simp [Dev.on_eq_true hon, hwaited])).trans (if_pos hhold)

end Sending

section Stewardship

variable {d : Dev}

theorem Dev.nodeLost_forgets {n : Nat} (hwaited : d.waited (.heard n) (2 * second) = true) :
    d.nodeLost n =
      (({ d with rck := { d.rck with heard := Tab.del d.rck.heard n } } : Dev).endWait (.heard n)).stewardMoved d.steward :=
  if_neg (by simp [hwaited])

/-- The steward grants the first request when it may, here one of another node (R692). -/
theorem Dev.stewardGrant_other {n q : Nat} {rs : List (Nat × Nat)} (hreqs : d.rck.reqs = (n, q) :: rs) (hmay : d.mayGrant = true)
    (hother : n ≠ d.node) :
    d.stewardGrant = ({ d with rck := { d.rck with reqs := rs } } : Dev).rackSend fTokGrant n (leBytes q 2 ++ [0, 0]) := by
  simp only [Dev.stewardGrant, hreqs, hmay, Bool.not_true, Bool.false_eq_true, if_false]
  exact if_neg hother

theorem Dev.holdExpiry_expires {n : Nat} (hwaited : d.waited (.holder n) second = true) : d.holdExpiry n = d.tokFree n := if_pos hwaited

/-- A new choice of master that has stood for 2 seconds takes over (R699). -/
theorem Dev.masterChange_due (hruns : d.rckRuns = true) (hnew : d.rck.choice ≠ d.rck.master)
    (hwaited : d.waited .choice (2 * second) = true) :
    d.masterChange = { d with rck := { d.rck with master := d.rck.choice, taken := none, mine := none } } :=
  if_neg (by simp [hruns, hnew, hwaited])

/-- The master sends BEACON with the phase of its last one when its marker falls (R698, R699). -/
theorem Dev.beaconSend_next {x : Nat} (hruns : d.rckRuns = true) (hmaster : d.rck.master = some d.node)
    (hfell : d.fellSince d.phaseTarget (d.waitFrom .beacon + 1024) = true) (hmine : d.rck.mine = some x) :
    d.beaconSend =
      (({ d with rck := { d.rck with bnum := (d.rck.bnum + 1) % 256 } } : Dev).beginWait .beacon).rackSend fBeacon 0
        (leBytes x 3 ++ [d.rck.bnum]) := by
  have hnow : ¬((!d.rckRuns || d.rck.master != some d.node || !d.fellSince d.phaseTarget (d.waitFrom .beacon + 1024)) = true) := by
    simp [hruns, hmaster, hfell]
  rw [Dev.beaconSend, if_neg hnow]
  simp only [hmine, Option.getD_some, Option.isSome_some, if_true]

theorem Dev.alertSense_foreign (hquiet : d.rd .RCK_STAT_ALERTOUT = 0) : d.alertSense = (d.wr .RCK_STAT_ALERTIN 0 1).alerted :=
  if_neg (by simp [Dev.on_eq_false hquiet])

theorem Dev.alertRelease_due (hpowered : d.spn.running = false) (hover : d.rck.alertTill ≤ d.now) :
    d.alertRelease = d.wr .RCK_STAT_ALERTOUT 0 0 := if_neg (by simp [hpowered, hover])

end Stewardship

/-- Settles O32: each clause is one rule of the queue, of a bus error, of a timer, of the steward, of RACK_ALERT or of the master. -/
theorem rackFramesSent : Obligations.RackFramesSent := by
  unfold Obligations.RackFramesSent
  refine ⟨?acked, ?unacked, ?recovery, ?restart, ?delay, ?hello, ?tokReq, ?tokHold, ?lost, ?grant, ?expiry, ?master, ?beacon, ?alertIn,
    ?alertOut, ?foreign, ?error⟩
  case acked =>
    intro s d f q hmet hon hbus hqueue hsolo hplain
    exact exec_of_met (·.frameTransmit .acked) hmet
      ((Dev.frameTransmit_first (Dev.rckRuns_of hon hbus) hqueue .acked).trans (Dev.rackSent_plain hqueue hsolo hplain _))
  case unacked =>
    intro s d f q hmet hon hbus hqueue hsolo hpassive htries
    exact exec_of_met (·.frameTransmit .unacked) hmet
      ((Dev.frameTransmit_first (Dev.rckRuns_of hon hbus) hqueue .unacked).trans (Dev.frameUnacked_again hqueue hsolo hpassive htries))
  case recovery => exact fun s d hmet hoff hmay => exec_of_met Dev.busoffEnd hmet (Dev.busoffEnd_recovers hoff hmay)
  case restart =>
    intro s d hmet hoff hman
    exact exec_of_met (fun d => if d.on .RCK_STAT_BUSOFF && d.on .RCK_CTL_MANREC then { d with rck := { d.rck with restart := true } } else d)
      hmet (if_pos (by simp [Dev.on_eq_true hoff, Dev.on_eq_true hman]))
  case delay =>
    rintro s _ after rfl hdelay hend
    exact exec_of_met (fun d => (d.advance after).delayEnd) rfl (Dev.delayEnd_due hdelay hend)
  case hello =>
    rintro s _ after rfl hdue hon
    exact exec_of_met (fun d => (d.advance after).helloDue) rfl (Dev.helloDue_sends hdue hon)
  case tokReq =>
    rintro s _ after rfl hon hwant hsolo hwaited
    exact exec_of_met (fun d => (d.advance after).tokReqDue) rfl (Dev.tokReqDue_sends hon hwant hsolo hwaited)
  case tokHold =>
    rintro s _ after rfl hon hwaited hhold
    exact exec_of_met (fun d => (d.advance after).tokHoldDue) rfl (Dev.tokHoldDue_sends hon hwaited hhold)
  case lost =>
    rintro s _ n after rfl hwaited
    exact exec_of_met (fun d => (d.advance after).nodeLost n.val) rfl (Dev.nodeLost_forgets hwaited)
  case grant =>
    rintro s _ n q rs after rfl hreqs hmay hother
    exact exec_of_met (fun d => (d.advance after).stewardGrant) rfl (Dev.stewardGrant_other hreqs hmay hother)
  case expiry =>
    rintro s _ n after rfl hwaited
    exact exec_of_met (fun d => (d.advance after).holdExpiry n.val) rfl (Dev.holdExpiry_expires hwaited)
  case master =>
    rintro s _ after rfl hon hbus hnew hwaited
    exact exec_of_met (fun d => (d.advance after).masterChange) rfl (Dev.masterChange_due (Dev.rckRuns_of hon hbus) hnew hwaited)
  case beacon =>
    rintro s _ x after rfl hon hbus hmaster hfell hmine
    exact exec_of_met (fun d => (d.advance after).beaconSend) rfl (Dev.beaconSend_next (Dev.rckRuns_of hon hbus) hmaster hfell hmine)
  case alertIn => exact fun s d hmet hquiet => exec_of_met Dev.alertSense hmet (Dev.alertSense_foreign hquiet)
  case alertOut =>
    rintro s _ after rfl hpowered hover
    exact exec_of_met (fun d => (d.advance after).alertRelease) rfl (Dev.alertRelease_due hpowered hover)
  case foreign =>
    intro s d hmet hon hbus
    exact exec_of_met (fun d => if d.rckRuns then d.count .RCK_CNT_FOREIGN else d) hmet (if_pos (Dev.rckRuns_of hon hbus))
  case error =>
    intro s d major hmet hon hbus
    exact exec_of_met (fun d => if d.rckRuns then { d with rck := { d.rck with rxerr := d.rck.rxerr + (if major then 8 else 1) } } else d)
      hmet (if_pos (Dev.rckRuns_of hon hbus))

end Sys2Proof.Machine
end

section
/-! The service port's connection and its standard requests (R677-R684). -/

namespace Sys2Proof.Machine

section Connection

variable {d : Dev}

/-- VBUS attaches a port that a mode enables and that is not held off (R677). -/
theorem Dev.vbusChange_attaches (hmode : d.rd .SVC_CFG_MODE ≠ 0) (hidle : d.rd .SVC_STAT_STATE = 0) (hoff : d.svc.offTill ≤ d.now) :
    d.vbusChange true = ({ d with svc := { d.svc with vbus := true } } : Dev).wr .SVC_STAT_STATE 0 1 :=
  (if_pos (beq_iff_eq.mpr hidle)).trans (if_pos (by simp [Dev.rd] at hmode ⊢; exact ⟨hmode, hoff⟩))

/-- A port whose mode is off leaves the bus (R677). -/
theorem Dev.vbusChange_modeOff (hmode : d.rd .SVC_CFG_MODE = 0) (hstate : d.rd .SVC_STAT_STATE ≠ 0) :
    d.vbusChange true = ({ d with svc := { d.svc with vbus := true } } : Dev).svcDown 0 :=
  (if_neg (mt beq_iff_eq.mp hstate)).trans (if_pos (beq_iff_eq.mpr hmode))

/-- The loss of VBUS takes a port that is attached down (R677). -/
theorem Dev.vbusChange_lost (hstate : d.rd .SVC_STAT_STATE ≠ 0) :
    d.vbusChange false = ({ d with svc := { d.svc with vbus := false } } : Dev).svcDown 1 :=
  if_neg hstate

/-- A bus reset puts an attached port in Default, with the speed of the chirp (R677). -/
theorem Dev.usbReset_attached (hstate : d.rd .SVC_STAT_STATE ≠ 0) (hvbus : d.svc.vbus = true) (hs : Bool) :
    d.usbReset hs = ((d.svcDown 2).wr .SVC_STAT_HS 0 (if hs then 1 else 0)).count .SVC_CNT_RESETS :=
  if_neg (by simp [Dev.svcState, hstate, hvbus])

theorem Dev.usbSuspend_attached (hlow : 1 ≤ d.rd .SVC_STAT_STATE) (hhigh : d.rd .SVC_STAT_STATE ≤ 4) :
    d.usbSuspend true =
      ({ d with svc := { d.svc with back := d.rd .SVC_STAT_STATE } } : Dev).wr .SVC_STAT_STATE 0 5 :=
  if_pos ⟨hlow, hhigh⟩

theorem Dev.usbSuspend_resumes (hstate : d.rd .SVC_STAT_STATE = 5) :
    d.usbSuspend false = d.wr .SVC_STAT_STATE 0 d.svc.back :=
  if_pos hstate

end Connection

section Requests

variable {d : Dev}

/-- Dropping a staged request leaves the port's state. -/
@[simp] theorem Dev.svcAbandon_state (d : Dev) : d.svcAbandon.rd .SVC_STAT_STATE = d.rd .SVC_STAT_STATE := by
  unfold Dev.svcAbandon
  split
  · exact Dev.rd_wr_of_ne _ _ _ _ (by decide)
  · rfl

theorem Dev.usbTalks_of (hlow : 2 ≤ d.rd .SVC_STAT_STATE) (hhigh : d.rd .SVC_STAT_STATE ≤ 4) : d.usbTalks = true := by
  simp [Dev.usbTalks, Dev.svcState, hlow, hhigh]

/-- A port that talks takes a SETUP, which drops what is staged (R680). -/
theorem Dev.svcSetup_talks (htalks : d.usbTalks = true) (f : Dev → Dev) : d.svcSetup f = f d.svcAbandon :=
  if_pos htalks

/-- SET_ADDRESS takes the address and moves between Default and Address (R678). -/
theorem Dev.standardRequest_setAddress (hlow : 2 ≤ d.rd .SVC_STAT_STATE) (hhigh : d.rd .SVC_STAT_STATE ≤ 3) {v : BitVec 16}
    (hv : v.toNat < 128) (i l : BitVec 16) {d1 : Dev} (hd1 : d1 = d.svcAbandon) :
    d.standardRequest { type := 0, request := 5, value := v, index := i, length := l } =
      ({ d1 with svc := { d1.svc with addr := v.toNat } } : Dev).wr .SVC_STAT_STATE 0 (if v.toNat = 0 then 2 else 3) := by
  subst hd1
  have hstate : d.svcAbandon.svcState < 4 := (Dev.svcAbandon_state d).trans_lt (by omega)
  exact (Dev.svcSetup_talks (Dev.usbTalks_of hlow (by omega)) _).trans (if_pos ⟨rfl, hv, hstate⟩)

/-- SET_CONFIGURATION takes the configuration and moves between Address and Configured (R678). -/
theorem Dev.standardRequest_setConfiguration (hlow : 3 ≤ d.rd .SVC_STAT_STATE) (hhigh : d.rd .SVC_STAT_STATE ≤ 4) {v : BitVec 16}
    (hv : v.toNat ≤ 1) (i l : BitVec 16) :
    d.standardRequest { type := 0, request := 9, value := v, index := i, length := l } = d.svcAbandon.usbConfigure v.toNat := by
  have hstate : 3 ≤ d.svcAbandon.svcState := hlow.trans_eq (Dev.svcAbandon_state d).symm
  exact (Dev.svcSetup_talks (Dev.usbTalks_of (by omega) hhigh) _).trans (if_pos ⟨rfl, hstate, hv⟩)

/-- GET_DESCRIPTOR answers the device descriptor, cut to the length asked for (R678). -/
theorem Dev.standardRequest_deviceDesc (htalks : d.usbTalks = true) (i l : BitVec 16) :
    d.standardRequest { type := 0x80, request := 6, value := 0x0100, index := i, length := l } =
      d.svcAbandon.emit (.usb 0 (d.svcAbandon.deviceDesc.take l.toNat)) :=
  (Dev.svcSetup_talks htalks _).trans (by simp [Dev.descriptor, Dev.svcIn])

/-- A request the port does not know is refused with cause 1 (R682). -/
theorem Dev.standardRequest_unknown (htalks : d.usbTalks = true) {x : Setup} (hx : 12 < x.request.toNat) :
    d.standardRequest x = d.svcAbandon.svcRefuse 1 := by
  refine (Dev.svcSetup_talks htalks _).trans ?_
  generalize x.request.toNat = r at hx
  split
  case h_10 => rfl
  all_goals omega

end Requests

/-- Settles O35: one equation per event of the bus and per request, over the state the port is in. -/
theorem servicePortConnection : Obligations.ServicePortConnection := by
  unfold Obligations.ServicePortConnection
  refine ⟨?attach, ?modeOff, ?lost, ?busReset, ?suspend, ?resume, ?address, ?configuration, ?descriptor, ?unknown⟩
  case attach =>
    intro s d hmet hmode hidle hoff
    exact exec_of_met (·.vbusChange true) hmet (Dev.vbusChange_attaches hmode hidle hoff)
  case modeOff =>
    intro s d hmet hmode hstate
    exact exec_of_met (·.vbusChange true) hmet (Dev.vbusChange_modeOff hmode hstate)
  case lost =>
    intro s d hmet hstate
    exact exec_of_met (·.vbusChange false) hmet (Dev.vbusChange_lost hstate)
  case busReset =>
    intro s d hs hmet hstate hvbus
    exact exec_of_met (·.usbReset hs) hmet (Dev.usbReset_attached hstate hvbus hs)
  case suspend =>
    intro s d hmet hlow hhigh
    exact exec_of_met (·.usbSuspend true) hmet (Dev.usbSuspend_attached hlow hhigh)
  case resume =>
    intro s d hmet hstate
    exact exec_of_met (·.usbSuspend false) hmet (Dev.usbSuspend_resumes hstate)
  case address =>
    intro s d v i l hmet hlow hhigh hv
    exact exec_of_met (·.standardRequest _) hmet (Dev.standardRequest_setAddress hlow hhigh hv i l rfl)
  case configuration =>
    intro s d v i l hmet hlow hhigh hv
    exact exec_of_met (·.standardRequest _) hmet (Dev.standardRequest_setConfiguration hlow hhigh hv i l)
  case descriptor =>
    intro s d i l hmet hlow hhigh
    exact exec_of_met (·.standardRequest _) hmet (Dev.standardRequest_deviceDesc (Dev.usbTalks_of hlow hhigh) i l)
  case unknown =>
    intro s d x hmet hlow hhigh hx
    exact exec_of_met (·.standardRequest x) hmet (Dev.standardRequest_unknown (Dev.usbTalks_of hlow hhigh) hx)

end Sys2Proof.Machine
end

section
/-! The service port's vendor requests, its streams and DIGREQ (R679-R702). -/

namespace Sys2Proof.Machine

section Setups

variable {d : Dev} (htalks : d.usbTalks = true)
include htalks

theorem Dev.svcRegrd_admitted {o len : Nat} (h : d.svcAbandon.regRefusal false o len = none) {r : Dev × List Nat}
    (hr : r = d.svcAbandon.regsRead o (len / 4)) : d.svcRegrd o len = r.1.emit (.usb 0 r.2) := by
  subst hr
  refine (Dev.svcSetup_talks htalks _).trans ?_
  simp only [h]
  rfl

theorem Dev.svcRegrd_refused {o len x : Nat} (h : d.svcAbandon.regRefusal false o len = some x) :
    d.svcRegrd o len = d.svcAbandon.svcRefuse x := by
  refine (Dev.svcSetup_talks htalks _).trans ?_
  simp only [h]

theorem Dev.svcRegwr_admitted {o : Nat} {words : List Nat} (h : d.svcAbandon.regRefusal true o (4 * words.length) = none) :
    d.svcRegwr o words = d.svcAbandon.stage (.regwr o words) := by
  refine (Dev.svcSetup_talks htalks _).trans ?_
  simp only [h]

/-- The short digest is read whole (R680). -/
theorem Dev.svcDigest_whole : d.svcDigest 64 = d.svcAbandon.emit (.usb 0 d.svcAbandon.shortDigest) :=
  Dev.svcSetup_talks htalks _

/-- An admitted memory read answers with the bytes it reaches, or is refused with cause 5 (R680, R682). -/
theorem Dev.svcMemrd_admitted {len : Nat} {err : Option MemErr} (h : d.svcAbandon.memRefusal false len = none) {a : Nat}
    (ha : a = d.svcAbandon.maddr) {r : Dev × Bool} (hr : r = d.svcAbandon.readMem 1 a len err) :
    d.svcMemrd len err =
      if r.2 then (r.1.setMaddr (a + len)).emit (.usb 0 ((r.1.ldBytes a len).map BitVec.toNat)) else r.1.svcRefuse 5 := by
  subst hr ha
  refine (Dev.svcSetup_talks htalks _).trans ?_
  simp only [h]
  rfl

theorem Dev.svcMemwr_admitted {bytes : List Byte} (h : d.svcAbandon.memRefusal true bytes.length = none) :
    d.svcMemwr bytes = d.svcAbandon.stage (.memwr bytes) := by
  refine (Dev.svcSetup_talks htalks _).trans ?_
  simp only [h]

theorem Dev.svcReset_admitted {kind : Nat} (hkind : kind = 1 ∨ kind = 2) (hadmits : d.svcAbandon.svcAdmits false true = true) :
    d.svcReset kind 0 = d.svcAbandon.stage (.reset (kind == 2)) := by
  refine (Dev.svcSetup_talks htalks _).trans ?_
  have hknown : ¬ (kind ≠ 1 ∧ kind ≠ 2) := by omega
  simp only [hknown, hadmits, Bool.not_true, Bool.false_eq_true, ne_eq, not_true_eq_false, if_false]

theorem Dev.svcFuse_admitted {sel : Nat} (hsel : sel ≤ 3) (hadmits : d.svcAbandon.svcAdmits false true = true)
    (hopen : d.svcAbandon.rd .CFG_STAT_STATE = 6 ∨ d.svcAbandon.rd .SVC_CFG_FUSE ≠ 0) {bytes : List Byte}
    (hlen : bytes.length = if sel < 2 then 48 else 1) (haccepts : d.svcAbandon.fuseAccepts sel (ofBytesBE bytes) = true) :
    d.svcFuse sel bytes = d.svcAbandon.stage (.fuse sel (ofBytesBE bytes)) := by
  have hopen' : (d.svcAbandon.rd .CFG_STAT_STATE == 6 || d.svcAbandon.on .SVC_CFG_FUSE) = true := by
    simpa [Dev.on] using hopen
  refine (Dev.svcSetup_talks htalks _).trans ?_
  simp only [Nat.not_lt.mpr hsel, hadmits, hopen', hlen, haccepts, Bool.not_true, Bool.or_self, Bool.false_eq_true, ne_eq,
    not_true_eq_false, if_false]

end Setups

section Commits

variable {d : Dev} (rivals : List (List RegWrite))

theorem Dev.outCommit_regwr {off : Nat} {words : List Nat} (hstaged : d.svc.staged = some (.regwr off words)) :
    d.outCommit rivals = d.commitTaken.regsWrite off rivals words := by
  simp only [Dev.outCommit, hstaged]
  rfl

/-- Taking a staged request writes only the counter of the commits. -/
theorem Dev.commitTaken_rd (d : Dev) {g : Fld} (i : Nat) (hg : g ≠ .SVC_CNT_COMMITS) : d.commitTaken.rd g i = d.rd g i :=
  Dev.rd_wr_of_ne _ _ _ _ hg

theorem Dev.commitTaken_maddr (d : Dev) : d.commitTaken.maddr = d.maddr := by
  unfold Dev.maddr
  rw [Dev.commitTaken_rd d 0 (by decide), Dev.commitTaken_rd d 0 (by decide)]

theorem Dev.commitTaken_memExists (d : Dev) (a : Nat) : d.commitTaken.memExists a = d.memExists a := by
  unfold Dev.memExists Dev.on
  rw [Dev.commitTaken_rd d 0 (by decide), Dev.commitTaken_rd d 0 (by decide)]

theorem Dev.commitTaken_svcReaches (d : Dev) (a n : Nat) : d.commitTaken.svcReaches a n = d.svcReaches a n := by
  simp only [Dev.svcReaches, Dev.rangeExists, Dev.commitTaken_memExists]

/-- A write that reaches DRAM or an SRAM stores its bytes and moves SVC_MADDR on (R680). -/
theorem Dev.outCommit_memwr {bytes : List Byte} (hstaged : d.svc.staged = some (.memwr bytes))
    (hreach : d.svcReaches d.maddr bytes.length = true) :
    d.outCommit rivals = (d.commitTaken.mputBytes d.maddr bytes).setMaddr (d.maddr + bytes.length) := by
  have hcommit : d.outCommit rivals =
      if d.commitTaken.svcReaches d.commitTaken.maddr bytes.length then
        (d.commitTaken.mputBytes d.commitTaken.maddr bytes).setMaddr (d.commitTaken.maddr + bytes.length)
      else d.commitTaken := by
    simp only [Dev.outCommit, hstaged]
    rfl
  rw [hcommit, Dev.commitTaken_maddr, Dev.commitTaken_svcReaches, if_pos hreach]

theorem Dev.outCommit_reset {full : Bool} (hstaged : d.svc.staged = some (.reset full)) :
    d.outCommit rivals = if full then d.commitTaken.resetRequest 2 4 else d.commitTaken.resetRequest 1 2 := by
  simp only [Dev.outCommit, hstaged]
  rfl

end Commits

section Streams

variable {d : Dev}

/-- EP1 sends up to four unsent records (R683). -/
theorem Dev.eventStream_sends {x : EvtRec} (hstate : d.rd .SVC_STAT_STATE = 4) (hhalt : d.svc.halts.contains 0x81 = false)
    (hlast : (d.unsent.take 4).getLast? = some x) {d1 : Dev}
    (hd1 : d1 = d.emit (.usb 1 ((d.unsent.take 4).flatMap fun r => r.words.flatMap fun w => leBytes w 4))) :
    d.eventStream = { d1 with svc := { d1.svc with stream := (x.w1 + 1) % 2 ^ 32 } } := by
  subst hd1
  refine (if_neg (by simp only [Dev.svcState, hstate, hhalt]; decide)).trans ?_
  simp only [hlast]

/-- EP2 sends the short digest when what it watches changed (R683). -/
theorem Dev.digestInterrupt_sends (hstate : d.rd .SVC_STAT_STATE = 4) (hhalt : d.svc.halts.contains 0x82 = false)
    (htold : d.svc.told ≠ some d.watched) {d1 : Dev} (hd1 : d1 = d.emit (.usb 2 d.shortDigest)) :
    d.digestInterrupt = { d1 with svc := { d1.svc with told := some d.watched } } := by
  subst hd1
  exact if_neg (by simp only [Dev.svcState, hstate, hhalt]; simpa using htold)

/-- A DIGREQ is answered where the last answer is 100 ms old (R702). -/
theorem Dev.digReq_answers {src : Nat} (hgap : ∀ t, Tab.look d.rck.replied src = some t → t + 125000000 ≤ d.now) :
    d.digReq src = d.digReply src := by
  unfold Dev.digReq
  split
  case h_1 t ht => exact if_neg (Nat.not_lt.mpr (hgap t ht))
  case h_2 => rfl

end Streams

/-- Settles O36: the equations of the requests, of their commits, of the two streams and of a DIGREQ. -/
theorem servicePortRequests : Obligations.ServicePortRequests := by
  unfold Obligations.ServicePortRequests
  refine ⟨?regrd, ?regrdRefused, ?regwr, ?digest, ?memrd, ?memrdFails, ?memwr, ?reset, ?fuse, ?commitRegwr, ?commitMemwr,
    ?commitReset, ?commitFuse, ?events, ?interrupt, ?digreq⟩
  case regrd =>
    intro s d off len hmet htalks h
    exact exec_of_met (·.svcRegrd off.toNat len.toNat) hmet (Dev.svcRegrd_admitted htalks h rfl)
  case regrdRefused =>
    intro s d off len x hmet htalks h
    exact exec_of_met (·.svcRegrd off.toNat len.toNat) hmet (Dev.svcRegrd_refused htalks h)
  case regwr =>
    intro s d off words hmet htalks h
    refine exec_of_met (·.svcRegwr off.toNat (words.map BitVec.toNat)) hmet (Dev.svcRegwr_admitted htalks ?_)
    rwa [List.length_map]
  case digest =>
    intro s d hmet htalks
    exact exec_of_met (·.svcDigest 64) hmet (Dev.svcDigest_whole htalks)
  case memrd =>
    intro s d len err hmet htalks h hread
    exact exec_of_met (·.svcMemrd len.toNat err) hmet ((Dev.svcMemrd_admitted htalks h rfl rfl).trans (if_pos hread))
  case memrdFails =>
    intro s d len err hmet htalks h hread
    exact exec_of_met (·.svcMemrd len.toNat err) hmet
      ((Dev.svcMemrd_admitted htalks h rfl rfl).trans (if_neg (Bool.not_eq_true _ ▸ hread)))
  case memwr =>
    intro s d bytes hmet htalks h
    exact exec_of_met (·.svcMemwr bytes) hmet (Dev.svcMemwr_admitted htalks h)
  case reset =>
    intro s d kind hmet htalks hkind hadmits
    exact exec_of_met (·.svcReset kind.toNat 0) hmet (Dev.svcReset_admitted htalks hkind hadmits)
  case fuse =>
    intro s d sel bytes hmet htalks hsel hadmits hopen hlen haccepts
    exact exec_of_met (·.svcFuse sel.toNat bytes) hmet (Dev.svcFuse_admitted htalks hsel hadmits hopen hlen haccepts)
  case commitRegwr =>
    intro s d rivals off words hmet hstaged
    exact exec_of_met (·.outCommit rivals) hmet (Dev.outCommit_regwr rivals hstaged)
  case commitMemwr =>
    intro s d rivals bytes hmet hstaged hreach
    exact exec_of_met (·.outCommit rivals) hmet (Dev.outCommit_memwr rivals hstaged hreach)
  case commitReset =>
    intro s d rivals full hmet hstaged
    exact exec_of_met (·.outCommit rivals) hmet (Dev.outCommit_reset rivals hstaged)
  case commitFuse =>
    intro s d rivals sel val hmet hstaged haccepts
    exact exec_of_met (·.outCommit rivals) hmet ((Dev.outCommit_fuse hstaged rivals).trans (if_pos haccepts))
  case events =>
    intro s d x hmet hstate hhalt hlast
    exact exec_of_met (·.eventStream) hmet (Dev.eventStream_sends hstate hhalt hlast rfl)
  case interrupt =>
    intro s d hmet hstate hhalt htold
    exact exec_of_met (·.digestInterrupt) hmet (Dev.digestInterrupt_sends hstate hhalt htold rfl)
  case digreq =>
    intro s d src hmet hon hbus hother hsolo hgap
    exact exec_received (·.digReq src.val) hmet ⟨hon, hbus, hother, hsolo⟩ (Dev.digReq_answers (d := d.heardOnce) hgap)

end Sys2Proof.Machine
end
